-- ==== Sys2Proof/Word.lean ====
section
/-! DEFINITION. The word types of Sheoc and the lane vector.
A word is 32 bits (R252, R118), a byte 8 (R8, R198); a lane vector holds one word for each of the 32 lanes of a group (R95). -/

namespace Sys2Proof

/-- A 32-bit register or instruction word (R118, R252). -/
abbrev Word := BitVec 32

/-- One byte of memory. -/
abbrev Byte := BitVec 8

/-- The values of the 32 lanes of a register, lane 0 first (R95); an absent lane reads 0. -/
abbrev Lanes := List Word

/-- Lane `l` of a lane vector. -/
def Lanes.at (v : Lanes) (l : Nat) : Word := v.getD l 0#32

/-- The lane vector whose lane `l` is `f l`. -/
def Lanes.ofFn (f : Nat → Word) : Lanes := (List.range 32).map f

end Sys2Proof
end

