-- ==== Sys2Proof/Config.lean ====
section
/-! DEFINITION. What one Sheoc module fixes (R1, R353), and the free values: constants without a body, of which no
proof can learn anything. Each free value is drawn with a counter of the state or applied to the operands it depends on. -/

namespace Sys2Proof.Config

/-- Compute dies, numbered 0 to 19 (R1). -/
def dies : Nat := 20

/-- Cores of a die (R1). -/
def cores : Nat := 16

/-- Pens of a core, 32 in each of four sectors (00_scope, R51). -/
def pens : Nat := 128

/-- Lane-registers of a pen (R135). -/
def penRegs : Nat := 256

/-- Task records a die's task unit holds on chip (R75). -/
def taskStore : Nat := 4096

/-- CAP0 to CAP3 (R353). -/
def cap (n : Nat) : Word :=
  if n = 0 then 0x10140360#32 else if n = 1 then 0x08000060#32
  else if n = 2 then 0x100003ac#32 else 0x10080100#32

/-- FREE VALUE (log 2): the clk that traffic adds to an unloaded latency ("under load any figure may grow, by an amount
that is not fixed", R299; walk reads, R151; feeder tiles, R224; delays across dies, R188). -/
opaque delay : Nat → Nat

/-- FREE VALUE (log 15): whether a TLB still holds an entry it took (R154 gives sizes and no replacement rule). -/
opaque tlbHeld : Nat → Bool

/-- FREE VALUE (log 15): whether the nested TLB still holds the page of a guest-physical address, at a look (R155 gives a size and no
replacement rule). -/
opaque nestedHeld : Nat → Nat → Bool

/-- FREE VALUE (log 5): a reading of the path-delay monitors of a die, in mV, two's complement (R18, R39). -/
opaque marginReading : Nat → BitVec 16

/-- FREE VALUE (log 6): SHA-512, which R38 names and the manual does not define. -/
opaque sha512 : List Byte → BitVec 512

/-- FREE VALUE (log 6): Ed25519 verification of a signature by a key over a digest (R38, R40). -/
opaque ed25519 : BitVec 256 → BitVec 512 → BitVec 512 → Bool

/-- FREE VALUE (log 6): the Vexsyn key (R38). -/
opaque vexsynKey : BitVec 256

/-- FREE VALUE (log 6): the signature a bitstream image carries; the manual gives the image no layout (R38). -/
opaque imageSignature : List Byte → BitVec 512

/-- FREE VALUE (log 6): the key slot that signed an image, 0 for the Vexsyn key (R38). -/
opaque imageSigner : List Byte → Nat

/-- FREE VALUE (log 6): the security version in an image's header (R38). -/
opaque imageVersion : List Byte → Nat

/-- FREE VALUE (log 6): whether an image's header names part PZS-2040 (R38). -/
opaque imageNamesPart : List Byte → Bool

/-- FREE VALUE (log 6): the bytes of an image that its digest covers (R38). -/
opaque imageBody : List Byte → List Byte

/-- FREE VALUE (log 16): the bytes a far module answers a fabric read with; the far module is outside this machine (R12). -/
opaque farByte : Nat → Byte

/-- FREE VALUE (log 128): the bytes of the emulation handler's code, and what it leaves in its own part of a trap frame (R394). -/
opaque handlerByte : Nat → Byte

/-- FREE VALUE (log 127): the bytes of a drafted grain that an uncorrectable error has taken (R92). -/
opaque lostByte : Nat → Byte

/-- FREE VALUE (log 18): a lane left to a result the manual does not state (see the log entry for each use). -/
opaque openWord : Nat → Word

/-- FREE VALUE (log 3): whether the host leaves a read of its memory without an answer (R30, R39, R42). -/
opaque hostRefuses : Nat → Bool

/-- FREE VALUE (log 6): whether a write to the module flash fails (R39). -/
opaque flashFails : Nat → Bool

/-- FREE VALUE (log 4): whether the physical work of a start stage succeeds: link training, HBM training and scrub, core bring-up
(R16, R39). -/
opaque startFails : Nat → Bool

/-- FREE VALUE (log 5): the supply voltage planned for a die, in steps of 2.5 mV (R18). -/
opaque voltagePlan : Nat → Nat

end Sys2Proof.Config
end

