-- ==== Sys2Proof/Syntax.lean ====
section
/-! DEFINITION. The steps of Sheoc: one constructor for each row of the table of operations and events.
Instruction words keep every bit of their fields, reserved ones included: what a reserved field does is said by R256,
where the instruction issues. -/

namespace Sys2Proof

/-! ## Fields of the formats (R258), high bits first -/

/-- Format V, word 0. -/
structure VFmt where
  d : BitVec 8
  a : BitVec 8
  b : BitVec 8
  deriving DecidableEq, Repr

/-- Format V, word 1 of the long form; BFN3 holds its truth table in `pata` and `para` (R260, R277). -/
structure VLong where
  c : BitVec 8
  pata : BitVec 3
  para : BitVec 5
  patb : BitVec 3
  parb : BitVec 5
  deadA : BitVec 1
  deadB : BitVec 1
  deadC : BitVec 1
  keep : BitVec 1
  hint : BitVec 2
  rsvd : BitVec 2
  deriving DecidableEq, Repr

/-- Format VI. -/
structure VIFmt where
  d : BitVec 8
  imm : BitVec 16
  deriving DecidableEq, Repr

/-- Formats M and A, word 0. -/
structure MFmt where
  data : BitVec 8
  g : BitVec 4
  neg : BitVec 1
  gp : BitVec 3
  off : BitVec 8
  deriving DecidableEq, Repr

/-- Format M, word 1 of the long form. -/
structure MLong where
  disp : BitVec 16
  wid : BitVec 3
  scope : BitVec 3
  ord : BitVec 2
  deadD : BitVec 1
  deadO : BitVec 1
  keep : BitVec 1
  o64 : BitVec 1
  hint : BitVec 2
  rsvd : BitVec 2
  deriving DecidableEq, Repr

/-- Format A, word 1. -/
structure ALong where
  val : BitVec 8
  cmp : BitVec 8
  wid : BitVec 3
  scope : BitVec 3
  ord : BitVec 2
  deadD : BitVec 1
  deadO : BitVec 1
  keep : BitVec 1
  o64 : BitVec 1
  hint : BitVec 2
  rsvd : BitVec 2
  deriving DecidableEq, Repr

/-- Format C. -/
structure CFmt where
  neg : BitVec 1
  gp : BitVec 3
  offs : BitVec 20
  deriving DecidableEq, Repr

/-- Format K. -/
structure KFmt where
  p : BitVec 24
  deriving DecidableEq, Repr

/-- Format B. -/
structure BFmt where
  s : BitVec 8
  n : BitVec 16
  deriving DecidableEq, Repr

/-- Format G. -/
structure GFmt where
  s : BitVec 8
  g : BitVec 4
  idx : BitVec 12
  deriving DecidableEq, Repr

/-- Format Q. -/
structure QFmt where
  d : BitVec 8
  z1 : BitVec 5
  f : BitVec 3
  z2 : BitVec 5
  qn : BitVec 3
  deriving DecidableEq, Repr

/-- Format T. -/
structure TFmt where
  s : BitVec 8
  u : BitVec 8
  fl : BitVec 1
  slot : BitVec 7
  deriving DecidableEq, Repr

/-- Format E, word 0. -/
structure EFmt where
  gd : BitVec 4
  gs : BitVec 4
  p : BitVec 8
  q : BitVec 8
  deriving DecidableEq, Repr

/-- Format E, word 1. -/
structure ELong where
  x : BitVec 8
  bsel : BitVec 6
  z1 : BitVec 2
  y : BitVec 8
  z2 : BitVec 6
  rsvd : BitVec 2
  deriving DecidableEq, Repr

/-- Format X, word 0. -/
structure XFmt where
  a : BitVec 7
  b0 : BitVec 7
  b1 : BitVec 7
  pair : BitVec 1
  hint : BitVec 2
  deriving DecidableEq, Repr

/-- Format X, word 1. -/
structure XLong where
  m : BitVec 8
  n : BitVec 8
  k : BitVec 8
  clr : BitVec 1
  bar : BitVec 4
  rel : BitVec 1
  rsvd : BitVec 2
  deriving DecidableEq, Repr

/-- Format XD, word 0. -/
structure XDFmt where
  g : BitVec 4
  z : BitVec 4
  o : BitVec 8
  pt : BitVec 8
  deriving DecidableEq, Repr

/-- Format XD, word 1. -/
structure XDLong where
  rq : BitVec 8
  z : BitVec 21
  add : BitVec 1
  rsvd : BitVec 2
  deriving DecidableEq, Repr

/-! ## The things events are about -/

/-- A core of the module. -/
structure CoreKey where
  die : Nat
  core : Nat
  deriving DecidableEq, Repr

/-- A group slot: 4 x pen + residency index (R50). -/
structure GKey where
  die : Nat
  core : Nat
  slot : Nat
  deriving DecidableEq, Repr

/-- A pen of a core (R50). -/
structure PenKey where
  die : Nat
  core : Nat
  pen : Nat
  deriving DecidableEq, Repr

/-- How the work of a start stage ended: done, or failed with a code of R39 on a die. -/
inductive StageOut where
  | ok
  | bad (code : Byte) (die : Nat)
  deriving DecidableEq, Repr

/-- The classes of flits (R13). -/
inductive FlitClass where
  | req | rsp | bcast | mgmt
  deriving DecidableEq, Repr

/-- FWLOG.KIND (R22). -/
inductive MasterKind where
  | group | copy | matrix | feeder
  deriving DecidableEq, Repr

/-- A master as FWLOG and UNFRZ name it (R22, R25). -/
structure Master where
  die : Nat
  core : Nat
  kind : MasterKind
  slot : Nat
  deriving DecidableEq, Repr

/-- What a reading of a shard brought: an error, or the bytes (R42). -/
inductive ShardGot where
  | error
  | bytes (data : List Byte)
  deriving DecidableEq, Repr

/-- Whose budget ticks (R56, R90). -/
inductive BudgetOf where
  | team (team : Nat)
  | task (part ctx task : Nat)
  deriving DecidableEq, Repr

/-- What is retried with a fresh walk (R158, R148, R223, R231, R319, R37, R401, R58). -/
inductive RetryOf where
  | sideLog (g : GKey)
  | feeder (die feeder : Nat)
  | drain (core : CoreKey) (id : Nat)
  | copy (core : CoreKey) (cmd : Nat)
  | node (launch node : Nat)
  | rubric (die ctx idx op sel act : Nat)
  | event (part ctx name : Nat)
  deriving DecidableEq, Repr

/-- Who learns that a descriptor change is complete: nobody, RBRES of a context that still answers for this act, or the status scalar of an UNBIND
(R144, R148, R315). -/
inductive SyncAnswer where
  | none
  | rbres (die ctx act : Nat)
  | scalar (g : GKey) (team : Nat) (s : Nat)
  deriving DecidableEq, Repr

/-- An act on an event (R57, R338): a signal, with the group that made it and its team, the wait or test of a group, the wait of a graph
node, or the reading of the count that a graph node's wait is to differ from. -/
inductive EventAct where
  | signal (by_ : Option (GKey × Nat))
  | wait (g : GKey) (team : Nat) (v : Word)
  | test (g : GKey) (id : Nat) (s : Nat)
  | node (launch node : Nat)
  | peek (launch node : Nat)
  deriving DecidableEq, Repr

/-- An act on a work queue (R346), with its identity on the scoreboard and the queue's number among those of its die's
contexts, 8 × context + q: the lanes that pop with the register of each, the values
pushed, or a count. -/
inductive QueueAct where
  | pop (id q : Nat) (regs : List Nat) (f : Nat) (mask : Word)
  | push (id q : Nat) (f : Nat) (mask : Word) (vals : Lanes)
  | count (id q : Nat) (s : Nat)
  deriving DecidableEq, Repr

/-- A barrier: of a team, of a cluster or of a grid (R112). -/
inductive BarKey where
  | team (team n : Nat)
  | cluster (cluster n : Nat)
  | grid (launch node n : Nat)
  deriving DecidableEq, Repr

/-- What reaches a barrier (R113, R114, R336): the arrival of a group, the arrival an MMA makes for its group, bytes
expected, bytes posted. -/
inductive BarAct where
  | arrive (g : GKey) (team : Nat)
  | arriveMma (g : GKey) (team : Nat)
  | expect (n : Word)
  | post (n : Nat)
  deriving DecidableEq, Repr

/-- An entry of an object's version note: opcode, the level that defines the encoding, whether its fallback is to refuse, and the bits of the second
word that identify the encoding (R248). -/
structure NoteEntry where
  opc : Byte
  lvl : Nat
  refuse : Bool
  mask : Word
  val : Word
  deriving DecidableEq, Repr

/-- An object as the loader takes it (R249 to R251, R394): its context, the selectors of its CODE segment, one for each kernel (R250), the bytes of its
code section, and its version note: the minimum and the built level, and the entries. -/
structure EmuObject where
  part : Nat
  ctx : Nat
  sels : List (BitVec 16)
  size : Nat
  minLevel : Nat
  builtLevel : Nat
  note : List NoteEntry
  deriving DecidableEq, Repr

/-- The AtomicOps that a host link completes (R26); `cas` names the value to compare with. -/
inductive HostAtomic where
  | fetchAdd
  | swap
  | cas (cmp : BitVec 64)
  deriving DecidableEq, Repr

/-- Where an uncorrectable error lies (R168); `corrected` is a corrected error of a die. -/
inductive ErrorAt where
  | corrected (die : Nat)
  | group (g : GKey)
  | bank (core : CoreKey) (bank : Nat)
  | draft (part ctx task grain : Nat)
  | tile (core : CoreKey) (slot : Nat)
  | accumulators (core : CoreKey)
  | cleanLine (die : Nat)
  | hbm (die off : Nat)
  | folio (die region : Nat)
  | queue (die ctx q index : Nat)
  deriving DecidableEq, Repr

/-- What an event of the module is about: the table's 98 events, each with the thing it happens to. The agenda of the
state holds these. -/
inductive Event where
  | powerOn
  | moduleReset
  | stageAdvance (out : StageOut)
  | thermalWarning (die : Nat)
  | thermalTrip (die : Nat)
  | marginCheck
  | stage
  | margin
  | stagebits
  | enrol
  | revoke
  | unknownMailboxCommand (code : Byte)
  | apply
  | retire (die : Nat)
  | fwctlWrite (link : Nat) (value : Word)
  | linkFlitArrive (link : Nat) (up : Bool) (cls : FlitClass) (leaves : Bool)
  | linkStopSignal (link : Nat) (up : Bool) (cls : FlitClass)
  | unfreezeResume (m : Master)
  | unfreezeKill (m : Master)
  | fabricRequestArrive (port : Nat) (write : Bool) (off : Nat) (width : Nat) (data : List Byte)
  | fpctlWrite (port : Nat) (value : Word)
  | queueEnable (fn q : Nat)
  | drain (fn q : Nat)
  | queueDisable (fn q : Nat)
  | queueDrainDone (q : Nat)
  | kick (fn q off width : Nat) (value : BitVec 64)
  | launchStart (launch : Nat)
  | launchRetire (launch : Nat)
  | statusWrite (q : Nat)
  | gcmd (fn : Nat) (value : BitVec 64)
  | gunreg (fn : Nat) (handle : Word)
  | nodeStart (launch node : Nat)
  | nodeFinish (launch node : Nat)
  | shardReceive (part shard : Nat) (got : ShardGot)
  | generationPublish (part : Nat)
  | contextStart (die ctx : Nat)
  | sliceEnd (die seq : Nat)
  | flashbackTimeout (g : GKey) (team : Nat)
  | groupSave (g : GKey) (team : Nat)
  | groupRestore (die saved : Nat)
  | clusterPlace (die launch node : Nat)
  | objectLoad (object : EmuObject)
  | headBlocking (die launch node cluster : Nat)
  | clauseStart (pen : PenKey)
  | clauseFetchArrive (g : GKey)
  | budgetTick (who : BudgetOf)
  | budgetGraceExpire (team : Nat)
  | pkctlResume (die core slot : Nat) (by_ : Option Nat)
  | pkctlKill (die core slot : Nat) (by_ : Option Nat)
  | fqciWrite (die ctx : Nat) (value : Word)
  | faultRetry (what : RetryOf)
  | priResponse (die ctx page : Nat) (ok : Bool)
  | atsInvalidate (pasid : Nat) (lo hi : Nat)
  | tlbinv (die ctx : Nat) (value : BitVec 64)
  | tlbinvDone (die ctx : Nat)
  | segsync (die ctx : Nat) (value : Word)
  | descriptorSyncDone (part ctx : Nat) (sel : Option Nat) (answer : SyncAnswer)
  | rbcmdBind (die ctx idx sel : Nat)
  | rbcmdUnbind (die ctx idx : Nat)
  | rbcmdUnbindRevoke (die ctx idx : Nat)
  | rbcmdRetire (die ctx idx : Nat)
  | contextEnable (die ctx : Nat)
  | contextDisable (die ctx : Nat)
  | contextKill (die ctx : Nat) (holdEn0 : Bool)
  | contextIdle (die ctx : Nat)
  | eventActArrive (part ctx name : Nat) (act : EventAct)
  | eventCountUpdate (die ctx name : Nat) (count : Word)
  | eventWake (g : GKey) (team : Nat)
  | queueActArrive (g : GKey) (act : QueueAct)
  | queueSwapInDone (die ctx q : Nat)
  | accessComplete (access : Nat)
  | loadReturn (access lane : Nat)
  | taskDispatch (die part ctx : Nat)
  | frontierSample (part ctx dom : Nat)
  | frontierUpdate (part ctx dom die other : Nat)
  | taskCommit (part ctx die : Nat)
  | spillRefill (die part ctx : Nat)
  | barrierArrive (bar : BarKey) (act : BarAct)
  | copyStart (core : CoreKey)
  | copyBeat (core : CoreKey) (cmd : Nat)
  | copyComplete (core : CoreKey) (cmd : Nat)
  | feederTileLand (die feeder : Nat)
  | tileLoadLand (core : CoreKey) (slot : Nat)
  | matrixOpStart (core : CoreKey) (op : Nat)
  | matrixOpRetire (core : CoreKey) (op : Nat)
  | subarrayGate (core : CoreKey) (sub : Nat)
  | drainComplete (core : CoreKey) (drain : Nat)
  | pairBind (core : CoreKey)
  | pairEnd (core : CoreKey)
  | claimGrant (pen : PenKey)
  | deadlockCheck (pen : PenKey)
  | teamRetire (team : Nat)
  | folioRefresh (die : Nat)
  | uncorrectableError (at_ : ErrorAt)
  | registerWrite (fn bar off width : Nat) (value : BitVec 64)
  | registerAtomic (fn bar off width : Nat) (op : HostAtomic) (value : BitVec 64)
  | registerReadClear (fn bar off width : Nat)
  | fabricPortLinkTraining (port : Nat) (up : Bool)
  | fabricRefusalReceive (access lane : Nat)
  | atsTranslationCompletion (die ctx page : Nat) (ok : Bool)
  deriving DecidableEq, Repr

/-- Every row of spec/opcode_table.json: the instructions in short and long form, then the 98 events of the module.
An instruction carries the fields of its words (R258), but for format K, whose one field P is read where the instruction
stands (log 17); an event is about the thing the state's `subject` names (log 17): Lean's runtime gives a type at most
245 constructors that carry fields. -/
inductive Instr where
  /-- BRA (R107). Guarded branch that may split the group under the top reconvergence entry. -/
  | bra (f : CFmt)
  /-- BRU (R328). Uniform branch taken if any guarded active lane is true. -/
  | bru (f : CFmt)
  /-- CALL (R329). Writes the return address to s60 and s61 and jumps. -/
  | call (f : CFmt)
  /-- CALLR (R329). Calls through a BOUND CODE rubric entry, loading g15. -/
  | callr (f : GFmt)
  /-- DIV (R331). Pushes a reconvergence entry whose PC is the target. -/
  | div (f : CFmt)
  /-- BAR (R336). Arrives on a barrier, then waits. -/
  | bar (f : BFmt)
  /-- BARA (R336). Arrives on a barrier. -/
  | bara (f : BFmt)
  /-- BARW (R336). Waits on the phase that holds the group's latest arrival. -/
  | barw (f : BFmt)
  /-- BAREXP (R336). Adds a byte count to E of the barrier phase. -/
  | barexp (f : BFmt)
  /-- EVSIG (R338). Release at device scope, then adds 1 to the event count. -/
  | evsig (f : BFmt)
  /-- EVWAIT (R338). Waits until the event count differs from v, then acquires. -/
  | evwait (f : BFmt)
  /-- EVTEST (R338). Reads the event count into a scalar. -/
  | evtest (f : BFmt)
  /-- WAITP (R340). Waits until a path counter is at or below a threshold. -/
  | waitp (f : BFmt)
  /-- ELECT (R341). Sets only the lowest active lane's bit of a predicate. -/
  | elect (f : BFmt)
  /-- PMASK (R342). Summarises a predicate over the active lanes into a scalar. -/
  | pmask (f : BFmt)
  /-- IADD (R274). Per-lane integer add. -/
  | iadd (f : VFmt)
  /-- IADD_LONG (R274). Long form of IADD. -/
  | iaddLong (f : VFmt) (x : VLong)
  /-- ISUB (R274). Per-lane integer subtract. -/
  | isub (f : VFmt)
  /-- ISUB_LONG (R274). Long form of ISUB. -/
  | isubLong (f : VFmt) (x : VLong)
  /-- IMUL (R274). Low 32 bits of the product. -/
  | imul (f : VFmt)
  /-- IMUL_LONG (R274). Long form of IMUL. -/
  | imulLong (f : VFmt) (x : VLong)
  /-- IMULHS (R274). High 32 bits of the signed product. -/
  | imulhs (f : VFmt)
  /-- IMULHS_LONG (R274). Long form of IMULHS. -/
  | imulhsLong (f : VFmt) (x : VLong)
  /-- IMULHU (R274). High 32 bits of the unsigned product. -/
  | imulhu (f : VFmt)
  /-- IMULHU_LONG (R274). Long form of IMULHU. -/
  | imulhuLong (f : VFmt) (x : VLong)
  /-- IMAD (R274). a × b + c modulo 2^32; short form reads C as 0. -/
  | imad (f : VFmt)
  /-- IMAD_LONG (R274). Long form of IMAD with source C. -/
  | imadLong (f : VFmt) (x : VLong)
  /-- IADDC (R274). Carry out of a + b + (c and 1). -/
  | iaddc (f : VFmt)
  /-- IADDC_LONG (R274). Long form of IADDC. -/
  | iaddcLong (f : VFmt) (x : VLong)
  /-- IABS (R274). Absolute value of signed a. -/
  | iabs (f : VFmt)
  /-- IABS_LONG (R274). Long form of IABS. -/
  | iabsLong (f : VFmt) (x : VLong)
  /-- IMIN (R274). Signed minimum. -/
  | imin (f : VFmt)
  /-- IMIN_LONG (R274). Long form of IMIN. -/
  | iminLong (f : VFmt) (x : VLong)
  /-- IMAX (R274). Signed maximum. -/
  | imax (f : VFmt)
  /-- IMAX_LONG (R274). Long form of IMAX. -/
  | imaxLong (f : VFmt) (x : VLong)
  /-- IMINU (R274). Unsigned minimum. -/
  | iminu (f : VFmt)
  /-- IMINU_LONG (R274). Long form of IMINU. -/
  | iminuLong (f : VFmt) (x : VLong)
  /-- IMAXU (R274). Unsigned maximum. -/
  | imaxu (f : VFmt)
  /-- IMAXU_LONG (R274). Long form of IMAXU. -/
  | imaxuLong (f : VFmt) (x : VLong)
  /-- IADDS (R274). Saturating signed add that sets SATD on a clamp. -/
  | iadds (f : VFmt)
  /-- IADDS_LONG (R274). Long form of IADDS. -/
  | iaddsLong (f : VFmt) (x : VLong)
  /-- ICMP (R275). Signed per-lane compare to a predicate. -/
  | icmp (f : VFmt)
  /-- ICMP_LONG (R275). Long form of ICMP. -/
  | icmpLong (f : VFmt) (x : VLong)
  /-- ICMPU (R275). Unsigned per-lane compare to a predicate. -/
  | icmpu (f : VFmt)
  /-- ICMPU_LONG (R275). Long form of ICMPU. -/
  | icmpuLong (f : VFmt) (x : VLong)
  /-- IADDI (R274). Adds a sign-extended immediate to the destination. -/
  | iaddi (f : VIFmt)
  /-- AND (R276). Bitwise and. -/
  | and (f : VFmt)
  /-- AND_LONG (R276). Long form of AND. -/
  | andLong (f : VFmt) (x : VLong)
  /-- OR (R276). Bitwise or. -/
  | or (f : VFmt)
  /-- OR_LONG (R276). Long form of OR. -/
  | orLong (f : VFmt) (x : VLong)
  /-- XOR (R276). Bitwise xor. -/
  | xor (f : VFmt)
  /-- XOR_LONG (R276). Long form of XOR. -/
  | xorLong (f : VFmt) (x : VLong)
  /-- ANDN (R276). a and not b. -/
  | andn (f : VFmt)
  /-- ANDN_LONG (R276). Long form of ANDN. -/
  | andnLong (f : VFmt) (x : VLong)
  /-- SHL (R276). Shift left. -/
  | shl (f : VFmt)
  /-- SHL_LONG (R276). Long form of SHL. -/
  | shlLong (f : VFmt) (x : VLong)
  /-- SHR (R276). Logical shift right. -/
  | shr (f : VFmt)
  /-- SHR_LONG (R276). Long form of SHR. -/
  | shrLong (f : VFmt) (x : VLong)
  /-- SAR (R276). Arithmetic shift right. -/
  | sar (f : VFmt)
  /-- SAR_LONG (R276). Long form of SAR. -/
  | sarLong (f : VFmt) (x : VLong)
  /-- ROT (R276). Rotate left. -/
  | rot (f : VFmt)
  /-- ROT_LONG (R276). Long form of ROT. -/
  | rotLong (f : VFmt) (x : VLong)
  /-- POPC (R276). Population count. -/
  | popc (f : VFmt)
  /-- POPC_LONG (R276). Long form of POPC. -/
  | popcLong (f : VFmt) (x : VLong)
  /-- CLZ (R276). Count of leading zero bits. -/
  | clz (f : VFmt)
  /-- CLZ_LONG (R276). Long form of CLZ. -/
  | clzLong (f : VFmt) (x : VLong)
  /-- BREV (R276). Bit reverse. -/
  | brev (f : VFmt)
  /-- BREV_LONG (R276). Long form of BREV. -/
  | brevLong (f : VFmt) (x : VLong)
  /-- BFX (R276). Bit field extract. -/
  | bfx (f : VFmt)
  /-- BFX_LONG (R276). Long form of BFX. -/
  | bfxLong (f : VFmt) (x : VLong)
  /-- BFI (R276). Bit field insert into c. -/
  | bfi (f : VFmt)
  /-- BFI_LONG (R276). Long form of BFI with source C. -/
  | bfiLong (f : VFmt) (x : VLong)
  /-- BFN3 (R277). Three-input bitwise function given by a truth table; long form only. -/
  | bfn3 (f : VFmt) (x : VLong)
  /-- MOVI (R276). Moves a sign-extended immediate. -/
  | movi (f : VIFmt)
  /-- MOVHI (R276). Sets the high half of the destination from an immediate. -/
  | movhi (f : VIFmt)
  /-- FADD (R278). FP32 add with rne. -/
  | fadd (f : VFmt)
  /-- FADD_LONG (R278). Long form of FADD. -/
  | faddLong (f : VFmt) (x : VLong)
  /-- FSUB (R278). FP32 subtract in a vector clause. -/
  | fsub (f : VFmt)
  /-- FSUB_LONG (R278). Long form of FP32 FSUB. -/
  | fsubLong (f : VFmt) (x : VLong)
  /-- FMUL (R278). FP32 multiply. -/
  | fmul (f : VFmt)
  /-- FMUL_LONG (R278). Long form of FMUL. -/
  | fmulLong (f : VFmt) (x : VLong)
  /-- FFMA (R278). Fused a × b + c with one rounding. -/
  | ffma (f : VFmt)
  /-- FFMA_LONG (R278). Long form of FFMA with source C. -/
  | ffmaLong (f : VFmt) (x : VLong)
  /-- FMIN (R280). FP32 minimum. -/
  | fmin (f : VFmt)
  /-- FMIN_LONG (R280). Long form of FMIN. -/
  | fminLong (f : VFmt) (x : VLong)
  /-- FMAX (R280). FP32 maximum. -/
  | fmax (f : VFmt)
  /-- FMAX_LONG (R280). Long form of FMAX. -/
  | fmaxLong (f : VFmt) (x : VLong)
  /-- FCMP (R281). FP32 compare to a predicate. -/
  | fcmp (f : VFmt)
  /-- FCMP_LONG (R281). Long form of FCMP. -/
  | fcmpLong (f : VFmt) (x : VLong)
  /-- FRCP (R278). Correctly rounded reciprocal. -/
  | frcp (f : VFmt)
  /-- FRCP_LONG (R278). Long form of FRCP. -/
  | frcpLong (f : VFmt) (x : VLong)
  /-- FRSQ (R278). Correctly rounded reciprocal square root. -/
  | frsq (f : VFmt)
  /-- FRSQ_LONG (R278). Long form of FRSQ. -/
  | frsqLong (f : VFmt) (x : VLong)
  /-- FSQRT (R278). Correctly rounded square root. -/
  | fsqrt (f : VFmt)
  /-- FSQRT_LONG (R278). Long form of FSQRT. -/
  | fsqrtLong (f : VFmt) (x : VLong)
  /-- FEXP2 (R278). Correctly rounded 2^a. -/
  | fexp2 (f : VFmt)
  /-- FEXP2_LONG (R278). Long form of FEXP2. -/
  | fexp2Long (f : VFmt) (x : VLong)
  /-- FLOG2 (R278). Correctly rounded log2 a. -/
  | flog2 (f : VFmt)
  /-- FLOG2_LONG (R278). Long form of FLOG2. -/
  | flog2Long (f : VFmt) (x : VLong)
  /-- FSIN (R278). Correctly rounded sin(π·a). -/
  | fsin (f : VFmt)
  /-- FSIN_LONG (R278). Long form of FSIN. -/
  | fsinLong (f : VFmt) (x : VLong)
  /-- FCOS (R278). Correctly rounded cos(π·a). -/
  | fcos (f : VFmt)
  /-- FCOS_LONG (R278). Long form of FCOS. -/
  | fcosLong (f : VFmt) (x : VLong)
  /-- FTANH (R278). Correctly rounded tanh a. -/
  | ftanh (f : VFmt)
  /-- FTANH_LONG (R278). Long form of FTANH. -/
  | ftanhLong (f : VFmt) (x : VLong)
  /-- FCLASS (R282). Writes a one-hot class mask of a. -/
  | fclass (f : VFmt)
  /-- FCLASS_LONG (R282). Long form of FCLASS. -/
  | fclassLong (f : VFmt) (x : VLong)
  /-- HADD2 (R283). Packed 16-bit add. -/
  | hadd2 (f : VFmt)
  /-- HADD2_LONG (R283). Long form of HADD2. -/
  | hadd2Long (f : VFmt) (x : VLong)
  /-- HMUL2 (R283). Packed 16-bit multiply. -/
  | hmul2 (f : VFmt)
  /-- HMUL2_LONG (R283). Long form of HMUL2. -/
  | hmul2Long (f : VFmt) (x : VLong)
  /-- HFMA2 (R283). Packed 16-bit fused multiply-add. -/
  | hfma2 (f : VFmt)
  /-- HFMA2_LONG (R283). Long form of HFMA2 with source C. -/
  | hfma2Long (f : VFmt) (x : VLong)
  /-- HMAX2 (R283). Packed 16-bit maximum. -/
  | hmax2 (f : VFmt)
  /-- HMAX2_LONG (R283). Long form of HMAX2. -/
  | hmax2Long (f : VFmt) (x : VLong)
  /-- HMIN2 (R283). Packed 16-bit minimum. -/
  | hmin2 (f : VFmt)
  /-- HMIN2_LONG (R283). Long form of HMIN2. -/
  | hmin2Long (f : VFmt) (x : VLong)
  /-- HCMP2 (R284). Packed 16-bit compare, combined into one predicate bit. -/
  | hcmp2 (f : VFmt)
  /-- HCMP2_LONG (R284). Long form of HCMP2. -/
  | hcmp2Long (f : VFmt) (x : VLong)
  /-- QDOT4 (R285). Four-element FP8 dot product plus an FP32 addend. -/
  | qdot4 (f : VFmt)
  /-- QDOT4_LONG (R285). Long form of QDOT4 with source C. -/
  | qdot4Long (f : VFmt) (x : VLong)
  /-- F2I (R286). FP32 to integer by mode. -/
  | f2i (f : VFmt)
  /-- F2I_LONG (R286). Long form of F2I. -/
  | f2iLong (f : VFmt) (x : VLong)
  /-- I2F (R286). Integer to FP32 by mode. -/
  | i2f (f : VFmt)
  /-- I2F_LONG (R286). Long form of I2F. -/
  | i2fLong (f : VFmt) (x : VLong)
  /-- F2H (R286). Narrows two FP32 values to packed H16. -/
  | f2h (f : VFmt)
  /-- F2H_LONG (R286). Long form of F2H. -/
  | f2hLong (f : VFmt) (x : VLong)
  /-- H2F (R286). Widens one H16 element to FP32. -/
  | h2f (f : VFmt)
  /-- H2F_LONG (R286). Long form of H2F. -/
  | h2fLong (f : VFmt) (x : VLong)
  /-- F2Q (R286). Narrows two FP32 values to Q8 and shifts them into packed C. -/
  | f2q (f : VFmt)
  /-- F2Q_LONG (R286). Long form of F2Q with source C. -/
  | f2qLong (f : VFmt) (x : VLong)
  /-- Q2F (R286). Widens one Q8 element to FP32. -/
  | q2f (f : VFmt)
  /-- Q2F_LONG (R286). Long form of Q2F. -/
  | q2fLong (f : VFmt) (x : VLong)
  /-- F2N (R286). Narrows two FP32 values to E2M1 and shifts them into packed C. -/
  | f2n (f : VFmt)
  /-- F2N_LONG (R286). Long form of F2N with source C. -/
  | f2nLong (f : VFmt) (x : VLong)
  /-- N2F (R286). Widens one E2M1 element to FP32. -/
  | n2f (f : VFmt)
  /-- N2F_LONG (R286). Long form of N2F. -/
  | n2fLong (f : VFmt) (x : VLong)
  /-- BSCL (R286). Scales FP32 by a UE8M0 scale. -/
  | bscl (f : VFmt)
  /-- BSCL_LONG (R286). Long form of BSCL. -/
  | bsclLong (f : VFmt) (x : VLong)
  /-- FRND (R286). Rounds FP32 to an integral value by mode. -/
  | frnd (f : VFmt)
  /-- FRND_LONG (R286). Long form of FRND. -/
  | frndLong (f : VFmt) (x : VLong)
  /-- MOV (R287). Per-lane move or lane permutation. -/
  | mov (f : VFmt)
  /-- MOV_LONG (R287). Long form of MOV with a crossbar pattern. -/
  | movLong (f : VFmt) (x : VLong)
  /-- SEL (R287). Per-lane select by a guard; long form only. -/
  | sel (f : VFmt) (x : VLong)
  /-- PERM (R288). Gathers from other lanes by a per-lane index. -/
  | perm (f : VFmt)
  /-- PERM_LONG (R288). Long form of PERM. -/
  | permLong (f : VFmt) (x : VLong)
  /-- ISCAN (R289). Inclusive integer scan in lane order. -/
  | iscan (f : VFmt)
  /-- ISCAN_LONG (R289). Long form of ISCAN. -/
  | iscanLong (f : VFmt) (x : VLong)
  /-- FSCAN (R289). Inclusive FP scan in lane order. -/
  | fscan (f : VFmt)
  /-- FSCAN_LONG (R289). Long form of FSCAN. -/
  | fscanLong (f : VFmt) (x : VLong)
  /-- IRED (R289). Integer reduction over the active lanes. -/
  | ired (f : VFmt)
  /-- IRED_LONG (R289). Long form of IRED. -/
  | iredLong (f : VFmt) (x : VLong)
  /-- FRED (R289). FP reduction over the active lanes. -/
  | fred (f : VFmt)
  /-- FRED_LONG (R289). Long form of FRED. -/
  | fredLong (f : VFmt) (x : VLong)
  /-- MOVS (R290). Copies one lane of a source to a scalar. -/
  | movs (f : VFmt)
  /-- MOVS_LONG (R290). Long form of MOVS. -/
  | movsLong (f : VFmt) (x : VLong)
  /-- PMOV (R291). Sets predicate bits from a per-lane value test. -/
  | pmov (f : VFmt)
  /-- PMOV_LONG (R291). Long form of PMOV. -/
  | pmovLong (f : VFmt) (x : VLong)
  /-- PLOG (R292). Uniform logic on whole predicates. -/
  | plog (f : VFmt)
  /-- PLOG_LONG (R292). Long form of PLOG. -/
  | plogLong (f : VFmt) (x : VLong)
  /-- LD (R300). Per-lane load of width bytes. -/
  | ld (f : MFmt)
  /-- LD_LONG (R300). Long form of LD with displacement, width, order and scope. -/
  | ldLong (f : MFmt) (x : MLong)
  /-- ST (R304). Guarded per-lane store. -/
  | st (f : MFmt)
  /-- ST_LONG (R304). Long form of ST with displacement, width, order and scope. -/
  | stLong (f : MFmt) (x : MLong)
  /-- LDU (R300). One load at the lowest active lane's offset, broadcast to lanes or a scalar. -/
  | ldu (f : MFmt)
  /-- LDU_LONG (R300). Long form of LDU. -/
  | lduLong (f : MFmt) (x : MLong)
  /-- LDA (R300). Load of consecutive elements indexed by lane number. -/
  | lda (f : MFmt)
  /-- LDA_LONG (R300). Long form of LDA. -/
  | ldaLong (f : MFmt) (x : MLong)
  /-- STL (R304). Store of consecutive elements indexed by lane number. -/
  | stl (f : MFmt)
  /-- STL_LONG (R304). Long form of STL. -/
  | stlLong (f : MFmt) (x : MLong)
  /-- PREF (R302). Prefetches grains into a home slice or core copy, never trapping. -/
  | pref (f : MFmt)
  /-- PREF_LONG (R302). Long form of PREF. -/
  | prefLong (f : MFmt) (x : MLong)
  /-- AXCH (R306). Atomic exchange. -/
  | axch (f : MFmt) (x : ALong)
  /-- ACAS (R306). Atomic compare and swap. -/
  | acas (f : MFmt) (x : ALong)
  /-- AADD (R306). Atomic integer add with return. -/
  | aadd (f : MFmt) (x : ALong)
  /-- AMIN (R306). Atomic signed minimum with return. -/
  | amin (f : MFmt) (x : ALong)
  /-- AMAX (R306). Atomic signed maximum with return. -/
  | amax (f : MFmt) (x : ALong)
  /-- AAND (R306). Atomic and with return. -/
  | aand (f : MFmt) (x : ALong)
  /-- AOR (R306). Atomic or with return. -/
  | aor (f : MFmt) (x : ALong)
  /-- AXOR (R306). Atomic xor with return. -/
  | axor (f : MFmt) (x : ALong)
  /-- AFADD (R306). Atomic FP32 add with return. -/
  | afadd (f : MFmt) (x : ALong)
  /-- RADD (R306). Integer add reduction without return. -/
  | radd (f : MFmt) (x : ALong)
  /-- RFADD (R306). FP32 add reduction without return. -/
  | rfadd (f : MFmt) (x : ALong)
  /-- RMAX (R306). Signed maximum reduction without return. -/
  | rmax (f : MFmt) (x : ALong)
  /-- LINK (R147). Loads a segment register from a BOUND rubric entry, or raises LINK. -/
  | link (f : GFmt)
  /-- GLD (R312). Loads a segment register from a selector. -/
  | gld (f : GFmt)
  /-- GMOV (R312). Copies a segment register. -/
  | gmov (f : GFmt)
  /-- SEGQ (R313). Queries a segment register's cached fields. -/
  | segq (f : GFmt)
  /-- CPY (R318). Copy-engine copy of count bytes. -/
  | cpy (f : EFmt) (x : ELong)
  /-- CPY2D (R318). Copy-engine two-dimensional copy. -/
  | cpy2d (f : EFmt) (x : ELong)
  /-- FSUB_FEEDER (R321). Feeder subscription in an engine clause. -/
  | fsubFeeder (f : EFmt) (x : ELong)
  /-- UNBIND (R315). Applies UNBIND, UNBIND with revoke or RETIRE to a rubric entry. -/
  | unbind (f : GFmt)
  /-- BIND (R314). Applies BIND to a rubric entry. -/
  | bind (f : GFmt)
  /-- TCLM (R365). Claims a tile slot and writes its status. -/
  | tclm (f : TFmt)
  /-- TREL (R366). Releases a tile slot to EMPTY, or to FREE with .free. -/
  | trel (f : TFmt)
  /-- TLD (R367). Loads a slot image from memory. -/
  | tld (f : TFmt)
  /-- MMA (R370). Matrix multiply-accumulate on the array. -/
  | mma (f : XFmt) (x : XLong)
  /-- MMAS (R370). Block-scaled matrix multiply-accumulate. -/
  | mmas (f : XFmt) (x : XLong)
  /-- AWIN (R371). Group 0 sets a group's accumulator window. -/
  | awin (f : TFmt)
  /-- ACLR (R372). Clears accumulator rows within the window. -/
  | aclr (f : TFmt)
  /-- ADRN (R376). Drains an accumulator rectangle to memory, plain or add-on-store. -/
  | adrn (f : XDFmt) (x : XDLong)
  /-- ALD (R374). Per-lane read of an accumulator element. -/
  | ald (f : VFmt)
  /-- ALD_LONG (R374). Long form of ALD. -/
  | aldLong (f : VFmt) (x : VLong)
  /-- AST (R374). Per-lane write of an accumulator element. -/
  | ast (f : VFmt)
  /-- AST_LONG (R374). Long form of AST. -/
  | astLong (f : VFmt) (x : VLong)
  /-- TSPAWN (R344). Enqueues per-lane child task records and writes their statuses. -/
  | tspawn (f : MFmt)
  /-- TSPAWN_LONG (R344). Long form of TSPAWN. -/
  | tspawnLong (f : MFmt) (x : MLong)
  /-- QPOP (R347). Pops a record per active lane from a work queue. -/
  | qpop (f : QFmt)
  /-- QPUSH (R347). Appends a record per active lane to a work queue. -/
  | qpush (f : QFmt)
  /-- QCNT (R348). Reads a work queue's record count. -/
  | qcnt (f : QFmt)
  /-- LAUNCH (R351). Device launch of a grid from a descriptor, with a status. -/
  | launch (f : GFmt)
  /-- SADD (R293). Scalar add. -/
  | sadd (f : VFmt)
  /-- SADD_LONG (R293). Long form of SADD. -/
  | saddLong (f : VFmt) (x : VLong)
  /-- SSUB (R293). Scalar subtract. -/
  | ssub (f : VFmt)
  /-- SSUB_LONG (R293). Long form of SSUB. -/
  | ssubLong (f : VFmt) (x : VLong)
  /-- SMUL (R293). Scalar multiply. -/
  | smul (f : VFmt)
  /-- SMUL_LONG (R293). Long form of SMUL. -/
  | smulLong (f : VFmt) (x : VLong)
  /-- SAND (R293). Scalar and. -/
  | sand (f : VFmt)
  /-- SAND_LONG (R293). Long form of SAND. -/
  | sandLong (f : VFmt) (x : VLong)
  /-- SOR (R293). Scalar or. -/
  | sor (f : VFmt)
  /-- SOR_LONG (R293). Long form of SOR. -/
  | sorLong (f : VFmt) (x : VLong)
  /-- SXOR (R293). Scalar xor. -/
  | sxor (f : VFmt)
  /-- SXOR_LONG (R293). Long form of SXOR. -/
  | sxorLong (f : VFmt) (x : VLong)
  /-- SSHL (R293). Scalar shift left. -/
  | sshl (f : VFmt)
  /-- SSHL_LONG (R293). Long form of SSHL. -/
  | sshlLong (f : VFmt) (x : VLong)
  /-- SSHR (R293). Scalar logical shift right. -/
  | sshr (f : VFmt)
  /-- SSHR_LONG (R293). Long form of SSHR. -/
  | sshrLong (f : VFmt) (x : VLong)
  /-- SCMP (R294). Scalar compare that sets every bit of a predicate. -/
  | scmp (f : VFmt)
  /-- SCMP_LONG (R294). Long form of SCMP. -/
  | scmpLong (f : VFmt) (x : VLong)
  /-- SMOVI (R293). Moves a sign-extended immediate to a scalar. -/
  | smovi (f : VIFmt)
  /-- SMOVHI (R293). Sets a scalar's high half from an immediate. -/
  | smovhi (f : VIFmt)
  /-- SSEL (R294). Scalar select on a scalar condition; long form only. -/
  | ssel (f : VFmt) (x : VLong)
  /-- SMIN (R293). Scalar signed minimum. -/
  | smin (f : VFmt)
  /-- SMIN_LONG (R293). Long form of SMIN. -/
  | sminLong (f : VFmt) (x : VLong)
  /-- SMAX (R293). Scalar signed maximum. -/
  | smax (f : VFmt)
  /-- SMAX_LONG (R293). Long form of SMAX. -/
  | smaxLong (f : VFmt) (x : VLong)
  /-- CSRR (R354). Reads a CSR into one or two scalars. -/
  | csrr (f : VIFmt)
  /-- CSRW (R355). Writes a CSR from a scalar or an immediate. -/
  | csrw (f : VIFmt)
  /-- SETHAND (R356). Sets HAND[15:0] from an immediate and clears HAND[31:16]. -/
  | sethand (f : VIFmt)
  /-- RCLAIM (R137). Claims registers from the pen pool, or waits. -/
  | rclaim (f : VIFmt)
  /-- RGIVE (R136). Returns the top registers of the window to the pool. -/
  | rgive (f : VIFmt)
  /-- IXSET (R358). Sets an index register's window. -/
  | ixset (f : VIFmt)
  /-- NOP (R332). Does nothing. -/
  | nop
  /-- RET (R329). Returns to the address in s60 and s61, reloading g15 if the selector differs. -/
  | ret
  /-- JOIN (R108). Switches to the pending path or pops the top entry. -/
  | join
  /-- EXIT (R109). Ends the active lanes and exits the group when no lane remains. -/
  | exit
  /-- TRAP (R333). Raises TRAPI with a code. -/
  | trap
  /-- RTT (R334). Returns from a trap handler by retry or skip, restoring the nibs. -/
  | rtt
  /-- BRK (R333). Raises BRK with a code. -/
  | brk
  /-- YIELD (R332). Sets the tenure count to TENQ so that the pen passes at the next boundary. -/
  | yield
  /-- FENCE (R310). Acquire, release or SC fence at a scope. -/
  | fence
  /-- FENCEX (R311). Makes complete writes of one path visible to another path. -/
  | fencex
  /-- FEND (R322). Stops a feeder subscription and clears its ring flags. -/
  | fend
  /-- MPAIR (R377). Binds the leader array to its east or south neighbour. -/
  | mpair
  /-- MUNPAIR (R377). Ends the pair after in-flight pair operations retire. -/
  | munpair
  /-- TDONE (R345). Ends the task once the group's paths and side log are empty. -/
  | tdone
  /-- TABORT (R84). Aborts the speculative task. -/
  | tabort
  /-- TSERIAL (R345). Waits for promotion in a speculative task. -/
  | tserial
  /-- WELLFL (R360). Writes back and empties the selected well entries. -/
  | wellfl
  /-- KILL (R361). Marks a run of registers dead. -/
  | kill
  /-- POWER_ON (R16). Power-on starts the staged start at stage 1 of four ordered stages. -/
  | powerOn
  /-- MODULE_RESET (R16). A module reset restarts the staged start from stage 1. -/
  | moduleReset
  /-- STAGE_ADVANCE (R16). When the work of the current start stage completes, Sheoc moves to the next stage and never skips one. -/
  | stageAdvance
  /-- THERMAL_WARNING (R15). A die whose junction reaches 95 °C sets a thermal warning. -/
  | thermalWarning
  /-- THERMAL_TRIP (R15). At 110 °C the module stops all dies, holds them in reset and notifies the host. -/
  | thermalTrip
  /-- MARGIN_CHECK (R18). Every 30 days of power-on time the path-delay monitors are read and each die's margin is reported. -/
  | marginCheck
  /-- STAGE (R39). Mailbox command 0x01 returns the stage and the failure code. -/
  | stage
  /-- MARGIN (R39). Mailbox command 0x02 returns each die's margin, near-end-of-life flag and retired flag. -/
  | margin
  /-- STAGEBITS (R40). Mailbox command 0x10 reads and checks a bitstream image and writes it to the inactive flash copy. -/
  | stagebits
  /-- ENROL (R40). Mailbox command 0x20 verifies a signed request and adds an owner key. -/
  | enrol
  /-- REVOKE (R40). Mailbox command 0x21 verifies a signed request and permanently disables an owner key. -/
  | revoke
  /-- UNKNOWN_MAILBOX_COMMAND (R39). A mailbox command with an unknown code finishes with MERR 0x01. -/
  | unknownMailboxCommand
  /-- APPLY (R21). PCMD APPLY takes every die's PSLOT into CSLOT in one act, or refuses and sets PERR. -/
  | apply
  /-- RETIRE (R21). PCMD RETIRE takes a die out of service, closes its links, disables its ports and zeroes its slots. -/
  | retire
  /-- FWCTL_WRITE (R23). A write to a link's FWCTL opens or closes its firewall for later flits, or is refused and sets REFUSED. -/
  | fwctlWrite
  /-- LINK_FLIT_ARRIVE (R13). A 64-byte flit of one class arrives on a die link in per-class order. -/
  | linkFlitArrive
  /-- LINK_STOP_SIGNAL (R14). A sender that sees a raised stop signal stops sending that class within 40 clk. -/
  | linkStopSignal
  /-- UNFREEZE_RESUME (R25). UNFRZ with ACT 01 resumes a frozen master at the offending instruction or command. -/
  | unfreezeResume
  /-- UNFREEZE_KILL (R25). UNFRZ with ACT 10 kills a frozen group or discards a frozen engine's command. -/
  | unfreezeKill
  /-- FABRIC_REQUEST_ARRIVE (R12). An inbound request on a fabric port is served through the port's window or refused and counted. -/
  | fabricRequestArrive
  /-- FPCTL_WRITE (R12). A write to FPCTL sets IEN and OEN, leaving IEN at 0 if IDIE lies outside the partition. -/
  | fpctlWrite
  /-- QUEUE_ENABLE (R30). Writing QCTL.EN = 1 reads and checks the queue descriptor and enables the queue or sets ERRC. -/
  | queueEnable
  /-- DRAIN (R30). Writing QCTL.DRAIN stops the queue accepting kicks. -/
  | drain
  /-- QUEUE_DISABLE (R30). Writing EN = 0 disables an idle queue, or acts as DRAIN on a busy one. -/
  | queueDisable
  /-- QUEUE_DRAIN_DONE (R30). A draining queue clears EN once IDLE becomes 1. -/
  | queueDrainDone
  /-- KICK (R32). A write to a kick page is taken or discarded, is checked, and has its argument slot copied. -/
  | kick
  /-- LAUNCH_START (R34). A waiting launch starts in sequence order, subject to PRIO and SERIAL. -/
  | launchStart
  /-- LAUNCH_RETIRE (R33). A launch retires when every node has finished, failed or been skipped, and DONE advances over contiguous retirements. -/
  | launchRetire
  /-- STATUS_WRITE (R33). Sheoc writes both status words in one 16-byte posted write within 64 clk of a change. -/
  | statusWrite
  /-- GCMD (R36). A GCMD write checks a graph image, copies it and registers a new handle, or reports ERRG. -/
  | gcmd
  /-- GUNREG (R36). A GUNREG write releases the named handle of the partition. -/
  | gunreg
  /-- NODE_START (R37). A graph node starts once all its predecessors have finished. -/
  | nodeStart
  /-- NODE_FINISH (R47). A node finishes when all its teams have retired, acting as a release at device scope. -/
  | nodeFinish
  /-- SHARD_RECEIVE (R42). A target checks the digest of a received LOADW shard and reads the shard again at most twice. -/
  | shardReceive
  /-- GENERATION_PUBLISH (R43). After every shard has been checked, the scriptorium publishes the new region table generation between launch starts. -/
  | generationPublish
  /-- CONTEXT_START (R44). A die with no running context takes the first enabled context that gains work, and starts its first slice. -/
  | contextStart
  /-- SLICE_END (R64). When a context's slice ends, the die renews it or switches by flashback. -/
  | sliceEnd
  /-- FLASHBACK_TIMEOUT (R64). A group that reaches no palimpsest point within 32768 clk stops and takes a full save. -/
  | flashbackTimeout
  /-- GROUP_SAVE (R64). Once its in-flight counters are 0, a group writes back its well, saves its state block and live registers, and releases its slot. -/
  | groupSave
  /-- GROUP_RESTORE (R65). On its context's next slice a saved group is placed again, restored, replays its side log and runs its recipe. -/
  | groupRestore
  /-- CLUSTER_PLACE (R49). The dispatcher reserves the first fitting rectangle of cores for a whole cluster in one act. -/
  | clusterPlace
  /-- HEAD_BLOCKING (R48). A head cluster unplaced for 4096 running clk becomes blocking. -/
  | headBlocking
  /-- CLAUSE_START (R52). At a clause boundary the pen keeps or passes the group by tenure and waits, and the next clause starts. -/
  | clauseStart
  /-- CLAUSE_FETCH_ARRIVE (R330). The missing lines of a clause arrive in the clause cache, and the group becomes ready. -/
  | clauseFetchArrive
  /-- BUDGET_TICK (R56). A team or task budget falls by 1 for each 64 clk of running time. -/
  | budgetTick
  /-- BUDGET_GRACE_EXPIRE (R56). After the 4096-clk grace, every group of the team still present is killed. -/
  | budgetGraceExpire
  /-- PKCTL_RESUME (R55). PKCTL with ACT 01 resumes a parked group at its parked instruction. -/
  | pkctlResume
  /-- PKCTL_KILL (R55). PKCTL with ACT 10 kills a parked or LINK-waiting group, or aborts a speculative task. -/
  | pkctlKill
  /-- FQCI_WRITE (R160). A write to FQCI frees room in the fault ring, and a waiting record is written. -/
  | fqciWrite
  /-- FAULT_RETRY (R158). The oldest side-log entry, or a waiting engine or table access, is retried with a fresh walk. -/
  | faultRetry
  /-- PRI_RESPONSE (R160). A PRI response readies the parked group, or kills it, discards its logged lanes and writes a HOSTFAIL record. -/
  | priResponse
  /-- ATS_INVALIDATE (R154). A host ATS invalidation removes type-2 TLB entries within 2 µs. -/
  | atsInvalidate
  /-- TLBINV (R154). A TLBINV write invalidates a range of the context's TLB entries on every die of the partition. -/
  | tlbinv
  /-- TLBINV_DONE (R154). A TLB invalidation completes, BUSY returns to 0, and the side logs retry. -/
  | tlbinvDone
  /-- SEGSYNC (R144). A SEGSYNC write resynchronises one or every selector on every die of the partition. -/
  | segsync
  /-- DESCRIPTOR_SYNC_DONE (R143). A descriptor change completes on every die of the partition and governs later uses. -/
  | descriptorSyncDone
  /-- RBCMD_BIND (R148). RBCMD OP 1 applies the BIND act to a rubric entry. -/
  | rbcmdBind
  /-- RBCMD_UNBIND (R148). RBCMD OP 2 applies the UNBIND act to a rubric entry. -/
  | rbcmdUnbind
  /-- RBCMD_UNBIND_REVOKE (R148). RBCMD OP 3 unbinds a rubric entry and raises the target descriptor's GEN. -/
  | rbcmdUnbindRevoke
  /-- RBCMD_RETIRE (R148). RBCMD OP 4 applies the RETIRE act to a rubric entry. -/
  | rbcmdRetire
  /-- CONTEXT_ENABLE (R145). Writing CTXCTL.EN = 1 enables the context on the die, or refuses it with ERRC. -/
  | contextEnable
  /-- CONTEXT_DISABLE (R145). Writing EN = 0 disables an idle context, or is ignored with ERRC 0x04. -/
  | contextDisable
  /-- CONTEXT_KILL (R145). Writing CTXCTL.KILL ends every activity of the context on the die. -/
  | contextKill
  /-- CONTEXT_IDLE (R145). EN held by a KILL write clears in the clk in which IDLE becomes 1. -/
  | contextIdle
  /-- EVENT_ACT_ARRIVE (R57). A signal, wait or test reaches the event's home die and takes effect there in arrival order. -/
  | eventActArrive
  /-- EVENT_COUNT_UPDATE (R58). A die that receives a new count from the home die wakes those of its waiters whose value differs. -/
  | eventCountUpdate
  /-- EVENT_WAKE (R59). A woken event waiter becomes ready after the latency of R59. -/
  | eventWake
  /-- QUEUE_ACT_ARRIVE (R60). A QPOP, QPUSH or QCNT takes effect at the queue store in arrival order. -/
  | queueActArrive
  /-- QUEUE_SWAP_IN_DONE (R61). A non-resident queue finishes being read back, and the stalled group continues. -/
  | queueSwapInDone
  /-- ACCESS_COMPLETE (R299). A store, reduction or atomic performs at its home slice or bank, and the LS counter falls at completion. -/
  | accessComplete
  /-- LOAD_RETURN (R105). A load lane's data return and are written to the reservoir, clearing the scoreboard when the last lane arrives. -/
  | loadReturn
  /-- TASK_DISPATCH (R76). The task unit dispatches the lowest-keyed record of the domain to a free task slot and gives it its TB. -/
  | taskDispatch
  /-- FRONTIER_SAMPLE (R85). At every CYCLE multiple of 32, each die samples L of the domain. -/
  | frontierSample
  /-- FRONTIER_UPDATE (R85). The other dies' least sample O arrives, and the die's frontier F becomes min(L, O). -/
  | frontierUpdate
  /-- TASK_COMMIT (R86). A finished task at the frontier writes its draft grains in address order and commits as a release at device scope. -/
  | taskCommit
  /-- SPILL_REFILL (R75). A run of 64 spilled records returns in key order to the on-chip store, taking 256 clk. -/
  | spillRefill
  /-- BARRIER_ARRIVE (R113). An arrival or posting reaches a barrier, and the phase completes when all members have arrived and B ≥ E. -/
  | barrierArrive
  /-- COPY_START (R317). A held copy command starts when one of the engine's four running places comes free. -/
  | copyStart
  /-- COPY_BEAT (R319). A 64-byte beat of a running copy command moves, waits on a fault, or cancels the command. -/
  | copyBeat
  /-- COPY_COMPLETE (R320). A copy command completes, the CE counter falls, and its byte count posts to its barrier. -/
  | copyComplete
  /-- FEEDER_TILE_LAND (R222). A feeder tile's last byte lands, the slot becomes FULL, FD falls, bytes post, and the subscription may end. -/
  | feederTileLand
  /-- TILE_LOAD_LAND (R367). The last byte of a TLD image lands, and the slot becomes FULL. -/
  | tileLoadLand
  /-- MATRIX_OP_START (R233). A queued MMA or MMAS starts on its array or arrays, waking gated sub-arrays first. -/
  | matrixOpStart
  /-- MATRIX_OP_RETIRE (R370). A matrix operation retires, lowers reader counts, applies REL, lowers ME and arrives on its barrier. -/
  | matrixOpRetire
  /-- SUBARRAY_GATE (R212). A sub-array whose idle timer reaches MGATE.IDLE is power-gated. -/
  | subarrayGate
  /-- DRAIN_COMPLETE (R231). An ADRN's last write performs at its home, and the ME counter falls. -/
  | drainComplete
  /-- PAIR_BIND (R213). Once no operation is in flight on either array, MPAIR binds the pair. -/
  | pairBind
  /-- PAIR_END (R214). Once every pair operation has retired, the pair ends and each array returns to its owner. -/
  | pairEnd
  /-- CLAIM_GRANT (R137). When the pool rises, the pen grants waiting register claims in arrival order. -/
  | claimGrant
  /-- DEADLOCK_CHECK (R138). The pen raises REG_DEADLOCK in every claimer of a team that is wholly blocked on claims the pool cannot meet. -/
  | deadlockCheck
  /-- TEAM_RETIRE (R47). A team retires, releasing its resources and array ownership, and is reported to the master front end. -/
  | teamRetire
  /-- FOLIO_REFRESH (R166). A folio bank enters its 256-clk refresh window at its scheduled clk count. -/
  | folioRefresh
  /-- UNCORRECTABLE_ERROR (R168). An uncorrectable error kills a team, aborts a task, poisons a grain or is discarded, according to where it lies. -/
  | uncorrectableError
  /-- REGISTER_WRITE (R5). A write to a register that has no row of its own sets its RW fields as its table gives. -/
  | registerWrite
  /-- REGISTER_READ_CLEAR (R5). A read of a register with an RC field returns the field's value and then clears it. -/
  | registerReadClear
  /-- FABRIC_PORT_LINK_TRAINING (R12). A fabric port's link trains at full rate, or loses training, and FPCTL.UP and FPSTAT.UP change. -/
  | fabricPortLinkTraining
  /-- FABRIC_REFUSAL_RECEIVE (R12). A refusal from a far fabric port reaches the requester, which treats it as PERM: a load parks, a store's lane is logged, a copy is cancelled. -/
  | fabricRefusalReceive
  /-- ATS_TRANSLATION_COMPLETION (R160). The host's answer to an ATS translation request sent for a type-2 fault arrives, and the access proceeds or a PRI page request is sent. -/
  | atsTranslationCompletion
  deriving DecidableEq, Repr

end Sys2Proof
end

