-- ==== Sys2Proof/Decode.lean ====
section
/-! DEFINITION. From words to instructions and back (R252, R258, R265). The decoder is total: a word that R265 does not
assign is rejected as an opcode, one in a form its opcode does not have (R256 step 2) as a form. -/

namespace Sys2Proof

/-- Why words are no instruction: an unassigned opcode (R256 step 1), or a form that the opcode does not have (step 2). -/
inductive Reject where
  | opc
  | form
  deriving DecidableEq, Repr

/-- The bits [lo + n - 1 : lo] of a word. -/
abbrev bits (w : Word) (lo n : Nat) : BitVec n := w.extractLsb' lo n

/-- The opcode byte, [31:24] of word 0 (R258). -/
def opcodeOf (w : Word) : BitVec 8 := bits w 24 8

/-! ## The formats of R258, read and written -/

def unpackV (w : Word) : VFmt :=
  { d := bits w 16 8, a := bits w 8 8, b := bits w 0 8 }

def packV (op : BitVec 8) (f : VFmt) : Word :=
  op ++ f.d ++ f.a ++ f.b

def unpackVI (w : Word) : VIFmt :=
  { d := bits w 16 8, imm := bits w 0 16 }

def packVI (op : BitVec 8) (f : VIFmt) : Word :=
  op ++ f.d ++ f.imm

def unpackM (w : Word) : MFmt :=
  { data := bits w 16 8, g := bits w 12 4, neg := bits w 11 1, gp := bits w 8 3, off := bits w 0 8 }

def packM (op : BitVec 8) (f : MFmt) : Word :=
  op ++ f.data ++ f.g ++ f.neg ++ f.gp ++ f.off

def unpackC (w : Word) : CFmt :=
  { neg := bits w 23 1, gp := bits w 20 3, offs := bits w 0 20 }

def packC (op : BitVec 8) (f : CFmt) : Word :=
  op ++ f.neg ++ f.gp ++ f.offs

def unpackK (w : Word) : KFmt :=
  { p := bits w 0 24 }

def packK (op : BitVec 8) (f : KFmt) : Word :=
  op ++ f.p

def unpackB (w : Word) : BFmt :=
  { s := bits w 16 8, n := bits w 0 16 }

def packB (op : BitVec 8) (f : BFmt) : Word :=
  op ++ f.s ++ f.n

def unpackG (w : Word) : GFmt :=
  { s := bits w 16 8, g := bits w 12 4, idx := bits w 0 12 }

def packG (op : BitVec 8) (f : GFmt) : Word :=
  op ++ f.s ++ f.g ++ f.idx

def unpackQ (w : Word) : QFmt :=
  { d := bits w 16 8, z1 := bits w 11 5, f := bits w 8 3, z2 := bits w 3 5, qn := bits w 0 3 }

def packQ (op : BitVec 8) (f : QFmt) : Word :=
  op ++ f.d ++ f.z1 ++ f.f ++ f.z2 ++ f.qn

def unpackT (w : Word) : TFmt :=
  { s := bits w 16 8, u := bits w 8 8, fl := bits w 7 1, slot := bits w 0 7 }

def packT (op : BitVec 8) (f : TFmt) : Word :=
  op ++ f.s ++ f.u ++ f.fl ++ f.slot

def unpackE (w : Word) : EFmt :=
  { gd := bits w 20 4, gs := bits w 16 4, p := bits w 8 8, q := bits w 0 8 }

def packE (op : BitVec 8) (f : EFmt) : Word :=
  op ++ f.gd ++ f.gs ++ f.p ++ f.q

def unpackX (w : Word) : XFmt :=
  { a := bits w 17 7, b0 := bits w 10 7, b1 := bits w 3 7, pair := bits w 2 1, hint := bits w 0 2 }

def packX (op : BitVec 8) (f : XFmt) : Word :=
  op ++ f.a ++ f.b0 ++ f.b1 ++ f.pair ++ f.hint

def unpackXD (w : Word) : XDFmt :=
  { g := bits w 20 4, z := bits w 16 4, o := bits w 8 8, pt := bits w 0 8 }

def packXD (op : BitVec 8) (f : XDFmt) : Word :=
  op ++ f.g ++ f.z ++ f.o ++ f.pt

def unpackVLong (w : Word) : VLong :=
  { c := bits w 24 8, pata := bits w 21 3, para := bits w 16 5, patb := bits w 13 3, parb := bits w 8 5, deadA := bits w 7 1, deadB := bits w 6 1, deadC := bits w 5 1, keep := bits w 4 1, hint := bits w 2 2, rsvd := bits w 0 2 }

def packVLong (f : VLong) : Word :=
  f.c ++ f.pata ++ f.para ++ f.patb ++ f.parb ++ f.deadA ++ f.deadB ++ f.deadC ++ f.keep ++ f.hint ++ f.rsvd

def unpackMLong (w : Word) : MLong :=
  { disp := bits w 16 16, wid := bits w 13 3, scope := bits w 10 3, ord := bits w 8 2, deadD := bits w 7 1, deadO := bits w 6 1, keep := bits w 5 1, o64 := bits w 4 1, hint := bits w 2 2, rsvd := bits w 0 2 }

def packMLong (f : MLong) : Word :=
  f.disp ++ f.wid ++ f.scope ++ f.ord ++ f.deadD ++ f.deadO ++ f.keep ++ f.o64 ++ f.hint ++ f.rsvd

def unpackALong (w : Word) : ALong :=
  { val := bits w 24 8, cmp := bits w 16 8, wid := bits w 13 3, scope := bits w 10 3, ord := bits w 8 2, deadD := bits w 7 1, deadO := bits w 6 1, keep := bits w 5 1, o64 := bits w 4 1, hint := bits w 2 2, rsvd := bits w 0 2 }

def packALong (f : ALong) : Word :=
  f.val ++ f.cmp ++ f.wid ++ f.scope ++ f.ord ++ f.deadD ++ f.deadO ++ f.keep ++ f.o64 ++ f.hint ++ f.rsvd

def unpackELong (w : Word) : ELong :=
  { x := bits w 24 8, bsel := bits w 18 6, z1 := bits w 16 2, y := bits w 8 8, z2 := bits w 2 6, rsvd := bits w 0 2 }

def packELong (f : ELong) : Word :=
  f.x ++ f.bsel ++ f.z1 ++ f.y ++ f.z2 ++ f.rsvd

def unpackXLong (w : Word) : XLong :=
  { m := bits w 24 8, n := bits w 16 8, k := bits w 8 8, clr := bits w 7 1, bar := bits w 3 4, rel := bits w 2 1, rsvd := bits w 0 2 }

def packXLong (f : XLong) : Word :=
  f.m ++ f.n ++ f.k ++ f.clr ++ f.bar ++ f.rel ++ f.rsvd

def unpackXDLong (w : Word) : XDLong :=
  { rq := bits w 24 8, z := bits w 3 21, add := bits w 2 1, rsvd := bits w 0 2 }

def packXDLong (f : XDLong) : Word :=
  f.rq ++ f.z ++ f.add ++ f.rsvd

/-! ## The opcode map (R265) -/

/-- An instruction of one word (its LEN bit is 0). -/
def decodeShort (w : Word) : Except Reject Instr :=
  match (opcodeOf w).toNat with
  | 0x00 => .ok .nop
  | 0x01 => .ok (.bra (unpackC w))
  | 0x02 => .ok (.bru (unpackC w))
  | 0x03 => .ok (.call (unpackC w))
  | 0x04 => .ok (.callr (unpackG w))
  | 0x05 => .ok .ret
  | 0x06 => .ok (.div (unpackC w))
  | 0x07 => .ok .join
  | 0x08 => .ok .exit
  | 0x09 => .ok .trap
  | 0x0a => .ok .rtt
  | 0x0b => .ok .brk
  | 0x0c => .ok .yield
  | 0x10 => .ok (.bar (unpackB w))
  | 0x11 => .ok (.bara (unpackB w))
  | 0x12 => .ok (.barw (unpackB w))
  | 0x13 => .ok (.barexp (unpackB w))
  | 0x14 => .ok (.evsig (unpackB w))
  | 0x15 => .ok (.evwait (unpackB w))
  | 0x16 => .ok (.evtest (unpackB w))
  | 0x17 => .ok (.waitp (unpackB w))
  | 0x18 => .ok (.elect (unpackB w))
  | 0x19 => .ok (.pmask (unpackB w))
  | 0x20 => .ok (.iadd (unpackV w))
  | 0x21 => .ok (.isub (unpackV w))
  | 0x22 => .ok (.imul (unpackV w))
  | 0x23 => .ok (.imulhs (unpackV w))
  | 0x24 => .ok (.imulhu (unpackV w))
  | 0x25 => .ok (.imad (unpackV w))
  | 0x26 => .ok (.iaddc (unpackV w))
  | 0x27 => .ok (.iabs (unpackV w))
  | 0x28 => .ok (.imin (unpackV w))
  | 0x29 => .ok (.imax (unpackV w))
  | 0x2a => .ok (.iminu (unpackV w))
  | 0x2b => .ok (.imaxu (unpackV w))
  | 0x2c => .ok (.iadds (unpackV w))
  | 0x2d => .ok (.icmp (unpackV w))
  | 0x2e => .ok (.icmpu (unpackV w))
  | 0x2f => .ok (.iaddi (unpackVI w))
  | 0x30 => .ok (.and (unpackV w))
  | 0x31 => .ok (.or (unpackV w))
  | 0x32 => .ok (.xor (unpackV w))
  | 0x33 => .ok (.andn (unpackV w))
  | 0x34 => .ok (.shl (unpackV w))
  | 0x35 => .ok (.shr (unpackV w))
  | 0x36 => .ok (.sar (unpackV w))
  | 0x37 => .ok (.rot (unpackV w))
  | 0x38 => .ok (.popc (unpackV w))
  | 0x39 => .ok (.clz (unpackV w))
  | 0x3a => .ok (.brev (unpackV w))
  | 0x3b => .ok (.bfx (unpackV w))
  | 0x3c => .ok (.bfi (unpackV w))
  | 0x3d => .error .form
  | 0x3e => .ok (.movi (unpackVI w))
  | 0x3f => .ok (.movhi (unpackVI w))
  | 0x40 => .ok (.fadd (unpackV w))
  | 0x41 => .ok (.fsub (unpackV w))
  | 0x42 => .ok (.fmul (unpackV w))
  | 0x43 => .ok (.ffma (unpackV w))
  | 0x44 => .ok (.fmin (unpackV w))
  | 0x45 => .ok (.fmax (unpackV w))
  | 0x46 => .ok (.fcmp (unpackV w))
  | 0x47 => .ok (.frcp (unpackV w))
  | 0x48 => .ok (.frsq (unpackV w))
  | 0x49 => .ok (.fsqrt (unpackV w))
  | 0x4a => .ok (.fexp2 (unpackV w))
  | 0x4b => .ok (.flog2 (unpackV w))
  | 0x4c => .ok (.fsin (unpackV w))
  | 0x4d => .ok (.fcos (unpackV w))
  | 0x4e => .ok (.ftanh (unpackV w))
  | 0x4f => .ok (.fclass (unpackV w))
  | 0x50 => .ok (.hadd2 (unpackV w))
  | 0x51 => .ok (.hmul2 (unpackV w))
  | 0x52 => .ok (.hfma2 (unpackV w))
  | 0x53 => .ok (.hmax2 (unpackV w))
  | 0x54 => .ok (.hmin2 (unpackV w))
  | 0x55 => .ok (.hcmp2 (unpackV w))
  | 0x56 => .ok (.qdot4 (unpackV w))
  | 0x60 => .ok (.f2i (unpackV w))
  | 0x61 => .ok (.i2f (unpackV w))
  | 0x62 => .ok (.f2h (unpackV w))
  | 0x63 => .ok (.h2f (unpackV w))
  | 0x64 => .ok (.f2q (unpackV w))
  | 0x65 => .ok (.q2f (unpackV w))
  | 0x66 => .ok (.f2n (unpackV w))
  | 0x67 => .ok (.n2f (unpackV w))
  | 0x68 => .ok (.bscl (unpackV w))
  | 0x69 => .ok (.frnd (unpackV w))
  | 0x70 => .ok (.mov (unpackV w))
  | 0x71 => .error .form
  | 0x72 => .ok (.perm (unpackV w))
  | 0x73 => .ok (.iscan (unpackV w))
  | 0x74 => .ok (.fscan (unpackV w))
  | 0x75 => .ok (.ired (unpackV w))
  | 0x76 => .ok (.fred (unpackV w))
  | 0x77 => .ok (.movs (unpackV w))
  | 0x78 => .ok (.pmov (unpackV w))
  | 0x79 => .ok (.plog (unpackV w))
  | 0x80 => .ok (.ld (unpackM w))
  | 0x81 => .ok (.st (unpackM w))
  | 0x82 => .ok (.ldu (unpackM w))
  | 0x83 => .ok (.lda (unpackM w))
  | 0x84 => .ok (.stl (unpackM w))
  | 0x85 => .ok (.pref (unpackM w))
  | 0x90 => .error .form
  | 0x91 => .error .form
  | 0x92 => .error .form
  | 0x93 => .error .form
  | 0x94 => .error .form
  | 0x95 => .error .form
  | 0x96 => .error .form
  | 0x97 => .error .form
  | 0x98 => .error .form
  | 0x99 => .error .form
  | 0x9a => .error .form
  | 0x9b => .error .form
  | 0xa0 => .ok (.link (unpackG w))
  | 0xa1 => .ok (.gld (unpackG w))
  | 0xa2 => .ok (.gmov (unpackG w))
  | 0xa3 => .ok (.segq (unpackG w))
  | 0xa4 => .ok .fence
  | 0xa5 => .ok .fencex
  | 0xa6 => .error .form
  | 0xa7 => .error .form
  | 0xa8 => .error .form
  | 0xa9 => .ok .fend
  | 0xaa => .ok (.unbind (unpackG w))
  | 0xab => .ok (.bind (unpackG w))
  | 0xb0 => .ok (.tclm (unpackT w))
  | 0xb1 => .ok (.trel (unpackT w))
  | 0xb2 => .ok (.tld (unpackT w))
  | 0xb3 => .error .form
  | 0xb4 => .error .form
  | 0xb5 => .ok (.awin (unpackT w))
  | 0xb6 => .ok (.aclr (unpackT w))
  | 0xb7 => .error .form
  | 0xb8 => .ok (.ald (unpackV w))
  | 0xb9 => .ok (.ast (unpackV w))
  | 0xba => .ok .mpair
  | 0xbb => .ok .munpair
  | 0xc0 => .ok (.tspawn (unpackM w))
  | 0xc1 => .ok .tdone
  | 0xc2 => .ok .tabort
  | 0xc3 => .ok .tserial
  | 0xc4 => .ok (.qpop (unpackQ w))
  | 0xc5 => .ok (.qpush (unpackQ w))
  | 0xc6 => .ok (.qcnt (unpackQ w))
  | 0xc7 => .ok (.launch (unpackG w))
  | 0xd0 => .ok (.sadd (unpackV w))
  | 0xd1 => .ok (.ssub (unpackV w))
  | 0xd2 => .ok (.smul (unpackV w))
  | 0xd3 => .ok (.sand (unpackV w))
  | 0xd4 => .ok (.sor (unpackV w))
  | 0xd5 => .ok (.sxor (unpackV w))
  | 0xd6 => .ok (.sshl (unpackV w))
  | 0xd7 => .ok (.sshr (unpackV w))
  | 0xd8 => .ok (.scmp (unpackV w))
  | 0xd9 => .ok (.smovi (unpackVI w))
  | 0xda => .ok (.smovhi (unpackVI w))
  | 0xdb => .error .form
  | 0xdc => .ok (.smin (unpackV w))
  | 0xdd => .ok (.smax (unpackV w))
  | 0xe0 => .ok (.csrr (unpackVI w))
  | 0xe1 => .ok (.csrw (unpackVI w))
  | 0xe2 => .ok (.sethand (unpackVI w))
  | 0xe3 => .ok (.rclaim (unpackVI w))
  | 0xe4 => .ok (.rgive (unpackVI w))
  | 0xe5 => .ok (.ixset (unpackVI w))
  | 0xe6 => .ok .wellfl
  | 0xe7 => .ok .kill
  | _ => .error .opc

/-- An instruction of two words (its LEN bit is 1). -/
def decodeLong (w x : Word) : Except Reject Instr :=
  match (opcodeOf w).toNat with
  | 0x00 => .error .form
  | 0x01 => .error .form
  | 0x02 => .error .form
  | 0x03 => .error .form
  | 0x04 => .error .form
  | 0x05 => .error .form
  | 0x06 => .error .form
  | 0x07 => .error .form
  | 0x08 => .error .form
  | 0x09 => .error .form
  | 0x0a => .error .form
  | 0x0b => .error .form
  | 0x0c => .error .form
  | 0x10 => .error .form
  | 0x11 => .error .form
  | 0x12 => .error .form
  | 0x13 => .error .form
  | 0x14 => .error .form
  | 0x15 => .error .form
  | 0x16 => .error .form
  | 0x17 => .error .form
  | 0x18 => .error .form
  | 0x19 => .error .form
  | 0x20 => .ok (.iaddLong (unpackV w) (unpackVLong x))
  | 0x21 => .ok (.isubLong (unpackV w) (unpackVLong x))
  | 0x22 => .ok (.imulLong (unpackV w) (unpackVLong x))
  | 0x23 => .ok (.imulhsLong (unpackV w) (unpackVLong x))
  | 0x24 => .ok (.imulhuLong (unpackV w) (unpackVLong x))
  | 0x25 => .ok (.imadLong (unpackV w) (unpackVLong x))
  | 0x26 => .ok (.iaddcLong (unpackV w) (unpackVLong x))
  | 0x27 => .ok (.iabsLong (unpackV w) (unpackVLong x))
  | 0x28 => .ok (.iminLong (unpackV w) (unpackVLong x))
  | 0x29 => .ok (.imaxLong (unpackV w) (unpackVLong x))
  | 0x2a => .ok (.iminuLong (unpackV w) (unpackVLong x))
  | 0x2b => .ok (.imaxuLong (unpackV w) (unpackVLong x))
  | 0x2c => .ok (.iaddsLong (unpackV w) (unpackVLong x))
  | 0x2d => .ok (.icmpLong (unpackV w) (unpackVLong x))
  | 0x2e => .ok (.icmpuLong (unpackV w) (unpackVLong x))
  | 0x2f => .error .form
  | 0x30 => .ok (.andLong (unpackV w) (unpackVLong x))
  | 0x31 => .ok (.orLong (unpackV w) (unpackVLong x))
  | 0x32 => .ok (.xorLong (unpackV w) (unpackVLong x))
  | 0x33 => .ok (.andnLong (unpackV w) (unpackVLong x))
  | 0x34 => .ok (.shlLong (unpackV w) (unpackVLong x))
  | 0x35 => .ok (.shrLong (unpackV w) (unpackVLong x))
  | 0x36 => .ok (.sarLong (unpackV w) (unpackVLong x))
  | 0x37 => .ok (.rotLong (unpackV w) (unpackVLong x))
  | 0x38 => .ok (.popcLong (unpackV w) (unpackVLong x))
  | 0x39 => .ok (.clzLong (unpackV w) (unpackVLong x))
  | 0x3a => .ok (.brevLong (unpackV w) (unpackVLong x))
  | 0x3b => .ok (.bfxLong (unpackV w) (unpackVLong x))
  | 0x3c => .ok (.bfiLong (unpackV w) (unpackVLong x))
  | 0x3d => .ok (.bfn3 (unpackV w) (unpackVLong x))
  | 0x3e => .error .form
  | 0x3f => .error .form
  | 0x40 => .ok (.faddLong (unpackV w) (unpackVLong x))
  | 0x41 => .ok (.fsubLong (unpackV w) (unpackVLong x))
  | 0x42 => .ok (.fmulLong (unpackV w) (unpackVLong x))
  | 0x43 => .ok (.ffmaLong (unpackV w) (unpackVLong x))
  | 0x44 => .ok (.fminLong (unpackV w) (unpackVLong x))
  | 0x45 => .ok (.fmaxLong (unpackV w) (unpackVLong x))
  | 0x46 => .ok (.fcmpLong (unpackV w) (unpackVLong x))
  | 0x47 => .ok (.frcpLong (unpackV w) (unpackVLong x))
  | 0x48 => .ok (.frsqLong (unpackV w) (unpackVLong x))
  | 0x49 => .ok (.fsqrtLong (unpackV w) (unpackVLong x))
  | 0x4a => .ok (.fexp2Long (unpackV w) (unpackVLong x))
  | 0x4b => .ok (.flog2Long (unpackV w) (unpackVLong x))
  | 0x4c => .ok (.fsinLong (unpackV w) (unpackVLong x))
  | 0x4d => .ok (.fcosLong (unpackV w) (unpackVLong x))
  | 0x4e => .ok (.ftanhLong (unpackV w) (unpackVLong x))
  | 0x4f => .ok (.fclassLong (unpackV w) (unpackVLong x))
  | 0x50 => .ok (.hadd2Long (unpackV w) (unpackVLong x))
  | 0x51 => .ok (.hmul2Long (unpackV w) (unpackVLong x))
  | 0x52 => .ok (.hfma2Long (unpackV w) (unpackVLong x))
  | 0x53 => .ok (.hmax2Long (unpackV w) (unpackVLong x))
  | 0x54 => .ok (.hmin2Long (unpackV w) (unpackVLong x))
  | 0x55 => .ok (.hcmp2Long (unpackV w) (unpackVLong x))
  | 0x56 => .ok (.qdot4Long (unpackV w) (unpackVLong x))
  | 0x60 => .ok (.f2iLong (unpackV w) (unpackVLong x))
  | 0x61 => .ok (.i2fLong (unpackV w) (unpackVLong x))
  | 0x62 => .ok (.f2hLong (unpackV w) (unpackVLong x))
  | 0x63 => .ok (.h2fLong (unpackV w) (unpackVLong x))
  | 0x64 => .ok (.f2qLong (unpackV w) (unpackVLong x))
  | 0x65 => .ok (.q2fLong (unpackV w) (unpackVLong x))
  | 0x66 => .ok (.f2nLong (unpackV w) (unpackVLong x))
  | 0x67 => .ok (.n2fLong (unpackV w) (unpackVLong x))
  | 0x68 => .ok (.bsclLong (unpackV w) (unpackVLong x))
  | 0x69 => .ok (.frndLong (unpackV w) (unpackVLong x))
  | 0x70 => .ok (.movLong (unpackV w) (unpackVLong x))
  | 0x71 => .ok (.sel (unpackV w) (unpackVLong x))
  | 0x72 => .ok (.permLong (unpackV w) (unpackVLong x))
  | 0x73 => .ok (.iscanLong (unpackV w) (unpackVLong x))
  | 0x74 => .ok (.fscanLong (unpackV w) (unpackVLong x))
  | 0x75 => .ok (.iredLong (unpackV w) (unpackVLong x))
  | 0x76 => .ok (.fredLong (unpackV w) (unpackVLong x))
  | 0x77 => .ok (.movsLong (unpackV w) (unpackVLong x))
  | 0x78 => .ok (.pmovLong (unpackV w) (unpackVLong x))
  | 0x79 => .ok (.plogLong (unpackV w) (unpackVLong x))
  | 0x80 => .ok (.ldLong (unpackM w) (unpackMLong x))
  | 0x81 => .ok (.stLong (unpackM w) (unpackMLong x))
  | 0x82 => .ok (.lduLong (unpackM w) (unpackMLong x))
  | 0x83 => .ok (.ldaLong (unpackM w) (unpackMLong x))
  | 0x84 => .ok (.stlLong (unpackM w) (unpackMLong x))
  | 0x85 => .ok (.prefLong (unpackM w) (unpackMLong x))
  | 0x90 => .ok (.axch (unpackM w) (unpackALong x))
  | 0x91 => .ok (.acas (unpackM w) (unpackALong x))
  | 0x92 => .ok (.aadd (unpackM w) (unpackALong x))
  | 0x93 => .ok (.amin (unpackM w) (unpackALong x))
  | 0x94 => .ok (.amax (unpackM w) (unpackALong x))
  | 0x95 => .ok (.aand (unpackM w) (unpackALong x))
  | 0x96 => .ok (.aor (unpackM w) (unpackALong x))
  | 0x97 => .ok (.axor (unpackM w) (unpackALong x))
  | 0x98 => .ok (.afadd (unpackM w) (unpackALong x))
  | 0x99 => .ok (.radd (unpackM w) (unpackALong x))
  | 0x9a => .ok (.rfadd (unpackM w) (unpackALong x))
  | 0x9b => .ok (.rmax (unpackM w) (unpackALong x))
  | 0xa0 => .error .form
  | 0xa1 => .error .form
  | 0xa2 => .error .form
  | 0xa3 => .error .form
  | 0xa4 => .error .form
  | 0xa5 => .error .form
  | 0xa6 => .ok (.cpy (unpackE w) (unpackELong x))
  | 0xa7 => .ok (.cpy2d (unpackE w) (unpackELong x))
  | 0xa8 => .ok (.fsubFeeder (unpackE w) (unpackELong x))
  | 0xa9 => .error .form
  | 0xaa => .error .form
  | 0xab => .error .form
  | 0xb0 => .error .form
  | 0xb1 => .error .form
  | 0xb2 => .error .form
  | 0xb3 => .ok (.mma (unpackX w) (unpackXLong x))
  | 0xb4 => .ok (.mmas (unpackX w) (unpackXLong x))
  | 0xb5 => .error .form
  | 0xb6 => .error .form
  | 0xb7 => .ok (.adrn (unpackXD w) (unpackXDLong x))
  | 0xb8 => .ok (.aldLong (unpackV w) (unpackVLong x))
  | 0xb9 => .ok (.astLong (unpackV w) (unpackVLong x))
  | 0xba => .error .form
  | 0xbb => .error .form
  | 0xc0 => .ok (.tspawnLong (unpackM w) (unpackMLong x))
  | 0xc1 => .error .form
  | 0xc2 => .error .form
  | 0xc3 => .error .form
  | 0xc4 => .error .form
  | 0xc5 => .error .form
  | 0xc6 => .error .form
  | 0xc7 => .error .form
  | 0xd0 => .ok (.saddLong (unpackV w) (unpackVLong x))
  | 0xd1 => .ok (.ssubLong (unpackV w) (unpackVLong x))
  | 0xd2 => .ok (.smulLong (unpackV w) (unpackVLong x))
  | 0xd3 => .ok (.sandLong (unpackV w) (unpackVLong x))
  | 0xd4 => .ok (.sorLong (unpackV w) (unpackVLong x))
  | 0xd5 => .ok (.sxorLong (unpackV w) (unpackVLong x))
  | 0xd6 => .ok (.sshlLong (unpackV w) (unpackVLong x))
  | 0xd7 => .ok (.sshrLong (unpackV w) (unpackVLong x))
  | 0xd8 => .ok (.scmpLong (unpackV w) (unpackVLong x))
  | 0xd9 => .error .form
  | 0xda => .error .form
  | 0xdb => .ok (.ssel (unpackV w) (unpackVLong x))
  | 0xdc => .ok (.sminLong (unpackV w) (unpackVLong x))
  | 0xdd => .ok (.smaxLong (unpackV w) (unpackVLong x))
  | 0xe0 => .error .form
  | 0xe1 => .error .form
  | 0xe2 => .error .form
  | 0xe3 => .error .form
  | 0xe4 => .error .form
  | 0xe5 => .error .form
  | 0xe6 => .error .form
  | 0xe7 => .error .form
  | _ => .error .opc

/-- The instruction of a first word and, where the clause's LEN bit marks it as two words, a second. -/
def decodeInstr (w : Word) : Option Word → Except Reject Instr
  | none => decodeShort w
  | some x => decodeLong w x

/-- The words of an instruction, from the formats of R258 and the map of R265; an event has none. `k` is the field P of an
instruction of format K, whose constructor carries no field. -/
def encode (i : Instr) (k : KFmt) : List Word :=
  match i with
  | .nop => [packK 0x00#8 k]
  | .bra f => [packC 0x01#8 f]
  | .bru f => [packC 0x02#8 f]
  | .call f => [packC 0x03#8 f]
  | .callr f => [packG 0x04#8 f]
  | .ret => [packK 0x05#8 k]
  | .div f => [packC 0x06#8 f]
  | .join => [packK 0x07#8 k]
  | .exit => [packK 0x08#8 k]
  | .trap => [packK 0x09#8 k]
  | .rtt => [packK 0x0a#8 k]
  | .brk => [packK 0x0b#8 k]
  | .yield => [packK 0x0c#8 k]
  | .bar f => [packB 0x10#8 f]
  | .bara f => [packB 0x11#8 f]
  | .barw f => [packB 0x12#8 f]
  | .barexp f => [packB 0x13#8 f]
  | .evsig f => [packB 0x14#8 f]
  | .evwait f => [packB 0x15#8 f]
  | .evtest f => [packB 0x16#8 f]
  | .waitp f => [packB 0x17#8 f]
  | .elect f => [packB 0x18#8 f]
  | .pmask f => [packB 0x19#8 f]
  | .iadd f => [packV 0x20#8 f]
  | .iaddLong f x => [packV 0x20#8 f, packVLong x]
  | .isub f => [packV 0x21#8 f]
  | .isubLong f x => [packV 0x21#8 f, packVLong x]
  | .imul f => [packV 0x22#8 f]
  | .imulLong f x => [packV 0x22#8 f, packVLong x]
  | .imulhs f => [packV 0x23#8 f]
  | .imulhsLong f x => [packV 0x23#8 f, packVLong x]
  | .imulhu f => [packV 0x24#8 f]
  | .imulhuLong f x => [packV 0x24#8 f, packVLong x]
  | .imad f => [packV 0x25#8 f]
  | .imadLong f x => [packV 0x25#8 f, packVLong x]
  | .iaddc f => [packV 0x26#8 f]
  | .iaddcLong f x => [packV 0x26#8 f, packVLong x]
  | .iabs f => [packV 0x27#8 f]
  | .iabsLong f x => [packV 0x27#8 f, packVLong x]
  | .imin f => [packV 0x28#8 f]
  | .iminLong f x => [packV 0x28#8 f, packVLong x]
  | .imax f => [packV 0x29#8 f]
  | .imaxLong f x => [packV 0x29#8 f, packVLong x]
  | .iminu f => [packV 0x2a#8 f]
  | .iminuLong f x => [packV 0x2a#8 f, packVLong x]
  | .imaxu f => [packV 0x2b#8 f]
  | .imaxuLong f x => [packV 0x2b#8 f, packVLong x]
  | .iadds f => [packV 0x2c#8 f]
  | .iaddsLong f x => [packV 0x2c#8 f, packVLong x]
  | .icmp f => [packV 0x2d#8 f]
  | .icmpLong f x => [packV 0x2d#8 f, packVLong x]
  | .icmpu f => [packV 0x2e#8 f]
  | .icmpuLong f x => [packV 0x2e#8 f, packVLong x]
  | .iaddi f => [packVI 0x2f#8 f]
  | .and f => [packV 0x30#8 f]
  | .andLong f x => [packV 0x30#8 f, packVLong x]
  | .or f => [packV 0x31#8 f]
  | .orLong f x => [packV 0x31#8 f, packVLong x]
  | .xor f => [packV 0x32#8 f]
  | .xorLong f x => [packV 0x32#8 f, packVLong x]
  | .andn f => [packV 0x33#8 f]
  | .andnLong f x => [packV 0x33#8 f, packVLong x]
  | .shl f => [packV 0x34#8 f]
  | .shlLong f x => [packV 0x34#8 f, packVLong x]
  | .shr f => [packV 0x35#8 f]
  | .shrLong f x => [packV 0x35#8 f, packVLong x]
  | .sar f => [packV 0x36#8 f]
  | .sarLong f x => [packV 0x36#8 f, packVLong x]
  | .rot f => [packV 0x37#8 f]
  | .rotLong f x => [packV 0x37#8 f, packVLong x]
  | .popc f => [packV 0x38#8 f]
  | .popcLong f x => [packV 0x38#8 f, packVLong x]
  | .clz f => [packV 0x39#8 f]
  | .clzLong f x => [packV 0x39#8 f, packVLong x]
  | .brev f => [packV 0x3a#8 f]
  | .brevLong f x => [packV 0x3a#8 f, packVLong x]
  | .bfx f => [packV 0x3b#8 f]
  | .bfxLong f x => [packV 0x3b#8 f, packVLong x]
  | .bfi f => [packV 0x3c#8 f]
  | .bfiLong f x => [packV 0x3c#8 f, packVLong x]
  | .bfn3 f x => [packV 0x3d#8 f, packVLong x]
  | .movi f => [packVI 0x3e#8 f]
  | .movhi f => [packVI 0x3f#8 f]
  | .fadd f => [packV 0x40#8 f]
  | .faddLong f x => [packV 0x40#8 f, packVLong x]
  | .fsub f => [packV 0x41#8 f]
  | .fsubLong f x => [packV 0x41#8 f, packVLong x]
  | .fmul f => [packV 0x42#8 f]
  | .fmulLong f x => [packV 0x42#8 f, packVLong x]
  | .ffma f => [packV 0x43#8 f]
  | .ffmaLong f x => [packV 0x43#8 f, packVLong x]
  | .fmin f => [packV 0x44#8 f]
  | .fminLong f x => [packV 0x44#8 f, packVLong x]
  | .fmax f => [packV 0x45#8 f]
  | .fmaxLong f x => [packV 0x45#8 f, packVLong x]
  | .fcmp f => [packV 0x46#8 f]
  | .fcmpLong f x => [packV 0x46#8 f, packVLong x]
  | .frcp f => [packV 0x47#8 f]
  | .frcpLong f x => [packV 0x47#8 f, packVLong x]
  | .frsq f => [packV 0x48#8 f]
  | .frsqLong f x => [packV 0x48#8 f, packVLong x]
  | .fsqrt f => [packV 0x49#8 f]
  | .fsqrtLong f x => [packV 0x49#8 f, packVLong x]
  | .fexp2 f => [packV 0x4a#8 f]
  | .fexp2Long f x => [packV 0x4a#8 f, packVLong x]
  | .flog2 f => [packV 0x4b#8 f]
  | .flog2Long f x => [packV 0x4b#8 f, packVLong x]
  | .fsin f => [packV 0x4c#8 f]
  | .fsinLong f x => [packV 0x4c#8 f, packVLong x]
  | .fcos f => [packV 0x4d#8 f]
  | .fcosLong f x => [packV 0x4d#8 f, packVLong x]
  | .ftanh f => [packV 0x4e#8 f]
  | .ftanhLong f x => [packV 0x4e#8 f, packVLong x]
  | .fclass f => [packV 0x4f#8 f]
  | .fclassLong f x => [packV 0x4f#8 f, packVLong x]
  | .hadd2 f => [packV 0x50#8 f]
  | .hadd2Long f x => [packV 0x50#8 f, packVLong x]
  | .hmul2 f => [packV 0x51#8 f]
  | .hmul2Long f x => [packV 0x51#8 f, packVLong x]
  | .hfma2 f => [packV 0x52#8 f]
  | .hfma2Long f x => [packV 0x52#8 f, packVLong x]
  | .hmax2 f => [packV 0x53#8 f]
  | .hmax2Long f x => [packV 0x53#8 f, packVLong x]
  | .hmin2 f => [packV 0x54#8 f]
  | .hmin2Long f x => [packV 0x54#8 f, packVLong x]
  | .hcmp2 f => [packV 0x55#8 f]
  | .hcmp2Long f x => [packV 0x55#8 f, packVLong x]
  | .qdot4 f => [packV 0x56#8 f]
  | .qdot4Long f x => [packV 0x56#8 f, packVLong x]
  | .f2i f => [packV 0x60#8 f]
  | .f2iLong f x => [packV 0x60#8 f, packVLong x]
  | .i2f f => [packV 0x61#8 f]
  | .i2fLong f x => [packV 0x61#8 f, packVLong x]
  | .f2h f => [packV 0x62#8 f]
  | .f2hLong f x => [packV 0x62#8 f, packVLong x]
  | .h2f f => [packV 0x63#8 f]
  | .h2fLong f x => [packV 0x63#8 f, packVLong x]
  | .f2q f => [packV 0x64#8 f]
  | .f2qLong f x => [packV 0x64#8 f, packVLong x]
  | .q2f f => [packV 0x65#8 f]
  | .q2fLong f x => [packV 0x65#8 f, packVLong x]
  | .f2n f => [packV 0x66#8 f]
  | .f2nLong f x => [packV 0x66#8 f, packVLong x]
  | .n2f f => [packV 0x67#8 f]
  | .n2fLong f x => [packV 0x67#8 f, packVLong x]
  | .bscl f => [packV 0x68#8 f]
  | .bsclLong f x => [packV 0x68#8 f, packVLong x]
  | .frnd f => [packV 0x69#8 f]
  | .frndLong f x => [packV 0x69#8 f, packVLong x]
  | .mov f => [packV 0x70#8 f]
  | .movLong f x => [packV 0x70#8 f, packVLong x]
  | .sel f x => [packV 0x71#8 f, packVLong x]
  | .perm f => [packV 0x72#8 f]
  | .permLong f x => [packV 0x72#8 f, packVLong x]
  | .iscan f => [packV 0x73#8 f]
  | .iscanLong f x => [packV 0x73#8 f, packVLong x]
  | .fscan f => [packV 0x74#8 f]
  | .fscanLong f x => [packV 0x74#8 f, packVLong x]
  | .ired f => [packV 0x75#8 f]
  | .iredLong f x => [packV 0x75#8 f, packVLong x]
  | .fred f => [packV 0x76#8 f]
  | .fredLong f x => [packV 0x76#8 f, packVLong x]
  | .movs f => [packV 0x77#8 f]
  | .movsLong f x => [packV 0x77#8 f, packVLong x]
  | .pmov f => [packV 0x78#8 f]
  | .pmovLong f x => [packV 0x78#8 f, packVLong x]
  | .plog f => [packV 0x79#8 f]
  | .plogLong f x => [packV 0x79#8 f, packVLong x]
  | .ld f => [packM 0x80#8 f]
  | .ldLong f x => [packM 0x80#8 f, packMLong x]
  | .st f => [packM 0x81#8 f]
  | .stLong f x => [packM 0x81#8 f, packMLong x]
  | .ldu f => [packM 0x82#8 f]
  | .lduLong f x => [packM 0x82#8 f, packMLong x]
  | .lda f => [packM 0x83#8 f]
  | .ldaLong f x => [packM 0x83#8 f, packMLong x]
  | .stl f => [packM 0x84#8 f]
  | .stlLong f x => [packM 0x84#8 f, packMLong x]
  | .pref f => [packM 0x85#8 f]
  | .prefLong f x => [packM 0x85#8 f, packMLong x]
  | .axch f x => [packM 0x90#8 f, packALong x]
  | .acas f x => [packM 0x91#8 f, packALong x]
  | .aadd f x => [packM 0x92#8 f, packALong x]
  | .amin f x => [packM 0x93#8 f, packALong x]
  | .amax f x => [packM 0x94#8 f, packALong x]
  | .aand f x => [packM 0x95#8 f, packALong x]
  | .aor f x => [packM 0x96#8 f, packALong x]
  | .axor f x => [packM 0x97#8 f, packALong x]
  | .afadd f x => [packM 0x98#8 f, packALong x]
  | .radd f x => [packM 0x99#8 f, packALong x]
  | .rfadd f x => [packM 0x9a#8 f, packALong x]
  | .rmax f x => [packM 0x9b#8 f, packALong x]
  | .link f => [packG 0xa0#8 f]
  | .gld f => [packG 0xa1#8 f]
  | .gmov f => [packG 0xa2#8 f]
  | .segq f => [packG 0xa3#8 f]
  | .fence => [packK 0xa4#8 k]
  | .fencex => [packK 0xa5#8 k]
  | .cpy f x => [packE 0xa6#8 f, packELong x]
  | .cpy2d f x => [packE 0xa7#8 f, packELong x]
  | .fsubFeeder f x => [packE 0xa8#8 f, packELong x]
  | .fend => [packK 0xa9#8 k]
  | .unbind f => [packG 0xaa#8 f]
  | .bind f => [packG 0xab#8 f]
  | .tclm f => [packT 0xb0#8 f]
  | .trel f => [packT 0xb1#8 f]
  | .tld f => [packT 0xb2#8 f]
  | .mma f x => [packX 0xb3#8 f, packXLong x]
  | .mmas f x => [packX 0xb4#8 f, packXLong x]
  | .awin f => [packT 0xb5#8 f]
  | .aclr f => [packT 0xb6#8 f]
  | .adrn f x => [packXD 0xb7#8 f, packXDLong x]
  | .ald f => [packV 0xb8#8 f]
  | .aldLong f x => [packV 0xb8#8 f, packVLong x]
  | .ast f => [packV 0xb9#8 f]
  | .astLong f x => [packV 0xb9#8 f, packVLong x]
  | .mpair => [packK 0xba#8 k]
  | .munpair => [packK 0xbb#8 k]
  | .tspawn f => [packM 0xc0#8 f]
  | .tspawnLong f x => [packM 0xc0#8 f, packMLong x]
  | .tdone => [packK 0xc1#8 k]
  | .tabort => [packK 0xc2#8 k]
  | .tserial => [packK 0xc3#8 k]
  | .qpop f => [packQ 0xc4#8 f]
  | .qpush f => [packQ 0xc5#8 f]
  | .qcnt f => [packQ 0xc6#8 f]
  | .launch f => [packG 0xc7#8 f]
  | .sadd f => [packV 0xd0#8 f]
  | .saddLong f x => [packV 0xd0#8 f, packVLong x]
  | .ssub f => [packV 0xd1#8 f]
  | .ssubLong f x => [packV 0xd1#8 f, packVLong x]
  | .smul f => [packV 0xd2#8 f]
  | .smulLong f x => [packV 0xd2#8 f, packVLong x]
  | .sand f => [packV 0xd3#8 f]
  | .sandLong f x => [packV 0xd3#8 f, packVLong x]
  | .sor f => [packV 0xd4#8 f]
  | .sorLong f x => [packV 0xd4#8 f, packVLong x]
  | .sxor f => [packV 0xd5#8 f]
  | .sxorLong f x => [packV 0xd5#8 f, packVLong x]
  | .sshl f => [packV 0xd6#8 f]
  | .sshlLong f x => [packV 0xd6#8 f, packVLong x]
  | .sshr f => [packV 0xd7#8 f]
  | .sshrLong f x => [packV 0xd7#8 f, packVLong x]
  | .scmp f => [packV 0xd8#8 f]
  | .scmpLong f x => [packV 0xd8#8 f, packVLong x]
  | .smovi f => [packVI 0xd9#8 f]
  | .smovhi f => [packVI 0xda#8 f]
  | .ssel f x => [packV 0xdb#8 f, packVLong x]
  | .smin f => [packV 0xdc#8 f]
  | .sminLong f x => [packV 0xdc#8 f, packVLong x]
  | .smax f => [packV 0xdd#8 f]
  | .smaxLong f x => [packV 0xdd#8 f, packVLong x]
  | .csrr f => [packVI 0xe0#8 f]
  | .csrw f => [packVI 0xe1#8 f]
  | .sethand f => [packVI 0xe2#8 f]
  | .rclaim f => [packVI 0xe3#8 f]
  | .rgive f => [packVI 0xe4#8 f]
  | .ixset f => [packVI 0xe5#8 f]
  | .wellfl => [packK 0xe6#8 k]
  | .kill => [packK 0xe7#8 k]
  | .powerOn => []
  | .moduleReset => []
  | .stageAdvance => []
  | .thermalWarning => []
  | .thermalTrip => []
  | .marginCheck => []
  | .stage => []
  | .margin => []
  | .stagebits => []
  | .enrol => []
  | .revoke => []
  | .unknownMailboxCommand => []
  | .apply => []
  | .retire => []
  | .fwctlWrite => []
  | .linkFlitArrive => []
  | .linkStopSignal => []
  | .unfreezeResume => []
  | .unfreezeKill => []
  | .fabricRequestArrive => []
  | .fpctlWrite => []
  | .queueEnable => []
  | .drain => []
  | .queueDisable => []
  | .queueDrainDone => []
  | .kick => []
  | .launchStart => []
  | .launchRetire => []
  | .statusWrite => []
  | .gcmd => []
  | .gunreg => []
  | .nodeStart => []
  | .nodeFinish => []
  | .shardReceive => []
  | .generationPublish => []
  | .contextStart => []
  | .sliceEnd => []
  | .flashbackTimeout => []
  | .groupSave => []
  | .groupRestore => []
  | .clusterPlace => []
  | .headBlocking => []
  | .clauseStart => []
  | .clauseFetchArrive => []
  | .budgetTick => []
  | .budgetGraceExpire => []
  | .pkctlResume => []
  | .pkctlKill => []
  | .fqciWrite => []
  | .faultRetry => []
  | .priResponse => []
  | .atsInvalidate => []
  | .tlbinv => []
  | .tlbinvDone => []
  | .segsync => []
  | .descriptorSyncDone => []
  | .rbcmdBind => []
  | .rbcmdUnbind => []
  | .rbcmdUnbindRevoke => []
  | .rbcmdRetire => []
  | .contextEnable => []
  | .contextDisable => []
  | .contextKill => []
  | .contextIdle => []
  | .eventActArrive => []
  | .eventCountUpdate => []
  | .eventWake => []
  | .queueActArrive => []
  | .queueSwapInDone => []
  | .accessComplete => []
  | .loadReturn => []
  | .taskDispatch => []
  | .frontierSample => []
  | .frontierUpdate => []
  | .taskCommit => []
  | .spillRefill => []
  | .barrierArrive => []
  | .copyStart => []
  | .copyBeat => []
  | .copyComplete => []
  | .feederTileLand => []
  | .tileLoadLand => []
  | .matrixOpStart => []
  | .matrixOpRetire => []
  | .subarrayGate => []
  | .drainComplete => []
  | .pairBind => []
  | .pairEnd => []
  | .claimGrant => []
  | .deadlockCheck => []
  | .teamRetire => []
  | .folioRefresh => []
  | .uncorrectableError => []
  | .registerWrite => []
  | .registerReadClear => []
  | .fabricPortLinkTraining => []
  | .fabricRefusalReceive => []
  | .atsTranslationCompletion => []

/-- The words decoding of an instruction inverts: its length is one or two. -/
def decodeWords : List Word → Except Reject Instr
  | [w] => decodeShort w
  | [w, x] => decodeLong w x
  | _ => .error .form

/-! ## Classes (R252, R266) -/

/-- The classes of the clause header, CLS codes 0 to 5 (R252). -/
def classCode (op : BitVec 8) : Option Nat :=
  let n := op.toNat
  if 0x01 ≤ n ∧ n ≤ 0x0c ∨ 0x10 ≤ n ∧ n ≤ 0x19 then some 4
  else if 0x20 ≤ n ∧ n ≤ 0x4f ∨ 0x50 ≤ n ∧ n ≤ 0x56 ∨ 0x60 ≤ n ∧ n ≤ 0x69 ∨ 0x72 ≤ n ∧ n ≤ 0x79 then some 0
  else if 0x80 ≤ n ∧ n ≤ 0x85 ∨ 0x90 ≤ n ∧ n ≤ 0x9b ∨ 0xa0 ≤ n ∧ n ≤ 0xa5 then some 1
  else if 0xa6 ≤ n ∧ n ≤ 0xa9 then some 3
  else if n = 0xaa ∨ n = 0xab ∨ 0xc0 ≤ n ∧ n ≤ 0xc7 ∨ 0xe2 ≤ n ∧ n ≤ 0xe7 then some 5
  else if 0xb0 ≤ n ∧ n ≤ 0xbb then some 2
  else none

/-- The class-free opcodes: NOP, MOV, SEL, SADD to SMAX, CSRR and CSRW (R255). -/
def classFree (op : BitVec 8) : Bool :=
  let n := op.toNat
  n = 0x00 ∨ n = 0x70 ∨ n = 0x71 ∨ 0xd0 ≤ n ∧ n ≤ 0xdd ∨ n = 0xe0 ∨ n = 0xe1

/-- The control transfers BRA, BRU, CALL, CALLR, RET, JOIN, EXIT (R255). -/
def controlTransfer (op : BitVec 8) : Bool :=
  let n := op.toNat
  1 ≤ n ∧ n ≤ 5 ∨ n = 7 ∨ n = 8

/-- Whether R265 assigns the opcode. -/
def opcodeAssigned (op : BitVec 8) : Bool := classFree op || (classCode op).isSome

/-! ## The clause header (R252) -/

def headerCnt (h : Word) : Nat := (bits h 25 4).toNat
def headerCls (h : Word) : Nat := (bits h 22 3).toNat
def headerWk (h : Word) : Nat := (bits h 20 2).toNat
def headerWp (h : Word) : Nat := (bits h 16 4).toNat
def headerPp (h : Word) : Bool := h.getLsbD 15
/-- LEN bit k: instruction k is two words. -/
def headerLen (h : Word) (k : Nat) : Bool := decide (k < 15) && h.getLsbD k

/-- The number of instructions among the first `n` that are two words. -/
def longCount (h : Word) : Nat → Nat
  | 0 => 0
  | n + 1 => longCount h n + (if headerLen h n then 1 else 0)

/-- The words of the clause after its header. -/
def headerBody (h : Word) : Nat := headerCnt h + longCount h (headerCnt h)

/-- The header raises none of the conditions of R252. -/
def headerOk (h : Word) : Bool :=
  bits h 29 3 == 5#3 && headerCnt h != 0 && decide (headerCls h < 6)
    && ((List.range 15).all fun k => !(headerLen h k && decide (headerCnt h ≤ k)))
    && !(headerWk h == 0 && headerWp h != 0)

/-- The place of instruction `k` among the words after the header. -/
def wordIndex (h : Word) (k : Nat) : Nat := k + longCount h k

/-- The header of a clause of one instruction, whose words are given, with no wait (R252). -/
def soleHeader (w : Word) (long : Bool) : Word :=
  5#3 ++ 1#4 ++ BitVec.ofNat 3 ((classCode (opcodeOf w)).getD 0) ++ 0#2 ++ 0#4 ++ 0#1 ++ BitVec.ofNat 15 (if long then 1 else 0)

/-- The words of an instruction whose first word is the low 32 bits of `w`: it has two words where the table gives it more than 32
bits, or where the opcode exists in long form only. -/
def tableWords (nbits w : Nat) : Word × Option Word :=
  let w0 := BitVec.ofNat 32 w
  let long : Bool := match decodeShort w0 with
    | .ok _ => decide (32 < nbits)
    | .error _ => true
  (w0, if long then some (if nbits ≤ 32 then 0#32 else BitVec.ofNat 32 (w / 4294967296)) else none)

/-- The instruction the decoder reads from an instruction whose bits are `w`; the second word is 0 where the table gives the row only
one word. -/
def decodeTableWord (nbits w : Nat) : Option Instr :=
  match decodeInstr (tableWords nbits w).1 (tableWords nbits w).2 with
  | .ok i => some i
  | .error _ => none

end Sys2Proof
end

