-- ==== Sys2Proof/Machine/State.lean ====
section
/-! DEFINITION. The state of Sheoc: every piece of state the spec names, as plain data, and the state after reset.
INVENTORY.md lists each piece with its rule. A `Tbl` is a list of numbered entries in rising order; what an unlisted
number reads as is said where the table is read. Fields marked MODEL are the model's own and not the spec's. -/

namespace Sys2Proof.Machine

/-- Numbered entries in rising order. -/
abbrev Tbl (α : Type) := List (Nat × α)

/-! ## Causes -/

/-- The trap causes of R268. -/
inductive Cause where
  | illOpc | illField | illHdr | illClass | illOperand | deadRead | indexBound | priv
  | segLimit | segRights | segStale | segNull | link | rubricKind
  | pageLoad | pageFetch | perm | atomicPath | align
  | accWindow | slotState | pair | budget | regDeadlock | barrier | trapi | brk | eccUncorr | frozen
  deriving DecidableEq, Repr

/-- A cause with what the trap frame or the fault record says of it (R268, R269, R162). -/
structure Trap where
  cause : Cause
  aux : Word
  ofs : Nat
  sel : Nat
  lin : Nat
  deriving DecidableEq, Repr

/-! ## Segments (R142, R143, R399) -/

/-- A segment register: the cached fields of R143, and whether the descriptor was malformed (R312). -/
structure SegReg where
  sel : BitVec 16
  gen : BitVec 16
  base : BitVec 57
  limit : BitVec 48
  r : Bool
  w : Bool
  x : Bool
  a : Bool
  kind : BitVec 3
  s : Bool
  bad : Bool
  deriving DecidableEq, Repr

/-- A register with selector 0 (R143). -/
def SegReg.null : SegReg :=
  { sel := 0, gen := 0, base := 0, limit := 0, r := false, w := false, x := false, a := false, kind := 0, s := false, bad := false }

/-! ## Places (R152, R163, R165, R399, R12) -/

/-- Where a byte lies. -/
inductive Place where
  | hbm (die off : Nat)
  | scr (die core off : Nat)
  | folio (die off : Nat)
  | arg (die core buf off : Nat)
  | queueStore (die off : Nat)
  | host (pasid addr : Nat)
  | reg (fn off : Nat)
  | far (port off : Nat)
  deriving DecidableEq, Repr

/-- A run of bytes in one place. -/
structure Run where
  place : Place
  len : Nat
  deriving DecidableEq, Repr

/-! ## Accesses in flight (R298 to R309) -/

/-- The operations of R306. -/
inductive AOp where
  | xch | cas | add | min | max | and | or | xor | fadd
  deriving DecidableEq, Repr

inductive AccKind where
  | load | ldu | store
  | atomic (op : AOp)
  | reduce (op : AOp)
  deriving DecidableEq, Repr

/-- Where a loaded or returned value goes: nowhere, lane registers (the first register of each of the 32 lanes), a scalar or
a pair. -/
inductive Dst where
  | none
  | lanes (regs : List Nat)
  | scalar (n : Nat)
  deriving DecidableEq, Repr

/-- A hop over a die link: the link, whether it leads to its die of the higher number, and the class of the flits that make it (R10, R13). -/
structure Hop where
  link : Nat
  up : Bool
  cls : FlitClass
  deriving DecidableEq, Repr

/-- One lane of an access: linear address, offset, the bytes' places, the data, the hops of its request, or of its answer once it has
performed, that are still to make (R13), whether it has performed, and what it has read and not yet returned (R299). -/
structure LaneAcc where
  lane : Nat
  lin : Nat
  ofs : Nat
  runs : List Run
  data : List Byte
  cmp : List Byte
  path : List Hop
  done : Bool
  got : Option (List Byte)
  deriving DecidableEq, Repr

/-- An access in flight; `told` holds the pages for which a far port's refusal has been recorded (R12, R160). -/
structure Access where
  g : GKey
  team : Nat
  ctx : Nat
  kind : AccKind
  width : Nat
  sel : Nat
  lanes : List LaneAcc
  dst : Dst
  mask : Word
  ord : Nat
  scope : Nat
  task : Option Nat
  told : List Nat
  deriving DecidableEq, Repr

/-- An entry of the side log (R157): one lane's access and the segment it was made through; `host` says that the host has been asked for its page
(R160), `away` names the access as which its replay is on its way to another module (R12). -/
structure LogEntry where
  kind : AccKind
  lane : Nat
  lin : Nat
  ofs : Nat
  sel : Nat
  width : Nat
  data : List Byte
  host : Bool
  away : Option Nat
  deriving DecidableEq, Repr

/-! ## Groups -/

/-- An entry of the reconvergence stack (R106): the reconvergence PC and its selector, M, H, the split flag, the pending PC and
its selector, the pending mask. -/
structure Recon where
  pc : BitVec 48
  sel : BitVec 16
  m : Word
  h : Word
  split : Bool
  ppc : BitVec 48
  psel : BitVec 16
  pmask : Word
  deriving DecidableEq, Repr

/-- A well entry in use (R122). -/
structure WellEntry where
  reg : Nat
  valid : Word
  dirty : Bool
  vals : Lanes
  deriving DecidableEq, Repr

/-- What the scoreboard holds pending (R104). -/
inductive PendOn where
  | reg (n : Nat)
  | scalar (n : Nat)
  | pred (n : Nat)
  deriving DecidableEq, Repr

/-- A pending write: of which operation, on what, the lanes still to arrive, and, where nothing arrives and only time passes
(R365, R374), the clk at which it ends; 0 for one that ends with its last lane. -/
structure Pend where
  id : Nat
  on : PendOn
  lanes : Word
  due : Nat := 0
  deriving DecidableEq, Repr

/-- The clause a group is in: its header's offset, the header, the words after it, and whether it has started (R102, R254). -/
structure Clause where
  ofs : BitVec 48
  hdr : Word
  words : List Word
  begun : Bool
  skipWait : Bool
  deriving DecidableEq, Repr

/-- How far an instruction that comes to the pen more than once has got (R325, R336, R338); MODEL. -/
inductive Half where
  | fresh
  | sent
  | done
  deriving DecidableEq, Repr

/-- Where RTT resumes (R257, R114, R337): at the instruction, at the clause decoded afresh, at the word read as a header, at
the header of a clause not begun, or at a header whose wait raised. -/
inductive ResumeKind where
  | instr | decode | word | boundary | headerWait
  deriving DecidableEq, Repr

/-- What a descheduled group waits for (R325). -/
inductive Wait where
  | fetch
  | header
  | barrier (b : BarKey) (phase : Nat)
  | event (name : Nat) (v : Word)
  | claim (n : Nat)
  | path (p : Nat) (t : Nat)
  | feeder
  | owner
  | pairBind
  | pairEnd
  | promotion
  | log (free : Nat)
  | queue (q : Nat)
  | acquire
  deriving DecidableEq, Repr

/-- Why a group is parked (R54, R156, R143, R89). A deferred cause may be one of the second stage (R155). `room` is a fault whose record the ring has no room for (R160); `act` is an EVSIG or EVTEST whose act met a fault at an event table, at
a linear address of a die, when it arrived there (R58). -/
inductive Park where
  | page (c : Cause)
  | host (page : Nat) (t : Trap)
  | room
  | act (c : Cause) (lin die name : Nat) (a : EventAct)
  | stale
  | frozen
  | link (idx : Nat)
  | deferred (t : Trap) (pos : Nat) (kind : ResumeKind) (hyper : Bool)
  deriving DecidableEq, Repr

/-- How a cause recorded for a group is delivered: as it is, as one deferred by speculation (R89), or as a deferred one of the second stage
(R155). -/
inductive DueHow where
  | plain | deferred | hyper
  deriving DecidableEq, Repr

/-- The state of a group (R52, R54, R102). -/
inductive RunState where
  | active
  | ready
  | idle
  | waiting (w : Wait)
  | parked (p : Park)
  | stopped
  deriving DecidableEq, Repr

/-- The flashback treatment of a group (R64). -/
inductive Flash where
  | no
  | forward
  | saving (full : Bool) (due : Nat)
  deriving DecidableEq, Repr

/-- What trap entry recorded (R257, R324, R334): the place, the clause under way, the privilege, and TFRAME, which a handler may write for the
next trap (R355); and, while the emulation handler performs a store under the lanes of the frame, EXEC as it found it (R395). -/
structure Handler where
  sel : BitVec 16
  ofs : BitVec 48
  pos : Nat
  clause : Option Clause
  kind : ResumeKind
  sup : Bool
  half : Half
  cause : Cause
  frame : Word
  found : Option Word
  deriving DecidableEq, Repr

/-- A draft grain (R78): address of the 64-byte grain's place, its byte mask and bytes. -/
structure Grain where
  place : Place
  mask : BitVec 64
  bytes : List Byte
  deriving DecidableEq, Repr

/-- A key (R72). -/
structure TaskKey where
  ts : BitVec 48
  tb : BitVec 16
  deriving DecidableEq, Repr

/-- A task record (R70, R73). -/
structure Rec where
  id : Nat
  ts : BitVec 48
  nl : Nat
  ek : Bool
  u : Bool
  entry : Word
  budget : Word
  args : List Word
  code : SegReg
  tb : Option (BitVec 16)
  floor : TaskKey
  parent : Option Nat
  launch : Nat
  node : Nat
  deriving DecidableEq, Repr

/-- The task of a slot (R76 to R90); `entered` once its code segment is in g15; once it is promoted, `drainAt` is the clk at which the next
grain of its draft has drained (R87); `ranAt` is the count of its context's running clk at which its budget last fell (R90), and, while the task is
saved, how many it has run since. -/
structure Task where
  record : Rec
  key : TaskKey
  spec : Bool
  budget : Word
  draft : List Grain
  budgetOut : Bool
  entered : Bool
  drainAt : Nat
  ranAt : Nat
  deriving DecidableEq, Repr

/-- A group. `ppseg` and `pphand` are g15 and the trap entry in force as they were at the last palimpsest point, selector 0 before any (R63, R64); `recipe` holds the clauses
of a recipe still to run, the point where the group then issues, and whether that is handler code, above the recipes that it interrupts (R65);
`pprecipe` is that list as it was at the last palimpsest point; `acted` holds the lanes of the ALD or AST at hand that have acted (R374). -/
structure Group where
  team : Nat
  num : Nat
  nlanes : Nat
  run : RunState
  readyAt : Nat
  tenure : Nat
  pc : BitVec 48
  clause : Option Clause
  pos : Nat
  half : Half
  seg : Tbl SegReg
  window : Nat
  regs : Tbl Lanes
  dead : List Nat
  well : Tbl WellEntry
  n0 : Option Lanes
  n1 : Option Lanes
  sc : Tbl Word
  pr : Tbl Word
  ix : Tbl (List (BitVec 16))
  exec : Word
  hand : Word
  xout : Word
  ixw : Tbl Word
  awb : Nat
  awl : Nat
  acted : Word
  ppc : Word
  ppseg : SegReg
  pphand : Option Handler
  recipe : List (Nat × BitVec 48 × Bool)
  pprecipe : List (Nat × BitVec 48 × Bool)
  trapv : Word
  tframe : Word
  stack : List Recon
  spilled : Nat
  handler : Option Handler
  lsq : List (Nat × Bool)
  ceq : List (Nat × Bool)
  me : Nat
  fd : Nat
  pend : List Pend
  log : List LogEntry
  acqUntil : Nat
  scOut : List Nat
  irrev : Bool
  budgetDue : Bool
  barrierDue : List Word
  raiseDue : Option (Trap × Nat × ResumeKind × DueHow)
  arrivals : List (BarKey × Nat)
  flash : Flash
  task : Option Task
  deriving DecidableEq, Repr

/-! ## Teams (R46 to R50, R56, R95 to R97, R245) -/

/-- The kernel record (R245). -/
structure KRec where
  kofs : Word
  regs : Nat
  ord : Bool
  idem : Bool
  pair : Bool
  gres : Bool
  scr : Nat
  tx : Nat
  ty : Nat
  tz : Nat
  cw : Nat
  ch : Nat
  trap : Word
  rcf : Nat
  rcn : Nat
  rtab : Nat
  deriving DecidableEq, Repr

/-- A team; `redo` says that it is to be launched again (R169), `logs` are the side-log entries of groups that have exited (R157,
R158). -/
structure Team where
  die : Nat
  core : Nat
  ctx : Nat
  part : Nat
  launch : Nat
  node : Nat
  cluster : Nat
  member : Nat
  number : Nat
  x : Nat
  y : Nat
  z : Nat
  groups : List (Nat × Nat)
  count : Nat
  krec : KRec
  code : SegReg
  budget : Option Nat
  grace : Bool
  failed : Bool
  banks : List Nat
  argBuf : Nat
  argLen : Nat
  relaunched : Bool
  redo : Bool
  noTask : Bool
  logs : List (GKey × LogEntry)
  ranAt : Nat
  deriving DecidableEq, Repr

/-- A placed cluster: its rectangle, and the teams of its members, which stay named until all have exited (R164). -/
structure Cluster where
  die : Nat
  w : Nat
  h : Nat
  launch : Nat
  node : Nat
  members : List Nat
  banks : List (Nat × List Nat)
  live : Nat
  deriving DecidableEq, Repr

/-- A barrier (R112, R113): phase count, the groups arrived, E and B, and the phases that completed with B > E. -/
structure Barrier where
  phase : Nat
  arrived : List GKey
  e : Word
  b : Word
  late : List Nat
  deriving DecidableEq, Repr

/-! ## Cores -/

/-- A pen: the slot of the group that holds it, when it may next be granted, the claims waiting (R137); `stalled` says that the instruction at it
has had its grant and waits to issue (R51, R325). -/
structure Pen where
  holder : Option Nat
  freeAt : Nat
  askedAt : Nat
  stalled : Bool
  claims : List (Nat × Nat)
  deriving DecidableEq, Repr

/-- A command of the copy engine (R317 to R320, R401): for whom, through which segments; of the row under way its
source and destination offsets, its bytes and how many have moved; the rows left, that one included, and their pitches; the bytes
it posts; the clk in which it last moved a beat; what of the row was read ahead because its source and destination overlap; the fault a beat waits on: its
kind, whether it is the destination's, and its page. -/
structure CopyCmd where
  id : Nat
  g : GKey
  team : Nat
  ctx : Nat
  node : Option (Nat × Nat)
  dst : SegReg
  src : SegReg
  from_ : Nat
  into : Nat
  bytes : Nat
  moved : Nat
  rows : Nat
  fromPitch : Nat
  intoPitch : Nat
  total : Nat
  bar : Option BarKey
  running : Bool
  issued : Nat
  movedAt : Nat
  ahead : List Byte
  stalled : Option (Nat × Bool × Nat)
  frozen : Bool
  deriving DecidableEq, Repr

/-- An operation on the array (R369, R370). -/
structure MatOp where
  id : Nat
  g : GKey
  team : Nat
  scaled : Bool
  pair : Bool
  clr : Bool
  rel : Bool
  bar : Option BarKey
  hand : Word
  m : Nat
  n : Nat
  k : Nat
  a : Nat
  b0 : Nat
  b1 : Nat
  reads : List (Nat × Nat)
  start : Option Nat
  deriving DecidableEq, Repr

/-- A drain or a clear in flight (R230, R372, R376), when it has read its rows (R226), when its last write leaves (R376), and
whether it waits on a fault, and the pages whose faults have been told (R231). -/
structure Drain where
  id : Nat
  g : GKey
  team : Nat
  ctx : Nat
  clear : Bool
  add : Bool
  hand : Word
  row : Nat
  rows : Nat
  col : Nat
  cols : Nat
  ofs : Nat
  pitch : Nat
  seg : SegReg
  values : List Word
  readEnd : Nat
  leave : Nat
  faulted : Bool
  told : List Nat
  frozen : Bool
  sent : Bool
  away : Bool
  deriving DecidableEq, Repr

/-- The states of a tile slot (R219). -/
inductive SlotState where
  | free | empty | filling | full
  deriving DecidableEq, Repr

/-- A tile slot (R217 to R219): its bytes are data at 0, scale area at 16384, band field at 20480 (R367). -/
structure Tile where
  state : SlotState
  ring : Bool
  ringEnd : Bool
  readers : Nat
  owner : Nat
  bytes : Tbl Byte
  freeing : Bool
  deriving DecidableEq, Repr

/-- The matrix array of a core (R210 to R216). -/
structure Arr where
  owner : Option Nat
  acc : Tbl Word
  zeroUntil : Nat
  queue : List MatOp
  drains : List Drain
  pair : Option (Nat × Nat)
  lastUse : Tbl Nat
  gated : Tbl Bool
  busyUntil : Nat
  frozen : Bool
  deriving DecidableEq, Repr

/-- A line of the clause cache, 64 bytes of a linear address of a context (R330). -/
structure Line where
  ctx : Nat
  lin : Nat
  bytes : List Byte
  deriving DecidableEq, Repr

/-- A core; `beats` counts the 64-byte beats its copy engine has made in the clk `beatClk` (R317). -/
structure Core where
  banks : Tbl Nat
  draft : Bool
  argBufs : Tbl Nat
  pens : Tbl Pen
  granted : Tbl Nat
  lines : List Line
  copy : List CopyCmd
  beatClk : Nat
  beats : Nat
  arr : Arr
  tiles : Tbl Tile
  deriving DecidableEq, Repr

/-! ## Dies -/

/-- A subscription of a feeder (R220 to R223): the group and team it is for, its ring, its walk descriptor, the follower's core
in pair mode, the next tile, whether it is stopped, whether a tile is on its way, whether it waits on a fault, and when the last
tile landed. Feeders are numbered 0 to 15; a subscription stopped by a fault stands under a higher number (R223). -/
structure Feeder where
  g : GKey
  team : Nat
  ctx : Nat
  base : Nat
  len : Nat
  dbase : Nat
  pitch : Nat
  tstep : Nat
  sbase : Nat
  spitch : Nat
  bbase : Nat
  nt : Nat
  roleB : Bool
  pair : Option Nat
  sfmt : Nat
  next : Nat
  bar : Option BarKey
  stopped : Bool
  filling : Bool
  faulted : Bool
  lastLand : Nat
  deriving DecidableEq, Repr

/-- A waiter of an event (R58). -/
structure Waiter where
  g : GKey
  team : Nat
  v : Word
  deriving DecidableEq, Repr

/-- An event entry of a die (R57, R58): count, hardware waiters in arrival order, the ends of its overflow list, dies recorded
at the home die, graph nodes that wait, whether it is held on chip, its last use, and whom the records of its overflow list stand for. -/
structure EvEntry where
  c : Word
  waiters : List Waiter
  head : Nat
  tail : Nat
  dies : List Nat
  nodes : List (Nat × Nat × Word)
  onChip : Bool
  used : Nat
  listed : Tbl Waiter
  deriving DecidableEq, Repr

/-- An act, a count sent by the home die, or a page of the free list still to be built, that waits because the event table of a die could not be
reached (R58). -/
inductive HeldWhat where
  | act (a : EventAct)
  | count (c : Word)
  | build (page : Nat)
  deriving DecidableEq, Repr

structure HeldAct where
  ctx : Nat
  name : Nat
  what : HeldWhat
  deriving DecidableEq, Repr

/-- A work queue's contents, the blocks of the store that hold them, sixteen records each (R60, R61; log 129), and which of its records have an
uncorrectable error (R168). -/
structure WorkQueue where
  items : List Word
  blocks : List Nat
  spoilt : List Nat
  resident : Bool
  loading : Bool
  used : Nat
  deriving DecidableEq, Repr

/-- Clusters of a launch's node not yet placed on a die (R48): the running clk its head has waited, and since when it waits in a
clk in which its context runs; `again` marks the relaunch of R169. -/
structure Range where
  launch : Nat
  node : Nat
  next : Nat
  last : Nat
  waited : Nat
  since : Option Nat
  blocking : Bool
  again : Bool
  deriving DecidableEq, Repr

/-- A group saved by flashback (R64, R65); `lost` says that a group of another core has been saved to the same area since (log 56). -/
structure Saved where
  id : Nat
  ctx : Nat
  core : Nat
  slot : Nat
  full : Bool
  group : Group
  lost : Bool
  deriving DecidableEq, Repr

/-- A fault record waiting to be written (R155, R160, R162). -/
structure FaultRec where
  lin : Nat
  ec : Cause
  kind : Nat
  hostfail : Bool
  core : Nat
  slot : Nat
  sel : Nat
  ofs : Nat
  deriving DecidableEq, Repr

/-- A page held in a TLB (R154); `core` is none for the die's TLB. -/
structure TlbEntry where
  die : Nat
  core : Option Nat
  ctx : Nat
  page : Nat
  pte : BitVec 64
  size : Nat
  deriving DecidableEq, Repr

/-- A guest-physical page held in a die's nested TLB (R155). -/
structure NestedEntry where
  ctx : Nat
  page : Nat
  pte : BitVec 64
  size : Nat
  deriving DecidableEq, Repr

/-- A die. `coming` is the context that runs next, fixed when a slice ends (R44); `nextDispatch` is the clk from which its task unit may dispatch
again (R76); `gens` holds the generation of the descriptors in use, none for one that could not be read when it changed (R143). -/
structure Die where
  run : Option Nat
  coming : Option Nat
  nextDispatch : Nat
  slice : Nat
  switching : Bool
  ranSince : Nat
  born : Nat
  mgate : BitVec 16
  saved : List Saved
  ranges : List Range
  events : List ((Nat × Nat) × EvEntry)
  held : List HeldAct
  queues : Tbl WorkQueue
  feeders : Tbl Feeder
  gens : Tbl (Option (BitVec 16))
  hfqb : BitVec 64
  hfqpi : Word
  hfqci : Word
  hfaults : List (Nat × FaultRec)
  ntlb : List NestedEntry
  regionA : Tbl (BitVec 16)
  regionB : Tbl (BitVec 16)
  folioBad : List Nat
  thermal : Bool
  margin : BitVec 16
  voltage : Nat
  corrected : Nat
  deriving DecidableEq, Repr

/-! ## Contexts (R45, R74, R144, R209) -/

/-- A context on a die; `ran` counts the clk in which it was the die's running context, up to its present slice (R56); `tlbBusy` lists the TLBINV writes that are not done, the one in progress first (R154). -/
structure Ctx where
  en : Bool
  errc : Byte
  killing : Bool
  pasid : BitVec 20
  sdtb : BitVec 64
  rbtb : BitVec 64
  ptb : BitVec 64
  s2tb : BitVec 64
  lkb : BitVec 64
  fqb : BitVec 64
  fqpi : Word
  fqci : Word
  fqev : BitVec 16
  resDone : Bool
  resAct : Nat
  res : BitVec 2
  tlbBusy : List (BitVec 64)
  sched : Word
  schedNow : Word
  lq : Word
  lqNow : Word
  evtb : BitVec 64
  saveb : BitVec 64
  qsave : BitVec 64
  qcfg : Tbl Nat
  tq : BitVec 16
  tqNow : BitVec 16
  tspill : BitVec 64
  clev : BitVec 8
  faults : List FaultRec
  ran : Nat
  deriving DecidableEq, Repr

/-! ## Task domains (R67 to R91) -/

/-- A finished task that has not committed (R84). -/
structure Finished where
  task : Task
  core : Nat
  deriving DecidableEq, Repr

/-- The part of a domain on one die; the commit under way is of a record, and is done at a clk; `places` holds the places of the spilled
records in the context's spill area (R74, R75), `remains` what killed promoted tasks had drafted and not drained (R90). -/
structure DomDie where
  queued : List Rec
  spilled : List Rec
  places : Tbl Nat
  finished : List Finished
  counts : List (BitVec 48 × Nat)
  sample : TaskKey
  others : Tbl TaskKey
  frontier : Option TaskKey
  refilling : Bool
  committing : Option (Nat × Nat)
  remains : List Grain
  deriving DecidableEq, Repr

/-- A tracked grain (R80, R81, R87): readers, writers and the promoted writer, as record identities. -/
structure Track where
  place : Place
  readers : List Nat
  writers : List Nat
  promoted : Option Nat
  deriving DecidableEq, Repr

structure Domain where
  dom : Nat
  launch : Nat
  node : Nat
  dies : List Nat
  args : List Byte
  onDie : Tbl DomDie
  tracks : List Track
  failed : Bool
  deriving DecidableEq, Repr

/-! ## Launches and the host interface (R26 to R43, R401) -/

inductive NodeKind where
  | grid | ordered | copy | evsig | evwait | loadw
  deriving DecidableEq, Repr

/-- A node of a registered graph (R35). -/
structure Node where
  kind : NodeKind
  preds : List Nat
  rubric : Nat
  tx : Nat
  ty : Nat
  tz : Nat
  gpt : Nat
  cw : Nat
  ch : Nat
  budget : Word
  addr : BitVec 64
  count : BitVec 64
  src : BitVec 64
  name : Nat
  deriving DecidableEq, Repr

/-- A registered graph (R36). -/
structure Graph where
  part : Nat
  ctx : Nat
  handle : Word
  nodes : List Node
  deriving DecidableEq, Repr

/-- What has become of a node: waiting for predecessors, held by a fault of a kind at a page, held by an entry that is not bound and whether that has
been RESOLVING since, running with so many teams left, finished, failed or skipped (R37, R47). -/
inductive NodeRun where
  | waiting
  | held (rank page : Nat)
  | linked (seen : Bool)
  | running (left : Nat) (failed : Bool)
  | finished
  | failed
  | skipped
  deriving DecidableEq, Repr

/-- A launch: a host kick (queue and sequence number) or a device launch (R32, R62); `asked` names the group, its team and the status scalar of a
LAUNCH that is on its way to the scriptorium (R351). -/
structure Launch where
  queue : Option (Nat × Nat)
  parent : Option Nat
  part : Nat
  ctx : Nat
  prio : Nat
  serial : Bool
  irq : Bool
  first : Bool
  started : Bool
  nodes : List Node
  runs : List NodeRun
  seen : List Word
  args : List Byte
  recs : List (Nat × KRec × SegReg)
  gen : Nat
  err : Byte
  evn : Option Nat
  taken : Nat
  asked : Option (GKey × Nat × Nat)
  deriving DecidableEq, Repr

/-- The queue descriptor as read at the enable (R29). -/
structure QDesc where
  pasid : Nat
  ctx : Nat
  prio : Nat
  stat : Nat
  argBase : Nat
  slotSz : Nat
  slots : Nat
  vec : Nat
  deriving DecidableEq, Repr

/-- A queue (R30 to R34). -/
structure Queue where
  qda : BitVec 64
  errc : Byte
  en : Bool
  draining : Bool
  pslot : BitVec 5
  fn : Nat
  desc : QDesc
  done : Word
  taken : BitVec 16
  err : Byte
  ovf : Bool
  errseq : Word
  seq : Word
  held : List Nat
  retired : List (Word × Bool)
  statusDue : Bool
  irqs : Nat
  deriving DecidableEq, Repr

/-- A record of a shard list (R41). -/
structure Shard where
  src : Nat
  len : Nat
  nvme : Bool
  folio : Bool
  addr : Nat
  dies : Nat
  digest : BitVec 512
  tries : Nat
  deriving DecidableEq, Repr

/-- The LOADW of a partition in progress (R41 to R43); `cast` says that the reader has begun to broadcast the shard at hand. -/
structure Load where
  launch : Nat
  node : Nat
  shards : List Shard
  got : Nat
  cast : Bool
  spare : List ((Nat × Nat) × Nat)
  deriving DecidableEq, Repr

/-- A partition slot as the scriptorium sees it (R36, R42, R43). -/
structure Part where
  next : Word
  gen : Nat
  ldShard : BitVec 16
  ldDone : Bool
  ldStatus : BitVec 3
  load : Option Load
  loads : List (Nat × Nat)
  deriving DecidableEq, Repr

/-- A graph-registration block (R36). -/
structure GReg where
  done : Bool
  errg : Byte
  node : BitVec 16
  handle : Word
  pslot : BitVec 5
  deriving DecidableEq, Repr

/-- A page request of a function that has no answer yet, or still waits to be sent (R26, R160). -/
structure PageReq where
  fn : Nat
  die : Nat
  ctx : Nat
  page : Nat
  write : Bool
  sent : Bool
  deriving DecidableEq, Repr

structure HostIf where
  queues : Tbl Queue
  graphs : List Graph
  gregs : Tbl GReg
  parts : Tbl Part
  launches : Tbl Launch
  objects : List EmuObject
  pris : List PageReq
  deriving DecidableEq, Repr

/-! ## Start, flash and mailbox (R15 to R18, R38 to R40) -/

/-- An owner key slot (R38, R40). -/
inductive KeySlot where
  | empty
  | inUse (key : BitVec 256)
  | revoked (key : BitVec 256)
  deriving DecidableEq, Repr

structure Boot where
  stage : Nat
  failCode : Byte
  failDie : Nat
  columns : Nat
  tripped : Bool
  copyA : List Byte
  copyB : List Byte
  loaded : Option Bool
  minVersion : Nat
  keys : Tbl KeySlot
  ctr : BitVec 64
  retired : List Nat
  mbDone : Bool
  mbBusy : Bool
  merr : Byte
  echo : Byte
  mbArg : Tbl Word
  mbRes : Tbl Word
  deriving DecidableEq, Repr

/-! ## Links, firewalls, ports, partitions (R10 to R14, R20 to R25) -/

/-- A firewall register set (R22): a link, or the host-interface set 31 (R24). -/
structure Firewall where
  transit : Bool
  closed : Bool
  vcount : BitVec 16
  vclass : BitVec 2
  refused : Bool
  frozen : Bool
  log : Word
  latched : Nat
  before : Nat
  deriving DecidableEq, Repr

/-- What a group reads from another die in pieces of 64 bytes: the image of a TLD for a slot of a core, or the lines of a clause. -/
inductive ReadFor where
  | tile (g : GKey) (core : CoreKey) (slot : Nat)
  | clause (g : GKey)
  deriving DecidableEq, Repr

/-- What a flit carries over its links (R13): the request of a lane of an access, or its answer; a piece of at most 64 bytes that a copy
engine moves, with the command, its master and the hops it still has to make; a piece of a drain of an engine on its way to
its home; a piece of a read, out to its place and back; 64 bytes of a shard on their way to the reader as host transit, or broadcast from it to a
die (R22, R41); an event of the scheduler on another die; a request that came in through a fabric port, at the port, and on its way to the place that
the port's window gives it; and the answer to one (R12). -/
inductive Cargo where
  | request (access lane : Nat)
  | answer (access lane : Nat)
  | write (cmd : Nat) (g : GKey) (team ctx : Nat) (core : CoreKey) (runs : List Run) (data : List Byte) (rest : List Hop)
  | drain (core : CoreKey) (id ctx : Nat) (rest : List Hop)
  | read (what : ReadFor) (team ctx : Nat) (rest : List Hop)
  | inbound (port : Nat) (wr : Bool) (off width : Nat) (data : List Byte)
  | inside (port : Nat) (wr : Bool) (run : Run) (data : List Byte) (rest : List Hop)
  | outbound (port : Nat) (data : Option (List Byte)) (rest : List Hop)
  | transit (part index : Nat) (rest : List Hop)
  | shard (part index die : Nat) (rest : List Hop)
  | mgmt (due : Event) (rest : List Hop)
  deriving DecidableEq, Repr

/-- A flit on a link (R13); `old` says that it was accepted before the last FWCTL write (R23). -/
structure Flit where
  cls : FlitClass
  cargo : Cargo
  old : Bool
  deriving DecidableEq, Repr

structure Port where
  up : Bool
  ien : Bool
  oen : Bool
  win : BitVec 64
  lim : BitVec 64
  refused : BitVec 16
  deriving DecidableEq, Repr

/-- The links, ports and partitions; `sent` counts the flits that have set out into a link input for a class in a clk (R14). -/
structure Fabric where
  pslot : Tbl (BitVec 5)
  cslot : Tbl (BitVec 5)
  pdone : Bool
  pwhere : BitVec 5
  perr : Byte
  unjoined : Bool
  walls : Tbl Firewall
  flits : Tbl (List Flit)
  bufs : Tbl (List Flit)
  held : Tbl (List Flit)
  cut : List Flit
  sent : List ((Nat × FlitClass) × (Nat × Nat))
  raised : List (Nat × FlitClass)
  stops : List (Nat × FlitClass)
  ports : Tbl Port
  deriving DecidableEq, Repr

/-- What the host, or the far end of a fabric port, is sent (R12, R15, R18, R24, R33, R155, R160); MODEL: a record of outputs. -/
inductive Message where
  | msix (fn vec : Nat)
  | ats (die ctx page : Nat)
  | pri (die ctx page : Nat) (write : Bool)
  | thermalTrip (die : Nat)
  | violation (set : Nat)
  | margin (die : Nat)
  | fabric (port : Nat) (data : Option (List Byte))
  | atomicOld (fn bar off : Nat) (old : BitVec 64)
  | unhandled (g : GKey) (cause : Byte) (pc : Nat)
  | loaded (part ctx status : Nat)
  deriving DecidableEq, Repr

/-! ## The machine -/

/-- The whole machine. -/
structure State where
  clk : Nat
  agenda : List (Nat × Event)
  subject : Event
  issuer : GKey
  fresh : Nat
  freeCtr : Nat
  outbox : List Message
  boot : Boot
  fabric : Fabric
  host : HostIf
  ctxs : Tbl Ctx
  dies : Tbl Die
  cores : Tbl Core
  teams : Tbl Team
  clusters : Tbl Cluster
  groups : Tbl Group
  barriers : List (BarKey × Barrier)
  access : Tbl Access
  domains : List ((Nat × Nat) × Domain)
  tlb : List TlbEntry
  mem : List Host.Cell
  poison : List Place
  deriving DecidableEq, Repr

/-- Why the model stops where the spec does not. Both name states that no step leads to from reset. -/
inductive Fault where
  /-- Raised by every instruction when the slot that issues holds no group in a clause. SAFE: the spec has no issue
  without a group. -/
  | noIssuer
  /-- Raised by an event that is taken while the state's subject is an event of another kind. SAFE: `step` names the
  subject before it takes the event. -/
  | noSubject
  deriving DecidableEq, Repr

/-- Why the model has no meaning for a row. -/
inductive Refusal where
  /-- Raised by a row of the table that is not modelled, by name. SAFE: the run ends. -/
  | notModelled (mnemonic : String)
  deriving DecidableEq, Repr

/-! ## Reset -/

/-- A pen with no group (R135). -/
def Pen.reset : Pen := { holder := none, freeAt := 0, askedAt := 0, stalled := false, claims := [] }

/-- An array with no owner, idle for ever (R211, R212). -/
def Arr.reset : Arr :=
  { owner := none, acc := [], zeroUntil := 0, queue := [], drains := [], pair := none, lastUse := [], gated := [],
    busyUntil := 0, frozen := false }

/-- A core that holds nothing. -/
def Core.reset : Core :=
  { banks := [], draft := false, argBufs := [], pens := [], granted := [], lines := [], copy := [], beatClk := 0, beats := 0, arr := Arr.reset, tiles := [] }

/-- A slot that is FREE (R219). -/
def Tile.reset : Tile :=
  { state := .free, ring := false, ringEnd := false, readers := 0, owner := 0, bytes := [], freeing := false }

/-- A die that holds nothing, with MGATE 0x0040 (R212) and no running context (R44). -/
def Die.reset : Die :=
  { run := none, coming := none, nextDispatch := 0, slice := 0, switching := false, ranSince := 0, born := 0, mgate := 0x0040#16, saved := [],
    ranges := [], events := [], held := [], queues := [], feeders := [], gens := [], hfqb := 0#64, hfqpi := 0#32, hfqci := 0#32, hfaults := [], ntlb := [], regionA := [],
    regionB := [], folioBad := [], thermal := false, margin := 0#16, voltage := 0, corrected := 0 }

/-- The reset column of R45, R74, R144 and R209. -/
def Ctx.reset : Ctx :=
  { en := false, errc := 0#8, killing := false, pasid := 0#20, sdtb := 0#64, rbtb := 0#64, ptb := 0#64, s2tb := 0#64, lkb := 0#64,
    fqb := 0#64, fqpi := 0#32, fqci := 0#32, fqev := 0#16, resDone := false, resAct := 0, res := 0#2, tlbBusy := [], sched := 0x01100100#32,
    schedNow := 0x01100100#32, lq := 0x040#32, lqNow := 0x040#32, evtb := 0#64, saveb := 0#64, qsave := 0#64, qcfg := [],
    tq := 0x4000#16, tqNow := 0x4000#16, tspill := 0#64, clev := 3#8, faults := [], ran := 0 }

def QDesc.reset : QDesc :=
  { pasid := 0, ctx := 0, prio := 0, stat := 0, argBase := 0, slotSz := 0, slots := 0, vec := 0 }

/-- The reset column of R30 and the status words at 0 (R33). -/
def Queue.reset : Queue :=
  { qda := 0#64, errc := 0#8, en := false, draining := false, pslot := 0#5, fn := 0, desc := QDesc.reset, done := 0#32,
    taken := 0#16, err := 0#8, ovf := false, errseq := 0#32, seq := 0#32, held := [], retired := [], statusDue := false, irqs := 0 }

/-- The reset column of R36. -/
def GReg.reset : GReg := { done := false, errg := 0#8, node := 0#16, handle := 0#32, pslot := 0#5 }

/-- Nothing loaded; the first handle is 1 (log 7). -/
def Part.reset : Part :=
  { next := 1#32, gen := 0, ldShard := 0#16, ldDone := false, ldStatus := 0#3, load := none, loads := [] }

/-- The reset column of R22. -/
def Firewall.reset : Firewall :=
  { transit := true, closed := false, vcount := 0#16, vclass := 0#2, refused := false, frozen := false, log := 0#32, latched := 0, before := 0 }

/-- The reset column of R12. -/
def Port.reset : Port := { up := false, ien := false, oen := false, win := 0#64, lim := 0#64, refused := 0#16 }

/-- Before power-on (R16; log 4, log 6). -/
def Boot.reset : Boot :=
  { stage := 0, failCode := 0#8, failDie := 0, columns := 0, tripped := false, copyA := [], copyB := [], loaded := none,
    minVersion := 0, keys := [], ctr := 0#64, retired := [], mbDone := false, mbBusy := false, merr := 0#8, echo := 0#8,
    mbArg := [], mbRes := [] }

/-- Every die in slot 1 (R20, R21), every firewall open, every port down. -/
def Fabric.reset : Fabric :=
  { pslot := [], cslot := [], pdone := false, pwhere := 0#5, perr := 0#8, unjoined := false, walls := [], flits := [], bufs := [], held := [], cut := [], sent := [], raised := [], stops := [], ports := [] }

def HostIf.reset : HostIf := { queues := [], graphs := [], gregs := [], parts := [], launches := [], objects := [], pris := [] }

/-- A barrier in its first phase (R112). -/
def Barrier.reset : Barrier := { phase := 0, arrived := [], e := 0#32, b := 0#32, late := [] }

/-- The machine before power-on: nothing runs, nothing is listed, and power comes on first (R16). -/
def State.reset : State :=
  { clk := 0, agenda := [(0, .powerOn)], subject := .powerOn, issuer := ⟨0, 0, 0⟩, fresh := 1, freeCtr := 0, outbox := [],
    boot := Boot.reset, fabric := Fabric.reset, host := HostIf.reset, ctxs := [], dies := [], cores := [], teams := [], clusters := [],
    groups := [], barriers := [], access := [], domains := [], tlb := [], mem := [], poison := [] }

end Sys2Proof.Machine
end

