-- ==== Sys2Proof/Machine/Ops.lean ====
section
/-! DEFINITION. The named operations over the state: tables, memory and places, the agenda and the free values, the ends of
an instruction, barriers, taking an exception and returning from one (R257, R269, R334). -/

namespace Sys2Proof.Machine

/-! ## Tables -/

/-- The entry of number `k`. -/
def Tbl.find {α : Type} : Tbl α → Nat → Option α
  | [], _ => none
  | (j, v) :: r, k => if j = k then some v else Tbl.find r k

/-- The entry of number `k`, or what an unlisted number reads as. -/
def Tbl.get {α : Type} (t : Tbl α) (d : α) (k : Nat) : α := (Tbl.find t k).getD d

/-- Insert or replace the entry of number `k`. -/
def Tbl.put {α : Type} : Tbl α → Nat → α → Tbl α
  | [], k, v => [(k, v)]
  | (j, w) :: r, k, v => if k < j then (k, v) :: (j, w) :: r else if k = j then (k, v) :: r else (j, w) :: Tbl.put r k v

/-- Remove the entry of number `k`. -/
def Tbl.del {α : Type} : Tbl α → Nat → Tbl α
  | [], _ => []
  | (j, w) :: r, k => if j = k then r else (j, w) :: Tbl.del r k

/-- The value a key is paired with. -/
def assocGet {κ α : Type} [DecidableEq κ] : List (κ × α) → κ → Option α
  | [], _ => none
  | (j, v) :: r, k => if j = k then some v else assocGet r k

/-- Pair a key with a value, in place of what it was paired with. -/
def assocPut {κ α : Type} [DecidableEq κ] : List (κ × α) → κ → α → List (κ × α)
  | [], k, v => [(k, v)]
  | (j, w) :: r, k, v => if j = k then (k, v) :: r else (j, w) :: assocPut r k v

def assocDel {κ α : Type} [DecidableEq κ] (l : List (κ × α)) (k : κ) : List (κ × α) := l.filter fun e => e.1 ≠ k

/-! ## Updates of one field -/

def State.setClk (s : State) (x : Nat) : State := { s with clk := x }
def State.setAgenda (s : State) (x : List (Nat × Event)) : State := { s with agenda := x }
def State.setSubject (s : State) (x : Event) : State := { s with subject := x }
def State.setIssuer (s : State) (x : GKey) : State := { s with issuer := x }
def State.setFresh (s : State) (x : Nat) : State := { s with fresh := x }
def State.setFreeCtr (s : State) (x : Nat) : State := { s with freeCtr := x }
def State.setOutbox (s : State) (x : List Message) : State := { s with outbox := x }
def State.setBoot (s : State) (x : Boot) : State := { s with boot := x }
def State.setFabric (s : State) (x : Fabric) : State := { s with fabric := x }
def State.setHost (s : State) (x : HostIf) : State := { s with host := x }
def State.setCtxs (s : State) (x : Tbl Ctx) : State := { s with ctxs := x }
def State.setDies (s : State) (x : Tbl Die) : State := { s with dies := x }
def State.setCores (s : State) (x : Tbl Core) : State := { s with cores := x }
def State.setTeams (s : State) (x : Tbl Team) : State := { s with teams := x }
def State.setClusters (s : State) (x : Tbl Cluster) : State := { s with clusters := x }
def State.setGroups (s : State) (x : Tbl Group) : State := { s with groups := x }
def State.setBarriers (s : State) (x : List (BarKey × Barrier)) : State := { s with barriers := x }
def State.setAccess (s : State) (x : Tbl Access) : State := { s with access := x }
def State.setDomains (s : State) (x : List ((Nat × Nat) × Domain)) : State := { s with domains := x }
def State.setTlb (s : State) (x : List TlbEntry) : State := { s with tlb := x }
def State.setMem (s : State) (x : List Host.Cell) : State := { s with mem := x }
def State.setPoison (s : State) (x : List Place) : State := { s with poison := x }

/-! ## Memory

A byte lies at a place; memory is kept sorted by the places' numbers and lists no 0, which is what an unlisted byte reads as
(log 13). -/

/-- The number of a place: no two places share one while dies, cores, buffers, ports and PASIDs are below 2^30. -/
def Place.key : Place → Nat
  | .hbm d o => (o * 1073741824 + d) * 8
  | .scr d c o => (o * 1073741824 + (d * 16 + c)) * 8 + 1
  | .folio d o => (o * 1073741824 + d) * 8 + 2
  | .arg d c b o => (o * 1073741824 + ((d * 16 + c) * 32 + b)) * 8 + 3
  | .queueStore d o => (o * 1073741824 + d) * 8 + 4
  | .host p a => (a * 1073741824 + p) * 8 + 5
  | .reg f o => (o * 1073741824 + f) * 8 + 6
  | .far p o => (o * 1073741824 + p) * 8 + 7

/-- The place `i` bytes on. -/
def Place.shift (p : Place) (i : Nat) : Place :=
  match p with
  | .hbm d o => .hbm d (o + i)
  | .scr d c o => .scr d c (o + i)
  | .folio d o => .folio d (o + i)
  | .arg d c b o => .arg d c b (o + i)
  | .queueStore d o => .queueStore d (o + i)
  | .host p a => .host p ((a + i) % 2 ^ 64)
  | .reg f o => .reg f (o + i)
  | .far p o => .far p (o + i)

/-- The place rounded down to a multiple of 64 (R78, R81, R168). -/
def Place.grain (p : Place) : Place :=
  match p with
  | .hbm d o => .hbm d (o / 64 * 64)
  | .scr d c o => .scr d c (o / 64 * 64)
  | .folio d o => .folio d (o / 64 * 64)
  | .arg d c b o => .arg d c b (o / 64 * 64)
  | .queueStore d o => .queueStore d (o / 64 * 64)
  | .host p a => .host p (a / 64 * 64)
  | .reg f o => .reg f (o / 64 * 64)
  | .far p o => .far p (o / 64 * 64)

/-- How far a place lies into its grain. -/
def Place.inGrain (p : Place) : Nat :=
  match p with
  | .hbm _ o => o % 64
  | .scr _ _ o => o % 64
  | .folio _ o => o % 64
  | .arg _ _ _ o => o % 64
  | .queueStore _ o => o % 64
  | .host _ a => a % 64
  | .reg _ o => o % 64
  | .far _ o => o % 64

/-- The byte numbered `k`: 0 where none is listed (log 13). -/
def memGet (m : List Host.Cell) (k : Nat) : Byte := Tbl.get m 0#8 k

/-- Write a byte, in canonical form: a 0 is not listed. -/
def memPut (m : List Host.Cell) (k : Nat) (b : Byte) : List Host.Cell :=
  if b = 0#8 then Tbl.del m k else Tbl.put m k b

/-- The keys rise strictly. -/
def Tbl.sorted {α : Type} : Tbl α → Bool
  | [] => true
  | [_] => true
  | (j, _) :: (k, w) :: r => decide (j < k) && Tbl.sorted ((k, w) :: r)

/-- The canonical form of memory: addresses rise, and no entry is what an unlisted address reads as. -/
def Memory.wf (m : List Host.Cell) : Bool := Tbl.sorted m && m.all fun e => e.2 != 0#8

def State.readByte (s : State) (p : Place) : Byte := memGet s.mem p.key

def State.writeByte (s : State) (p : Place) (b : Byte) : State := s.setMem (memPut s.mem p.key b)

/-- `n` bytes from a place on. -/
def State.readBytes (s : State) (p : Place) (n : Nat) : List Byte := (List.range n).map fun i => s.readByte (p.shift i)

/-- Write bytes from a place on. -/
def State.writeBytes (s : State) (p : Place) : List Byte → State
  | [] => s
  | b :: r => State.writeBytes (s.writeByte p b) (p.shift 1) r

/-- Little-endian (R198): the number of bytes, lowest first. -/
def leNat : List Byte → Nat
  | [] => 0
  | b :: r => b.toNat + 256 * leNat r

/-- `n` little-endian bytes of a number. -/
def leBytes : Nat → Nat → List Byte
  | 0, _ => []
  | n + 1, v => BitVec.ofNat 8 v :: leBytes n (v / 256)

/-- The bytes of runs, in order. -/
def State.readRuns (s : State) (rs : List Run) : List Byte := rs.flatMap fun r => s.readBytes r.place r.len

/-- Write bytes over runs, in order. -/
def State.writeRuns (s : State) : List Run → List Byte → State
  | [], _ => s
  | r :: rest, bs => State.writeRuns (s.writeBytes r.place (bs.take r.len)) rest (bs.drop r.len)

/-! ## Groups, cores, dies, contexts, teams -/

def keyNum (k : GKey) : Nat := (k.die * 16 + k.core) * 512 + k.slot
/-- The number a saved group stands under in its team and its barriers while it has no slot: no slot of a core has it; MODEL. -/
def savedSlot (id : Nat) : Nat := 1000000000 + id

/-- The pen of a slot (R50). -/
def penOf (k : GKey) : PenKey := ⟨k.die, k.core, k.slot / 4⟩
def coreNum (die core : Nat) : Nat := die * 16 + core

def State.group? (s : State) (k : GKey) : Option Group := s.groups.find (keyNum k)
def State.putGroup (s : State) (k : GKey) (g : Group) : State := s.setGroups (s.groups.put (keyNum k) g)
def State.dropGroup (s : State) (k : GKey) : State := s.setGroups (s.groups.del (keyNum k))
/-- Change a group that is there. -/
def State.updGroup (s : State) (k : GKey) (f : Group → Group) : State :=
  match s.group? k with
  | some g => s.putGroup k (f g)
  | none => s
/-- The key of a numbered group. -/
def keyOfNum (n : Nat) : GKey := ⟨n / 512 / 16, n / 512 % 16, n % 512⟩

def State.core (s : State) (die core : Nat) : Core := s.cores.get Core.reset (coreNum die core)
def State.putCore (s : State) (die core : Nat) (c : Core) : State := s.setCores (s.cores.put (coreNum die core) c)
def State.updCore (s : State) (die core : Nat) (f : Core → Core) : State := s.putCore die core (f (s.core die core))
def State.die (s : State) (d : Nat) : Die := s.dies.get Die.reset d
def State.putDie (s : State) (d : Nat) (x : Die) : State := s.setDies (s.dies.put d x)
def State.updDie (s : State) (d : Nat) (f : Die → Die) : State := s.putDie d (f (s.die d))
def State.ctx (s : State) (d c : Nat) : Ctx := s.ctxs.get Ctx.reset (d * 16 + c)
def State.putCtx (s : State) (d c : Nat) (x : Ctx) : State := s.setCtxs (s.ctxs.put (d * 16 + c) x)
def State.updCtx (s : State) (d c : Nat) (f : Ctx → Ctx) : State := s.putCtx d c (f (s.ctx d c))
def State.team? (s : State) (t : Nat) : Option Team := s.teams.find t
def State.putTeam (s : State) (t : Nat) (x : Team) : State := s.setTeams (s.teams.put t x)
def State.updTeam (s : State) (t : Nat) (f : Team → Team) : State :=
  match s.team? t with
  | some x => s.putTeam t (f x)
  | none => s
def State.pen (s : State) (p : PenKey) : Pen := (s.core p.die p.core).pens.get Pen.reset p.pen
def State.putPen (s : State) (p : PenKey) (x : Pen) : State :=
  s.updCore p.die p.core fun c => { c with pens := c.pens.put p.pen x }
/-- Change a group that flashback has saved. -/
def State.updSaved (s : State) (k : GKey) (f : Group → Group) : State :=
  s.updDie k.die fun d => { d with saved := d.saved.map fun x => if savedSlot x.id = k.slot then { x with group := f x.group } else x }
/-- A group by its key, whether it has a slot or flashback has saved it. -/
def State.anyGroup (s : State) (k : GKey) : Option Group :=
  match s.group? k with
  | some g => some g
  | none => ((s.die k.die).saved.find? fun x => savedSlot x.id = k.slot).map (·.group)
/-- Put back a group that has a slot or is saved. -/
def State.putAny (s : State) (k : GKey) (g : Group) : State :=
  if (s.group? k).isSome then s.putGroup k g else s.updSaved k fun _ => g
/-- The context of a team. -/
def State.ctxOf (s : State) (t : Nat) : Nat := ((s.team? t).map (·.ctx)).getD 0
/-- The slot in force of a die: 1 for a die that is not listed (R20, R21). -/
def State.slotOf (s : State) (d : Nat) : Nat := (s.fabric.cslot.get 1#5 d).toNat
/-- The dies of a partition slot, in ascending number. -/
def State.diesOf (s : State) (part : Nat) : List Nat := (List.range Config.dies).filter fun d => s.slotOf d = part
/-- The lowest-numbered die of a partition. -/
def State.homeDie (s : State) (part : Nat) : Nat := (s.diesOf part).headD 0
/-- The compatibility level of a group's context (R209). -/
def State.level (s : State) (k : GKey) (g : Group) : Nat := ((s.ctx k.die (s.ctxOf g.team)).clev).toNat % 4

/-! ## Time -/

/-- Insert an event behind those due no later. -/
def insertDue (due : Nat) (e : Event) : List (Nat × Event) → List (Nat × Event)
  | [] => [(due, e)]
  | (d, x) :: r => if d ≤ due then (d, x) :: insertDue due e r else (due, e) :: (d, x) :: r

/-- Put an event on the agenda. -/
def State.post (s : State) (due : Nat) (e : Event) : State := s.setAgenda (insertDue due e s.agenda)

/-- Put an event on the agenda after an unloaded latency and a free delay (R299, log 2). -/
def State.after (s : State) (base : Nat) (e : Event) : State :=
  (s.setFreeCtr (s.freeCtr + 1)).post (s.clk + base + Config.delay s.freeCtr) e

/-- Put an event on the agenda after an unloaded latency and a free delay, fewer than `limit` clk from now in all (log 2). -/
def State.within (s : State) (base limit : Nat) (e : Event) : State :=
  (s.setFreeCtr (s.freeCtr + 1)).post (s.clk + base + Config.delay s.freeCtr % (limit - base)) e

/-- A new identity (log 1). -/
def State.newId (s : State) : Nat × State := (s.fresh, s.setFresh (s.fresh + 1))

/-- Send the host a message (log 3). -/
def State.send (s : State) (m : Message) : State := s.setOutbox (s.outbox ++ [m])

/-- The pen is busy for `occ` clk, 1 at least (R51, R129). -/
def State.busy (s : State) (k : GKey) (occ : Nat) : State :=
  s.putPen (penOf k) { s.pen (penOf k) with freeAt := s.clk + max 1 occ, askedAt := s.clk + max 1 occ, stalled := false }

/-! ## The well (R122 to R125) -/

/-- The dirty entries of a bank. -/
def dirtyInBank (w : Tbl WellEntry) (b : Nat) : Nat := (w.filter fun e => e.2.dirty && e.1 % 4 == b).length

/-- b of R125: the largest number of dirty entries in one bank. -/
def dirtyMax (w : Tbl WellEntry) : Nat := (List.range 4).foldl (fun m b => max m (dirtyInBank w b)) 0

/-- A vector with the lanes of `mask` taken from `v`. -/
def mergeLanes (mask : Word) (v old : Lanes) : Lanes := Lanes.ofFn fun l => if mask.getLsbD l then v.at l else old.at l

def zeroLanes : Lanes := Lanes.ofFn fun _ => 0#32

/-- A write-back: the valid lanes of an entry go to the reservoir (R124). -/
def writeBack (regs : Tbl Lanes) (e : WellEntry) : Tbl Lanes :=
  if e.dirty then regs.put e.reg (mergeLanes e.valid e.vals (regs.get zeroLanes e.reg)) else regs

/-- Write back every dirty entry and empty the well; the clk it takes (R125). -/
def Group.flushWell (g : Group) : Group × Nat :=
  ({ g with regs := g.well.foldl (fun r e => writeBack r e.2) g.regs, well := [] }, 32 * dirtyMax g.well)

/-! ## The ends of an instruction -/

/-- The offset of the next clause in address order (R252). -/
def Clause.next (c : Clause) : BitVec 48 := c.ofs + BitVec.ofNat 48 (4 * (1 + headerBody c.hdr))

/-- The words of the instruction at a position: the first, and the second where LEN marks it. -/
def Clause.wordsAt (c : Clause) (p : Nat) : Word × Option Word :=
  let i := wordIndex c.hdr p
  (c.words.getD i 0#32, if headerLen c.hdr p then some (c.words.getD (i + 1) 0#32) else none)

/-- The offset of the instruction at a position. -/
def Clause.ofsAt (c : Clause) (p : Nat) : BitVec 48 := c.ofs + BitVec.ofNat 48 (4 * (1 + wordIndex c.hdr p))

/-- The group after the instruction at its position: the nibs move (R119), and after the last position the clause ends and
the nibs with it (R121). -/
def Group.stepped (g : Group) (c : Clause) (nib : Option Lanes) : Group :=
  if headerCnt c.hdr ≤ g.pos + 1 then
    { g with clause := none, pos := 0, pc := c.next, n0 := none, n1 := none, half := .fresh, acted := 0#32 }
  else { g with pos := g.pos + 1, n1 := g.n0, n0 := nib, half := .fresh, acted := 0#32 }

/-- The instruction is done: the group goes on, its pen busy for `occ` clk. -/
def State.advance (s : State) (k : GKey) (g : Group) (c : Clause) (occ : Nat) (nib : Option Lanes) : State :=
  (s.putGroup k (g.stepped c nib)).busy k occ

/-- The instruction waits and holds the pen (R325): it comes again in the next clk, with the grant it has had (R51). -/
def State.hold (s : State) (k : GKey) (g : Group) : State :=
  (s.putGroup k g).putPen (penOf k) { s.pen (penOf k) with freeAt := s.clk + 1, stalled := true }

/-- A control transfer (R103). -/
def State.jump (s : State) (k : GKey) (g : Group) (target : BitVec 48) (occ : Nat) : State :=
  (s.putGroup k { g with clause := none, pos := 0, pc := target, n0 := none, n1 := none, half := .fresh }).busy k occ

/-- The group leaves its pen with its well written back (R125), in the given state. -/
def State.leavePen (s : State) (k : GKey) (g : Group) (r : RunState) : State :=
  let (g', t) := g.flushWell
  let p := s.pen (penOf k)
  let s := s.putGroup k { g' with run := r }
  if p.holder = some k.slot then
    s.putPen (penOf k) { p with holder := none, freeAt := s.clk + max 1 t, askedAt := s.clk + max 1 t, stalled := false }
  else s

/-- The group is descheduled into a wait (R325); its instruction comes again when the wait has ended. -/
def State.desched (s : State) (k : GKey) (g : Group) (w : Wait) : State := s.leavePen k g (.waiting w)

/-- The group becomes ready (R52). -/
def State.makeReady (s : State) (k : GKey) (at_ : Nat) : State :=
  s.updGroup k fun g => { g with run := .ready, readyAt := at_ }

/-- Run the meaning of an instruction for the group that issues. -/
def State.withIssuer (s : State) (f : GKey → Group → Clause → State) : Host.Outcome State Fault Refusal :=
  match s.group? s.issuer with
  | none => .fault .noIssuer
  | some g =>
    match g.clause with
    | none => .fault .noIssuer
    | some c => .next (f s.issuer g c)

/-- Field P of the instruction a group stands at (format K, R258; log 17). -/
def Group.fieldP (g : Group) (c : Clause) : BitVec 24 := (unpackK (c.wordsAt g.pos).1).p

/-! ## Where a team's on-chip memory lies (R163, R164, R399) -/

/-- The place of offset `o` in a list of banks of a core (R163). -/
def bankPlace (die core : Nat) (banks : List Nat) (o : Nat) : Option Place :=
  let n := banks.length
  if n = 0 then none
  else
    let i := o / 8 % n
    let j := o / 8 / n
    if j < 512 then some (.scr die core (banks.getD i 0 * 4096 + j * 8 + o % 8)) else none

/-- The place of offset `o` of a team's scratchpad segment g13. -/
def Team.scratch (t : Team) (o : Nat) : Option Place := bankPlace t.die t.core t.banks o

/-- LIMIT of g13: 4096·n (R163). -/
def Team.scratchLimit (t : Team) : Nat := 4096 * t.banks.length

/-- Write bytes at offsets of a team's scratchpad, byte by byte. -/
def State.writeScratch (s : State) (t : Team) (o : Nat) : List Byte → State
  | [] => s
  | b :: r => State.writeScratch (match t.scratch o with | some p => s.writeByte p b | none => s) t (o + 1) r

def State.readScratch (s : State) (t : Team) (o n : Nat) : List Byte :=
  (List.range n).map fun i => match t.scratch (o + i) with | some p => s.readByte p | none => 0#8

/-! ## Barriers (R112 to R116) -/

def State.barrier (s : State) (b : BarKey) : Barrier := (assocGet s.barriers b).getD Barrier.reset
def State.putBarrier (s : State) (b : BarKey) (x : Barrier) : State := s.setBarriers (assocPut s.barriers b x)

/-- The groups of a team that are present. -/
def Team.keys (t : Team) : List GKey := t.groups.map fun e => ⟨t.die, t.core, e.2⟩

/-- The present members of a barrier (R112, R115, R116). -/
def State.members (s : State) (b : BarKey) : List GKey :=
  match b with
  | .team t _ => ((s.team? t).map Team.keys).getD []
  | .cluster c _ => (((s.clusters.find c).map (·.members)).getD []).flatMap fun t => ((s.team? t).map Team.keys).getD []
  | .grid l n _ => s.teams.flatMap fun e => if e.2.launch = l ∧ e.2.node = n then e.2.keys else []

/-- Whether teams of a grid are yet to be placed: their groups are members that have not arrived (R116). -/
def State.unplaced (s : State) (l n : Nat) : Bool :=
  (List.range Config.dies).any fun d => (s.die d).ranges.any fun r => r.launch = l ∧ r.node = n

/-- How soon a barrier's members are ready, and the scope code of its barrier (R113, R112). -/
def barWake : BarKey → Nat
  | .team _ _ => 8
  | .cluster _ _ => 32
  | .grid _ _ _ => 512
def barScope : BarKey → Nat
  | .team _ _ => 2
  | .cluster _ _ => 3
  | .grid _ _ _ => 5

/-- Whether the phase of a barrier is complete: every present member has arrived, and B ≥ E (R113). -/
def State.phaseDone (s : State) (b : BarKey) : Bool :=
  let x := s.barrier b
  let ms := s.members b
  let all := match b with
    | .grid l n _ => !s.unplaced l n
    | _ => true
  all && !ms.isEmpty && ms.all (fun k => x.arrived.contains k) && BitVec.ule x.e x.b

/-- Complete a phase that is complete, and make its waiting members ready (R113). -/
def State.tryPhase (s : State) (b : BarKey) : State :=
  if s.phaseDone b then
    let x := s.barrier b
    let s1 := s.putBarrier b { phase := x.phase + 1, arrived := [], e := 0#32, b := 0#32,
                               late := if BitVec.ult x.e x.b then x.phase :: x.late else x.late }
    (s.members b).foldl (fun t k =>
      match t.group? k with
      | some g => if g.run = .waiting (.barrier b x.phase) then t.makeReady k (t.clk + barWake b) else t
      | none => t) s1
  else s

/-- A group leaves every barrier; its arrivals are withdrawn, and a phase that is now complete completes (R115). -/
def State.leaveBarriers (s : State) (k : GKey) (g : Group) : State :=
  let keys := s.barriers.map (·.1)
  let s := s.setBarriers (s.barriers.map fun e => (e.1, { e.2 with arrived := e.2.arrived.filter (· ≠ k) }))
  let mine (b : BarKey) : Bool := match b with
    | .team t _ => t == g.team
    | .cluster c _ => ((s.clusters.find c).map (fun x => x.members.contains g.team)).getD false
    | .grid l n _ => ((s.team? g.team).map (fun t => t.launch == l && t.node == n)).getD false
  keys.foldl (fun t b => if mine b then t.tryPhase b else t) s

/-- The barrier a BSEL names for a team (R263, R112); none for "no barrier". -/
def Team.barrier (t : Team) (id : Nat) (bsel : BitVec 6) : Option BarKey :=
  match (bsel.extractLsb' 4 2).toNat with
  | 1 => some (.team id ((bsel.extractLsb' 0 4).toNat))
  | 2 => some (.cluster t.cluster ((bsel.extractLsb' 0 3).toNat))
  | 3 => some (.grid t.launch t.node ((bsel.extractLsb' 0 2).toNat))
  | _ => none

/-! ## A group's end (R109, R115, R139) -/

/-- An event that a group waited for is looked at, since the group waits no more: its record is freed (R58). -/
def State.forgetWait (s : State) (t : Team) (g : Group) : State :=
  match g.run with
  | .waiting (.event name _) => s.post s.clk (.faultRetry (.event t.part t.ctx name))
  | _ => s

/-- The last group of the context that leaves a die may have gone: the context that was chosen starts in the next clk (R64 step 5). -/
def State.dieClears (s : State) (die : Nat) : State :=
  let d := s.die die
  match d.run with
  | some ctx =>
    if d.switching && !(s.groups.any fun e => (keyOfNum e.1).die == die && s.ctxOf e.2.team == ctx) then
      s.post (s.clk + 1) (.contextStart die (d.coming.getD ctx)) else s
  | none => s

/-- A group exits: its registers, its slot and its place in every barrier are gone, its team loses a member and keeps what
the side log still holds, and the claims waiting on its pen, and the clusters waiting for registers, are looked at (R48, R139). -/
def State.exitGroup (s : State) (k : GKey) (g : Group) : State :=
  let p := s.pen (penOf k)
  let s := s.putPen (penOf k) { p with holder := (if p.holder = some k.slot then none else p.holder),
                                         stalled := p.stalled && p.holder != some k.slot, claims := p.claims.filter fun e => e.1 ≠ k.slot }
  let s := s.updTeam g.team fun t =>
    { t with groups := t.groups.filter fun e => e.2 ≠ k.slot, logs := t.logs ++ g.log.map fun e => (k, e) }
  let s := (s.dropGroup k).dieClears k.die
  let s := s.leaveBarriers k g
  let s := s.post s.clk (.claimGrant (penOf k))
  match s.team? g.team with
  | some t =>
    let s := s.forgetWait t g
    let s := s.post s.clk (.clusterPlace k.die t.launch t.node)
    if t.groups.isEmpty then s.post s.clk (.teamRetire g.team) else s
  | none => s

/-- A domain's launch node fails (R90, R145). -/
def State.failDomain (s : State) (part ctx : Nat) : State :=
  match assocGet s.domains (part, ctx) with
  | some d => s.setDomains (assocPut s.domains (part, ctx) { d with failed := true })
  | none => s

/-- What a promoted task had drafted and not drained when it was killed: its writes remain (R90), and reach memory with the commit that it counts
as. -/
def State.keepDraft (s : State) (part ctx die : Nat) (t : Task) : State :=
  match assocGet s.domains (part, ctx) with
  | some d =>
    if t.spec || t.draft.isEmpty then s
    else s.setDomains (assocPut s.domains (part, ctx) { d with onDie := d.onDie.map fun e =>
      if e.1 = die then (e.1, { e.2 with remains := e.2.remains ++ t.draft }) else e })
  | none => s

/-- A group is killed: it exits, what its side log holds is dropped, and its team counts as failed (R56, R257). A killed task that is not speculative counts as
committed, and its node fails (R90). -/
def State.killGroup (s : State) (k : GKey) (g : Group) : State :=
  let s := s.updTeam g.team fun t => { t with failed := true }
  let s := match g.task, s.team? g.team with
    | some x, some t => ((s.keepDraft t.part t.ctx k.die x).failDomain t.part t.ctx).post s.clk (.taskCommit t.part t.ctx k.die)
    | _, _ => s
  s.exitGroup k { g with log := [] }

/-! ## Taking an exception (R257, R268, R269) -/

/-- EC of a cause (R268). -/
def Cause.ec : Cause → Nat
  | .illOpc => 0x01
  | .illField => 0x02
  | .illHdr => 0x03
  | .illClass => 0x04
  | .illOperand => 0x05
  | .deadRead => 0x06
  | .indexBound => 0x07
  | .priv => 0x08
  | .segLimit => 0x10
  | .segRights => 0x11
  | .segStale => 0x12
  | .segNull => 0x13
  | .link => 0x14
  | .rubricKind => 0x15
  | .pageLoad => 0x20
  | .pageFetch => 0x21
  | .perm => 0x22
  | .atomicPath => 0x23
  | .align => 0x24
  | .accWindow => 0x30
  | .slotState => 0x31
  | .pair => 0x32
  | .budget => 0x40
  | .regDeadlock => 0x41
  | .barrier => 0x42
  | .trapi => 0x50
  | .brk => 0x51
  | .eccUncorr => 0x60
  | .frozen => 0x70

/-- A cause with an auxiliary word and no address. -/
def trapOf (c : Cause) (aux : Word) : Trap := { cause := c, aux := aux, ofs := 0, sel := 0, lin := 0 }

/-- The segment register `n` of a group. -/
def Group.segReg (g : Group) (n : Nat) : SegReg := g.seg.get SegReg.null n

/-- TS as the CSR reads: the key of the group's task, 0 without one (R85). -/
def Group.tsReg (g : Group) : Nat :=
  match g.task with
  | some t => t.key.ts.toNat * 65536 + t.key.tb.toNat
  | none => 0

/-- A nib as the trap frame shows it: 0 in every lane when it is void (R119, R121). -/
def nibBytes (n : Option Lanes) : List Byte :=
  let v := n.getD zeroLanes
  (List.range 32).flatMap fun l => leBytes 4 (v.at l).toNat

/-- The trap frame of R269, +0x00 to +0x37 and then +0x100 to +0x1ff. -/
def frameHead (g : Group) (t : Trap) (pos : Nat) (kind : ResumeKind) (dfr : Bool) : List Byte :=
  let c := g.clause
  let hdrOfs := (c.map (·.ofs)).getD g.pc
  let onHeader := pos = 15
  let pc := if onHeader then hdrOfs else (c.map (·.ofsAt pos)).getD g.pc
  let ws := (c.map (·.wordsAt pos)).getD (0#32, none)
  let len2 := !onHeader && ws.2.isSome
  let dec := match kind with
    | .decode => true
    | .word => true
    | _ => false
  let flags := t.cause.ec + pos * 256 + (if len2 then 4096 else 0) + (if dec then 8192 else 0)
    + (if dfr then 16384 else 0) + (if (g.segReg 15).s then 32768 else 0)
  leBytes 6 pc.toNat ++ leBytes 2 (g.segReg 15).sel.toNat ++ leBytes 4 flags
    ++ leBytes 4 (if onHeader then 0 else ws.1.toNat)
    ++ leBytes 4 (if len2 then (ws.2.getD 0#32).toNat else 0)
    ++ leBytes 4 ((c.map (·.hdr)).getD 0#32).toNat
    ++ leBytes 4 g.exec.toNat ++ leBytes 4 g.hand.toNat
    ++ leBytes 6 t.ofs ++ [0#8, 0#8] ++ leBytes 2 t.sel ++ [0#8, 0#8] ++ leBytes 4 t.aux.toNat
    ++ leBytes 8 g.tsReg

/-- Whether a precise cause finds no handler: none is set, the group is in its handler, or the frame falls outside g13
(R257, R334). -/
def Group.noHandler (g : Group) (t : Team) : Bool :=
  g.trapv == 0xffffffff#32 || g.handler.isSome || decide (t.scratchLimit < g.tframe.toNat + 512)

/-- Take a precise exception: the frame is written, handler mode begins with the place to resume recorded, and PC is TRAPV.
The group keeps its pen; the well is written back (R125) and the frame takes 64 clk. Without a handler the group is killed. -/
def State.trapEnter (s : State) (k : GKey) (g : Group) (t : Trap) (pos : Nat) (kind : ResumeKind) (dfr : Bool) : State :=
  match s.team? g.team with
  | none => s.killGroup k g
  | some tm =>
    if g.noHandler tm then s.killGroup k g
    else
      let (g1, wb) := g.flushWell
      let s := s.writeScratch tm g.tframe.toNat (frameHead g t pos kind dfr)
      let s := s.writeScratch tm (g.tframe.toNat + 0x100) (nibBytes g.n0 ++ nibBytes g.n1)
      let h : Handler := { sel := (g.segReg 15).sel, ofs := (g.clause.map (·.ofs)).getD g.pc, pos := pos, clause := g.clause,
                           kind := kind, sup := (g.segReg 15).s, half := g.half, cause := t.cause,
                           frame := g.tframe, found := none }
      let g2 := { g1 with handler := some h, pc := BitVec.ofNat 48 g.trapv.toNat, clause := none, pos := 0, n0 := none,
                          n1 := none, half := .fresh, acted := 0#32 }
      (s.putGroup k g2).busy k (wb + 64)

/-- The lanes read back from a frame. -/
def lanesOfBytes (bs : List Byte) : Lanes := Lanes.ofFn fun l => BitVec.ofNat 32 (leNat ((bs.drop (4 * l)).take 4))

/-- Return from an exception (R257, R334, R121): the nibs come from the frame that the entry wrote, handler mode ends, the privilege recorded at
entry is in force again, and the group resumes where the record says. `seg` is g15 as R334 step 3 gives it. -/
def State.trapReturn (s : State) (k : GKey) (g : Group) (h : Handler) (tm : Team) (seg : SegReg) (skip : Bool) : State :=
  let (g1, wb) := g.flushWell
  let nibs := s.readScratch tm (h.frame.toNat + 0x100) 256
  let g2 := { g1 with handler := none, exec := h.found.getD g1.exec, seg := g1.seg.put 15 { seg with s := h.sup }, n0 := none, n1 := none,
                      half := if skip then .fresh else h.half }
  let bound (pc : BitVec 48) : Group := { g2 with clause := none, pos := 0, pc := pc }
  let nextOf : BitVec 48 := match h.clause with
    | some c => c.next
    | none => h.ofs + 4
  let g3 : Group := match h.kind with
    | .instr =>
      let p := if skip then h.pos + 1 else h.pos
      match h.clause with
      | some c =>
        if headerCnt c.hdr ≤ p then bound c.next
        else { g2 with clause := some c, pos := p, pc := c.ofs, n0 := some (lanesOfBytes nibs),
                       n1 := some (lanesOfBytes (nibs.drop 128)) }
      | none => bound h.ofs
    | .decode => bound (if skip then nextOf else h.ofs)
    | .word => bound (if skip then h.ofs + 4 else h.ofs)
    | .boundary => bound h.ofs
    | .headerWait =>
      if skip then { bound h.ofs with clause := h.clause.map fun c => { c with begun := false, skipWait := true } }
      else bound h.ofs
  (s.putGroup k g3).busy k (wb + 32)

/-- Where the emulation handler stands in an object's CODE segment: at the first multiple of 64 at or after the end of the code section
(R394). -/
def handlerAt (o : EmuObject) : Nat := (o.size + 63) / 64 * 64

/-- The object with an emulation handler that a CODE selector of a context belongs to. -/
def State.emuObject (s : State) (part ctx : Nat) (sel : BitVec 16) : Option EmuObject :=
  s.host.objects.find? fun o => o.part == part && o.ctx == ctx && o.sels.contains sel

/-- TRAPV as a kernel starts with it: the emulation handler of its object in place of its TRAP (R394), else TRAP (R353). -/
def State.trapvOf (s : State) (part ctx : Nat) (kr : KRec) (sel : BitVec 16) : Word :=
  match s.emuObject part ctx sel with
  | some o => BitVec.ofNat 32 (handlerAt o)
  | none => kr.trap

/-- Whether code runs with supervisor privilege (R324). -/
def Group.supervisor (g : Group) : Bool := (g.segReg 15).s

/-- Handler mode counts as supervisor privilege for RTT, BIND and UNBIND (R324). -/
def Group.privileged (g : Group) : Bool := g.supervisor || g.handler.isSome

/-- Raise a cause at the instruction that issues (R256): a speculative task records it and parks (R89); otherwise it is taken. -/
def State.raiseAt (s : State) (k : GKey) (g : Group) (t : Trap) (pos : Nat) (kind : ResumeKind) : State :=
  match g.task with
  | some tk =>
    if tk.spec then s.leavePen k g (.parked (.deferred t pos kind false))
    else s.trapEnter k g t pos kind false
  | none => s.trapEnter k g t pos kind false

def State.raise (s : State) (k : GKey) (g : Group) (t : Trap) : State := s.raiseAt k g t g.pos .instr

end Sys2Proof.Machine
end

