-- ==== Sys2Proof/Machine/Flags.lean ====
section
/-! DEFINITION. The exception flags of XOUT (R206), the predicates (R111, R260) and the conditions of the compares
(R275, R281, R294), shared by every instruction that sets them. -/

namespace Sys2Proof.Machine

/-! ## XOUT (R206) -/

/-- Flags of an instruction, as XOUT lays them out. -/
abbrev Flags := Word

def flagNV : Flags := 0x00000001#32
def flagOF : Flags := 0x00000002#32
def flagUF : Flags := 0x00000004#32
def flagNX : Flags := 0x00000008#32
def flagSATD : Flags := 0x00000010#32
def flagXBC : Flags := 0x00010000#32
/-- The bits of XOUT that software can write (R206). -/
def xoutMask : Word := 0x0001001f#32

/-- A flag that holds when `b` does. -/
def flagIf (b : Bool) (f : Flags) : Flags := if b then f else 0#32

/-- The flags are only set (R206). -/
def Group.raiseFlags (g : Group) (f : Flags) : Group := { g with xout := g.xout ||| f }

/-! ## Predicates -/

/-- Predicate `f`; f0 reads as all ones (R111, R292). -/
def Group.pred (g : Group) (f : Nat) : Word :=
  if f = 0 then 0xffffffff#32 else g.pr.get 0#32 f

/-- A write of predicate `f`; a write to f0 is discarded (R260). -/
def Group.setPred (g : Group) (f : Nat) (v : Word) : Group :=
  if f = 0 then g else { g with pr := g.pr.put f v }

/-- The word whose bit `l` is `b l` for the lanes of `mask`, and that of `old` elsewhere. -/
def maskedBits (mask old : Word) (b : Nat → Bool) : Word :=
  (List.range 32).foldl (fun (w : Word) l =>
    if mask.getLsbD l then (if b l then w ||| (1#32 <<< l) else w &&& ~~~(1#32 <<< l)) else w) old

/-- The active lanes whose guard is true (R111). -/
def Group.guarded (g : Group) (neg : Bool) (f : Nat) : Word :=
  g.exec &&& (if neg then ~~~(g.pred f) else g.pred f)

/-! ## Conditions -/

/-- The signed conditions of R275, none for an unassigned code. -/
def condSigned (fn : Nat) (a b : Word) : Option Bool :=
  match fn with
  | 0 => some (a == b)
  | 1 => some (a != b)
  | 2 => some (BitVec.slt a b)
  | 3 => some (BitVec.sle a b)
  | 4 => some (BitVec.slt b a)
  | 5 => some (BitVec.sle b a)
  | _ => none

/-- The unsigned conditions of R275. -/
def condUnsigned (fn : Nat) (a b : Word) : Option Bool :=
  match fn with
  | 0 => some (a == b)
  | 1 => some (a != b)
  | 2 => some (BitVec.ult a b)
  | 3 => some (BitVec.ule a b)
  | 4 => some (BitVec.ult b a)
  | 5 => some (BitVec.ule b a)
  | _ => none

/-- The conditions of SCMP (R294). -/
def condScalar (fn : Nat) (a b : Word) : Option Bool :=
  if fn ≤ 5 then condSigned fn a b
  else match fn with
    | 6 => some (BitVec.ult a b)
    | 7 => some (BitVec.ule a b)
    | 8 => some (BitVec.ult b a)
    | 9 => some (BitVec.ule b a)
    | _ => none

end Sys2Proof.Machine
end

