-- ==== Sys2Proof/Machine/Numbers.lean ====
section
/-! DEFINITION. The element and scale formats and their arithmetic (R197 to R209, R278 to R286): every operation is computed
exactly on integers and narrowed once at the end. -/

namespace Sys2Proof.Machine

/-! ## Values and formats -/

/-- An exact value: a NaN with its sign, whether it is quiet, and its fraction left-aligned in 23 bits; an infinity; or
(−1)^s × m × 2^e. -/
inductive FV where
  | nan (s : Bool) (quiet : Bool) (pay : Nat)
  | inf (s : Bool)
  | fin (s : Bool) (m : Nat) (e : Int)
  deriving DecidableEq, Repr

/-- How the all-ones exponent reads (R197). -/
inductive Top where
  | ieee | e4m3 | plain
  deriving DecidableEq, Repr

/-- An element format: width, exponent bits, mantissa bits, bias (R197). -/
structure Fmt where
  w : Nat
  eb : Nat
  mb : Nat
  bias : Int
  top : Top
  deriving DecidableEq, Repr

def fp32 : Fmt := ⟨32, 8, 23, 127, .ieee⟩
def fp16 : Fmt := ⟨16, 5, 10, 15, .ieee⟩
def bf16 : Fmt := ⟨16, 8, 7, 127, .ieee⟩
def e4m3 : Fmt := ⟨8, 4, 3, 7, .e4m3⟩
def e5m2 : Fmt := ⟨8, 5, 2, 15, .ieee⟩
def e2m1 : Fmt := ⟨4, 2, 1, 1, .plain⟩

/-- The canonical NaNs (R197). -/
def canonNan (f : Fmt) : Nat :=
  match f.top with
  | .e4m3 => 0x7f
  | _ => (2 ^ f.eb - 1) * 2 ^ f.mb + 2 ^ (f.mb - 1)

/-- The value of a code (R197, R199). -/
def decodeF (f : Fmt) (x : Nat) : FV :=
  let s := x / 2 ^ (f.w - 1) % 2 = 1
  let e := x / 2 ^ f.mb % 2 ^ f.eb
  let m := x % 2 ^ f.mb
  if f.top = .ieee ∧ e = 2 ^ f.eb - 1 then
    if m = 0 then .inf s else .nan s (decide (2 ^ (f.mb - 1) ≤ m)) (m * 2 ^ (23 - f.mb))
  else if f.top = .e4m3 ∧ e = 15 ∧ m = 7 then .nan s true 0x700000
  else if e = 0 then .fin s m (1 - f.bias - f.mb)
  else .fin s (2 ^ f.mb + m) ((e : Int) - f.bias - f.mb)

/-- A subnormal of `f` as zero of the same sign (R201 FTZ16, R209). -/
def flushSub (f : Fmt) (x : Nat) : Nat :=
  if x / 2 ^ f.mb % 2 ^ f.eb = 0 then x / 2 ^ (f.w - 1) % 2 * 2 ^ (f.w - 1) else x

def FV.isNan : FV → Bool
  | .nan _ _ _ => true
  | _ => false

def FV.isSnan : FV → Bool
  | .nan _ q _ => !q
  | _ => false

def FV.isInf : FV → Bool
  | .inf _ => true
  | _ => false

def FV.isZero : FV → Bool
  | .fin _ m _ => m == 0
  | _ => false

def FV.sign : FV → Bool
  | .nan s _ _ => s
  | .inf s => s
  | .fin s _ _ => s

/-! ## Rounding (R203, R204, R206) -/

inductive Rnd where
  | rne | rna | rz | rd | ru
  deriving DecidableEq, Repr

/-- m / 2^sh rounded, and whether it was inexact. -/
def roundShift (r : Rnd) (s : Bool) (m sh : Nat) : Nat × Bool :=
  let q := m / 2 ^ sh
  let t := m % 2 ^ sh
  let up := match r with
    | .rne => decide (2 ^ sh < 2 * t) || (decide (2 * t = 2 ^ sh) && q % 2 == 1)
    | .rna => decide (0 < t) && decide (2 ^ sh ≤ 2 * t)
    | .rz => false
    | .rd => s && decide (0 < t)
    | .ru => !s && decide (0 < t)
  (if up then q + 1 else q, decide (0 < t))

/-- m × 2^e in units of 2^q. -/
def roundTo (r : Rnd) (s : Bool) (m : Nat) (e q : Int) : Nat × Bool :=
  if q ≤ e then (m * 2 ^ (e - q).toNat, false) else roundShift r s m (q - e).toNat

/-- Bit length of m, less 1. -/
def lg (m : Nat) : Int := (Nat.log2 m : Int)

/-- The largest finite magnitude, in units of the smallest subnormal (R197). -/
def maxUnits (f : Fmt) : Nat :=
  match f.top with
  | .ieee => (2 ^ (f.mb + 1) - 1) * 2 ^ (2 ^ f.eb - 3)
  | .e4m3 => 14 * 2 ^ 14
  | .plain => 3 * 2 ^ 2

/-- The code of a magnitude of n units. -/
def unitsCode (f : Fmt) (s : Bool) (n : Nat) : Nat :=
  let sg := if s then 2 ^ (f.w - 1) else 0
  if n < 2 ^ f.mb then sg + n
  else
    let k := Nat.log2 n - f.mb
    sg + (k + 1) * 2 ^ f.mb + (n / 2 ^ k - 2 ^ f.mb)

/-- How an overflow ends: as arithmetic of FP32 (R278), or as a narrowing under HAND.SAT (R204). -/
inductive Over where
  | arith
  | narrow (sat : Bool)
  deriving DecidableEq, Repr

def infCode (f : Fmt) (s : Bool) : Nat := (if s then 2 ^ (f.w - 1) else 0) + (2 ^ f.eb - 1) * 2 ^ f.mb

/-- A finite value rounded once, with its flags (R203, R204, R206). -/
def encodeFin (f : Fmt) (r : Rnd) (o : Over) (s : Bool) (m : Nat) (e : Int) : Nat × Flags :=
  if m = 0 then (unitsCode f s 0, 0#32)
  else
    let emin : Int := 1 - f.bias
    let ex := lg m + e
    let q := max ex emin - f.mb
    let (v, inex) := roundTo r s m e q
    let n := v * 2 ^ (q - (emin - f.mb)).toNat
    if maxUnits f < n then
      match o with
      | .arith => (infCode f s, flagOF ||| flagNX)
      | .narrow sat =>
        if sat || f.top == .plain then (unitsCode f s (maxUnits f), flagSATD ||| flagNX)
        else if f.top == .e4m3 then ((if s then 0xff else 0x7f), flagOF ||| flagNX)
        else (infCode f s, flagOF ||| flagNX)
    else
      let tiny := decide (ex < emin) &&
        (let (u, _) := roundTo r s m e (ex - f.mb); decide (lg u + (ex - f.mb) < emin))
      (unitsCode f s n, flagIf inex flagNX ||| flagIf (inex && n != 0 && tiny) flagUF)

/-- A NaN of `f`: at level 3 the source quieted with the payload's high bits, else canonical (R209). -/
def nanCode (level : Nat) (f : Fmt) (v : FV) : Nat :=
  match v with
  | .nan s _ pay =>
    if level = 3 then
      (if s then 2 ^ (f.w - 1) else 0) + (2 ^ f.eb - 1) * 2 ^ f.mb + 2 ^ (f.mb - 1) + (pay / 2 ^ (23 - f.mb)) % 2 ^ (f.mb - 1)
    else canonNan f
  | _ => canonNan f

/-- The first NaN among the sources, in order (R209). -/
def firstNan : List FV → FV
  | [] => .nan false true 0x400000
  | v :: r => if v.isNan then v else firstNan r

/-- A value narrowed (R203, R204, R209). At level 1 a BF16 subnormal becomes zero. -/
def narrowTo (level : Nat) (sat : Bool) (f : Fmt) (v : FV) : Nat × Flags :=
  match v with
  | .nan s q pay =>
    if f.top = .plain then (0, flagNV)
    else if f.w = 8 then (canonNan f, flagIf (!q) flagNV)
    else (nanCode level f (.nan s q pay), flagIf (!q) flagNV)
  | .inf s =>
    if f.top = .plain then (unitsCode f s (maxUnits f), flagSATD)
    else if f.top = .e4m3 then
      (if sat then (unitsCode f s (maxUnits f), flagSATD) else ((if s then 0xff else 0x7f), flagOF))
    else (infCode f s, 0#32)
  | .fin s m e =>
    let r := if f.top = .plain then Rnd.rna else if f.w = 8 ∧ level = 3 then Rnd.rna else Rnd.rne
    let (c, fl) := encodeFin f r (.narrow sat) s m e
    (if level = 1 ∧ f = bf16 then flushSub bf16 c else c, fl)

/-- An integer rounded from a finite value, and whether it was inexact. -/
def intRound (r : Rnd) (s : Bool) (m : Nat) (e : Int) : Int × Bool :=
  let (v, inex) := roundTo r s m e 0
  (if s then -(v : Int) else v, inex)

/-! ## Exact operations -/

/-- The exact sum of finite values; an exact zero is −0 only if every term is −0 (R207, R278). -/
def sumFin (vs : List (Bool × Nat × Int)) : Bool × Nat × Int :=
  match vs with
  | [] => (false, 0, 0)
  | v :: r =>
    let low := r.foldl (fun (a : Int) t => min a t.2.2) v.2.2
    let tot := (v :: r).foldl (fun (a : Int) t =>
      let x : Int := (t.2.1 : Int) * 2 ^ (t.2.2 - low).toNat
      if t.1 then a - x else a + x) 0
    if tot = 0 then ((v :: r).all (·.1), 0, 0) else (decide (tot < 0), tot.natAbs, low)

/-- The product of two values that are no NaNs; none for 0 × ∞. -/
def mulFV (a b : FV) : Option FV :=
  match a, b with
  | .fin s m e, .fin t n d => some (.fin (s ^^ t) (m * n) (e + d))
  | .inf s, .fin t n _ => if n = 0 then none else some (.inf (s ^^ t))
  | .fin s m _, .inf t => if m = 0 then none else some (.inf (s ^^ t))
  | .inf s, .inf t => some (.inf (s ^^ t))
  | x, _ => some x

/-- The finite terms of a list. -/
def finTerms : List FV → List (Bool × Nat × Int)
  | [] => []
  | .fin s m e :: r => (s, m, e) :: finTerms r
  | _ :: r => finTerms r

/-- The sum of values that are no NaNs; none for ∞ − ∞. -/
def sumFV (vs : List FV) : Option FV :=
  let infs := vs.filter FV.isInf
  if infs.any FV.sign && infs.any (fun v => !v.sign) then none
  else match infs with
    | v :: _ => some v
    | [] => let (s, m, e) := sumFin (finTerms vs); some (.fin s m e)

def negFV : FV → FV
  | .nan s q p => .nan s q p
  | .inf s => .inf (!s)
  | .fin s m e => .fin (!s) m e

/-- How results of a format are rounded: FP32 arithmetic (R278) or a packed result (R283). -/
structure Ctxt where
  level : Nat
  sat : Bool
  f : Fmt
  deriving DecidableEq, Repr

/-- A result that is no NaN, rounded once. -/
def finish (c : Ctxt) (v : FV) : Nat × Flags :=
  if c.f = fp32 then
    match v with
    | .fin s m e => encodeFin fp32 .rne .arith s m e
    | .inf s => (infCode fp32 s, 0#32)
    | .nan _ _ _ => (nanCode c.level fp32 v, 0#32)
  else match v with
    | .inf s => (infCode c.f s, 0#32)
    | _ => narrowTo c.level c.sat c.f v

/-- The flag of a signalling source (R206). -/
def snanFlag (vs : List FV) : Flags := flagIf (vs.any FV.isSnan) flagNV

/-- The result of an operation from its sources, whether a product was 0 × ∞, and its exact value (R209, R278). -/
def conclude (c : Ctxt) (srcs : List FV) (bad : Bool) (v : Option FV) : Nat × Flags :=
  let fl := snanFlag srcs ||| flagIf bad flagNV
  if srcs.any FV.isNan then (nanCode c.level c.f (firstNan srcs), fl)
  else if bad then (canonNan c.f, fl)
  else match v with
    | none => (canonNan c.f, fl ||| flagNV)
    | some x => let (r, g) := finish c x; (r, fl ||| g)

def addF (c : Ctxt) (a b : FV) : Nat × Flags := conclude c [a, b] false (sumFV [a, b])

/-- In a subtraction b counts as the second NaN source with its sign as given (R278). -/
def subF (c : Ctxt) (a b : FV) : Nat × Flags := conclude c [a, b] false (sumFV [a, negFV b])

/-- Whether a × b is 0 × ∞. -/
def zeroInf (a b : FV) : Bool := (a.isZero && b.isInf) || (a.isInf && b.isZero)

def mulF (c : Ctxt) (a b : FV) : Nat × Flags := conclude c [a, b] (zeroInf a b) (mulFV a b)

def fmaF (c : Ctxt) (a b d : FV) : Nat × Flags :=
  conclude c [a, b, d] (zeroInf a b) ((mulFV a b).bind fun p => sumFV [p, d])

/-- Compare the magnitudes m × 2^e and n × 2^d. -/
def magLt (m : Nat) (e : Int) (n : Nat) (d : Int) : Bool :=
  let low := min e d
  decide (m * 2 ^ (e - low).toNat < n * 2 ^ (d - low).toNat)

/-- Strictly less, on values that are no NaNs, with −0 and +0 equal. -/
def ltFV (a b : FV) : Bool :=
  match a, b with
  | .inf s, .inf t => s && !t
  | .inf s, _ => s
  | _, .inf t => !t
  | .fin s m e, .fin t n d =>
    if m = 0 ∧ n = 0 then false
    else if s && !t then true
    else if !s && t then false
    else if s then magLt n d m e else magLt m e n d
  | _, _ => false

/-- Equality of values that are no NaNs, with −0 and +0 equal. -/
def eqFV (a b : FV) : Bool := !ltFV a b && !ltFV b a

/-- FMIN and FMAX (R280, R209): exact, −0 below +0. -/
def minMaxF (c : Ctxt) (isMax : Bool) (a b : FV) : Nat × Flags :=
  let fl := snanFlag [a, b]
  let out (v : FV) : Nat × Flags := ((finish c v).1, fl)
  if a.isSnan || b.isSnan || (a.isNan && b.isNan) then (nanCode c.level c.f (firstNan [a, b]), fl)
  else if a.isNan then (if c.level = 3 then out b else (canonNan c.f, fl))
  else if b.isNan then (if c.level = 3 then out a else (canonNan c.f, fl))
  else
    let aLess := ltFV a b || (eqFV a b && a.sign && !b.sign)
    if isMax then out (if aLess then b else a) else out (if aLess then a else if eqFV a b && b.sign && !a.sign then b else if ltFV b a then b else a)

/-- The conditions of FCMP with NV (R281); none for an unassigned code. -/
def condF (fn : Nat) (a b : FV) : Option (Bool × Flags) :=
  let un := a.isNan || b.isNan
  let s := snanFlag [a, b]
  let q := s ||| flagIf un flagNV
  match fn with
  | 0 => some (!un && eqFV a b, s)
  | 1 => some (un || !eqFV a b, s)
  | 2 => some (!un && ltFV a b, q)
  | 3 => some (!un && !ltFV b a, q)
  | 4 => some (!un && ltFV b a, q)
  | 5 => some (!un && !ltFV a b, q)
  | 6 => some (un, s)
  | 7 => some (!un, s)
  | _ => none

/-- The class mask of FCLASS (R282). -/
def classF (a : FV) : Word :=
  match a with
  | .nan _ q _ => if q then 0x200#32 else 0x100#32
  | .inf s => if s then 0x001#32 else 0x080#32
  | .fin s m _ =>
    if m = 0 then (if s then 0x008#32 else 0x010#32)
    else if m < 2 ^ 23 then (if s then 0x004#32 else 0x020#32)
    else if s then 0x002#32 else 0x040#32

/-! ## Correctly rounded functions (R278, R279)

A value is given as s, m, e with a sticky low bit: m is the floor of a close approximation followed by a 1, so that no
tie and no exact value can arise where the exact value is irrational. -/

/-- Integer square root of n, one bit a step from 2^k down. -/
def isqrt (n : Nat) : Nat → Nat → Nat
  | 0, r => if (r + 1) * (r + 1) ≤ n then r + 1 else r
  | k + 1, r => isqrt n k (if (r + 2 ^ (k + 1)) * (r + 2 ^ (k + 1)) ≤ n then r + 2 ^ (k + 1) else r)

/-- An approximation q × 2^e of a positive value, with a sticky bit for what was cut off. -/
def sticky (s : Bool) (q : Nat) (e : Int) (exact : Bool) : FV :=
  .fin s (2 * q + (if exact then 0 else 1)) (e - 1)

def rcpFV (s : Bool) (m : Nat) (e : Int) : FV :=
  let q := 2 ^ 80 / m
  sticky s q (-80 - e) (q * m == 2 ^ 80)

/-- √(m × 2^e). -/
def sqrtFV (m : Nat) (e : Int) : FV :=
  let odd := e % 2 = 1
  let n := (if odd then 2 * m else m) * 2 ^ 80
  let h := (if odd then e - 1 else e) / 2
  let r := isqrt n 60 0
  sticky false r (h - 40) (r * r == n)

/-- 1 / √(m × 2^e). -/
def rsqFV (m : Nat) (e : Int) : FV :=
  let odd := e % 2 = 1
  let d := if odd then 2 * m else m
  let h := (if odd then e - 1 else e) / 2
  let y := 2 ^ 140 / d
  let r := isqrt y 75 0
  sticky false r (-h - 70) (r * r * d == 2 ^ 140)

/-- Σ over odd k of (±1)^((k-1)/2) x^k / k at scale 2^p, where `t` is x^k at that scale. -/
def atanSeries (alt : Bool) (den : Nat) : Nat → Nat → Nat → Int
  | 0, _, _ => 0
  | n + 1, k, t =>
    let rest := atanSeries alt den n (k + 2) (t / den)
    (t / k : Nat) + (if alt then -rest else rest)

/-- π at scale 2^p, by Machin's formula. -/
def piFix (p : Nat) : Nat :=
  let a := atanSeries true 25 (p / 2) 1 (2 ^ (p + 32) / 5)
  let b := atanSeries true 57121 (p / 8) 1 (2 ^ (p + 32) / 239)
  ((16 * a - 4 * b) / 2 ^ 32).toNat

/-- ln 2 at scale 2^p. -/
def ln2Fix (p : Nat) : Nat := (2 * atanSeries false 9 (p / 3 + 8) 1 (2 ^ (p + 32) / 3) / 2 ^ 32).toNat

/-- e^y − 1 at scale 2^p for y at that scale, 0 ≤ y < 1: the terms y^k / k! from k on. -/
def expm1Series (p y : Nat) : Nat → Nat → Nat → Nat
  | 0, _, _ => 0
  | n + 1, k, t => let t' := t * y / 2 ^ p / k; t' + expm1Series p y n (k + 1) t'

/-- sin y at scale 2^p for y at that scale: the alternating terms. -/
def sinSeries (p y2 : Nat) : Nat → Nat → Nat → Int
  | 0, _, _ => 0
  | n + 1, k, t => (t : Int) - sinSeries p y2 n (k + 2) (t * y2 / 2 ^ p / (k + 1) / (k + 2))

/-- x = m × 2^e with x ≥ 0 as an integer at scale 2^p (p large enough that nothing is lost). -/
def fixOf (m : Nat) (e : Int) (p : Nat) : Nat :=
  if 0 ≤ e + p then m * 2 ^ (e + p).toNat else m / 2 ^ (-(e + p)).toNat

/-- 2^x, x = ±m × 2^e not an integer. -/
def exp2FV (s : Bool) (m : Nat) (e : Int) : FV :=
  let p := 320
  if 10 ≤ lg m + e then (if s then sticky false 1 (-400) false else sticky false 1 400 false)
  else
    let x : Int := if s then -(fixOf m e p : Int) else fixOf m e p
    let n := x / 2 ^ p
    let f := (x % 2 ^ p).toNat
    let y := f * ln2Fix p / 2 ^ p
    sticky false (2 ^ p + expm1Series p y 110 1 (2 ^ p)) (n - p) false

/-- log2 (m × 2^e), not an integer. -/
def log2FV (m : Nat) (e : Int) : FV :=
  let p := 320
  let k := lg m
  let one := 2 ^ p
  let x := fixOf m (-k) p
  let z := (x - one) * one / (x + one)
  let ln : Int := 2 * (atanhSeries p (z * z / one) 110 1 z : Nat)
  let r := (k + e) * 2 ^ p + ln * 2 ^ p / ln2Fix p
  sticky (decide (r < 0)) r.natAbs (-p) false
where
  /-- Σ over odd k of z^k / k at scale 2^p. -/
  atanhSeries (p z2 : Nat) : Nat → Nat → Nat → Nat
    | 0, _, _ => 0
    | n + 1, k, t => t / k + atanhSeries p z2 n (k + 2) (t * z2 / 2 ^ p)

/-- sin (π x), x = m × 2^(−q), 0 < x < 1/2. -/
def sinPiFV (s : Bool) (m q : Nat) : FV :=
  let p := 256 + q
  let y := m * 2 ^ (p - q) * piFix p / 2 ^ p
  sticky s (sinSeries p (y * y / 2 ^ p) 120 1 y).toNat (-p) false

/-- x = m × 2^e, taken as a number of units of 2^(−q). -/
def unitsOf (m : Nat) (e : Int) : Nat × Nat :=
  if 0 ≤ e then (m * 2 ^ e.toNat, 0) else (m, (-e).toNat)

/-- sin (π x) for x = ±m × 2^e, finite and not zero (R279: exact at multiples of 1/2). -/
def sinFV (s : Bool) (m : Nat) (e : Int) : FV :=
  let (n, q) := unitsOf m e
  let one := 2 ^ q
  let r := n % (2 * one)
  if r % one = 0 then .fin s 0 0
  else
    let t := s ^^ decide (one < r)
    let u := r % one
    if 2 * u = one then .fin t 1 0
    else sinPiFV t (if 2 * u < one then u else one - u) q

/-- cos (π x). -/
def cosFV (m : Nat) (e : Int) : FV :=
  let (n, q) := unitsOf m e
  let one := 2 ^ q
  let r := n % (2 * one)
  if r % one = 0 then .fin (decide (r = one)) 1 0
  else
    let u := r % one
    if 2 * u = one then .fin false 0 0
    else
      let neg := decide (one < 2 * r) && decide (2 * r < 3 * one)
      sinPiFV neg (if 2 * u < one then one - 2 * u else 2 * u - one) (q + 1)

/-- tanh x for x = ±m × 2^e, not zero. -/
def tanhFV (s : Bool) (m : Nat) (e : Int) : FV :=
  if 4 ≤ lg m + e then sticky s (2 ^ 60 - 1) (-60) false
  else
    let p := 256 + (-(lg m + e)).toNat
    let y := fixOf m (e + 1) p
    let l := ln2Fix p
    let k := y / l
    let em := expm1Series p (y % l) 140 1 (2 ^ p)
    let u := if k = 0 then em else (em + 2 ^ p) * 2 ^ k - 2 ^ p
    sticky s (u * 2 ^ p / (u + 2 ^ (p + 1))) (-p) false

/-- Whether m × 2^e is an integer. -/
def isInteger (m : Nat) (e : Int) : Bool := decide (0 ≤ e) || m % 2 ^ (-e).toNat == 0

/-- The single-source functions of R279. -/
inductive Fun1 where
  | rcp | rsq | sqrt | exp2 | log2 | sin | cos | tanh
  deriving DecidableEq, Repr

/-- The exact value of a function of a number that is no NaN; none is a NaN with NV (R279). -/
def funFV (fn : Fun1) (a : FV) : Option FV :=
  match a with
  | .nan _ _ _ => none
  | .inf s =>
    match fn with
    | .rcp => some (.fin s 0 0)
    | .rsq => if s then none else some (.fin false 0 0)
    | .sqrt => if s then none else some (.inf false)
    | .exp2 => if s then some (.fin false 0 0) else some (.inf false)
    | .log2 => if s then none else some (.inf false)
    | .sin => none
    | .cos => none
    | .tanh => some (.fin s 1 0)
  | .fin s m e =>
    if m = 0 then
      match fn with
      | .rcp => some (.inf s)
      | .rsq => some (.inf s)
      | .sqrt => some (.fin s 0 0)
      | .exp2 => some (.fin false 1 0)
      | .log2 => some (.inf true)
      | .sin => some (.fin s 0 0)
      | .cos => some (.fin false 1 0)
      | .tanh => some (.fin s 0 0)
    else match fn with
      | .rcp => some (rcpFV s m e)
      | .rsq => if s then none else some (rsqFV m e)
      | .sqrt => if s then none else some (sqrtFV m e)
      | .exp2 =>
        if isInteger m e then
          let n := if 10 ≤ lg m + e then 1000 else fixOf m e 0
          some (.fin false 1 (if s then -(n : Int) else n))
        else some (exp2FV s m e)
      | .log2 =>
        if s then none
        else if m = 2 ^ Nat.log2 m then
          let k := lg m + e
          some (.fin (decide (k < 0)) k.natAbs 0)
        else some (log2FV m e)
      | .sin => some (sinFV s m e)
      | .cos => some (cosFV m e)
      | .tanh => some (tanhFV s m e)

/-- A single-source function (R278, R279, R209). -/
def funF (c : Ctxt) (fn : Fun1) (a : FV) : Nat × Flags := conclude c [a] false (funFV fn a)

/-! ## FP32 on words -/

def f32 (w : Word) : FV := decodeF fp32 w.toNat

/-- The FP32 word of a small integer. -/
def wordOfInt (i : Int) : Word :=
  BitVec.ofNat 32 (encodeFin fp32 .rne .arith (decide (i < 0)) i.natAbs 0).1

def toWord (r : Nat × Flags) : Word × Flags := (BitVec.ofNat 32 r.1, r.2)

def ctx32 (level : Nat) : Ctxt := { level := level, sat := false, f := fp32 }

/-- rne(m + v, FP32) as AFADD and RFADD add it: memory is source A (R306). -/
def faddWord (level : Nat) (m v : Word) : Word := (toWord (addF (ctx32 level) (f32 m) (f32 v))).1

/-! ## Packed 16-bit (R283, R284) -/

/-- HAND.H16's format (R201); none for a reserved code (R202). -/
def h16Of (hand : Word) : Option Fmt :=
  match (bits hand 10 2).toNat with
  | 0 => some fp16
  | 1 => some bf16
  | _ => none

/-- HAND.Q8's format. -/
def q8Of (hand : Word) : Option Fmt :=
  match (bits hand 12 2).toNat with
  | 0 => some e4m3
  | 1 => some e5m2
  | _ => none

def satOf (hand : Word) : Bool := hand.getLsbD 14
def ftzOf (hand : Word) : Bool := hand.getLsbD 15

/-- An element read under FTZ16 and the level (R201, R209). -/
def readElem (level : Nat) (hand : Word) (f : Fmt) (x : Nat) : FV :=
  decodeF f (if ftzOf hand || (level == 1 && f == bf16) then flushSub f x else x)

def half (w : Word) (h : Nat) : Nat := (bits w (16 * h) 16).toNat

/-- An operation on both halves (R283). -/
def packed2 (level : Nat) (hand : Word) (f : Fmt) (op : Ctxt → FV → FV → FV → Nat × Flags) (a b c : Word) : Word × Flags :=
  let cx : Ctxt := { level := level, sat := satOf hand, f := f }
  let e (h : Nat) := op cx (readElem level hand f (half a h)) (readElem level hand f (half b h)) (readElem level hand f (half c h))
  let fl (r : Nat × Flags) := if level = 1 ∧ f = bf16 then (flushSub bf16 r.1, r.2) else r
  let r0 := fl (e 0)
  let r1 := fl (e 1)
  (BitVec.ofNat 32 (r1.1 * 65536 + r0.1), r0.2 ||| r1.2)

/-- HCMP2 (R284). -/
def condH (level : Nat) (hand : Word) (f : Fmt) (fn : Nat) (a b : Word) : Bool × Flags :=
  let r (h : Nat) := (condF (fn % 8) (readElem level hand f (half a h)) (readElem level hand f (half b h))).getD (false, 0#32)
  let r0 := r 0
  let r1 := r 1
  (match fn / 8 % 4 with
    | 0 => r0.1
    | 1 => r1.1
    | 2 => r0.1 && r1.1
    | _ => r0.1 || r1.1, r0.2 ||| r1.2)

/-- QDOT4 (R285). -/
def qdot4 (level : Nat) (hand : Word) (f : Fmt) (a b c : Word) : Word × Flags :=
  let el (w : Word) (i : Nat) : FV := readElem level hand f (bits w (8 * i) 8).toNat
  let as := (List.range 4).map (el a)
  let bs := (List.range 4).map (el b)
  let cv := f32 c
  let zi := (as.zip bs).any fun p => zeroInf p.1 p.2
  let prods := (as.zip bs).filterMap fun p => if p.1.isNan || p.2.isNan then none else mulFV p.1 p.2
  let terms := prods ++ (if cv.isNan then [] else [cv])
  let infs := (as.zip bs).filterMap (fun p =>
      if p.1.isNan || p.2.isNan then none else if p.1.isInf || p.2.isInf then some (p.1.sign ^^ p.2.sign) else none)
    ++ (if cv.isInf then [cv.sign] else [])
  let clash := infs.any id && infs.any (!·)
  let fl := snanFlag (as ++ bs ++ [cv]) ||| flagIf (zi || clash) flagNV
  if (as ++ bs).any FV.isNan then (BitVec.ofNat 32 (canonNan fp32), fl)
  else if cv.isNan then (BitVec.ofNat 32 (nanCode level fp32 cv), fl)
  else if zi || clash then (BitVec.ofNat 32 (canonNan fp32), fl)
  else match sumFV terms with
    | some v => let (r, g) := finish (ctx32 level) v; (BitVec.ofNat 32 r, fl ||| g)
    | none => (BitVec.ofNat 32 (canonNan fp32), fl)

/-! ## Conversions (R286, R205) -/

/-- Widening to FP32: exact; the NaN of FP8 is canonical (R205). -/
def widen (level : Nat) (f : Fmt) (v : FV) : Word × Flags :=
  match v with
  | .nan s q p => (BitVec.ofNat 32 (if f.w = 8 then canonNan fp32 else nanCode level fp32 (.nan s q p)), flagIf (!q) flagNV)
  | x => toWord (finish (ctx32 level) x)

/-- Clamp an integer to a range. -/
def clampInt (lo hi i : Int) : Int := if i < lo then lo else if hi < i then hi else i

/-- F2I (R286); none for an unassigned mode. -/
def f2i (mode : Nat) (a : Word) : Option (Word × Flags) :=
  let go (r : Rnd) (lo hi : Int) (nanNv : Flags) : Word × Flags :=
    match f32 a with
    | .nan _ _ _ => (0#32, nanNv)
    | .inf s => (BitVec.ofInt 32 (if s then lo else hi), flagSATD)
    | .fin s m e =>
      let (i, inex) := intRound r s m (if 200 < e then 200 else e)
      let c := clampInt lo hi i
      if c = i then (BitVec.ofInt 32 i, flagIf inex flagNX) else (BitVec.ofInt 32 c, flagSATD ||| flagNX)
  let lo : Int := -2147483648
  let hi : Int := 2147483647
  match mode with
  | 0 => some (go .rne lo hi flagNV)
  | 1 => some (go .rz lo hi flagNV)
  | 2 => some (go .rd lo hi flagNV)
  | 3 => some (go .ru lo hi flagNV)
  | 4 => some (go .rz 0 4294967295 flagNV)
  | 5 => some (go .rna (-128) 127 flagNV)
  | 6 => some (go .rna (-8) 7 flagNV)
  | _ => none

/-- I2F. -/
def i2f (mode : Nat) (a : Word) : Option (Word × Flags) :=
  let go (i : Int) : Word × Flags := toWord (encodeFin fp32 .rne .arith (decide (i < 0)) i.natAbs 0)
  match mode with
  | 0 => some (go a.toInt)
  | 1 => some (go a.toNat)
  | 2 => some (go (bits a 0 8).toInt)
  | 3 => some (go (bits a 0 4).toInt)
  | _ => none

/-- FRND: to an integral value, with the sign of A on a zero and no NX. -/
def frnd (level mode : Nat) (a : Word) : Option (Word × Flags) :=
  let r? : Option Rnd := match mode with
    | 0 => some .rne
    | 1 => some .rz
    | 2 => some .rd
    | 3 => some .ru
    | 4 => some .rna
    | _ => none
  r?.map fun r =>
    match f32 a with
    | .nan s q p => (BitVec.ofNat 32 (nanCode level fp32 (.nan s q p)), flagIf (!q) flagNV)
    | .inf _ => (a, 0#32)
    | .fin s m e => if 0 ≤ e then (a, 0#32) else (BitVec.ofNat 32 (encodeFin fp32 .rne .arith s (intRound r s m e).1.natAbs 0).1, 0#32)

/-- BSCL. -/
def bscl (level : Nat) (a b : Word) : Word × Flags :=
  let k := (bits b 0 8).toNat
  match f32 a with
  | .nan s q p => (BitVec.ofNat 32 (nanCode level fp32 (.nan s q p)), flagIf (!q) flagNV)
  | .inf _ => if k = 255 then (0x7fc00000#32, 0#32) else (a, 0#32)
  | .fin s m e => if k = 255 then (0x7fc00000#32, 0#32) else toWord (encodeFin fp32 .rne .arith s m (e + k - 127))

/-! ## Scales and the accumulator (R200, R207) -/

/-- A UE8M0 scale. -/
def ue8m0 (x : Nat) : FV := if x = 255 then .nan false true 0x400000 else .fin false 1 ((x : Int) - 127)

/-- An E3M5 scale. -/
def e3m5 (x : Nat) : FV :=
  if x / 32 % 8 = 0 then .fin false (x % 32) (-7) else .fin false (32 + x % 32) ((x / 32 % 8 : Nat) - 8)

/-- A product of factors: none if a factor is a NaN or it is 0 × ∞. -/
def product : List FV → Option FV
  | [] => some (.fin false 1 0)
  | v :: r => if v.isNan then none else (product r).bind fun p => mulFV v p

/-- The exact sum of a chunk's products; none is NaN (R207). -/
def chunkSum (ps : List (Option FV)) : Option FV :=
  if ps.any Option.isNone then none else sumFV (ps.filterMap id)

/-- ACC ← rne(ACC + S, FP32) (R207, R209). -/
def accAdd (level : Nat) (acc : Word) (s : Option FV) : Word :=
  match s with
  | none => match f32 acc with
    | .nan sg q p => BitVec.ofNat 32 (nanCode level fp32 (.nan sg q p))
    | _ => 0x7fc00000#32
  | some v => (toWord (addF (ctx32 level) (f32 acc) v)).1

end Sys2Proof.Machine
end

