-- ==== Sys2Proof/Machine/Operands.lean ====
section
/-! DEFINITION. Operands: specifiers (R259), sources and the crossbar (R118, R132 to R134), the levels of storage and their
cost (R119 to R130), the checks of R128, the scoreboard (R104), and what every per-lane instruction of format V does. -/

namespace Sys2Proof.Machine

/-! ## Specifiers -/

/-- What a specifier byte names (R259). -/
inductive SpecKind where
  | reg (n : Nat)
  | scalar (n : Nat)
  | nib (n : Nat)
  | index (n : Nat)
  | special (n : Nat)
  | imm (i : Int)
  | reserved
  deriving DecidableEq, Repr

def specKind (b : BitVec 8) : SpecKind :=
  let n := b.toNat
  if n < 0x80 then .reg n
  else if n < 0xc0 then .scalar (n - 0x80)
  else if n < 0xc2 then .nib (n - 0xc0)
  else if n < 0xc8 then .reserved
  else if n < 0xcc then .index (n - 0xc8)
  else if n < 0xd0 then .reserved
  else if n < 0xd8 then .special (n - 0xd0)
  else if n < 0xe0 then .reserved
  else .imm (b.extractLsb' 0 5).toInt

/-- Any non-reserved specifier. -/
def isSource (b : BitVec 8) : Bool := specKind b != .reserved

def isScalar (b : BitVec 8) : Bool := decide (0x80 ≤ b.toNat) && decide (b.toNat < 0xc0)
def isEvenScalar (b : BitVec 8) : Bool := isScalar b && b.toNat % 2 == 0
def isImm (b : BitVec 8) : Bool := decide (0xe0 ≤ b.toNat)
def isScalarOrImm (b : BitVec 8) : Bool := isScalar b || isImm b
/-- v0–v127 or v[i0]–v[i3]. -/
def isLaneReg (b : BitVec 8) : Bool :=
  match specKind b with
  | .reg _ => true
  | .index _ => true
  | _ => false
/-- v0–v127, v[i0]–v[i3] or n0. -/
def isLaneDst (b : BitVec 8) : Bool := isLaneReg b || b == 0xc0#8

/-- How an immediate or a special is delivered (R259): as an integer, as FP32, as packed H16; vectors of 8- and 4-bit
elements take the integer. -/
inductive OpKind where
  | int | fp | half
  deriving DecidableEq, Repr

/-- An integer as an operand of a kind receives it. -/
def deliverInt (k : OpKind) (hand : Word) (i : Int) : Word :=
  match k with
  | .int => BitVec.ofInt 32 i
  | .fp => wordOfInt i
  | .half =>
    let f := (h16Of hand).getD fp16
    let c := (encodeFin f .rne (.narrow false) (decide (i < 0)) i.natAbs 0).1
    BitVec.ofNat 32 (c * 65536 + c)

/-! ## Reading -/

/-- Lane `j` of register `n`: from the well where it holds the lane, else from the reservoir (R124). -/
def Group.regLane (g : Group) (n j : Nat) : Word :=
  match g.well.find (n % 8) with
  | some e => if e.reg = n ∧ e.valid.getLsbD j then e.vals.at j else (g.regs.get zeroLanes n).at j
  | none => (g.regs.get zeroLanes n).at j

/-- Whether the well holds lane `j` of register `n` (R124). -/
def Group.inWell (g : Group) (n j : Nat) : Bool :=
  match g.well.find (n % 8) with
  | some e => decide (e.reg = n) && e.valid.getLsbD j
  | none => false

def Group.scalar (g : Group) (n : Nat) : Word := g.sc.get 0#32 n
def Group.setScalar (g : Group) (n : Nat) (v : Word) : Group := { g with sc := g.sc.put n v }

/-- The lane of an index register (R131). -/
def Group.ixLane (g : Group) (n l : Nat) : Nat := ((g.ix.get [] n).getD l 0#16).toNat
def Group.ixBase (g : Group) (n : Nat) : Nat := (bits (g.ixw.get 0#32 n) 0 8).toNat
def Group.ixLen (g : Group) (n : Nat) : Nat := (bits (g.ixw.get 0#32 n) 8 9).toNat
/-- The register an indexed operand addresses in lane `l` (R132). -/
def Group.ixReg (g : Group) (n l : Nat) : Nat := g.ixBase n + g.ixLane n l

/-- A special in lane `l` (R95). -/
def State.special (s : State) (k : GKey) (g : Group) (n l : Nat) : Nat :=
  let t? := s.team? g.team
  match n with
  | 0 => l
  | 1 => g.num
  | 2 => (t?.map (·.x)).getD 0
  | 3 => (t?.map (·.y)).getD 0
  | 4 => (t?.map (·.z)).getD 0
  | 5 => g.nlanes
  | 6 => k.core
  | _ => k.die

/-- A source operand: specifier, crossbar pattern and parameter, dead mark, and kind. -/
structure Src where
  spec : BitVec 8
  pat : Nat
  par : Nat
  dead : Bool
  kind : OpKind
  deriving DecidableEq, Repr

/-- The lane a pattern selects for lane `l` (R133); none off the end. -/
def selLane (pat k l : Nat) : Option Nat :=
  match pat with
  | 1 => some ((l + k) % 32)
  | 2 => some k
  | 3 => some (l ^^^ k)
  | 4 => some (l ^^^ (2 ^ k - 1))
  | 5 => if 31 < l + k then none else some (l + k)
  | 6 => if l < k then none else some (l - k)
  | _ => some l

/-- What a source delivers to lane `l` when lane `j?` is selected (R134, R132, R259). -/
def State.deliverAt (s : State) (k : GKey) (g : Group) (x : Src) (l : Nat) (j? : Option Nat) : Word :=
  let lane (f : Nat → Word) : Word :=
    match j? with
    | none => 0#32
    | some j => if g.nlanes ≤ j then 0#32 else f j
  match specKind x.spec with
  | .reg n => lane (g.regLane n)
  | .index n => lane (g.regLane (g.ixReg n l))
  | .nib n => lane fun j => ((if n = 0 then g.n0 else g.n1).getD zeroLanes).at j
  | .special n =>
    if n = 0 then
      match j? with
      | none => 0#32
      | some j => if g.nlanes ≤ j then 0#32 else deliverInt x.kind g.hand j
    else deliverInt x.kind g.hand (s.special k g n l)
  | .scalar n => g.scalar n
  | .imm i => deliverInt x.kind g.hand i
  | .reserved => 0#32

/-- What a source delivers to lane `l`. -/
def State.deliver (s : State) (k : GKey) (g : Group) (x : Src) (l : Nat) : Word :=
  s.deliverAt k g x l (selLane x.pat x.par l)

/-- A bcast of a lane outside the population sets XBC (R134). -/
def Group.xbc (g : Group) (x : Src) : Flags :=
  let crossed := match specKind x.spec with
    | .reg _ => true
    | .index _ => true
    | .nib _ => true
    | .special n => n == 0
    | _ => false
  flagIf (crossed && x.pat == 2 && decide (g.nlanes ≤ x.par)) flagXBC

/-- The value of a uniform source: a scalar or an immediate. -/
def Group.uniform (g : Group) (b : BitVec 8) : Word :=
  match specKind b with
  | .scalar n => g.scalar n
  | .imm i => BitVec.ofInt 32 i
  | _ => 0#32

/-- A 64-bit operand in an even pair of scalars. -/
def Group.scalar64 (g : Group) (n : Nat) : Nat := (g.scalar n).toNat + 4294967296 * (g.scalar (n + 1)).toNat

/-- The active lanes, ascending. -/
def lanesOf (m : Word) : List Nat := (List.range 32).filter fun l => m.getLsbD l

/-- The lowest active lane. -/
def lowest (m : Word) : Option Nat := (lanesOf m).head?

/-- The auxiliary word of ILL_OPERAND outside R128 (R268). -/
def auxSpec (g : Group) (b : BitVec 8) : Word := BitVec.ofNat 32 (b.toNat + 256 * ((lowest g.exec).getD 0))

/-! ## R128 -/

/-- An operand's registers as R128 looks at them: the specifier, whether it is read, the lane each lane selects (by a pattern, or the lane that
PERM's index names for each), and the lanes that use it, where those are not the active lanes. -/
structure RegUse where
  spec : BitVec 8
  read : Bool
  pat : Nat
  par : Nat
  span : Nat
  gather : List Nat := []
  only : Option Word := none
  deriving DecidableEq, Repr

/-- The lane an operand selects for lane `l`. -/
def RegUse.lane (u : RegUse) (l : Nat) : Option Nat := if u.gather.isEmpty then selLane u.pat u.par l else u.gather[l]?

/-- Whether lane `l` uses an operand. -/
def RegUse.usedBy (u : RegUse) (l : Nat) : Bool :=
  match u.only with
  | some m => m.getLsbD l
  | none => true

def Src.use (x : Src) : RegUse := { spec := x.spec, read := true, pat := x.pat, par := x.par, span := 1 }
/-- A destination, or a source of several registers, `span` of them. -/
def useOf (spec : BitVec 8) (read : Bool) (span : Nat) : RegUse := { spec := spec, read := read, pat := 0, par := 0, span := span }

/-- The register of an operand in lane `l`; none for one that names none. -/
def Group.useReg (g : Group) (u : RegUse) (l : Nat) : Option Nat :=
  match specKind u.spec with
  | .reg n => some n
  | .index n => some (g.ixReg n l)
  | _ => none

def auxReg (r lane : Nat) : Word := BitVec.ofNat 32 (r % 256 + 256 * lane)

/-- The first of the causes of R128 that the operands meet in the active lanes. -/
def Group.check128 (g : Group) (us : List RegUse) : Option Trap :=
  let act := lanesOf g.exec
  let low := act.headD 0
  let named := us.findSome? fun u => match specKind u.spec with
    | .reg n => if g.window < n + u.span then some (max n g.window) else none
    | _ => none
  match named with
  | some n => some (trapOf .illOperand (auxReg n low))
  | none =>
    let inLanes (f : RegUse → Nat → Option Nat) : Option (Nat × Nat) :=
      act.findSome? fun l => us.findSome? fun u => if u.usedBy l then (f u l).map fun r => (r, l) else none
    match inLanes (fun u l => match specKind u.spec with
        | .index n => if g.ixLen n ≤ g.ixLane n l then some (g.ixReg n l) else none
        | _ => none) with
    | some (r, l) => some (trapOf .indexBound (auxReg r l))
    | none =>
      match inLanes (fun u l => match specKind u.spec with
          | .index n => if g.window ≤ g.ixReg n l then some (g.ixReg n l) else none
          | _ => none) with
      | some (r, l) => some (trapOf .illOperand (auxReg r l))
      | none =>
        match inLanes (fun u l =>
            if !u.read then none
            else match u.lane l with
              | none => none
              | some j =>
                if g.nlanes ≤ j then none
                else (g.useReg u l).bind fun r => (List.range u.span).findSome? fun i =>
                  if g.dead.contains (r + i) then some (r + i) else none) with
        | some (r, l) => some (trapOf .deadRead (auxReg r l))
        | none => none

/-! ## The scoreboard (R104) -/

/-- What an instruction reads or writes: registers, scalars and predicates. -/
structure Touch where
  regs : List Nat
  scalars : List Nat
  preds : List Nat
  deriving DecidableEq, Repr

def touchPred (f : Nat) : Touch := { regs := [], scalars := [], preds := [f] }
def touchScalars (l : List Nat) : Touch := { regs := [], scalars := l, preds := [] }

/-- The registers of operands over the active lanes. -/
def Group.useRegs (g : Group) (us : List RegUse) : List Nat :=
  us.flatMap fun u => match specKind u.spec with
    | .reg n => (List.range u.span).map (n + ·)
    | .index n => (lanesOf g.exec).map fun l => g.ixReg n l
    | _ => []

def useScalars (us : List RegUse) : List Nat :=
  us.flatMap fun u => match specKind u.spec with
    | .scalar n => (List.range u.span).map (n + ·)
    | _ => []

/-- Whether a pending write stands against the instruction. -/
def Group.pending (g : Group) (t : Touch) : Bool :=
  g.pend.any fun p => match p.on with
    | .reg n => t.regs.contains n
    | .scalar n => t.scalars.contains n
    | .pred n => t.preds.contains n

/-! ## Occupancy (R129) -/

/-- The registers a lane reads from the reservoir: those of its sources whose selected lane the well does not hold (R124). -/
def Group.laneReads (g : Group) (us : List RegUse) (l : Nat) : List Nat :=
  us.flatMap fun u =>
    if !u.read then []
    else match g.useReg u l with
      | none => []
      | some r => (List.range u.span).filterMap fun i =>
          if (u.lane l).any fun j => g.inWell (r + i) j then none else some (r + i)

/-- m_l: the largest number of distinct registers read from one bank. -/
def bankCost (rs : List Nat) : Nat :=
  (List.range 4).foldl (fun m b => max m ((rs.filter fun r => r % 4 = b).dedup.length)) 0

/-- Σ over the streamed octets of 8 × m_k, with `extra` clk for each (R129, R273); 1 with no active lane (R98). -/
def Group.occupancy (g : Group) (us : List RegUse) (extra : Nat) : Nat :=
  if g.exec = 0#32 then 1
  else (List.range 4).foldl (fun t k =>
    let ls := (lanesOf g.exec).filter fun l => l / 8 = k
    if ls.isEmpty then t
    else t + 8 * (ls.foldl (fun m l => max m (bankCost (g.laneReads us l))) 1) + extra) 0

/-- How long after the first the last streamed octet of an instruction issues (R129). -/
def Group.lastOctet (g : Group) (us : List RegUse) : Nat :=
  ((List.range 4).foldl (fun (e : Nat × Nat) k =>
    let ls := (lanesOf g.exec).filter fun l => l / 8 = k
    if ls.isEmpty then e else (e.2, e.2 + 8 * (ls.foldl (fun m l => max m (bankCost (g.laneReads us l))) 1))) (0, 0)).1

/-! ## Writing (R119, R123, R126) -/

/-- A register becomes live (R126). -/
def Group.enliven (g : Group) (n : Nat) : Group := { g with dead := g.dead.filter (· ≠ n) }

/-- A dead mark: the register's well entry is emptied without write-back (R126). -/
def Group.markDead (g : Group) (n : Nat) : Group :=
  { g with dead := if g.dead.contains n then g.dead else n :: g.dead,
           well := match g.well.find (n % 8) with
             | some e => if e.reg = n then g.well.del (n % 8) else g.well
             | none => g.well }

/-- Write lanes of a register to the reservoir, updating the lanes the well holds (R123, not keep). -/
def Group.writeRes (g : Group) (n : Nat) (mask : Word) (v : Lanes) : Group :=
  let g1 := { g with regs := g.regs.put n (mergeLanes mask v (g.regs.get zeroLanes n)) }
  match g.well.find (n % 8) with
  | some e =>
    if e.reg = n then { g1 with well := g.well.put (n % 8) { e with vals := mergeLanes (mask &&& e.valid) v e.vals } } else g1
  | none => g1

/-- Write lanes of a register with keep; the clk of a write-back it forces (R123). -/
def Group.writeKeep (g : Group) (n : Nat) (mask : Word) (v : Lanes) : Group × Nat :=
  let fresh : WellEntry := { reg := n, valid := mask, dirty := true, vals := mergeLanes mask v zeroLanes }
  match g.well.find (n % 8) with
  | none => ({ g with well := g.well.put (n % 8) fresh }, 0)
  | some e =>
    if e.reg = n then
      ({ g with well := g.well.put (n % 8) { e with valid := e.valid ||| mask, dirty := true, vals := mergeLanes mask v e.vals } }, 0)
    else ({ g with regs := writeBack g.regs e, well := g.well.put (n % 8) fresh }, if e.dirty then 32 else 0)

/-- Write the lanes of `mask` to a per-lane destination: a register, v[i] lane by lane, or n0, which writes the nib only. -/
def Group.writeDst (g : Group) (spec : BitVec 8) (keep : Bool) (mask : Word) (v : Lanes) : Group × Nat :=
  if mask = 0#32 then (g, 0)
  else match specKind spec with
    | .reg n => if keep then (g.enliven n).writeKeep n mask v else ((g.enliven n).writeRes n mask v, 0)
    | .index n =>
      ((lanesOf mask).foldl (fun (h : Group) l => (h.enliven (g.ixReg n l)).writeRes (g.ixReg n l) (1#32 <<< l) v) g, 0)
    | _ => (g, 0)

/-- n0 after a producer: the result in active lanes, the destination's value before elsewhere, or 0 when it is n0 (R119). -/
def Group.nibOf (g : Group) (spec : BitVec 8) (mask : Word) (v : Lanes) : Lanes :=
  Lanes.ofFn fun l =>
    if mask.getLsbD l then v.at l
    else match specKind spec with
      | .reg n => g.regLane n l
      | .index n => g.regLane (g.ixReg n l) l
      | _ => 0#32

/-- A load or atomic takes its destination out of the well; the clk of a write-back (R123). -/
def Group.evict (g : Group) (n : Nat) : Group × Nat :=
  match g.well.find (n % 8) with
  | some e =>
    if e.reg = n then ({ g with regs := writeBack g.regs e, well := g.well.del (n % 8) }, if e.dirty then 32 else 0) else (g, 0)
  | none => (g, 0)

/-! ## Format V -/

/-- The operands of an instruction of format V. A short form reads by identity, marks nothing, and its C is the immediate 0
(R133, R271). -/
structure VArgs where
  d : BitVec 8
  a : BitVec 8
  b : BitVec 8
  c : BitVec 8
  pata : Nat
  para : Nat
  patb : Nat
  parb : Nat
  deadA : Bool
  deadB : Bool
  deadC : Bool
  keep : Bool
  rsvd : Bool
  deriving DecidableEq, Repr

def vShort (f : VFmt) : VArgs :=
  { d := f.d, a := f.a, b := f.b, c := 0xe0#8, pata := 0, para := 0, patb := 0, parb := 0, deadA := false, deadB := false,
    deadC := false, keep := false, rsvd := false }

def vLong (f : VFmt) (x : VLong) : VArgs :=
  { d := f.d, a := f.a, b := f.b, c := x.c, pata := x.pata.toNat, para := x.para.toNat, patb := x.patb.toNat, parb := x.parb.toNat,
    deadA := x.deadA = 1#1, deadB := x.deadB = 1#1, deadC := x.deadC = 1#1, keep := x.keep = 1#1, rsvd := x.rsvd != 0#2 }

/-- What a position of an instruction holds (R271, R272). -/
inductive Pos where
  | src (k : OpKind)
  | mode (codes : Nat)
  | unused
  | scalarSrc
  | uniformSrc
  | predSrc
  deriving DecidableEq, Repr

/-- What D holds: a per-lane destination, one read as well (IADDI, MOVHI), a predicate byte with so many FN codes, a per-lane
destination or a scalar, a scalar, or a per-lane source (AST). -/
inductive DPos where
  | lanes
  | pred (codes : Nat)
  | lanesOrScalar
  | scalar
  | laneReg
  | source
  deriving DecidableEq, Repr

/-- Which field of HAND an instruction checks (R202). -/
inductive HandUse where
  | none | h16 | q8
  deriving DecidableEq, Repr

/-- The shape of an instruction of format V. `perLane` is its manner (R266), `extra` its term for each octet (R273), `setsXbc` whether a bcast
of it may set XBC (R134, R288, R290). -/
structure VShape where
  d : DPos
  a : Pos
  b : Pos
  c : Pos
  perLane : Bool
  hand : HandUse
  extra : Nat
  setsXbc : Bool := true
  deriving DecidableEq, Repr

def lane1 (k : OpKind) : VShape :=
  { d := .lanes, a := .src k, b := .unused, c := .unused, perLane := true, hand := .none, extra := 0 }
def lane2 (k : OpKind) : VShape := { lane1 k with b := .src k }
def lane3 (k : OpKind) : VShape := { lane2 k with c := .src k }
def laneMode (k : OpKind) (n : Nat) : VShape := { lane1 k with b := .mode n }
def lanePred (k : OpKind) (n : Nat) : VShape := { lane2 k with d := .pred n }
def scalar2 : VShape :=
  { d := .scalar, a := .uniformSrc, b := .uniformSrc, c := .unused, perLane := false, hand := .none, extra := 0 }

/-- The shape of every opcode of format V (R271 to R294, R373); none for other opcodes. -/
def vShape (op : Nat) : Option VShape :=
  match op with
  | 0x20 | 0x21 | 0x22 | 0x23 | 0x24 | 0x28 | 0x29 | 0x2a | 0x2b | 0x2c => some (lane2 .int)
  | 0x25 | 0x26 => some (lane3 .int)
  | 0x27 => some (lane1 .int)
  | 0x2d | 0x2e => some (lanePred .int 6)
  | 0x30 | 0x31 | 0x32 | 0x33 | 0x34 | 0x35 | 0x36 | 0x37 | 0x3b => some (lane2 .int)
  | 0x38 | 0x39 | 0x3a => some (lane1 .int)
  | 0x3c | 0x3d => some (lane3 .int)
  | 0x40 | 0x41 | 0x42 | 0x44 | 0x45 => some (lane2 .fp)
  | 0x43 => some (lane3 .fp)
  | 0x46 => some (lanePred .fp 8)
  | 0x47 | 0x48 | 0x49 => some { lane1 .fp with extra := 8 }
  | 0x4a | 0x4b | 0x4c | 0x4d | 0x4e => some { lane1 .fp with extra := 16 }
  | 0x4f => some (lane1 .fp)
  | 0x50 | 0x51 | 0x53 | 0x54 => some { lane2 .half with hand := .h16 }
  | 0x52 => some { lane3 .half with hand := .h16 }
  | 0x55 => some { lanePred .half 32 with hand := .h16 }
  | 0x56 => some { lane3 .int with c := .src .fp, hand := .q8 }
  | 0x60 => some (laneMode .fp 7)
  | 0x61 => some (laneMode .int 4)
  | 0x62 => some { lane2 .fp with hand := .h16 }
  | 0x63 => some { laneMode .half 2 with hand := .h16 }
  | 0x64 => some { lane2 .fp with c := .src .int, hand := .q8 }
  | 0x65 => some { laneMode .int 4 with hand := .q8 }
  | 0x66 => some { lane2 .fp with c := .src .int }
  | 0x67 => some (laneMode .int 8)
  | 0x68 => some { lane1 .fp with b := .src .int }
  | 0x69 => some (laneMode .fp 5)
  | 0x70 => some (lane1 .int)
  | 0x71 => some { lane2 .int with c := .predSrc }
  | 0x72 => some { lane2 .int with setsXbc := false }
  | 0x73 => some (laneMode .int 8)
  | 0x74 => some (laneMode .fp 3)
  | 0x75 => some { laneMode .int 8 with d := .lanesOrScalar }
  | 0x76 => some { laneMode .fp 3 with d := .lanesOrScalar }
  | 0x77 => some { lane1 .int with d := .scalar, b := .uniformSrc, setsXbc := false }
  | 0x78 => some { lane1 .int with d := .pred 3 }
  | 0x79 => some { scalar2 with d := .pred 6, a := .predSrc, b := .predSrc }
  | 0xb8 => some { lane2 .int with d := .laneReg }
  | 0xb9 => some { lane2 .int with d := .source }
  | 0xd0 | 0xd1 | 0xd2 | 0xd3 | 0xd4 | 0xd5 | 0xd6 | 0xd7 | 0xdc | 0xdd => some scalar2
  | 0xd8 => some { scalar2 with d := .pred 10 }
  | 0xdb => some { scalar2 with c := .scalarSrc }
  | _ => none

/-- The sources of an instruction by its shape. -/
def VArgs.srcA (v : VArgs) (sh : VShape) : Src :=
  { spec := v.a, pat := v.pata, par := v.para, dead := v.deadA, kind := match sh.a with | .src k => k | _ => .int }
def VArgs.srcB (v : VArgs) (sh : VShape) : Src :=
  { spec := v.b, pat := v.patb, par := v.parb, dead := v.deadB, kind := match sh.b with | .src k => k | _ => .int }
def VArgs.srcC (v : VArgs) (sh : VShape) : Src :=
  { spec := v.c, pat := 0, par := 0, dead := v.deadC, kind := match sh.c with | .src k => k | _ => .int }
def VArgs.srcD (v : VArgs) : Src := { spec := v.d, pat := 0, par := 0, dead := false, kind := .int }

/-- Whether a position holds a source that is read. -/
def Pos.isSrc : Pos → Bool
  | .src _ => true
  | _ => false

/-- Whether a position holds what takes no dead mark whatever it names: a mode operand or a predicate (R126). -/
def Pos.noMark : Pos → Bool
  | .mode _ => true
  | .predSrc => true
  | _ => false

/-- The operands that R128, the scoreboard and the occupancy look at. -/
def VArgs.uses (v : VArgs) (sh : VShape) : List RegUse :=
  let own (p : Pos) (x : Src) : List RegUse := match p with
    | .src _ => [x.use]
    | .scalarSrc => [x.use]
    | .uniformSrc => [x.use]
    | _ => []
  own sh.a (v.srcA sh) ++ own sh.b (v.srcB sh) ++ own sh.c (v.srcC sh) ++ (match sh.d with
    | .pred _ => []
    | .source => [v.srcD.use]
    | _ => [useOf v.d false 1])

/-- Whether a field of a position breaks R256 step 4. -/
def Pos.badField (p : Pos) (b : BitVec 8) (dead : Bool) : Bool :=
  match p with
  | .unused => b != 0xe0#8 || dead
  | .mode n => isImm b && decide (n ≤ b.toNat - 0xe0)
  | .predSrc => decide (8 ≤ b.toNat)
  | _ => false

/-- Whether a specifier of a position breaks R256 step 5. -/
def Pos.badOperand (p : Pos) (b : BitVec 8) : Bool :=
  match p with
  | .src _ => !isSource b
  | .mode _ => !isImm b
  | .unused => false
  | .scalarSrc => !isScalar b
  | .uniformSrc => !isScalarOrImm b
  | .predSrc => false

def DPos.badField (p : DPos) (d : BitVec 8) : Bool :=
  match p with
  | .pred n => decide (n ≤ d.toNat / 8)
  | _ => false

def DPos.badOperand (p : DPos) (d : BitVec 8) : Bool :=
  match p with
  | .lanes => !isLaneDst d
  | .pred _ => false
  | .lanesOrScalar => !(isLaneDst d || isScalar d)
  | .scalar => !isScalar d
  | .laneReg => !isLaneReg d
  | .source => !(isSource d && (match specKind d with
    | .special n => n == 0
    | _ => true))

/-- The guard byte of SEL: [3] negates (R260). -/
def guardNeg (b : BitVec 8) : Bool := b.getLsbD 3

/-- R256 steps 4 and 5 for format V: a cause with the specifier it names. `op` is the opcode. -/
def VArgs.static (v : VArgs) (op : Nat) (sh : VShape) : Option (Cause × BitVec 8) :=
  let sel := op = 0x71
  let bad4 := v.rsvd
    || (if sel then decide (16 ≤ v.c.toNat) || v.deadC else sh.c.badField v.c v.deadC)
    || sh.a.badField v.a v.deadA || sh.b.badField v.b v.deadB || sh.d.badField v.d
    || (op == 0x72 && v.pata != 0)
    || (op == 0x79 && (match (v.d.toNat / 8) with | 4 => v.b != 0x00#8 | 5 => v.b != 0x00#8 | _ => false))
  if bad4 then some (.illField, 0#8)
  else if sh.a.noMark && v.deadA then some (.illOperand, v.a)
  else if sh.b.noMark && v.deadB then some (.illOperand, v.b)
  else if sh.a.badOperand v.a then some (.illOperand, v.a)
  else if sh.b.badOperand v.b then some (.illOperand, v.b)
  else if sh.c.badOperand v.c then some (.illOperand, v.c)
  else if sh.d.badOperand v.d then some (.illOperand, v.d)
  else if op == 0x72 && (match specKind v.a with | .reg _ => false | .index _ => false | .nib _ => false | _ => true) then
    some (.illOperand, v.a)
  else none

/-- R202 for the field of HAND an instruction uses. -/
def handBad (u : HandUse) (hand : Word) : Bool :=
  match u with
  | .none => false
  | .h16 => (h16Of hand).isNone
  | .q8 => (q8Of hand).isNone

/-- R128 for MOVS, whose source A is read in lane k = B[4:0] alone, whatever its pattern selects (R290, R126): a dead register there raises
DEAD_READ with that lane. -/
def Group.movs128 (g : Group) (v : VArgs) (sh : VShape) : Option Trap :=
  match g.check128 ((v.uses sh).map fun u => if u.spec = v.a then { u with read := false } else u) with
  | some t => some t
  | none =>
    let j := (bits (g.uniform v.b) 0 5).toNat
    if g.exec = 0#32 ∨ g.nlanes ≤ j then none
    else match g.useReg (useOf v.a true 1) j with
      | some r => if g.dead.contains r then some (trapOf .deadRead (auxReg r j)) else none
      | none => none

/-- The checks of R256 steps 4 to 6 for format V, in order. -/
def Group.vTrap (g : Group) (v : VArgs) (op : Nat) (sh : VShape) : Option Trap :=
  match v.static op sh with
  | some (c, b) => some (trapOf c (if c = .illOperand then auxSpec g b else 0#32))
  | none =>
    match (if op = 0x77 then g.movs128 v sh else g.check128 (v.uses sh)) with
    | some t => some t
    | none => if handBad sh.hand g.hand then some (trapOf .illField 0#32) else none

/-- What an instruction of format V touches, for the scoreboard. -/
def Group.vTouch (g : Group) (v : VArgs) (sh : VShape) : Touch :=
  { regs := g.useRegs (v.uses sh), scalars := useScalars (v.uses sh),
    preds := (match sh.d with | .pred _ => [v.d.toNat % 8] | _ => [])
      ++ (match sh.a with | .predSrc => [v.a.toNat % 8] | _ => [])
      ++ (match sh.b with | .predSrc => [v.b.toNat % 8] | _ => [])
      ++ (match sh.c with | .predSrc => [v.c.toNat % 8] | _ => []) }

/-- Dead marks take effect after the sources are read, if any lane is active (R126). -/
def Group.applyDead (g : Group) (v : VArgs) : Group :=
  let go (h : Group) (d : Bool) (b : BitVec 8) : Group :=
    match specKind b with
    | .reg n => if d then h.markDead n else h
    | _ => h
  if g.exec = 0#32 then g else go (go (go g v.deadA v.a) v.deadB v.b) v.deadC v.c

/-- XBC of the sources, if any lane is active; MOVS and PERM set none (R134, R288, R290). -/
def Group.vXbc (g : Group) (v : VArgs) (sh : VShape) : Flags :=
  if g.exec = 0#32 || !sh.setsXbc then 0#32
  else (if sh.a.isSrc then g.xbc (v.srcA sh) else 0#32) ||| (if sh.b.isSrc then g.xbc (v.srcB sh) else 0#32)

/-- What an instruction of format V does to its group: new lane values, or a scalar, or predicate bits, with flags. -/
inductive VEffect where
  | lanes (v : Lanes) (fl : Flags)
  | scalar (v : Option Word) (fl : Flags)
  | pred (bits : Word) (fl : Flags)
  deriving DecidableEq, Repr

/-- The group after an effect, its nib, and the clk it adds (R119, R123, R270). -/
def Group.applyV (g : Group) (v : VArgs) (sh : VShape) (e : VEffect) : Group × Option Lanes × Nat :=
  let g1 := g.applyDead v
  let x := g.vXbc v sh
  match e with
  | .lanes r fl =>
    let (g2, t) := g1.writeDst v.d v.keep g.exec r
    (g2.raiseFlags (fl ||| x), some (g.nibOf v.d g.exec r), t)
  | .scalar r fl =>
    (((match r with | some w => g1.setScalar (v.d.toNat - 0x80) w | none => g1).raiseFlags (fl ||| x)), none, 0)
  | .pred b fl => ((g1.setPred (v.d.toNat % 8) b).raiseFlags (fl ||| x), none, 0)

/-- The operands as the occupancy looks at them: PERM's A is read at the lane its index names (R288). -/
def State.vReads (s : State) (k : GKey) (g : Group) (op : Nat) (v : VArgs) (sh : VShape) : List RegUse :=
  if op = 0x72 then
    [{ (v.srcA sh).use with gather := (List.range 32).map fun l => (bits (s.deliver k g (v.srcB sh) l) 0 5).toNat }, (v.srcB sh).use]
  else v.uses sh

/-- An instruction of format V of the compute chapter: its checks, its wait on the scoreboard, its effect (R270). -/
def State.runV (s : State) (op : Nat) (v : VArgs) (f : GKey → Group → VShape → VEffect) : Host.Outcome State Fault Refusal :=
  s.withIssuer fun k g c =>
    match vShape op with
    | none => s.raise k g (trapOf .illOpc 0#32)
    | some sh =>
      match g.vTrap v op sh with
      | some t => if g.pending (g.vTouch v sh) then s.hold k g else s.raise k g t
      | none =>
        if g.pending (g.vTouch v sh) then s.hold k g
        else
          let (g', nib, t) := g.applyV v sh (f k g sh)
          let occ := if sh.perLane then g.occupancy (s.vReads k g op v sh) sh.extra + t else 1
          s.advance k g' c occ nib

/-- A per-lane result of three operands, with flags that are the OR over the active lanes (R206). -/
def State.laneOp (s : State) (op : Nat) (v : VArgs) (f : Nat → Word → Word → Word → Word → Word × Flags) :
    Host.Outcome State Fault Refusal :=
  s.runV op v fun k g sh =>
    let lv := s.level k g
    let r (l : Nat) : Word × Flags :=
      f lv g.hand (s.deliver k g (v.srcA sh) l) (s.deliver k g (v.srcB sh) l) (s.deliver k g (v.srcC sh) l)
    .lanes (Lanes.ofFn fun l => (r l).1) ((lanesOf g.exec).foldl (fun fl l => fl ||| (r l).2) 0#32)

/-- A per-lane test that writes a predicate. -/
def State.lanePredOp (s : State) (op : Nat) (v : VArgs) (f : Nat → Word → Word → Word → Bool × Flags) :
    Host.Outcome State Fault Refusal :=
  s.runV op v fun k g sh =>
    let lv := s.level k g
    let r (l : Nat) : Bool × Flags := f lv g.hand (s.deliver k g (v.srcA sh) l) (s.deliver k g (v.srcB sh) l)
    .pred (maskedBits g.exec (g.pred (v.d.toNat % 8)) fun l => (r l).1)
      ((lanesOf g.exec).foldl (fun fl l => fl ||| (r l).2) 0#32)

end Sys2Proof.Machine
end

