-- ==== Sys2Proof/Machine/Compute.lean ====
section
/-! DEFINITION. The compute instructions (R270 to R294): integer, bitwise, FP32, packed, conversion, lanes, predicates and
scalars. Each has a meaning for its short form and one for its long form, over one result function. -/

namespace Sys2Proof.Machine

/-- A result function that uses neither the level nor HAND and sets no flag. -/
def plain (h : Word → Word → Word → Word) : Nat → Word → Word → Word → Word → Word × Flags := fun _ _ a b c => (h a b c, 0#32)

/-! ## Integer arithmetic (R274) -/

def resAdd (a b _c : Word) : Word := a + b
def resSub (a b _c : Word) : Word := a - b
def resMul (a b _c : Word) : Word := a * b
/-- Bits [63:32] of the signed product. -/
def resMulhs (a b _c : Word) : Word := BitVec.ofInt 32 (a.toInt * b.toInt / 4294967296)
/-- Bits [63:32] of the unsigned product. -/
def resMulhu (a b _c : Word) : Word := BitVec.ofNat 32 (a.toNat * b.toNat / 4294967296)
def resMad (a b c : Word) : Word := a * b + c
/-- The carry out of a + b + (c and 1). -/
def resAddc (a b c : Word) : Word := BitVec.ofNat 32 ((a.toNat + b.toNat + c.toNat % 2) / 4294967296)
def resAbs (a _b _c : Word) : Word := if a.msb then -a else a
def resMin (a b _c : Word) : Word := if BitVec.slt b a then b else a
def resMax (a b _c : Word) : Word := if BitVec.slt a b then b else a
def resMinu (a b _c : Word) : Word := if BitVec.ult b a then b else a
def resMaxu (a b _c : Word) : Word := if BitVec.ult a b then b else a
/-- Signed a + b clamped; a clamp sets SATD. -/
def resAdds (_lv : Nat) (_hand : Word) (a b _c : Word) : Word × Flags :=
  let t := a.toInt + b.toInt
  let r := clampInt (-2147483648) 2147483647 t
  (BitVec.ofInt 32 r, flagIf (decide (r ≠ t)) flagSATD)

/-! ## Bitwise, shifts and fields (R276, R277) -/

def resAnd (a b _c : Word) : Word := a &&& b
def resOr (a b _c : Word) : Word := a ||| b
def resXor (a b _c : Word) : Word := a ^^^ b
def resAndn (a b _c : Word) : Word := a &&& ~~~b
def resShl (a b _c : Word) : Word := a <<< (bits b 0 8).toNat
def resShr (a b _c : Word) : Word := a >>> (bits b 0 8).toNat
def resSar (a b _c : Word) : Word := a.sshiftRight (bits b 0 8).toNat
def resRot (a b _c : Word) : Word := a.rotateLeft (bits b 0 5).toNat
def resPopc (a _b _c : Word) : Word := BitVec.ofNat 32 (lanesOf a).length
/-- Leading zero bits: 31 less the highest set bit; 32 for 0. -/
def resClz (a _b _c : Word) : Word := BitVec.ofNat 32 (if a = 0#32 then 32 else 31 - Nat.log2 a.toNat)
def resBrev (a _b _c : Word) : Word := a.reverse
/-- The position and length of a field: n' = min (n, 32 − p). -/
def bitField (b : Word) : Nat × Nat :=
  let p := (bits b 0 5).toNat
  (p, min (bits b 8 6).toNat (32 - p))
def resBfx (a b _c : Word) : Word :=
  let (p, n) := bitField b
  let low := BitVec.ofNat 32 (2 ^ n - 1)
  let r := (a >>> p) &&& low
  if b.getLsbD 16 && decide (0 < n) && a.getLsbD (p + n - 1) then r ||| ~~~low else r
def resBfi (a b c : Word) : Word :=
  let (p, n) := bitField b
  let mask := BitVec.ofNat 32 ((2 ^ n - 1) * 2 ^ p)
  (c &&& ~~~mask) ||| ((a <<< p) &&& mask)
/-- Bit i is bit (a_i + 2·b_i + 4·c_i) of the table. -/
def resBfn3 (tt : Nat) (a b c : Word) : Word :=
  maskedBits 0xffffffff#32 0#32 fun i =>
    tt / 2 ^ ((if a.getLsbD i then 1 else 0) + (if b.getLsbD i then 2 else 0) + (if c.getLsbD i then 4 else 0)) % 2 == 1
/-- BFN3's arguments: its table stands where A's pattern would (R260, R277). -/
def bfn3Args (f : VFmt) (x : VLong) : VArgs := { vLong f x with pata := 0, para := 0 }
def bfn3Table (x : VLong) : Nat := x.pata.toNat * 32 + x.para.toNat

/-! ## FP32 (R278 to R282) -/

def fp2 (op : Ctxt → FV → FV → Nat × Flags) : Nat → Word → Word → Word → Word → Word × Flags :=
  fun lv _ a b _ => toWord (op (ctx32 lv) (f32 a) (f32 b))
def fp1 (fn : Fun1) : Nat → Word → Word → Word → Word → Word × Flags := fun lv _ a _ _ => toWord (funF (ctx32 lv) fn (f32 a))
def resFma : Nat → Word → Word → Word → Word → Word × Flags := fun lv _ a b c => toWord (fmaF (ctx32 lv) (f32 a) (f32 b) (f32 c))
def resClass (a _b _c : Word) : Word := classF (f32 a)

/-! ## Packed 16-bit and the dot product (R283 to R285) -/

def pk (op : Ctxt → FV → FV → FV → Nat × Flags) : Nat → Word → Word → Word → Word → Word × Flags :=
  fun lv hand a b c => packed2 lv hand ((h16Of hand).getD fp16) op a b c
def resDot : Nat → Word → Word → Word → Word → Word × Flags := fun lv hand a b c => qdot4 lv hand ((q8Of hand).getD e4m3) a b c

/-! ## Conversion and scaling (R286) -/

/-- The code of a mode operand (R272). -/
def modeOf (b : BitVec 8) : Nat := b.toNat - 0xe0
def resF2i (m : Nat) : Nat → Word → Word → Word → Word → Word × Flags := fun _ _ a _ _ => (f2i m a).getD (0#32, 0#32)
def resI2f (m : Nat) : Nat → Word → Word → Word → Word → Word × Flags := fun _ _ a _ _ => (i2f m a).getD (0#32, 0#32)
/-- Two values narrowed, the second above the first by `k` bits, below `keep` shifted up. -/
def pack2 (f : Fmt) (k : Nat) (keep : Word) : Nat → Word → Word → Word → Word × Flags := fun lv hand a b =>
  let p := narrowTo lv (satOf hand) f (f32 a)
  let q := narrowTo lv (satOf hand) f (f32 b)
  (keep ||| BitVec.ofNat 32 (q.1 * 2 ^ k + p.1), p.2 ||| q.2)
def resF2h : Nat → Word → Word → Word → Word → Word × Flags := fun lv hand a b _ => pack2 ((h16Of hand).getD fp16) 16 0#32 lv hand a b
def resF2q : Nat → Word → Word → Word → Word → Word × Flags := fun lv hand a b c =>
  pack2 ((q8Of hand).getD e4m3) 8 (c <<< 16) lv hand a b
def resF2n : Nat → Word → Word → Word → Word → Word × Flags := fun lv hand a b c => pack2 e2m1 4 (c <<< 8) lv hand a b
/-- Element `m` of a vector of `w`-bit elements, widened (R205). -/
def widenAt (lv : Nat) (hand : Word) (f : Fmt) (m : Nat) (a : Word) : Word × Flags :=
  widen lv f (readElem lv hand f ((a >>> (m * f.w)).toNat % 2 ^ f.w))
def resH2f (m : Nat) : Nat → Word → Word → Word → Word → Word × Flags := fun lv hand a _ _ =>
  widenAt lv hand ((h16Of hand).getD fp16) m a
def resQ2f (m : Nat) : Nat → Word → Word → Word → Word → Word × Flags := fun lv hand a _ _ =>
  widenAt lv hand ((q8Of hand).getD e4m3) m a
def resN2f (m : Nat) : Nat → Word → Word → Word → Word → Word × Flags := fun lv hand a _ _ => widenAt lv hand e2m1 m a
def resBscl : Nat → Word → Word → Word → Word → Word × Flags := fun lv _ a b _ => bscl lv a b
def resFrnd (m : Nat) : Nat → Word → Word → Word → Word → Word × Flags := fun lv _ a _ _ => (frnd lv m a).getD (0#32, 0#32)

/-! ## Moving, permuting, scanning and reducing (R287 to R290) -/

def resMov (a _b _c : Word) : Word := a

/-- SEL: A where the guard is true, else B (R287). -/
def State.selOp (s : State) (v : VArgs) : Host.Outcome State Fault Refusal :=
  s.runV 0x71 v fun k g sh =>
    let p := g.pred (v.c.toNat % 8)
    .lanes (Lanes.ofFn fun l =>
      if p.getLsbD l != guardNeg v.c then s.deliver k g (v.srcA sh) l else s.deliver k g (v.srcB sh) l) 0#32

/-- PERM: lane B(l)[4:0] of A (R288). A's bank is counted once a lane, for the lane selected. -/
def State.permOp (s : State) (v : VArgs) : Host.Outcome State Fault Refusal :=
  s.runV 0x72 v fun k g sh =>
    .lanes (Lanes.ofFn fun l =>
      s.deliverAt k g (v.srcA sh) l (some (bits (s.deliver k g (v.srcB sh) l) 0 5).toNat)) 0#32

/-- The integer combinations of R289. -/
def combineInt (m : Nat) (a x : Word) : Word :=
  match m with
  | 0 => a + x
  | 1 => resMin a x 0#32
  | 2 => resMax a x 0#32
  | 3 => resMinu a x 0#32
  | 4 => resMaxu a x 0#32
  | 5 => a &&& x
  | 6 => a ||| x
  | _ => a ^^^ x

/-- The FP combinations of R289. -/
def combineFp (lv m : Nat) (a x : Word) : Word × Flags :=
  match m with
  | 0 => toWord (addF (ctx32 lv) (f32 a) (f32 x))
  | 1 => toWord (minMaxF (ctx32 lv) false (f32 a) (f32 x))
  | _ => toWord (minMaxF (ctx32 lv) true (f32 a) (f32 x))

/-- The partial results of a scan in ascending lanes, with the flags of its steps. -/
def scanLanes (op : Word → Word → Word × Flags) (vs : List (Nat × Word)) : List (Nat × Word) × Flags :=
  match vs with
  | [] => ([], 0#32)
  | (l, v) :: r =>
    let z := r.foldl (fun (a : List (Nat × Word) × Word × Flags) x =>
      let y := op a.2.1 x.2
      (a.1 ++ [(x.1, y.1)], y.1, a.2.2 ||| y.2)) ([(l, v)], v, 0#32)
    (z.1, z.2.2)

/-- ISCAN, FSCAN, IRED and FRED (R289). -/
def State.scanOp (s : State) (op : Nat) (v : VArgs) (scan fp : Bool) : Host.Outcome State Fault Refusal :=
  s.runV op v fun k g sh =>
    let lv := s.level k g
    let m := modeOf v.b
    let comb (a x : Word) : Word × Flags := if fp then combineFp lv m a x else (combineInt m a x, 0#32)
    let (rs, fl) := scanLanes comb ((lanesOf g.exec).map fun l => (l, s.deliver k g (v.srcA sh) l))
    let last := (rs.getLast?).map (·.2)
    if scan then .lanes (Lanes.ofFn fun l => ((assocGet rs l).getD 0#32)) fl
    else if isScalar v.d then .scalar last fl
    else .lanes (Lanes.ofFn fun _ => last.getD 0#32) fl

/-- MOVS: the lane k = B[4:0] of A to a scalar; no effect with EXEC = 0 (R290). -/
def State.movsOp (s : State) (v : VArgs) : Host.Outcome State Fault Refusal :=
  s.runV 0x77 v fun k g sh =>
    let j := (bits (g.uniform v.b) 0 5).toNat
    .scalar (if g.exec = 0#32 then none else some (if g.nlanes ≤ j then 0#32 else s.deliverAt k g (v.srcA sh) j (some j))) 0#32

/-! ## Predicates (R291, R292, R275, R281, R284) -/

def tstI (cond : Nat → Word → Word → Option Bool) (fn : Nat) : Nat → Word → Word → Word → Bool × Flags :=
  fun _ _ a b => ((cond fn a b).getD false, 0#32)
def tstF (fn : Nat) : Nat → Word → Word → Word → Bool × Flags := fun _ _ a b => (condF fn (f32 a) (f32 b)).getD (false, 0#32)
def tstH (fn : Nat) : Nat → Word → Word → Word → Bool × Flags := fun lv hand a b => condH lv hand ((h16Of hand).getD fp16) fn a b
def tstP (fn : Nat) : Nat → Word → Word → Word → Bool × Flags := fun _ _ a _ =>
  (match fn with | 0 => a != 0#32 | 1 => a.msb | _ => a.getLsbD 0, 0#32)
/-- FN of a predicate destination byte (R260). -/
def fnOf (d : BitVec 8) : Nat := d.toNat / 8

/-- PLOG, uniform over all 32 bits (R292). -/
def State.plogOp (s : State) (v : VArgs) : Host.Outcome State Fault Refusal :=
  s.runV 0x79 v fun _ g _ =>
    let a := g.pred (v.a.toNat % 8)
    let b := g.pred (v.b.toNat % 8)
    .pred (match fnOf v.d with
      | 0 => a &&& b
      | 1 => a ||| b
      | 2 => a ^^^ b
      | 3 => a &&& ~~~b
      | 4 => ~~~a
      | _ => a) 0#32

/-! ## Scalars (R293, R294) -/

def State.scalarOp (s : State) (op : Nat) (v : VArgs) (h : Word → Word → Word → Word) : Host.Outcome State Fault Refusal :=
  s.runV op v fun _ g _ => .scalar (some (h (g.uniform v.a) (g.uniform v.b) 0#32)) 0#32

/-- SCMP sets every bit of the predicate. -/
def State.scmpOp (s : State) (v : VArgs) : Host.Outcome State Fault Refusal :=
  s.runV 0xd8 v fun _ g _ =>
    .pred (if (condScalar (fnOf v.d) (g.uniform v.a) (g.uniform v.b)).getD false then 0xffffffff#32 else 0#32) 0#32

def State.sselOp (s : State) (v : VArgs) : Host.Outcome State Fault Refusal :=
  s.runV 0xdb v fun _ g _ => .scalar (some (if g.uniform v.c = 0#32 then g.uniform v.b else g.uniform v.a)) 0#32

/-! ## Format VI: IADDI, MOVI, MOVHI, SMOVI, SMOVHI (R274, R276, R293) -/

/-- A per-lane instruction of format VI; `reads` says whether it reads its destination. -/
def State.laneImm (s : State) (f : VIFmt) (reads : Bool) (h : Word → Word) : Host.Outcome State Fault Refusal :=
  s.withIssuer fun k g c =>
    let us : List RegUse := [useOf f.d reads 1]
    let v : VArgs := vShort { d := f.d, a := 0xe0#8, b := 0xe0#8 }
    let old : Src := { spec := f.d, pat := 0, par := 0, dead := false, kind := .int }
    if !isLaneDst f.d then s.raise k g (trapOf .illOperand (auxSpec g f.d))
    else if g.pending { regs := g.useRegs us, scalars := [], preds := [] } then s.hold k g
    else match g.check128 us with
      | some t => s.raise k g t
      | none =>
        let (g', nib, t) := g.applyV v (lane1 .int) (.lanes (Lanes.ofFn fun l => h (s.deliver k g old l)) 0#32)
        s.advance k g' c (g.occupancy us 0 + t) nib

/-- A uniform instruction of format VI that writes a scalar. -/
def State.scalarImm (s : State) (f : VIFmt) (h : Word → Word) : Host.Outcome State Fault Refusal :=
  s.withIssuer fun k g c =>
    let n := f.d.toNat - 0x80
    if !isScalar f.d then s.raise k g (trapOf .illOperand (auxSpec g f.d))
    else if g.pending { regs := [], scalars := [n], preds := [] } then s.hold k g
    else s.advance k (g.setScalar n (h (g.scalar n))) c 1 none

/-- (IMM << 16) or (old and 0xffff). -/
def highImm (imm : BitVec 16) (old : Word) : Word := imm ++ old.extractLsb' 0 16

/-! ## The instructions -/

/-- IADD (0x20). -/
def execIadd (f : VFmt) (s : State) : Host.Outcome State Fault Refusal := s.laneOp 0x20 (vShort f) (plain resAdd)
/-- IADD, long form. -/
def execIaddLong (f : VFmt) (x : VLong) (s : State) : Host.Outcome State Fault Refusal := s.laneOp 0x20 (vLong f x) (plain resAdd)

/-- ISUB (0x21). -/
def execIsub (f : VFmt) (s : State) : Host.Outcome State Fault Refusal := s.laneOp 0x21 (vShort f) (plain resSub)
/-- ISUB, long form. -/
def execIsubLong (f : VFmt) (x : VLong) (s : State) : Host.Outcome State Fault Refusal := s.laneOp 0x21 (vLong f x) (plain resSub)

/-- IMUL (0x22). -/
def execImul (f : VFmt) (s : State) : Host.Outcome State Fault Refusal := s.laneOp 0x22 (vShort f) (plain resMul)
/-- IMUL, long form. -/
def execImulLong (f : VFmt) (x : VLong) (s : State) : Host.Outcome State Fault Refusal := s.laneOp 0x22 (vLong f x) (plain resMul)

/-- IMULHS (0x23). -/
def execImulhs (f : VFmt) (s : State) : Host.Outcome State Fault Refusal := s.laneOp 0x23 (vShort f) (plain resMulhs)
/-- IMULHS, long form. -/
def execImulhsLong (f : VFmt) (x : VLong) (s : State) : Host.Outcome State Fault Refusal := s.laneOp 0x23 (vLong f x) (plain resMulhs)

/-- IMULHU (0x24). -/
def execImulhu (f : VFmt) (s : State) : Host.Outcome State Fault Refusal := s.laneOp 0x24 (vShort f) (plain resMulhu)
/-- IMULHU, long form. -/
def execImulhuLong (f : VFmt) (x : VLong) (s : State) : Host.Outcome State Fault Refusal := s.laneOp 0x24 (vLong f x) (plain resMulhu)

/-- IMAD (0x25). -/
def execImad (f : VFmt) (s : State) : Host.Outcome State Fault Refusal := s.laneOp 0x25 (vShort f) (plain resMad)
/-- IMAD, long form. -/
def execImadLong (f : VFmt) (x : VLong) (s : State) : Host.Outcome State Fault Refusal := s.laneOp 0x25 (vLong f x) (plain resMad)

/-- IADDC (0x26). -/
def execIaddc (f : VFmt) (s : State) : Host.Outcome State Fault Refusal := s.laneOp 0x26 (vShort f) (plain resAddc)
/-- IADDC, long form. -/
def execIaddcLong (f : VFmt) (x : VLong) (s : State) : Host.Outcome State Fault Refusal := s.laneOp 0x26 (vLong f x) (plain resAddc)

/-- IABS (0x27). -/
def execIabs (f : VFmt) (s : State) : Host.Outcome State Fault Refusal := s.laneOp 0x27 (vShort f) (plain resAbs)
/-- IABS, long form. -/
def execIabsLong (f : VFmt) (x : VLong) (s : State) : Host.Outcome State Fault Refusal := s.laneOp 0x27 (vLong f x) (plain resAbs)

/-- IMIN (0x28). -/
def execImin (f : VFmt) (s : State) : Host.Outcome State Fault Refusal := s.laneOp 0x28 (vShort f) (plain resMin)
/-- IMIN, long form. -/
def execIminLong (f : VFmt) (x : VLong) (s : State) : Host.Outcome State Fault Refusal := s.laneOp 0x28 (vLong f x) (plain resMin)

/-- IMAX (0x29). -/
def execImax (f : VFmt) (s : State) : Host.Outcome State Fault Refusal := s.laneOp 0x29 (vShort f) (plain resMax)
/-- IMAX, long form. -/
def execImaxLong (f : VFmt) (x : VLong) (s : State) : Host.Outcome State Fault Refusal := s.laneOp 0x29 (vLong f x) (plain resMax)

/-- IMINU (0x2a). -/
def execIminu (f : VFmt) (s : State) : Host.Outcome State Fault Refusal := s.laneOp 0x2a (vShort f) (plain resMinu)
/-- IMINU, long form. -/
def execIminuLong (f : VFmt) (x : VLong) (s : State) : Host.Outcome State Fault Refusal := s.laneOp 0x2a (vLong f x) (plain resMinu)

/-- IMAXU (0x2b). -/
def execImaxu (f : VFmt) (s : State) : Host.Outcome State Fault Refusal := s.laneOp 0x2b (vShort f) (plain resMaxu)
/-- IMAXU, long form. -/
def execImaxuLong (f : VFmt) (x : VLong) (s : State) : Host.Outcome State Fault Refusal := s.laneOp 0x2b (vLong f x) (plain resMaxu)

/-- IADDS (0x2c). -/
def execIadds (f : VFmt) (s : State) : Host.Outcome State Fault Refusal := s.laneOp 0x2c (vShort f) resAdds
/-- IADDS, long form. -/
def execIaddsLong (f : VFmt) (x : VLong) (s : State) : Host.Outcome State Fault Refusal := s.laneOp 0x2c (vLong f x) resAdds

/-- ICMP (0x2d). -/
def execIcmp (f : VFmt) (s : State) : Host.Outcome State Fault Refusal := s.lanePredOp 0x2d (vShort f) (tstI condSigned (fnOf f.d))
/-- ICMP, long form. -/
def execIcmpLong (f : VFmt) (x : VLong) (s : State) : Host.Outcome State Fault Refusal := s.lanePredOp 0x2d (vLong f x) (tstI condSigned (fnOf f.d))

/-- ICMPU (0x2e). -/
def execIcmpu (f : VFmt) (s : State) : Host.Outcome State Fault Refusal := s.lanePredOp 0x2e (vShort f) (tstI condUnsigned (fnOf f.d))
/-- ICMPU, long form. -/
def execIcmpuLong (f : VFmt) (x : VLong) (s : State) : Host.Outcome State Fault Refusal := s.lanePredOp 0x2e (vLong f x) (tstI condUnsigned (fnOf f.d))

/-- AND (0x30). -/
def execAnd (f : VFmt) (s : State) : Host.Outcome State Fault Refusal := s.laneOp 0x30 (vShort f) (plain resAnd)
/-- AND, long form. -/
def execAndLong (f : VFmt) (x : VLong) (s : State) : Host.Outcome State Fault Refusal := s.laneOp 0x30 (vLong f x) (plain resAnd)

/-- OR (0x31). -/
def execOr (f : VFmt) (s : State) : Host.Outcome State Fault Refusal := s.laneOp 0x31 (vShort f) (plain resOr)
/-- OR, long form. -/
def execOrLong (f : VFmt) (x : VLong) (s : State) : Host.Outcome State Fault Refusal := s.laneOp 0x31 (vLong f x) (plain resOr)

/-- XOR (0x32). -/
def execXor (f : VFmt) (s : State) : Host.Outcome State Fault Refusal := s.laneOp 0x32 (vShort f) (plain resXor)
/-- XOR, long form. -/
def execXorLong (f : VFmt) (x : VLong) (s : State) : Host.Outcome State Fault Refusal := s.laneOp 0x32 (vLong f x) (plain resXor)

/-- ANDN (0x33). -/
def execAndn (f : VFmt) (s : State) : Host.Outcome State Fault Refusal := s.laneOp 0x33 (vShort f) (plain resAndn)
/-- ANDN, long form. -/
def execAndnLong (f : VFmt) (x : VLong) (s : State) : Host.Outcome State Fault Refusal := s.laneOp 0x33 (vLong f x) (plain resAndn)

/-- SHL (0x34). -/
def execShl (f : VFmt) (s : State) : Host.Outcome State Fault Refusal := s.laneOp 0x34 (vShort f) (plain resShl)
/-- SHL, long form. -/
def execShlLong (f : VFmt) (x : VLong) (s : State) : Host.Outcome State Fault Refusal := s.laneOp 0x34 (vLong f x) (plain resShl)

/-- SHR (0x35). -/
def execShr (f : VFmt) (s : State) : Host.Outcome State Fault Refusal := s.laneOp 0x35 (vShort f) (plain resShr)
/-- SHR, long form. -/
def execShrLong (f : VFmt) (x : VLong) (s : State) : Host.Outcome State Fault Refusal := s.laneOp 0x35 (vLong f x) (plain resShr)

/-- SAR (0x36). -/
def execSar (f : VFmt) (s : State) : Host.Outcome State Fault Refusal := s.laneOp 0x36 (vShort f) (plain resSar)
/-- SAR, long form. -/
def execSarLong (f : VFmt) (x : VLong) (s : State) : Host.Outcome State Fault Refusal := s.laneOp 0x36 (vLong f x) (plain resSar)

/-- ROT (0x37). -/
def execRot (f : VFmt) (s : State) : Host.Outcome State Fault Refusal := s.laneOp 0x37 (vShort f) (plain resRot)
/-- ROT, long form. -/
def execRotLong (f : VFmt) (x : VLong) (s : State) : Host.Outcome State Fault Refusal := s.laneOp 0x37 (vLong f x) (plain resRot)

/-- POPC (0x38). -/
def execPopc (f : VFmt) (s : State) : Host.Outcome State Fault Refusal := s.laneOp 0x38 (vShort f) (plain resPopc)
/-- POPC, long form. -/
def execPopcLong (f : VFmt) (x : VLong) (s : State) : Host.Outcome State Fault Refusal := s.laneOp 0x38 (vLong f x) (plain resPopc)

/-- CLZ (0x39). -/
def execClz (f : VFmt) (s : State) : Host.Outcome State Fault Refusal := s.laneOp 0x39 (vShort f) (plain resClz)
/-- CLZ, long form. -/
def execClzLong (f : VFmt) (x : VLong) (s : State) : Host.Outcome State Fault Refusal := s.laneOp 0x39 (vLong f x) (plain resClz)

/-- BREV (0x3a). -/
def execBrev (f : VFmt) (s : State) : Host.Outcome State Fault Refusal := s.laneOp 0x3a (vShort f) (plain resBrev)
/-- BREV, long form. -/
def execBrevLong (f : VFmt) (x : VLong) (s : State) : Host.Outcome State Fault Refusal := s.laneOp 0x3a (vLong f x) (plain resBrev)

/-- BFX (0x3b). -/
def execBfx (f : VFmt) (s : State) : Host.Outcome State Fault Refusal := s.laneOp 0x3b (vShort f) (plain resBfx)
/-- BFX, long form. -/
def execBfxLong (f : VFmt) (x : VLong) (s : State) : Host.Outcome State Fault Refusal := s.laneOp 0x3b (vLong f x) (plain resBfx)

/-- BFI (0x3c). -/
def execBfi (f : VFmt) (s : State) : Host.Outcome State Fault Refusal := s.laneOp 0x3c (vShort f) (plain resBfi)
/-- BFI, long form. -/
def execBfiLong (f : VFmt) (x : VLong) (s : State) : Host.Outcome State Fault Refusal := s.laneOp 0x3c (vLong f x) (plain resBfi)

/-- FADD (0x40). -/
def execFadd (f : VFmt) (s : State) : Host.Outcome State Fault Refusal := s.laneOp 0x40 (vShort f) (fp2 addF)
/-- FADD, long form. -/
def execFaddLong (f : VFmt) (x : VLong) (s : State) : Host.Outcome State Fault Refusal := s.laneOp 0x40 (vLong f x) (fp2 addF)

/-- FSUB (0x41). -/
def execFsub (f : VFmt) (s : State) : Host.Outcome State Fault Refusal := s.laneOp 0x41 (vShort f) (fp2 subF)
/-- FSUB, long form. -/
def execFsubLong (f : VFmt) (x : VLong) (s : State) : Host.Outcome State Fault Refusal := s.laneOp 0x41 (vLong f x) (fp2 subF)

/-- FMUL (0x42). -/
def execFmul (f : VFmt) (s : State) : Host.Outcome State Fault Refusal := s.laneOp 0x42 (vShort f) (fp2 mulF)
/-- FMUL, long form. -/
def execFmulLong (f : VFmt) (x : VLong) (s : State) : Host.Outcome State Fault Refusal := s.laneOp 0x42 (vLong f x) (fp2 mulF)

/-- FFMA (0x43). -/
def execFfma (f : VFmt) (s : State) : Host.Outcome State Fault Refusal := s.laneOp 0x43 (vShort f) resFma
/-- FFMA, long form. -/
def execFfmaLong (f : VFmt) (x : VLong) (s : State) : Host.Outcome State Fault Refusal := s.laneOp 0x43 (vLong f x) resFma

/-- FMIN (0x44). -/
def execFmin (f : VFmt) (s : State) : Host.Outcome State Fault Refusal := s.laneOp 0x44 (vShort f) (fp2 fun c a b => minMaxF c false a b)
/-- FMIN, long form. -/
def execFminLong (f : VFmt) (x : VLong) (s : State) : Host.Outcome State Fault Refusal := s.laneOp 0x44 (vLong f x) (fp2 fun c a b => minMaxF c false a b)

/-- FMAX (0x45). -/
def execFmax (f : VFmt) (s : State) : Host.Outcome State Fault Refusal := s.laneOp 0x45 (vShort f) (fp2 fun c a b => minMaxF c true a b)
/-- FMAX, long form. -/
def execFmaxLong (f : VFmt) (x : VLong) (s : State) : Host.Outcome State Fault Refusal := s.laneOp 0x45 (vLong f x) (fp2 fun c a b => minMaxF c true a b)

/-- FCMP (0x46). -/
def execFcmp (f : VFmt) (s : State) : Host.Outcome State Fault Refusal := s.lanePredOp 0x46 (vShort f) (tstF (fnOf f.d))
/-- FCMP, long form. -/
def execFcmpLong (f : VFmt) (x : VLong) (s : State) : Host.Outcome State Fault Refusal := s.lanePredOp 0x46 (vLong f x) (tstF (fnOf f.d))

/-- FRCP (0x47). -/
def execFrcp (f : VFmt) (s : State) : Host.Outcome State Fault Refusal := s.laneOp 0x47 (vShort f) (fp1 .rcp)
/-- FRCP, long form. -/
def execFrcpLong (f : VFmt) (x : VLong) (s : State) : Host.Outcome State Fault Refusal := s.laneOp 0x47 (vLong f x) (fp1 .rcp)

/-- FRSQ (0x48). -/
def execFrsq (f : VFmt) (s : State) : Host.Outcome State Fault Refusal := s.laneOp 0x48 (vShort f) (fp1 .rsq)
/-- FRSQ, long form. -/
def execFrsqLong (f : VFmt) (x : VLong) (s : State) : Host.Outcome State Fault Refusal := s.laneOp 0x48 (vLong f x) (fp1 .rsq)

/-- FSQRT (0x49). -/
def execFsqrt (f : VFmt) (s : State) : Host.Outcome State Fault Refusal := s.laneOp 0x49 (vShort f) (fp1 .sqrt)
/-- FSQRT, long form. -/
def execFsqrtLong (f : VFmt) (x : VLong) (s : State) : Host.Outcome State Fault Refusal := s.laneOp 0x49 (vLong f x) (fp1 .sqrt)

/-- FEXP2 (0x4a). -/
def execFexp2 (f : VFmt) (s : State) : Host.Outcome State Fault Refusal := s.laneOp 0x4a (vShort f) (fp1 .exp2)
/-- FEXP2, long form. -/
def execFexp2Long (f : VFmt) (x : VLong) (s : State) : Host.Outcome State Fault Refusal := s.laneOp 0x4a (vLong f x) (fp1 .exp2)

/-- FLOG2 (0x4b). -/
def execFlog2 (f : VFmt) (s : State) : Host.Outcome State Fault Refusal := s.laneOp 0x4b (vShort f) (fp1 .log2)
/-- FLOG2, long form. -/
def execFlog2Long (f : VFmt) (x : VLong) (s : State) : Host.Outcome State Fault Refusal := s.laneOp 0x4b (vLong f x) (fp1 .log2)

/-- FSIN (0x4c). -/
def execFsin (f : VFmt) (s : State) : Host.Outcome State Fault Refusal := s.laneOp 0x4c (vShort f) (fp1 .sin)
/-- FSIN, long form. -/
def execFsinLong (f : VFmt) (x : VLong) (s : State) : Host.Outcome State Fault Refusal := s.laneOp 0x4c (vLong f x) (fp1 .sin)

/-- FCOS (0x4d). -/
def execFcos (f : VFmt) (s : State) : Host.Outcome State Fault Refusal := s.laneOp 0x4d (vShort f) (fp1 .cos)
/-- FCOS, long form. -/
def execFcosLong (f : VFmt) (x : VLong) (s : State) : Host.Outcome State Fault Refusal := s.laneOp 0x4d (vLong f x) (fp1 .cos)

/-- FTANH (0x4e). -/
def execFtanh (f : VFmt) (s : State) : Host.Outcome State Fault Refusal := s.laneOp 0x4e (vShort f) (fp1 .tanh)
/-- FTANH, long form. -/
def execFtanhLong (f : VFmt) (x : VLong) (s : State) : Host.Outcome State Fault Refusal := s.laneOp 0x4e (vLong f x) (fp1 .tanh)

/-- FCLASS (0x4f). -/
def execFclass (f : VFmt) (s : State) : Host.Outcome State Fault Refusal := s.laneOp 0x4f (vShort f) (plain resClass)
/-- FCLASS, long form. -/
def execFclassLong (f : VFmt) (x : VLong) (s : State) : Host.Outcome State Fault Refusal := s.laneOp 0x4f (vLong f x) (plain resClass)

/-- HADD2 (0x50). -/
def execHadd2 (f : VFmt) (s : State) : Host.Outcome State Fault Refusal := s.laneOp 0x50 (vShort f) (pk fun c a b _ => addF c a b)
/-- HADD2, long form. -/
def execHadd2Long (f : VFmt) (x : VLong) (s : State) : Host.Outcome State Fault Refusal := s.laneOp 0x50 (vLong f x) (pk fun c a b _ => addF c a b)

/-- HMUL2 (0x51). -/
def execHmul2 (f : VFmt) (s : State) : Host.Outcome State Fault Refusal := s.laneOp 0x51 (vShort f) (pk fun c a b _ => mulF c a b)
/-- HMUL2, long form. -/
def execHmul2Long (f : VFmt) (x : VLong) (s : State) : Host.Outcome State Fault Refusal := s.laneOp 0x51 (vLong f x) (pk fun c a b _ => mulF c a b)

/-- HFMA2 (0x52). -/
def execHfma2 (f : VFmt) (s : State) : Host.Outcome State Fault Refusal := s.laneOp 0x52 (vShort f) (pk fmaF)
/-- HFMA2, long form. -/
def execHfma2Long (f : VFmt) (x : VLong) (s : State) : Host.Outcome State Fault Refusal := s.laneOp 0x52 (vLong f x) (pk fmaF)

/-- HMAX2 (0x53). -/
def execHmax2 (f : VFmt) (s : State) : Host.Outcome State Fault Refusal := s.laneOp 0x53 (vShort f) (pk fun c a b _ => minMaxF c true a b)
/-- HMAX2, long form. -/
def execHmax2Long (f : VFmt) (x : VLong) (s : State) : Host.Outcome State Fault Refusal := s.laneOp 0x53 (vLong f x) (pk fun c a b _ => minMaxF c true a b)

/-- HMIN2 (0x54). -/
def execHmin2 (f : VFmt) (s : State) : Host.Outcome State Fault Refusal := s.laneOp 0x54 (vShort f) (pk fun c a b _ => minMaxF c false a b)
/-- HMIN2, long form. -/
def execHmin2Long (f : VFmt) (x : VLong) (s : State) : Host.Outcome State Fault Refusal := s.laneOp 0x54 (vLong f x) (pk fun c a b _ => minMaxF c false a b)

/-- HCMP2 (0x55). -/
def execHcmp2 (f : VFmt) (s : State) : Host.Outcome State Fault Refusal := s.lanePredOp 0x55 (vShort f) (tstH (fnOf f.d))
/-- HCMP2, long form. -/
def execHcmp2Long (f : VFmt) (x : VLong) (s : State) : Host.Outcome State Fault Refusal := s.lanePredOp 0x55 (vLong f x) (tstH (fnOf f.d))

/-- QDOT4 (0x56). -/
def execQdot4 (f : VFmt) (s : State) : Host.Outcome State Fault Refusal := s.laneOp 0x56 (vShort f) resDot
/-- QDOT4, long form. -/
def execQdot4Long (f : VFmt) (x : VLong) (s : State) : Host.Outcome State Fault Refusal := s.laneOp 0x56 (vLong f x) resDot

/-- F2I (0x60). -/
def execF2i (f : VFmt) (s : State) : Host.Outcome State Fault Refusal := s.laneOp 0x60 (vShort f) (resF2i (modeOf f.b))
/-- F2I, long form. -/
def execF2iLong (f : VFmt) (x : VLong) (s : State) : Host.Outcome State Fault Refusal := s.laneOp 0x60 (vLong f x) (resF2i (modeOf f.b))

/-- I2F (0x61). -/
def execI2f (f : VFmt) (s : State) : Host.Outcome State Fault Refusal := s.laneOp 0x61 (vShort f) (resI2f (modeOf f.b))
/-- I2F, long form. -/
def execI2fLong (f : VFmt) (x : VLong) (s : State) : Host.Outcome State Fault Refusal := s.laneOp 0x61 (vLong f x) (resI2f (modeOf f.b))

/-- F2H (0x62). -/
def execF2h (f : VFmt) (s : State) : Host.Outcome State Fault Refusal := s.laneOp 0x62 (vShort f) resF2h
/-- F2H, long form. -/
def execF2hLong (f : VFmt) (x : VLong) (s : State) : Host.Outcome State Fault Refusal := s.laneOp 0x62 (vLong f x) resF2h

/-- H2F (0x63). -/
def execH2f (f : VFmt) (s : State) : Host.Outcome State Fault Refusal := s.laneOp 0x63 (vShort f) (resH2f (modeOf f.b))
/-- H2F, long form. -/
def execH2fLong (f : VFmt) (x : VLong) (s : State) : Host.Outcome State Fault Refusal := s.laneOp 0x63 (vLong f x) (resH2f (modeOf f.b))

/-- F2Q (0x64). -/
def execF2q (f : VFmt) (s : State) : Host.Outcome State Fault Refusal := s.laneOp 0x64 (vShort f) resF2q
/-- F2Q, long form. -/
def execF2qLong (f : VFmt) (x : VLong) (s : State) : Host.Outcome State Fault Refusal := s.laneOp 0x64 (vLong f x) resF2q

/-- Q2F (0x65). -/
def execQ2f (f : VFmt) (s : State) : Host.Outcome State Fault Refusal := s.laneOp 0x65 (vShort f) (resQ2f (modeOf f.b))
/-- Q2F, long form. -/
def execQ2fLong (f : VFmt) (x : VLong) (s : State) : Host.Outcome State Fault Refusal := s.laneOp 0x65 (vLong f x) (resQ2f (modeOf f.b))

/-- F2N (0x66). -/
def execF2n (f : VFmt) (s : State) : Host.Outcome State Fault Refusal := s.laneOp 0x66 (vShort f) resF2n
/-- F2N, long form. -/
def execF2nLong (f : VFmt) (x : VLong) (s : State) : Host.Outcome State Fault Refusal := s.laneOp 0x66 (vLong f x) resF2n

/-- N2F (0x67). -/
def execN2f (f : VFmt) (s : State) : Host.Outcome State Fault Refusal := s.laneOp 0x67 (vShort f) (resN2f (modeOf f.b))
/-- N2F, long form. -/
def execN2fLong (f : VFmt) (x : VLong) (s : State) : Host.Outcome State Fault Refusal := s.laneOp 0x67 (vLong f x) (resN2f (modeOf f.b))

/-- BSCL (0x68). -/
def execBscl (f : VFmt) (s : State) : Host.Outcome State Fault Refusal := s.laneOp 0x68 (vShort f) resBscl
/-- BSCL, long form. -/
def execBsclLong (f : VFmt) (x : VLong) (s : State) : Host.Outcome State Fault Refusal := s.laneOp 0x68 (vLong f x) resBscl

/-- FRND (0x69). -/
def execFrnd (f : VFmt) (s : State) : Host.Outcome State Fault Refusal := s.laneOp 0x69 (vShort f) (resFrnd (modeOf f.b))
/-- FRND, long form. -/
def execFrndLong (f : VFmt) (x : VLong) (s : State) : Host.Outcome State Fault Refusal := s.laneOp 0x69 (vLong f x) (resFrnd (modeOf f.b))

/-- MOV (0x70). -/
def execMov (f : VFmt) (s : State) : Host.Outcome State Fault Refusal := s.laneOp 0x70 (vShort f) (plain resMov)
/-- MOV, long form. -/
def execMovLong (f : VFmt) (x : VLong) (s : State) : Host.Outcome State Fault Refusal := s.laneOp 0x70 (vLong f x) (plain resMov)

/-- PERM (0x72). -/
def execPerm (f : VFmt) (s : State) : Host.Outcome State Fault Refusal := s.permOp (vShort f)
/-- PERM, long form. -/
def execPermLong (f : VFmt) (x : VLong) (s : State) : Host.Outcome State Fault Refusal := s.permOp (vLong f x)

/-- ISCAN (0x73). -/
def execIscan (f : VFmt) (s : State) : Host.Outcome State Fault Refusal := s.scanOp 0x73 (vShort f) true false
/-- ISCAN, long form. -/
def execIscanLong (f : VFmt) (x : VLong) (s : State) : Host.Outcome State Fault Refusal := s.scanOp 0x73 (vLong f x) true false

/-- FSCAN (0x74). -/
def execFscan (f : VFmt) (s : State) : Host.Outcome State Fault Refusal := s.scanOp 0x74 (vShort f) true true
/-- FSCAN, long form. -/
def execFscanLong (f : VFmt) (x : VLong) (s : State) : Host.Outcome State Fault Refusal := s.scanOp 0x74 (vLong f x) true true

/-- IRED (0x75). -/
def execIred (f : VFmt) (s : State) : Host.Outcome State Fault Refusal := s.scanOp 0x75 (vShort f) false false
/-- IRED, long form. -/
def execIredLong (f : VFmt) (x : VLong) (s : State) : Host.Outcome State Fault Refusal := s.scanOp 0x75 (vLong f x) false false

/-- FRED (0x76). -/
def execFred (f : VFmt) (s : State) : Host.Outcome State Fault Refusal := s.scanOp 0x76 (vShort f) false true
/-- FRED, long form. -/
def execFredLong (f : VFmt) (x : VLong) (s : State) : Host.Outcome State Fault Refusal := s.scanOp 0x76 (vLong f x) false true

/-- MOVS (0x77). -/
def execMovs (f : VFmt) (s : State) : Host.Outcome State Fault Refusal := s.movsOp (vShort f)
/-- MOVS, long form. -/
def execMovsLong (f : VFmt) (x : VLong) (s : State) : Host.Outcome State Fault Refusal := s.movsOp (vLong f x)

/-- PMOV (0x78). -/
def execPmov (f : VFmt) (s : State) : Host.Outcome State Fault Refusal := s.lanePredOp 0x78 (vShort f) (tstP (fnOf f.d))
/-- PMOV, long form. -/
def execPmovLong (f : VFmt) (x : VLong) (s : State) : Host.Outcome State Fault Refusal := s.lanePredOp 0x78 (vLong f x) (tstP (fnOf f.d))

/-- PLOG (0x79). -/
def execPlog (f : VFmt) (s : State) : Host.Outcome State Fault Refusal := s.plogOp (vShort f)
/-- PLOG, long form. -/
def execPlogLong (f : VFmt) (x : VLong) (s : State) : Host.Outcome State Fault Refusal := s.plogOp (vLong f x)

/-- SADD (0xd0). -/
def execSadd (f : VFmt) (s : State) : Host.Outcome State Fault Refusal := s.scalarOp 0xd0 (vShort f) resAdd
/-- SADD, long form. -/
def execSaddLong (f : VFmt) (x : VLong) (s : State) : Host.Outcome State Fault Refusal := s.scalarOp 0xd0 (vLong f x) resAdd

/-- SSUB (0xd1). -/
def execSsub (f : VFmt) (s : State) : Host.Outcome State Fault Refusal := s.scalarOp 0xd1 (vShort f) resSub
/-- SSUB, long form. -/
def execSsubLong (f : VFmt) (x : VLong) (s : State) : Host.Outcome State Fault Refusal := s.scalarOp 0xd1 (vLong f x) resSub

/-- SMUL (0xd2). -/
def execSmul (f : VFmt) (s : State) : Host.Outcome State Fault Refusal := s.scalarOp 0xd2 (vShort f) resMul
/-- SMUL, long form. -/
def execSmulLong (f : VFmt) (x : VLong) (s : State) : Host.Outcome State Fault Refusal := s.scalarOp 0xd2 (vLong f x) resMul

/-- SAND (0xd3). -/
def execSand (f : VFmt) (s : State) : Host.Outcome State Fault Refusal := s.scalarOp 0xd3 (vShort f) resAnd
/-- SAND, long form. -/
def execSandLong (f : VFmt) (x : VLong) (s : State) : Host.Outcome State Fault Refusal := s.scalarOp 0xd3 (vLong f x) resAnd

/-- SOR (0xd4). -/
def execSor (f : VFmt) (s : State) : Host.Outcome State Fault Refusal := s.scalarOp 0xd4 (vShort f) resOr
/-- SOR, long form. -/
def execSorLong (f : VFmt) (x : VLong) (s : State) : Host.Outcome State Fault Refusal := s.scalarOp 0xd4 (vLong f x) resOr

/-- SXOR (0xd5). -/
def execSxor (f : VFmt) (s : State) : Host.Outcome State Fault Refusal := s.scalarOp 0xd5 (vShort f) resXor
/-- SXOR, long form. -/
def execSxorLong (f : VFmt) (x : VLong) (s : State) : Host.Outcome State Fault Refusal := s.scalarOp 0xd5 (vLong f x) resXor

/-- SSHL (0xd6). -/
def execSshl (f : VFmt) (s : State) : Host.Outcome State Fault Refusal := s.scalarOp 0xd6 (vShort f) resShl
/-- SSHL, long form. -/
def execSshlLong (f : VFmt) (x : VLong) (s : State) : Host.Outcome State Fault Refusal := s.scalarOp 0xd6 (vLong f x) resShl

/-- SSHR (0xd7). -/
def execSshr (f : VFmt) (s : State) : Host.Outcome State Fault Refusal := s.scalarOp 0xd7 (vShort f) resShr
/-- SSHR, long form. -/
def execSshrLong (f : VFmt) (x : VLong) (s : State) : Host.Outcome State Fault Refusal := s.scalarOp 0xd7 (vLong f x) resShr

/-- SMIN (0xdc). -/
def execSmin (f : VFmt) (s : State) : Host.Outcome State Fault Refusal := s.scalarOp 0xdc (vShort f) resMin
/-- SMIN, long form. -/
def execSminLong (f : VFmt) (x : VLong) (s : State) : Host.Outcome State Fault Refusal := s.scalarOp 0xdc (vLong f x) resMin

/-- SMAX (0xdd). -/
def execSmax (f : VFmt) (s : State) : Host.Outcome State Fault Refusal := s.scalarOp 0xdd (vShort f) resMax
/-- SMAX, long form. -/
def execSmaxLong (f : VFmt) (x : VLong) (s : State) : Host.Outcome State Fault Refusal := s.scalarOp 0xdd (vLong f x) resMax

/-- SCMP (0xd8). -/
def execScmp (f : VFmt) (s : State) : Host.Outcome State Fault Refusal := s.scmpOp (vShort f)
/-- SCMP, long form. -/
def execScmpLong (f : VFmt) (x : VLong) (s : State) : Host.Outcome State Fault Refusal := s.scmpOp (vLong f x)

/-- BFN3 (0x3d), long form only (R277). -/
def execBfn3 (f : VFmt) (x : VLong) (s : State) : Host.Outcome State Fault Refusal :=
  s.laneOp 0x3d (bfn3Args f x) (plain (resBfn3 (bfn3Table x)))
/-- SEL (0x71), long form only (R287). -/
def execSel (f : VFmt) (x : VLong) (s : State) : Host.Outcome State Fault Refusal := s.selOp (vLong f x)
/-- SSEL (0xdb), long form only (R294). -/
def execSsel (f : VFmt) (x : VLong) (s : State) : Host.Outcome State Fault Refusal := s.sselOp (vLong f x)
/-- IADDI (0x2f). -/
def execIaddi (f : VIFmt) (s : State) : Host.Outcome State Fault Refusal := s.laneImm f true fun d => d + f.imm.signExtend 32
/-- MOVI (0x3e). -/
def execMovi (f : VIFmt) (s : State) : Host.Outcome State Fault Refusal := s.laneImm f false fun _ => f.imm.signExtend 32
/-- MOVHI (0x3f). -/
def execMovhi (f : VIFmt) (s : State) : Host.Outcome State Fault Refusal := s.laneImm f true (highImm f.imm)
/-- SMOVI (0xd9). -/
def execSmovi (f : VIFmt) (s : State) : Host.Outcome State Fault Refusal := s.scalarImm f fun _ => f.imm.signExtend 32
/-- SMOVHI (0xda). -/
def execSmovhi (f : VIFmt) (s : State) : Host.Outcome State Fault Refusal := s.scalarImm f (highImm f.imm)

end Sys2Proof.Machine
end

