-- ==== Sys2Proof/Machine/Checks.lean ====
section
/-! DEFINITION. The checks of a clause at its start (R252, R254, R255): its header, its classes, and the operand rules on
nibs (R120), keep (R123), dead marks (R126) and crossbar patterns (R133). -/

namespace Sys2Proof.Machine

/-- The specifiers that the words of an instruction name, as the rules at decode look at them: read, written, marked dead,
read through a pattern, whether KEEP stands where a keep write may, and whether its sources are predicates (R260). -/
structure Named where
  reads : List (BitVec 8)
  writes : List (BitVec 8)
  marked : List (BitVec 8)
  pats : List (Nat × Nat × BitVec 8)
  keep : Bool
  keepOk : Bool
  preds : Bool := false
  deriving DecidableEq, Repr

def Named.none : Named := { reads := [], writes := [], marked := [], pats := [], keep := false, keepOk := false }

def markIf (b : Bool) (x : BitVec 8) : List (BitVec 8) := if b then [x] else []

/-- Whether a position holds a specifier that the instruction reads. -/
def Pos.reads (p : Pos) : Bool :=
  match p with
  | .src _ => true
  | .scalarSrc => true
  | .uniformSrc => true
  | _ => false

/-- Whether a position holds a byte that names a register or a nib, read or not: a mode position names what its byte names (R120, R272). -/
def Pos.names (p : Pos) : Bool :=
  p.reads || (match p with
    | .mode _ => true
    | _ => false)

/-- What a word of format V names; a short form has no second word (R133, R271). -/
def namedV (op : Nat) (sh : VShape) (w : Word) (x : Option Word) : Named :=
  let f := unpackV w
  let v := match x with
    | some y => vLong f (unpackVLong y)
    | none => vShort f
  let long := x.isSome
  let dRead := match sh.d with | .source => true | _ => false
  let dWrite := match sh.d with | .pred _ => false | .source => false | _ => true
  let dLane := match sh.d with | .lanes => true | .lanesOrScalar => true | _ => false
  let preds := match sh.b with | .predSrc => true | _ => false
  { reads := markIf sh.a.names v.a ++ markIf sh.b.names v.b ++ markIf (long && sh.c.names) v.c ++ markIf dRead v.d,
    writes := markIf dWrite v.d,
    marked := markIf (v.deadA && (sh.a.reads || sh.a.noMark)) v.a ++ markIf (v.deadB && (sh.b.reads || sh.b.noMark)) v.b
      ++ markIf (v.deadC && sh.c.reads) v.c,
    pats := if !long then [] else (if op = 0x3d then [] else [(v.pata, v.para, v.a)]) ++ [(v.patb, v.parb, v.b)],
    preds := preds, keep := v.keep, keepOk := dLane && (match specKind v.d with | .reg _ => true | _ => false) }

/-- What a word of format VI names (R264). -/
def namedVI (op : Nat) (w : Word) : Named :=
  let d := (unpackVI w).d
  match op with
  | 0x2f => { Named.none with reads := [d], writes := [d] }
  | 0x3f => { Named.none with reads := [d], writes := [d] }
  | 0xda => { Named.none with reads := [d], writes := [d] }
  | 0x3e => { Named.none with writes := [d] }
  | 0xd9 => { Named.none with writes := [d] }
  | 0xe0 => { Named.none with writes := [d] }
  | 0xe1 => { Named.none with reads := [d] }
  | _ => Named.none

/-- What a word of format M names: stores read DATA, PREF's DATA is a code (R295, R297); TSPAWN is no load and takes KEEP (R123, R344). -/
def namedM (op : Nat) (w : Word) (x : Option Word) : Named :=
  let f := unpackM w
  let l := x.map unpackMLong
  let deadO := (l.map (·.deadO == 1#1)).getD false
  let deadD := (l.map (·.deadD == 1#1)).getD false
  let store := op == 0x81 || op == 0x84
  { reads := f.off :: markIf store f.data,
    writes := markIf (!store && op != 0x85) f.data,
    marked := markIf deadO f.off ++ markIf (deadD && op != 0x85) f.data,
    pats := [], keep := (l.map (·.keep == 1#1)).getD false,
    keepOk := op == 0xc0 && (match specKind f.data with | .reg _ => true | _ => false) }

/-- What words of format A name: reductions write nothing, ACAS reads CMP (R261, R295, R297). -/
def namedA (op : Nat) (w : Word) (x : Option Word) : Named :=
  let f := unpackM w
  match x with
  | none => { Named.none with reads := [f.off] }
  | some y =>
    let l := unpackALong y
    { reads := f.off :: l.val :: markIf (op == 0x91) l.cmp,
      writes := markIf (decide (op < 0x99)) f.data,
      marked := markIf (l.deadO == 1#1) f.off ++ markIf (l.deadD == 1#1) l.val,
      pats := [], keep := l.keep == 1#1, keepOk := false }

/-- What a word of format B names. -/
def namedB (op : Nat) (w : Word) : Named :=
  let s := (unpackB w).s
  match op with
  | 0x13 => { Named.none with reads := [s] }
  | 0x15 => { Named.none with reads := [s] }
  | 0x17 => { Named.none with reads := [s] }
  | 0x16 => { Named.none with writes := [s] }
  | 0x19 => { Named.none with writes := [s] }
  | _ => Named.none

/-- What a word of format G names; the scalar in LAUNCH's IDX is a specifier (R349). -/
def namedG (op : Nat) (w : Word) : Named :=
  let s := (unpackG w).s
  match op with
  | 0xa1 => { Named.none with reads := [s] }
  | 0xab => { Named.none with reads := [s] }
  | 0xa3 => { Named.none with writes := [s] }
  | 0xaa => { Named.none with writes := [s] }
  | 0xc7 => { Named.none with reads := [(unpackG w).idx.extractLsb' 0 8], writes := [s] }
  | _ => Named.none

/-- What a word of format T names. -/
def namedT (op : Nat) (w : Word) : Named :=
  let f := unpackT w
  match op with
  | 0xb0 => { Named.none with writes := [f.s] }
  | 0xb2 => { Named.none with reads := [f.s] }
  | 0xb5 => { Named.none with reads := [f.s, f.u] }
  | 0xb6 => { Named.none with reads := [f.s, f.u] }
  | _ => Named.none

/-- What words of format E name. -/
def namedE (op : Nat) (w : Word) (x : Option Word) : Named :=
  let f := unpackE w
  { Named.none with reads := f.p :: (markIf (op != 0xa8) f.q ++ (match x with | some y => [(unpackELong y).x] | none => [])) }

/-- What words of formats X and XD name. -/
def namedX (x : Option Word) : Named :=
  match x with
  | some y => let l := unpackXLong y; { Named.none with reads := [l.m, l.n, l.k] }
  | none => Named.none

def namedXD (w : Word) (x : Option Word) : Named :=
  let f := unpackXD w
  { Named.none with reads := [f.o, f.pt] ++ (match x with | some y => [(unpackXDLong y).rq] | none => []) }

/-- What the words of any instruction name. -/
def namedOf (w : Word) (x : Option Word) : Named :=
  let op := (opcodeOf w).toNat
  match vShape op with
  | some sh => namedV op sh w x
  | none =>
    if op = 0x2f ∨ op = 0x3e ∨ op = 0x3f ∨ op = 0xd9 ∨ op = 0xda ∨ (0xe0 ≤ op ∧ op ≤ 0xe5) then namedVI op w
    else if (0x80 ≤ op ∧ op ≤ 0x85) ∨ op = 0xc0 then namedM op w x
    else if 0x90 ≤ op ∧ op ≤ 0x9b then namedA op w x
    else if 0x10 ≤ op ∧ op ≤ 0x19 then namedB op w
    else if op = 0x04 ∨ (0xa0 ≤ op ∧ op ≤ 0xa3) ∨ op = 0xaa ∨ op = 0xab ∨ op = 0xc7 then namedG op w
    else if 0xa6 ≤ op ∧ op ≤ 0xa8 then namedE op w x
    else if op = 0xb3 ∨ op = 0xb4 then namedX x
    else if op = 0xb7 then namedXD w x
    else if 0xb0 ≤ op ∧ op ≤ 0xb6 then namedT op w
    else if op = 0xc4 then { Named.none with writes := [(unpackQ w).d] }
    else if op = 0xc5 then { Named.none with reads := [(unpackQ w).d] }
    else if op = 0xc6 then { Named.none with writes := [(unpackQ w).d] }
    else Named.none

/-- A nib producer (R119): a per-lane instruction whose destination is a reservoir register or n0, but for what returns
through an access path. -/
def isProducer (w : Word) : Bool :=
  let op := (opcodeOf w).toNat
  let d := bits w 16 8
  let named := isLaneDst d
  match vShape op with
  | some sh => sh.perLane && op != 0xb8 && named && (match sh.d with | .lanes => true | .lanesOrScalar => true | _ => false)
  | none => (op == 0x2f || op == 0x3e || op == 0x3f || op == 0xc0) && named

/-- The first operand rule that an instruction at position `p` of a clause breaks (R255 step 3): nibs, keep, dead marks,
patterns. -/
def operandRule (producer : Nat → Bool) (p : Nat) (n : Named) : Option (Cause × BitVec 8) :=
  let nib := n.reads.find? fun b =>
    (b == 0xc0#8 && !(decide (1 ≤ p) && producer (p - 1))) || (b == 0xc1#8 && !(decide (2 ≤ p) && producer (p - 2)))
  let wrongDst := n.writes.find? fun b => b == 0xc1#8
  let notReg (b : BitVec 8) : Bool := match specKind b with
    | .reg _ => false
    | _ => true
  let crossed (b : BitVec 8) : Bool := !n.preds && match specKind b with
    | .reg _ => true
    | .index _ => true
    | .nib _ => true
    | .special k => k == 0
    | _ => false
  let badPat (e : Nat × Nat × BitVec 8) : Option (Cause × BitVec 8) :=
    if e.1 = 7 ∨ (e.1 = 0 ∧ e.2.1 ≠ 0) ∨ (e.1 = 4 ∧ 5 < e.2.1) then some (.illField, 0#8)
    else if e.1 ≠ 0 ∧ !crossed e.2.2 then some (.illOperand, e.2.2)
    else none
  match nib with
  | some b => some (.illOperand, b)
  | none =>
    match wrongDst with
    | some b => some (.illOperand, b)
    | none =>
      if n.keep && !n.keepOk then some (.illOperand, n.writes.headD 0#8)
      else match n.marked.find? fun b => n.preds || notReg b with
        | some b => some (.illOperand, b)
        | none => n.pats.findSome? badPat

/-- The class rule at a position (R255 step 2). -/
def classRule (h : Word) (p : Nat) (w : Word) : Bool :=
  let op := opcodeOf w
  opcodeAssigned op && ((!classFree op && classCode op != some (headerCls h))
    || (controlTransfer op && p + 1 != headerCnt h))

/-- The first failure among the positions of a clause, with its position and auxiliary word (R255). -/
def Clause.check (c : Clause) (exec : Word) : Option (Cause × Nat × Word) :=
  (List.range (headerCnt c.hdr)).findSome? fun p =>
    let (w, x) := c.wordsAt p
    if classRule c.hdr p w then some (.illClass, p, 0#32)
    else if !opcodeAssigned (opcodeOf w) then none
    else match operandRule (fun q => isProducer (c.wordsAt q).1) p (namedOf w x) with
      | some (cs, b) =>
        some (cs, p, if cs = .illOperand then BitVec.ofNat 32 (b.toNat + 256 * ((lowest exec).getD 0)) else 0#32)
      | none => none

end Sys2Proof.Machine
end

