-- ==== Sys2Proof/Machine/Translate.lean ====
section
/-! DEFINITION. From a segment and an offset to a place: the checks of R141, the walk of R151 to R155, the target types of
R152, the paths between dies (R10, R22, R24), and the reads of descriptors and rubric entries (R142, R143, R146). -/

namespace Sys2Proof.Machine

/-! ## Dies and links (R9, R10) -/

/-- The link between two neighbouring dies. -/
def linkBetween (a b : Nat) : Nat :=
  let d := min a b
  if (max a b) = d + 5 then 16 + d else 4 * (d / 5) + d % 5

/-- The links from a die to another, columns first (log 20); `n` bounds the hops. -/
def routeFrom (a b : Nat) : Nat → List Nat
  | 0 => []
  | n + 1 =>
    if a % 5 < b % 5 then linkBetween a (a + 1) :: routeFrom (a + 1) b n
    else if b % 5 < a % 5 then linkBetween (a - 1) a :: routeFrom (a - 1) b n
    else if a / 5 < b / 5 then linkBetween a (a + 5) :: routeFrom (a + 5) b n
    else if b / 5 < a / 5 then linkBetween (a - 5) a :: routeFrom (a - 5) b n
    else []

def route (a b : Nat) : List Nat := routeFrom a b 8

/-- Die-link hops between two dies. -/
def hops (a b : Nat) : Nat := (route a b).length

/-- The dies at the ends of a link. -/
def linkEnds (l : Nat) : Nat × Nat :=
  if l < 16 then (l / 4 * 5 + l % 4, l / 4 * 5 + l % 4 + 1) else (l - 16, l - 11)

def State.wall (s : State) (l : Nat) : Firewall := s.fabric.walls.get Firewall.reset l
def State.putWall (s : State) (l : Nat) (w : Firewall) : State :=
  s.setFabric { s.fabric with walls := s.fabric.walls.put l w }

/-- The other end of a link. -/
def farEnd (l d : Nat) : Nat := if (linkEnds l).1 = d then (linkEnds l).2 else (linkEnds l).1

/-- Reach further dies over links that will do, each with the links of one shortest way to it, the last first; `n` bounds the hops. -/
def reachOut (ok : Nat → Bool) : Nat → List (Nat × List Nat) → List (Nat × List Nat)
  | 0, t => t
  | n + 1, t => reachOut ok n (t.foldl (fun u e => (List.range 31).foldl (fun v l =>
      if ok l && ((linkEnds l).1 == e.1 || (linkEnds l).2 == e.1) && !(v.any fun x => x.1 == farEnd l e.1) then v ++ [(farEnd l e.1, l :: e.2)]
      else v) u) t)

/-- Whether a link is open and both its ends are in the slot of a die. -/
def State.inSlot (s : State) (d l : Nat) : Bool :=
  !(s.wall l).closed && s.slotOf (linkEnds l).1 == s.slotOf d && s.slotOf (linkEnds l).2 == s.slotOf d

/-- The links that a flit crosses from a die to another (log 20): those along X and then along Y where all are open and within the partition,
else a shortest way over open links within it, else the first way again. -/
def State.linksTo (s : State) (a b : Nat) : List Nat :=
  if (route a b).all (s.inSlot a) then route a b
  else match (reachOut (s.inSlot a) Config.dies [(a, [])]).find? fun e => e.1 = b with
    | some e => e.2.reverse
    | none => route a b

/-- The hops over links, one after the other, from a die on. -/
def hopsFrom (c : FlitClass) : Nat → List Nat → List Hop
  | _, [] => []
  | d, l :: rest => { link := l, up := decide (d < farEnd l d), cls := c } :: hopsFrom c (farEnd l d) rest

/-- The hops of a class from a die to another (R13). -/
def State.hopsTo (s : State) (a b : Nat) (c : FlitClass) : List Hop := hopsFrom c a (s.linksTo a b)

/-- The link at which the way from a die to another leaves the partition: the first that is closed (R22), else, over links that are all
open, the first whose ends are not both in the partition (log 20). -/
def State.closedOn (s : State) (a b : Nat) : Option Nat :=
  match (s.linksTo a b).find? fun l => (s.wall l).closed with
  | some l => some l
  | none => if s.slotOf a = s.slotOf b then none else some (((s.linksTo a b).find? fun l => !s.inSlot a l).getD 31)

/-- The dies that a set of dies reaches from some of them through links within the set; `n` bounds the steps. -/
def spread (set : List Nat) : Nat → List Nat → List Nat
  | 0, l => l
  | n + 1, l => spread set n (set.filter fun d => l.contains d || (List.range 31).any fun k =>
      ((linkEnds k).1 = d ∧ l.contains (linkEnds k).2) ∨ ((linkEnds k).2 = d ∧ l.contains (linkEnds k).1))

/-- Whether a set of dies is connected through links within it (R20). -/
def connected (set : List Nat) : Bool := set.all fun d => (spread set Config.dies (set.take 1)).contains d

/-- The die a fabric port lies on (R11). -/
def portDie (p : Nat) : Nat :=
  if p < 10 then p / 2
  else if p < 20 then 15 + (p - 10) / 2
  else if p = 20 then 5 else if p = 21 then 9 else if p = 22 then 10 else 14

def State.port (s : State) (p : Nat) : Port := s.fabric.ports.get Port.reset p
def State.putPort (s : State) (p : Nat) (x : Port) : State :=
  s.setFabric { s.fabric with ports := s.fabric.ports.put p x }

/-- The die at which an access to a place performs, or leaves the module through a fabric port (R11, R12). -/
def Place.onDie (p : Place) (own : Nat) : Nat :=
  match p with
  | .hbm d _ => d
  | .folio d _ => d
  | .far q _ => portDie q
  | _ => own

/-! ## Walks (R151 to R155) -/

/-- What an access asks of a page; `image` is the read of a TLD, which pages of type 5 to 7 do not serve (R367). -/
inductive Need where
  | read | write | fetch | atomic | image
  deriving DecidableEq, Repr

/-- Why a page cannot be used; `folioWrite` is a store or an atomic to a type-4 page, which are only read
through (R79, R165, R193), `host` is PERM, or ATOMIC_PATH, on a type-2 page, which goes to the host (R160); `ats` asks the host first (R160), `s2` is a fault of the second stage (R155), `violation`
leaves the partition (R24) at a link, or at the host-interface set 31. -/
inductive XFault where
  | noPage
  | perm
  | folioWrite
  | atomicPath
  | host (path : Bool) (page : Nat)
  | ats (page : Nat)
  | s2 (perm : Bool)
  | violation (set : Nat)
  deriving DecidableEq, Repr

/-- A leaf: the PTE and the size of its page. -/
structure Leaf where
  pte : BitVec 64
  size : Nat
  deriving DecidableEq, Repr

/-- The HBM of a die: two stacks of 80 GB, and a GB is 10^9 bytes (R1, R4). -/
def hbmSize : Nat := 160 * 1000000000

/-- Bits of a PTE. -/
def pteBits (p : BitVec 64) (lo n : Nat) : Nat := (p.extractLsb' lo n).toNat

def Leaf.tt (l : Leaf) : Nat := pteBits l.pte 9 3
def Leaf.die (l : Leaf) : Nat := pteBits l.pte 57 5
def Leaf.oa (l : Leaf) : Nat := pteBits l.pte 16 41 * 65536
def Leaf.allows (l : Leaf) (n : Need) : Bool :=
  match n with
  | .read => true
  | .image => true
  | .write => l.pte.getLsbD 2
  | .fetch => l.pte.getLsbD 3
  | .atomic => l.pte.getLsbD 2 && l.pte.getLsbD 4

/-- The 8 bytes at a place. -/
def State.read64 (s : State) (p : Place) : BitVec 64 := BitVec.ofNat 64 (leNat (s.readBytes p 8))
def State.read32 (s : State) (p : Place) : Word := BitVec.ofNat 32 (leNat (s.readBytes p 4))

/-- Whether a leaf is well formed at the size its level maps (R152, R153). -/
def Leaf.ok (l : Leaf) : Bool :=
  pteBits l.pte 62 2 == 0 && pteBits l.pte 5 4 == 0 && l.oa % l.size == 0
    && (!(l.tt == 1 || l.tt == 4) || decide (l.die < Config.dies))

/-- One walk from the table at `table`, through levels given as (level, index shift, index bits, leaf size). `at_` gives the
place of a table's address, none for one that cannot be reached. -/
def walkFrom (s : State) (at_ : Nat → Except XFault Place) (lin : Nat) :
    List (Nat × Nat × Nat × Nat) → Nat → Except XFault Leaf
  | [], _ => .error .perm
  | (lvl, sh, nb, size) :: rest, table =>
    match at_ (table + 8 * (lin / 2 ^ sh % 2 ^ nb)) with
    | .error f => .error f
    | .ok p =>
      let e := s.read64 p
      if !e.getLsbD 0 then .error .noPage
      else if lvl = 0 || (lvl != 3 && e.getLsbD 1) then
        let l : Leaf := { pte := e, size := size }
        if l.ok then .ok l else .error .perm
      else if lvl = 3 && e.getLsbD 1 then .error .perm
      else if pteBits e 57 7 != 0 || pteBits e 2 6 != 0 then .error .perm
      else
        let next := pteBits e 8 49 * 256
        if lvl != 1 && next % 4096 != 0 then .error .perm
        else walkFrom s at_ lin rest next

/-- The levels of R151. -/
def walkLevels : List (Nat × Nat × Nat × Nat) :=
  [(3, 39, 18, 549755813888), (2, 30, 9, 1073741824), (1, 21, 9, 2097152), (0, 16, 5, 65536)]

/-- A table address in the walking die's HBM. -/
def hbmAt (die a : Nat) : Except XFault Place := if a < hbmSize then .ok (.hbm die a) else .error .perm

/-- A root register: bits [63:57] must be 0 (R151). -/
def rootOf (r : BitVec 64) : Except XFault Nat := if pteBits r 57 7 = 0 then .ok (pteBits r 21 36 * 2097152) else .error .perm

/-- The second walk: a guest-physical address to a leaf of TT 0, 1 or 4 (R155). -/
def State.walk2 (s : State) (die : Nat) (c : Ctx) (gpa : Nat) : Except XFault Leaf :=
  match rootOf c.s2tb with
  | .error _ => .error (.s2 true)
  | .ok root =>
    match walkFrom s (hbmAt die) gpa walkLevels root with
    | .ok l => if l.tt = 0 || l.tt = 1 || l.tt = 4 then .ok l else .error (.s2 true)
    | .error .noPage => .error (.s2 false)
    | .error _ => .error (.s2 true)

/-- The second stage of a guest-physical address: by the nested TLB of the die where it still holds the page (log 15), unless the walk
bypasses every TLB (`fresh`, R153), and otherwise by the second walk (R155). -/
def State.stage2 (s : State) (die ctx : Nat) (fresh : Bool) (gpa : Nat) : Except XFault Leaf :=
  match (if fresh || !Config.nestedHeld s.freeCtr gpa then none
    else (s.die die).ntlb.find? fun e => e.ctx = ctx ∧ e.page = gpa / e.size) with
  | some e => .ok { pte := e.pte, size := e.size }
  | none => s.walk2 die (s.ctx die ctx) gpa

/-- The HBM place a stage-2 leaf gives an address. -/
def Leaf.hbm (l : Leaf) (die a : Nat) : Except XFault Place :=
  let o := l.oa + a % l.size
  if hbmSize ≤ o then .error .perm
  else match l.tt with
    | 0 => .ok (.hbm die o)
    | 1 => .ok (.hbm l.die o)
    | _ => .error (.s2 true)

/-- The place of a table's guest-physical address (R151, R155); one on a die of another partition, or behind a closed link, is not read: the
walk meets the boundary (R24, R153). -/
def State.tableAt (s : State) (die ctx : Nat) (fresh : Bool) (a : Nat) : Except XFault Place :=
  match s.stage2 die ctx fresh a with
  | .ok l => match l.hbm die a with
    | .ok p => match s.closedOn die (p.onDie die) with
      | some k => .error (.violation k)
      | none => .ok p
    | .error f => .error f
  | .error f => .error f

/-- The stage-1 walk of a linear address on a die (R151, R155). -/
def State.walk (s : State) (die ctx : Nat) (fresh : Bool) (lin : Nat) : Except XFault Leaf :=
  let c := s.ctx die ctx
  match rootOf c.ptb with
  | .error f => .error f
  | .ok root =>
    if c.s2tb.getLsbD 0 then walkFrom s (s.tableAt die ctx fresh) lin walkLevels root
    else walkFrom s (hbmAt die) lin walkLevels root

/-- The addresses of the entries a walk that reaches a leaf reads. -/
def walkReads (s : State) (at_ : Nat → Except XFault Place) (lin : Nat) : List (Nat × Nat × Nat × Nat) → Nat → List Nat
  | [], _ => []
  | (lvl, sh, nb, _) :: rest, table =>
    let a := table + 8 * (lin / 2 ^ sh % 2 ^ nb)
    match at_ a with
    | .error _ => []
    | .ok p =>
      let e := s.read64 p
      if lvl = 0 || (lvl != 3 && e.getLsbD 1) then [a] else a :: walkReads s at_ lin rest (pteBits e 8 49 * 256)

/-! ## Who makes an access, and where it lands -/

/-- A master: its die, core, context, the region table generation it reads (R165), whether it is a copy engine, and the team whose cluster
window it sees (R164). -/
structure Who where
  die : Nat
  core : Nat
  ctx : Nat
  gen : Nat
  copy : Bool
  team : Option Nat := none
  deriving DecidableEq, Repr

/-- The host answers ATS for a page of a PASID: a translation is held (R152, R160). Die number 20 marks these entries. -/
def State.atsHeld (s : State) (pasid page : Nat) : Bool :=
  s.tlb.any fun e => e.die = 20 ∧ e.ctx = pasid ∧ e.page = page

/-- The physical offset of a logical folio offset under a generation's region table (R165); none where V = 0. -/
def State.folioOf (s : State) (die gen f : Nat) : Option Nat :=
  let d := s.die die
  let e := (if gen % 2 = 0 then d.regionA else d.regionB).get 0#16 (f / 4194304)
  if f / 4194304 < 64 ∧ e.getLsbD 15 then some ((e.extractLsb' 0 6).toNat * 4194304 + f % 4194304) else none

/-- Whether a register offset is open to a master through a type-6 page (R400): of a VF the blocks of queue control, graph registration and LDSTAT,
which as in PF0 has 16 bytes (R27; log 70). -/
def State.mmioOpen (s : State) (w : Who) (vf : Bool) (off : Nat) : Bool :=
  let part := s.slotOf w.die
  if vf then decide (part ≠ 0) && (decide (off < 0x10020) || (decide (0x20000 ≤ off) && decide (off < 0x20010)))
  else
    (decide (0x120000 ≤ off) && decide (off < 0x120000 + 0x10 * 20) && s.slotOf ((off - 0x120000) / 16) == part)
    || (decide (0x140000 ≤ off) && decide (off < 0x140000 + 0x1000 * 20)
        && s.slotOf ((off - 0x140000) / 0x1000) == part && (off - 0x140000) % 0x1000 / 0x100 == w.ctx)
    || (decide (0x180000 + 0x10 * part ≤ off) && decide (off < 0x180000 + 0x10 * part + 0x10))

/-- The place a leaf gives a linear address (R152, R153), with what refuses it. An output address that names port 24 to 31 is a violation at the
host-interface set (R12, R24; log 131), an access into another partition over links that are all open is one at the first link that
leaves the partition (log 20), and an output address of type 0 or 1 at or beyond the 160 GB of its die gives PERM, as R151 has it for a table's
address (log 132). -/
def State.landing (s : State) (w : Who) (l : Leaf) (lin : Nat) (need : Need) : Except XFault Place :=
  let a := l.oa + lin % l.size
  let c := s.ctx w.die w.ctx
  let reach (d : Nat) (p : Place) : Except XFault Place :=
    match s.closedOn w.die d with
    | some k => .error (.violation k)
    | none => .ok p
  match l.tt with
  | 0 => if a < hbmSize then .ok (.hbm w.die a) else .error .perm
  | 1 => if a < hbmSize then reach l.die (.hbm l.die a) else .error .perm
  | 2 =>
    let pasid := c.pasid.toNat
    if s.atsHeld pasid (a / 65536) then .ok (.host pasid a) else .error (.ats (a / 65536))
  | 3 => if a < 2097152 then .ok (.scr w.die (pteBits l.pte 12 4) a) else .error .perm
  | 4 => match reach l.die (.folio l.die 0) with
    | .error f => .error f
    | .ok _ =>
      if need = .write ∨ need = .atomic then .error .folioWrite
      else match s.folioOf l.die w.gen a with
        | some o => .ok (.folio l.die o)
        | none => .error .perm
  | 5 => if w.copy && need != .image && decide (a < 8388608) then .ok (.queueStore w.die a) else .error .perm
  | 6 =>
    if need = .image then .error .perm
    else if need = .atomic then .error .atomicPath
    else if a / 2 ^ 56 % 2 = 0 then
      let vf := a / 2 ^ 55 % 2 = 0
      let off := if vf then a % 1048576 else a % 67108864
      if a / 67108864 % 2 ^ 29 ≠ 0 ∨ (vf ∧ a / 1048576 % 64 ≠ 0) ∨ !s.mmioOpen w vf off then .error (.violation 31)
      else .ok (.reg (if vf then s.slotOf w.die else 0) off)
    else
      let p := a / 2 ^ 51 % 32
      if 24 ≤ p ∨ s.slotOf (portDie p) ≠ s.slotOf w.die then .error (.violation 31)
      else if !(s.port p).oen then .error .perm
      else .ok (.far p (a % 2 ^ 51))
  | _ => .error .perm

/-- Whether a leaf's output address is guest-physical (R155). -/
def State.guestOut (s : State) (w : Who) (l : Leaf) : Bool :=
  (s.ctx w.die w.ctx).s2tb.getLsbD 0 && (l.tt == 0 || l.tt == 1 || l.tt == 4)

/-- The rights a second stage leaves (R155): none where the page's target is not guest-physical. -/
def State.nested (s : State) (w : Who) (fresh : Bool) (l : Leaf) (lin : Nat) (need : Need) : Except XFault (Leaf × Nat) :=
  if s.guestOut w l then
    let gpa := l.oa + lin % l.size
    match s.stage2 w.die w.ctx fresh gpa with
    | .ok l2 => if l2.allows need then .ok (l2, gpa) else .error (.s2 true)
    | .error f => .error f
  else .ok (l, lin)

/-- A walk and the place it gives. -/
def State.walkTo (s : State) (w : Who) (fresh : Bool) (lin : Nat) (need : Need) : Except XFault (Place × Leaf) :=
  match s.walk w.die w.ctx fresh lin with
  | .error f => .error f
  | .ok l =>
    if !l.allows need then .error (if l.tt = 2 then .host false ((l.oa + lin % l.size) / 65536) else .perm)
    else match s.nested w fresh l lin need with
      | .error f => .error f
      | .ok (l2, a) => (s.landing w l2 a need).map fun p => (p, l)

/-- A walk that bypasses every TLB (R153, R158). -/
def State.freshWalk (s : State) (w : Who) (lin : Nat) (need : Need) : Except XFault (Place × Leaf) := s.walkTo w true lin need

/-- Keep at most `n` entries of a kind, the latest first (R154). -/
def capTlb (sel : TlbEntry → Bool) (n : Nat) (t : List TlbEntry) : List TlbEntry :=
  let mine := t.filter sel
  if mine.length ≤ n then t else (t.filter fun e => !sel e) ++ mine.take n

/-- Take a leaf into the TLBs of a core and its die (R154). -/
def State.fillTlb (s : State) (w : Who) (lin : Nat) (l : Leaf) : State :=
  let e (c : Option Nat) : TlbEntry := { die := w.die, core := c, ctx := w.ctx, page := lin / l.size, pte := l.pte, size := l.size }
  let t := e (some w.core) :: e none :: s.tlb.filter fun x =>
    !(x.die == w.die && x.ctx == w.ctx && x.page == lin / l.size && x.size == l.size && (x.core == none || x.core == some w.core))
  s.setTlb (capTlb (fun x => x.die == w.die && x.core == some w.core) 1024
    (capTlb (fun x => x.die == w.die && x.core == none) 16384 t))

/-- Take a guest-physical page into the nested TLB of a die, of 4096 entries (R155). -/
def State.keepNested (s : State) (die ctx : Nat) (fresh : Bool) (gpa : Nat) : State :=
  match s.stage2 die ctx fresh gpa with
  | .error _ => s
  | .ok l =>
    let e : NestedEntry := { ctx := ctx, page := gpa / l.size, pte := l.pte, size := l.size }
    s.updDie die fun d => { d with ntlb := (e :: d.ntlb.filter fun x => !(x.ctx == ctx && x.page == e.page && x.size == e.size)).take 4096 }

/-- Take the guest-physical pages of a translation into the nested TLB: those of the tables read, where a walk was made, and that of the
output address. The next look makes its choices anew. -/
def State.fillNested (s : State) (w : Who) (walked fresh : Bool) (lin : Nat) (l : Leaf) : State :=
  let c := s.ctx w.die w.ctx
  if c.s2tb.getLsbD 0 then
    let tables := match rootOf c.ptb with
      | .ok root => if walked then walkReads s (s.tableAt w.die w.ctx fresh) lin walkLevels root else []
      | .error _ => []
    let outs := if s.guestOut w l then [l.oa + lin % l.size] else []
    ((tables ++ outs).foldl (fun t a => t.keepNested w.die w.ctx fresh a) s).setFreeCtr (s.freeCtr + 1)
  else s

/-- Walk for an access that no TLB serves: with the nested TLB first, and where that refuses, bypassing it (R153, R155). -/
def State.walkFor (s : State) (w : Who) (lin : Nat) (need : Need) : Except XFault Place × State :=
  let fresh : Except XFault Place × State :=
    match s.freshWalk w lin need with
    | .ok (p, l) => (.ok p, (s.fillNested w true true lin l).fillTlb w lin l)
    | .error f => (.error f, s)
  if (s.ctx w.die w.ctx).s2tb.getLsbD 0 then
    match s.walkTo w false lin need with
    | .ok (p, l) => (.ok p, (s.fillNested w true false lin l).fillTlb w lin l)
    | .error _ => fresh
  else fresh

/-- Translate a linear address: by a TLB that still holds its page (log 15), and otherwise, or when what it holds refuses,
by a walk (R153, R154). -/
def State.translate (s : State) (w : Who) (lin : Nat) (need : Need) : Except XFault Place × State :=
  if 2 ^ 57 ≤ lin then (.error .perm, s)
  else
    match s.tlb.find? fun e =>
      e.die = w.die ∧ e.ctx = w.ctx ∧ e.page = lin / e.size ∧ (e.core = none ∨ e.core = some w.core) with
    | none => s.walkFor w lin need
    | some e =>
      let s1 := s.setFreeCtr (s.freeCtr + 1)
      let l : Leaf := { pte := e.pte, size := e.size }
      if Config.tlbHeld s.freeCtr && l.allows need then
        match s1.nested w false l lin need with
        | .ok (l2, a) => match s1.landing w l2 a need with
          | .ok p => (.ok p, s1.fillNested w false false lin l)
          | .error _ => s1.walkFor w lin need
        | .error _ => s1.walkFor w lin need
      else s1.walkFor w lin need

/-- The order in which causes are taken (R156), of either stage and whoever is told; what meets the partition's boundary comes last: it has
passed every check of the walk (R153). -/
def XFault.rank : XFault → Nat
  | .perm => 0
  | .folioWrite => 0
  | .atomicPath => 1
  | .host p _ => if p then 1 else 0
  | .noPage => 2
  | .s2 p => if p then 0 else 2
  | .ats _ => 2
  | .violation _ => 3

/-- The bytes from a place on that a run may have: a die's HBM ends at 160 GB, which is no multiple of 64 KiB (R1, R4). -/
def Place.room (p : Place) : Nat :=
  match p with
  | .hbm _ o => hbmSize - o
  | _ => 2 ^ 64

/-- Translate a run of bytes, page by page, into places of at most 64 KiB each; `n` bounds the pages. Of the faults of several pages the first
in the order of R156 counts, at its lowest address; bytes beyond the end of a die's HBM are refused as PERM (log 132). -/
def State.translateRange (s : State) (w : Who) (need : Need) : Nat → Nat → Nat → Except (XFault × Nat) (List Run) × State
  | 0, _, _ => (.ok [], s)
  | n + 1, lin, len =>
    if len = 0 then (.ok [], s)
    else
      let now := min len (65536 - lin % 65536)
      let (r, s1) := s.translate w lin need
      let here : Except (XFault × Nat) Run :=
        match r with
        | .error f => .error (f, lin)
        | .ok p => if p.room < now then .error (.perm, lin + p.room) else .ok { place := p, len := now }
      let (rest, s2) := s1.translateRange w need n (lin + now) (len - now)
      match here, rest with
      | .ok x, .ok rs => (.ok (x :: rs), s2)
      | .error e, .ok _ => (.error e, s2)
      | .ok _, .error e => (.error e, s2)
      | .error e, .error h => (.error (if h.1.rank < e.1.rank then h else e), s2)

/-- The unloaded latency of a target (R299). A page of type 0 or 1 may hit its home slice; the rest is a free delay. -/
def latencyOf (w : Who) (p : Place) : Nat :=
  match p with
  | .hbm d _ => 80 + 60 * hops w.die d
  | .scr _ c _ => if c = w.core then 16 else 40
  | .folio d _ => 80 + 60 * hops w.die d
  | .arg _ _ _ _ => 16
  | .queueStore _ _ => 80
  | .host _ _ => 2000
  | .reg _ _ => 600 + 60 * hops w.die 0
  | .far _ _ => 1200

/-! ## Descriptors (R142, R143) -/

/-- A descriptor's fields as a segment register caches them, and KREC. -/
def decodeDesc (sel : BitVec 16) (bs : List Byte) : SegReg × Nat :=
  let q (i : Nat) : BitVec 64 := BitVec.ofNat 64 (leNat ((bs.drop (8 * i)).take 8))
  let w0 := q 0
  let w1 := q 1
  let w2 := q 2
  let w3 := q 3
  let base := w0.extractLsb' 0 57
  let limit := w1.extractLsb' 0 48
  let kind := w2.extractLsb' 4 3
  let krec := (w3.extractLsb' 0 57).toNat
  let wr := w2.getLsbD 1
  let sv := w2.getLsbD 7
  let bad := w0.extractLsb' 57 7 != 0 || base.extractLsb' 0 6 != 0 || decide (2 ^ 57 < base.toNat + limit.toNat)
    || w2.extractLsb' 8 56 != 0 || w3.extractLsb' 57 7 != 0
    || (sv && kind != 1) || (wr && (kind == 1 || kind == 5 || kind == 7)) || (krec != 0 && kind != 1) || krec % 64 != 0
  ({ sel := sel, gen := w1.extractLsb' 48 16, base := base, limit := limit, r := w2.getLsbD 0, w := wr, x := w2.getLsbD 2,
     a := w2.getLsbD 3, kind := kind, s := sv, bad := bad }, krec)

/-- Where a context's (die, selector) generation is held. -/
def genKey (ctx sel : Nat) : Nat := ctx * 65536 + sel

/-- The reads of tables: bytes at a linear address, through the context's pages (R143, R146). -/
def State.readLin (s : State) (w : Who) (lin n : Nat) : Except XFault (List Byte) × State :=
  match s.translateRange w .read 3 lin n with
  | (.ok rs, s1) => (.ok (s1.readRuns rs), s1)
  | (.error (f, _), s1) => (.error f, s1)

/-- Load a segment register from the table: selector 0 succeeds (R143), the reserved selectors name the group's own
registers (R399). The die then holds the descriptor's generation. -/
def State.loadSeg (s : State) (w : Who) (g : Group) (sel : BitVec 16) : Except XFault (SegReg × Nat) × State :=
  if sel = 0#16 then (.ok (SegReg.null, 0), s)
  else if 0xfffd ≤ sel.toNat then
    (.ok (((g.seg.find? fun e => e.2.sel = sel).map (·.2)).getD { SegReg.null with sel := sel, bad := true }, 0), s)
  else
    match s.readLin w (pteBits (s.ctx w.die w.ctx).sdtb 21 43 * 2097152 + 32 * sel.toNat) 32 with
    | (.error f, s1) => (.error f, s1)
    | (.ok bs, s1) =>
      let (r, k) := decodeDesc sel bs
      (.ok (r, k), s1.updDie w.die fun d => { d with gens := d.gens.put (genKey w.ctx sel.toNat) (some r.gen) })

/-- Whether a register's generation is stale on a die (R143); one that the die could not read when a change took effect makes every register
of its selector stale until it is reloaded (log 133). -/
def State.stale (s : State) (w : Who) (r : SegReg) : Bool :=
  if 0xfffd ≤ r.sel.toNat then false
  else match (s.die w.die).gens.find (genKey w.ctx r.sel.toNat) with
    | some x => x != some r.gen
    | none => false

/-! ## The checks of R141 -/

/-- Whether rights and kind let an access through (R142). -/
def SegReg.allows (r : SegReg) (n : Need) (group : Bool) : Bool :=
  (match n with
    | .read => r.r
    | .image => r.r
    | .write => r.w
    | .fetch => r.x
    | .atomic => r.r && r.w && r.a) && !(group && r.kind == 6 && n != .fetch)

/-- Whether bytes of a cluster's window reach beyond the allocation of a member within its stride (R164). -/
def Cluster.hole (c : Cluster) (o len : Nat) : Bool :=
  decide (0 < len) && (List.range ((o + len - 1) / 2097152 - o / 2097152 + 1)).any fun i =>
    let m := o / 2097152 + i
    decide (4096 * ((c.banks[m]?).map (·.2.length)).getD 0 < min (o + len) ((m + 1) * 2097152) - m * 2097152)

/-- Whether bytes through g12 reach such a hole, for a master that sees a team's window. -/
def State.holeAt (s : State) (w : Who) (r : SegReg) (o len : Nat) : Bool :=
  r.sel == 0xfffd#16 && (match (w.team.bind s.team?).bind fun t => s.clusters.find t.cluster with
    | some c => c.hole o len
    | none => false)

/-- R141 in order for one offset, as the number of the first step that fails, 1 to 5 (R164 for a hole). `o` is exact. -/
def State.segStep (s : State) (w : Who) (r : SegReg) (need : Need) (group : Bool) (o : Int) (width align : Nat) : Option Nat :=
  if r.sel = 0#16 || r.bad then some 1
  else if s.stale w r then some 2
  else if !r.allows need group then some 3
  else if o % align ≠ 0 then some 4
  else if o < 0 ∨ (r.limit.toNat : Int) < o + width ∨ s.holeAt w r o.toNat width then some 5
  else none

/-- The cause of a step of R141. -/
def segCause (n : Nat) : Cause :=
  match n with
  | 1 => .segNull
  | 2 => .segStale
  | 3 => .segRights
  | 4 => .align
  | _ => .segLimit

/-- The offset as the trap frame shows it: o[47:0]. -/
def ofs48 (o : Int) : Nat := (o % 281474976710656).toNat

/-- The first cause of R141 that any lane meets, at its lowest lane. -/
def State.segCheck (s : State) (w : Who) (r : SegReg) (need : Need) (group : Bool) (width align : Nat)
    (os : List (Nat × Int)) : Option Trap :=
  let fails := os.filterMap fun e => (s.segStep w r need group e.2 width align).map fun n => (n, e.2)
  match [1, 2, 3, 4, 5].findSome? fun n => fails.find? fun f => f.1 = n with
  | some (n, o) => some { cause := segCause n, aux := 0#32, ofs := ofs48 o, sel := r.sel.toNat, lin := 0 }
  | none => none

/-! ## Places through a segment -/

/-- Split a run of bytes into pieces within aligned 8 bytes; `n` bounds the pieces. -/
def pieces : Nat → Nat → Nat → List (Nat × Nat)
  | 0, _, _ => []
  | n + 1, o, len =>
    if len = 0 then []
    else
      let now := min len (8 - o % 8)
      (o, now) :: pieces n (o + now) (len - now)

/-- The banks of a cluster's member (R164). -/
def Cluster.bankPlace (c : Cluster) (o : Nat) : Option Place :=
  match c.banks[o / 2097152]? with
  | some (core, bs) => Machine.bankPlace c.die core bs (o % 2097152)
  | none => none

/-- The place of an offset through one of the registers of R399. -/
def State.ownPlace (s : State) (t : Team) (sel o : Nat) : Option Place :=
  if sel = 0xfffd then (s.clusters.find t.cluster).bind fun c => c.bankPlace o
  else if sel = 0xfffe then t.scratch o
  else some (.arg t.die t.core t.argBuf o)

/-- Pieces of at most 8 bytes through one of those registers; none where the cluster window has a hole (R164). -/
def State.ownRuns (s : State) (t : Team) (sel o len : Nat) : Option (List Run) :=
  (pieces (len / 8 + 2) o len).foldr (fun e acc =>
    match acc, s.ownPlace t sel e.1 with
    | some rs, some p => some ({ place := p, len := e.2 } :: rs)
    | _, _ => none) (some [])

/-- The runs of `len` bytes at an offset of a segment: straight for the registers of R399, else by translation. -/
inductive Reach where
  | runs (rs : List Run)
  | hole
  | fault (f : XFault) (lin : Nat)
  deriving DecidableEq, Repr

def State.reachSeg (s : State) (w : Who) (t : Option Team) (r : SegReg) (need : Need) (o len : Nat) : Reach × State :=
  if 0xfffd ≤ r.sel.toNat then
    match t with
    | some tm => match s.ownRuns tm r.sel.toNat o len with
      | some rs => (.runs rs, s)
      | none => (.hole, s)
    | none => (.hole, s)
  else
    match s.translateRange w need (len / 65536 + 2) (r.base.toNat + o) len with
    | (.ok rs, s1) => (.runs rs, s1)
    | (.error (f, l), s1) => (.fault f l, s1)

/-- The master a group is. -/
def State.whoOf (s : State) (k : GKey) (g : Group) : Who :=
  let t? := s.team? g.team
  { die := k.die, core := k.core, ctx := s.ctxOf g.team, copy := false, team := some g.team,
    gen := ((t?.bind fun t => s.host.launches.find t.launch).map (·.gen)).getD 0 }

/-- The registers of R399 for a team. -/
def ownSeg (sel : BitVec 16) (kind : BitVec 3) (wr : Bool) (limit : Nat) : SegReg :=
  { sel := sel, gen := 0, base := 0, limit := BitVec.ofNat 48 limit, r := true, w := wr, x := false, a := wr, kind := kind, s := false,
    bad := false }

/-- g12, g13 and g14 as a team starts with them (R399). -/
def Team.segs (t : Team) (w h : Nat) : Tbl SegReg :=
  [(12, ownSeg 0xfffd 4 true (w * h * 2097152)), (13, ownSeg 0xfffe 3 true t.scratchLimit), (14, ownSeg 0xffff 7 false t.argLen)]

/-- The bank of a folio place is in its refresh window: the clk at which the window ends (R166). -/
def State.refreshEnd (s : State) (rs : List Run) : Option Nat :=
  rs.findSome? fun r => match r.place with
    | .folio d o =>
      let t := (s.clk - (s.die d).born) % 30080
      let b := o / 4096 % 16
      if 1880 * b ≤ t ∧ t < 1880 * b + 256 then some (s.clk + (1880 * b + 256 - t)) else none
    | _ => none

end Sys2Proof.Machine
end

