-- ==== Sys2Proof/Machine/Registers.lean ====
section
/-! DEFINITION. The memory-mapped registers: where they lie (R12, R21 to R31, R36, R39, R42, R45, R55, R74, R144, R155, R209,
R212), what a read returns, what a read clears and what a write does (R5, R6). A register that starts an action puts the
event of that action on the agenda. -/

namespace Sys2Proof.Machine

/-- The registers, each with the thing it belongs to. -/
inductive Reg where
  | fwctl (link : Nat)
  | fwstat (set : Nat)
  | fwlog (set : Nat)
  | unfrz (die : Nat)
  | pkctl (die : Nat)
  | hfqb (die : Nat)
  | hfqpi (die : Nat)
  | hfqci (die : Nat)
  | ctx (die ctx off : Nat)
  | mgate (die : Nat)
  | pdie (die : Nat)
  | pcmd
  | pstat
  | ldstat (slot : Nat)
  | fpctl (port : Nat)
  | fpwin (port : Nat)
  | fplim (port : Nat)
  | fpstat (port : Nat)
  | qda (q : Nat)
  | qctl (q : Nat)
  | qpart (q : Nat)
  | gcmd
  | gres
  | gunreg
  | gpart
  | kstat (q : Nat)
  | mbcmd
  | mbstat
  | mbarg (i : Nat)
  | mbres (i : Nat)
  deriving DecidableEq, Repr

/-- The offsets of a context's block that hold a register, with its width (R45, R74, R144, R209). -/
def ctxRegWidth (off : Nat) : Option Nat :=
  match off with
  | 0x00 => some 4
  | 0x04 => some 4
  | 0x08 => some 8
  | 0x10 => some 8
  | 0x18 => some 8
  | 0x20 => some 8
  | 0x28 => some 8
  | 0x30 => some 8
  | 0x38 => some 4
  | 0x3c => some 4
  | 0x40 => some 4
  | 0x44 => some 4
  | 0x48 => some 8
  | 0x50 => some 8
  | 0x58 => some 8
  | 0x60 => some 4
  | 0x80 => some 4
  | 0x84 => some 4
  | 0x88 => some 8
  | 0x90 => some 8
  | 0x98 => some 8
  | 0xc0 => some 4
  | 0xc8 => some 8
  | 0xd0 => some 4
  | _ => if 0xa0 ≤ off ∧ off < 0xc0 ∧ off % 4 = 0 then some 4 else none

/-- The registers of queue control and graph registration, at an offset of their block (R30, R36). -/
def queueReg (o : Nat) : Option (Reg × Nat) :=
  match o % 16 with
  | 0 => some (.qda (o / 16), 8)
  | 8 => some (.qctl (o / 16), 4)
  | 12 => some (.qpart (o / 16), 4)
  | _ => none

def graphReg (o : Nat) : Option (Reg × Nat) :=
  match o with
  | 0x00 => some (.gcmd, 8)
  | 0x08 => some (.gres, 8)
  | 0x10 => some (.gunreg, 4)
  | 0x18 => some (.gpart, 4)
  | _ => none

/-- BAR0 of PF0. -/
def pfReg (off : Nat) : Option (Reg × Nat) :=
  if off < 0x100000 then none
  else if off < 0x100200 then
    let l := (off - 0x100000) / 16
    if l < 31 then match off % 16 with
      | 0 => some (.fwctl l, 4)
      | 4 => some (.fwstat l, 4)
      | 8 => some (.fwlog l, 4)
      | _ => none
    else none
  else if off = 0x100204 then some (.fwstat 31, 4)
  else if off = 0x100208 then some (.fwlog 31, 4)
  else if 0x110000 ≤ off ∧ off < 0x110000 + 16 * Config.dies ∧ off % 16 = 0 then some (.unfrz ((off - 0x110000) / 16), 4)
  else if 0x120000 ≤ off ∧ off < 0x120000 + 16 * Config.dies ∧ off % 16 = 0 then some (.pkctl ((off - 0x120000) / 16), 4)
  else if 0x130000 ≤ off ∧ off < 0x130000 + 256 * Config.dies then
    match off % 256 with
    | 0 => some (.hfqb ((off - 0x130000) / 256), 8)
    | 8 => some (.hfqpi ((off - 0x130000) / 256), 4)
    | 12 => some (.hfqci ((off - 0x130000) / 256), 4)
    | _ => none
  else if 0x140000 ≤ off ∧ off < 0x140000 + 0x1000 * Config.dies then
    (ctxRegWidth (off % 256)).map fun n => (.ctx ((off - 0x140000) / 0x1000) (off % 0x1000 / 0x100) (off % 256), n)
  else if 0x160000 ≤ off ∧ off < 0x160000 + 16 * Config.dies ∧ off % 16 = 0 then some (.mgate ((off - 0x160000) / 16), 4)
  else if 0x170000 ≤ off ∧ off < 0x170000 + 16 * Config.dies ∧ off % 16 = 0 then some (.pdie ((off - 0x170000) / 16), 4)
  else if off = 0x170200 then some (.pcmd, 4)
  else if off = 0x170204 then some (.pstat, 4)
  else if 0x180010 ≤ off ∧ off < 0x180000 + 16 * 21 ∧ off % 16 = 0 then some (.ldstat ((off - 0x180000) / 16), 4)
  else if 0x190000 ≤ off ∧ off < 0x190000 + 32 * 24 then
    match off % 32 with
    | 0 => some (.fpctl ((off - 0x190000) / 32), 4)
    | 8 => some (.fpwin ((off - 0x190000) / 32), 8)
    | 16 => some (.fplim ((off - 0x190000) / 32), 8)
    | 24 => some (.fpstat ((off - 0x190000) / 32), 4)
    | _ => none
  else if 0x200000 ≤ off ∧ off < 0x210000 then queueReg (off - 0x200000)
  else if 0x300000 ≤ off ∧ off < 0x300020 then graphReg (off - 0x300000)
  else none

/-- BAR0 of VF n (R27). -/
def vfReg (n off : Nat) : Option (Reg × Nat) :=
  if off < 0x10000 then queueReg off
  else if off < 0x10020 then graphReg (off - 0x10000)
  else if off = 0x20000 then some (.ldstat n, 4)
  else none

/-- BAR4 of PF0 (R39). -/
def mailReg (off : Nat) : Option (Reg × Nat) :=
  if off = 0 then some (.mbcmd, 4)
  else if off = 4 then some (.mbstat, 4)
  else if 8 ≤ off ∧ off < 0x18 ∧ off % 4 = 0 then some (.mbarg ((off - 8) / 4), 4)
  else if 0x100 ≤ off ∧ off < 0x200 ∧ off % 4 = 0 then some (.mbres ((off - 0x100) / 4), 4)
  else none

/-- The number of a function, 0 for PF0 and n for VF n: functions of the host link of die 0 are numbered 0 to 20, those of the link of die
19 32 to 52 (R26; log 70). -/
def fnNum (fn : Nat) : Nat := fn % 32

/-- The die on which the host link of a function ends (R26). -/
def fnDie (fn : Nat) : Nat := if fn / 32 = 0 then 0 else 19

/-- The register at an offset of a function's BAR, with its width. -/
def regAt (fn bar off : Nat) : Option (Reg × Nat) :=
  match bar with
  | 0 => if fnNum fn = 0 then pfReg off else vfReg (fnNum fn) off
  | 2 => if off % 4096 = 8 ∧ off / 4096 < 4096 then some (.kstat (off / 4096), 8) else none
  | 4 => if fnNum fn = 0 then mailReg off else none
  | _ => none

/-! ## What registers hold -/

/-- The records a ring holds: 2^LOG2N (R144; log 9). -/
def ringSize (fqb : BitVec 64) : Nat := 2 ^ pteBits fqb 0 5

def bitOf (b : Bool) : Nat := if b then 1 else 0

/-- Whether a die holds nothing of a context (R145). -/
def State.ctxIdle (s : State) (d c : Nat) : Bool :=
  let part := s.slotOf d
  let mine (t : Nat) : Bool := ((s.team? t).map fun x => x.die == d && x.ctx == c).getD false
  !(s.teams.any fun e => e.2.die == d && e.2.ctx == c)
    && !(s.groups.any fun e => mine e.2.team)
    && !((s.die d).saved.any fun e => e.ctx == c)
    && !(s.domains.any fun e => e.1.1 == part && e.1.2 == c && e.2.dies.contains d)
    && !((s.die d).events.any fun e => e.1.1 == c)
    && !((s.die d).queues.any fun e => e.1 / 8 == c && e.2.resident && !e.2.items.isEmpty)
    && !(s.host.queues.any fun e => e.2.en && e.2.desc.ctx == c && e.2.pslot.toNat == part)

def State.queue (s : State) (q : Nat) : Queue := s.host.queues.get Queue.reset q
def State.putQueue (s : State) (q : Nat) (x : Queue) : State := s.setHost { s.host with queues := s.host.queues.put q x }
def State.part (s : State) (p : Nat) : Part := s.host.parts.get Part.reset p
def State.putPart (s : State) (p : Nat) (x : Part) : State := s.setHost { s.host with parts := s.host.parts.put p x }
def State.greg (s : State) (fn : Nat) : GReg := s.host.gregs.get GReg.reset fn
def State.putGreg (s : State) (fn : Nat) (x : GReg) : State := s.setHost { s.host with gregs := s.host.gregs.put fn x }

/-- The status words are written within 64 clk of a change (R33). -/
def State.statusSoon (s : State) (q : Nat) : State :=
  if (s.queue q).statusDue then s
  else ((s.putQueue q { s.queue q with statusDue := true }).setFreeCtr (s.freeCtr + 1)).post (s.clk + 1 + Config.delay s.freeCtr % 64) (.statusWrite q)

/-- A launch records its first failure; a failed child's is that of the launch of the team that issued it as well (R33, R37, R351).
`n` bounds the chain. -/
def State.recordErrFrom (code : Byte) : Nat → Nat → State → State
  | 0, _, s => s
  | n + 1, l, s =>
    match s.host.launches.find l with
    | none => s
    | some x =>
      if x.err ≠ 0#8 then s
      else
        let s1 := s.setHost { s.host with launches := s.host.launches.put l { x with err := code } }
        match x.queue, x.parent with
        | some (q, seq), _ => (s1.putQueue q { s1.queue q with err := code, errseq := BitVec.ofNat 32 seq }).statusSoon q
        | none, some p => State.recordErrFrom 0x10#8 n p s1
        | none, none => s1

def State.recordErr (s : State) (l : Nat) (code : Byte) : State := State.recordErrFrom code (s.host.launches.length + 1) l s

/-- No kick is held and no launch of the queue is unretired (R30). -/
def State.queueIdle (s : State) (q : Nat) : Bool :=
  (s.queue q).held.isEmpty && !(s.host.launches.any fun e => match e.2.queue with
    | some (x, _) => x == q
    | none => false)

/-- Status word 0 (R33). -/
def Queue.word0 (q : Queue) : Nat :=
  q.done.toNat + 4294967296 * q.taken.toNat + 2 ^ 48 * q.err.toNat + 2 ^ 63 * bitOf q.ovf

/-- The partition slot a function's registers address (R21, R30, R36). -/
def pslotOf (fn : Nat) (held : BitVec 5) : Nat := if fnNum fn = 0 then held.toNat else fnNum fn

def ctxRegRead (s : State) (d c off : Nat) : Nat :=
  let x := s.ctx d c
  match off with
  | 0x00 => 256 * x.errc.toNat + 4 * bitOf (s.ctxIdle d c) + bitOf x.en
  | 0x04 => x.pasid.toNat
  | 0x08 => x.sdtb.toNat
  | 0x10 => x.rbtb.toNat
  | 0x18 => x.ptb.toNat
  | 0x20 => x.s2tb.toNat
  | 0x28 => x.lkb.toNat
  | 0x30 => x.fqb.toNat
  | 0x38 => x.fqpi.toNat
  | 0x3c => x.fqci.toNat
  | 0x40 => x.fqev.toNat
  | 0x50 => 2 ^ 63 * bitOf x.resDone + x.res.toNat
  | 0x60 => bitOf (!x.tlbBusy.isEmpty)
  | 0x80 => x.sched.toNat
  | 0x84 => x.lq.toNat
  | 0x88 => x.evtb.toNat
  | 0x90 => x.saveb.toNat
  | 0x98 => x.qsave.toNat
  | 0xc0 => x.tq.toNat
  | 0xc8 => x.tspill.toNat
  | 0xd0 => x.clev.toNat
  | _ => if 0xa0 ≤ off ∧ off < 0xc0 then x.qcfg.get 0 ((off - 0xa0) / 4) else 0

/-- What a read of a register returns (R5). STATUS of a kick page reads 0 on a function for which no queue is enabled there, once EN has cleared too (log 138). -/
def State.regValue (s : State) (fn : Nat) (r : Reg) : Nat :=
  match r with
  | .fwctl l => 2 * bitOf (s.wall l).transit + bitOf (s.wall l).closed
  | .fwstat l =>
    let w := s.wall l
    65536 * w.vcount.toNat + 16 * w.vclass.toNat + 4 * bitOf w.refused + 2 * bitOf w.frozen + bitOf (decide (w.before = 0))
  | .fwlog l => (s.wall l).log.toNat
  | .unfrz _ => 0
  | .pkctl _ => 0
  | .hfqb d => (s.die d).hfqb.toNat
  | .hfqpi d => (s.die d).hfqpi.toNat
  | .hfqci d => (s.die d).hfqci.toNat
  | .ctx d c off => ctxRegRead s d c off
  | .mgate d => (s.die d).mgate.toNat
  | .pdie d => 32768 * bitOf (s.boot.retired.contains d) + 256 * (s.slotOf d) + (s.fabric.pslot.get 1#5 d).toNat
  | .pcmd => 0
  | .pstat => 2 ^ 31 * bitOf s.fabric.pdone + 256 * s.fabric.pwhere.toNat + s.fabric.perr.toNat
  | .ldstat p =>
    let x := s.part p
    2 ^ 24 * (x.gen % 256) + 256 * x.ldShard.toNat + 128 * bitOf x.ldDone + x.ldStatus.toNat
  | .fpctl p => 4 * bitOf (s.port p).up + 2 * bitOf (s.port p).ien + bitOf (s.port p).oen
  | .fpwin p => (s.port p).win.toNat
  | .fplim p => (s.port p).lim.toNat
  | .fpstat p => 65536 * (s.port p).refused.toNat + bitOf (s.port p).up
  | .qda q => (s.queue q).qda.toNat
  | .qctl q => 256 * (s.queue q).errc.toNat + 4 * bitOf (s.queueIdle q) + bitOf (s.queue q).en
  | .qpart q => pslotOf fn (s.queue q).pslot
  | .gcmd => 0
  | .gres =>
    let g := s.greg fn
    2 ^ 63 * bitOf g.done + 2 ^ 48 * g.errg.toNat + 2 ^ 32 * g.node.toNat + g.handle.toNat
  | .gunreg => 0
  | .gpart => pslotOf fn (s.greg fn).pslot
  | .kstat q => if (s.queue q).en && (s.queue q).fn == fn then (s.queue q).word0 else 0
  | .mbcmd => 0
  | .mbstat => 2 ^ 31 * bitOf s.boot.mbDone + 2 ^ 30 * bitOf s.boot.mbBusy + 256 * s.boot.merr.toNat + s.boot.echo.toNat
  | .mbarg i => (s.boot.mbArg.get 0#32 i).toNat
  | .mbres i => (s.boot.mbRes.get 0#32 i).toNat

/-- What a read clears: the RC fields (R5). -/
def State.regClear (s : State) (fn : Nat) (r : Reg) : State :=
  match r with
  | .fwstat l => s.putWall l { s.wall l with vcount := 0#16 }
  | .fpstat p => s.putPort p { s.port p with refused := 0#16 }
  | .pstat => s.setFabric { s.fabric with pdone := false }
  | .ldstat p => s.putPart p { s.part p with ldDone := false }
  | .gres => s.putGreg fn { s.greg fn with done := false }
  | .ctx d c 0x50 => s.updCtx d c fun x => { x with resDone := false }
  | .mbstat => s.setBoot { s.boot with mbDone := false }
  | _ => s

/-! ## Writes -/

/-- Bits [hi:lo] of a written value kept in place, the rest 0. -/
def keepBits (v : BitVec 64) (lo n : Nat) : BitVec 64 := BitVec.ofNat 64 (pteBits v lo n * 2 ^ lo)

def low32 (v : BitVec 64) : Word := v.extractLsb' 0 32

/-- FQB as stored: LOG2N outside 5 to 16 stores 5 (R144). -/
def fqbOf (v : BitVec 64) : BitVec 64 :=
  let n := pteBits v 0 5
  keepBits v 12 52 ||| BitVec.ofNat 64 (if 5 ≤ n ∧ n ≤ 16 then n else 5)

/-- LOG2SZ of TSPILL and LOG2CAP of QCFG as stored: an invalid value stores 0 (R74, R45). -/
def tspillOf (v : BitVec 64) : BitVec 64 :=
  let n := pteBits v 0 5
  keepBits v 20 44 ||| BitVec.ofNat 64 (if 20 ≤ n ∧ n ≤ 30 then n else 0)

def qcfgOf (v : BitVec 64) : Nat :=
  let n := pteBits v 0 5
  if 8 ≤ n ∧ n ≤ 18 then n else 0

/-- The events an RBCMD write starts (R144, R148). -/
def rbcmdEvent (d c : Nat) (v : BitVec 64) : Option Event :=
  let idx := pteBits v 0 12
  match pteBits v 12 4 with
  | 1 => some (.rbcmdBind d c idx (pteBits v 16 16))
  | 2 => some (.rbcmdUnbind d c idx)
  | 3 => some (.rbcmdUnbindRevoke d c idx)
  | 4 => some (.rbcmdRetire d c idx)
  | _ => none

def State.postAll (s : State) (es : List Event) : State := es.foldl (fun t e => t.post t.clk e) s

/-- The events a CTXCTL write starts: a kill, with or without a held EN = 0, an enable, a disable (R145). -/
def ctxctlEvents (d c : Nat) (v : BitVec 64) : List Event :=
  if v.getLsbD 1 then
    if v.getLsbD 0 then [.contextKill d c false, .contextEnable d c] else [.contextKill d c true]
  else if v.getLsbD 0 then [.contextEnable d c]
  else [.contextDisable d c]

def ctxRegWrite (s : State) (d c off : Nat) (v : BitVec 64) : State :=
  let locked := (s.ctx d c).en
  let set (f : Ctx → Ctx) : State := s.updCtx d c f
  let setOpen (f : Ctx → Ctx) : State := if locked then s else s.updCtx d c f
  match off with
  | 0x00 => s.postAll (ctxctlEvents d c v)
  | 0x04 => set fun x => { x with pasid := v.extractLsb' 0 20 }
  | 0x08 => setOpen fun x => { x with sdtb := keepBits v 21 43 }
  | 0x10 => setOpen fun x => { x with rbtb := keepBits v 16 48 }
  | 0x18 => setOpen fun x => { x with ptb := keepBits v 21 43 }
  | 0x20 => setOpen fun x => { x with s2tb := keepBits v 21 43 ||| keepBits v 0 1 }
  | 0x28 => set fun x => { x with lkb := keepBits v 6 58 ||| keepBits v 0 4 }
  | 0x30 => setOpen fun x => { x with fqb := fqbOf v }
  | 0x3c => s.post s.clk (.fqciWrite d c (low32 v))
  | 0x40 => set fun x => { x with fqev := v.extractLsb' 0 16 }
  | 0x44 => s.post s.clk (.segsync d c (low32 v))
  | 0x48 => match rbcmdEvent d c v with
    | some e => s.post s.clk e
    | none => s
  | 0x58 => s.post s.clk (.tlbinv d c v)
  | 0x80 => set fun x => { x with sched := low32 v }
  | 0x84 => set fun x => { x with lq := low32 (keepBits v 0 11) }
  | 0x88 => setOpen fun x => { x with evtb := keepBits v 21 43 }
  | 0x90 => setOpen fun x => { x with saveb := keepBits v 16 48 }
  | 0x98 => setOpen fun x => { x with qsave := keepBits v 23 41 }
  | 0xc0 => set fun x => { x with tq := v.extractLsb' 0 16 }
  | 0xc8 => setOpen fun x => { x with tspill := tspillOf v }
  | 0xd0 => setOpen fun x => { x with clev := if pteBits v 0 2 = 0 then 3#8 else BitVec.ofNat 8 (pteBits v 0 2) }
  | _ =>
    if 0xa0 ≤ off ∧ off < 0xc0 then setOpen fun x => { x with qcfg := x.qcfg.put ((off - 0xa0) / 4) (qcfgOf v) } else s

/-- The event an UNFRZ write starts (R25). -/
def unfrzEvent (d : Nat) (v : BitVec 64) : Option Event :=
  let kind : MasterKind := match pteBits v 18 2 with
    | 0 => .group
    | 1 => .copy
    | 2 => .matrix
    | _ => .feeder
  let m : Master := { die := d, core := pteBits v 20 4, kind := kind, slot := if kind = .group then pteBits v 9 9 else 0 }
  match pteBits v 0 2 with
  | 1 => some (.unfreezeResume m)
  | 2 => some (.unfreezeKill m)
  | _ => none

/-- The event a PKCTL write starts; `by_` is the context of a master that writes through a type-6 page (R55). -/
def pkctlEvent (d : Nat) (v : BitVec 64) (by_ : Option Nat) : Option Event :=
  match pteBits v 0 2 with
  | 1 => some (.pkctlResume d (pteBits v 20 4) (pteBits v 9 9) by_)
  | 2 => some (.pkctlKill d (pteBits v 20 4) (pteBits v 9 9) by_)
  | _ => none

/-- The command a mailbox write starts (R39). -/
def mailEvent (code : Nat) : Event :=
  match code with
  | 0x01 => .stage
  | 0x02 => .margin
  | 0x10 => .stagebits
  | 0x20 => .enrol
  | 0x21 => .revoke
  | _ => .unknownMailboxCommand (BitVec.ofNat 8 code)

/-- MGATE changes: every sub-array that is not gated is compared again, one clk later or when its idle time is up (R212). -/
def State.regate (s : State) (d : Nat) : State :=
  let idle := 64 * (s.die d).mgate.toNat
  let s := s.setAgenda (s.agenda.filter fun e => match e.2 with
    | .subarrayGate k _ => k.die != d
    | _ => true)
  if idle = 0 then s
  else (List.range Config.cores).foldl (fun t c =>
    (t.core d c).arr.gated.foldl (fun u e =>
      if e.2 then u else u.post (max (u.clk + 1) ((u.core d c).arr.lastUse.get 0 e.1 + idle)) (.subarrayGate ⟨d, c⟩ e.1)) t) s

def State.postOpt (s : State) (e : Option Event) : State :=
  match e with
  | some x => s.post s.clk x
  | none => s

/-! ## Fault records and the hypervisor fault queue (R155, R162) -/

/-- The PASID number that marks host memory reached without a PASID (R29, R40). -/
def noPasid : Nat := 1048576

/-- The 32 bytes of R162. -/
def faultBytes (r : FaultRec) (die : Nat) (seq : Word) (pasid : Nat) : List Byte :=
  leBytes 8 (r.lin % 2 ^ 57)
    ++ leBytes 4 (r.ec.ec + 256 * r.kind + (if r.hostfail then 1024 else 0) + 4096 * r.core + 65536 * die + 2097152 * r.slot)
    ++ leBytes 4 r.sel ++ leBytes 8 (r.ofs % 2 ^ 48) ++ leBytes 4 seq.toNat ++ leBytes 4 pasid

/-- Write a record to the hypervisor fault queue of a die, with MSI-X vector 0 of PF0 (R155); none while the ring is full (R160). -/
def State.writeHyper (s : State) (die ctx : Nat) (r : FaultRec) : Option State :=
  let d := s.die die
  if ringSize d.hfqb ≤ (d.hfqpi - d.hfqci).toNat then none
  else
    let at_ := pteBits d.hfqb 12 52 * 4096 + 32 * (d.hfqpi.toNat % ringSize d.hfqb)
    let s1 := s.writeBytes (.host noPasid at_) (faultBytes r die d.hfqpi (s.ctx die ctx).pasid.toNat)
    some ((s1.updDie die fun x => { x with hfqpi := x.hfqpi + 1#32 }).send (.msix 0 0))

/-- Write the hypervisor's records that wait, oldest first, while there is room. -/
def State.drainHyper (s : State) (die : Nat) : List (Nat × FaultRec) → State
  | [] => s.updDie die fun d => { d with hfaults := [] }
  | r :: rest =>
    match s.writeHyper die r.1 r.2 with
    | some s1 => s1.drainHyper die rest
    | none => s.updDie die fun d => { d with hfaults := r :: rest }

/-! ## Writes -/

/-- What a write to a register does (R5, R6). A QCTL write with DRAIN = 1 is a DRAIN, whatever its EN is (log 137). -/
def State.regPut (s : State) (fn : Nat) (by_ : Option Nat) (r : Reg) (v : BitVec 64) : State :=
  match r with
  | .fwctl l => s.post s.clk (.fwctlWrite l (low32 v))
  | .fwstat l =>
    let w := s.wall l
    s.putWall l { w with refused := w.refused && !v.getLsbD 2, frozen := w.frozen && !v.getLsbD 1 }
  | .unfrz d => s.postOpt (unfrzEvent d v)
  | .pkctl d => s.postOpt (pkctlEvent d v by_)
  | .hfqb d => s.updDie d fun x => { x with hfqb := fqbOf v }
  | .hfqci d =>
    if ringSize (s.die d).hfqb < ((s.die d).hfqpi - low32 v).toNat then s
    else (s.updDie d fun x => { x with hfqci := low32 v }).drainHyper d (s.die d).hfaults
  | .ctx d c off => ctxRegWrite s d c off v
  | .mgate d => (s.updDie d fun x => { x with mgate := v.extractLsb' 0 16 }).regate d
  | .pdie d =>
    let n := pteBits v 0 5
    s.setFabric { s.fabric with pslot := s.fabric.pslot.put d (if 20 < n then 0#5 else BitVec.ofNat 5 n) }
  | .pcmd => match pteBits v 0 2 with
    | 1 => s.post s.clk .apply
    | 2 => s.post s.clk (.retire (pteBits v 8 5))
    | _ => s
  | .fpctl p => s.post s.clk (.fpctlWrite p (low32 v))
  | .fpwin p => if (s.port p).ien then s else s.putPort p { s.port p with win := keepBits v 16 48 }
  | .fplim p => if (s.port p).ien then s else s.putPort p { s.port p with lim := keepBits v 16 32 }
  | .qda q => s.putQueue q { s.queue q with qda := keepBits v 8 56 }
  | .qctl q =>
    if v.getLsbD 1 then s.post s.clk (.drain fn q)
    else if v.getLsbD 0 then s.post s.clk (.queueEnable fn q)
    else s.post s.clk (.queueDisable fn q)
  | .qpart q => if fnNum fn ≠ 0 ∨ (s.queue q).en then s else s.putQueue q { s.queue q with pslot := v.extractLsb' 0 5 }
  | .gcmd => s.post s.clk (.gcmd fn v)
  | .gunreg => s.post s.clk (.gunreg fn (low32 v))
  | .gpart => if fnNum fn ≠ 0 then s else s.putGreg fn { s.greg fn with pslot := v.extractLsb' 0 5 }
  | .mbcmd =>
    if s.boot.mbBusy then s
    else
      let code := pteBits v 0 8
      (s.setBoot { s.boot with mbBusy := true, mbDone := false, merr := 0#8, echo := BitVec.ofNat 8 code }).after 0 (mailEvent code)
  | .mbarg i => s.setBoot { s.boot with mbArg := s.boot.mbArg.put i (low32 v) }
  | _ => s

/-! ## Accesses -/

/-- Whether the host link of a function is in service: that of die 19 goes with its die (R19). -/
def State.fnLive (s : State) (fn : Nat) : Bool := fn / 32 == 0 || !s.boot.retired.contains 19

/-- Whether a BAR of a function answers: its link is in service (R19); BAR0 and BAR2 are open from stage 4 on (R17). -/
def State.barsOpen (s : State) (fn bar : Nat) : Bool := s.fnLive fn && (bar == 4 && decide (1 ≤ s.boot.stage) || s.boot.stage == 4)

/-- The value a read of a register block returns: all ones before stage 4, 0 where no register of that width lies. -/
def State.regRead (s : State) (fn bar off width : Nat) : Nat :=
  if !s.barsOpen fn bar then 2 ^ (8 * width) - 1
  else match regAt fn bar off with
    | some (r, n) => if n = width then s.regValue fn r else 0
    | none => 0

/-- A read of a register, with what it clears. -/
def State.regReadClear (s : State) (fn bar off width : Nat) : State :=
  if !s.barsOpen fn bar then s
  else match regAt fn bar off with
    | some (r, n) => if n = width then s.regClear fn r else s
    | none => s

/-- A write: kick pages take any width (R32), registers their own. -/
def State.regWrite (s : State) (fn bar off width : Nat) (v : BitVec 64) (by_ : Option Nat) : State :=
  if !s.barsOpen fn bar then s
  else if bar = 2 ∧ off % 4096 < 8 ∧ off / 4096 < 4096 then s.post s.clk (.kick fn (off / 4096) (off % 4096) width v)
  else match regAt fn bar off with
    | some (r, n) => if n = width then s.regPut fn by_ r v else s
    | none => s

/-- REGISTER_WRITE (R5, R6, R17). -/
def State.registerWrite (s : State) (fn bar off width : Nat) (v : BitVec 64) : State := s.regWrite fn bar off width v none

/-- An AtomicOp of the host on a register (R26): a read and, but for a CAS whose values differ, a write, in one; the host has the old value (log 70). -/
def State.registerAtomic (s : State) (fn bar off width : Nat) (op : HostAtomic) (v : BitVec 64) : State :=
  let old : BitVec 64 := BitVec.ofNat 64 (s.regRead fn bar off width)
  let s1 := s.regReadClear fn bar off width
  (match op with
    | .fetchAdd => s1.registerWrite fn bar off width (old + v)
    | .swap => s1.registerWrite fn bar off width v
    | .cas c => if old.toNat = c.toNat % 2 ^ (8 * width) then s1.registerWrite fn bar off width v else s1).send (.atomicOld fn bar off old)

end Sys2Proof.Machine
end

