-- ==== Sys2Proof/Machine/Homes.lean ====
section
/-! DEFINITION. The home slices: what a read and a write do at their place (R12, R168, R299, R304, R400), the tracking of
speculative tasks (R78 to R83), and the abort of a task (R83). -/

namespace Sys2Proof.Machine

/-! ## Running time (R56, R90) -/

/-- How many clk a context has been the running context of a die. -/
def State.ranClk (s : State) (die ctx : Nat) : Nat :=
  (s.ctx die ctx).ran + if (s.die die).run = some ctx then s.clk - (s.die die).ranSince else 0

/-- The running context of a die changes: the time of the one before is counted. -/
def State.setRun (s : State) (die : Nat) (r : Option Nat) : State :=
  let s1 := match (s.die die).run with
    | some c => s.updCtx die c fun x => { x with ran := s.ranClk die c }
    | none => s
  s1.updDie die fun d => { d with run := r, ranSince := s.clk }

/-! ## Keys and records (R72, R73) -/

def keyLt (a b : TaskKey) : Bool := BitVec.ult a.ts b.ts || (a.ts == b.ts && BitVec.ult a.tb b.tb)

/-- The key of a record, or its floor key before its first dispatch (R73). -/
def Rec.effKey (r : Rec) : TaskKey :=
  match r.tb with
  | some b => { ts := r.ts, tb := b }
  | none => r.floor

/-- Insert a record in key order. -/
def insertRec (r : Rec) : List Rec → List Rec
  | [] => [r]
  | x :: rest => if keyLt r.effKey x.effKey then r :: x :: rest else x :: insertRec r rest

def State.domain? (s : State) (part ctx : Nat) : Option Domain := assocGet s.domains (part, ctx)
def State.putDomain (s : State) (part ctx : Nat) (d : Domain) : State := s.setDomains (assocPut s.domains (part, ctx) d)
def State.updDomain (s : State) (part ctx : Nat) (f : Domain → Domain) : State :=
  match s.domain? part ctx with
  | some d => s.putDomain part ctx (f d)
  | none => s

/-- The part of a domain on a die that holds nothing, with no frontier. -/
def DomDie.empty : DomDie :=
  { queued := [], spilled := [], places := [], finished := [], counts := [], sample := { ts := BitVec.allOnes 48, tb := BitVec.allOnes 16 },
    others := [], frontier := none, refilling := false, committing := none, remains := [] }

def Domain.at (d : Domain) (die : Nat) : DomDie := d.onDie.get DomDie.empty die
def Domain.upd (d : Domain) (die : Nat) (f : DomDie → DomDie) : Domain := { d with onDie := d.onDie.put die (f (d.at die)) }

/-- The groups that run tasks of a partition's context. -/
def State.taskGroups (s : State) (part ctx : Nat) : List (GKey × Group × Task) :=
  s.groups.filterMap fun e => match e.2.task with
    | some t => if s.slotOf (keyOfNum e.1).die = part ∧ s.ctxOf e.2.team = ctx then some (keyOfNum e.1, e.2, t) else none
    | none => none

/-- The tasks of a partition's context that flashback has saved, with their dies (R64, R66). -/
def State.savedTasks (s : State) (part ctx : Nat) : List (Nat × Task) :=
  (s.diesOf part).flatMap fun d => (s.die d).saved.filterMap fun x => if x.ctx = ctx then x.group.task.map fun t => (d, t) else none

/-- The key of a task that has been dispatched and has not committed: running, saved or finished. -/
def State.taskKey? (s : State) (part ctx id : Nat) : Option TaskKey :=
  match (s.taskGroups part ctx).find? fun e => e.2.2.record.id = id with
  | some e => some e.2.2.key
  | none => match (s.savedTasks part ctx).find? fun e => e.2.record.id = id with
    | some e => some e.2.key
    | none => match s.domain? part ctx with
      | some d => (d.onDie.flatMap fun e => e.2.finished).findSome? fun f => if f.task.record.id = id then some f.task.key else none
      | none => none

/-- Whether a domain holds no record and no task that is unfinished or uncommitted (R67). -/
def State.domainEmpty (s : State) (part ctx : Nat) (d : Domain) : Bool :=
  (s.taskGroups part ctx).isEmpty && (s.savedTasks part ctx).isEmpty
    && d.onDie.all fun e => e.2.queued.isEmpty && e.2.spilled.isEmpty && e.2.finished.isEmpty

/-! ## Abort (R83) -/

/-- A task slot with no task: it does nothing between tasks (R68). Nothing of the task is left in it. -/
def Group.emptySlot (g : Group) : Group :=
  { g with task := none, run := .stopped, clause := none, pos := 0, half := .fresh, well := [], n0 := none, n1 := none, stack := [],
           spilled := 0, handler := none, lsq := [], ceq := [], me := 0, fd := 0, pend := [], log := [],
           acqUntil := 0, scOut := [], irrev := false, budgetDue := false, barrierDue := [], raiseDue := none, arrivals := [],
           flash := .no, dead := [], acted := 0, recipe := [], pprecipe := [], ppc := 0xffffffff#32, ppseg := SegReg.null, pphand := none }

/-- Free the slot of a task: its group leaves the pen, its accesses in flight are dropped, and a record may be dispatched, or the empty slot leaves the
die with its context (R64). -/
def State.freeSlot (s : State) (part ctx : Nat) (k : GKey) (g : Group) : State :=
  let p := s.pen (penOf k)
  let s := s.putPen (penOf k) { p with holder := if p.holder = some k.slot then none else p.holder,
                                         stalled := p.stalled && p.holder != some k.slot, claims := p.claims.filter fun e => e.1 ≠ k.slot }
  let s := s.setAccess (s.access.filter fun e => !(e.2.g == k && e.2.team == g.team))
  if (s.die k.die).switching ∧ (s.die k.die).run = some ctx then
    (s.putGroup k { g.emptySlot with flash := .saving false 0 }).post s.clk (.groupSave k g.team)
  else (s.putGroup k g.emptySlot).post s.clk (.taskDispatch k.die part ctx)

/-- Drop the home-slice records of a task. -/
def Domain.untrack (d : Domain) (id : Nat) : Domain :=
  { d with tracks := (d.tracks.map fun t =>
      { t with readers := t.readers.filter (· ≠ id), writers := t.writers.filter (· ≠ id),
               promoted := if t.promoted = some id then none else t.promoted }).filter fun t =>
        !(t.readers.isEmpty && t.writers.isEmpty && t.promoted == none) }

/-- Abort one task: stop it, discard its draft and records, and requeue its record unless it is removed. The die's task unit looks at its
store again: it may be over its size, or have places free (R75). -/
def State.abortOne (s : State) (part ctx id : Nat) (requeue : Bool) : State :=
  let back (s : State) (die : Nat) (r : Rec) : State :=
    (if requeue then s.updDomain part ctx fun d => d.upd die fun x => { x with queued := insertRec r x.queued } else s).post s.clk
      (.taskDispatch die part ctx)
  let s := s.updDomain part ctx fun d => d.untrack id
  match (s.taskGroups part ctx).find? fun e => e.2.2.record.id = id with
  | some (k, g, t) => back (s.freeSlot part ctx k g) k.die t.record
  | none =>
    match s.domain? part ctx with
    | none => s
    | some d =>
      match d.onDie.findSome? fun e => (e.2.finished.find? fun f => f.task.record.id = id).map fun f => (e.1, f) with
      | some (die, f) =>
        back (s.updDomain part ctx fun d => d.upd die fun x =>
          { x with finished := x.finished.filter fun y => y.task.record.id ≠ id }) die f.task.record
      | none => s

/-- The dispatched children of a task that an abort of it reaches: not the unordered ones, which are never aborted (R77; log 127). -/
def State.children (s : State) (part ctx id : Nat) : List Nat :=
  ((s.taskGroups part ctx).filterMap fun e =>
      if e.2.2.record.parent = some id ∧ !e.2.2.record.u then some e.2.2.record.id else none)
    ++ (match s.domain? part ctx with
      | some d => (d.onDie.flatMap fun e => e.2.finished).filterMap fun f =>
          if f.task.record.parent = some id then some f.task.record.id else none
      | none => [])

/-- The records a task spawned that are still queued or spilled are removed. -/
def State.dropChildren (s : State) (part ctx id : Nat) : State :=
  s.updDomain part ctx fun d => { d with onDie := d.onDie.map fun e =>
    (e.1, { e.2 with queued := e.2.queued.filter fun r => r.parent ≠ some id,
                     spilled := e.2.spilled.filter fun r => r.parent ≠ some id,
                     places := e.2.places.filter fun p => !(e.2.spilled.any fun r => r.parent == some id && r.id == p.1) }) }

/-- Abort a task and, recursively, what it spawned, whose records are removed (R83); `n` bounds the depth. -/
def State.abortTask (part ctx : Nat) : Nat → State → Nat → Bool → State
  | 0, s, _, _ => s
  | n + 1, s, id, requeue =>
    let kids := s.children part ctx id
    let s1 := (s.abortOne part ctx id requeue).dropChildren part ctx id
    kids.foldl (fun t c => State.abortTask part ctx n t c false) s1

/-- The depth of descent that no chain of tasks exceeds. -/
def State.taskDepth (s : State) : Nat := s.fresh + 1

def State.abort (s : State) (part ctx id : Nat) (requeue : Bool) : State := State.abortTask part ctx s.taskDepth s id requeue

/-! ## Tracking (R79 to R81) -/

/-- The grains a run of bytes touches in tracked memory. -/
def Run.grains (r : Run) : List Place :=
  match r.place with
  | .hbm d o => (List.range ((o % 64 + r.len + 63) / 64)).map fun i => .hbm d (o / 64 * 64 + 64 * i)
  | _ => []

/-- The home slice of an HBM offset (R81). -/
def homeSlice (a : Nat) : Nat := (a / 64 % 16) ^^^ (a / 1024 % 16) ^^^ (a / 16384 % 16) ^^^ (a / 262144 % 16)

def sameSlice (a b : Place) : Bool :=
  match a, b with
  | .hbm d x, .hbm e y => d == e && homeSlice x == homeSlice y
  | _, _ => false

def Domain.track (d : Domain) (p : Place) : Track :=
  (d.tracks.find? fun t => t.place = p).getD { place := p, readers := [], writers := [], promoted := none }

def Domain.putTrack (d : Domain) (t : Track) : Domain := { d with tracks := t :: d.tracks.filter fun x => x.place ≠ t.place }

/-- Whether a home slice has room for one more record of a grain: 8 readers and 8 writers of a grain, and 16384 tracked grains, of whichever
domains (R81). -/
def State.roomOn (s : State) (p : Place) (reader : Bool) (id : Nat) : Bool :=
  let all := s.domains.flatMap fun e => e.2.tracks
  let l := (all.filter fun x => x.place == p).flatMap fun x => if reader then x.readers else x.writers
  l.contains id || (decide (l.length < 8)
    && (all.any (fun x => x.place == p) || decide (((all.filter fun x => sameSlice x.place p).map (·.place)).dedup.length < 16384)))

/-- Whether home slices have room for a task's records of some grains together: the new grains of a slice come on top of one another (R81). -/
def State.roomOnAll (s : State) (ps : List Place) (reader : Bool) (id : Nat) : Bool :=
  let all := s.domains.flatMap fun e => e.2.tracks
  let fresh := ps.dedup.filter fun p => !(all.any fun x => x.place == p)
  ps.all (fun p => s.roomOn p reader id) && fresh.all fun p =>
    decide (((all.filter fun x => sameSlice x.place p).map (·.place)).dedup.length + (fresh.filter fun q => sameSlice q p).length ≤ 16384)

/-- The uncommitted writers of a grain, the promoted one among them. -/
def Track.allWriters (t : Track) : List Nat := t.writers ++ (match t.promoted with | some i => [i] | none => [])

/-- Whether a speculative read of a grain must wait: an earlier task has written it (R80). -/
def State.readStalls (s : State) (part ctx : Nat) (d : Domain) (me : Task) (p : Place) : Bool :=
  (d.track p).allWriters.any fun i => i != me.record.id && match s.taskKey? part ctx i with
    | some k => keyLt k me.key
    | none => false

/-- Record a reader or a writer of grains. -/
def Domain.record (d : Domain) (id : Nat) (reader promoted : Bool) (ps : List Place) : Domain :=
  ps.foldl (fun d p =>
    let t := d.track p
    d.putTrack (if promoted then { t with promoted := some id }
      else if reader then { t with readers := if t.readers.contains id then t.readers else t.readers ++ [id] }
      else { t with writers := if t.writers.contains id then t.writers else t.writers ++ [id] })) d

/-- A write reaches grains: the speculative readers it comes before abort (R80, R81). `me` is none for a write from outside the
domain, which every reader comes after. -/
def State.hitReaders (s : State) (part ctx : Nat) (me : Option Task) (ps : List Place) : State :=
  match s.domain? part ctx with
  | none => s
  | some d =>
    let ids := (ps.flatMap fun p => (d.track p).readers).dedup
    ids.foldl (fun t i =>
      let later := match me with
        | none => true
        | some m => m.record.id != i && (match t.taskKey? part ctx i with
          | some k => keyLt m.key k
          | none => false)
      if later then t.abort part ctx i true else t) s

/-! ## Drafts (R78) -/

/-- The banks of the scratchpad allocation that a bank of a core belongs to, and the offset in it of a byte of that bank (R163, R164). -/
def State.scrOffset (s : State) (die core off : Nat) : Option (List Nat × Nat) :=
  s.clusters.findSome? fun e =>
    if e.2.die ≠ die then none
    else e.2.banks.findSome? fun x =>
      if x.1 ≠ core then none
      else (x.2.findIdx? fun b => b == off / 4096).map fun i => (x.2, (off % 4096 / 8 * x.2.length + i) * 8 + off % 8)

/-- The grain of a byte, as the place of its first byte, and how far the byte lies in it. 64 bytes aligned to 64 are those of the segment that
gives the byte its address: of a scratchpad allocation, not of a bank (R78, R163). -/
def State.grainAt (s : State) (p : Place) : Place × Nat :=
  match p with
  | .scr d c o => match s.scrOffset d c o with
    | some (bs, x) => ((bankPlace d c bs (x / 64 * 64)).getD p.grain, x % 64)
    | none => (p.grain, p.inGrain)
  | _ => (p.grain, p.inGrain)

/-- Byte `i` of a grain. -/
def State.grainByte (s : State) (g : Place) (i : Nat) : Place :=
  match g with
  | .scr d c o => match s.scrOffset d c o with
    | some (bs, x) => (bankPlace d c bs (x + i)).getD (g.shift i)
    | none => g.shift i
  | _ => g.shift i

/-- The place of a grain in the order of addresses: that of its bytes' segment. -/
def State.grainOrder (s : State) (g : Place) : Nat :=
  match g with
  | .scr d c o => match s.scrOffset d c o with
    | some (_, x) => (Place.scr d c x).key
    | none => g.key
  | _ => g.key

/-- A byte as a task reads it: what it drafted, else memory. -/
def State.draftByte (s : State) (t : Task) (p : Place) : Byte :=
  let a := s.grainAt p
  match t.draft.find? fun g => g.place = a.1 with
  | some g => if g.mask.getLsbD a.2 then g.bytes.getD a.2 0#8 else s.readByte p
  | none => s.readByte p

/-- Draft byte `i` of a grain. -/
def Task.draftPut (t : Task) (p : Place) (i : Nat) (b : Byte) : Task :=
  let g := (t.draft.find? fun g => g.place = p).getD { place := p, mask := 0#64, bytes := List.replicate 64 0#8 }
  let g' : Grain := { g with mask := g.mask ||| (1#64 <<< i), bytes := g.bytes.set i b }
  if t.draft.any fun x => x.place = p then { t with draft := t.draft.map fun x => if x.place = p then g' else x }
  else { t with draft := t.draft ++ [g'] }

/-- The bytes of runs one by one, with their places. -/
def byteWrites : List Run → List Byte → List (Place × Byte)
  | [], _ => []
  | r :: rest, bs => ((List.range r.len).zip (bs.take r.len)).map (fun e => (r.place.shift e.1, e.2)) ++ byteWrites rest (bs.drop r.len)

/-- Draft the bytes of runs. -/
def State.draftRuns (s : State) (t : Task) (rs : List Run) (bs : List Byte) : Task :=
  (byteWrites rs bs).foldl (fun (u : Task) e => let a := s.grainAt e.1; u.draftPut a.1 a.2 e.2) t

/-- Whether a byte lies in a grain of a draft. -/
def State.drafted (s : State) (t : Task) (p : Place) : Bool := let a := s.grainAt p; t.draft.any fun g => g.place == a.1

/-- The grains of any place that runs touch. -/
def State.draftGrains (s : State) (rs : List Run) : List Place :=
  (rs.flatMap fun r => (List.range r.len).map fun i => (s.grainAt (r.place.shift i)).1).dedup

/-- Whether a store fits the drafts of its task and its core: 32 and 4096 grains (R68, R78). -/
def State.draftFits (s : State) (k : GKey) (t : Task) (rs : List Run) : Bool :=
  let fresh := (s.draftGrains rs).filter fun p => !(t.draft.any fun g => g.place = p)
  let held := (s.groups.filter fun e => (keyOfNum e.1).die = k.die ∧ (keyOfNum e.1).core = k.core).foldl
    (fun n e => n + (match e.2.task with | some x => x.draft.length | none => 0)) 0
  let finished := s.domains.foldl (fun n e => n + (((e.2.at k.die).finished.filter fun f => f.core = k.core).foldl
    (fun m f => m + f.task.draft.length) 0)) 0
  decide (t.draft.length + fresh.length ≤ 32) && decide (held + finished + fresh.length ≤ 4096)

/-! ## Reads and writes at a place -/

/-- The byte of a block of the queue store that a queue's records lie in (R60, R152). -/
def WorkQueue.byteAt (x : WorkQueue) (o : Nat) : Option Byte :=
  if x.resident then
    (x.blocks.findIdx? fun b => b == o / 64).bind fun j => x.items[16 * j + o % 64 / 4]?.map fun w => w.extractLsb' (8 * (o % 4)) 8
  else none

/-- The record with one byte of it written. -/
def WorkQueue.putByte (x : WorkQueue) (o : Nat) (b : Byte) : WorkQueue :=
  match x.blocks.findIdx? fun n => n == o / 64 with
  | some j =>
    let i := 16 * j + o % 64 / 4
    let sh := 8 * (o % 4)
    { x with items := x.items.set i ((x.items.getD i 0#32 &&& ~~~(255#32 <<< sh)) ||| (b.setWidth 32 <<< sh)) }
  | none => x

/-- A byte of a die's queue store: of a record, or of a block that no queue holds. -/
def State.queueByte (s : State) (d o : Nat) : Byte :=
  ((s.die d).queues.findSome? fun e => e.2.byteAt o).getD (s.readByte (.queueStore d o))

/-- Write a byte of a die's queue store. -/
def State.setQueueByte (s : State) (d o : Nat) (b : Byte) : State :=
  match (s.die d).queues.find? fun e => (e.2.byteAt o).isSome with
  | some e => s.updDie d fun x => { x with queues := x.queues.put e.1 (e.2.putByte o b) }
  | none => s.writeByte (.queueStore d o) b

/-- Read a run: a register read acts (R400, R5), what a far module answers is free (log 16). -/
def State.loadRun (s : State) (r : Run) : List Byte × State :=
  match r.place with
  | .reg fn off => (leBytes r.len (s.regRead fn 0 off r.len), s.regReadClear fn 0 off r.len)
  | .far _ _ => ((List.range r.len).map fun i => Config.farByte (s.freeCtr + i), s.setFreeCtr (s.freeCtr + r.len))
  | .queueStore d o => ((List.range r.len).map fun i => s.queueByte d (o + i), s)
  | p => (s.readBytes p r.len, s)

def State.loadRuns (s : State) : List Run → List Byte × State
  | [] => ([], s)
  | r :: rest =>
    let (a, s1) := s.loadRun r
    let (b, s2) := s1.loadRuns rest
    (a ++ b, s2)

/-- Write a run; a write to a far module leaves this machine (log 16). -/
def State.storeRun (s : State) (ctx : Nat) (r : Run) (bs : List Byte) : State :=
  match r.place with
  | .reg fn off => s.regWrite fn 0 off r.len (BitVec.ofNat 64 (leNat bs)) (some ctx)
  | .far _ _ => s
  | .queueStore d o => ((List.range r.len).zip bs).foldl (fun t e => t.setQueueByte d (o + e.1) e.2) s
  | p => s.writeBytes p bs

def State.storeRuns (s : State) (ctx : Nat) : List Run → List Byte → State
  | [], _ => s
  | r :: rest, bs => (s.storeRun ctx r (bs.take r.len)).storeRuns ctx rest (bs.drop r.len)

/-- The grains that runs cover whole are no longer poisoned (R168). -/
def State.unpoison (s : State) (rs : List Run) : State :=
  if s.poison.isEmpty then s
  else
    let bytes := rs.flatMap fun r => (List.range r.len).map fun i => r.place.shift i
    s.setPoison (s.poison.filter fun g => !((List.range 64).all fun i => bytes.contains (g.shift i)))

/-- Whether any byte of runs has an uncorrectable error: a poisoned grain of HBM, or a folio region (R168). -/
def State.spoiled (s : State) (rs : List Run) : Bool :=
  rs.any fun r => match r.place with
    | .hbm _ _ => r.grains.any fun g => s.poison.contains g
    | .folio d o => (s.die d).folioBad.contains (o / 4194304)
    | _ => false

/-- A write from outside every domain reaches memory: it aborts the speculative readers of the grains it touches (R81). -/
def State.outsideHit (s : State) (rs : List Run) : State :=
  let ps := rs.flatMap Run.grains
  if ps.isEmpty then s else s.domains.foldl (fun t e => t.hitReaders e.1.1 e.1.2 none ps) s

/-- A write of an engine or of the module. -/
def State.engineWrite (s : State) (ctx : Nat) (rs : List Run) (bs : List Byte) : State :=
  ((s.storeRuns ctx rs bs).unpoison rs).outsideHit rs

/-- The domain a task of a group belongs to. -/
def State.partCtx (s : State) (k : GKey) (g : Group) : Nat × Nat := (s.slotOf k.die, s.ctxOf g.team)

/-- The bytes of a promoted task that touch a grain which has not drained yet: they are added to the draft and drain with it (R87). -/
def State.joinDraft (s : State) (t : Task) (rs : List Run) (bs : List Byte) : Task :=
  ((byteWrites rs bs).filter fun e => s.drafted t e.1).foldl (fun (u : Task) e => let a := s.grainAt e.1; u.draftPut a.1 a.2 e.2) t

/-- The other bytes go to memory. -/
def State.storePast (ctx : Nat) (t : Task) : List Run → List Byte → State → State
  | [], _, s => s
  | r :: rest, bs, s =>
    let mine := bs.take r.len
    let s1 := if (List.range r.len).any fun i => s.drafted t (r.place.shift i) then
        ((byteWrites [r] mine).filter fun e => !s.drafted t e.1).foldl (fun u e => u.writeByte e.1 e.2) s
      else (s.storeRun ctx r mine).unpoison [r]
    State.storePast ctx t rest (bs.drop r.len) s1

/-- A write of a group reaches its home: a task of a domain marks the grains and aborts the later readers; a speculative one
drafts instead (R78, R80, R87). -/
def State.groupWrite (s : State) (k : GKey) (g : Group) (rs : List Run) (bs : List Byte) : State :=
  let (part, ctx) := s.partCtx k g
  let ps := rs.flatMap Run.grains
  match g.task with
  | none => s.engineWrite ctx rs bs
  | some t =>
    if t.record.u then s.engineWrite ctx rs bs
    else if t.spec then
      let s1 := s.updGroup k fun h => { h with task := h.task.map fun x => s.draftRuns x rs bs }
      let s2 := s1.updDomain part ctx fun d => d.record t.record.id false false ps
      s2.hitReaders part ctx (some t) ps
    else
      let s0 := if t.draft.isEmpty then (s.storeRuns ctx rs bs).unpoison rs
        else (State.storePast ctx t rs bs s).updGroup k fun h => { h with task := h.task.map fun x => s.joinDraft x rs bs }
      let s1 := s0.updDomain part ctx fun d => d.record t.record.id false true ps
      let s2 := s1.hitReaders part ctx (some t) ps
      s2.domains.foldl (fun u e => if e.1 = (part, ctx) then u else u.hitReaders e.1.1 e.1.2 none ps) s2

/-- The bytes a group reads: through its draft while it is speculative (R78), recorded as a reader (R80). -/
def State.groupRead (s : State) (k : GKey) (g : Group) (rs : List Run) : List Byte × State :=
  let (part, ctx) := s.partCtx k g
  match g.task with
  | some t =>
    if t.spec then
      ((rs.flatMap fun r => (List.range r.len).map fun i => s.draftByte t (r.place.shift i)),
        s.updDomain part ctx fun d => d.record t.record.id true false (rs.flatMap Run.grains))
    else if t.draft.isEmpty then s.loadRuns rs
    else
      let (bs, s1) := s.loadRuns rs
      ((byteWrites rs bs).map fun e => if s.drafted t e.1 then s.draftByte t e.1 else e.2, s1)
  | none => s.loadRuns rs

/-- Whether a group's access must wait at its home slices: a read behind an earlier writer, or no room for a record or a draft
grain (R78, R80, R81). -/
def State.homeStalls (s : State) (k : GKey) (g : Group) (rs : List Run) (reads writes : Bool) : Bool :=
  match g.task with
  | none => false
  | some t =>
    if !t.spec then false
    else
      let (part, ctx) := s.partCtx k g
      let ps := (rs.flatMap Run.grains).dedup
      match s.domain? part ctx with
      | none => false
      | some d =>
        (reads && (ps.any (fun p => s.readStalls part ctx d t p) || !s.roomOnAll ps true t.record.id))
          || (writes && (!s.roomOnAll ps false t.record.id || !s.draftFits k t rs))

end Sys2Proof.Machine
end

