-- ==== Sys2Proof/Machine/Faults.lean ====
section
/-! DEFINITION. What becomes of an access that cannot go on: events signalled (R57), fault records (R160, R162), parks (R54,
R156), system-level violations (R24), causes deferred by speculation (R89). -/

namespace Sys2Proof.Machine

/-! ## Events (R57) -/

/-- Carry an act on an event from a die to the event's home die. -/
def State.eventAct (s : State) (die ctx name : Nat) (a : EventAct) : State :=
  s.after (max 1 (60 * hops die (s.homeDie (s.slotOf die)))) (.eventActArrive (s.slotOf die) ctx name a)

def State.signal (s : State) (die ctx name : Nat) : State := s.eventAct die ctx name (.signal none)

/-! ## Fault records -/

/-- Write bytes at a linear address of a context, as a master of a die; the fault that stops it. -/
def State.writeLin (s : State) (w : Who) (lin : Nat) (bs : List Byte) : Option XFault × State :=
  match s.translateRange w .write (bs.length / 65536 + 2) lin bs.length with
  | (.ok rs, s1) => (none, s1.engineWrite w.ctx rs bs)
  | (.error (f, _), s1) => (some f, s1)

/-- A die as a master of a context, on no core's behalf. -/
def dieWho (die ctx : Nat) : Who := { die := die, core := 0, ctx := ctx, gen := 0, copy := false }

/-- Write a record to the fault queue of a context on a die, raise PI and signal FQEV (R160); none while the ring is full or
its page cannot be written. -/
def State.writeFault (s : State) (die ctx : Nat) (r : FaultRec) : Option State :=
  let c := s.ctx die ctx
  if ringSize c.fqb ≤ (c.fqpi - c.fqci).toNat then none
  else
    match s.writeLin (dieWho die ctx) (pteBits c.fqb 12 52 * 4096 + 32 * (c.fqpi.toNat % ringSize c.fqb))
        (faultBytes r die c.fqpi c.pasid.toNat) with
    | (none, s1) => some ((s1.updCtx die ctx fun x => { x with fqpi := x.fqpi + 1#32 }).signal die ctx c.fqev.toNat)
    | (some _, _) => none

/-- Report a fault: at once, or behind the records that wait for room (R160). -/
def State.report (s : State) (die ctx : Nat) (r : FaultRec) : State :=
  let later := s.updCtx die ctx fun c => { c with faults := c.faults ++ [r] }
  if (s.ctx die ctx).faults.isEmpty then (s.writeFault die ctx r).getD later else later

/-- Write the records that wait, oldest first, while there is room. -/
def State.drainFaults (s : State) (die ctx : Nat) : List FaultRec → State
  | [] => s.updCtx die ctx fun c => { c with faults := [] }
  | r :: rest =>
    match s.writeFault die ctx r with
    | some s1 => s1.drainFaults die ctx rest
    | none => s.updCtx die ctx fun c => { c with faults := r :: rest }

/-- Whether `n` more records find room (R160). -/
def State.roomFor (s : State) (die ctx n : Nat) : Bool :=
  let c := s.ctx die ctx
  c.faults.isEmpty && decide ((c.fqpi - c.fqci).toNat + n ≤ ringSize c.fqb)

/-- A stage-2 fault goes to the hypervisor queue of the die (R155), behind the records that wait for room (log 68). -/
def State.hyperFault (s : State) (die ctx : Nat) (r : FaultRec) : State :=
  let later := s.updDie die fun d => { d with hfaults := d.hfaults ++ [(ctx, r)] }
  if (s.die die).hfaults.isEmpty then (s.writeHyper die ctx r).getD later else later

/-! ## Violations (R24) -/

/-- A master as FWLOG and UNFRZ number it (R22). -/
def kindNum : MasterKind → Nat
  | .group => 0
  | .copy => 1
  | .matrix => 2
  | .feeder => 3

/-- FWLOG of a master and its context (R22). -/
def fwlogOf (m : Master) (ctx : Nat) : Word :=
  BitVec.ofNat 32 (16777216 * m.die + 1048576 * m.core + 262144 * kindNum m.kind + 512 * m.slot + 32 * ctx)

/-- VCLASS of a class (R22). -/
def vclassOf (c : FlitClass) : BitVec 2 :=
  match c with
  | .rsp => 1#2
  | .bcast => 2#2
  | _ => 0#2

/-- Record a violation by a flit of a class in a register set and tell the host: VCOUNT, VCLASS, FROZEN, and FWLOG of the first violator, or of
the lowest in one clk. -/
def State.violate (s : State) (set : Nat) (cls : FlitClass) (m : Master) (ctx : Nat) : State :=
  let w := s.wall set
  let l := fwlogOf m ctx
  let takes := !w.frozen || (w.latched == s.clk && decide (l.toNat < w.log.toNat))
  (s.putWall set { w with vcount := if w.vcount = 0xffff#16 then w.vcount else w.vcount + 1#16, vclass := vclassOf cls, frozen := true,
                          log := if takes then l else w.log, latched := if takes then s.clk else w.latched }).send (.violation set)

/-- A flit that no master of this module sent, or whose group is gone, meets a closed link: it is counted in the link's set and the host is told;
nothing freezes, so that FROZEN and FWLOG stay as they are (R24; log 23). -/
def State.stray (s : State) (set : Nat) (cls : FlitClass) : State :=
  let w := s.wall set
  (s.putWall set { w with vcount := if w.vcount = 0xffff#16 then w.vcount else w.vcount + 1#16, vclass := vclassOf cls }).send (.violation set)

def groupMaster (k : GKey) : Master := { die := k.die, core := k.core, kind := .group, slot := k.slot }

/-! ## Parks -/

/-- Whether a group runs a speculative task. -/
def Group.speculative (g : Group) : Bool :=
  match g.task with
  | some t => t.spec
  | none => false

/-- The cause of a page fault (R153); an access that stores to the folio traps as it issues, and what comes there otherwise is PERM. -/
def XFault.cause (f : XFault) (fetch : Bool) : Cause :=
  match f with
  | .noPage => if fetch then .pageFetch else .pageLoad
  | .perm => .perm
  | .folioWrite => .perm
  | .atomicPath => .atomicPath
  | .host p _ => if p then .atomicPath else .perm
  | .ats _ => .pageLoad
  | .s2 p => if p then .perm else if fetch then .pageFetch else .pageLoad
  | .violation _ => .frozen

/-- The fault record of a group's fault; the access kind of R162 stands in the auxiliary word. -/
def groupFault (k : GKey) (t : Trap) : FaultRec :=
  { lin := t.lin, ec := t.cause, kind := t.aux.toNat % 4, hostfail := false, core := k.core, slot := k.slot, sel := t.sel, ofs := t.ofs }

/-- A group meets a page fault at its instruction: it parks under R54 with its record (R160), asks the host (R160), tells the
hypervisor (R155), freezes (R24), or, in a speculative task, defers (R89). -/
def State.pageFault (s : State) (k : GKey) (g : Group) (f : XFault) (t : Trap) (fetch : Bool) (pos : Nat) (rk : ResumeKind) : State :=
  let ctx := s.ctxOf g.team
  let t := { t with cause := f.cause fetch }
  match f with
  | .ats p =>
    if g.speculative then s.desched k g .promotion
    else (s.leavePen k g (.parked (.host p t))).send (.ats k.die ctx p)
  | .host _ p =>
    if g.speculative then s.desched k g .promotion
    else (s.leavePen k g (.parked (.host p t))).send (.ats k.die ctx p)
  | .violation set =>
    let s := s.violate set .req (groupMaster k) ctx
    if g.speculative then s.leavePen k g (.parked (.deferred t pos rk false)) else s.leavePen k g (.parked .frozen)
  | .s2 _ =>
    if g.speculative then s.leavePen k g (.parked (.deferred t pos rk true))
    else (s.leavePen k g (.parked (.page t.cause))).hyperFault k.die ctx (groupFault k t)
  | _ =>
    if g.speculative then s.leavePen k g (.parked (.deferred t pos rk false))
    else (s.leavePen k g (.parked (.page t.cause))).report k.die ctx (groupFault k t)

/-- A deferred cause is delivered at promotion (R89): precise causes trap with DEF, parking causes park; one of the second stage tells the
hypervisor (R155). -/
def State.deliverDeferred (s : State) (k : GKey) (g : Group) (t : Trap) (pos : Nat) (rk : ResumeKind) (hyper : Bool) : State :=
  let ctx := s.ctxOf g.team
  let park : State :=
    let s1 := s.leavePen k g (.parked (.page t.cause))
    if hyper then s1.hyperFault k.die ctx (groupFault k t) else s1.report k.die ctx (groupFault k t)
  match t.cause with
  | .pageLoad => park
  | .pageFetch => park
  | .perm => park
  | .atomicPath => park
  | .frozen => s.leavePen k g (.parked .frozen)
  | .segStale =>
    if rk = .boundary then (s.leavePen k g (.parked .stale)).report k.die (s.ctxOf g.team) (groupFault k t) else s.trapEnter k g t pos rk true
  | _ => s.trapEnter k g t pos rk true

end Sys2Proof.Machine
end

