-- ==== Sys2Proof/Machine/Memory.lean ====
section
/-! DEFINITION. The memory instructions (R295 to R316): per-lane loads, stores, atomics and reductions, the fences, the segment
registers, and the arrival of loads, stores and atomics at their homes (LOAD_RETURN, ACCESS_COMPLETE). -/

namespace Sys2Proof.Machine

/-! ## The words of a per-lane access -/

/-- The fields of formats M and A (R258); a short form is a weak word access (R261). -/
structure MArgs where
  op : Nat
  data : BitVec 8
  g : Nat
  neg : Bool
  gp : Nat
  off : BitVec 8
  disp : Int
  wid : Nat
  scope : Nat
  ord : Nat
  deadD : Bool
  deadO : Bool
  keep : Bool
  o64 : Bool
  rsvd : Bool
  val : BitVec 8
  cmp : BitVec 8
  deriving DecidableEq, Repr

def mShort (op : Nat) (f : MFmt) : MArgs :=
  { op := op, data := f.data, g := f.g.toNat, neg := f.neg = 1#1, gp := f.gp.toNat, off := f.off, disp := 0, wid := 2, scope := 0,
    ord := 0, deadD := false, deadO := false, keep := false, o64 := false, rsvd := false, val := 0#8, cmp := 0#8 }

def mLong (op : Nat) (f : MFmt) (x : MLong) : MArgs :=
  { mShort op f with disp := x.disp.toInt, wid := x.wid.toNat, scope := x.scope.toNat, ord := x.ord.toNat, deadD := x.deadD = 1#1,
                     deadO := x.deadO = 1#1, keep := x.keep = 1#1, o64 := x.o64 = 1#1, rsvd := x.rsvd != 0#2 }

def aLong (op : Nat) (f : MFmt) (x : ALong) : MArgs :=
  { mShort op f with wid := x.wid.toNat, scope := x.scope.toNat, ord := x.ord.toNat, deadD := x.deadD = 1#1, deadO := x.deadO = 1#1,
                     keep := x.keep = 1#1, o64 := x.o64 = 1#1, rsvd := x.rsvd != 0#2, val := x.val, cmp := x.cmp }

/-- What an opcode of formats M and A is. -/
inductive MKind where
  | load | ldu | lda | pref | store | stl
  | atomic (op : AOp)
  | reduce (op : AOp)
  | spawn
  deriving DecidableEq, Repr

def mKind (op : Nat) : MKind :=
  match op with
  | 0x80 => .load
  | 0x81 => .store
  | 0x82 => .ldu
  | 0x83 => .lda
  | 0x84 => .stl
  | 0x85 => .pref
  | 0x90 => .atomic .xch
  | 0x91 => .atomic .cas
  | 0x92 => .atomic .add
  | 0x93 => .atomic .min
  | 0x94 => .atomic .max
  | 0x95 => .atomic .and
  | 0x96 => .atomic .or
  | 0x97 => .atomic .xor
  | 0x98 => .atomic .fadd
  | 0x99 => .reduce .add
  | 0x9a => .reduce .fadd
  | 0x9b => .reduce .max
  | _ => .spawn

def MKind.isLoad : MKind → Bool
  | .load => true
  | .ldu => true
  | .lda => true
  | _ => false

def MKind.isStore : MKind → Bool
  | .store => true
  | .stl => true
  | _ => false

def MKind.isAtomic : MKind → Bool
  | .atomic _ => true
  | _ => false

def MKind.isReduce : MKind → Bool
  | .reduce _ => true
  | _ => false

/-- Whether the access writes its target. -/
def MKind.writes (k : MKind) : Bool := k.isStore || k.isAtomic || k.isReduce
/-- Whether the access reads its target. -/
def MKind.reads (k : MKind) : Bool := k.isLoad || k.isAtomic || k.isReduce

/-- The bytes of a width code (R261). -/
def MArgs.width (a : MArgs) : Nat := if mKind a.op = .spawn then 32 else 2 ^ a.wid
/-- The registers a value of that width fills (R295). -/
def MArgs.span (a : MArgs) : Nat := max 1 (2 ^ a.wid / 4)

/-- Whether R296 allows the width code. -/
def MArgs.widthOk (a : MArgs) : Bool :=
  match mKind a.op with
  | .ldu => decide (a.wid ≤ 3)
  | .atomic .fadd => a.wid == 2
  | .reduce .fadd => a.wid == 2
  | .atomic _ => a.wid == 2 || a.wid == 3
  | .reduce _ => a.wid == 2 || a.wid == 3
  | _ => decide (a.wid ≤ 5)

/-- The order and scope codes of R171. -/
def MArgs.orderOk (a : MArgs) : Bool :=
  match mKind a.op with
  | .pref => a.ord == 0 && a.scope == 0
  | .atomic _ => a.ord != 0 && a.scope != 0 && a.scope != 7
  | _ => if a.ord = 0 then a.scope == 0 else a.scope != 0 && a.scope != 7

/-- R256 step 4 for formats M and A, without TSPAWN (R261, R297, R302). -/
def MArgs.badField (a : MArgs) : Bool :=
  let k := mKind a.op
  a.rsvd || !a.widthOk || !a.orderOk || a.keep
    || ((k.isLoad || k == .pref) && (a.neg || a.gp != 0 || a.deadD))
    || (k == .pref && a.data != 0xe0#8 && a.data != 0xe1#8)
    || (k.isReduce && a.data != 0#8)
    || ((k.isAtomic || k.isReduce) && k != .atomic .cas && a.cmp != 0#8)

/-- A named register whose number is a multiple of `n`. -/
def isRegMul (b : BitVec 8) (n : Nat) : Bool := decide (b.toNat < 0x80) && b.toNat % n == 0

/-- OFF: v0–v127 or v[i0]–v[i3]; with O64 an even named register (R295). -/
def MArgs.offOk (a : MArgs) : Bool := if a.o64 then isRegMul a.off 2 else isLaneReg a.off

/-- A source of store data, VAL or CMP of a width code (R295). -/
def sourceOk (b : BitVec 8) (wid : Nat) : Bool :=
  if wid ≤ 2 then
    match specKind b with
    | .reg _ => true
    | .index _ => true
    | .nib _ => true
    | .scalar _ => true
    | .imm _ => true
    | _ => false
  else if wid = 3 then isRegMul b 2 || isEvenScalar b
  else isRegMul b (2 ^ wid / 4)

/-- A destination of a width code: lane registers, and for LDU a scalar (R295). -/
def destOk (b : BitVec 8) (wid : Nat) (ldu : Bool) : Bool :=
  if wid ≤ 2 then isLaneReg b || (ldu && isScalar b)
  else isRegMul b (2 ^ wid / 4) || (ldu && wid == 3 && isEvenScalar b)

/-- R256 step 5: the first specifier an operand does not accept. -/
def MArgs.badSpec (a : MArgs) : Option (BitVec 8) :=
  let k := mKind a.op
  if !a.offOk then some a.off
  else if (k.isLoad || k.isAtomic) && !destOk a.data a.wid (k == .ldu) then some a.data
  else if k.isStore && !sourceOk a.data a.wid then some a.data
  else if (k.isAtomic || k.isReduce) && !sourceOk a.val a.wid then some a.val
  else if k == .atomic .cas && !sourceOk a.cmp a.wid then some a.cmp
  else none

/-- The operands that R128, the scoreboard and the occupancy look at. -/
def MArgs.uses (a : MArgs) : List RegUse :=
  let k := mKind a.op
  useOf a.off true (if a.o64 then 2 else 1)
    :: ((if k.isStore then [useOf a.data true a.span] else [])
      ++ (if k.isAtomic || k.isReduce then [useOf a.val true a.span] else [])
      ++ (if k == .atomic .cas then [useOf a.cmp true a.span] else [])
      ++ (if k.isLoad || k.isAtomic || k == .spawn then [useOf a.data false a.span] else []))

/-- The same with the offset used by the lanes of a mask alone, as LDU uses it (R128, R300). -/
def MArgs.usesAt (a : MArgs) (mask : Word) : List RegUse :=
  match a.uses with
  | u :: r => { u with only := some mask } :: r
  | [] => []

/-- What the access touches, for the scoreboard. -/
def Group.mTouch (g : Group) (a : MArgs) : Touch :=
  let k := mKind a.op
  let pair (us : List RegUse) : List Nat := useScalars us
  { regs := g.useRegs a.uses,
    scalars := pair (a.uses.map fun u => { u with span := min u.span 2 }),
    preds := if k.isLoad || k == .pref || k == .spawn then [] else [a.gp] }

/-! ## Offsets and data -/

/-- The lanes the access is for (R298, R300, R304). -/
def Group.mLanes (g : Group) (a : MArgs) : Word :=
  let k := mKind a.op
  if k.writes then g.guarded a.neg a.gp
  else if k = .ldu then (match lowest g.exec with | some l => 1#32 <<< l | none => 0#32)
  else g.exec

/-- The offset a lane's offset operand gives (R140). -/
def Group.offAt (g : Group) (a : MArgs) (l : Nat) : Int :=
  match specKind a.off with
  | .reg n =>
    if a.o64 then ((g.regLane n l).toNat + 4294967296 * (g.regLane (n + 1) l).toNat : Nat) + a.disp
    else ((g.regLane n l).toNat : Int) + a.disp
  | .index n => ((g.regLane (g.ixReg n l) l).toNat : Int) + a.disp
  | _ => a.disp

/-- The offset of lane `l` among lanes whose lowest is `low` (R300, R304). -/
def Group.laneOfs (g : Group) (a : MArgs) (low l : Nat) : Int :=
  match mKind a.op with
  | .lda => g.offAt a low + (a.width * l : Nat)
  | .stl => g.offAt a low + (a.width * l : Nat)
  | .ldu => g.offAt a low
  | _ => g.offAt a l

/-- The bytes a source gives a lane, little-endian over its registers (R295). -/
def State.dataOf (s : State) (k : GKey) (g : Group) (b : BitVec 8) (kind : OpKind) (width l : Nat) : List Byte :=
  if width ≤ 4 then
    (leBytes 4 (s.deliver k g { spec := b, pat := 0, par := 0, dead := false, kind := kind } l).toNat).take width
  else
    (List.range (width / 4)).flatMap fun i => match specKind b with
      | .reg n => leBytes 4 (g.regLane (n + i) l).toNat
      | .scalar n => leBytes 4 (g.scalar (n + i)).toNat
      | _ => leBytes 4 0

/-- The first register of each lane of a lane destination. -/
def Group.dstRegs (g : Group) (b : BitVec 8) : List Nat :=
  (List.range 32).map fun l => match specKind b with
    | .reg n => n
    | .index n => g.ixReg n l
    | _ => 0

/-! ## Atomics (R306, R308) -/

def signedOf (n : Nat) (w : Nat) : Int := if n < 2 ^ (w - 1) then (n : Int) else (n : Int) - (2 ^ w : Nat)

/-- The new value of an operation of `w` bits. -/
def atomicNew (level : Nat) (op : AOp) (w old val cmp : Nat) : Nat :=
  match op with
  | .xch => val
  | .cas => if old = cmp then val else old
  | .add => (old + val) % 2 ^ w
  | .min => if signedOf val w < signedOf old w then val else old
  | .max => if signedOf old w < signedOf val w then val else old
  | .and => old &&& val
  | .or => old ||| val
  | .xor => old ^^^ val
  | .fadd => (faddWord level (BitVec.ofNat 32 old) (BitVec.ofNat 32 val)).toNat

/-- Which atomics a page of the host carries (R193). -/
def hostCarries (k : MKind) : Bool :=
  match k with
  | .atomic .add => true
  | .reduce .add => true
  | .atomic .xch => true
  | .atomic .cas => true
  | _ => false

/-! ## Paths and logs (R299, R157) -/

/-- The oldest accesses that are complete leave the path. -/
def popDone : List (Nat × Bool) → List (Nat × Bool)
  | (_, true) :: r => popDone r
  | l => l

/-- An access is complete on LS: the counter falls in issue order (R299). -/
def Group.lsDone (g : Group) (id : Nat) : Group :=
  { g with lsq := popDone (g.lsq.map fun e => if e.1 = id then (e.1, true) else e), scOut := g.scOut.filter (· ≠ id) }

/-- LS of PATHC. -/
def Group.ls (g : Group) : Nat := g.lsq.length
/-- Whether no drafted write of a promoted task is still to drain (R87). -/
def Group.drained (g : Group) : Bool :=
  match g.task with
  | some t => t.spec || t.draft.isEmpty
  | none => true

/-- Every earlier LS access is complete and the side log is empty (R157, R345). -/
def Group.accessesDone (g : Group) : Bool := g.lsq.isEmpty && g.log.isEmpty

/-- Every earlier LS access is complete, the side log is empty (R305, R310), and what a promoted task drafted is in memory (R87, R177). -/
def Group.released (g : Group) : Bool := g.accessesDone && g.drained

/-- Whether bytes at a linear address overlap a logged entry (R157). -/
def Group.logOverlaps (g : Group) (sel lin width : Nat) : Bool :=
  decide (sel < 0xfffd) && g.log.any fun e => decide (e.lin < lin + width) && decide (lin < e.lin + e.width)

/-! ## Acquire work (R303) -/

/-- How long the acquire work of a scope takes. -/
def acquireClk (scope : Nat) : Nat :=
  if scope ≤ 2 then 0 else if scope ≤ 4 then 8 else 32

/-- The acquire work of a scope begins: later accesses and engine commands wait for it. -/
def Group.acquire (g : Group) (clk scope : Nat) : Group := { g with acqUntil := max g.acqUntil (clk + acquireClk scope) }

/-- Whether a memory or engine instruction must wait for acquire work: an acquire load or atomic in flight, or its work. -/
def State.acquiring (s : State) (k : GKey) (g : Group) : Bool :=
  decide (s.clk < g.acqUntil) || s.access.any fun e => e.2.g == k && e.2.team == g.team && decide (2 ≤ e.2.ord)
    && (match e.2.kind with
      | .load => true
      | .ldu => true
      | .atomic _ => true
      | _ => false)

/-- Wait for acquire work: inside a clause with the pen held, at a clause boundary descheduled (R303). -/
def State.waitAcquire (s : State) (k : GKey) (g : Group) : State :=
  if g.pos = 0 then s.desched k g .acquire else s.hold k g

/-! ## Issue -/

/-- A lane of an access as the issue finds it. -/
structure LaneTry where
  lane : Nat
  ofs : Int
  lin : Nat
  reach : Reach
  deriving DecidableEq, Repr

/-- Reach every lane through its segment, in ascending order. -/
def State.tryLanes (s : State) (w : Who) (t : Option Team) (r : SegReg) (need : Need) (width : Nat) :
    List (Nat × Int) → List LaneTry × State
  | [] => ([], s)
  | (l, o) :: rest =>
    let (x, s1) := s.reachSeg w t r need o.toNat width
    let (xs, s2) := s1.tryLanes w t r need width rest
    ({ lane := l, ofs := o, lin := r.base.toNat + o.toNat, reach := x } :: xs, s2)

/-- The fault of a lane: of its pages, or of an atomic its page does not carry (R193). -/
def LaneTry.fault (x : LaneTry) (k : MKind) : Option XFault :=
  match x.reach with
  | .fault f _ => some f
  | .hole => none
  | .runs rs =>
    if (k.isAtomic || k.isReduce) && !hostCarries k then rs.findSome? fun r => match r.place with
        | .host _ a => some (.host true (a / 65536))
        | _ => none
    else none

/-- Whether a lane would store to the folio, which is only read: its instruction traps with SEG_RIGHTS (R79, R165, R193). -/
def LaneTry.intoFolio (x : LaneTry) : Bool :=
  match x.reach with
  | .fault f _ => f == .folioWrite
  | _ => false

/-- The first fault in the order of R156, at its lowest lane. -/
def firstFault (k : MKind) (xs : List LaneTry) : Option (XFault × LaneTry) :=
  (List.range 4).findSome? fun n => xs.findSome? fun x => match x.fault k with
    | some f => if f.rank = n then some (f, x) else none
    | none => none

/-- KIND of a fault record (R162). -/
def MKind.faultKind (k : MKind) : Nat := if k.isAtomic then 3 else if k.writes then 1 else 0

/-- What an access in flight is as an instruction. -/
def AccKind.carriedByHost (k : AccKind) : Bool :=
  match k with
  | .atomic o => hostCarries (.atomic o)
  | .reduce o => hostCarries (.reduce o)
  | _ => true

/-- Whether a place is the host's or a register: a speculative task waits for promotion (R88). -/
def Place.outside : Place → Bool
  | .host _ _ => true
  | .reg _ _ => true
  | .far _ _ => true
  | _ => false

/-- The link that a fabric port is (R12): those of the dies are 0 to 30; outwards is its `up`. -/
def portLink (p : Nat) : Nat := 32 + p

/-- The hops of a class from a die to a place, over the fabric port too behind which a place of another module lies (R12, R13). -/
def State.outHops (s : State) (die : Nat) (p : Place) (c : FlitClass) : List Hop :=
  s.hopsTo die (p.onDie die) c ++ (match p with
    | .far q _ => [{ link := portLink q, up := true, cls := c }]
    | _ => [])

/-- The hops of a class from a place to a die. -/
def State.inHops (s : State) (p : Place) (die : Nat) (c : FlitClass) : List Hop :=
  (match p with
    | .far q _ => [{ link := portLink q, up := false, cls := c }]
    | _ => []) ++ s.hopsTo (p.onDie die) die c

/-- The hops that a request from a die to a place makes (R12, R13). -/
def State.pathOf (s : State) (die : Nat) (rs : List Run) : List Hop :=
  match rs with
  | r :: _ => s.outHops die r.place .req
  | [] => []

/-- The hops that the answer makes on its way back (R13). -/
def State.backOf (s : State) (die : Nat) (rs : List Run) : List Hop :=
  match rs with
  | r :: _ => s.inHops r.place die .rsp
  | [] => []

/-- The figure of R299 for an access to a place. -/
def figureOf (w : Who) (rs : List Run) : Nat :=
  match rs with
  | r :: _ => latencyOf w r.place
  | [] => 0

/-- The links and ports between a master and a place. -/
def linksOf (w : Who) (rs : List Run) : Nat :=
  match rs with
  | r :: _ => hops w.die (r.place.onDie w.die) + (match r.place with
    | .far _ _ => 1
    | _ => 0)
  | [] => 0

/-- A lane performs at half the figure of R299; what of that is left when its request has crossed its links, at 30 clk each. -/
def lastLeg (w : Who) (rs : List Run) : Nat := figureOf w rs / 2 - 30 * linksOf w rs

/-- The rest of the figure, from performing to the return of the data or to the fall of the LS counter (R299). -/
def wayBack (w : Who) (rs : List Run) : Nat := figureOf w rs - figureOf w rs / 2

/-- What of that is left once the answer has crossed its links, at 30 clk each. -/
def backLeg (w : Who) (rs : List Run) : Nat := wayBack w rs - 30 * linksOf w rs

/-! ## Flits (R13, R14, R22) -/

/-- The number of a link input: 2 × link, and 1 for the end of the higher-numbered die. -/
def Hop.input (h : Hop) : Nat := 2 * h.link + bitOf h.up

/-- The flits of 64 bytes that a link takes in a clk, at about 1596 bytes (R14; log 117). -/
def flitsPerClk : Nat := 24

/-- The flits of a class that have set out into a link input in this clk. -/
def State.sentNow (s : State) (h : Hop) : Nat :=
  match assocGet s.fabric.sent (h.input, h.cls) with
  | some (t, n) => if t = s.clk then n else 0
  | none => 0

/-- Whether a flit would wait at its sender: the stop signal of its class is up, others of the class wait already, or the link has taken as many as
it can in this clk (R13, R14). -/
def State.linkHolds (s : State) (h : Hop) : Bool :=
  s.fabric.stops.contains (h.input, h.cls) || ((s.fabric.held.get [] h.input).any fun y => y.cls == h.cls) || decide (flitsPerClk ≤ s.sentNow h)

/-- A flit comes to a link: it sets out on it, or is held at the sender (R13, R14); a hop takes half of the 60 clk that R299 gives it there and
back. Where only the link's rate holds it, the sender looks again in the next clk. -/
def State.sendFlit (s : State) (h : Hop) (cargo : Cargo) (base : Nat) : State :=
  let f : Flit := { cls := h.cls, cargo := cargo, old := false }
  let x := s.fabric
  if s.linkHolds h then
    let s1 := s.setFabric { x with held := x.held.put h.input (x.held.get [] h.input ++ [f]) }
    if x.stops.contains (h.input, h.cls) || (x.held.get [] h.input).any fun y => y.cls == h.cls then s1
    else s1.post (s.clk + 1) (.linkStopSignal h.link h.up h.cls)
  else (s.setFabric { x with flits := x.flits.put h.input (x.flits.get [] h.input ++ [f]),
                             sent := assocPut x.sent (h.input, h.cls) (s.clk, s.sentNow h + 1) }).after (base + 30) (.linkFlitArrive h.link h.up h.cls false)

/-- Whether some flit under way, in a buffer or held at a sender carries what is asked for. -/
def Fabric.carries (x : Fabric) (p : Cargo → Bool) : Bool :=
  (x.flits ++ x.bufs ++ x.held).any fun e => e.2.any fun f => p f.cargo

/-- The group of a slot, while it is of a team. -/
def State.groupOf? (s : State) (k : GKey) (team : Nat) : Option Group := (s.group? k).filter fun g => g.team == team

/-- What a group sent meets a closed link: it stops there, and the group freezes (R24; log 23). -/
def State.cutGroup (s : State) (h : Hop) (k : GKey) (team ctx : Nat) : State :=
  match s.groupOf? k team with
  | none => s.stray h.link h.cls
  | some g =>
    let s1 := s.violate h.link h.cls (groupMaster k) ctx
    if g.speculative then
      s1.leavePen k g (.parked (.deferred (trapOf .frozen 0#32) (if g.clause.any (·.begun) then g.pos else 15)
        (if g.clause.any (·.begun) then .instr else .boundary) false))
    else s1.leavePen k g (.parked .frozen)

/-- An entry of a side log that is on its way to another die or module as an access has performed, or is discarded (R12, R24, R158): it leaves
its group's log, or what its team keeps, and the next is tried. -/
def State.entryEnds (s : State) (id : Nat) (a : Access) : State :=
  let mine (e : LogEntry) : Bool := e.away == some id
  let s1 := match s.group? a.g with
    | some g => if g.log.any mine then
        (s.putGroup a.g { g with log := g.log.filter fun e => !mine e }).post s.clk (.faultRetry (.sideLog a.g)) else s
    | none => s
  match s1.team? a.team with
  | some t => if t.logs.any fun e => mine e.2 then
      (s1.putTeam a.team { t with logs := t.logs.filter fun e => !mine e.2 }).post s.clk (.faultRetry (.sideLog a.g)) else s1
  | none => s1

/-- A lane on its way, or its answer, meets a closed link; the access of a group that is gone is discarded (R24; log 23). -/
def State.laneCut (s : State) (h : Hop) (id : Nat) (a : Access) : State :=
  let s1 := s.cutGroup h a.g a.team a.ctx
  if (s.groupOf? a.g a.team).isSome then s1 else (s1.setAccess (s1.access.del id)).entryEnds id a

/-- The group that reads, and the event at which what it reads has come. -/
def ReadFor.group : ReadFor → GKey
  | .tile g _ _ => g
  | .clause g => g

def ReadFor.landing : ReadFor → Event
  | .tile _ c n => .tileLoadLand c n
  | .clause g => .clauseFetchArrive g

/-- Whether a flit carries a piece of a read. -/
def Cargo.ofRead (c : Cargo) (r : ReadFor) : Bool :=
  match c with
  | .read q _ _ _ => q == r
  | _ => false

/-- Whether pieces of a read are on their way, or stopped at a link. -/
def State.readFlies (s : State) (r : ReadFor) : Bool :=
  s.fabric.carries (fun c => c.ofRead r) || s.fabric.cut.any fun f => f.cargo.ofRead r

/-- A piece of a read comes to a link, or is home: with the last of them the read has come, but no sooner than the event that stands for it
(R13, R22, R299). One that meets a closed link is kept there (R24; log 23). -/
def State.readHop (s : State) (r : ReadFor) (team ctx : Nat) : List Hop → State
  | [] => if s.readFlies r || s.agenda.any fun e => e.2 = r.landing then s else s.post s.clk r.landing
  | h :: t =>
    if (s.wall h.link).closed then
      (s.setFabric { s.fabric with cut := s.fabric.cut ++ [{ cls := h.cls, cargo := .read r team ctx (h :: t), old := false }] }).cutGroup
        h r.group team ctx
    else s.sendFlit h (.read r team ctx t) 0

/-- The pieces of 64 bytes of a read set out: each goes to the place of its run and comes back. -/
def State.sendReads (s : State) (die : Nat) (r : ReadFor) (team ctx : Nat) (rs : List Run) : State :=
  rs.foldl (fun t x =>
    match t.outHops die x.place .req ++ t.inHops x.place die .rsp with
    | [] => t
    | hs => (List.range ((x.len + 63) / 64)).foldl (fun u _ => u.readHop r team ctx hs) t) s

/-- A lane of an access comes to its next link: it crosses it, or meets its closed firewall (R22, R24). -/
def State.laneHop (s : State) (id : Nat) (a : Access) (x : LaneAcc) (h : Hop) (base : Nat) : State :=
  if (s.wall h.link).closed then s.laneCut h id a
  else s.sendFlit h (if x.done then .answer id x.lane else .request id x.lane) base

/-- A lane sets out after `base` clk: over its first link, or straight to its target. -/
def State.sendLane (s : State) (id : Nat) (w : Who) (a : Access) (x : LaneAcc) (base : Nat) : State :=
  match x.path with
  | h :: _ => s.laneHop id a x h base
  | [] => match a.kind with
    | .load => s.after (base + lastLeg w x.runs) (.loadReturn id x.lane)
    | .ldu => s.after (base + lastLeg w x.runs) (.loadReturn id x.lane)
    | _ => s

/-- The answer of a lane that has performed sets out: over its first link, or straight to its group. -/
def State.sendBack (s : State) (id : Nat) (w : Who) (a : Access) (x : LaneAcc) : State :=
  match x.path with
  | h :: _ => s.laneHop id a x h 0
  | [] => match a.kind with
    | .load => s.after (backLeg w x.runs) (.loadReturn id x.lane)
    | .ldu => s.after (backLeg w x.runs) (.loadReturn id x.lane)
    | _ => s

/-- The access kind of an instruction. -/
def MKind.accKind (k : MKind) : AccKind :=
  match k with
  | .ldu => .ldu
  | .store => .store
  | .stl => .store
  | .atomic o => .atomic o
  | .reduce o => .reduce o
  | _ => .load

/-- The destination of an access. -/
def Group.mDst (g : Group) (a : MArgs) : Dst :=
  let k := mKind a.op
  if k.isLoad || k.isAtomic then
    match specKind a.data with
    | .scalar n => .scalar n
    | _ => .lanes (g.dstRegs a.data)
  else .none

/-- The pending writes an access leaves on the scoreboard (R104): per register the lanes to come, or its scalars. -/
def pendsOf (id : Nat) (a : MArgs) (dst : Dst) (mask : Word) : List Pend :=
  match dst with
  | .none => []
  | .scalar n => (List.range (min a.span 2)).map fun i => { id := id, on := .scalar (n + i), lanes := 1#32 }
  | .lanes regs =>
    let rs := ((lanesOf mask).map fun l => regs.getD l 0).dedup
    rs.flatMap fun r => (List.range a.span).map fun i =>
      { id := id, on := .reg (r + i),
        lanes := (lanesOf mask).foldl (fun (w : Word) l => if regs.getD l 0 = r then w ||| (1#32 <<< l) else w) 0#32 }

/-- Take the destination registers out of the well; the clk of the write-backs (R123). -/
def Group.evictAll (g : Group) (ps : List Pend) : Group × Nat :=
  ps.foldl (fun (h : Group × Nat) p => match p.on with
    | .reg n => let (h', t) := h.1.evict n; (h', h.2 + t)
    | _ => h) (g, 0)

/-- Dead marks of an access: OFF, store data or VAL (R297); a pair or a run of registers is marked whole. -/
def Group.mDead (g : Group) (a : MArgs) : Group :=
  let mark (h : Group) (d : Bool) (b : BitVec 8) (n : Nat) : Group :=
    match specKind b with
    | .reg r => if d then (List.range n).foldl (fun (x : Group) i => x.markDead (r + i)) h else h
    | _ => h
  if g.exec = 0#32 then g
  else mark (mark g a.deadO a.off (if a.o64 then 2 else 1)) a.deadD
    (if (mKind a.op).isStore then a.data else a.val) a.span

/-- What the kind of access needs of its segment and pages. -/
def MKind.need (k : MKind) : Need :=
  if k.isStore then .write else if k.isAtomic || k.isReduce then .atomic else .read

/-- The lanes that go to the side log: those that fault, and those that overlap a logged entry (R157). -/
def Group.logged (g : Group) (a : MArgs) (sel : Nat) (xs : List LaneTry) : List LaneTry :=
  let k := mKind a.op
  if (k.isStore || k.isReduce) && !g.speculative then
    xs.filter fun x => (x.fault k).isSome || g.logOverlaps sel x.lin a.width
  else []

/-- The log entry of a lane. -/
def State.logEntry (s : State) (k : GKey) (g : Group) (a : MArgs) (sel : Nat) (x : LaneTry) : LogEntry :=
  let mk := mKind a.op
  let b := if mk.isStore then a.data else a.val
  { kind := mk.accKind, lane := x.lane, lin := x.lin, ofs := ofs48 x.ofs, sel := sel, width := a.width,
    data := s.dataOf k g b (if mk = .reduce .fadd then .fp else .int) a.width x.lane, away := none,
    host := (match x.fault mk with
      | some (.ats _) => true
      | some (.host _ _) => true
      | _ => (match x.reach with
        | .runs rs => rs.any fun r => r.place.outside
        | _ => false)) }

/-- One record for each distinct 64 KiB page among the logged lanes that fault (R160), or a request to the host for its pages. -/
def State.reportLogged (s : State) (k : GKey) (ctx : Nat) (sel : Nat) (mk : MKind) (xs : List LaneTry) : State :=
  (xs.foldl (fun (acc : List Nat × State) x =>
    match x.fault mk with
    | none => acc
    | some f =>
      if acc.1.contains (x.lin / 65536) then acc
      else
        let t : Trap := { cause := f.cause false, aux := 1#32, ofs := ofs48 x.ofs, sel := sel, lin := x.lin }
        (x.lin / 65536 :: acc.1, match f with
          | .ats p => acc.2.send (.ats k.die ctx p)
          | .host _ p => acc.2.send (.ats k.die ctx p)
          | .s2 _ => acc.2.hyperFault k.die ctx (groupFault k t)
          | _ => acc.2.report k.die ctx (groupFault k t))) ([], s)).2

/-- The pages among logged lanes that need a record of the context's fault queue. -/
def recordPages (mk : MKind) (xs : List LaneTry) : Nat :=
  ((xs.filterMap fun x => match x.fault mk with
    | some (.ats _) => none
    | some (.host _ _) => none
    | some (.s2 _) => none
    | some _ => some (x.lin / 65536)
    | none => none).dedup).length

/-- Put an access in flight: the LS counter rises, destinations are pending, its lanes set out (R298, R299). `xs` are the lanes
that reach their places, in ascending order; lanes in the log count as complete. -/
def State.launchAccess (s : State) (k : GKey) (g : Group) (c : Clause) (a : MArgs) (w : Who) (sel : Nat) (mask : Word)
    (xs logged : List LaneTry) : State :=
  let mk := mKind a.op
  let ctx := s.ctxOf g.team
  let (id, s) := s.newId
  let b := if mk.isStore then a.data else a.val
  let kind : OpKind := if mk = .reduce .fadd ∨ mk = .atomic .fadd then .fp else .int
  let lanes := xs.map fun x =>
    let rs := match x.reach with
      | .runs rs => rs
      | _ => []
    { lane := x.lane, lin := x.lin, ofs := ofs48 x.ofs, runs := rs,
      data := if mk.writes then s.dataOf k g b kind a.width x.lane else [],
      cmp := if mk = .atomic .cas then s.dataOf k g a.cmp .int a.width x.lane else [],
      path := s.pathOf w.die rs, done := false, got := none : LaneAcc }
  let dst := g.mDst a
  let dmask := if mk = .ldu then g.exec else mask
  let acc : Access := { g := k, team := g.team, ctx := ctx, kind := mk.accKind, width := a.width, sel := sel, lanes := lanes, dst := dst,
                        mask := dmask, ord := if g.speculative && (mk.isAtomic || mk.isReduce) then 0 else a.ord, scope := a.scope, task := g.task.map (·.record.id), told := [] }
  let ps := pendsOf id a dst dmask
  let entries := logged.map fun x => s.logEntry k g a sel x
  let occ := g.occupancy a.uses 0
  let late := g.lastOctet a.uses
  let (g1, t) := (g.mDead a).evictAll ps
  let g2 : Group := { g1 with lsq := g1.lsq ++ [(id, false)], pend := ps ++ g1.pend, log := g1.log ++ entries,
                              scOut := if acc.ord = 3 then id :: g1.scOut else g1.scOut,
                              irrev := g1.irrev || mk.isAtomic || mk.isReduce
                                || (lanes.any fun x => x.runs.any fun r => r.place.outside) || entries.any (·.host) }
  let s := s.advance k g2 c (occ + t) none
  let s := s.setAccess (s.access.put id acc)
  let s := s.reportLogged k ctx sel mk logged
  let s := if entries.isEmpty then s else s.after 256 (.faultRetry (.sideLog k))
  let s := lanes.foldl (fun u x => u.sendLane id w acc x late) s
  if mk.isLoad then s
  else s.after (late + lanes.foldl (fun m x => max m (figureOf w x.runs / 2)) 0) (.accessComplete id)

/-- An access of R298 whose checks of form, field and operand have passed: state checks, translation, issue. -/
def State.issueAccess (s : State) (k : GKey) (g : Group) (c : Clause) (a : MArgs) : State :=
  let mk := mKind a.op
  let mask := g.mLanes a
  let low := (lowest mask).getD 0
  let los := (lanesOf mask).map fun l => (l, g.laneOfs a low l)
  let r := g.segReg a.g
  let w := s.whoOf k g
  let sel := r.sel.toNat
  let idle (g' : Group) : State := s.advance k g' c (g.occupancy a.uses 0) none
  match (if mk = MKind.ldu then g.check128 (a.usesAt mask) else ({ g with exec := mask }).check128 a.uses) with
  | some t => s.raise k g t
  | none =>
    if mask = 0#32 then idle (g.mDead a)
    else if mk = .pref then idle (g.mDead a)
    else if s.acquiring k g then s.waitAcquire k g
    else match s.segCheck w r mk.need true a.width a.width los with
      | some t => s.raise k g t
      | none =>
        let order := if g.speculative && (mk.isAtomic || mk.isReduce) then 0 else a.ord
        if 255 ≤ g.ls then s.hold k g
        else if order = 3 && (!g.scOut.isEmpty || !g.log.isEmpty) then s.hold k g
        else if mk.writes && decide (2 ≤ order) && !g.released then s.hold k g
        else if (mk.isLoad || mk.isAtomic) && los.any (fun e => g.logOverlaps sel (r.base.toNat + e.2.toNat) a.width) then s.hold k g
        else
          let (xs, s1) := s.tryLanes w (s.team? g.team) r mk.need a.width los
          match xs.find? LaneTry.intoFolio with
          | some x => s1.raise k g { cause := .segRights, aux := 0#32, ofs := ofs48 x.ofs, sel := sel, lin := 0 }
          | none =>
          match xs.find? fun x => match x.reach with
              | .hole => true
              | _ => false with
          | some x => s.raise k g { cause := .segLimit, aux := 0#32, ofs := ofs48 x.ofs, sel := sel, lin := 0 }
          | none =>
            let outside := xs.any fun x => match x.reach with
              | .runs rs => rs.any fun q => q.place.outside
              | .fault (.ats _) _ => true
              | .fault (.host _ _) _ => true
              | _ => false
            if g.speculative && outside then s1.desched k g .promotion
            else
              let whole := mk.isLoad || mk.isAtomic || g.speculative
              let viol := xs.findSome? fun x => match x.fault mk with
                | some (.violation n) => some (XFault.violation n, x)
                | _ => none
              match (if whole then firstFault mk xs else viol) with
              | some (f, x) =>
                s1.pageFault k g f { cause := .pageLoad, aux := BitVec.ofNat 32 mk.faultKind, ofs := ofs48 x.ofs, sel := sel, lin := x.lin }
                  false g.pos .instr
              | none =>
                let logged := g.logged a sel xs
                if 16 < g.log.length + logged.length then s1.desched k g (.log logged.length)
                else if !s1.roomFor k.die w.ctx (recordPages mk logged) && decide (0 < recordPages mk logged) then
                  s1.leavePen k g (.parked .room)
                else
                  let go := xs.filter fun x => !logged.any fun y => y.lane = x.lane
                  match go.find? fun x => match x.reach with
                      | .runs rs => mk.reads && s1.spoiled rs
                      | _ => false with
                  | some x => s1.raise k g { cause := .eccUncorr, aux := 0#32, ofs := ofs48 x.ofs, sel := sel, lin := x.lin }
                  | none => s1.launchAccess k g c a w sel mask go logged

/-- A per-lane memory instruction: R256 steps 4 to 6, the scoreboard, then its access. -/
def State.memOp (s : State) (a : MArgs) : Host.Outcome State Fault Refusal :=
  s.withIssuer fun k g c =>
    if g.pending (g.mTouch a) then s.hold k g
    else if a.badField then s.raise k g (trapOf .illField 0#32)
    else match a.badSpec with
      | some b => s.raise k g (trapOf .illOperand (auxSpec g b))
      | none => s.issueAccess k g c a

/-! ## LOAD_RETURN (R301) -/

/-- A value of up to 32 bytes lands in lane `l` of the registers from `r` on (R105, R123). -/
def Group.landReg (g : Group) (r l : Nat) (bs : List Byte) : Group :=
  (List.range (max 1 (bs.length / 4))).foldl (fun (h : Group) i =>
    let n := r + i
    let v := BitVec.ofNat 32 (leNat ((bs.drop (4 * i)).take 4))
    let h1 := h.enliven n
    { h1 with regs := h1.regs.put n (mergeLanes (1#32 <<< l) (Lanes.ofFn fun _ => v) (h1.regs.get zeroLanes n)),
              well := match h1.well.find (n % 8) with
                | some e => if e.reg = n then h1.well.del (n % 8) else h1.well
                | none => h1.well }) g

/-- Lanes of a pending write have arrived. -/
def Group.arrived (g : Group) (id : Nat) (lanes : Word) : Group :=
  { g with pend := (g.pend.map fun p => if p.id = id then { p with lanes := p.lanes &&& ~~~lanes } else p).filter fun p =>
      !(p.id == id && p.lanes == 0#32) }

/-- Put a returned value of lane `l` into its destination. -/
def Group.landValue (g : Group) (id : Nat) (a : Access) (l : Nat) (bs : List Byte) : Group :=
  match a.dst with
  | .none => g
  | .scalar n =>
    let h := g.setScalar n (BitVec.ofNat 32 (leNat (bs.take 4)))
    let h2 := if 4 < bs.length then h.setScalar (n + 1) (BitVec.ofNat 32 (leNat (bs.drop 4))) else h
    h2.arrived id 1#32
  | .lanes regs =>
    let mask := if a.kind = .ldu then a.mask else 1#32 <<< l
    ((lanesOf mask).foldl (fun (h : Group) j => h.landReg (regs.getD j 0) j bs) g).arrived id mask

/-- The offsets of two places in one memory. -/
def Place.within (a b : Place) : Option (Nat × Nat) :=
  match a, b with
  | .hbm d o, .hbm e p => if d = e then some (o, p) else none
  | .scr d c o, .scr e f p => if d = e ∧ c = f then some (o, p) else none
  | .folio d o, .folio e p => if d = e then some (o, p) else none
  | .arg d c i o, .arg e f j p => if d = e ∧ c = f ∧ i = j then some (o, p) else none
  | .queueStore d o, .queueStore e p => if d = e then some (o, p) else none
  | .host d o, .host e p => if d = e then some (o, p) else none
  | .reg d o, .reg e p => if d = e then some (o, p) else none
  | .far d o, .far e p => if d = e then some (o, p) else none
  | _, _ => none

/-- Whether runs share a byte. -/
def runsOverlap (a b : List Run) : Bool :=
  a.any fun x => b.any fun y => match x.place.within y.place with
    | some (o, p) => decide (o < p + y.len) && decide (p < o + x.len)
    | none => false

def AccKind.isLoad : AccKind → Bool
  | .load => true
  | .ldu => true
  | _ => false

/-- Whether an access's lanes lie on the die of their group (R186). -/
def Access.oneDie (a : Access) : Bool :=
  a.lanes.all fun x => x.runs.all fun r => match r.place with
    | .hbm d _ => d == a.g.die
    | .scr d _ _ => d == a.g.die
    | _ => false

/-- Whether an earlier access of the group must perform before these bytes: it overlaps them (R175), or both are strong and on
one die and this is no load passing a store (R187). -/
def State.mustFollow (s : State) (id : Nat) (a : Access) (rs : List Run) : Bool :=
  s.access.any fun e => decide (e.1 < id) && e.2.g == a.g && e.2.team == a.team
    && ((e.2.lanes.any fun x => !x.done && runsOverlap x.runs rs)
      || (decide (1 ≤ a.ord) && decide (1 ≤ e.2.ord) && a.oneDie && e.2.oneDie && !(a.kind.isLoad && e.2.kind == .store)
        && e.2.lanes.any fun x => !x.done))

/-- The data of a lane that has performed land; with the last of them the load is complete (R299, R301). -/
def State.loadLands (s : State) (id : Nat) (a : Access) (x : LaneAcc) : State :=
  match x.got with
  | none => s
  | some bs =>
    let lanes := a.lanes.map fun y => if y.lane = x.lane then { y with got := none } else y
    let all := lanes.all fun y => y.done && y.got.isNone
    let s1 := s.updGroup a.g fun h =>
      let h1 := h.landValue id a x.lane bs
      if all then (let h2 := h1.lsDone id; if 2 ≤ a.ord then h2.acquire s.clk a.scope else h2) else h1
    s1.setAccess (if all then s1.access.del id else s1.access.put id { a with lanes := lanes })

/-- LOAD_RETURN comes twice for a lane of a load: first it performs at its target, and then its data return (R299, R301, log 21). To
perform, it waits for the lower lanes (R298), for earlier accesses to its bytes, for an earlier task's write (R80), for a folio refresh. -/
def State.loadReturn (s : State) (id lane : Nat) : State :=
  match s.access.find id with
  | none => s
  | some a =>
    match a.lanes.find? fun x => x.lane = lane, s.group? a.g with
    | some x, some g =>
      if g.team != a.team || !x.path.isEmpty then s
      else if x.done then s.loadLands id a x
      else if (a.lanes.any fun y => decide (y.lane < lane) && !y.done) || s.mustFollow id a x.runs || s.homeStalls a.g g x.runs true false then
        s.post (s.clk + 1) (.loadReturn id lane)
      else match s.refreshEnd x.runs with
        | some t => s.post t (.loadReturn id lane)
        | none =>
          let (bs, s1) := s.groupRead a.g g x.runs
          let x1 : LaneAcc := { x with done := true, got := some bs, path := s.backOf a.g.die x.runs }
          let a1 : Access := { a with lanes := a.lanes.map fun y => if y.lane = lane then x1 else y }
          (s1.setAccess (s1.access.put id a1)).sendBack id (s.whoOf a.g g) a1 x1
    | _, _ => s.setAccess (s.access.del id)

/-! ## ACCESS_COMPLETE (R299, R304, R307) -/

/-- One lane of a store, atomic or reduction performs; its old value. -/
def State.performLane (s : State) (k : GKey) (g : Group) (a : Access) (x : LaneAcc) : List Byte × State :=
  match a.kind with
  | .store => ([], s.groupWrite k g x.runs x.data)
  | _ =>
    let op : AOp := match a.kind with
      | .atomic o => o
      | .reduce o => o
      | _ => .xch
    let (old, s1) := s.groupRead k g x.runs
    let level := ((s.ctx k.die a.ctx).clev).toNat % 4
    let new := atomicNew level op (8 * a.width) (leNat old) (leNat x.data) (leNat x.cmp)
    let g' := (s1.group? k).getD g
    (old, s1.groupWrite k g' x.runs (leBytes a.width new))

/-- The lanes of an access perform in ascending order (R101, R307); an atomic's old values are on their way back. -/
def State.performLanes (s : State) (a : Access) (g0 : Group) : List LaneAcc → List LaneAcc × State
  | [] => ([], s)
  | x :: rest =>
    let g := (s.group? a.g).getD g0
    let (old, s1) := s.performLane a.g g a x
    let (xs, s2) := s1.performLanes a g0 rest
    ({ x with done := true, got := match a.kind with
      | .atomic _ => some old
      | _ => none } :: xs, s2)

/-- A group that is gone leaves its stores to perform as they are. -/
def ghostGroup (a : Access) : Group :=
  { team := a.team, num := 0, nlanes := 32, run := .stopped, readyAt := 0, tenure := 0, pc := 0, clause := none, pos := 0, half := .fresh,
    seg := [], window := 0, regs := [], dead := [], well := [], n0 := none, n1 := none, sc := [], pr := [], ix := [], exec := 0, hand := 0,
    xout := 0, ixw := [], awb := 0, awl := 0, acted := 0, ppc := 0, ppseg := SegReg.null, pphand := none, recipe := [], pprecipe := [], trapv := 0, tframe := 0, stack := [], spilled := 0, handler := none, lsq := [],
    ceq := [], me := 0, fd := 0, pend := [], log := [], acqUntil := 0, scOut := [], irrev := false, budgetDue := false,
    barrierDue := [], raiseDue := none, arrivals := [], flash := .no, task := none }

/-- An access is complete: an atomic's values land in their lanes, and the LS counter learns of it (R299, R301). -/
def State.accessEnds (s : State) (id : Nat) (a : Access) : State :=
  ((s.setAccess (s.access.del id)).entryEnds id a).updGroup a.g fun h =>
    if h.team = a.team then
      let h1 := (a.lanes.foldl (fun (u : Group) x => match x.got with
        | some old => u.landValue id a x.lane old
        | none => u) h).lsDone id
      match a.kind with
      | .atomic _ => if 2 ≤ a.ord then h1.acquire s.clk a.scope else h1
      | _ => h1
    else h

/-- ACCESS_COMPLETE comes twice for a store, reduction or atomic: first it performs at its homes, and then it is complete. To perform, it
waits for its flits, for earlier accesses to its bytes and for records of a speculative task. -/
def State.accessComplete (s : State) (id : Nat) : State :=
  match s.access.find id with
  | none => s
  | some a =>
    let g := match s.group? a.g with
      | some h => if h.team = a.team then h else ghostGroup a
      | none => ghostGroup a
    let rs := a.lanes.flatMap fun x => x.runs
    let reads := match a.kind with
      | .store => false
      | _ => true
    if a.lanes.all fun x => x.done then
      if a.lanes.any fun x => !x.path.isEmpty then s.post (s.clk + 1) (.accessComplete id) else s.accessEnds id a
    else if (a.lanes.any fun x => !x.path.isEmpty) || s.mustFollow id a rs || s.homeStalls a.g g rs reads true then
      s.post (s.clk + 1) (.accessComplete id)
    else
      let (lanes, s1) := s.performLanes a g a.lanes
      let s2 := s1.unpoison (if a.kind = .store then rs else [])
      let w : Who := { die := a.g.die, core := a.g.core, ctx := a.ctx, gen := 0, copy := false }
      let back := lanes.map fun x => { x with path := s.backOf a.g.die x.runs }
      let a1 : Access := { a with lanes := back }
      let s3 := back.foldl (fun t x => t.sendBack id w a1 x) (s2.setAccess (s2.access.put id a1))
      s3.after (lanes.foldl (fun m x => max m (wayBack w x.runs)) 0) (.accessComplete id)

/-! ## The side log (R158, R195) -/

/-- What an entry of a side log asks of its page. -/
def AccKind.need (k : AccKind) : Need :=
  match k with
  | .store => .write
  | _ => .atomic

/-- Where a fresh walk takes an entry (R158), or what still refuses it: its pages, or a host that does not carry it (R193). -/
def State.entryRuns (s : State) (w : Who) (e : LogEntry) : Except XFault (List Run) :=
  match s.freshWalk w e.lin e.kind.need with
  | .error f => .error f
  | .ok (p, _) => match p with
    | .host _ a => if e.kind.carriedByHost then .ok [{ place := p, len := e.width }] else .error (.host true (a / 65536))
    | _ => .ok [{ place := p, len := e.width }]

/-- An entry as an access of its group and its one lane. -/
def LogEntry.access (e : LogEntry) (k : GKey) (team ctx : Nat) (rs : List Run) : Access × LaneAcc :=
  let x : LaneAcc := { lane := e.lane, lin := e.lin, ofs := e.ofs, runs := rs, data := e.data, cmp := [], path := [], done := false, got := none }
  ({ g := k, team := team, ctx := ctx, kind := e.kind, width := e.width, sel := e.sel, lanes := [x], dst := .none, mask := 0#32, ord := 0,
     scope := 0, task := none, told := [] }, x)

/-- Whether an access of a group in flight has still to perform on bytes of an entry: it came before the entry, since a later one would have
waited or been logged (R157, R175). -/
def State.entryWaits (s : State) (k : GKey) (team : Nat) (rs : List Run) : Bool :=
  s.access.any fun e => e.2.g == k && e.2.team == team && e.2.lanes.any fun x => !x.done && runsOverlap x.runs rs

/-- What comes of an entry's retry; `sent` is an access over links, which a far module may still refuse (R12, R13). -/
inductive RetryOut where
  | performed (s : State)
  | waits (s : State)
  | sent (id : Nat) (s : State)
  | fails (f : XFault)

/-- Put an entry in flight towards another die or module, as an access of one lane. -/
def State.sendEntry (s : State) (w : Who) (k : GKey) (team : Nat) (e : LogEntry) (rs : List Run) : Nat × State :=
  let (id, s1) := s.newId
  let (a, x) := e.access k team w.ctx rs
  let y : LaneAcc := { x with path := s1.pathOf w.die rs }
  let b : Access := { a with lanes := [y] }
  (id, ((s1.setAccess (s1.access.put id b)).sendLane id w b y 0).after (figureOf w rs / 2) (.accessComplete id))

/-- Retry an entry (R158); one that is on its way over links waits for its answer. -/
def State.retryEntry (s : State) (w : Who) (k : GKey) (g : Group) (team : Nat) (e : LogEntry) : RetryOut :=
  if e.away.isSome then .waits s
  else match s.entryRuns w e with
  | .error f => .fails f
  | .ok rs =>
    if s.entryWaits k team rs then .waits (s.post (s.clk + 1) (.faultRetry (.sideLog k)))
    else if !(s.pathOf w.die rs).isEmpty then let (id, t) := s.sendEntry w k team e rs; .sent id t
    else
      let (a, x) := e.access k team w.ctx rs
      .performed ((s.performLane k g a x).2.unpoison (if e.kind = .store then rs else []))

/-- Retry the oldest entries of a group's log with fresh walks, until one fails; `n` bounds the entries. One that meets the boundary of the
partition freezes its group, and comes again when that is resumed (R24, R25; log 23). -/
def State.retryLog (k : GKey) : Nat → State → State
  | 0, s => s
  | n + 1, s =>
    match s.group? k with
    | none => s
    | some g =>
      match g.log with
      | [] => s
      | e :: rest =>
        if g.run = .parked .frozen then s
        else
          let w := s.whoOf k g
          match s.retryEntry w k g g.team e with
          | .performed s1 => State.retryLog k n (s1.updGroup k fun h => { h with log := rest })
          | .waits s1 => s1
          | .sent id s1 => s1.updGroup k fun h => { h with log := { e with away := some id } :: rest }
          | .fails f =>
            let ask (p : Nat) : State :=
              if e.host then s
              else (s.updGroup k fun h => { h with log := { e with host := true } :: rest }).send (.ats k.die w.ctx p)
            match f with
            | .violation set => (s.violate set .req (groupMaster k) w.ctx).leavePen k g (.parked .frozen)
            | .ats p => (ask p).after 256 (.faultRetry (.sideLog k))
            | .host _ p => (ask p).after 256 (.faultRetry (.sideLog k))
            | _ => s.after 256 (.faultRetry (.sideLog k))

/-- Retry what the logs of exited groups of a team still hold, oldest first, until one fails. One that meets the boundary of the partition is
discarded: its group is gone (R24; log 23). -/
def State.retryTeam (t : Nat) : Nat → State → State
  | 0, s => s
  | n + 1, s =>
    match s.team? t with
    | none => s
    | some tm =>
      match tm.logs with
      | [] => s
      | (k, e) :: rest =>
        let drop (u : State) : State := u.updTeam t fun y => { y with logs := rest }
        let w : Who := { die := k.die, core := k.core, ctx := tm.ctx, copy := false, gen := ((s.host.launches.find tm.launch).map (·.gen)).getD 0 }
        match s.retryEntry w k (ghostGroup (e.access k t tm.ctx []).1) t e with
        | .performed s1 => State.retryTeam t n (drop s1)
        | .waits s1 => s1
        | .sent id s1 => s1.updTeam t fun y => { y with logs := (k, { e with away := some id }) :: rest }
        | .fails f =>
          let ask (p : Nat) : State :=
            if e.host then s
            else (s.updTeam t fun y => { y with logs := (k, { e with host := true }) :: rest }).send (.ats k.die tm.ctx p)
          match f with
          | .violation set => State.retryTeam t n (drop (s.stray set .req))
          | .ats p => (ask p).after 256 (.faultRetry (.sideLog k))
          | .host _ p => (ask p).after 256 (.faultRetry (.sideLog k))
          | _ => s.after 256 (.faultRetry (.sideLog k))

/-- FAULT_RETRY of a side log: the group's own, and those of exited groups of its slot's core (R158). -/
def State.sideLogRetry (s : State) (k : GKey) : State :=
  let s1 := State.retryLog k 17 (s.setAgenda (s.agenda.filter fun x => x.2 ≠ .faultRetry (.sideLog k)))
  s1.teams.foldl (fun t e => if e.2.die = k.die ∧ e.2.core = k.core ∧ !e.2.logs.isEmpty then State.retryTeam e.1 (e.2.logs.length + 1) t else t) s1

/-! ## Fences (R310, R311) -/

/-- FENCE. -/
def State.fenceOp (s : State) : Host.Outcome State Fault Refusal :=
  s.withIssuer fun k g c =>
    let p := g.fieldP c
    let ord := (p.extractLsb' 0 2).toNat
    let scope := (p.extractLsb' 2 3).toNat
    if p.extractLsb' 5 19 != 0 || ord = 0 || scope = 0 || scope = 7 then s.raise k g (trapOf .illField 0#32)
    else if s.acquiring k g then s.waitAcquire k g
    else if !g.log.isEmpty || (decide (2 ≤ ord) && !g.released) then s.hold k g
    else if ord = 3 && !g.scOut.isEmpty then s.hold k g
    else if ord = 2 then s.advance k g c 1 none
    else s.advance k (g.acquire s.clk scope) c 1 none

/-- FENCEX: between a path and itself it orders nothing and completes at once (R190), as in a speculative task (R82); between two paths it takes 16
clk once the side log is empty (R157) and what a promoted task drafted is in memory (R87). -/
def State.fencexOp (s : State) : Host.Outcome State Fault Refusal :=
  s.withIssuer fun k g c =>
    let p := g.fieldP c
    if p.extractLsb' 4 20 != 0 then s.raise k g (trapOf .illField 0#32)
    else if g.speculative || p.extractLsb' 0 2 == p.extractLsb' 2 2 then s.advance k g c 1 none
    else if s.acquiring k g then s.waitAcquire k g
    else if !g.log.isEmpty || !g.drained then s.hold k g
    else s.advance k g c 16 none

/-! ## Segment registers (R312, R313) -/

/-- A fault in a table's read parks the group with PAGE_LOAD or its cause (R312, R156). -/
def State.tableFault (s : State) (k : GKey) (g : Group) (f : XFault) (lin : Nat) : State :=
  s.pageFault k g f { cause := .pageLoad, aux := 0#32, ofs := 0, sel := 0, lin := lin } false g.pos .instr

/-- The linear address of a descriptor and of a rubric entry (R142, R146). -/
def State.descLin (s : State) (w : Who) (sel : Nat) : Nat := pteBits (s.ctx w.die w.ctx).sdtb 21 43 * 2097152 + 32 * sel
def State.rubricLin (s : State) (w : Who) (idx : Nat) : Nat := pteBits (s.ctx w.die w.ctx).rbtb 16 48 * 65536 + 16 * idx

/-- A rubric entry: STATE, RGEN, SEL, EVN (R146). -/
structure Entry where
  state : Nat
  rgen : Nat
  sel : Nat
  evn : Nat
  deriving DecidableEq, Repr

def entryOf (bs : List Byte) : Entry :=
  let w := BitVec.ofNat 64 (leNat bs)
  { state := pteBits w 0 2, rgen := pteBits w 16 16, sel := pteBits w 32 16, evn := pteBits w 48 16 }

def entryBytes (e : Entry) : List Byte := leBytes 8 (e.state + 65536 * (e.rgen % 65536) + 2 ^ 32 * e.sel + 2 ^ 48 * e.evn)

/-- LINK's trap: the index and the state (R147). -/
def linkTrap (idx : Nat) (e : Entry) (lin : Nat) : Trap :=
  { cause := .link, aux := BitVec.ofNat 32 (idx + 4096 * (if e.state = 3 then 2 else e.state)), ofs := lin % 2 ^ 48, sel := 0, lin := lin }

/-- LINK is not deferred: a speculative task parks until the entry is BOUND, and its entry is reported (R89). -/
def State.linkTrapOp (s : State) (k : GKey) (g : Group) (idx : Nat) (e : Entry) (lin : Nat) : State :=
  if g.speculative then
    (s.leavePen k g (.parked (.link idx))).report k.die (s.ctxOf g.team)
      { lin := lin, ec := .link, kind := 2, hostfail := false, core := k.core, slot := k.slot, sel := 0, ofs := 0 }
  else s.raise k g (linkTrap idx e lin)

/-- The latency of a descriptor or entry read (R151): 80 clk and what traffic adds. -/
def State.tableClk (s : State) : Nat × State := (80 + Config.delay s.freeCtr, s.setFreeCtr (s.freeCtr + 1))

/-- Whether the read or the act of an instruction on some bytes must wait: for an earlier access of its group to them that is still to perform
(R173, R175), for a drafted write of a promoted task that has not drained (R87), or for a refresh of the folio (R166). -/
def State.readHolds (s : State) (k : GKey) (g : Group) (rs : List Run) : Bool :=
  s.entryWaits k g.team rs || (s.refreshEnd rs).isSome
    || (!g.drained && (match g.task with
      | some t => (s.draftGrains rs).any fun p => t.draft.any fun x => x.place == p
      | none => false))

/-- Whether it must wait so on bytes of a table, or for an entry of the side log on them (R157). -/
def State.tableHolds (s : State) (k : GKey) (g : Group) (w : Who) (lin n : Nat) : Bool :=
  match s.translateRange w .read 3 lin n with
  | (.ok rs, _) => g.logOverlaps 0 lin n || s.readHolds k g rs
  | (.error _, _) => false

/-- Whether a load of a segment register by a selector must wait so; the null and the reserved selectors have no descriptor (R145, R399). -/
def State.selHolds (s : State) (k : GKey) (g : Group) (w : Who) (sel : BitVec 16) : Bool :=
  sel != 0#16 && decide (sel.toNat < 0xfffd) && s.tableHolds k g w (s.descLin w sel.toNat) 32

/-- Load a segment register and go on; a fault parks. -/
def State.segLoadOp (s : State) (k : GKey) (g : Group) (c : Clause) (gd : Nat) (sel : BitVec 16) : State :=
  let w := s.whoOf k g
  if s.selHolds k g w sel then s.hold k g
  else match s.loadSeg w g sel with
  | (.error f, s1) => s1.tableFault k g f (s.descLin w sel.toNat)
  | (.ok (r, _), s1) =>
    let (t, s2) := s1.tableClk
    s2.advance k ({ g with seg := g.seg.put gd r }.acquire s.clk 5) c (1 + t) none

/-- LINK. -/
def State.linkOp (s : State) (f : GFmt) : Host.Outcome State Fault Refusal :=
  s.withIssuer fun k g c =>
    if f.s != 0#8 then s.raise k g (trapOf .illField 0#32)
    else if f.g = 15#4 then s.raise k g (trapOf .illOperand (auxSpec g 0#8))
    else if s.acquiring k g then s.waitAcquire k g
    else
      let w := s.whoOf k g
      let lin := s.rubricLin w f.idx.toNat
      if s.tableHolds k g w lin 8 then s.hold k g
      else match s.readLin w lin 8 with
      | (.error x, s1) => s1.tableFault k g x lin
      | (.ok bs, s1) =>
        let e := entryOf bs
        if e.state = 2 then s1.segLoadOp k g c f.g.toNat (BitVec.ofNat 16 e.sel) else s1.linkTrapOp k g f.idx.toNat e lin

/-- GLD. -/
def State.gldOp (s : State) (f : GFmt) : Host.Outcome State Fault Refusal :=
  s.withIssuer fun k g c =>
    if g.pending (touchScalars (useScalars [useOf f.s true 1])) then s.hold k g
    else if f.idx != 0#12 then s.raise k g (trapOf .illField 0#32)
    else if !isScalarOrImm f.s then s.raise k g (trapOf .illOperand (auxSpec g f.s))
    else if f.g = 15#4 then s.raise k g (trapOf .illOperand (auxSpec g 0#8))
    else if s.acquiring k g then s.waitAcquire k g
    else s.segLoadOp k g c f.g.toNat (bits (g.uniform f.s) 0 16)

/-- GMOV. -/
def State.gmovOp (s : State) (f : GFmt) : Host.Outcome State Fault Refusal :=
  s.withIssuer fun k g c =>
    if f.s != 0#8 || f.idx.extractLsb' 0 8 != 0 then s.raise k g (trapOf .illField 0#32)
    else if f.g = 15#4 then s.raise k g (trapOf .illOperand (auxSpec g 0#8))
    else if s.acquiring k g then s.waitAcquire k g
    else s.advance k { g with seg := g.seg.put f.g.toNat (g.segReg (f.idx.extractLsb' 8 4).toNat) } c 1 none

/-- The answer of SEGQ to a query (R313). -/
def segAnswer (r : SegReg) (q : Nat) (stale : Bool) : Word :=
  match q with
  | 0 => BitVec.ofNat 32 (r.sel.toNat + 65536 * r.gen.toNat)
  | 1 => r.limit.extractLsb' 0 32
  | _ => BitVec.ofNat 32 ((r.limit.extractLsb' 32 16).toNat + 65536 * bitOf r.r + 131072 * bitOf r.w + 262144 * bitOf r.x
      + 524288 * bitOf r.a + 1048576 * r.kind.toNat + 8388608 * bitOf r.s + 2147483648 * bitOf stale)

/-- SEGQ: STALE alone asks for the descriptor, by one acquire read at device scope. -/
def State.segqOp (s : State) (f : GFmt) : Host.Outcome State Fault Refusal :=
  s.withIssuer fun k g c =>
    let n := f.s.toNat - 0x80
    let q := (f.idx.extractLsb' 0 2).toNat
    if g.pending { regs := [], scalars := [n], preds := [] } then s.hold k g
    else if f.idx.extractLsb' 2 10 != 0 || q = 3 then s.raise k g (trapOf .illField 0#32)
    else if !isScalar f.s then s.raise k g (trapOf .illOperand (auxSpec g f.s))
    else if s.acquiring k g then s.waitAcquire k g
    else
      let r := g.segReg f.g.toNat
      if r.sel = 0#16 then s.advance k (g.setScalar n 0#32) c 1 none
      else if 0xfffd ≤ r.sel.toNat || q != 2 then s.advance k (g.setScalar n (segAnswer r q false)) c 1 none
      else
        let w := s.whoOf k g
        if s.tableHolds k g w (s.descLin w r.sel.toNat) 32 then s.hold k g
        else match s.readLin w (s.descLin w r.sel.toNat) 32 with
        | (.error x, s1) => s1.tableFault k g x (s.descLin w r.sel.toNat)
        | (.ok bs, s1) =>
          let (t, s2) := s1.tableClk
          s2.advance k ((g.setScalar n (segAnswer r q ((decodeDesc r.sel bs).1.gen != r.gen))).acquire s.clk 5) c (1 + t) none

/-! ## Binding (R148, R314, R315) -/

/-- The acts on a rubric entry. -/
inductive BindAct where
  | bind (sel : Nat)
  | unbind
  | revoke
  | retire
  deriving DecidableEq, Repr

/-- R148: the entry after an act, whether the act applies, and whether it signals. -/
def entryAct (a : BindAct) (e : Entry) : Option (Entry × Bool) :=
  match a with
  | .bind sel => if e.state = 0 ∨ e.state = 1 then some ({ e with state := 2, sel := sel }, true) else none
  | .retire => if e.state = 3 then none else some ({ e with state := 3, rgen := e.rgen + 1 }, decide (e.state < 2))
  | _ => if e.state = 2 then some ({ e with state := 0, rgen := e.rgen + 1 }, false) else none

/-- What came of an act at its home slice: a fault, refused, or applied with the entry as it was. -/
inductive ActOut where
  | fault (f : XFault) (lin : Nat)
  | refused
  | applied (old : Entry) (signal : Bool)
  deriving DecidableEq, Repr

/-- Apply an act to an entry as one indivisible update; a revoke also raises the descriptor's GEN (R315). -/
def State.applyBind (s : State) (w : Who) (idx : Nat) (a : BindAct) : ActOut × State :=
  let lin := s.rubricLin w idx
  match s.readLin w lin 8 with
  | (.error f, s1) => (.fault f lin, s1)
  | (.ok bs, s1) =>
    let e := entryOf bs
    match entryAct a e with
    | none => (.refused, s1)
    | some (e', sig) =>
      let gl := s1.descLin w e.sel + 14
      let bump : Bool := a = .revoke ∧ e.sel ≠ 0 ∧ e.sel < 0xfffd
      match s1.translateRange w .write 1 lin 8 with
      | (.error (f, _), s2) => (.fault f lin, s2)
      | (.ok er, s2) =>
        if !bump then (.applied e sig, s2.engineWrite w.ctx er (entryBytes e'))
        else match s2.translateRange w .write 1 gl 2 with
          | (.error (f, _), s3) => (.fault f gl, s3)
          | (.ok gr, s3) =>
            (.applied e sig, (s3.engineWrite w.ctx er (entryBytes e')).engineWrite w.ctx gr (leBytes 2 (leNat (s3.readRuns gr) + 1)))

/-- The status scalar of BIND and UNBIND is pending until the act is complete (R314). -/
def Group.awaitScalar (g : Group) (n : Nat) (id : Nat) : Group := { g with pend := { id := id, on := .scalar n, lanes := 1#32 } :: g.pend }

/-- The farthest hop of a partition from a die. -/
def State.farHop (s : State) (die : Nat) : Nat := (s.diesOf (s.slotOf die)).foldl (fun m d => max m (hops die d)) 0

/-- The most that a signal of an act takes beyond its hops: it is at the event's home die before the act is answered, which is within 2048 clk
(R314, R315; log 2). -/
def signalClk : Nat := 1024

/-- The signal of an act on an entry (R148, R314). -/
def State.signalBy (s : State) (die ctx name : Nat) : State :=
  let part := s.slotOf die
  let h := 60 * hops die (s.homeDie part)
  s.within h (h + signalClk) (.eventActArrive part ctx name (.signal none))

/-- Whether an act on an entry waits for what its group has still to do to the entry, or to the descriptor that a revoke changes (R175). -/
def State.bindHolds (s : State) (k : GKey) (g : Group) (w : Who) (idx : Nat) (a : BindAct) : Bool :=
  s.tableHolds k g w (s.rubricLin w idx) 8 || (a == .revoke && (match s.readLin w (s.rubricLin w idx) 8 with
    | (.ok bs, _) => s.tableHolds k g w (s.descLin w (entryOf bs).sel) 32
    | (.error _, _) => false))

/-- An act made by an instruction: its status comes when it is complete (R314, R315). -/
def State.bindOp (s : State) (k : GKey) (g : Group) (c : Clause) (status idx : Nat) (a : BindAct) : State :=
  let w := s.whoOf k g
  if s.bindHolds k g w idx a then s.hold k g
  else match s.applyBind w idx a with
  | (.fault f lin, s1) => s1.tableFault k g f lin
  | (.refused, s1) =>
    let s2 := s1.advance k (g.awaitScalar status 0) c 1 none
    (s2.updGroup k fun h => h.setScalar status 1#32).within 80 2048 (.descriptorSyncDone (s.slotOf k.die) w.ctx none (.scalar k g.team status))
  | (.applied e sig, s1) =>
    let s2 := s1.advance k ((g.awaitScalar status 0).setScalar status 0#32) c 1 none
    let s3 := if sig then s2.signalBy k.die w.ctx e.evn else s2
    let sel := if a = .revoke ∧ e.sel ≠ 0 then some e.sel else none
    s3.within (80 + 60 * s.farHop k.die + (if sig then signalClk else 0)) 2048 (.descriptorSyncDone (s.slotOf k.die) w.ctx sel (.scalar k g.team status))

/-- BIND. -/
def State.bindInstr (s : State) (f : GFmt) : Host.Outcome State Fault Refusal :=
  s.withIssuer fun k g c =>
    let n := f.s.toNat - 0x80
    if g.pending { regs := [], scalars := [n, n + 1], preds := [] } then s.hold k g
    else if !g.privileged then s.raise k g (trapOf .priv 0#32)
    else if f.g != 0#4 then s.raise k g (trapOf .illField 0#32)
    else if !isEvenScalar f.s then s.raise k g (trapOf .illOperand (auxSpec g f.s))
    else if g.speculative then s.raise k g (trapOf .illOperand (auxSpec g 0#8))
    else s.bindOp k g c (n + 1) f.idx.toNat (.bind ((g.scalar n).toNat % 65536))

/-- UNBIND. -/
def State.unbindInstr (s : State) (f : GFmt) : Host.Outcome State Fault Refusal :=
  s.withIssuer fun k g c =>
    let n := f.s.toNat - 0x80
    let act : Option BindAct := match f.g.toNat with
      | 0 => some .unbind
      | 1 => some .revoke
      | 2 => some .retire
      | _ => none
    if g.pending { regs := [], scalars := [n], preds := [] } then s.hold k g
    else if !g.privileged then s.raise k g (trapOf .priv 0#32)
    else match act with
      | none => s.raise k g (trapOf .illField 0#32)
      | some a =>
        if !isScalar f.s then s.raise k g (trapOf .illOperand (auxSpec g f.s))
        else if g.speculative then s.raise k g (trapOf .illOperand (auxSpec g 0#8))
        else s.bindOp k g c n f.idx.toNat a

/-! ## The instructions -/

/-- LD (0x80). -/
def execLd (f : MFmt) (s : State) : Host.Outcome State Fault Refusal := s.memOp (mShort 0x80 f)
/-- LD, long form. -/
def execLdLong (f : MFmt) (x : MLong) (s : State) : Host.Outcome State Fault Refusal := s.memOp (mLong 0x80 f x)
/-- ST (0x81). -/
def execSt (f : MFmt) (s : State) : Host.Outcome State Fault Refusal := s.memOp (mShort 0x81 f)
/-- ST, long form. -/
def execStLong (f : MFmt) (x : MLong) (s : State) : Host.Outcome State Fault Refusal := s.memOp (mLong 0x81 f x)
/-- LDU (0x82). -/
def execLdu (f : MFmt) (s : State) : Host.Outcome State Fault Refusal := s.memOp (mShort 0x82 f)
/-- LDU, long form. -/
def execLduLong (f : MFmt) (x : MLong) (s : State) : Host.Outcome State Fault Refusal := s.memOp (mLong 0x82 f x)
/-- LDA (0x83). -/
def execLda (f : MFmt) (s : State) : Host.Outcome State Fault Refusal := s.memOp (mShort 0x83 f)
/-- LDA, long form. -/
def execLdaLong (f : MFmt) (x : MLong) (s : State) : Host.Outcome State Fault Refusal := s.memOp (mLong 0x83 f x)
/-- STL (0x84). -/
def execStl (f : MFmt) (s : State) : Host.Outcome State Fault Refusal := s.memOp (mShort 0x84 f)
/-- STL, long form. -/
def execStlLong (f : MFmt) (x : MLong) (s : State) : Host.Outcome State Fault Refusal := s.memOp (mLong 0x84 f x)
/-- PREF (0x85). -/
def execPref (f : MFmt) (s : State) : Host.Outcome State Fault Refusal := s.memOp (mShort 0x85 f)
/-- PREF, long form. -/
def execPrefLong (f : MFmt) (x : MLong) (s : State) : Host.Outcome State Fault Refusal := s.memOp (mLong 0x85 f x)
/-- AXCH (0x90). -/
def execAxch (f : MFmt) (x : ALong) (s : State) : Host.Outcome State Fault Refusal := s.memOp (aLong 0x90 f x)
/-- ACAS (0x91). -/
def execAcas (f : MFmt) (x : ALong) (s : State) : Host.Outcome State Fault Refusal := s.memOp (aLong 0x91 f x)
/-- AADD (0x92). -/
def execAadd (f : MFmt) (x : ALong) (s : State) : Host.Outcome State Fault Refusal := s.memOp (aLong 0x92 f x)
/-- AMIN (0x93). -/
def execAmin (f : MFmt) (x : ALong) (s : State) : Host.Outcome State Fault Refusal := s.memOp (aLong 0x93 f x)
/-- AMAX (0x94). -/
def execAmax (f : MFmt) (x : ALong) (s : State) : Host.Outcome State Fault Refusal := s.memOp (aLong 0x94 f x)
/-- AAND (0x95). -/
def execAand (f : MFmt) (x : ALong) (s : State) : Host.Outcome State Fault Refusal := s.memOp (aLong 0x95 f x)
/-- AOR (0x96). -/
def execAor (f : MFmt) (x : ALong) (s : State) : Host.Outcome State Fault Refusal := s.memOp (aLong 0x96 f x)
/-- AXOR (0x97). -/
def execAxor (f : MFmt) (x : ALong) (s : State) : Host.Outcome State Fault Refusal := s.memOp (aLong 0x97 f x)
/-- AFADD (0x98). -/
def execAfadd (f : MFmt) (x : ALong) (s : State) : Host.Outcome State Fault Refusal := s.memOp (aLong 0x98 f x)
/-- RADD (0x99). -/
def execRadd (f : MFmt) (x : ALong) (s : State) : Host.Outcome State Fault Refusal := s.memOp (aLong 0x99 f x)
/-- RFADD (0x9a). -/
def execRfadd (f : MFmt) (x : ALong) (s : State) : Host.Outcome State Fault Refusal := s.memOp (aLong 0x9a f x)
/-- RMAX (0x9b). -/
def execRmax (f : MFmt) (x : ALong) (s : State) : Host.Outcome State Fault Refusal := s.memOp (aLong 0x9b f x)
/-- LINK (0xa0). -/
def execLink (f : GFmt) (s : State) : Host.Outcome State Fault Refusal := s.linkOp f
/-- GLD (0xa1). -/
def execGld (f : GFmt) (s : State) : Host.Outcome State Fault Refusal := s.gldOp f
/-- GMOV (0xa2). -/
def execGmov (f : GFmt) (s : State) : Host.Outcome State Fault Refusal := s.gmovOp f
/-- SEGQ (0xa3). -/
def execSegq (f : GFmt) (s : State) : Host.Outcome State Fault Refusal := s.segqOp f
/-- UNBIND (0xaa). -/
def execUnbind (f : GFmt) (s : State) : Host.Outcome State Fault Refusal := s.unbindInstr f
/-- BIND (0xab). -/
def execBind (f : GFmt) (s : State) : Host.Outcome State Fault Refusal := s.bindInstr f
/-- FENCE (0xa4). -/
def execFence (s : State) : Host.Outcome State Fault Refusal := s.fenceOp
/-- FENCEX (0xa5). -/
def execFencex (s : State) : Host.Outcome State Fault Refusal := s.fencexOp
/-- LOAD_RETURN. -/
def execLoadReturn (s : State) : Host.Outcome State Fault Refusal :=
  match s.subject with
  | .loadReturn a l => .next (s.loadReturn a l)
  | _ => .fault .noSubject
/-- ACCESS_COMPLETE. -/
def execAccessComplete (s : State) : Host.Outcome State Fault Refusal :=
  match s.subject with
  | .accessComplete a => .next (s.accessComplete a)
  | _ => .fault .noSubject

end Sys2Proof.Machine
end

