-- ==== Sys2Proof/Machine/Control.lean ====
section
/-! DEFINITION. The control instructions (R327 to R337, R340 to R342), the CSRs (R352 to R356) and the register window, index
windows and well (R357 to R361), with the arrival of barrier acts (R113, R114) and the register claims of a pen (R137, R138). -/

namespace Sys2Proof.Machine

/-! ## Branches and calls (R327 to R330) -/

/-- The target of a word of format C (R262). -/
def Clause.target (c : Clause) (pos : Nat) (f : CFmt) : BitVec 48 := c.ofsAt pos + (f.offs.signExtend 48 <<< 2)

/-- The lanes of a group's population (R97). -/
def Group.population (g : Group) : Word := maskedBits 0xffffffff#32 0#32 fun l => decide (l < g.nlanes)

/-- BRA (R107). With EXEC = 0 the first row of R107 applies: T = EXEC. -/
def State.braOp (s : State) (f : CFmt) : Host.Outcome State Fault Refusal :=
  s.withIssuer fun k g c =>
    if g.pending (touchPred f.gp.toNat) then s.hold k g
    else
      let t := g.guarded (f.neg = 1#1) f.gp.toNat
      let goal := c.target g.pos f
      if t = g.exec then s.jump k g goal 1
      else if t = 0#32 then s.advance k g c 1 none
      else match g.stack with
        | e :: rest =>
          if e.split then s.raise k g (trapOf .illOperand (auxSpec g 0#8))
          else
            let e' : Recon := { e with split := true, ppc := c.next, psel := (g.segReg 15).sel, pmask := g.exec &&& ~~~t }
            s.jump k { g with stack := e' :: rest, exec := t, hand := e.h } goal 1
        | [] => s.raise k g (trapOf .illOperand (auxSpec g 0#8))

/-- BRU (R328). -/
def State.bruOp (s : State) (f : CFmt) : Host.Outcome State Fault Refusal :=
  s.withIssuer fun k g c =>
    if g.pending (touchPred f.gp.toNat) then s.hold k g
    else if g.guarded (f.neg = 1#1) f.gp.toNat = 0#32 then s.advance k g c 1 none
    else s.jump k g (c.target g.pos f) 1

/-- s60 and s61 as CALL and CALLR write them (R329): the clause after the call's, and g15's selector. -/
def Group.saveReturn (g : Group) (c : Clause) : Group :=
  (g.setScalar 60 (c.next.extractLsb' 0 32)).setScalar 61
    ((c.next.extractLsb' 32 16).setWidth 32 ||| ((g.segReg 15).sel.setWidth 32 <<< 16))

/-- CALL. -/
def State.callOp (s : State) (f : CFmt) : Host.Outcome State Fault Refusal :=
  s.withIssuer fun k g c =>
    if g.pending (touchScalars [60, 61]) then s.hold k g
    else if f.neg != 0#1 || f.gp != 0#3 then s.raise k g (trapOf .illField 0#32)
    else s.jump k (g.saveReturn c) (c.target g.pos f) 1

/-- The group as an instruction leaves it goes to an offset of the segment of a selector, loading g15 from it by a fresh acquire read when it is
another (R329, R334); `guard` is the privilege check of CALLR and RET. Where that fails the instruction has no effect (R256): the group stands
as it was before it. -/
def State.enter (s : State) (k : GKey) (old g : Group) (sel : BitVec 16) (ofs : BitVec 48) (occ : Nat) (guard : Bool) : State :=
  if sel = (g.segReg 15).sel then s.jump k g ofs occ
  else
    let w := s.whoOf k g
    if s.selHolds k g w sel then s.hold k old
    else match s.loadSeg w g sel with
    | (.error f, s1) => s1.tableFault k old f (s.descLin w sel.toNat)
    | (.ok (r, _), s1) =>
      if guard && r.s && !g.supervisor then s1.raise k old (trapOf .priv 0#32)
      else
        let (t, s2) := s1.tableClk
        s2.jump k ({ g with seg := g.seg.put 15 r }.acquire s.clk 5) ofs (occ + t)

/-- CALLR. -/
def State.callrOp (s : State) (f : GFmt) : Host.Outcome State Fault Refusal :=
  s.withIssuer fun k g c =>
    if g.pending (touchScalars [60, 61]) then s.hold k g
    else if f.s != 0#8 || f.g != 0#4 then s.raise k g (trapOf .illField 0#32)
    else if s.acquiring k g then s.waitAcquire k g
    else
      let w := s.whoOf k g
      let lin := s.rubricLin w f.idx.toNat
      if s.tableHolds k g w lin 8 then s.hold k g
      else match s.readLin w lin 8 with
      | (.error x, s1) => s1.tableFault k g x lin
      | (.ok bs, s1) =>
        let e := entryOf bs
        if e.state ≠ 2 then s1.linkTrapOp k g f.idx.toNat e lin
        else
          let sel := BitVec.ofNat 16 e.sel
          if s1.selHolds k g w sel then s1.hold k g
          else match s1.loadSeg w g sel with
          | (.error x, s2) => s2.tableFault k g x (s2.descLin w sel.toNat)
          | (.ok (r, _), s2) =>
            if r.kind ≠ 1#3 then s2.raise k g (trapOf .rubricKind (f.idx.setWidth 32))
            else if r.s && !g.supervisor then s2.raise k g (trapOf .priv 0#32)
            else
              let (t, s3) := s2.tableClk
              let g1 := g.saveReturn c
              s3.jump k ({ g1 with seg := g1.seg.put 15 r }.acquire s.clk 5) 0#48 (1 + t)

/-- RET. -/
def State.retOp (s : State) : Host.Outcome State Fault Refusal :=
  s.withIssuer fun k g c =>
    let o : BitVec 48 := (g.scalar 61).extractLsb' 0 16 ++ g.scalar 60
    let q := (g.scalar 61).extractLsb' 16 16
    let bad (cs : Cause) : Trap := { cause := cs, aux := 0#32, ofs := o.toNat, sel := q.toNat, lin := 0 }
    if g.pending (touchScalars [60, 61]) then s.hold k g
    else if g.fieldP c != 0#24 then s.raise k g (trapOf .illField 0#32)
    else if q = 0#16 then s.raise k g (bad .segNull)
    else if o.extractLsb' 0 2 != 0#2 then s.raise k g (bad .align)
    else if q != (g.segReg 15).sel && s.acquiring k g then s.waitAcquire k g
    else s.enter k g g q o 1 true

/-! ## Divergence and exit (R106 to R110, R331) -/

/-- A pair of an offset and a selector, 8 bytes (R110). -/
def pcBytes (pc : BitVec 48) (sel : BitVec 16) : List Byte := leBytes 6 pc.toNat ++ leBytes 2 sel.toNat

/-- A spilled entry (R110). -/
def reconBytes (e : Recon) : List Byte :=
  pcBytes e.pc e.sel ++ leBytes 4 e.m.toNat ++ leBytes 4 e.h.toNat ++ pcBytes e.ppc e.psel ++ leBytes 4 e.pmask.toNat
    ++ leBytes 4 (bitOf e.split)

def reconOf (bs : List Byte) : Recon :=
  let n (i len : Nat) : Nat := leNat ((bs.drop i).take len)
  { pc := BitVec.ofNat 48 (n 0 6), sel := BitVec.ofNat 16 (n 6 2), m := BitVec.ofNat 32 (n 8 4), h := BitVec.ofNat 32 (n 12 4),
    ppc := BitVec.ofNat 48 (n 16 6), psel := BitVec.ofNat 16 (n 22 2), pmask := BitVec.ofNat 32 (n 24 4), split := n 28 4 % 2 = 1 }

/-- The offset of spilled entry `i` in g13. -/
def Group.spillAt (g : Group) (i : Nat) : Nat := g.tframe.toNat + 0x200 + 32 * i

/-- Whether the first `n` places of the spill area lie in g13 (R110). -/
def Group.spillFits (g : Group) (t : Team) (n : Nat) : Bool := n = 0 || decide (g.spillAt n ≤ t.scratchLimit)

/-- SEG_LIMIT of a spill area that leaves g13. -/
def Group.spillTrap (g : Group) (n : Nat) : Trap :=
  { cause := .segLimit, aux := 0#32, ofs := g.spillAt (n - 1), sel := 0xfffe, lin := 0 }

/-- The bytes of the spill area as the group sees them: a speculative task's draft lies over memory (R78). -/
def State.stackRead (s : State) (g : Group) (t : Team) (o n : Nat) : List Byte :=
  (List.range n).map fun i => match t.scratch (o + i) with
    | some p => (match g.task with
      | some x => s.draftByte x p
      | none => s.readByte p)
    | none => 0#8

/-- The runs of a spilled entry. -/
def State.stackRuns (s : State) (g : Group) (t : Team) : List Run := (s.ownRuns t 0xfffe (g.spillAt g.spilled) 32).getD []

/-- Write a spilled entry: a task that still drafts drafts it, so that an abort leaves nothing of it in memory (R83). -/
def State.stackWrite (s : State) (k : GKey) (g : Group) (t : Team) (bs : List Byte) : State :=
  match g.task with
  | some x => if x.spec || !x.draft.isEmpty then s.groupWrite k g (s.stackRuns g t) bs else s.writeScratch t (g.spillAt g.spilled) bs
  | none => s.writeScratch t (g.spillAt g.spilled) bs

/-- DIV (R331, R110). -/
def State.divOp (s : State) (f : CFmt) : Host.Outcome State Fault Refusal :=
  s.withIssuer fun k g c =>
    let e : Recon := { pc := c.target g.pos f, sel := (g.segReg 15).sel, m := g.exec, h := g.hand, split := false, ppc := 0#48,
                       psel := 0#16, pmask := 0#32 }
    if f.neg != 0#1 || f.gp != 0#3 then s.raise k g (trapOf .illField 0#32)
    else if 80 ≤ g.stack.length + g.spilled then s.raise k g (trapOf .illOperand (auxSpec g 0#8))
    else if g.stack.length < 16 then s.advance k { g with stack := e :: g.stack } c 1 none
    else match s.team? g.team with
      | none => s.advance k { g with stack := e :: g.stack } c 1 none
      | some tm =>
        if !g.spillFits tm (g.spilled + 1) then s.raise k g (g.spillTrap (g.spilled + 1))
        else match g.stack.getLast? with
          | none => s.advance k { g with stack := e :: g.stack } c 1 none
          | some b =>
            if s.homeStalls k g (s.stackRuns g tm) false true then s.hold k g
            else
              let s1 := s.stackWrite k g tm (reconBytes b)
              s1.advance k { g with stack := e :: g.stack.dropLast, spilled := g.spilled + 1, task := ((s1.group? k).map (·.task)).getD g.task } c
                33 none

/-- What JOIN does to the group: the group, where it goes, and the clk of a fill (R108, R110). -/
structure JoinOut where
  g : Group
  pc : BitVec 48
  sel : BitVec 16
  clk : Nat
  deriving DecidableEq, Repr

/-- One JOIN step; none for an empty stack. EXEC never takes a lane outside the population (R97). -/
def State.joinStep (s : State) (tm : Option Team) (g : Group) : Option JoinOut :=
  match g.stack with
  | [] => none
  | e :: rest =>
    if e.split && e.pmask != 0#32 then
      some { g := { g with exec := e.pmask &&& g.population, hand := e.h, stack := { e with pmask := 0#32 } :: rest }, pc := e.ppc,
             sel := e.psel, clk := 0 }
    else
      let g1 : Group := { g with exec := e.m &&& g.population, hand := e.h, stack := rest }
      if rest.length = 15 ∧ 0 < g.spilled then
        let b := match tm with
          | some t => reconOf (s.stackRead g t (g.spillAt (g.spilled - 1)) 32)
          | none => e
        some { g := { g1 with stack := rest ++ [b], spilled := g.spilled - 1 }, pc := e.pc, sel := e.sel, clk := 32 }
      else some { g := g1, pc := e.pc, sel := e.sel, clk := 0 }

/-- JOIN. -/
def State.joinOp (s : State) : Host.Outcome State Fault Refusal :=
  s.withIssuer fun k g c =>
    let tm := s.team? g.team
    if g.fieldP c != 0#24 then s.raise k g (trapOf .illField 0#32)
    else if (match tm with | some t => !g.spillFits t g.spilled | none => false) && g.stack.length = 16
        && !(match g.stack with | e :: _ => e.split && e.pmask != 0#32 | [] => false) then
      s.raise k g (g.spillTrap g.spilled)
    else match s.joinStep tm g with
      | none => s.raise k g (trapOf .illOperand (auxSpec g 0#8))
      | some j => s.enter k g j.g j.sel j.pc (1 + j.clk) false

/-- The lanes of EXIT leave an entry. -/
def Recon.without (e : Recon) (l : Word) : Recon := { e with m := e.m &&& ~~~l, pmask := e.pmask &&& ~~~l }

/-- The lanes of EXIT leave every spilled entry, in memory; the lanes that remain in them. -/
def State.exitSpilled (tm : Team) (g : Group) (l : Word) : Nat → State → State × Word
  | 0, s => (s, 0#32)
  | n + 1, s =>
    let e := (reconOf (s.readScratch tm (g.spillAt n) 32)).without l
    let s1 := s.writeScratch tm (g.spillAt n) (reconBytes e)
    let (s2, r) := State.exitSpilled tm g l n s1
    (s2, r ||| e.m ||| e.pmask)

/-- JOIN, repeated while it leaves EXEC = 0 (R109); the clk of the fills add up. -/
def State.joinRepeat (s : State) (tm : Option Team) : Nat → Group → Option JoinOut
  | 0, _ => none
  | n + 1, g =>
    match s.joinStep tm g with
    | none => none
    | some j =>
      if j.g.exec = 0#32 then (s.joinRepeat tm n j.g).map fun r => { r with clk := r.clk + j.clk } else some j

/-- EXIT in a group that runs no task (R109). -/
def State.exitLanes (s : State) (k : GKey) (g : Group) : State :=
  let l := g.exec
  let tm := s.team? g.team
  match tm with
  | none => s.exitGroup k g
  | some t =>
    if !g.spillFits t g.spilled then s.raise k g (g.spillTrap g.spilled)
    else
      let (s1, deep) := State.exitSpilled t g l g.spilled s
      let g1 : Group := { g with exec := 0#32, stack := g.stack.map fun e => e.without l }
      let left := g1.stack.foldl (fun (w : Word) e => w ||| e.m ||| e.pmask) deep
      if left &&& g.population = 0#32 then s1.exitGroup k g
      else match s1.joinRepeat tm 200 g1 with
        | some j =>
          if j.sel = (g.segReg 15).sel then s1.jump k j.g j.pc (1 + j.clk)
          else if s.selHolds k g (s.whoOf k g) j.sel then s.hold k g
          else match s.loadSeg (s.whoOf k g) g j.sel with
            | (.error f, s2) => s2.tableFault k g f (s.descLin (s.whoOf k g) j.sel.toNat)
            | (.ok _, _) => s1.enter k g j.g j.sel j.pc (1 + j.clk) false
        | none => s1.exitGroup k g

/-- TDONE (R345, R84): when nothing of the group is in flight, the task ends; a speculative or promoted task stands finished until
it commits, an unordered one has ended. The slot is free at once. -/
def State.taskDone (s : State) (k : GKey) (g : Group) : State :=
  match g.task with
  | none => s.raise k g (trapOf .illOperand (auxSpec g 0#8))
  | some t =>
    if !g.accessesDone || !g.ceq.isEmpty || g.me != 0 || g.fd != 0 then s.hold k g
    else
      let (part, ctx) := s.partCtx k g
      let s1 := s.freeSlot part ctx k g
      let s2 := if t.record.u then s1 else s1.updDomain part ctx fun d =>
        d.upd k.die fun x => { x with finished := x.finished ++ [{ task := t, core := k.core }] }
      s2.post s.clk (.taskCommit part ctx k.die)

/-- EXIT. -/
def State.exitOp (s : State) : Host.Outcome State Fault Refusal :=
  s.withIssuer fun k g c =>
    if g.fieldP c != 0#24 then s.raise k g (trapOf .illField 0#32)
    else match g.task with
      | some _ => s.taskDone k g
      | none => s.exitLanes k g

/-! ## The pen, traps and return (R332 to R334) -/

/-- NOP. -/
def State.nopOp (s : State) : Host.Outcome State Fault Refusal :=
  s.withIssuer fun k g c =>
    if g.fieldP c != 0#24 then s.raise k g (trapOf .illField 0#32) else s.advance k g c 1 none

/-- TENQ in force for a context on a die; 0 acts as 1 (R45). -/
def State.tenq (s : State) (die ctx : Nat) : Nat := max 1 (bits (s.ctx die ctx).schedNow 16 8).toNat

/-- YIELD. -/
def State.yieldOp (s : State) : Host.Outcome State Fault Refusal :=
  s.withIssuer fun k g c =>
    if g.fieldP c != 0#24 then s.raise k g (trapOf .illField 0#32)
    else s.advance k { g with tenure := s.tenq k.die (s.ctxOf g.team) } c 1 none

/-- TRAP. -/
def State.trapOp (s : State) : Host.Outcome State Fault Refusal :=
  s.withIssuer fun k g c =>
    let p := g.fieldP c
    if p.extractLsb' 8 16 != 0#16 then s.raise k g (trapOf .illField 0#32)
    else s.raise k g (trapOf .trapi ((p.extractLsb' 0 8).setWidth 32))

/-- BRK. -/
def State.brkOp (s : State) : Host.Outcome State Fault Refusal :=
  s.withIssuer fun k g c =>
    let p := g.fieldP c
    if p.extractLsb' 16 8 != 0#8 then s.raise k g (trapOf .illField 0#32)
    else s.raise k g (trapOf .brk ((p.extractLsb' 0 16).setWidth 32))

/-- RTT. -/
def State.rttOp (s : State) : Host.Outcome State Fault Refusal :=
  s.withIssuer fun k g c =>
    let p := g.fieldP c
    if !g.privileged then s.raise k g (trapOf .priv 0#32)
    else if p.extractLsb' 1 23 != 0#23 then s.raise k g (trapOf .illField 0#32)
    else match g.handler, s.team? g.team with
      | some h, some tm =>
        let skip : Bool := p.getLsbD 0
        if h.sel = (g.segReg 15).sel then s.trapReturn k g h tm (g.segReg 15) skip
        else if s.acquiring k g then s.waitAcquire k g
        else if s.selHolds k g (s.whoOf k g) h.sel then s.hold k g
        else
          let w := s.whoOf k g
          match s.loadSeg w g h.sel with
          | (.error f, s1) => s1.tableFault k g f (s.descLin w h.sel.toNat)
          | (.ok (r, _), s1) => s1.trapReturn k (g.acquire s.clk 5) h tm r skip
      | _, _ => s.raise k g (trapOf .illOperand (auxSpec g 0#8))

/-! ## Barriers (R335 to R337) -/

/-- BSEL as R263 allows it where a barrier is required. -/
def bselOk (b : BitVec 6) : Bool :=
  match (b.extractLsb' 4 2).toNat with
  | 1 => true
  | 2 => !b.getLsbD 3
  | 3 => b.extractLsb' 2 2 == 0#2
  | _ => false

/-- BARRIER with a case of R337. -/
def barTrap (b : BitVec 6) (case_ : Nat) : Trap := trapOf .barrier (BitVec.ofNat 32 (b.toNat + 64 * case_))

/-- The checks shared by the barrier instructions, in order: fields, operand, task slot, residence; then the barrier. -/
def State.barChecked (s : State) (k : GKey) (g : Group) (f : BFmt) (operand : Bool) (go : Team → BarKey → BitVec 6 → State) : State :=
  let b : BitVec 6 := f.n.extractLsb' 0 6
  if f.n.extractLsb' 6 10 != 0#10 || !bselOk b || (!operand && f.s != 0#8) then s.raise k g (trapOf .illField 0#32)
  else if operand && !isScalarOrImm f.s then s.raise k g (trapOf .illOperand (auxSpec g f.s))
  else if g.task.isSome then s.raise k g (barTrap b 2)
  else match s.team? g.team with
    | none => s.raise k g (barTrap b 2)
    | some tm =>
      if b.extractLsb' 4 2 = 3#2 ∧ !tm.krec.gres then s.raise k g (barTrap b 3)
      else match tm.barrier g.team b with
        | some bk => go tm bk b
        | none => s.raise k g (trapOf .illField 0#32)

/-- The phase of a group's latest arrival on a barrier (R336). -/
def Group.arrival (g : Group) (b : BarKey) : Option Nat := assocGet g.arrivals b

/-- How a wait on a barrier stands: met, waiting on a phase, or met by a phase that completed with B > E (R336, R337). -/
inductive BarWait where
  | met
  | wait (phase : Nat)
  | late
  deriving DecidableEq, Repr

def State.barWait (s : State) (g : Group) (b : BarKey) : BarWait :=
  match g.arrival b with
  | none => .met
  | some p =>
    let x := s.barrier b
    if x.phase ≤ p then .wait p else if x.late.contains p then .late else .met

/-- The wait half of BAR, and BARW. -/
def State.barWaitOp (s : State) (k : GKey) (g : Group) (c : Clause) (b : BarKey) (sel : BitVec 6) : State :=
  match s.barWait g b with
  | .met => s.advance k (g.acquire s.clk (barScope b)) c 1 none
  | .wait p => s.desched k g (.barrier b p)
  | .late => s.raise k { g with arrivals := assocDel g.arrivals b } (barTrap sel 0)

/-- Send an arrival once everything before it is complete (R336); a second one in a phase is not counted (R337). -/
def State.arriveOp (s : State) (k : GKey) (g : Group) (b : BarKey) (sel : BitVec 6) (go : State → Group → State) : State :=
  if !g.released then s.hold k g
  else if (s.barrier b).arrived.contains k then s.raise k g (barTrap sel 1)
  else go (s.post s.clk (.barrierArrive b (.arrive k g.team))) { g with irrev := true }

/-- BARA. -/
def State.baraOp (s : State) (f : BFmt) : Host.Outcome State Fault Refusal :=
  s.withIssuer fun k g c => s.barChecked k g f false fun _ b sel => s.arriveOp k g b sel fun s1 g1 => s1.advance k g1 c 1 none

/-- BARW. -/
def State.barwOp (s : State) (f : BFmt) : Host.Outcome State Fault Refusal :=
  s.withIssuer fun k g c => s.barChecked k g f false fun _ b sel => s.barWaitOp k g c b sel

/-- BAR: the arrival, then the wait. -/
def State.barOp (s : State) (f : BFmt) : Host.Outcome State Fault Refusal :=
  s.withIssuer fun k g c => s.barChecked k g f false fun _ b sel =>
    if g.half = .fresh then s.arriveOp k g b sel fun s1 g1 => s1.hold k { g1 with half := .sent }
    else s.barWaitOp k g c b sel

/-- BAREXP. -/
def State.barexpOp (s : State) (f : BFmt) : Host.Outcome State Fault Refusal :=
  s.withIssuer fun k g c =>
    if g.pending (touchScalars (useScalars [useOf f.s true 1])) then s.hold k g
    else s.barChecked k g f true fun _ b _ =>
      (s.post s.clk (.barrierArrive b (.expect (g.uniform f.s)))).advance k { g with irrev := true } c 1 none

/-- An arrival at a barrier (R113, R114): it stands in the phase in progress, which may complete with it. -/
def State.arriveAt (s : State) (b : BarKey) (k : GKey) (g : Group) : State :=
  let x := s.barrier b
  let s1 := s.putGroup k { g with arrivals := assocPut g.arrivals b x.phase }
  (s1.putBarrier b { x with arrived := x.arrived ++ [k] }).tryPhase b

/-- The BSEL that names a barrier (R263). -/
def barBsel : BarKey → Nat
  | .team _ n => 16 + n
  | .cluster _ n => 32 + n
  | .grid _ _ n => 48 + n

/-- BARRIER_ARRIVE: what reaches a barrier takes effect (R113, R114, R336). -/
def State.barrierArrive (s : State) (b : BarKey) (a : BarAct) : State :=
  match a with
  | .arrive k t =>
    match s.group? k with
    | some g => if g.team = t then s.arriveAt b k g else s
    | none => s
  | .arriveMma k t =>
    match s.group? k with
    | some g =>
      if g.team ≠ t then s
      else if (s.barrier b).arrived.contains k then s.putGroup k { g with barrierDue := g.barrierDue ++ [BitVec.ofNat 32 (barBsel b + 64)] }
      else s.arriveAt b k g
    | none => s
  | .expect n => (s.putBarrier b { s.barrier b with e := (s.barrier b).e + n }).tryPhase b
  | .post n => (s.putBarrier b { s.barrier b with b := (s.barrier b).b + BitVec.ofNat 32 n }).tryPhase b

/-! ## Paths, election and votes (R340 to R342) -/

/-- The counters of PATHC: LS, CE, ME, FD. -/
def Group.path (g : Group) (p : Nat) : Nat :=
  match p with
  | 0 => g.ls
  | 1 => g.ceq.length
  | 2 => g.me
  | _ => g.fd

/-- WAITP. -/
def State.waitpOp (s : State) (f : BFmt) : Host.Outcome State Fault Refusal :=
  s.withIssuer fun k g c =>
    let t := (g.uniform f.s).toNat
    let p := (f.n.extractLsb' 0 2).toNat
    if g.pending (touchScalars (useScalars [useOf f.s true 1])) then s.hold k g
    else if f.n.extractLsb' 2 14 != 0#14 then s.raise k g (trapOf .illField 0#32)
    else if !isScalarOrImm f.s then s.raise k g (trapOf .illOperand (auxSpec g f.s))
    else if 255 ≤ t ∨ g.path p ≤ t then s.advance k g c 1 none
    else if headerCnt c.hdr ≤ g.pos + 1 then s.desched k g (.path p t)
    else s.hold k g

/-- ELECT. -/
def State.electOp (s : State) (f : BFmt) : Host.Outcome State Fault Refusal :=
  s.withIssuer fun k g c =>
    let n := f.s.toNat % 8
    if g.pending (touchPred n) then s.hold k g
    else if f.n != 0#16 || decide (8 ≤ f.s.toNat) then s.raise k g (trapOf .illField 0#32)
    else s.advance k (g.setPred n (match lowest g.exec with | some l => 1#32 <<< l | none => 0#32)) c 1 none

/-- The summary of a predicate's active bits (R342). -/
def pmaskValue (mode : Nat) (b exec : Word) : Word :=
  match mode with
  | 0 => b
  | 1 => if b = 0#32 then 0#32 else 1#32
  | 2 => if b = exec then 1#32 else 0#32
  | _ => BitVec.ofNat 32 (lanesOf b).length

/-- PMASK. -/
def State.pmaskOp (s : State) (f : BFmt) : Host.Outcome State Fault Refusal :=
  s.withIssuer fun k g c =>
    let n := (f.n.extractLsb' 0 3).toNat
    if g.pending { regs := [], scalars := useScalars [useOf f.s false 1], preds := [n] } then s.hold k g
    else if f.n.extractLsb' 5 11 != 0#11 then s.raise k g (trapOf .illField 0#32)
    else if !isScalar f.s then s.raise k g (trapOf .illOperand (auxSpec g f.s))
    else s.advance k (g.setScalar (f.s.toNat - 0x80) (pmaskValue (f.n.extractLsb' 3 2).toNat (g.pred n &&& g.exec) g.exec)) c 1 none

/-! ## CSRs (R352 to R355) -/

/-- The slots of a pen (R50). -/
def penSlots (p : PenKey) : List GKey := (List.range 4).map fun j => ⟨p.die, p.core, 4 * p.pen + j⟩

/-- F: the free lane-registers of a pen (R135). -/
def State.freeRegs (s : State) (p : PenKey) : Nat :=
  Config.penRegs - (penSlots p).foldl (fun n k => n + ((s.group? k).map (·.window)).getD 0) 0

/-- FOLREF (R166): an open window is the one it names, with CLK 0 (log 22). -/
def folref (t : Nat) : Word :=
  let b := t % 30080 / 1880
  let r := t % 1880
  if r < 256 then BitVec.ofNat 32 (65536 * b) else BitVec.ofNat 32 (65536 * ((b + 1) % 16) + (1880 - r))

/-- CFR of a group (R85). -/
def State.cfr (s : State) (k : GKey) (g : Group) : Nat :=
  let (part, ctx) := s.partCtx k g
  match s.domain? part ctx with
  | none => 2 ^ 64 - 1
  | some d =>
    if s.domainEmpty part ctx d then 2 ^ 64 - 1
    else match (d.at k.die).frontier with
      | some f => f.ts.toNat * 65536 + f.tb.toNat
      | none => 0

/-- TDOM (R353). -/
def State.tdom (s : State) (k : GKey) (g : Group) : Nat :=
  let (part, ctx) := s.partCtx k g
  2 ^ 28 * bitOf (s.domain? part ctx).isSome + (match g.task with
    | some t => 2 ^ 31 + 2 ^ 30 * bitOf t.spec + 2 ^ 29 * bitOf t.record.u + t.record.nl
    | none => 0)

/-- PATHC (R340). -/
def Group.pathc (g : Group) : Nat := min 255 g.ls + 256 * min 255 g.ceq.length + 65536 * min 255 g.me + 16777216 * min 255 g.fd

/-- BUDGET (R56, R90). -/
def State.budgetOf (s : State) (g : Group) : Nat :=
  match g.task with
  | some t => t.budget.toNat
  | none => ((s.team? g.team).bind (·.budget)).getD 0

/-- IXL of an index register as it reads (R359). -/
def Group.ixl (g : Group) (n : Nat) : Nat := g.ixLane n 0 + 65536 * ((g.ixLane n 1 + 65536 - g.ixLane n 0) % 65536)

/-- The width of a CSR and whether it can be written; none for an address that R352 does not list. -/
def csrInfo (a : Nat) : Option (Nat × Bool) :=
  match a with
  | 0x000 => some (32, true)
  | 0x001 => some (32, true)
  | 0x002 => some (32, true)
  | 0x003 => some (32, false)
  | 0x004 => some (32, false)
  | 0x005 => some (64, false)
  | 0x006 => some (64, false)
  | 0x007 => some (32, false)
  | 0x008 => some (32, false)
  | 0x009 => some (32, false)
  | 0x00a => some (32, false)
  | 0x010 => some (32, true)
  | 0x011 => some (32, true)
  | 0x012 => some (32, false)
  | 0x020 => some (32, true)
  | 0x021 => some (32, true)
  | 0x022 => some (32, true)
  | 0x023 => some (32, true)
  | 0x024 => some (32, false)
  | 0x025 => some (32, false)
  | 0x028 => some (32, true)
  | 0x029 => some (32, true)
  | 0x02a => some (32, true)
  | 0x02b => some (32, true)
  | 0x030 => some (32, false)
  | 0x031 => some (32, false)
  | 0x032 => some (32, false)
  | 0x033 => some (32, false)
  | 0x040 => some (64, false)
  | 0x100 => some (32, true)
  | 0x101 => some (32, false)
  | 0x102 => some (32, false)
  | 0x103 => some (64, false)
  | 0x104 => some (64, false)
  | _ => none

/-- What a CSR reads as (R352, R353). -/
def State.csrRead (s : State) (k : GKey) (g : Group) (a : Nat) : Nat :=
  let ctx := s.ctxOf g.team
  let x := s.ctx k.die ctx
  match a with
  | 0x000 => g.exec.toNat
  | 0x001 => g.hand.toNat
  | 0x002 => g.xout.toNat
  | 0x003 => g.pathc
  | 0x004 => s.budgetOf g
  | 0x005 => g.tsReg
  | 0x006 => s.cfr k g
  | 0x007 => s.tdom k g
  | 0x008 => s.freeRegs (penOf k)
  | 0x009 => g.ppc.toNat
  | 0x00a => (folref (s.clk - (s.die k.die).born)).toNat
  | 0x010 => g.trapv.toNat
  | 0x011 => g.tframe.toNat
  | 0x012 => x.clev.toNat % 4
  | 0x020 => (g.ixw.get 0#32 0).toNat
  | 0x021 => (g.ixw.get 0#32 1).toNat
  | 0x022 => (g.ixw.get 0#32 2).toNat
  | 0x023 => (g.ixw.get 0#32 3).toNat
  | 0x024 => g.awb
  | 0x025 => g.awl
  | 0x028 => g.ixl 0
  | 0x029 => g.ixl 1
  | 0x02a => g.ixl 2
  | 0x02b => g.ixl 3
  | 0x030 => (Config.cap 0).toNat
  | 0x031 => (Config.cap 1).toNat
  | 0x032 => (Config.cap 2).toNat
  | 0x033 => (Config.cap 3).toNat
  | 0x040 => s.clk - (s.die k.die).born
  | 0x100 => (bits x.sched 16 8).toNat
  | 0x101 => ctx
  | 0x102 => x.pasid.toNat
  | 0x103 => x.sdtb.toNat
  | 0x104 => x.rbtb.toNat
  | _ => 0

/-- An address of 0x100 to 0x1ff, which needs supervisor privilege (R264, R324). -/
def csrSupervisor (a : Nat) : Bool := decide (0x100 ≤ a) && decide (a < 0x200)

/-- Whether every earlier instruction of the group has completed: no write is pending, and no access, copy or matrix operation is in
flight (R206, R354). -/
def Group.settled (g : Group) : Bool := g.pend.isEmpty && g.lsq.isEmpty && g.ceq.isEmpty && g.me == 0 && g.fd == 0

/-- CSRR. -/
def State.csrrOp (s : State) (f : VIFmt) : Host.Outcome State Fault Refusal :=
  s.withIssuer fun k g c =>
    let a := (f.imm.extractLsb' 0 12).toNat
    let n := f.d.toNat - 0x80
    let bad : Trap := trapOf .illOperand (auxSpec g f.d)
    let wide := match csrInfo a with | some (64, _) => true | _ => false
    if g.pending (touchScalars (if wide then [n, n + 1] else [n])) then s.hold k g
    else if csrSupervisor a && !g.supervisor then s.raise k g (trapOf .priv 0#32)
    else if f.imm.extractLsb' 12 4 != 0#4 then s.raise k g (trapOf .illField 0#32)
    else if !isScalar f.d then s.raise k g bad
    else match csrInfo a with
      | none => s.raise k g (trapOf .illOperand (auxSpec g 0#8))
      | some (w, _) =>
        let v := s.csrRead k g a
        if a = 0x002 && !g.settled then s.hold k g
        else if w = 32 then s.advance k (g.setScalar n (BitVec.ofNat 32 v)) c 1 none
        else if n % 2 = 1 then s.raise k g bad
        else s.advance k ((g.setScalar n (BitVec.ofNat 32 v)).setScalar (n + 1) (BitVec.ofNat 32 (v / 4294967296))) c 1 none

/-- Whether an index window breaks R131. -/
def ixwBad (v : Word) : Bool := bits v 17 15 != 0 || decide (256 < (bits v 0 8).toNat + (bits v 8 9).toNat)

/-- Whether a CSR refuses a value (R355). -/
def csrBad (a : Nat) (v : Word) : Bool :=
  match a with
  | 0x001 => bits v 16 16 != 0
  | 0x010 => v != 0xffffffff#32 && bits v 0 2 != 0
  | 0x011 => bits v 0 6 != 0
  | _ => decide (0x020 ≤ a) && decide (a ≤ 0x023) && ixwBad v

/-- The lane values that a write of IXL gives an index register (R359). -/
def ixlLanes (v : Word) : List (BitVec 16) :=
  (List.range 32).map fun l => v.extractLsb' 0 16 + BitVec.ofNat 16 l * v.extractLsb' 16 16

/-- The group after a write of one of its own CSRs. -/
def Group.csrPut (g : Group) (a : Nat) (v : Word) : Group :=
  match a with
  | 0x000 => { g with exec := v &&& g.population }
  | 0x001 => { g with hand := v }
  | 0x002 => { g with xout := v &&& xoutMask }
  | 0x010 => { g with trapv := v }
  | 0x011 => { g with tframe := v }
  | _ =>
    if 0x020 ≤ a ∧ a ≤ 0x023 then { g with ixw := g.ixw.put (a - 0x020) v }
    else if 0x028 ≤ a ∧ a ≤ 0x02b then { g with ix := g.ix.put (a - 0x028) (ixlLanes v) }
    else g

/-- A write of TENQ: SCHED.TENQ of the context on the die (R45, R353). -/
def State.putTenq (s : State) (die ctx : Nat) (v : Word) : State :=
  s.updCtx die ctx fun x => { x with sched := (x.sched &&& 0xff00ffff#32) ||| ((bits v 0 8).setWidth 32 <<< 16) }

/-- CSRW. -/
def State.csrwOp (s : State) (f : VIFmt) : Host.Outcome State Fault Refusal :=
  s.withIssuer fun k g c =>
    let a := (f.imm.extractLsb' 0 12).toNat
    let v := g.uniform f.d
    let bad : Trap := trapOf .illOperand (auxSpec g 0#8)
    if g.pending (touchScalars (useScalars [useOf f.d true 1])) then s.hold k g
    else if csrSupervisor a && !g.supervisor then s.raise k g (trapOf .priv 0#32)
    else if f.imm.extractLsb' 12 4 != 0#4 then s.raise k g (trapOf .illField 0#32)
    else if !isScalarOrImm f.d then s.raise k g (trapOf .illOperand (auxSpec g f.d))
    else match csrInfo a with
      | some (_, true) =>
        if csrBad a v then s.raise k g bad
        else if a = 0x100 then (s.putTenq k.die (s.ctxOf g.team) v).advance k g c 1 none
        else s.advance k (g.csrPut a v) c 1 none
      | _ => s.raise k g bad

/-- SETHAND (R356). -/
def State.sethandOp (s : State) (f : VIFmt) : Host.Outcome State Fault Refusal :=
  s.withIssuer fun k g c =>
    if f.d != 0#8 then s.raise k g (trapOf .illField 0#32) else s.advance k { g with hand := f.imm.setWidth 32 } c 1 none

/-! ## The register window, index windows and the well (R135 to R138, R357 to R361) -/

/-- A claim is granted: the new registers read 0 (R137). -/
def Group.grant (g : Group) (n : Nat) : Group := { g with window := g.window + n, regs := g.regs.filter fun e => e.1 < g.window }

/-- RCLAIM; one that waits has been executed for flashback, so that its group keeps the wait (R63, R66, R326). -/
def State.rclaimOp (s : State) (f : VIFmt) : Host.Outcome State Fault Refusal :=
  s.withIssuer fun k g c =>
    let n := f.imm.toNat
    let p := penOf k
    if f.d != 0#8 then s.raise k g (trapOf .illField 0#32)
    else if g.task.isSome then s.raise k g (trapOf .illOperand (auxSpec g 0#8))
    else if g.half = .done then s.advance k { g with irrev := true } c 1 none
    else if n = 0 ∨ 256 < g.window + n then s.raise k g (trapOf .illOperand (auxSpec g 0#8))
    else if n ≤ s.freeRegs p ∧ (s.pen p).claims.isEmpty then s.advance k { g.grant n with irrev := true } c 1 none
    else
      let s1 := s.desched k { g with irrev := true } (.claim n)
      let x := s1.pen p
      (s1.putPen p { x with claims := x.claims ++ [(k.slot, n)] }).post (s.clk + 64) (.deadlockCheck p)

/-- RGIVE. -/
def State.rgiveOp (s : State) (f : VIFmt) : Host.Outcome State Fault Refusal :=
  s.withIssuer fun k g c =>
    let n := f.imm.toNat
    if f.d != 0#8 then s.raise k g (trapOf .illField 0#32)
    else if g.task.isSome then s.raise k g (trapOf .illOperand (auxSpec g 0#8))
    else if n = 0 then s.advance k { g with irrev := true } c 1 none
    else if g.window < n + 8 then s.raise k g (trapOf .illOperand (auxSpec g 0#8))
    else if g.pending { regs := (List.range n).map (g.window - n + ·), scalars := [], preds := [] } then s.hold k g
    else
      let w := g.window - n
      let g1 : Group := { g with window := w, regs := g.regs.filter fun e => e.1 < w, well := g.well.filter fun e => e.2.reg < w,
                                 dead := g.dead.filter (· < w), irrev := true }
      let s1 := (s.advance k g1 c 1 none).post s.clk (.claimGrant (penOf k))
      match s.team? g.team with
      | some t => s1.post s.clk (.clusterPlace k.die t.launch t.node)
      | none => s1

/-- Grant the waiting claims that F can meet, in arrival order (R137). -/
def State.grantClaims (p : PenKey) : List (Nat × Nat) → State → State
  | [], s => s
  | (slot, n) :: rest, s =>
    let k : GKey := ⟨p.die, p.core, slot⟩
    let s1 := match s.group? k with
      | some g =>
        if g.run = .waiting (.claim n) ∧ n ≤ s.freeRegs p then
          let x := s.pen p
          ((s.putGroup k { g.grant n with half := .done, irrev := true }).putPen p { x with claims := x.claims.filter fun e => e.1 ≠ slot }).makeReady k s.clk
        else s
      | none => s
    State.grantClaims p rest s1

/-- CLAIM_GRANT: F may have risen; what still waits is looked at for deadlock (R137, R138). -/
def State.claimGrant (s : State) (p : PenKey) : State :=
  let s1 := State.grantClaims p (s.pen p).claims s
  if (s1.pen p).claims.isEmpty then s1 else s1.post (s1.clk + 64) (.deadlockCheck p)

/-- Whether a team's groups on a pen are in deadlock: all wait for claims that F cannot meet (R138). -/
def State.deadlocked (s : State) (p : PenKey) (t : Nat) : Bool :=
  let mine := (penSlots p).filterMap fun k => (s.group? k).bind fun g => if g.team = t then some g else none
  !mine.isEmpty && mine.all fun g => match g.run with
    | .waiting (.claim n) => decide (s.freeRegs p < n)
    | _ => false

/-- DEADLOCK_CHECK: every claimer of such a team raises REG_DEADLOCK at its RCLAIM, with no grant (R138). -/
def State.deadlockCheck (s : State) (p : PenKey) : State :=
  (penSlots p).foldl (fun t k =>
    match s.group? k with
    | some g =>
      match g.run with
      | .waiting (.claim n) =>
        if (s.pen p).claims.contains (k.slot, n) && s.deadlocked p g.team then
          let x := t.pen p
          ((t.putPen p { x with claims := x.claims.filter fun e => e.1 ≠ k.slot }).updGroup k fun h =>
            { h with raiseDue := some (trapOf .regDeadlock (BitVec.ofNat 32 n), h.pos, .instr, .plain) }).makeReady k t.clk
        else t
      | _ => t
    | none => t) s

/-- IXSET (R358, R131). -/
def State.ixsetOp (s : State) (f : VIFmt) : Host.Outcome State Fault Refusal :=
  s.withIssuer fun k g c =>
    let v : Word := BitVec.ofNat 32 ((f.imm.extractLsb' 0 8).toNat + 256 * (f.imm.extractLsb' 8 8).toNat
      + 65536 * (f.d.extractLsb' 2 1).toNat)
    if f.d.extractLsb' 3 5 != 0#5 then s.raise k g (trapOf .illField 0#32)
    else if ixwBad v then s.raise k g (trapOf .illOperand (auxSpec g 0#8))
    else s.advance k { g with ixw := g.ixw.put (f.d.extractLsb' 0 2).toNat v } c 1 none

/-- WELLFL (R360). -/
def State.wellflOp (s : State) : Host.Outcome State Fault Refusal :=
  s.withIssuer fun k g c =>
    let p := g.fieldP c
    if p.extractLsb' 8 16 != 0#16 then s.raise k g (trapOf .illField 0#32)
    else
      let sel := g.well.filter fun e => p.getLsbD e.1
      let g1 : Group := { g with regs := sel.foldl (fun r e => writeBack r e.2) g.regs, well := g.well.filter fun e => !p.getLsbD e.1 }
      s.advance k g1 c (1 + 32 * dirtyMax sel) none

/-- KILL (R361). -/
def State.killOp (s : State) : Host.Outcome State Fault Refusal :=
  s.withIssuer fun k g c =>
    let p := g.fieldP c
    let f := (p.extractLsb' 16 8).toNat
    let n := (p.extractLsb' 8 8).toNat
    if p.extractLsb' 0 8 != 0#8 || n = 0 || decide (128 < f + n) then s.raise k g (trapOf .illField 0#32)
    else if g.window < f + n then s.raise k g (trapOf .illOperand (auxReg (max f g.window) ((lowest g.exec).getD 0)))
    else if g.pending { regs := (List.range n).map (f + ·), scalars := [], preds := [] } then s.hold k g
    else s.advance k ((List.range n).foldl (fun (h : Group) i => h.markDead (f + i)) g) c 1 none

/-! ## The instructions -/

/-- BRA (0x01). -/
def execBra (f : CFmt) (s : State) : Host.Outcome State Fault Refusal := s.braOp f
/-- BRU (0x02). -/
def execBru (f : CFmt) (s : State) : Host.Outcome State Fault Refusal := s.bruOp f
/-- CALL (0x03). -/
def execCall (f : CFmt) (s : State) : Host.Outcome State Fault Refusal := s.callOp f
/-- CALLR (0x04). -/
def execCallr (f : GFmt) (s : State) : Host.Outcome State Fault Refusal := s.callrOp f
/-- RET (0x05). -/
def execRet (s : State) : Host.Outcome State Fault Refusal := s.retOp
/-- DIV (0x06). -/
def execDiv (f : CFmt) (s : State) : Host.Outcome State Fault Refusal := s.divOp f
/-- JOIN (0x07). -/
def execJoin (s : State) : Host.Outcome State Fault Refusal := s.joinOp
/-- EXIT (0x08). -/
def execExit (s : State) : Host.Outcome State Fault Refusal := s.exitOp
/-- TRAP (0x09). -/
def execTrap (s : State) : Host.Outcome State Fault Refusal := s.trapOp
/-- RTT (0x0a). -/
def execRtt (s : State) : Host.Outcome State Fault Refusal := s.rttOp
/-- BRK (0x0b). -/
def execBrk (s : State) : Host.Outcome State Fault Refusal := s.brkOp
/-- YIELD (0x0c). -/
def execYield (s : State) : Host.Outcome State Fault Refusal := s.yieldOp
/-- NOP (0x00). -/
def execNop (s : State) : Host.Outcome State Fault Refusal := s.nopOp
/-- BAR (0x10). -/
def execBar (f : BFmt) (s : State) : Host.Outcome State Fault Refusal := s.barOp f
/-- BARA (0x11). -/
def execBara (f : BFmt) (s : State) : Host.Outcome State Fault Refusal := s.baraOp f
/-- BARW (0x12). -/
def execBarw (f : BFmt) (s : State) : Host.Outcome State Fault Refusal := s.barwOp f
/-- BAREXP (0x13). -/
def execBarexp (f : BFmt) (s : State) : Host.Outcome State Fault Refusal := s.barexpOp f
/-- WAITP (0x17). -/
def execWaitp (f : BFmt) (s : State) : Host.Outcome State Fault Refusal := s.waitpOp f
/-- ELECT (0x18). -/
def execElect (f : BFmt) (s : State) : Host.Outcome State Fault Refusal := s.electOp f
/-- PMASK (0x19). -/
def execPmask (f : BFmt) (s : State) : Host.Outcome State Fault Refusal := s.pmaskOp f
/-- CSRR (0xe0). -/
def execCsrr (f : VIFmt) (s : State) : Host.Outcome State Fault Refusal := s.csrrOp f
/-- CSRW (0xe1). -/
def execCsrw (f : VIFmt) (s : State) : Host.Outcome State Fault Refusal := s.csrwOp f
/-- SETHAND (0xe2). -/
def execSethand (f : VIFmt) (s : State) : Host.Outcome State Fault Refusal := s.sethandOp f
/-- RCLAIM (0xe3). -/
def execRclaim (f : VIFmt) (s : State) : Host.Outcome State Fault Refusal := s.rclaimOp f
/-- RGIVE (0xe4). -/
def execRgive (f : VIFmt) (s : State) : Host.Outcome State Fault Refusal := s.rgiveOp f
/-- IXSET (0xe5). -/
def execIxset (f : VIFmt) (s : State) : Host.Outcome State Fault Refusal := s.ixsetOp f
/-- WELLFL (0xe6). -/
def execWellfl (s : State) : Host.Outcome State Fault Refusal := s.wellflOp
/-- KILL (0xe7). -/
def execKill (s : State) : Host.Outcome State Fault Refusal := s.killOp

/-- BARRIER_ARRIVE. -/
def execBarrierArrive (s : State) : Host.Outcome State Fault Refusal :=
  match s.subject with
  | .barrierArrive b a => .next (s.barrierArrive b a)
  | _ => .fault .noSubject
/-- CLAIM_GRANT. -/
def execClaimGrant (s : State) : Host.Outcome State Fault Refusal :=
  match s.subject with
  | .claimGrant p => .next (s.claimGrant p)
  | _ => .fault .noSubject
/-- DEADLOCK_CHECK. -/
def execDeadlockCheck (s : State) : Host.Outcome State Fault Refusal :=
  match s.subject with
  | .deadlockCheck p => .next (s.deadlockCheck p)
  | _ => .fault .noSubject

end Sys2Proof.Machine
end

