-- ==== Sys2Proof/Machine/Events.lean ====
section
/-! DEFINITION. Named events (R57 to R59, R338, R339): the entries of a die and its event table, the acts that reach them, EVSIG,
EVWAIT and EVTEST. Work queues (R60, R61, R346 to R348): the queue store of a die, QPOP, QPUSH and QCNT. -/

namespace Sys2Proof.Machine

/-! ## The event table (R58) -/

/-- The linear address of an offset of a context's event table. -/
def State.evLin (s : State) (d ctx o : Nat) : Nat := pteBits (s.ctx d ctx).evtb 21 43 * 2097152 + o

/-- What stops an act at a table: the fault, its linear address, the die that holds the table, and, where it is the write-back of another key's
entry that failed, the context whose table that entry belongs to. -/
structure EvFault where
  fault : XFault
  lin : Nat
  die : Nat
  victim : Option Nat
  deriving DecidableEq, Repr

/-- Read bytes of the event table of a context on a die. -/
def State.evRead (s : State) (d ctx o n : Nat) : Except EvFault (Nat × State) :=
  match s.readLin (dieWho d ctx) (s.evLin d ctx o) n with
  | (.ok bs, s1) => .ok (leNat bs, s1)
  | (.error f, _) => .error { fault := f, lin := s.evLin d ctx o, die := d, victim := none }

/-- Write `n` bytes of it. -/
def State.evWrite (s : State) (d ctx o n v : Nat) : Except EvFault State :=
  match s.writeLin (dieWho d ctx) (s.evLin d ctx o) (leBytes n v) with
  | (none, s1) => .ok s1
  | (some f, _) => .error { fault := f, lin := s.evLin d ctx o, die := d, victim := none }

/-- The offset of waiter record `r`. -/
def evRec (r : Nat) : Nat := 0x100000 + 16 * r

def State.evFind (s : State) (d ctx name : Nat) : Option EvEntry := assocGet (s.die d).events (ctx, name)
def State.evSet (s : State) (d ctx name : Nat) (e : EvEntry) : State :=
  s.updDie d fun x => { x with events := assocPut x.events (ctx, name) e }
def State.evDel (s : State) (d ctx name : Nat) : State := s.updDie d fun x => { x with events := assocDel x.events (ctx, name) }

/-- An entry that holds a count and nothing else. -/
def evEmpty : EvEntry := { c := 0#32, waiters := [], head := 0, tail := 0, dies := [], nodes := [], onChip := false, used := 0, listed := [] }

/-- The hardware entries of a die (R58). -/
def evCapacity : Nat := 4096

/-- Write an entry's words to the table; `hw` is its bit HW. -/
def State.evStore (s : State) (d ctx name : Nat) (e : EvEntry) (hw : Nat) : Except EvFault State :=
  s.evWrite d ctx (16 * name) 16 (e.c.toNat + 2 ^ 32 * e.head + 2 ^ 48 * e.tail + 2 ^ 64 * hw)

/-- The least recently used hardware entry with no waiters. -/
def State.evVictim (s : State) (d : Nat) : Option ((Nat × Nat) × EvEntry) :=
  (s.die d).events.foldl (fun (b : Option ((Nat × Nat) × EvEntry)) e =>
    if e.2.onChip && e.2.waiters.isEmpty && e.2.nodes.isEmpty then
      match b with
      | some x => if e.2.used < x.2.used then some e else b
      | none => some e
    else b) none

/-- Keep what the table has no words for of an entry that is not on chip: the recorded dies, the waiting nodes and whom the records stand for. -/
def State.evKeep (s : State) (d ctx name : Nat) (e : EvEntry) : State :=
  if e.dies.isEmpty && e.nodes.isEmpty && e.listed.isEmpty then s.evDel d ctx name else s.evSet d ctx name { e with onChip := false }

/-- Make room for a hardware entry; none where every entry has waiters. An entry whose write-back meets a fault stays on chip until the write
succeeds, and the act that needs the room waits for it (R58). -/
def State.evRoom (s : State) (d : Nat) : Except EvFault (Option State) :=
  if ((s.die d).events.filter fun e => e.2.onChip).length < evCapacity then .ok (some s)
  else match s.evVictim d with
    | none => .ok none
    | some (key, e) => match s.evStore d key.1 key.2 e 0 with
      | .ok s1 => .ok (some (s1.evKeep d key.1 key.2 e))
      | .error f => .error { f with victim := some key.1 }

/-- Take the entry of a key: the hardware entry, or the words of the table, on chip if there is room (R58). -/
def State.evTake (s : State) (d ctx name : Nat) : Except EvFault (EvEntry × State) :=
  let load : Except EvFault (EvEntry × State) :=
    match s.evRead d ctx (16 * name) 8 with
    | .error f => .error f
    | .ok (w, s1) =>
      let old := (s.evFind d ctx name).getD evEmpty
      let e : EvEntry := { old with c := BitVec.ofNat 32 w, head := w / 2 ^ 32 % 65536, tail := w / 2 ^ 48 % 65536, onChip := false, used := s.clk }
      match s1.evRoom d with
      | .error f => .error f
      | .ok none => .ok (e, s1)
      | .ok (some s2) => match s2.evStore d ctx name e 1 with
        | .ok s3 => .ok ({ e with onChip := true }, s3)
        | .error f => .error f
  match s.evFind d ctx name with
  | some e => if e.onChip then .ok ({ e with used := s.clk }, s) else load
  | none => load

/-- Put an entry back where it is held. -/
def State.evPut (s : State) (d ctx name : Nat) (e : EvEntry) : Except EvFault State :=
  if e.onChip then .ok (s.evSet d ctx name e)
  else match s.evStore d ctx name e 0 with
    | .ok s1 => .ok (s1.evKeep d ctx name e)
    | .error f => .error f

/-! ## Overflow lists -/

/-- A waiter record as read: its number, slot, core and value. -/
structure OvWaiter where
  r : Nat
  slot : Nat
  core : Nat
  v : Word
  deriving DecidableEq, Repr

/-- The overflow list from a record on; `n` bounds its length. -/
def State.evChain (s : State) (d ctx : Nat) : Nat → Nat → Except EvFault (List OvWaiter × State)
  | 0, _ => .ok ([], s)
  | n + 1, r =>
    if r = 0 then .ok ([], s)
    else match s.evRead d ctx (evRec r) 16 with
      | .error f => .error f
      | .ok (w, s1) =>
        match s1.evChain d ctx n (w / 2 ^ 64 % 65536) with
        | .error f => .error f
        | .ok (l, s2) => .ok ({ r := r, slot := w % 512, core := w / 512 % 16, v := BitVec.ofNat 32 (w / 2 ^ 32) } :: l, s2)

/-- Write the NEXT words of a list of records. -/
def State.evRelink (d ctx : Nat) : List Nat → State → Except EvFault State
  | [], s => .ok s
  | [r], s => s.evWrite d ctx (evRec r + 8) 2 0
  | r :: q :: rest, s => match s.evWrite d ctx (evRec r + 8) 2 q with
    | .ok s1 => State.evRelink d ctx (q :: rest) s1
    | .error f => .error f

/-- Give records back to the free list. -/
def State.evFree (d ctx : Nat) : List Nat → State → Except EvFault State
  | [], s => .ok s
  | r :: rest, s =>
    match s.evRead d ctx (evRec 0 + 8) 2 with
    | .error f => .error f
    | .ok (free, s1) => match s1.evWrite d ctx (evRec r) 16 (2 ^ 64 * free) with
      | .error f => .error f
      | .ok s2 => match s2.evWrite d ctx (evRec 0 + 8) 2 r with
        | .error f => .error f
        | .ok s3 => State.evFree d ctx rest s3

/-- Append a waiter to an entry: on its hardware list while that has fewer than 8, else on its overflow list (R58). -/
def State.evAppend (s : State) (d ctx : Nat) (e : EvEntry) (w : Waiter) : Except EvFault (EvEntry × State) :=
  let onHw : EvEntry := { e with waiters := e.waiters ++ [w] }
  if e.onChip ∧ e.waiters.length < 8 then .ok (onHw, s)
  else match s.evRead d ctx (evRec 0 + 8) 2 with
    | .error f => .error f
    | .ok (r, s1) =>
      if r = 0 then .ok (onHw, s1)
      else match s1.evRead d ctx (evRec r + 8) 2 with
        | .error f => .error f
        | .ok (next, s2) => match s2.evWrite d ctx (evRec 0 + 8) 2 next with
          | .error f => .error f
          | .ok s3 => match s3.evWrite d ctx (evRec r) 16 (w.g.slot + 512 * w.g.core + 8192 + 2 ^ 32 * w.v.toNat) with
            | .error f => .error f
            | .ok s4 =>
              if e.head = 0 then .ok ({ e with head := r, tail := r, listed := e.listed.put r w }, s4)
              else match s4.evWrite d ctx (evRec e.tail + 8) 2 r with
                | .error f => .error f
                | .ok s5 => .ok ({ e with tail := r, listed := e.listed.put r w }, s5)

/-! ## Waking (R59) -/

/-- A waiter whose wait is complete is marked, and becomes ready some clk later; one that flashback has saved is ready for its context's next
slice (R59, R66). -/
def State.wakeMark (s : State) (k : GKey) (name : Nat) (v : Word) (after : Nat) : State :=
  match s.group? k with
  | some g =>
    if g.run = .waiting (.event name v) ∧ g.half = .sent then
      (s.putGroup k { g with half := .done }).post (s.clk + after) (.eventWake k g.team)
    else s
  | none => s.updSaved k fun g => if g.run = .waiting (.event name v) ∧ g.half = .sent then { g with half := .done, run := .ready } else g

/-- EVENT_WAKE. -/
def State.eventWake (s : State) (k : GKey) (team : Nat) : State :=
  match s.anyGroup k with
  | some g => match g.run with
    | .waiting (.event _ _) => if g.team = team ∧ g.half = .done then s.putAny k { g with run := .ready, readyAt := s.clk } else s
    | _ => s
  | none => s

/-- The group that a record of an entry's overflow list on a die stands for. -/
def EvEntry.waiterOf (e : EvEntry) (d : Nat) (x : OvWaiter) : GKey := ((e.listed.find x.r).map (·.g)).getD ⟨d, x.core, x.slot⟩

/-- Wake the waiters of an entry on its die whose value differs from the count: the hardware list, then the overflow list, whose
waiters take 512 + 4 × w clk more; and the graph nodes that wait at the home die. -/
def State.evWakeAll (s : State) (d ctx name : Nat) (e : EvEntry) : Except EvFault (EvEntry × State) :=
  let s1 := (e.waiters.filter fun w => w.v ≠ e.c).foldl (fun t w => t.wakeMark w.g name w.v 16) s
  let s2 := (e.nodes.filter fun x => x.2.2 ≠ e.c).foldl (fun t x => t.post t.clk (.nodeFinish x.1 x.2.1)) s1
  let e1 : EvEntry := { e with waiters := e.waiters.filter fun w => w.v = e.c, nodes := e.nodes.filter fun x => x.2.2 = e.c }
  if e.head = 0 then .ok (e1, s2)
  else match s2.evChain d ctx 65536 e.head with
    | .error f => .error f
    | .ok (l, s3) =>
      let s4 := (l.zip (List.range l.length)).foldl (fun t x =>
        if x.1.v = e.c then t else t.wakeMark (e.waiterOf d x.1) name x.1.v (16 + 512 + 4 * x.2)) s3
      let stay := (l.filter fun w => w.v = e.c).map (·.r)
      match State.evRelink d ctx stay s4 with
      | .error f => .error f
      | .ok s5 => match State.evFree d ctx ((l.filter fun w => w.v ≠ e.c).map (·.r)) s5 with
        | .error f => .error f
        | .ok s6 => .ok ({ e1 with head := stay.headD 0, tail := stay.getLastD 0, listed := e1.listed.filter fun x => stay.contains x.1 }, s6)

/-! ## Acts (R57, R58, R339) -/

/-- The status scalar of an act of identity `id` lands. -/
def State.landScalar (s : State) (k : GKey) (id n : Nat) (v : Word) : State :=
  s.updGroup k fun g => if g.pend.any (fun p => p.id = id) then (g.setScalar n v).arrived id 0xffffffff#32 else g

/-- Whether a group still awaits the answer to its wait, at an EVWAIT or at a header. -/
def Group.awaits (g : Group) (team : Nat) : Bool :=
  g.team == team && g.half == .sent && (match g.run with
    | .active => true
    | .idle => true
    | .ready => true
    | .waiting .header => true
    | _ => false)

/-- A wait has completed: the group goes on. -/
def State.waitMet (s : State) (k : GKey) (g : Group) : State :=
  let s1 := s.putAny k { g with half := .done }
  match g.run with
  | .waiting .header => s1.makeReady k s1.clk
  | _ => s1

/-- A new count leaves the home die for the dies recorded there (R58). -/
def State.evSend (s : State) (home ctx name : Nat) (e : EvEntry) : State :=
  e.dies.foldl (fun t d => t.post (t.clk + 60 * hops home d) (.eventCountUpdate d ctx name e.c)) s

/-- The value a graph node's wait is to differ from. -/
def State.nodeSeen (s : State) (l n : Nat) : Word := ((s.host.launches.find l).map fun x => x.seen.getD n 0#32).getD 0#32
def State.setSeen (s : State) (l n : Nat) (v : Word) : State :=
  match s.host.launches.find l with
  | some x => s.setHost { s.host with launches := s.host.launches.put l { x with seen := x.seen.set n v } }
  | none => s

/-- A wait that is not complete at the home die: the home die records the waiter's die, and the waiter stands in its own die's
entry. -/
def State.evWaitOn (s : State) (home ctx name : Nat) (e : EvEntry) (k : GKey) (g : Group) (v : Word) : Except EvFault State :=
  let w : Waiter := { g := k, team := g.team, v := v }
  let sleep (t : State) : State :=
    if (t.group? k).isSome then t.leavePen k g (.waiting (.event name v)) else t.putAny k { g with run := .waiting (.event name v) }
  if k.die = home then
    match s.evAppend home ctx e w with
    | .error f => .error f
    | .ok (e1, s1) => (s1.evPut home ctx name e1).map sleep
  else
    let e1 : EvEntry := { e with dies := if e.dies.contains k.die then e.dies else e.dies ++ [k.die] }
    match s.evPut home ctx name e1 with
    | .error f => .error f
    | .ok s1 => match s1.evTake k.die ctx name with
      | .error f => .error f
      | .ok (r, s2) => match s2.evAppend k.die ctx { r with c := e.c } w with
        | .error f => .error f
        | .ok (r1, s3) => (s3.evPut k.die ctx name r1).map sleep

/-- An act takes effect at the event's home die. -/
def State.evAct (s : State) (home ctx name : Nat) (a : EventAct) : Except EvFault State :=
  match s.evTake home ctx name with
  | .error f => .error f
  | .ok (e, s1) =>
    match a with
    | .signal _ => match s1.evWakeAll home ctx name { e with c := e.c + 1#32 } with
      | .error f => .error f
      | .ok (e1, s2) => (s2.evPut home ctx name e1).map fun t => t.evSend home ctx name e1
    | .test k id n => (s1.evPut home ctx name e).map fun t => t.landScalar k id n e.c
    | .node l n =>
      let v := s.nodeSeen l n
      if e.c ≠ v then (s1.evPut home ctx name e).map fun t => t.post t.clk (.nodeFinish l n)
      else s1.evPut home ctx name { e with nodes := e.nodes ++ [(l, n, v)] }
    | .peek l n => (s1.evPut home ctx name e).map fun t => t.setSeen l n e.c
    | .wait k team v =>
      match s.anyGroup k with
      | none => s1.evPut home ctx name e
      | some g =>
        if !g.awaits team then s1.evPut home ctx name e
        else if e.c ≠ v then (s1.evPut home ctx name e).map fun t => t.waitMet k g
        else s1.evWaitOn home ctx name e k g v

/-- A count sent by the home die takes effect on another die (R58). -/
def State.evCount (s : State) (d ctx name : Nat) (c : Word) : Except EvFault State :=
  match s.evTake d ctx name with
  | .error f => .error f
  | .ok (e, s1) => match s1.evWakeAll d ctx name { e with c := c } with
    | .error f => .error f
    | .ok (e1, s2) => s2.evPut d ctx name e1

/-- The cause of a fault at an event table (R58). -/
def EvFault.cause (f : EvFault) : Cause :=
  match f.fault with
  | .noPage => .pageLoad
  | .s2 false => .pageLoad
  | _ => .perm

/-- The record of such a fault. -/
def EvFault.record (f : EvFault) (core slot : Nat) : FaultRec :=
  { lin := f.lin, ec := f.cause, kind := 0, hostfail := false, core := core, slot := slot, sel := 0, ofs := 0 }

/-- A group's event instruction meets a fault at a table: the group parks with it, to execute the instruction again (R58); in a speculative task
the cause is deferred (R89). -/
def State.evPark (s : State) (k : GKey) (g : Group) (ctx : Nat) (f : EvFault) : State :=
  let g1 : Group := { g with half := .fresh }
  if g.speculative then
    s.leavePen k g1 (.parked (.deferred { cause := f.cause, aux := 0#32, ofs := 0, sel := 0, lin := f.lin } g.pos .instr false))
  else
    (if (s.group? k).isSome then s.leavePen k g1 (.parked (.page f.cause))
      else s.putAny k { g1 with run := .parked (.page f.cause) }).report f.die ctx (f.record k.core k.slot)

/-- The core and slot that the record of a held act carries: those of the group whose EVSIG, EVWAIT or EVTEST it is, unless the fault is another
entry's (R58). -/
def HeldWhat.where_ (w : HeldWhat) (f : EvFault) : Nat × Nat :=
  if f.victim.isSome then (0, 511)
  else match w with
    | .act (.signal (some k)) => (k.1.core, k.1.slot)
    | .act (.test k _ _) => (k.core, k.slot)
    | .act (.wait k _ _) => (k.core, k.slot)
    | _ => (0, 511)

/-- Any other act waits at the die of the table, with its record and a retry (R58, R158). -/
def State.evHold (s : State) (part ctx name : Nat) (w : HeldWhat) (f : EvFault) (at_ : Nat) : State :=
  (((s.updDie at_ fun x => { x with held := x.held ++ [{ ctx := ctx, name := name, what := w }] }).report f.die (f.victim.getD ctx)
    (f.record (w.where_ f).1 (w.where_ f).2)).post (s.clk + 256) (.faultRetry (.event part ctx name)))

/-- The act of an EVSIG or EVTEST, made again by its group from the slot it has now. -/
def actFrom (k : GKey) (a : EventAct) : EventAct :=
  match a with
  | .signal (some (_, t)) => .signal (some (k, t))
  | .test _ id n => .test k id n
  | x => x

/-- The group whose EVSIG or EVTEST an act is, while it is there and stands where it can park. -/
def State.actGroup (s : State) (a : EventAct) : Option (GKey × Group) :=
  let there (k : GKey) (p : Group → Bool) : Option (GKey × Group) := (s.group? k).bind fun g =>
    if p g && (g.run == .active || g.run == .ready || g.run == .idle) then some (k, g) else none
  match a with
  | .signal (some (k, team)) => there k fun g => g.team == team
  | .test k id _ => there k fun g => g.pend.any fun p => p.id == id
  | _ => none

/-- The act of an EVSIG or EVTEST meets a fault at a table when it arrives: its group parks with the cause, and its resume makes the act again
(R58; log 80). A speculative task has its record written when it is promoted (R89). -/
def State.actPark (s : State) (ctx name : Nat) (a : EventAct) (f : EvFault) : Option State :=
  if f.victim.isSome then none
  else (s.actGroup a).map fun e =>
    let s1 := s.leavePen e.1 e.2 (.parked (.act f.cause f.lin f.die name a))
    if e.2.speculative then s1 else s1.report f.die ctx (f.record e.1.core e.1.slot)

/-- Whether acts on an event wait at a die. -/
def State.evHeld (s : State) (d ctx name : Nat) : Bool := (s.die d).held.any fun h => h.ctx == ctx && h.name == name

/-- The order of acts that arrive in one clk: what no group makes comes first, then (die, core, slot) (R339). -/
def actOrder (a : EventAct) : Nat :=
  match a with
  | .signal (some k) => keyNum k.1 + 1
  | .wait k _ _ => keyNum k + 1
  | .test k _ _ => keyNum k + 1
  | _ => 0

/-- Put an event in the place of the first that is equal to another. -/
def swapEvent (old new : Event) : List (Nat × Event) → List (Nat × Event)
  | [] => []
  | (t, e) :: r => if e = old then (t, new) :: r else (t, e) :: swapEvent old new r

/-- The act to be taken first among those that arrive at the entry in this clk; the others stay on the agenda. -/
def State.firstAct (s : State) (part ctx name : Nat) (a : EventAct) : EventAct × State :=
  let best := s.agenda.foldl (fun (b : EventAct) e => match e.2 with
    | .eventActArrive p c n x => if e.1 ≤ s.clk ∧ p = part ∧ c = ctx ∧ n = name ∧ actOrder x < actOrder b then x else b
    | _ => b) a
  if best = a then (a, s)
  else (best, s.setAgenda (swapEvent (.eventActArrive part ctx name best) (.eventActArrive part ctx name a) s.agenda))

/-- EVENT_ACT_ARRIVE. -/
def State.eventActArrive (s : State) (part ctx name : Nat) (a0 : EventAct) : State :=
  let home := s.homeDie part
  let (a, s) := s.firstAct part ctx name a0
  match s.evAct home ctx name a with
  | .ok s1 => if s.evHeld home ctx name then s.updDie home fun x => { x with held := x.held ++ [{ ctx := ctx, name := name, what := .act a }] } else s1
  | .error f =>
    match a with
    | .wait k team _ => match s.anyGroup k with
      | some g => if !g.awaits team then s else if f.victim.isSome then s.evHold part ctx name (.act a) f home else s.evPark k g ctx f
      | none => s
    | _ => (s.actPark ctx name a f).getD (s.evHold part ctx name (.act a) f home)

/-- EVENT_COUNT_UPDATE. -/
def State.eventCountUpdate (s : State) (d ctx name : Nat) (c : Word) : State :=
  match s.evCount d ctx name c with
  | .ok s1 => s1
  | .error f => s.evHold (s.slotOf d) ctx name (.count c) f d

/-- Build the free list of a context's event table over one page of 4096 waiter records, the last record first: record `r` names
`r + 1` as the next, and the last of all ends the list (R58). -/
def State.freeRecords (p : Place) (base : Nat) : Nat → State → State
  | 0, s => s
  | n + 1, s =>
    let next := if base + n = 65535 then 0 else base + n + 1
    State.freeRecords p base n
      ((s.writeByte (p.shift (16 * n + 9)) (BitVec.ofNat 8 (next / 256))).writeByte (p.shift (16 * n + 8)) (BitVec.ofNat 8 next))

/-- Build the free list over page `n` of the waiter pool. -/
def State.freePage (s : State) (d ctx n : Nat) : Except EvFault State :=
  match s.translate (dieWho d ctx) (s.evLin d ctx (0x100000 + 65536 * n)) .write with
  | (.ok p, s1) => .ok (State.freeRecords p (4096 * n) 4096 s1)
  | (.error f, _) => .error { fault := f, lin := s.evLin d ctx (0x100000 + 65536 * n), die := d, victim := none }

/-- Build the free list of a context on a die, over the 16 pages of its waiter pool from the last one on; a page that cannot be written waits as
an act does (R58). -/
def State.freePages (d ctx : Nat) : Nat → State → State
  | 0, s => s
  | n + 1, s =>
    match s.freePage d ctx n with
    | .ok s1 => State.freePages d ctx n s1
    | .error f => State.freePages d ctx n (s.evHold (s.slotOf d) ctx 0 (.build n) f d)

/-- Take up the acts that wait at a die, in order, until one fails again; the group of one that fails parks as soon as it can (R58). -/
def State.evDrain (d ctx name : Nat) : List HeldAct → State → List HeldAct × State
  | [], s => ([], s)
  | h :: rest, s =>
    if h.ctx ≠ ctx ∨ h.name ≠ name then
      let (l, s1) := State.evDrain d ctx name rest s
      (h :: l, s1)
    else
      let r := match h.what with
        | .act a => s.evAct d ctx name a
        | .count c => s.evCount d ctx name c
        | .build n => s.freePage d ctx n
      match r with
      | .ok s1 => State.evDrain d ctx name rest s1
      | .error f =>
        match h.what with
        | .act a => match s.actPark ctx name a f with
          | some s1 => State.evDrain d ctx name rest s1
          | none => (h :: rest, s)
        | _ => (h :: rest, s)

/-- Whether a group still waits for an event. -/
def State.stillWaits (s : State) (k : GKey) (team name : Nat) : Bool :=
  (s.anyGroup k).any fun g => g.team == team && (match g.run with
    | .waiting (.event n _) => n == name
    | _ => g.half == .done)

/-- Waiters of an event on a die that are gone leave its lists, and their records are free again. -/
def State.evSweep (s : State) (d ctx name : Nat) : State :=
  match s.evFind d ctx name with
  | none => s
  | some e0 =>
    if e0.waiters.all (fun w => s.stillWaits w.g w.team name) && e0.listed.all fun x => s.stillWaits x.2.g x.2.team name then s
    else match s.evTake d ctx name with
      | .error _ => s
      | .ok (e, s1) => match s1.evChain d ctx 65536 e.head with
        | .error _ => s
        | .ok (l, s2) =>
          let gone (w : OvWaiter) : Bool := (e.listed.find w.r).any fun x => !s.stillWaits x.g x.team name
          let stay := (l.filter fun w => !gone w).map (·.r)
          let e1 : EvEntry := { e with waiters := e.waiters.filter fun w => s.stillWaits w.g w.team name, head := stay.headD 0,
                                       tail := stay.getLastD 0, listed := e.listed.filter fun x => stay.contains x.1 }
          match State.evRelink d ctx stay s2 with
          | .error _ => s
          | .ok s3 => match State.evFree d ctx ((l.filter gone).map (·.r)) s3 with
            | .error _ => s
            | .ok s4 => match s4.evPut d ctx name e1 with
              | .ok s5 => s5
              | .error _ => s

/-- The retry of the acts on an event that wait at the dies of a partition (R58, R158); waiters that are gone leave its lists there. -/
def State.evRetry (s : State) (part ctx name : Nat) : State :=
  let s1 := (s.diesOf part).foldl (fun t d =>
    let l := (t.die d).held
    let (l1, t1) := State.evDrain d ctx name l (t.updDie d fun x => { x with held := [] })
    (t1.updDie d fun x => { x with held := l1 ++ x.held }).evSweep d ctx name) s
  if (s1.diesOf part).any fun d => s1.evHeld d ctx name then s1.post (s1.clk + 256) (.faultRetry (.event part ctx name)) else s1

/-! ## EVSIG, EVWAIT, EVTEST (R338) -/

/-- Whether an act of a group would meet a fault at the home die's table as it issues: at the entry, or at the records it works on (R58). -/
def State.evProbe (s : State) (k : GKey) (ctx name : Nat) (a : EventAct) : Option EvFault :=
  match s.evAct (s.homeDie (s.slotOf k.die)) ctx name a with
  | .ok _ => none
  | .error f => if f.victim.isSome then none else some f

/-- EVSIG. -/
def State.evsigOp (s : State) (f : BFmt) : Host.Outcome State Fault Refusal :=
  s.withIssuer fun k g c =>
    let ctx := s.ctxOf g.team
    if f.s != 0#8 then s.raise k g (trapOf .illField 0#32)
    else if g.speculative then s.desched k g .promotion
    else if !g.released then s.hold k g
    else match s.evProbe k ctx f.n.toNat (.signal (some (k, g.team))) with
      | some x => s.evPark k g ctx x
      | none => (s.advance k { g with irrev := true } c 1 none).eventAct k.die ctx f.n.toNat (.signal (some (k, g.team)))

/-- EVWAIT: the wait goes to the home die; when it is complete the instruction does the acquire work and ends. -/
def State.evwaitOp (s : State) (f : BFmt) : Host.Outcome State Fault Refusal :=
  s.withIssuer fun k g c =>
    let ctx := s.ctxOf g.team
    if g.pending (touchScalars (useScalars [useOf f.s true 1])) then s.hold k g
    else if !isScalarOrImm f.s then s.raise k g (trapOf .illOperand (auxSpec g f.s))
    else if g.speculative then s.desched k g .promotion
    else match g.half with
      | .done => s.advance k (g.acquire s.clk 5) c 1 none
      | .sent => s.hold k g
      | .fresh =>
        (s.hold k { g with half := .sent, irrev := true }).eventAct k.die ctx f.n.toNat (.wait k g.team (g.uniform f.s))

/-- EVTEST. -/
def State.evtestOp (s : State) (f : BFmt) : Host.Outcome State Fault Refusal :=
  s.withIssuer fun k g c =>
    let ctx := s.ctxOf g.team
    let n := f.s.toNat - 0x80
    if g.pending (touchScalars [n]) then s.hold k g
    else if !isScalar f.s then s.raise k g (trapOf .illOperand (auxSpec g f.s))
    else match s.evProbe k ctx f.n.toNat (.test k s.fresh n) with
      | some x => s.evPark k g ctx x
      | none =>
        let (id, s1) := s.newId
        (s1.advance k (g.awaitScalar n id) c 1 none).eventAct k.die ctx f.n.toNat (.test k id n)

/-! ## Work queues (R60, R61) -/

/-- A queue that holds nothing. -/
def wqEmpty : WorkQueue := { items := [], blocks := [], spoilt := [], resident := true, loading := false, used := 0 }

/-- Queue `cq` of a die: 8 × context + q. -/
def State.wq (s : State) (d cq : Nat) : WorkQueue := (s.die d).queues.get wqEmpty cq
def State.putWq (s : State) (d cq : Nat) (x : WorkQueue) : State := s.updDie d fun y => { y with queues := y.queues.put cq x }

/-- The capacity of a queue; 0 for a disabled one (R45). -/
def State.wqCap (s : State) (d cq : Nat) : Nat :=
  let n := (s.ctx d (cq / 8)).qcfg.get 0 (cq % 8)
  if n = 0 then 0 else 2 ^ n

/-- Blocks of 16 records (R60). -/
def wqBlocks (n : Nat) : Nat := (n + 15) / 16
/-- The blocks of a die's queue store: 8 MiB in blocks of 64 bytes (R61). -/
def storeBlocks : Nat := 131072

/-- Some free blocks, the lowest ones (log 129). -/
def freeBlocks (used : List Nat) : Nat → List Nat
  | 0 => []
  | n + 1 =>
    let b := ((List.range (used.length + 1)).find? fun i => !used.contains i).getD 0
    b :: freeBlocks (b :: used) n

/-- A queue takes the blocks its records need, and gives back the others (R60, R61). -/
def State.fitWq (s : State) (d cq : Nat) (x : WorkQueue) : State :=
  let n := if x.resident then wqBlocks x.items.length else 0
  let used := (s.die d).queues.flatMap fun e => e.2.blocks
  s.putWq d cq { x with blocks := x.blocks.take n ++ freeBlocks used (n - x.blocks.length) }

/-- The blocks that resident queues of a context occupy. -/
def State.ctxBlocks (s : State) (d ctx : Nat) : Nat :=
  (s.die d).queues.foldl (fun n e => if e.1 / 8 = ctx ∧ e.2.resident then n + wqBlocks e.2.items.length else n) 0

def State.usedBlocks (s : State) (d : Nat) : Nat :=
  (s.die d).queues.foldl (fun n e => if e.2.resident then n + wqBlocks e.2.items.length else n) 0

/-- QWGT of a context in force; 0 acts as 1 (R45). -/
def State.qwgt (s : State) (d ctx : Nat) : Nat := max 1 (bits (s.ctx d ctx).schedNow 24 8).toNat

/-- The sum of the weights of a die's enabled contexts (R61). -/
def State.qwgtSum (s : State) (d : Nat) : Nat :=
  (List.range 16).foldl (fun n c => if (s.ctx d c).en then n + s.qwgt d c else n) 0

/-- By how much the resident blocks of a context exceed its share of the store, 8 MiB × QWGT ÷ the sum, as a multiple of 1 ÷ the sum (R61). -/
def State.overShare (s : State) (d ctx : Nat) : Int :=
  if s.qwgtSum d = 0 then s.ctxBlocks d ctx else (s.ctxBlocks d ctx * s.qwgtSum d : Int) - storeBlocks * s.qwgt d ctx

/-- The queue that the instruction at which a group stands names, where it is one on a queue. -/
def Group.queueAt (g : Group) : Option Nat :=
  g.clause.bind fun c => match decodeInstr (c.wordsAt g.pos).1 (c.wordsAt g.pos).2 with
    | .ok (.qpop f) => some f.qn.toNat
    | .ok (.qpush f) => some f.qn.toNat
    | .ok (.qcnt f) => some f.qn.toNat
    | _ => none

/-- Whether an instruction on a queue is in progress: its group was stalled while the queue was read back and has not issued it since, or its act is
on the way (R61). -/
def State.wqBusy (s : State) (d cq : Nat) : Bool :=
  (s.groups.any fun e => (keyOfNum e.1).die == d && e.2.half == .sent && s.ctxOf e.2.team == cq / 8 && e.2.queueAt == some (cq % 8)) ||
  s.agenda.any fun e => match e.2 with
    | .queueActArrive k (.pop _ q _ _ _) => k.die == d && q == cq
    | .queueActArrive k (.push _ q _ _ _) => k.die == d && q == cq
    | .queueActArrive k (.count _ q _) => k.die == d && q == cq
    | _ => false

/-- The context whose resident blocks exceed its share by the most (R61). -/
def State.overContext (s : State) (d : Nat) (ctxs : List Nat) : Option Nat :=
  (ctxs.foldl (fun (b : Option (Nat × Int)) c =>
    let x : Int := s.overShare d c
    match b with
    | some (_, y) => if y < x then some (c, x) else b
    | none => some (c, x)) none).map (·.1)

/-- The resident queue of a context that was used longest ago and on which no instruction is in progress: neither one on its way nor the one that
needs the room, on queue `keep`. -/
def State.lruQueue (s : State) (d keep ctx : Nat) : Option (Nat × WorkQueue) :=
  (s.die d).queues.foldl (fun (b : Option (Nat × WorkQueue)) e =>
    if e.1 / 8 = ctx && e.1 != keep && e.2.resident && !e.2.items.isEmpty && !s.wqBusy d e.1 then
      match b with
      | some x => if e.2.used < x.2.used then some e else b
      | none => some e
    else b) none

/-- The linear address of a queue's backing (R45). -/
def State.qsaveLin (s : State) (d cq : Nat) : Nat := pteBits (s.ctx d (cq / 8)).qsave 23 41 * 8388608 + 1048576 * (cq % 8)

/-- Evict queues until `need` blocks are free: from the contexts that have a queue to give, the one furthest over its share
(R61). A queue whose backing cannot be written stays. -/
def State.evictQueues (d keep need : Nat) : Nat → State → State
  | 0, s => s
  | n + 1, s =>
    if s.usedBlocks d + need ≤ storeBlocks then s
    else match s.overContext d ((List.range 16).filter fun c => (s.lruQueue d keep c).isSome) with
      | none => s
      | some c => match s.lruQueue d keep c with
        | none => s
        | some (cq, x) =>
          match s.writeLin (dieWho d c) (s.qsaveLin d cq) (x.items.flatMap fun w => leBytes 4 w.toNat) with
          | (none, s1) => State.evictQueues d keep need n (s1.putWq d cq { x with resident := false, blocks := [] })
          | (some _, _) => s

/-- The records of a queue's backing, or the ones held where it cannot be read. -/
def wordsOf : Nat → List Byte → List Word
  | 0, _ => []
  | n + 1, bs => BitVec.ofNat 32 (leNat (bs.take 4)) :: wordsOf n (bs.drop 4)

/-- QUEUE_SWAP_IN_DONE: the queue is read back, and the groups it stalled are ready (R61); while the instructions in progress leave no queue to
evict for it, it waits. -/
def State.queueSwapInDone (s : State) (d ctx q : Nat) : State :=
  let cq := 8 * ctx + q
  let need := wqBlocks (s.wq d cq).items.length
  let s1 := State.evictQueues d cq need 128 s
  let x := s1.wq d cq
  let n := x.items.length
  if storeBlocks < s1.usedBlocks d + need then s1.post (s.clk + 1) (.queueSwapInDone d ctx q)
  else
  let (items, s2) := match s1.translateRange (dieWho d ctx) .read (n / 16384 + 2) (s1.qsaveLin d cq) (4 * n) with
    | (.ok rs, t) => (wordsOf n (t.readRuns rs), t)
    | (.error _, t) => (x.items, t)
  let s3 := s2.fitWq d cq { x with items := items, resident := true, loading := false, used := s.clk }
  s3.groups.foldl (fun t e =>
    if (keyOfNum e.1).die = d ∧ s.ctxOf e.2.team = ctx ∧ e.2.run = .waiting (.queue cq) then t.makeReady (keyOfNum e.1) t.clk else t) s3

/-- Lanes that pop, in ascending order (R60). -/
def popLanes : List Nat → List Word → List (Nat × Option Word) × List Word
  | [], items => ([], items)
  | l :: rest, items =>
    let (r, left) := popLanes rest items.tail
    ((l, items.head?) :: r, left)

/-- The lanes of a QPOP land: the register of each lane and its bit of the predicate. -/
def Group.landPop (g : Group) (id : Nat) (regs : List Nat) (f : Nat) (rs : List (Nat × Option Word)) (clk : Nat) : Group :=
  let g1 := rs.foldl (fun (h : Group) r =>
    let n := regs.getD r.1 0
    ((h.enliven n).writeRes n (1#32 <<< r.1) (Lanes.ofFn fun _ => r.2.getD 0#32)).setPred f
      (if r.2.isSome then h.pred f ||| (1#32 <<< r.1) else h.pred f &&& ~~~(1#32 <<< r.1))) g
  let g2 := g1.arrived id 0xffffffff#32
  if rs.any fun r => r.2.isSome then g2.acquire clk 4 else g2

/-- The order of queue acts that arrive in one clk (R60). -/
def queueOrder (k : GKey) : Nat := keyNum k

def queueOf (a : QueueAct) : Nat :=
  match a with
  | .pop _ q _ _ _ => q
  | .push _ q _ _ _ => q
  | .count _ q _ => q

/-- The act on a queue to be taken first in this clk. -/
def State.firstQueueAct (s : State) (k : GKey) (a : QueueAct) : (GKey × QueueAct) × State :=
  let best := s.agenda.foldl (fun (b : GKey × QueueAct) e => match e.2 with
    | .queueActArrive j x => if e.1 ≤ s.clk ∧ j.die = k.die ∧ queueOf x = queueOf a ∧ queueOrder j < queueOrder b.1 then (j, x) else b
    | _ => b) (k, a)
  if best.1 = k then ((k, a), s)
  else (best, s.setAgenda (swapEvent (.queueActArrive best.1 best.2) (.queueActArrive k a) s.agenda))

/-- A pop meets a record with an uncorrectable error as it arrives (R168): it takes nothing, and its group raises ECC_UNCORR where it stands. -/
def Group.popSpoilt (g : Group) (id : Nat) : Group :=
  let inside : Bool := g.clause.any fun c => c.begun
  { g.arrived id 0xffffffff#32 with
    raiseDue := g.raiseDue.or (some (trapOf .eccUncorr 0#32, if inside then g.pos else 15, if inside then .instr else .boundary, .plain)) }

/-- QUEUE_ACT_ARRIVE: an instruction takes effect at the queue store of its die (R60). Its group learns the answer if it still
awaits it. A push for whose records no block can be freed finds the queue full (log 129). -/
def State.queueActArrive (s : State) (k0 : GKey) (a0 : QueueAct) : State :=
  let (ka, s) := s.firstQueueAct k0 a0
  let k := ka.1
  let d := k.die
  let land (t : State) (id : Nat) (f : Group → Group) : State :=
    t.updGroup k fun g => if g.pend.any (fun p => p.id = id) then f g else g
  match ka.2 with
  | .pop id q regs f mask =>
    let x := s.wq d q
    let (rs, left) := popLanes (lanesOf mask) x.items
    if x.spoilt.any fun i => decide (i < x.items.length - left.length) then land s id fun g => g.popSpoilt id
    else land (s.fitWq d q { x with items := left, spoilt := x.spoilt.map (· - (x.items.length - left.length)), used := s.clk }) id fun g => g.landPop id regs f rs s.clk
  | .push id q f mask vals =>
    let ls := lanesOf mask
    let room := min ls.length (s.wqCap d q - (s.wq d q).items.length)
    let s1 := State.evictQueues d q (wqBlocks ((s.wq d q).items.length + room) - wqBlocks (s.wq d q).items.length) 128 s
    let x := s1.wq d q
    let fits := 16 * (wqBlocks x.items.length + storeBlocks - s1.usedBlocks d) - x.items.length
    let taken := ls.take (min room fits)
    land (s1.fitWq d q { x with items := x.items ++ taken.map vals.at, used := s.clk }) id fun g =>
      (g.setPred f (maskedBits mask (g.pred f) fun l => taken.contains l)).arrived id 0xffffffff#32
  | .count id q n =>
    let x := s.wq d q
    (s.putWq d q { x with used := s.clk }).landScalar k id n (BitVec.ofNat 32 x.items.length)

/-! ## QPOP, QPUSH, QCNT (R346 to R348) -/

/-- An instruction finds its queue: disabled, to be read back first, or there (R60, R61). -/
def State.withQueue (s : State) (k : GKey) (g : Group) (cq : Nat) (go : Nat → State → State) : State :=
  if s.wqCap k.die cq = 0 then s.raise k g (trapOf .illOperand (auxSpec g 0#8))
  else
    let x := s.wq k.die cq
    if !x.resident then
      let s1 := if x.loading then s
        else (s.putWq k.die cq { x with loading := true }).post (s.clk + 256 + wqBlocks x.items.length) (.queueSwapInDone k.die (cq / 8) (cq % 8))
      s1.desched k { g with half := .sent } (.queue cq)
    else
      let (id, s1) := s.newId
      go id s1

def predPend (id f : Nat) : List Pend := if f = 0 then [] else [{ id := id, on := .pred f, lanes := 1#32 }]

/-- QPOP. -/
def State.qpopOp (s : State) (f : QFmt) : Host.Outcome State Fault Refusal :=
  s.withIssuer fun k g c =>
    let us := [useOf f.d false 1]
    let cq := 8 * s.ctxOf g.team + f.qn.toNat
    if g.pending { regs := g.useRegs us, scalars := [], preds := [f.f.toNat] } then s.hold k g
    else if f.z1 != 0#5 || f.z2 != 0#5 then s.raise k g (trapOf .illField 0#32)
    else if !isLaneReg f.d then s.raise k g (trapOf .illOperand (auxSpec g f.d))
    else match g.check128 us with
      | some t => s.raise k g t
      | none =>
        if g.exec = 0#32 then s.advance k g c 1 none
        else if g.speculative then s.desched k g .promotion
        else match (s.wq k.die cq).spoilt.find? fun i => i < (lanesOf g.exec).length with
        | some _ => s.raise k g (trapOf .eccUncorr 0#32)
        | none => s.withQueue k g cq fun id s1 =>
          let regs := g.dstRegs f.d
          let ps : List Pend := (((lanesOf g.exec).map fun l => regs.getD l 0).dedup).map fun r => { id := id, on := .reg r, lanes := 0xffffffff#32 }
          (s1.advance k { g with pend := ps ++ predPend id f.f.toNat ++ g.pend, irrev := true } c (g.occupancy us 0) none).after 40
            (.queueActArrive k (.pop id cq regs f.f.toNat g.exec))

/-- QPUSH. -/
def State.qpushOp (s : State) (f : QFmt) : Host.Outcome State Fault Refusal :=
  s.withIssuer fun k g c =>
    let src : Src := { spec := f.d, pat := 0, par := 0, dead := false, kind := .int }
    let us := [src.use]
    let cq := 8 * s.ctxOf g.team + f.qn.toNat
    if g.pending { regs := g.useRegs us, scalars := useScalars us, preds := [f.f.toNat] } then s.hold k g
    else if f.z1 != 0#5 || f.z2 != 0#5 then s.raise k g (trapOf .illField 0#32)
    else if !isSource f.d then s.raise k g (trapOf .illOperand (auxSpec g f.d))
    else match g.check128 us with
      | some t => s.raise k g t
      | none =>
        if g.exec = 0#32 then s.advance k g c 1 none
        else if g.speculative then s.desched k g .promotion
        else if !g.released then s.hold k g
        else s.withQueue k g cq fun id s1 =>
          (s1.advance k { g with pend := predPend id f.f.toNat ++ g.pend, irrev := true } c (g.occupancy us 0) none).after 40
            (.queueActArrive k (.push id cq f.f.toNat g.exec (Lanes.ofFn fun l => s.deliver k g src l)))

/-- QCNT. -/
def State.qcntOp (s : State) (f : QFmt) : Host.Outcome State Fault Refusal :=
  s.withIssuer fun k g c =>
    let n := f.d.toNat - 0x80
    if g.pending (touchScalars [n]) then s.hold k g
    else if f.z1 != 0#5 || f.z2 != 0#5 || f.f != 0#3 then s.raise k g (trapOf .illField 0#32)
    else if !isScalar f.d then s.raise k g (trapOf .illOperand (auxSpec g f.d))
    else s.withQueue k g (8 * s.ctxOf g.team + f.qn.toNat) fun id s1 =>
      (s1.advance k (g.awaitScalar n id) c 1 none).after 40 (.queueActArrive k (.count id (8 * s.ctxOf g.team + f.qn.toNat) n))

/-! ## The instructions and events -/

/-- EVSIG (0x14). -/
def execEvsig (f : BFmt) (s : State) : Host.Outcome State Fault Refusal := s.evsigOp f
/-- EVWAIT (0x15). -/
def execEvwait (f : BFmt) (s : State) : Host.Outcome State Fault Refusal := s.evwaitOp f
/-- EVTEST (0x16). -/
def execEvtest (f : BFmt) (s : State) : Host.Outcome State Fault Refusal := s.evtestOp f
/-- QPOP (0xc4). -/
def execQpop (f : QFmt) (s : State) : Host.Outcome State Fault Refusal := s.qpopOp f
/-- QPUSH (0xc5). -/
def execQpush (f : QFmt) (s : State) : Host.Outcome State Fault Refusal := s.qpushOp f
/-- QCNT (0xc6). -/
def execQcnt (f : QFmt) (s : State) : Host.Outcome State Fault Refusal := s.qcntOp f
/-- EVENT_ACT_ARRIVE. -/
def execEventActArrive (s : State) : Host.Outcome State Fault Refusal :=
  match s.subject with
  | .eventActArrive p c n a => .next (s.eventActArrive p c n a)
  | _ => .fault .noSubject
/-- EVENT_COUNT_UPDATE. -/
def execEventCountUpdate (s : State) : Host.Outcome State Fault Refusal :=
  match s.subject with
  | .eventCountUpdate d c n v => .next (s.eventCountUpdate d c n v)
  | _ => .fault .noSubject
/-- EVENT_WAKE. -/
def execEventWake (s : State) : Host.Outcome State Fault Refusal :=
  match s.subject with
  | .eventWake k t => .next (s.eventWake k t)
  | _ => .fault .noSubject
/-- QUEUE_ACT_ARRIVE. -/
def execQueueActArrive (s : State) : Host.Outcome State Fault Refusal :=
  match s.subject with
  | .queueActArrive k a => .next (s.queueActArrive k a)
  | _ => .fault .noSubject
/-- QUEUE_SWAP_IN_DONE. -/
def execQueueSwapInDone (s : State) : Host.Outcome State Fault Refusal :=
  match s.subject with
  | .queueSwapInDone d c q => .next (s.queueSwapInDone d c q)
  | _ => .fault .noSubject

end Sys2Proof.Machine
end

