-- ==== Sys2Proof/Machine/Tiles.lean ====
section
/-! DEFINITION. Tile slots (R217 to R219), the feeders that fill them (R220 to R224), and TCLM, TREL, TLD (R364 to R367), FSUB and
FEND (R321, R322). -/

namespace Sys2Proof.Machine

/-! ## Slots -/

def State.tile (s : State) (die core n : Nat) : Tile := (s.core die core).tiles.get Tile.reset n
def State.putTile (s : State) (die core n : Nat) (x : Tile) : State :=
  s.updCore die core fun c => { c with tiles := c.tiles.put n x }

def SlotState.code : SlotState → Nat
  | .free => 0
  | .empty => 1
  | .filling => 2
  | .full => 3

/-- SLOT_STATE with the slot and its state (R268). -/
def slotTrap (n : Nat) (x : Tile) : Trap := trapOf .slotState (BitVec.ofNat 32 (n + 256 * x.state.code))

/-- Whether a team owns a slot. -/
def Tile.ownedBy (x : Tile) (team : Nat) : Bool := x.state != .free && x.owner == team

/-- What an act on a slot comes to: it raises SLOT_STATE, waits, or leaves the slot so. -/
inductive SlotAct where
  | bad
  | wait
  | ok (x : Tile)
  deriving DecidableEq, Repr

/-- A slot becomes EMPTY; the ring flag of a walk that has ended clears with it (R222). -/
def Tile.emptied (x : Tile) : Tile :=
  { x with state := .empty, ring := x.ring && !x.ringEnd, ringEnd := false }

/-- The TREL columns of R219. -/
def Tile.trel (x : Tile) (team : Nat) (free : Bool) : SlotAct :=
  if !x.ownedBy team then .bad
  else match x.state with
    | .free => .bad
    | .filling => .wait
    | .empty => if free then (if x.ring then .bad else .ok Tile.reset) else .ok x
    | .full =>
      if free && x.ring then .bad
      else if x.readers ≠ 0 then .wait
      else .ok (if free then Tile.reset else x.emptied)

/-- The TLD column of R219. -/
def Tile.tld (x : Tile) (team : Nat) : SlotAct :=
  if !x.ownedBy team then .bad
  else match x.state with
    | .free => .bad
    | .filling => .wait
    | .empty => if x.ring then .bad else .ok { x with state := .filling }
    | .full => if x.readers ≠ 0 then .wait else .ok { x with state := .filling }

/-- The follower's core, where a team leads the pair of a core (R213). -/
def State.follower (s : State) (die core team : Nat) : Option Nat :=
  let a := (s.core die core).arr
  match a.pair with
  | some (l, f) => if l = core ∧ a.owner = some team then some f else none
  | none => none

/-- The cores on which an act of a group on slot `n` takes effect: its own, and the follower's where the leader team holds the
slot on both (R366). -/
def State.slotCores (s : State) (k : GKey) (team n : Nat) : List Nat :=
  match s.follower k.die k.core team with
  | some f => if (s.tile k.die k.core n).ownedBy team && (s.tile k.die f n).ownedBy team then [k.core, f] else [k.core]
  | none => [k.core]

/-- What an act on several copies of a slot comes to: the first that raises, else whether one waits, else the copies. -/
inductive SlotActs where
  | bad (x : Tile)
  | wait
  | ok (xs : List (Nat × Tile))
  deriving DecidableEq, Repr

/-- SLOT_STATE of the act that raises, if one does. -/
def SlotActs.trap (a : SlotActs) (n : Nat) : Option Trap :=
  match a with
  | .bad x => some (slotTrap n x)
  | _ => none

def State.slotActs (s : State) (die n : Nat) (f : Tile → SlotAct) : List Nat → SlotActs
  | [] => .ok []
  | c :: rest =>
    match f (s.tile die c n), s.slotActs die n f rest with
    | .bad, _ => .bad (s.tile die c n)
    | _, .bad x => .bad x
    | .wait, _ => .wait
    | _, .wait => .wait
    | .ok x, .ok xs => .ok ((c, x) :: xs)

def State.putTiles (s : State) (die n : Nat) (xs : List (Nat × Tile)) : State :=
  xs.foldl (fun t e => t.putTile die e.1 n e.2) s

/-- Bytes as a table from a number on. -/
def tblOfBytes (base : Nat) (bs : List Byte) : Tbl Byte :=
  (bs.zip (List.range bs.length)).filterMap fun e => if e.1 = 0#8 then none else some (base + e.2, e.1)

/-- The offsets of the scale area and the band field within a slot (R367). -/
def scaleBase : Nat := 16384
def bandBase : Nat := 20480

/-! ## Feeders (R220 to R224) -/

/-- Read bytes as a feeder: HBM of its own die alone serves it (R220, R223). -/
def State.feedRead (s : State) (w : Who) (lin n : Nat) : Except (XFault × Nat) (List Byte) × State :=
  match s.translateRange w .read 3 lin n with
  | (.error e, s1) => (.error e, s1)
  | (.ok rs, s1) =>
    if rs.all fun r => match r.place with
      | .hbm d _ => d == w.die
      | _ => false
    then (.ok (s1.readRuns rs), s1) else (.error (.perm, lin), s1)

/-- Read pieces one after the other, and join their bytes. -/
def State.feedReads (s : State) (w : Who) : List (Nat × Nat) → Except (XFault × Nat) (List Byte) × State
  | [] => (.ok [], s)
  | (lin, n) :: rest =>
    match s.feedRead w lin n with
    | (.error e, s1) => (.error e, s1)
    | (.ok bs, s1) =>
      match s1.feedReads w rest with
      | (.error e, s2) => (.error e, s2)
      | (.ok more, s2) => (.ok (bs ++ more), s2)

/-- Spread bytes that lie one to a row, or 16 to a row, over the scale area. -/
def Feeder.scalePieces (x : Feeder) (first t : Nat) : List (Nat × Nat) :=
  match x.sfmt with
  | 1 => (List.range 256).map fun r => (x.sbase + (first + r) * x.spitch + t / 2, 1)
  | 2 => (List.range 256).map fun r => (x.sbase + (first + r) * x.spitch + 16 * t, 16)
  | _ => []

/-- The image of tile `t` whose first row or column in the walk is `first` (R222): 0, or 256 for a follower's rows. -/
def State.feedImage (s : State) (w : Who) (x : Feeder) (t first : Nat) : Except (XFault × Nat) (Tbl Byte) × State :=
  let rows := (List.range 256).map fun r => (x.dbase + t * x.tstep + (first + r) * x.pitch, 64)
  let band : List (Nat × Nat) :=
    if x.sfmt ≠ 2 then []
    else if x.pair.isSome && !x.roleB then [(x.bbase + 16 * t + 8 * (first / 256), 8)]
    else [(x.bbase + 8 * t, 8)]
  match s.feedReads w rows with
  | (.error e, s1) => (.error e, s1)
  | (.ok d, s1) => match s1.feedReads w (x.scalePieces first t) with
    | (.error e, s2) => (.error e, s2)
    | (.ok sc, s2) => match s2.feedReads w band with
      | (.error e, s3) => (.error e, s3)
      | (.ok b, s3) => (.ok (tblOfBytes 0 d ++ tblOfBytes scaleBase sc ++ tblOfBytes bandBase b), s3)

/-- The images of the cores a subscription delivers to. -/
def State.feedImages (s : State) (w : Who) (x : Feeder) (t : Nat) : Except (XFault × Nat) (List (Nat × Tbl Byte)) × State :=
  match s.feedImage w x t 0 with
  | (.error e, s1) => (.error e, s1)
  | (.ok a, s1) => match x.pair with
    | none => (.ok [(x.g.core, a)], s1)
    | some f =>
      if x.roleB then (.ok [(x.g.core, a), (f, a)], s1)
      else match s1.feedImage w x t 256 with
        | (.error e, s2) => (.error e, s2)
        | (.ok b, s2) => (.ok [(x.g.core, a), (f, b)], s2)

def Feeder.cores (x : Feeder) : List Nat := x.g.core :: x.pair.toList
/-- The slot of the next tile (R222). -/
def Feeder.slot (x : Feeder) : Nat := x.base + x.next % x.len
def Feeder.ring (x : Feeder) : List Nat := (List.range x.len).map (x.base + ·)

def State.putFeeder (s : State) (d f : Nat) (x : Feeder) : State := s.updDie d fun y => { y with feeders := y.feeders.put f x }
def State.dropFeeder (s : State) (d f : Nat) : State := s.updDie d fun y => { y with feeders := y.feeders.del f }

/-- Remove an event from the agenda. -/
def State.unpost (s : State) (e : Event) : State := s.setAgenda (s.agenda.filter fun x => x.2 ≠ e)

/-- The master a feeder is: its die, in the context it serves. -/
def Feeder.who (x : Feeder) (d : Nat) : Who := dieWho d x.ctx

def Feeder.record (x : Feeder) (c : Cause) (lin : Nat) : FaultRec :=
  { lin := lin, ec := c, kind := 0, hostfail := false, core := x.g.core, slot := x.g.slot, sel := 0, ofs := 0 }

/-- A tile's page has V = 0: the tile waits, with one record, and is retried (R223). -/
def State.feedWait (s : State) (d f : Nat) (x : Feeder) (e : XFault) (lin : Nat) : State :=
  let ev : Event := .faultRetry (.feeder d f)
  let s1 := ((s.putFeeder d f { x with faulted := true }).unpost ev).post (s.clk + 256) ev
  if x.faulted then s1
  else match e with
    | .s2 _ => s1.hyperFault d x.ctx (x.record .pageLoad lin)
    | _ => s1.report d x.ctx (x.record .pageLoad lin)

/-- A tile that no HBM page of the die holds stops the walk: the feeder is free, and the stopped subscription stays the team's
(R223). -/
def State.feedStop (s : State) (d f : Nat) (x : Feeder) (lin : Nat) : State :=
  let (id, s1) := s.newId
  ((s1.dropFeeder d f).putFeeder d (16 + id) { x with stopped := true, faulted := false }).report d x.ctx (x.record .perm lin)

/-- Whether a group on a core waits at a TREL or a TLD of a slot with its pen held: that act has arrived before any later act on the slot (R219,
R370). -/
def State.slotWaits (s : State) (die core n : Nat) : Bool :=
  s.groups.any fun e =>
    let k := keyOfNum e.1
    let p := s.pen (penOf k)
    k.die == die && k.core == core && p.stalled && p.holder == some k.slot && (match e.2.clause with
      | some c =>
        let w := (c.wordsAt e.2.pos).1
        (w.extractLsb' 24 8 == 0xb1#8 || w.extractLsb' 24 8 == 0xb2#8) && (unpackT w).slot.toNat == n
      | none => false)

/-- A feeder takes up its next tile, if its slot is EMPTY and no TREL or TLD of the slot waits (R219, R222). `retry` says that it comes from a wait on a
fault. -/
def State.feederTry (s : State) (d f : Nat) (retry : Bool) : State :=
  match (s.die d).feeders.find f with
  | none => s
  | some x =>
    if x.stopped || x.filling || (x.faulted && !retry) || decide (x.nt ≤ x.next) then s
    else if !x.cores.all fun c => (s.tile d c x.slot).state == .empty then s
    else if x.cores.any fun c => s.slotWaits d c x.slot then (s.unpost (.faultRetry (.feeder d f))).post (s.clk + 1) (.faultRetry (.feeder d f))
    else match s.feedImages (x.who d) x x.next with
      | (.error (.noPage, lin), s1) => s1.feedWait d f x .noPage lin
      | (.error (.s2 p, lin), s1) => s1.feedWait d f x (.s2 p) lin
      | (.error (_, lin), s1) => s1.feedStop d f x lin
      | (.ok imgs, s1) =>
        let s2 := imgs.foldl (fun t e => t.putTile d e.1 x.slot { t.tile d e.1 x.slot with state := .filling, bytes := e.2 }) s1
        let s3 := s2.putFeeder d f { x with filling := true, faulted := false }
        (s3.setFreeCtr (s3.freeCtr + 1)).post (max (s.clk + 40) (x.lastLand + 40) + Config.delay s3.freeCtr) (.feederTileLand d f)

/-- Feeders look at their slots again. -/
def State.feederPoke (s : State) (d : Nat) : State :=
  (s.die d).feeders.foldl (fun t e => t.feederTry d e.1 false) s

/-- The FD counter of a subscription's group falls. -/
def State.fdFall (s : State) (x : Feeder) (n : Nat) : State :=
  s.updGroup x.g fun h => if h.team = x.team then { h with fd := h.fd - n } else h

/-- The walk has ended: the ring flags clear, at once where the slot is EMPTY and otherwise when it next is (R222). -/
def State.ringEnds (s : State) (d : Nat) (x : Feeder) : State :=
  x.cores.foldl (fun t c => x.ring.foldl (fun u n =>
    let y := u.tile d c n
    if !y.ring then u
    else if y.state = .empty then u.putTile d c n { y with ring := false, ringEnd := false }
    else u.putTile d c n { y with ringEnd := true }) t) s

/-- FEEDER_TILE_LAND: the tile's last byte lands (R222, R321). -/
def State.feederTileLand (s : State) (d f : Nat) : State :=
  match (s.die d).feeders.find f with
  | none => s
  | some x =>
    if !x.filling then s
    else
      let gone := (s.tile d x.g.core x.slot).freeing
      let s1 := x.cores.foldl (fun t c =>
        let y := t.tile d c x.slot
        t.putTile d c x.slot (if y.freeing then Tile.reset else { y with state := .full })) s
      let x1 : Feeder := { x with next := x.next + 1, filling := false, lastLand := s.clk }
      let s2 := if gone then s1 else
        let t := s1.fdFall x 1
        match x.bar with
        | some b => t.post t.clk (.barrierArrive b (.post 16384))
        | none => t
      if x.stopped then s2.dropFeeder d f
      else if x1.nt ≤ x1.next then (s2.ringEnds d x1).dropFeeder d f
      else (s2.putFeeder d f x1).feederTry d f false

/-- FEND, and the exit of the owner's team (R223): the subscription ends after a tile already on its way. -/
def State.feederEnd (s : State) (d f : Nat) (x : Feeder) : State :=
  let s1 := s.fdFall x (x.nt - x.next - bitOf x.filling)
  let s2 := x.cores.foldl (fun t c => x.ring.foldl (fun u n =>
    let y := u.tile d c n
    if y.owner = x.team then u.putTile d c n { y with ring := false, ringEnd := false } else u) t) s1
  let s3 := s2.unpost (.faultRetry (.feeder d f))
  if x.filling then s3.putFeeder d f { x with stopped := true } else s3.dropFeeder d f

/-- Whether a subscription is still one that FEND can end. -/
def feederLive (f : Nat) (x : Feeder) : Bool := decide (16 ≤ f) || !x.stopped

/-- The lowest-numbered free feeder of a die (R220). -/
def State.freeFeeder (s : State) (d : Nat) : Option Nat := (List.range 16).find? fun f => ((s.die d).feeders.find f).isNone

/-- The tile slots and subscriptions of a team that exits: each slot is FREE, one that is FILLING once its fill has landed (R219). -/
def State.releaseTiles (s : State) (die team : Nat) : State :=
  let s1 := (s.die die).feeders.foldl (fun t e =>
    if e.2.team = team ∧ feederLive e.1 e.2 then t.feederEnd die e.1 e.2 else t) s
  (List.range Config.cores).foldl (fun t c =>
    (t.core die c).tiles.foldl (fun u e =>
      if e.2.ownedBy team then
        u.putTile die c e.1 (if e.2.state = .filling then { e.2 with freeing := true, ring := false, ringEnd := false } else Tile.reset)
      else u) t) s1

/-! ## TCLM, TREL, TLD -/

/-- What stands behind the checks of a matrix instruction: with EXEC = 0 it has no effect, but the checks that else come after a wait are made too;
a speculative task waits for its promotion (R362; log 123). -/
def State.matGo (s : State) (k : GKey) (g : Group) (c : Clause) (first later : Option Trap) (go : State) : State :=
  match first with
  | some x => s.raise k g x
  | none =>
    if g.exec = 0#32 then (match later with
      | some x => s.raise k g x
      | none => s.advance k g c 1 none)
    else if g.speculative then s.desched k g .promotion
    else go

/-- What every matrix instruction meets in order: the scoreboard, R256 steps 4 and 5, the checks of step 6, and what `matGo` says (R362). -/
def State.matIssue (s : State) (k : GKey) (g : Group) (c : Clause) (t : Touch) (field : Bool) (spec : Option (BitVec 8))
    (first later : Option Trap) (go : State) : State :=
  if g.pending t then s.hold k g
  else if field then s.raise k g (trapOf .illField 0#32)
  else match spec with
    | some b => s.raise k g (trapOf .illOperand (auxSpec g b))
    | none => s.matGo k g c first later go

def badIf (b : Bool) (x : BitVec 8) : Option (BitVec 8) := if b then some x else none

/-- TCLM. -/
def State.tclmOp (s : State) (f : TFmt) : Host.Outcome State Fault Refusal :=
  s.withIssuer fun k g c =>
    let st := f.s.toNat - 0x80
    let n := f.slot.toNat
    s.matIssue k g c (touchScalars [st]) (f.u != 0#8 || f.fl != 0#1 || decide (96 ≤ n)) (badIf (!isScalar f.s) f.s) none none
      (let cores := k.core :: (s.follower k.die k.core g.team).toList
       let ok := cores.all fun x => (s.tile k.die x n).state == .free
       let claimed : Tile := { Tile.reset with state := .empty, owner := g.team }
       let s1 := if ok then s.putTiles k.die n (cores.map fun x => (x, claimed)) else s
       let (id, s2) := s1.newId
       let g1 := g.setScalar st (if ok then 1#32 else 0#32)
       s2.advance k { g1 with pend := { id := id, on := .scalar st, lanes := 1#32, due := s.clk + 8 } :: g1.pend, irrev := true } c 1 none)

/-- TREL. -/
def State.trelOp (s : State) (f : TFmt) : Host.Outcome State Fault Refusal :=
  s.withIssuer fun k g c =>
    let n := f.slot.toNat
    let acts := s.slotActs k.die n (fun x => x.trel g.team (f.fl == 1#1)) (s.slotCores k g.team n)
    s.matIssue k g c (touchScalars []) (f.s != 0#8 || f.u != 0#8 || decide (96 ≤ n)) none (acts.trap n) none
      (match acts with
       | .bad x => s.raise k g (slotTrap n x)
       | .wait => s.hold k g
       | .ok xs => ((s.putTiles k.die n xs).advance k { g with irrev := true } c 1 none).feederPoke k.die)

/-- The clk an image of `n` bytes takes from a place (R367). -/
def imageClk (w : Who) (rs : List Run) (n : Nat) : Nat :=
  (match rs with
    | r :: _ => latencyOf w r.place
    | [] => 0) + (n + 255) / 256

/-- The runs of `len` bytes that begin `skip` bytes into some runs. -/
def imageRuns : List Run → Nat → Nat → List Run
  | [], _, _ => []
  | r :: rest, skip, len =>
    if r.len ≤ skip then imageRuns rest (skip - r.len) len
    else
      let n := min len (r.len - skip)
      if n = 0 then [] else { place := r.place.shift skip, len := n } :: imageRuns rest 0 (len - n)

/-- Whether pieces of an image that a TLD loads into a slot are on their way. -/
def State.tileFlies (s : State) (c : CoreKey) (n : Nat) : Bool :=
  let p (x : Cargo) : Bool := match x with
    | .read (.tile _ d m) _ _ _ => d == c && m == n
    | _ => false
  s.fabric.carries p || s.fabric.cut.any fun f => p f.cargo

/-- TLD (R367). -/
def State.tldOp (s : State) (f : TFmt) : Host.Outcome State Fault Refusal :=
  s.withIssuer fun k g c =>
    let n := f.slot.toNat
    let us := useScalars [useOf f.s true 1]
    let r := g.segReg (f.u.extractLsb' 4 4).toNat
    let w := s.whoOf k g
    let o := (g.uniform f.s).toNat
    let sc : Bool := f.fl = 1#1
    let len := if sc then 20488 else 16384
    let step := if sc then 20544 else 16384
    let cores := s.slotCores k g.team n
    let total := if cores.length = 2 then step + len else len
    let sel := r.sel.toNat
    let at_ (cs : Cause) (lin : Nat) : Trap := { cause := cs, aux := 0#32, ofs := o, sel := sel, lin := lin }
    let first : Option Trap := if o % 64 ≠ 0 then some (at_ .align 0) else s.segCheck w r .read true total 1 [(0, (o : Int))]
    s.matIssue k g c (touchScalars us) (f.u.extractLsb' 0 4 != 0#4 || decide (96 ≤ n)) (badIf (!isScalarOrImm f.s) f.s)
      first ((s.slotActs k.die n (fun x => x.tld g.team) cores).trap n)
      (if s.acquiring k g then s.waitAcquire k g
       else match s.reachSeg w (s.team? g.team) r .image o total with
         | (.hole, s1) => s1.raise k g (at_ .segLimit 0)
         | (.fault x lin, s1) =>
           s1.pageFault k g x (at_ .pageLoad lin) false g.pos .instr
         | (.runs rs, s1) =>
           if (s1.refreshEnd rs).isSome then s1.hold k g
           else if s1.spoiled rs then s1.raise k g (at_ .eccUncorr (r.base.toNat + o))
           else match s1.slotActs k.die n (fun x => x.tld g.team) cores with
             | .bad x => s1.raise k g (slotTrap n x)
             | .wait => s1.hold k g
             | .ok xs =>
               let bytes := s1.readRuns rs
               let image (i : Nat) (x : Tile) : Tile :=
                 let b := (bytes.drop (step * i)).take len
                 { x with bytes := tblOfBytes 0 b ++ (if sc then [] else x.bytes.filter fun e => scaleBase ≤ e.1) }
               let s2 := s1.putTiles k.die n ((xs.zip (List.range xs.length)).map fun e => (e.1.1, image e.2 e.1.2))
               let s3 := s2.advance k { g with irrev := true } c 1 none
               xs.foldl (fun t e =>
                 (t.after (imageClk w rs total) (.tileLoadLand ⟨k.die, e.1⟩ n)).sendReads k.die (.tile k ⟨k.die, e.1⟩ n) g.team w.ctx
                   (if xs.length = 2 then imageRuns rs (if e.1 = k.core then 0 else step) len else rs)) s3)

/-- TILE_LOAD_LAND: the last byte of a TLD lands, which waits for the pieces that cross links; a slot whose owner has exited is FREE. -/
def State.tileLoadLand (s : State) (c : CoreKey) (n : Nat) : State :=
  let x := s.tile c.die c.core n
  if x.state ≠ .filling || s.tileFlies c n then s
  else s.putTile c.die c.core n (if x.freeing then Tile.reset else { x with state := .full })

/-! ## FSUB, FEND -/

/-- A walk descriptor as it lies in memory (R221). -/
structure Walk where
  dbase : Nat
  pitch : Nat
  tstep : Nat
  sbase : Nat
  spitch : Nat
  bbase : Nat
  nt : Nat
  roleB : Bool
  pair : Bool
  sfmt : Nat
  bad : Bool
  deriving DecidableEq, Repr

def walkOf (bs : List Byte) : Walk :=
  let q (i : Nat) : BitVec 64 := BitVec.ofNat 64 (leNat ((bs.drop (8 * i)).take 8))
  let nt := pteBits (q 5) 0 8
  let sfmt := pteBits (q 5) 10 2
  { dbase := pteBits (q 0) 0 57, pitch := pteBits (q 1) 0 32, tstep := pteBits (q 1) 32 32, sbase := pteBits (q 2) 0 57,
    spitch := pteBits (q 3) 0 32, bbase := pteBits (q 4) 0 57, nt := nt, roleB := (q 5).getLsbD 8, pair := (q 5).getLsbD 9, sfmt := sfmt,
    bad := pteBits (q 0) 57 7 != 0 || pteBits (q 0) 0 6 != 0 || pteBits (q 1) 0 6 != 0 || pteBits (q 1) 32 6 != 0
      || pteBits (q 3) 32 32 != 0 || nt == 0 || sfmt == 3 || pteBits (q 5) 12 52 != 0 || q 6 != 0#64 || q 7 != 0#64 }

/-- The first slot of a ring that R221 refuses on a core. -/
def State.ringBad (s : State) (die core team : Nat) : List Nat → Option (Nat × Tile)
  | [] => none
  | n :: rest =>
    let x := if n < 96 then s.tile die core n else Tile.reset
    if decide (n < 96) && x.ownedBy team && x.state == .empty && !x.ring then s.ringBad die core team rest else some (n, x)

/-- FSUB from its descriptor on (R321 steps 5 to 7). -/
def State.subscribe (s : State) (k : GKey) (g : Group) (c : Clause) (base n : Nat) (bar : Option BarKey) (d : Walk) (occ : Nat) : State :=
  let fol := s.follower k.die k.core g.team
  let cores := k.core :: (if d.pair then fol.toList else [])
  let ring := (List.range n).map (base + ·)
  match cores.findSome? fun x => s.ringBad k.die x g.team ring with
  | some (m, x) => s.raise k g (slotTrap (m % 128) x)
  | none =>
    if d.bad || decide (255 < g.fd + d.nt) then s.raise k g (trapOf .illOperand (auxSpec g 0#8))
    else if d.pair && fol.isNone then s.raise k g (trapOf .pair 0#32)
    else match s.freeFeeder k.die with
      | none => s.desched k g .feeder
      | some f =>
        let x : Feeder :=
          { g := k, team := g.team, ctx := s.ctxOf g.team, base := base, len := n, dbase := d.dbase, pitch := d.pitch, tstep := d.tstep,
            sbase := d.sbase, spitch := d.spitch, bbase := d.bbase, nt := d.nt, roleB := d.roleB, pair := if d.pair then fol else none,
            sfmt := d.sfmt, next := 0, bar := bar, stopped := false, filling := false, faulted := false, lastLand := s.clk + 280 }
        let s1 := cores.foldl (fun t m => ring.foldl (fun u y => u.putTile k.die m y { u.tile k.die m y with ring := true }) t) s
        let s2 := s1.advance k { g.acquire s.clk 5 with fd := g.fd + d.nt, irrev := true } c occ none
        (s2.putFeeder k.die f x).feederTry k.die f false

/-- BSEL as R263 allows it where no barrier may stand. -/
def bselOrNone (b : BitVec 6) : Bool := b == 0#6 || bselOk b

/-- FSUB (R321). The read of the descriptor waits as a load of the group would (R166, R175). -/
def State.fsubOp (s : State) (f : EFmt) (x : ELong) : Host.Outcome State Fault Refusal :=
  s.withIssuer fun k g c =>
    let p := f.p.toNat - 0x80
    let base := f.q.toNat
    let us := useScalars [useOf f.p true 2, useOf x.x true 1]
    let r := g.segReg f.gd.toNat
    let w := s.whoOf k g
    if g.pending (touchScalars us) then s.hold k g
    else if f.gs != 0#4 || x.y != 0#8 || x.z1 != 0#2 || x.z2 != 0#6 || x.rsvd != 0#2 || decide (96 ≤ base) || !bselOrNone x.bsel then
      s.raise k g (trapOf .illField 0#32)
    else if !isEvenScalar f.p then s.raise k g (trapOf .illOperand (auxSpec g f.p))
    else if !isScalarOrImm x.x then s.raise k g (trapOf .illOperand (auxSpec g x.x))
    else
      let n := (g.uniform x.x).toNat
      let o := g.scalar64 p
      if n < 1 ∨ 16 < n then s.raise k g (trapOf .illOperand (auxSpec g x.x))
      else if g.speculative then s.desched k g .promotion
      else if s.acquiring k g then s.waitAcquire k g
      else match s.segCheck w r .read true 64 64 [(0, (o : Int))] with
        | some t => s.raise k g t
        | none =>
          match s.reachSeg w (s.team? g.team) r .read o 64 with
          | (.hole, s1) => s1.raise k g { cause := .segLimit, aux := 0#32, ofs := ofs48 o, sel := r.sel.toNat, lin := 0 }
          | (.fault e lin, s1) =>
            s1.pageFault k g e { cause := .pageLoad, aux := 0#32, ofs := ofs48 o, sel := r.sel.toNat, lin := lin } false g.pos .instr
          | (.runs rs, s1) =>
            if g.logOverlaps r.sel.toNat (r.base.toNat + o) 64 || s1.readHolds k g rs then s.hold k g
            else if s1.spoiled rs then
              s1.raise k g { cause := .eccUncorr, aux := 0#32, ofs := ofs48 o, sel := r.sel.toNat, lin := r.base.toNat + o }
            else
            let (bs, s2) := s1.loadRuns rs
            let (t, s3) := s2.tableClk
            s3.subscribe k g c base n ((s.team? g.team).bind fun tm => tm.barrier g.team x.bsel) (walkOf bs) (1 + t)

/-- FEND (R322). -/
def State.fendOp (s : State) : Host.Outcome State Fault Refusal :=
  s.withIssuer fun k g c =>
    let p := g.fieldP c
    let b := (p.extractLsb' 0 7).toNat
    if p.extractLsb' 7 17 != 0#17 || decide (96 ≤ b) then s.raise k g (trapOf .illField 0#32)
    else if g.speculative then s.raise k g (trapOf .illOperand (auxSpec g 0#8))
    else if s.acquiring k g then s.waitAcquire k g
    else
      let s1 := match (s.die k.die).feeders.find? fun e => e.2.team == g.team && e.2.g.core == k.core && e.2.base == b && feederLive e.1 e.2 with
        | some (f, x) => s.feederEnd k.die f x
        | none => s
      s1.advance k ((s1.group? k).getD g) c 1 none

/-! ## The instructions and events -/

/-- TCLM (0xb0). -/
def execTclm (f : TFmt) (s : State) : Host.Outcome State Fault Refusal := s.tclmOp f
/-- TREL (0xb1). -/
def execTrel (f : TFmt) (s : State) : Host.Outcome State Fault Refusal := s.trelOp f
/-- TLD (0xb2). -/
def execTld (f : TFmt) (s : State) : Host.Outcome State Fault Refusal := s.tldOp f
/-- FSUB (0xa8). -/
def execFsubFeeder (f : EFmt) (x : ELong) (s : State) : Host.Outcome State Fault Refusal := s.fsubOp f x
/-- FEND (0xa9). -/
def execFend (s : State) : Host.Outcome State Fault Refusal := s.fendOp
/-- TILE_LOAD_LAND. -/
def execTileLoadLand (s : State) : Host.Outcome State Fault Refusal :=
  match s.subject with
  | .tileLoadLand c n => .next (s.tileLoadLand c n)
  | _ => .fault .noSubject
/-- FEEDER_TILE_LAND. -/
def execFeederTileLand (s : State) : Host.Outcome State Fault Refusal :=
  match s.subject with
  | .feederTileLand d f => .next (s.feederTileLand d f)
  | _ => .fault .noSubject

end Sys2Proof.Machine
end

