-- ==== Sys2Proof/Machine/Matrix.lean ====
section
/-! DEFINITION. The matrix array (R210 to R216, R225 to R234): MMA and MMAS (R368 to R370), windows and clears (R371, R372), ALD
and AST (R373, R374), drains (R375, R376), pairs (R377), and the operations as they start, retire and complete. -/

namespace Sys2Proof.Machine

/-! ## The array -/

def State.arr (s : State) (die core : Nat) : Arr := (s.core die core).arr
def State.putArr (s : State) (die core : Nat) (x : Arr) : State := s.updCore die core fun c => { c with arr := x }
def State.updArr (s : State) (die core : Nat) (f : Arr → Arr) : State := s.putArr die core (f (s.arr die core))

/-- The sub-arrays of an array (R210). -/
def subArrays : Nat := 32

/-- Element (i, j) as the accumulator table numbers it (R210). -/
def accIndex (i j : Nat) : Nat := 512 * i + j
def Arr.elem (a : Arr) (i j : Nat) : Word := a.acc.get 0#32 (accIndex i j)
/-- Write an accumulator; +0 is not listed. -/
def Arr.putElem (a : Arr) (i j : Nat) (v : Word) : Arr :=
  { a with acc := if v = 0#32 then a.acc.del (accIndex i j) else a.acc.put (accIndex i j) v }

/-- The team of the follower's core in a pair: a member of the leader team's cluster (R213). -/
def State.memberOn (s : State) (team core : Nat) : Option Nat :=
  (s.team? team).bind fun t => (s.clusters.find t.cluster).bind fun c =>
    c.members.find? fun m => ((s.team? m).map fun x => x.core == core && x.die == t.die).getD false

/-- Whether a core leads a pair, and whether a team is its follower's (R213, R215). -/
def State.leads (s : State) (die core : Nat) : Bool :=
  match (s.arr die core).pair with
  | some (l, _) => l == core
  | none => false

def State.follows (s : State) (die core team : Nat) : Bool :=
  match (s.arr die core).pair with
  | some (l, f) => f == core && (match (s.arr die l).owner with
    | some o => s.memberOn o core == some team
    | none => false)
  | none => false

/-- Ownership of the array (R211): taken with every accumulator set to +0 in 256 clk, or waited for. A slaved array waits for the end
of its pair, but for the follower's own team. -/
def State.owning (s : State) (k : GKey) (g : Group) (go : State) : State :=
  let a := s.arr k.die k.core
  let slaved : Bool := match a.pair with
    | some (_, f) => f == k.core && !s.follows k.die k.core g.team
    | none => false
  match a.owner with
  | some o => if o ≠ g.team then s.desched k g .owner else if s.clk < a.zeroUntil then s.hold k g else go
  | none =>
    if slaved then s.desched k g .owner
    else (s.putArr k.die k.core { a with owner := some g.team, acc := [], zeroUntil := s.clk + 256 }).hold k g

/-- The rows of an array that an operation in its queue writes (R216, R226). -/
def MatOp.rowsOn (o : MatOp) (follower : Bool) : Nat :=
  if o.n = 0 ∨ (o.k = 0 ∧ !o.clr) then 0 else if follower then o.m - 256 else min o.m 256

/-- Whether the row block of a row is busy on a core (R226). -/
def Arr.busyRow (a : Arr) (core r : Nat) : Bool :=
  let follower : Bool := match a.pair with
    | some (_, f) => f == core
    | none => false
  a.queue.any fun o => decide (r / 8 * 8 < o.rowsOn follower)

/-- Look again at what waits for an array of a die to be idle: pairs, their ends, teams that have exited. -/
def State.matrixLook (s : State) (die : Nat) : State :=
  let s1 := s.groups.foldl (fun t e =>
    let k := keyOfNum e.1
    if k.die ≠ die then t
    else match e.2.run with
      | .waiting .pairBind => t.post (t.clk + 1) (.pairBind ⟨k.die, k.core⟩)
      | .waiting .pairEnd => t.post (t.clk + 1) (.pairEnd ⟨k.die, k.core⟩)
      | _ => t) s
  s1.teams.foldl (fun t e => if e.2.die = die ∧ e.2.groups.isEmpty then t.post t.clk (.teamRetire e.1) else t) s1

/-- The ME counter of a group falls (R234). -/
def State.meFall (s : State) (k : GKey) (team : Nat) : State :=
  s.updGroup k fun h => if h.team = team then { h with me := h.me - 1 } else h

/-! ## The words an operation multiplies (R201, R207, R218) -/

/-- K-span of an operand format (R218). -/
def kSpan (code : Nat) : Nat := if code = 1 ∨ code = 2 then 32 else if code = 5 then 128 else 64

/-- The formats and ACCF that MMA and MMAS accept (R202). -/
def handMatOk (hand : Word) : Bool :=
  let a := (bits hand 0 4).toNat
  let b := (bits hand 4 4).toNat
  let c := (bits hand 8 2).toNat
  if a = 6 ∨ b = 6 then a == 6 && b == 6 && c == 2
  else (c == 0 || c == 1) && (((a == 3 || a == 4) && (b == 3 || b == 4)) || (a == b && (a == 1 || a == 2 || a == 5)))

def fmtOfCode (code : Nat) : Fmt :=
  match code with
  | 1 => fp16
  | 2 => bf16
  | 3 => e4m3
  | 4 => e5m2
  | _ => e2m1

/-- The bytes of a slot in an array. -/
def Tile.array (x : Tile) : Array Byte :=
  x.bytes.foldl (fun a e => a.setIfInBounds e.1 e.2) (Array.replicate 20488 0#8)

/-- K element `k` of row or column `r` (R218, R198). -/
def matElem (level : Nat) (hand : Word) (code : Nat) (a : Array Byte) (r k : Nat) : FV :=
  let b (i : Nat) : Nat := (a.getD i 0#8).toNat
  if code = 6 then
    let n := signedOf (b (64 * r + k)) 8
    .fin (decide (n < 0)) n.natAbs 0
  else if code = 1 ∨ code = 2 then readElem level hand (fmtOfCode code) (b (64 * r + 2 * k) + 256 * b (64 * r + 2 * k + 1))
  else if code = 5 then readElem level hand e2m1 (b (64 * r + k / 2) / 16 ^ (k % 2) % 16)
  else readElem level hand (fmtOfCode code) (b (64 * r + k))

/-- The scales of a chunk of row or column `r`: none in an MMA (R218). -/
def matScales (level : Nat) (scaled : Bool) (code : Nat) (a : Array Byte) (r c : Nat) : List FV :=
  let b (i : Nat) : Nat := (a.getD i 0#8).toNat
  if !scaled then []
  else if code = 3 ∨ code = 4 then [ue8m0 (b (scaleBase + r))]
  else if code = 5 then
    let band := b (bandBase + 2 * (r / 64)) + 256 * b (bandBase + 2 * (r / 64) + 1)
    [e3m5 (b (scaleBase + 16 * r + c)), decodeF bf16 (if level = 1 then flushSub bf16 band else band)]
  else []

/-- The elements of a row or column, and the scales of its chunks. -/
structure MatLine where
  elems : Array FV
  scales : Array (List FV)

def matLine (level : Nat) (hand : Word) (scaled : Bool) (code kv : Nat) (a : Array Byte) (r : Nat) : MatLine :=
  { elems := ((List.range kv).map (matElem level hand code a r)).toArray,
    scales := ((List.range 16).map (matScales level scaled code a r)).toArray }

def FV.toInt : FV → Int
  | .fin s m _ => if s then -(m : Int) else m
  | _ => 0

/-- One accumulator over the chunks of a K-span (R207, R370). -/
def matDot (level : Nat) (code kv : Nat) (x y : MatLine) (acc : Word) : Word :=
  let ch := if code = 5 then 8 else 32
  let z : FV := .fin false 0 0
  (List.range ((kv + ch - 1) / ch)).foldl (fun w c =>
    let ks := (List.range (min ch (kv - ch * c))).map (ch * c + ·)
    if code = 6 then w + BitVec.ofInt 32 (ks.foldl (fun (t : Int) k => t + (x.elems.getD k z).toInt * (y.elems.getD k z).toInt) 0)
    else accAdd level w (chunkSum (ks.map fun k =>
      product (x.elems.getD k z :: y.elems.getD k z :: (x.scales.getD c [] ++ y.scales.getD c []))))) acc

/-- Change the accumulators of rising numbers. -/
def accUpdate (f : Nat → Word → Word) : List Nat → Tbl Word → Tbl Word
  | [], t => t
  | i :: rest, t =>
    let low := t.takeWhile fun e => decide (e.1 < i)
    let high := t.dropWhile fun e => decide (e.1 < i)
    let (old, more) : Word × Tbl Word := match high with
      | (j, w) :: r => if j = i then (w, r) else (0#32, high)
      | [] => (0#32, [])
    let v := f i old
    low ++ (if v = 0#32 then accUpdate f rest more else (i, v) :: accUpdate f rest more)

/-- The elements of a rectangle of rows from 0 on, in rising order. -/
def rectIndices (rows cols : Nat) : List Nat := (List.range rows).flatMap fun i => (List.range cols).map (accIndex i)

/-- The effect of an operation on the array of one core (R370, R228). -/
def State.matEffect (s : State) (die core rows : Nat) (o : MatOp) : State :=
  if rows = 0 ∨ o.n = 0 ∨ (o.k = 0 ∧ !o.clr) then s
  else
    let level := ((s.ctx die (s.ctxOf o.team)).clev).toNat % 4
    let ca := (bits o.hand 0 4).toNat
    let cb := (bits o.hand 4 4).toNat
    let side (code slot : Nat) : Array MatLine :=
      let a := (s.tile die core slot).array
      ((List.range 256).map (matLine level o.hand o.scaled code o.k a)).toArray
    let a := side ca o.a
    let b0 := side cb o.b0
    let b1 := if o.n ≤ 256 then #[] else side cb o.b1
    let z : MatLine := { elems := #[], scales := #[] }
    let cell (n : Nat) (old : Word) : Word :=
      let j := n % 512
      let col := if j < 256 then b0.getD j z else b1.getD (j - 256) z
      matDot level ca o.k (a.getD (n / 512) z) col (if o.clr then 0#32 else old)
    s.updArr die core fun x => { x with acc := accUpdate cell (rectIndices rows o.n) x.acc }

/-! ## MMA and MMAS (R368 to R370) -/

/-- The slots an operation reads, with their cores (R228); with Kvalid = 0 they are checked and waited for, and not read. -/
def matReads (core : Nat) (fol : Option Nat) (a b0 b1 m n : Nat) : List (Nat × Nat) :=
  if m = 0 ∨ n = 0 then []
  else
    let slots := (a :: b0 :: (if 256 < n then [b1] else [])).dedup
    let cores := core :: (if 256 < m then fol.toList else [])
    cores.flatMap fun c => slots.map fun x => (c, x)

/-- Whether a slot raises SLOT_STATE when an operation of a team reads it (R219). -/
def Tile.unreadable (x : Tile) (team : Nat) : Bool := !x.ownedBy team || (x.state == .empty && !x.ring)

/-- A slot as an operation of a core meets it: a follower's copy counts as of a ring while its leader's copy of the same team is of one, though a walk
without PAIR delivers to the leader alone (R380; log 135). -/
def State.seenTile (s : State) (die own core n team : Nat) : Tile :=
  let x := s.tile die core n
  let y := s.tile die own n
  { x with ring := x.ring || (y.ring && y.ownedBy team) }

/-- The cores an operation runs on. -/
def State.opCores (s : State) (die core : Nat) (pair : Bool) : List Nat :=
  match (s.arr die core).pair with
  | some (_, f) => if pair then [core, f] else [core]
  | none => [core]

/-- Post the start of the first operation of a core that has not started, once the arrays it runs on are free but for its fill
(R233). -/
def State.armMatrix (s : State) (die core : Nat) : State :=
  match (s.arr die core).queue.find? fun o => o.start.isNone with
  | none => s
  | some o =>
    let t := (s.opCores die core o.pair).foldl (fun m c => max m ((s.arr die c).busyUntil - 12)) s.clk
    (s.unpost (.matrixOpStart ⟨die, core⟩ o.id)).post t (.matrixOpStart ⟨die, core⟩ o.id)

/-- MMA and MMAS once their slots are FULL: ownership, the queue, the counter, issue. -/
def State.matLaunch (s : State) (k : GKey) (g : Group) (c : Clause) (o : MatOp) : State :=
  s.owning k g
    (let cores := s.opCores k.die k.core o.pair
     if (cores.any fun x => 4 ≤ (s.arr k.die x).queue.length) || decide (255 ≤ g.me) then s.hold k g
     else
       let (id, s1) := s.newId
       let s2 := cores.foldl (fun t x => t.updArr k.die x fun a => { a with queue := a.queue ++ [{ o with id := id }] }) s1
       let s3 := o.reads.foldl (fun t e =>
         let y := t.tile k.die e.1 e.2
         t.putTile k.die e.1 e.2 { y with readers := y.readers + 1 }) s2
       (s3.advance k { g with me := g.me + 1, irrev := true } c 1 none).armMatrix k.die k.core)

/-- A count of MMA and MMAS: a per-lane one is that of the lowest active lane (R227); with no active lane it is no count, and is checked as 0
(log 123). -/
def State.countOf (s : State) (k : GKey) (g : Group) (b : BitVec 8) : Nat :=
  let src : Src := { spec := b, pat := 0, par := 0, dead := false, kind := .int }
  match lowest g.exec with
  | some l => (s.deliver k g src l).toNat
  | none => if isScalarOrImm b then (s.deliver k g src 0).toNat else 0

/-- MMA and MMAS. -/
def State.mmaOp (s : State) (scaled : Bool) (f : XFmt) (x : XLong) : Host.Outcome State Fault Refusal :=
  s.withIssuer fun k g c =>
    let src (b : BitVec 8) : Src := { spec := b, pat := 0, par := 0, dead := false, kind := .int }
    let us := [(src x.m).use, (src x.n).use, (src x.k).use]
    let bar := x.bar.toNat
    if g.pending { regs := g.useRegs us, scalars := useScalars us, preds := [] } then s.hold k g
    else if x.rsvd != 0#2 || decide (96 ≤ f.a.toNat) || decide (96 ≤ f.b0.toNat) || decide (96 ≤ f.b1.toNat)
        || (bar != 0 && decide (bar < 8)) then s.raise k g (trapOf .illField 0#32)
    else match [x.m, x.n, x.k].find? fun b => !isSource b with
      | some b => s.raise k g (trapOf .illOperand (auxSpec g b))
      | none => match g.check128 us with
        | some t => s.raise k g t
        | none =>
          if !handMatOk g.hand then s.raise k g (trapOf .illField 0#32)
          else
            let v := s.countOf k g
            let pair : Bool := f.pair = 1#1
            let fol := if pair then s.follower k.die k.core g.team else none
            let m := v x.m
            let n := v x.n
            let kv := v x.k
            let bad : Option (BitVec 8) :=
              if (if pair then 512 else 256) < m then some x.m
              else if 512 < n then some x.n
              else if kSpan (bits g.hand 0 4).toNat < kv then some x.k
              else none
            let reads := matReads k.core fol f.a.toNat f.b0.toNat f.b1.toNat m n
            let first : Option Trap :=
              if (pair && !s.leads k.die k.core) || s.follows k.die k.core g.team then some (trapOf .pair 0#32)
              else match bad with
                | some b => some (trapOf .illOperand (auxSpec g b))
                | none => (reads.find? fun e => (s.seenTile k.die k.core e.1 e.2 g.team).unreadable g.team).map fun e => slotTrap e.2 (s.tile k.die e.1 e.2)
            s.matGo k g c first none
              (if reads.any fun e => (s.tile k.die e.1 e.2).state != .full then s.hold k g
               else
                 let bk := if bar = 0 then none
                   else (s.team? g.team).bind fun t => t.barrier g.team (BitVec.ofNat 6 (32 + bar % 8))
                 s.matLaunch k g c
                   { id := 0, g := k, team := g.team, scaled := scaled, pair := pair, clr := x.clr = 1#1, rel := x.rel = 1#1, bar := bk,
                     hand := g.hand, m := m, n := n, k := kv, a := f.a.toNat, b0 := f.b0.toNat, b1 := f.b1.toNat,
                     reads := if kv = 0 then [] else reads, start := none })

/-- Change an operation in the queues of the cores it runs on. -/
def State.updOp (s : State) (die : Nat) (cores : List Nat) (id : Nat) (f : MatOp → MatOp) : State :=
  cores.foldl (fun t c => t.updArr die c fun a => { a with queue := a.queue.map fun o => if o.id = id then f o else o }) s

/-- The drains of a core still reading rows that an operation writes (R226). -/
def Arr.readUntil (a : Arr) (rows : Nat) : Nat :=
  a.drains.foldl (fun m d => if !d.clear ∧ d.row / 8 * 8 < rows ∧ 0 < d.rows then max m d.readEnd else m) 0

/-- MATRIX_OP_START: an operation starts on its array or arrays: they wake, fill and compute (R212, R233). -/
def State.matrixOpStart (s : State) (ck : CoreKey) (id : Nat) : State :=
  let a := s.arr ck.die ck.core
  match a.queue.find? fun o => o.start.isNone with
  | none => s
  | some o =>
    if o.id ≠ id || a.frozen then s
    else
      let cores := s.opCores ck.die ck.core o.pair
      let gated := cores.any fun c => (List.range subArrays).any fun q => (s.arr ck.die c).gated.get true q
      let wake := if gated then 96 else 0
      let ready := cores.foldl (fun m c =>
        let x := s.arr ck.die c
        max m (max x.busyUntil (x.readUntil (o.rowsOn (c ≠ ck.core))))) (s.clk + wake + 12)
      let done := ready + 64
      let idle := 64 * (s.die ck.die).mgate.toNat
      let s1 := s.updOp ck.die cores id fun p => { p with start := some ready }
      let s2 := cores.foldl (fun t c =>
        let was := (t.arr ck.die c).gated
        let u := t.updArr ck.die c fun x => { x with busyUntil := done, lastUse := (List.range subArrays).map fun q => (q, done),
                                                     gated := (List.range subArrays).map fun q => (q, false) }
        if idle = 0 then u
        else (List.range subArrays).foldl (fun v q =>
          if was.get true q then v.post (done + idle) (.subarrayGate ⟨ck.die, c⟩ q) else v) u) s1
      (s2.post (done + 4) (.matrixOpRetire ck id)).armMatrix ck.die ck.core

/-- SUBARRAY_GATE: a sub-array that has been idle for MGATE.IDLE is gated (R212). -/
def State.subarrayGate (s : State) (ck : CoreKey) (q : Nat) : State :=
  let a := s.arr ck.die ck.core
  let idle := 64 * (s.die ck.die).mgate.toNat
  let due := a.lastUse.get 0 q + idle
  if idle = 0 || a.gated.get true q then s
  else if due ≤ s.clk then s.updArr ck.die ck.core fun x => { x with gated := x.gated.put q true }
  else s.post due (.subarrayGate ck q)

/-- MATRIX_OP_RETIRE: the effect stands, readers leave their slots, REL releases them, the counter falls and the barrier is told, in
this order (R370, R229). -/
def State.matrixOpRetire (s : State) (ck : CoreKey) (id : Nat) : State :=
  match (s.arr ck.die ck.core).queue.find? fun o => o.id = id with
  | none => s
  | some o =>
    let cores := s.opCores ck.die ck.core o.pair
    let s1 := cores.foldl (fun t c => t.matEffect ck.die c (o.rowsOn (c ≠ ck.core)) o) s
    let s2 := o.reads.foldl (fun t e =>
      let y := t.tile ck.die e.1 e.2
      let y1 : Tile := { y with readers := y.readers - 1 }
      t.putTile ck.die e.1 e.2 (if o.rel && y1.readers == 0 && y1.state == .full then y1.emptied else y1)) s1
    let s3 := cores.foldl (fun t c => t.updArr ck.die c fun a => { a with queue := a.queue.filter fun p => p.id ≠ id }) s2
    let s4 := s3.meFall o.g o.team
    let s5 := match o.bar with
      | some b => s4.post s4.clk (.barrierArrive b (.arriveMma o.g o.team))
      | none => s4
    (s5.feederPoke ck.die).matrixLook ck.die

/-! ## Windows (R225, R226, R371) -/

/-- The lowest row of a range outside a group's window (R372, R376). -/
def Group.outside (g : Group) (first count : Nat) : Option Nat :=
  if count = 0 then none
  else if first < g.awb ∨ g.awl ≤ first then some first
  else if g.awl < first + count then some g.awl
  else none

/-- ACC_WINDOW with a row, capped (R268). -/
def windowTrap (r : Nat) : Trap := trapOf .accWindow (BitVec.ofNat 32 (min r 0x1ff))

/-- AWIN. -/
def State.awinOp (s : State) (f : TFmt) : Host.Outcome State Fault Refusal :=
  s.withIssuer fun k g c =>
    let grp := (f.slot.extractLsb' 0 5).toNat
    let lo := (g.uniform f.s).toNat
    let hi := (g.uniform f.u).toNat
    let bad : Option Trap :=
      if (s.team? g.team).all fun tm => decide (tm.count ≤ grp ∨ hi < lo ∨ 256 < hi) then some (trapOf .illOperand (auxSpec g 0#8)) else none
    s.matIssue k g c (touchScalars (useScalars [useOf f.s true 1, useOf f.u true 1]))
      (f.fl != 0#1 || f.slot.extractLsb' 5 2 != 0#2)
      ((badIf (!isScalarOrImm f.s) f.s).orElse fun _ => badIf (!isScalarOrImm f.u) f.u)
      (if g.num ≠ 0 then some (trapOf .accWindow 0#32) else none) bad
      (s.owning k g
        (match bad with
         | some t => s.raise k g t
         | none =>
           let s1 := s.advance k { g with irrev := true } c 1 none
           match (s.team? g.team).bind fun tm => tm.groups.find? fun e => e.1 = grp with
           | some (_, slot) => s1.updGroup ⟨k.die, k.core, slot⟩ fun h => { h with awb := lo, awl := hi }
           | none => s1))

/-- A clear or a drain raises the ME counter, waits for its row blocks and goes (R372, R376); `rows` from `row` on. -/
def State.meStart (s : State) (k : GKey) (g : Group) (row rows : Nat) (go : Group → State) : State :=
  if g.half = .fresh ∧ 255 ≤ g.me then s.hold k g
  else
    let g1 : Group := if g.half = .fresh then { g with me := g.me + 1, half := .sent, irrev := true } else g
    if 0 < rows ∧ (s.arr k.die k.core).busyRow k.core row then s.hold k g1 else go g1

/-- Set rows to +0. -/
def Arr.clearRows (a : Arr) (first count : Nat) : Arr :=
  { a with acc := a.acc.filter fun e => !(decide (first ≤ e.1 / 512) && decide (e.1 / 512 < first + count)) }

def State.addDrain (s : State) (k : GKey) (d : Drain) : State :=
  s.updArr k.die k.core fun a => { a with drains := a.drains ++ [d] }

/-- ACLR. -/
def State.aclrOp (s : State) (f : TFmt) : Host.Outcome State Fault Refusal :=
  s.withIssuer fun k g c =>
    let first := (g.uniform f.s).toNat
    let count := (g.uniform f.u).toNat
    s.matIssue k g c (touchScalars (useScalars [useOf f.s true 1, useOf f.u true 1])) (f.fl != 0#1 || f.slot != 0#7)
      ((badIf (!isScalarOrImm f.s) f.s).orElse fun _ => badIf (!isScalarOrImm f.u) f.u)
      (if g.half ≠ .fresh then none else (g.outside first count).map windowTrap) none
      (s.meStart k g first count fun g1 =>
         let (id, s1) := s.newId
         let d : Drain :=
           { id := id, g := k, team := g.team, ctx := s.ctxOf g.team, clear := true, add := false, hand := g.hand, row := first, rows := count,
             col := 0, cols := 512, ofs := 0, pitch := 0, seg := SegReg.null, values := [], readEnd := 0, leave := 0, faulted := false, told := [],
             frozen := false, sent := false, away := false }
         let s2 := (s1.updArr k.die k.core fun a => a.clearRows first count).addDrain k d
         (s2.advance k g1 c 1 none).post (s.clk + 4 + (count + 7) / 8) (.drainComplete ⟨k.die, k.core⟩ id))

/-! ## ALD and AST (R373, R374) -/

/-- The first cause of R374 steps 2 and 3. -/
def Group.accTrap (g : Group) (colSpec : BitVec 8) (rows cols : Nat → Nat) : Option Trap :=
  let act := lanesOf g.exec
  let out := act.filter fun l => rows l < g.awb || decide (g.awl ≤ rows l)
  match out with
  | l :: rest => some (windowTrap (rest.foldl (fun m j => min m (rows j)) (rows l)))
  | [] => match act.find? fun l => 512 ≤ cols l with
    | some l => some (trapOf .illOperand (BitVec.ofNat 32 (colSpec.toNat + 256 * l)))
    | none => none

/-- The lanes that act now, of those that have not: in ascending order, up to the first whose row block is busy (R374). -/
def State.accLanes (s : State) (k : GKey) (g : Group) (rows : Nat → Nat) : List Nat :=
  ((lanesOf g.exec).filter fun l => !g.acted.getLsbD l).takeWhile fun l => !(s.arr k.die k.core).busyRow k.core (rows l)

/-- What ALD and AST share: their checks, made once, and the lanes that act one after the other, each as its row block is free (R374). `go` lets
lanes act; its last argument says whether all have. -/
def State.accOp (s : State) (op : Nat) (v : VArgs) (go : GKey → Group → Clause → VShape → (Nat → Nat) → (Nat → Nat) → List Nat → Bool → State) :
    Host.Outcome State Fault Refusal :=
  s.withIssuer fun k g c =>
    match vShape op with
    | none => s.raise k g (trapOf .illOpc 0#32)
    | some sh =>
      if g.pending (g.vTouch v sh) then s.hold k g
      else match g.vTrap v op sh with
        | some t => s.raise k g t
        | none =>
          let rows (l : Nat) : Nat := (s.deliver k g (v.srcA sh) l).toNat
          let cols (l : Nat) : Nat := (s.deliver k g (v.srcB sh) l).toNat
          s.matGo k g c (if g.half = .fresh then g.accTrap v.b rows cols else none) none
            (let now := s.accLanes k g rows
             go k { g with half := .sent, acted := now.foldl (fun m l => m ||| 1#32 <<< l) g.acted } c sh rows cols now
               ((lanesOf g.exec).all fun l => g.acted.getLsbD l || now.contains l))

/-- ALD: the destination is pending until 16 clk after the last octet. -/
def State.aldOp (s : State) (v : VArgs) : Host.Outcome State Fault Refusal :=
  s.accOp 0xb8 v fun k g c sh rows cols now all =>
    let a := s.arr k.die k.core
    let regs := g.dstRegs v.d
    let occ := g.occupancy (v.uses sh) 0
    let (id, s1) := s.newId
    let ps0 : List Pend := (((lanesOf g.exec).map fun l => regs.getD l 0).dedup).map fun r => { id := id, on := .reg r, lanes := 0xffffffff#32 }
    let land (h : Group) : Group :=
      now.foldl (fun (u : Group) l => u.landReg (regs.getD l 0) l (leBytes 4 (a.elem (rows l) (cols l)).toNat)) h
    if all then
      let (g1, t) := (g.applyDead v).evictAll ps0
      let g2 := land g1
      let ps := ps0.map fun p => { p with due := s.clk + occ + t + 16 }
      s1.advance k { g2 with pend := ps ++ g2.pend } c (occ + t) none
    else s.hold k (if now.isEmpty then g else land (g.evictAll ps0).1)

/-- AST. -/
def State.astOp (s : State) (v : VArgs) : Host.Outcome State Fault Refusal :=
  s.accOp 0xb9 v fun k g c sh rows cols now all =>
    let s1 := s.updArr k.die k.core fun a => now.foldl (fun x l => x.putElem (rows l) (cols l) (s.deliver k g v.srcD l)) a
    if all then s1.advance k { g.applyDead v with irrev := true } c (g.occupancy (v.uses sh) 0) none
    else s1.hold k { g with irrev := g.irrev || !now.isEmpty }

/-! ## Drains (R230 to R232, R375, R376) -/

/-- Element size by ACCF. -/
def drainSize (hand : Word) : Nat := if bits hand 8 2 = 1#2 then 2 else 4

/-- An element as a plain drain writes it (R230). -/
def drainConv (level : Nat) (hand : Word) (x : Word) : Nat :=
  if bits hand 8 2 = 1#2 then (narrowTo level (satOf hand) bf16 (f32 x)).1 else x.toNat

/-- The destination with an accumulator added, rounded once (R230); a BF16 destination is an input that FTZ16 flushes (R201; log 95). -/
def drainAdd (level : Nat) (hand : Word) (old : Nat) (x : Word) : Nat :=
  match (bits hand 8 2).toNat with
  | 0 => (addF (ctx32 level) (decodeF fp32 old) (f32 x)).1
  | 1 => (addF { level := level, sat := satOf hand, f := bf16 } (readElem level hand bf16 old) (f32 x)).1
  | _ => (old + x.toNat) % 2 ^ 32

/-- The rows of a drain, each an offset and a length in bytes. -/
def Drain.pieces (d : Drain) : List (Nat × Nat) :=
  (List.range d.rows).map fun i => (d.ofs + i * d.pitch, d.cols * drainSize d.hand)

/-- The fault that counts of two (R156); a hole comes first. A type-2 page carries no add-on-store, whether the host has translated it or not
(R193, R231). -/
def drainFirst (need : Need) (a b : Option XFault × Nat) : Option XFault × Nat :=
  let rank (x : Option XFault × Nat) : Nat := (x.1.map fun f => match need, f with
    | .atomic, .ats _ => 1
    | _, f => f.rank).getD 0
  if rank b < rank a then b else a

/-- Reach every row of a drain. -/
def State.reachRows (s : State) (w : Who) (tm : Option Team) (r : SegReg) (need : Need) :
    List (Nat × Nat) → Except (Option XFault × Nat) (List (List Run)) × State
  | [] => (.ok [], s)
  | (o, n) :: rest =>
    let (x, s1) := s.reachSeg w tm r need o n
    let here : Except (Option XFault × Nat) (List Run) := match x with
      | .hole => .error (none, r.base.toNat + o)
      | .fault f lin => .error (some f, lin)
      | .runs rs => .ok rs
    let (more, s2) := s1.reachRows w tm r need rest
    match here, more with
    | .ok rs, .ok xs => (.ok (rs :: xs), s2)
    | .error e, .ok _ => (.error e, s2)
    | .ok _, .error e => (.error e, s2)
    | .error a, .error b => (.error (drainFirst need a b), s2)

/-- A run that reaches a register goes element by element. -/
def elemRuns (e : Nat) (rs : List Run) : List Run :=
  rs.flatMap fun r => match r.place with
    | .reg _ _ => (List.range (r.len / e)).map fun i => { place := r.place.shift (e * i), len := e }
    | _ => [r]

/-- Whether a place carries an add-on-store: pages of type 0, 1 and 3, and the team's own banks (R231). -/
def Place.addable : Place → Bool
  | .hbm _ _ => true
  | .scr _ _ _ => true
  | _ => false

/-- The page of the host's memory in which a place lies. -/
def Place.hostPage : Place → Option Nat
  | .host _ a => some (a / 65536)
  | _ => none

/-- An engine writes for a group: as the group, while that is there (R87), else as an engine. -/
def State.masterWrite (s : State) (k : GKey) (team ctx : Nat) (rs : List Run) (bs : List Byte) : State :=
  match s.group? k with
  | some g => if g.team = team then s.groupWrite k g rs bs else s.engineWrite ctx rs bs
  | none => s.engineWrite ctx rs bs

/-- The region table generation a team reads (R165). -/
def State.teamGen (s : State) (team : Nat) : Nat := (((s.team? team).bind fun t => s.host.launches.find t.launch).map (·.gen)).getD 0

/-- Bytes in elements of `e`. -/
def chunksOf (e : Nat) : Nat → List Byte → List Nat
  | 0, _ => []
  | n + 1, bs => leNat (bs.take e) :: chunksOf e n (bs.drop e)

/-- Write the rows of a drain, in order. -/
def State.drainRows (s : State) (d : Drain) (level : Nat) : List (List Run) → List Word → State
  | [], _ => s
  | rs :: rest, vs =>
    let e := drainSize d.hand
    let now := vs.take d.cols
    let out := if d.add then List.zipWith (drainAdd level d.hand) (chunksOf e d.cols (s.readRuns rs)) now
      else now.map (drainConv level d.hand)
    (s.masterWrite d.g d.team d.ctx (elemRuns e rs) (out.flatMap (leBytes e))).drainRows d level rest (vs.drop d.cols)

/-- The segment check of a drain (R376 step 4): ALIGN also for a pitch that is no multiple of the element. -/
def State.drainCheck (s : State) (w : Who) (r : SegReg) (add : Bool) (o pitch total e : Nat) : Option Trap :=
  let n := s.segStep { w with team := none } r (if add then .atomic else .write) true (o : Int) total e
  let n := if pitch % e = 0 then n else match n with
    | none => some 4
    | some 5 => some 4
    | x => x
  n.map fun i => { cause := segCause i, aux := 0#32, ofs := ofs48 o, sel := r.sel.toNat, lin := 0 }

/-- A drain is issued: its elements are read, and its writes leave in the order of the core's drains (R376). -/
def State.drainIssue (s : State) (k : GKey) (g : Group) (c : Clause) (d : Drain) (w : Who) (place : Option Place) : State :=
  s.meStart k g d.row (if d.cols = 0 then 0 else d.rows) fun g1 =>
    let (id, s1) := s.newId
    let a := s.arr k.die k.core
    let n := d.rows * d.cols
    let vals := (List.range d.rows).flatMap fun i => (List.range d.cols).map fun j => a.elem (d.row + i) (d.col + j)
    let from_ := a.drains.foldl (fun m x => max m x.leave) (s.clk + 8)
    let rate := if d.add then 32 else 64
    let leave := from_ + max ((n + 63) / 64) ((n * drainSize d.hand + rate - 1) / rate)
    let s2 := s1.addDrain k { d with id := id, values := vals, readEnd := s.clk + 8 + (n + 63) / 64, leave := leave }
    let half := match place with
      | some p => latencyOf w p / 2
      | none => 0
    (s2.advance k g1 c 1 none).after (leave - s.clk + half) (.drainComplete ⟨k.die, k.core⟩ id)

/-- ADRN. -/
def State.adrnOp (s : State) (f : XDFmt) (x : XDLong) : Host.Outcome State Fault Refusal :=
  s.withIssuer fun k g c =>
    let so := f.o.toNat - 0x80
    let q := x.rq.toNat - 0x80
    let us := useScalars [useOf f.o true 2, useOf f.pt true 1, useOf x.rq true 4]
    let add : Bool := x.add = 1#1
    if g.pending (touchScalars us) then s.hold k g
    else if f.z != 0#4 || x.z != 0#21 || x.rsvd != 0#2 then s.raise k g (trapOf .illField 0#32)
    else if !isEvenScalar f.o then s.raise k g (trapOf .illOperand (auxSpec g f.o))
    else if !isScalarOrImm f.pt then s.raise k g (trapOf .illOperand (auxSpec g f.pt))
    else if !isScalar x.rq || q % 4 != 0 then s.raise k g (trapOf .illOperand (auxSpec g x.rq))
    else if bits g.hand 8 2 = 3#2 then s.raise k g (trapOf .illField 0#32)
    else
      let r := g.segReg f.g.toNat
      let w := s.whoOf k g
      let tm := s.team? g.team
      let o := g.scalar64 so
      let pitch := (g.uniform f.pt).toNat
      let row := (g.scalar q).toNat
      let rows := (g.scalar (q + 1)).toNat
      let col := (g.scalar (q + 2)).toNat
      let cols := (g.scalar (q + 3)).toNat
      let e := drainSize g.hand
      let some_ : Bool := decide (0 < rows) && decide (0 < cols)
      let d : Drain :=
        { id := 0, g := k, team := g.team, ctx := s.ctxOf g.team, clear := false, add := add, hand := g.hand, row := row, rows := rows,
          col := col, cols := cols, ofs := o, pitch := pitch, seg := r, values := [], readEnd := 0, leave := 0, faulted := false, told := [],
          frozen := false, sent := false, away := false }
      let trap : Option Trap :=
        if g.half ≠ .fresh then none
        else match g.outside row rows with
          | some y => some (windowTrap y)
          | none =>
            if 512 < col + cols then some (trapOf .illOperand (auxSpec g x.rq))
            else if some_ then s.drainCheck w r add o pitch ((rows - 1) * pitch + cols * e) e else none
      let faultOf (cs : Cause) (lin : Nat) : Trap := { cause := cs, aux := 1#32, ofs := ofs48 o, sel := r.sel.toNat, lin := lin }
      s.matGo k g c trap none
        (if s.acquiring k g then s.waitAcquire k g
        else if !some_ then s.drainIssue k g c { d with rows := 0 } w none
        else match s.reachRows w tm r (if add then .atomic else .write) d.pieces with
          | (.error (none, _), s1) =>
            s1.raise k g { cause := .segLimit, aux := 0#32, ofs := ofs48 o, sel := r.sel.toNat, lin := 0 }
          | (.error (some .folioWrite, _), s1) =>
            s1.raise k g { cause := .segRights, aux := 0#32, ofs := ofs48 o, sel := r.sel.toNat, lin := 0 }
          | (.error (some .atomicPath, lin), s1) => s1.pageFault k g .atomicPath (faultOf .atomicPath lin) false g.pos .instr
          | (.error (some (.host true p), lin), s1) => s1.pageFault k g (.host true p) (faultOf .atomicPath lin) false g.pos .instr
          | (.error (some (.ats p), lin), s1) =>
            if add then s1.pageFault k g (.host true p) (faultOf .atomicPath lin) false g.pos .instr else s1.drainIssue k g c d w none
          | (.error (some _, _), s1) => s1.drainIssue k g c d w none
          | (.ok rss, s1) =>
            if add && rss.any (fun rs => rs.any fun y => !y.place.addable) then
              (match rss.flatten.findSome? fun y => y.place.hostPage with
               | some p => s1.pageFault k g (.host true p) (faultOf .atomicPath (r.base.toNat + o)) false g.pos .instr
               | none => s1.pageFault k g .atomicPath (faultOf .atomicPath (r.base.toNat + o)) false g.pos .instr)
            else s1.drainIssue k g c d w ((rss.headD []).head?.map (·.place)))

/-- A drain or a clear is done. -/
def State.drainDone (s : State) (ck : CoreKey) (d : Drain) : State :=
  let s1 := s.updArr ck.die ck.core fun a => { a with drains := a.drains.filter fun x => x.id ≠ d.id }
  (s1.meFall d.g d.team).matrixLook ck.die

def State.updDrain (s : State) (ck : CoreKey) (id : Nat) (f : Drain → Drain) : State :=
  s.updArr ck.die ck.core fun a => { a with drains := a.drains.map fun x => if x.id = id then f x else x }

/-- A drain meets a fault: it is held with one record of KIND 01 for each page that faults, and replays (R231); a violation freezes the engine (R24). -/
def State.drainFault (s : State) (ck : CoreKey) (d : Drain) (f : XFault) (lin : Nat) : State :=
  let rec_ : FaultRec := { lin := lin, ec := f.cause false, kind := 1, hostfail := false, core := ck.core, slot := d.g.slot,
                           sel := d.seg.sel.toNat, ofs := ofs48 (lin - d.seg.base.toNat : Nat) }
  match f with
  | .violation set =>
    let s1 := s.violate set .req { die := ck.die, core := ck.core, kind := .matrix, slot := 0 } d.ctx
    (s1.updDrain ck d.id fun x => { x with frozen := true }).updArr ck.die ck.core fun a => { a with frozen := true }
  | _ =>
    let ev : Event := .faultRetry (.drain ck d.id)
    let key := 4 * (lin / 65536) + (match f with
      | .ats _ => 1
      | .host _ _ => 2
      | .s2 _ => 3
      | _ => 0)
    let s1 := ((s.updDrain ck d.id fun x => { x with faulted := true, sent := false, away := false,
                                                     told := if x.told.contains key then x.told else x.told ++ [key] }).unpost ev).post (s.clk + 256) ev
    if d.told.contains key then s1
    else match f with
      | .ats p => s1.send (.ats ck.die d.ctx p)
      | .host _ p => s1.send (.ats ck.die d.ctx p)
      | .s2 _ => s1.hyperFault ck.die d.ctx rec_
      | _ => s1.report ck.die d.ctx rec_

/-- A piece of a drain meets a closed link: the engine halts at the drain, whose other pieces are given up (R24). -/
def State.drainCut (s : State) (h : Hop) (ck : CoreKey) (id ctx : Nat) : State :=
  let s1 := s.violate h.link h.cls { die := ck.die, core := ck.core, kind := .matrix, slot := 0 } ctx
  (s1.updDrain ck id fun d => { d with frozen := true, sent := false }).updArr ck.die ck.core fun a => { a with frozen := true }

/-- A piece of a drain comes to a link, or is home (R13, R22). -/
def State.drainHop (s : State) (ck : CoreKey) (id ctx : Nat) : List Hop → State
  | [] => s
  | h :: r => if (s.wall h.link).closed then s.drainCut h ck id ctx else s.sendFlit h (.drain ck id ctx r) 0

/-- Whether pieces of a drain are on their way over links. -/
def State.drainFlies (s : State) (ck : CoreKey) (id : Nat) : Bool :=
  s.fabric.carries fun x => match x with
    | .drain k j _ _ => k == ck && j == id
    | _ => false

/-- The pieces of at most 64 bytes of a drain that go to other dies, each with its hops. -/
def State.drainHops (s : State) (die : Nat) (rs : List Run) : List (List Hop) :=
  rs.flatMap fun r => List.replicate ((r.len + 63) / 64) (s.outHops die r.place .req)

/-- Whether a place lies behind a fabric port. -/
def Place.isFar (p : Place) : Bool :=
  match p with
  | .far _ _ => true
  | _ => false

/-- DRAIN_COMPLETE: the pieces of a drain set out over their links and, once the last is home, every element is written at once (R232); through a
fabric port the answer is still to come (R12). A clear has retired. A halted engine does nothing (R24). -/
def State.drainComplete (s : State) (ck : CoreKey) (id : Nat) : State :=
  match (s.arr ck.die ck.core).drains.find? fun d => d.id = id with
  | none => s
  | some d =>
    if (s.arr ck.die ck.core).frozen || s.drainFlies ck id then s
    else if d.clear || d.away then s.drainDone ck d
    else
      let w : Who := { die := ck.die, core := ck.core, ctx := d.ctx, copy := false, gen := s.teamGen d.team }
      match s.reachRows w (s.team? d.team) d.seg (if d.add then .atomic else .write) d.pieces with
      | (.error (some f, lin), s1) => s1.drainFault ck d f lin
      | (.error (none, _), s1) => s1.drainDone ck d
      | (.ok rss, s1) =>
        if d.add && rss.any (fun rs => rs.any fun y => !y.place.addable) then s1.drainFault ck d .atomicPath (d.seg.base.toNat + d.ofs)
        else
        let hs := (s1.drainHops ck.die rss.flatten).filter fun h => !h.isEmpty
        if !d.sent && !hs.isEmpty then
          hs.foldl (fun t h => t.drainHop ck id d.ctx h) (s1.updDrain ck id fun x => { x with sent := true })
        else
          let s2 := s1.drainRows d (((s.ctx ck.die d.ctx).clev).toNat % 4) rss d.values
          if rss.flatten.any fun r => r.place.isFar then
            (s2.updDrain ck id fun x => { x with away := true }).after 1200 (.drainComplete ck id)
          else s2.drainDone ck d

/-! ## Pairs (R213 to R215, R377) -/

/-- The neighbour that MPAIR names: east, or south. -/
def neighbour (core : Nat) (south : Bool) : Option Nat :=
  if south then (if core < 12 then some (core + 4) else none)
  else if core % 4 = 3 then none else some (core + 1)

/-- The follower an MPAIR would bind, where R213 allows it. -/
def State.pairFor (s : State) (die core team : Nat) (south : Bool) : Option Nat :=
  match neighbour core south with
  | none => none
  | some f =>
    match s.memberOn team f with
    | none => none
    | some ft =>
      let a := s.arr die core
      let b := s.arr die f
      if a.pair.isNone && b.pair.isNone && a.owner == some team && (b.owner == none || b.owner == some ft) then some f else none

/-- The checks of R213 for an MPAIR with EXEC = 0, which takes no array and waits for none: an array that it would take counts as its team's (log 123). -/
def State.pairCheck (s : State) (k : GKey) (g : Group) (south : Bool) : Option Trap :=
  let s1 := if (s.arr k.die k.core).owner.isNone then s.updArr k.die k.core fun a => { a with owner := some g.team } else s
  if (s1.pairFor k.die k.core g.team south).isNone then some (trapOf .pair 0#32) else none

/-- MPAIR. -/
def State.mpairOp (s : State) : Host.Outcome State Fault Refusal :=
  s.withIssuer fun k g c =>
    let p := g.fieldP c
    s.matIssue k g c (touchScalars []) (p.extractLsb' 1 23 != 0#23) none none (s.pairCheck k g (p.getLsbD 0))
      (if g.half = .done then s.advance k { g with irrev := true } c 1 none
       else s.owning k g
         (match s.pairFor k.die k.core g.team (p.getLsbD 0) with
          | none => s.raise k g (trapOf .pair 0#32)
          | some _ => (s.desched k { g with half := .sent } .pairBind).post (s.clk + 1) (.pairBind ⟨k.die, k.core⟩)))

/-- MUNPAIR. -/
def State.munpairOp (s : State) : Host.Outcome State Fault Refusal :=
  s.withIssuer fun k g c =>
    s.matIssue k g c (touchScalars []) (g.fieldP c != 0#24) none
      (if g.half ≠ .done && (s.follower k.die k.core g.team).isNone then some (trapOf .pair 0#32) else none) none
      (if g.half = .done then s.advance k { g with irrev := true } c 1 none
       else (s.desched k { g with half := .sent } .pairEnd).post (s.clk + 1) (.pairEnd ⟨k.die, k.core⟩))

/-- Whether nothing is in flight on an array. -/
def Arr.idle (a : Arr) : Bool := a.queue.isEmpty && a.drains.isEmpty

/-- PAIR_BIND: with both arrays idle, a waiting MPAIR binds its pair; one whose pair is no longer allowed comes again. -/
def State.pairBind (s : State) (ck : CoreKey) : State :=
  s.groups.foldl (fun t e =>
    let k := keyOfNum e.1
    if k.die ≠ ck.die ∨ k.core ≠ ck.core ∨ e.2.run ≠ .waiting .pairBind then t
    else match e.2.clause with
      | none => t
      | some c =>
        match t.pairFor k.die k.core e.2.team ((e.2.fieldP c).getLsbD 0) with
        | none => (t.putGroup k { e.2 with half := .fresh }).makeReady k t.clk
        | some f =>
          if (t.arr k.die k.core).idle && (t.arr k.die f).idle then
            let u := (t.updArr k.die k.core fun a => { a with pair := some (k.core, f) }).updArr k.die f fun a => { a with pair := some (k.core, f) }
            (u.putGroup k { e.2 with half := .done, irrev := true }).makeReady k t.clk
          else t) s

/-- The pair of a core ends: each array returns to its own owner, its accumulators unchanged (R214). -/
def State.unpair (s : State) (die core : Nat) : State :=
  match (s.arr die core).pair with
  | some (l, f) => (s.updArr die l fun a => { a with pair := none }).updArr die f fun a => { a with pair := none }
  | none => s

/-- Whether a pair operation is in flight on a core's pair. -/
def State.pairBusy (s : State) (die core : Nat) : Bool :=
  match (s.arr die core).pair with
  | some (l, f) => (s.arr die l).queue.any (·.pair) || (s.arr die f).queue.any (·.pair)
  | none => false

/-- PAIR_END: once every pair operation has retired, a waiting MUNPAIR ends the pair, which its group does not do again (R63). -/
def State.pairEnd (s : State) (ck : CoreKey) : State :=
  if s.pairBusy ck.die ck.core then s
  else s.groups.foldl (fun t e =>
    let k := keyOfNum e.1
    if k.die ≠ ck.die ∨ k.core ≠ ck.core ∨ e.2.run ≠ .waiting .pairEnd then t
    else ((t.unpair k.die k.core).putGroup k { e.2 with half := .done, irrev := true }).makeReady k t.clk) s

/-! ## The instructions and events -/

/-- MMA (0xb3). -/
def execMma (f : XFmt) (x : XLong) (s : State) : Host.Outcome State Fault Refusal := s.mmaOp false f x
/-- MMAS (0xb4). -/
def execMmas (f : XFmt) (x : XLong) (s : State) : Host.Outcome State Fault Refusal := s.mmaOp true f x
/-- AWIN (0xb5). -/
def execAwin (f : TFmt) (s : State) : Host.Outcome State Fault Refusal := s.awinOp f
/-- ACLR (0xb6). -/
def execAclr (f : TFmt) (s : State) : Host.Outcome State Fault Refusal := s.aclrOp f
/-- ADRN (0xb7). -/
def execAdrn (f : XDFmt) (x : XDLong) (s : State) : Host.Outcome State Fault Refusal := s.adrnOp f x
/-- ALD (0xb8). -/
def execAld (f : VFmt) (s : State) : Host.Outcome State Fault Refusal := s.aldOp (vShort f)
/-- ALD, long form. -/
def execAldLong (f : VFmt) (x : VLong) (s : State) : Host.Outcome State Fault Refusal := s.aldOp (vLong f x)
/-- AST (0xb9). -/
def execAst (f : VFmt) (s : State) : Host.Outcome State Fault Refusal := s.astOp (vShort f)
/-- AST, long form. -/
def execAstLong (f : VFmt) (x : VLong) (s : State) : Host.Outcome State Fault Refusal := s.astOp (vLong f x)
/-- MPAIR (0xba). -/
def execMpair (s : State) : Host.Outcome State Fault Refusal := s.mpairOp
/-- MUNPAIR (0xbb). -/
def execMunpair (s : State) : Host.Outcome State Fault Refusal := s.munpairOp
/-- MATRIX_OP_START. -/
def execMatrixOpStart (s : State) : Host.Outcome State Fault Refusal :=
  match s.subject with
  | .matrixOpStart c o => .next (s.matrixOpStart c o)
  | _ => .fault .noSubject
/-- MATRIX_OP_RETIRE. -/
def execMatrixOpRetire (s : State) : Host.Outcome State Fault Refusal :=
  match s.subject with
  | .matrixOpRetire c o => .next (s.matrixOpRetire c o)
  | _ => .fault .noSubject
/-- SUBARRAY_GATE. -/
def execSubarrayGate (s : State) : Host.Outcome State Fault Refusal :=
  match s.subject with
  | .subarrayGate c q => .next (s.subarrayGate c q)
  | _ => .fault .noSubject
/-- DRAIN_COMPLETE. -/
def execDrainComplete (s : State) : Host.Outcome State Fault Refusal :=
  match s.subject with
  | .drainComplete c d => .next (s.drainComplete c d)
  | _ => .fault .noSubject
/-- PAIR_BIND. -/
def execPairBind (s : State) : Host.Outcome State Fault Refusal :=
  match s.subject with
  | .pairBind c => .next (s.pairBind c)
  | _ => .fault .noSubject
/-- PAIR_END. -/
def execPairEnd (s : State) : Host.Outcome State Fault Refusal :=
  match s.subject with
  | .pairEnd c => .next (s.pairEnd c)
  | _ => .fault .noSubject

end Sys2Proof.Machine
end

