-- ==== Sys2Proof/Machine/Engine.lean ====
section
/-! DEFINITION. The copy engine (R317 to R320, R401): CPY, CPY2D, and its commands as they start, move and complete. -/

namespace Sys2Proof.Machine

def State.copies (s : State) (ck : CoreKey) : List CopyCmd := (s.core ck.die ck.core).copy
def State.putCopies (s : State) (ck : CoreKey) (l : List CopyCmd) : State := s.updCore ck.die ck.core fun c => { c with copy := l }
def State.updCopy (s : State) (ck : CoreKey) (id : Nat) (f : CopyCmd → CopyCmd) : State :=
  s.putCopies ck ((s.copies ck).map fun x => if x.id = id then f x else x)

/-- The commands a core's engine holds (R317). -/
def copyPlaces : Nat := 16

/-- A command joins its engine. -/
def State.addCopy (s : State) (ck : CoreKey) (x : CopyCmd) : State := (s.putCopies ck (s.copies ck ++ [x])).post s.clk (.copyStart ck)

/-- COPY_START: commands start in issue order as places among the four come free (R317). -/
def State.copyStart (s : State) (ck : CoreKey) : State :=
  let l := s.copies ck
  if 4 ≤ (l.filter (·.running)).length then s
  else match l.find? fun x => !x.running with
    | none => s
    | some x =>
      let s1 := (s.updCopy ck x.id fun y => { y with running := true }).post (max (s.clk + 1) (x.issued + 64)) (.copyBeat ck x.id)
      s1.post s1.clk (.copyStart ck)

/-- The master of a command (R401, R165). -/
def State.copyWho (s : State) (ck : CoreKey) (x : CopyCmd) : Who :=
  { die := ck.die, core := ck.core, ctx := x.ctx, copy := true, team := some x.team,
    gen := match x.node with
      | some (l, _) => ((s.host.launches.find l).map (·.gen)).getD 0
      | none => s.teamGen x.team }

/-- A fault record of a beat: KIND 00 for a source, 01 for a destination (R319); SLOT 0x1ff for a COPY node (R401). -/
def CopyCmd.record (x : CopyCmd) (ck : CoreKey) (c : Cause) (write : Bool) (lin : Nat) : FaultRec :=
  let r := if write then x.dst else x.src
  { lin := lin, ec := c, kind := bitOf write, hostfail := false, core := ck.core, slot := if x.node.isSome then 511 else x.g.slot,
    sel := r.sel.toNat, ofs := if x.node.isSome then 0 else ofs48 (lin - r.base.toNat : Nat) }

/-- The CE counter of a command's group falls in issue order (R317). -/
def State.ceFall (s : State) (x : CopyCmd) : State :=
  s.updGroup x.g fun h =>
    if h.team = x.team then { h with ceq := popDone (h.ceq.map fun e => if e.1 = x.id then (e.1, true) else e) } else h

/-- A command leaves the engine. -/
def State.copyGone (s : State) (ck : CoreKey) (x : CopyCmd) : State :=
  ((((s.putCopies ck ((s.copies ck).filter fun y => y.id ≠ x.id)).unpost (.copyBeat ck x.id)).unpost (.faultRetry (.copy ck x.id))).ceFall x).post
    s.clk (.copyStart ck)

/-- A node of a launch fails with a code, 0x10 but for LOADW and quotas (R37, R401). -/
def State.failNodeWith (s : State) (l n : Nat) (code : Byte) : State :=
  match s.host.launches.find l with
  | none => s
  | some x =>
    ((s.setHost { s.host with launches := s.host.launches.put l { x with runs := x.runs.set n (.running 0 true) } }).recordErr l code).post
      s.clk (.nodeFinish l n)

def State.failNode (s : State) (l n : Nat) : State := s.failNodeWith l n 0x10#8

/-- A node whose copy is cancelled fails (R401). -/
def State.copyLost (s : State) (x : CopyCmd) : State :=
  match x.node with
  | some (l, n) => s.failNode l n
  | none => s

/-- A command is cancelled: what it wrote remains, nothing is posted (R319, R401). -/
def State.copyCancel (s : State) (ck : CoreKey) (x : CopyCmd) (write : Bool) (lin : Nat) : State :=
  ((s.copyGone ck x).report ck.die x.ctx (x.record ck .perm write lin)).copyLost x

/-- A beat meets a fault (R319, R401, R24): PERM of either stage cancels the command, that of the second is told to the hypervisor (R155). -/
def State.copyFault (s : State) (ck : CoreKey) (x : CopyCmd) (f : XFault) (write : Bool) (lin : Nat) : State :=
  let ev : Event := .faultRetry (.copy ck x.id)
  let on : Nat × Bool × Nat := (f.rank, write, lin / 65536)
  let wait : State := ((s.updCopy ck x.id fun y => { y with stalled := some on }).unpost ev).post (s.clk + 256) ev
  match f with
  | .perm => s.copyCancel ck x write lin
  | .folioWrite => s.copyCancel ck x write lin
  | .atomicPath => s.copyCancel ck x write lin
  | .host _ _ => s.copyCancel ck x write lin
  | .violation set =>
    (s.violate set .req { die := ck.die, core := ck.core, kind := .copy, slot := 0 } x.ctx).updCopy ck x.id fun y => { y with frozen := true }
  | .noPage => if x.stalled = some on then wait else wait.report ck.die x.ctx (x.record ck .pageLoad write lin)
  | .ats p => if x.stalled = some on then wait else wait.send (.ats ck.die x.ctx p)
  | .s2 true => ((s.copyGone ck x).hyperFault ck.die x.ctx (x.record ck .perm write lin)).copyLost x
  | .s2 false => if x.stalled = some on then wait else wait.hyperFault ck.die x.ctx (x.record ck .pageLoad write lin)

/-- Reach a range of a command. -/
def State.copyReach (s : State) (ck : CoreKey) (x : CopyCmd) (write : Bool) (o n : Nat) : Except (XFault × Nat) (List Run) × State :=
  let r := if write then x.dst else x.src
  match s.reachSeg (s.copyWho ck x) (s.team? x.team) r (if write then .write else .read) o n with
  | (.runs rs, s1) => (.ok rs, s1)
  | (.hole, s1) => (.error (.perm, r.base.toNat + o), s1)
  | (.fault f lin, s1) => (.error (f, lin), s1)

/-- The parts of a range in pages of 64 KiB; `n` bounds them. -/
def pageParts : Nat → Nat → Nat → Nat → List (Nat × Nat)
  | 0, _, _, _ => []
  | n + 1, base, o, len =>
    if len = 0 then []
    else
      let now := min len (65536 - (base + o) % 65536)
      (o, now) :: pageParts n base (o + now) (len - now)

/-- What of the rest of a row's source a beat overwrites: whether some page of it lies in the places of the beat, and the first of its pages that
faults. A page that faults may turn out to lie there too. -/
def State.sourceMeets (s : State) (ck : CoreKey) (x : CopyCmd) (rs : List Run) : List (Nat × Nat) → Bool × Option (XFault × Nat) × State
  | [] => (false, none, s)
  | (o, n) :: rest =>
    let (r, s1) := s.copyReach ck x false o n
    let (hit, bad, s2) := s1.sourceMeets ck x rs rest
    match r with
    | .ok q => (hit || runsOverlap q rs, bad, s2)
    | .error e => (hit, some e, s2)

/-- What a beat to given places reads ahead: the rest of the row's source where some of that lies in those places, so that every source byte is read
before a destination byte is written over it (R318), else nothing. A page of that rest that faults cannot be told to lie elsewhere: the beat waits
for it where the two ranges share linear addresses or some other page of the rest lies in the places written, and for a page that is not there
yet; a page that is never served cancels the command when its own beat comes (log 136). -/
def State.copyAhead (s : State) (ck : CoreKey) (x : CopyCmd) (o d len rest : Nat) (rs : List Run) :
    Except (XFault × Nat) (List Byte) × State :=
  if rest = 0 then (.ok [], s)
  else
    let a := x.src.base.toNat + o
    let b := x.dst.base.toNat + d
    let (hit, bad, s1) := s.sourceMeets ck x rs (pageParts (rest / 65536 + 2) x.src.base.toNat o rest)
    let waits (f : XFault) : Bool := match f with
      | .noPage => true
      | .ats _ => true
      | .s2 false => true
      | _ => false
    match bad with
    | some e => if hit || waits e.1 || (a < b + len ∧ b < a + rest) then (.error e, s1) else (.ok [], s1)
    | none =>
      if hit then match s1.copyReach ck x false o rest with
        | (.ok q, s2) => let (bs, s3) := s2.loadRuns q; (.ok bs, s3)
        | (.error e, s2) => (.error e, s2)
      else (.ok [], s1)

/-- A piece that a copy engine writes meets a closed link: it is kept for the command, which halts at it (R24, R25). -/
def State.writeCut (s : State) (h : Hop) (f : Flit) (cmd ctx : Nat) (ck : CoreKey) : State :=
  let s1 := s.violate h.link h.cls { die := ck.die, core := ck.core, kind := .copy, slot := 0 } ctx
  (s1.setFabric { s1.fabric with cut := s1.fabric.cut ++ [f] }).updCopy ck cmd fun x => { x with frozen := true }

/-- A piece that a copy engine writes comes to a link, or is home (R13, R22). -/
def State.writeHop (s : State) (cmd : Nat) (g : GKey) (team ctx : Nat) (ck : CoreKey) (rs : List Run) (bs : List Byte) : List Hop → State
  | [] => s.masterWrite g team ctx rs bs
  | h :: r =>
    if (s.wall h.link).closed then s.writeCut h { cls := h.cls, cargo := .write cmd g team ctx ck rs bs (h :: r), old := false } cmd ctx ck
    else s.sendFlit h (.write cmd g team ctx ck rs bs r) 0

/-- The bytes of a beat go to their places: they are asked for at the place of the source, come to the engine as answers, and go on from there as
requests (R12, R13). -/
def State.sendPieces (s : State) (ck : CoreKey) (x : CopyCmd) (src : Option Place) : List Run → List Byte → State
  | [], _ => s
  | r :: rest, bs =>
    (s.writeHop x.id x.g x.team x.ctx ck [r] (bs.take r.len)
      ((match src with
        | some p => s.outHops ck.die p .req ++ s.inHops p ck.die .rsp
        | none => []) ++ s.outHops ck.die r.place .req)).sendPieces ck x src rest (bs.drop r.len)

/-- Whether a flit carries a piece of a command. -/
def Cargo.ofCmd (c : Cargo) (id : Nat) : Bool :=
  match c with
  | .write cmd _ _ _ _ _ _ _ => cmd == id
  | _ => false

/-- Whether pieces of a command are on their way, or stopped at a link. -/
def State.copyFlies (s : State) (id : Nat) : Bool :=
  s.fabric.carries (fun c => c.ofCmd id) || s.fabric.cut.any fun f => f.cargo.ofCmd id

/-- What a beat comes to: more to do, all bytes moved with the place of the last, or a stop. -/
inductive BeatOut where
  | more (x : CopyCmd) (at_ : Option Place) (s : State)
  | stop (s : State)

/-- Move one beat of at most 64 bytes of the row at the head: its source is read, or was read ahead; a folio bank in refresh holds it (R166). A
row begins once the rows before it have reached their places (R318). -/
def State.moveBeat (s : State) (ck : CoreKey) (x : CopyCmd) : BeatOut :=
  let o := x.from_ + x.moved
  let d := x.into + x.moved
  let n := x.bytes - x.moved
  let later (t : State) (at_ : Nat) : BeatOut := .stop ((t.updCopy ck x.id fun _ => x).post at_ (.copyBeat ck x.id))
  if x.rows = 0 then .more x none s
  else if x.moved = 0 ∧ s.copyFlies x.id then later s (s.clk + 1)
  else
    let len := min n 64
    match (if x.ahead.isEmpty then s.copyReach ck x false o len else (.ok [], s)) with
    | (.error (f, lin), s1) => .stop ((s1.updCopy ck x.id fun _ => x).copyFault ck x f false lin)
    | (.ok q, s1) => match s1.refreshEnd q with
      | some t => later s1 t
      | none =>
        match s1.copyReach ck x true d len with
        | (.error (f, lin), s2) => .stop ((s2.updCopy ck x.id fun _ => x).copyFault ck x f true lin)
        | (.ok rs, s2) =>
          match (if x.ahead.isEmpty then s2.copyAhead ck x (o + len) d len (n - len) rs else (.ok (x.ahead.drop len), s2)) with
          | (.error (f, lin), s3) => .stop ((s3.updCopy ck x.id fun _ => x).copyFault ck x f false lin)
          | (.ok ahead, s3) =>
            let (bs, s4) := if x.ahead.isEmpty then s3.loadRuns q else (x.ahead.take len, s3)
            let x1 : CopyCmd := { x with stalled := none, ahead := ahead, moved := x.moved + len }
            let x2 : CopyCmd := if n = len then
              { x1 with from_ := x.from_ + x.fromPitch, into := x.into + x.intoPitch, moved := 0, rows := x.rows - 1, ahead := [] }
              else x1
            .more x2 (rs.head?.map (·.place)) (s4.sendPieces ck x (q.head?.map (·.place)) rs bs)

/-- The beats a core's engine has made in this clk, of four (R317). -/
def State.beatsMade (s : State) (ck : CoreKey) : Nat :=
  let c := s.core ck.die ck.core
  if c.beatClk = s.clk then c.beats else 0

/-- The engine has made one more. -/
def State.countBeat (s : State) (ck : CoreKey) : State :=
  s.updCore ck.die ck.core fun c => { c with beatClk := s.clk, beats := s.beatsMade ck + 1 }

/-- Whether a command has a beat ready in this clk, or has moved one in it: its time has come, its row can begin, its pages are there and its
source is in no refresh window (R317, R166). -/
def State.copyReady (s : State) (ck : CoreKey) (x : CopyCmd) : Bool :=
  let len := min (x.bytes - x.moved) 64
  x.movedAt == s.clk ||
    (x.running && x.rows != 0 && decide (x.issued + 64 ≤ s.clk) && !(x.moved == 0 && s.copyFlies x.id)
      && (s.agenda.any fun e => decide (e.1 ≤ s.clk) && e.2 == .copyBeat ck x.id)
      && (match (s.copyReach ck x false (x.from_ + x.moved) len).1, (s.copyReach ck x true (x.into + x.moved) len).1 with
        | .ok q, .ok _ => (s.refreshEnd q).isNone || !x.ahead.isEmpty
        | _, _ => false))

/-- Whether a command has been frozen. -/
def State.copyFrozen (s : State) (ck : CoreKey) : Bool := (s.copies ck).any (·.frozen)

/-- Every beat of a command has been made, the last to a place. -/
def State.copyEnds (s : State) (ck : CoreKey) (x : CopyCmd) (p : Option Place) : State :=
  let half := match p with
    | some (.far _ _) => 1200
    | some q => latencyOf (s.copyWho ck x) q / 2
    | none => 0
  s.after half (.copyComplete ck x.id)

/-- Move up to `n` beats; when nothing is left the command completes once its last byte has reached its home (R317), and, through a fabric port,
once the far end has answered (R12). A beat that meets a closed link halts the engine (R24). -/
def State.moveBeats (ck : CoreKey) : Nat → CopyCmd → Option Place → State → State
  | 0, x, p, s =>
    let s1 := s.updCopy ck x.id fun y => { x with frozen := y.frozen }
    if s1.copyFrozen ck then s1 else if x.rows = 0 then s1.copyEnds ck x p else s1.post (s.clk + 1) (.copyBeat ck x.id)
  | n + 1, x, p, s =>
    if s.copyFrozen ck then s.updCopy ck x.id fun y => { x with frozen := y.frozen }
    else if x.rows = 0 then (s.updCopy ck x.id fun _ => x).copyEnds ck x p
    else match s.moveBeat ck x with
      | .stop s1 => s1
      | .more x1 q s1 => State.moveBeats ck n { x1 with movedAt := s.clk } (q.orElse fun _ => p) (s1.countBeat ck)

/-- The beats that command `i` of `k` moves in a clk: four among them all, in turn, so that the odd beat goes round (R317). -/
def beatsOf (clk k i : Nat) : Nat := 4 / max 1 k + (if (i + clk * (k - 4 % max 1 k)) % max 1 k < 4 % max 1 k then 1 else 0)

/-- COPY_BEAT: a running command moves its beats of this clk: 256 bytes shared among the running commands that have a beat ready (R317). -/
def State.copyBeat (s : State) (ck : CoreKey) (id : Nat) : State :=
  let l := s.copies ck
  match l.find? fun x => x.id = id with
  | none => s
  | some x =>
    if !x.running || l.any (·.frozen) then s
    else
      let ready := l.filter fun y => y.id == id || s.copyReady ck y
      let n := min (beatsOf s.clk ready.length ((ready.findIdx? fun y => y.id == id).getD 0)) (4 - s.beatsMade ck)
      if n = 0 && x.rows != 0 then s.post (s.clk + 1) (.copyBeat ck id) else State.moveBeats ck n x none s

/-- COPY_COMPLETE: the command's bytes are posted, the counter falls, a node finishes (R320, R401). -/
def State.copyComplete (s : State) (ck : CoreKey) (id : Nat) : State :=
  match (s.copies ck).find? fun x => x.id = id with
  | none => s
  | some x =>
    if s.copyFlies x.id then s.post (s.clk + 1) (.copyComplete ck id)
    else
    let s1 := s.copyGone ck x
    let s2 := match x.bar with
      | some b => s1.post s1.clk (.barrierArrive b (.post x.total))
      | none => s1
    match x.node with
    | some (l, n) => s2.post s2.clk (.nodeFinish l n)
    | none => s2

/-! ## CPY and CPY2D (R318, R319) -/

/-- Issue a copy once its words have passed: its checks on the first and the last row, its place in the engine. -/
def State.copyIssue (s : State) (k : GKey) (g : Group) (c : Clause) (f : EFmt) (bar : Option BarKey)
    (o d bytes rows sp dp : Nat) : State :=
  let src := g.segReg f.gs.toNat
  let dst := g.segReg f.gd.toNat
  let w : Who := { s.whoOf k g with copy := true }
  let check (r : SegReg) (need : Need) (at_ pitch : Nat) : Option Trap :=
    if rows = 0 then none
    else (s.segCheck w r need false bytes 1 [(0, (at_ : Int)), (1, ((at_ + (rows - 1) * pitch : Nat) : Int))]).orElse fun _ =>
      ((List.range rows).find? fun i => s.holeAt w r (at_ + i * pitch) bytes).map fun i =>
        { cause := .segLimit, aux := 0#32, ofs := ofs48 (at_ + i * pitch : Nat), sel := r.sel.toNat, lin := 0 }
  if g.speculative then s.desched k g .promotion
  else if s.acquiring k g then s.waitAcquire k g
  else match (check src .read o sp).orElse fun _ => check dst .write d dp with
    | some t => s.raise k g t
    | none =>
      if copyPlaces ≤ (s.copies ⟨k.die, k.core⟩).length ∨ 255 ≤ g.ceq.length then s.hold k g
      else
        let (id, s1) := s.newId
        let x : CopyCmd :=
          { id := id, g := k, team := g.team, ctx := s.ctxOf g.team, node := none, dst := dst, src := src, from_ := o, into := d,
            bytes := bytes, moved := 0, rows := if bytes = 0 then 0 else rows, fromPitch := sp, intoPitch := dp, total := bytes * rows,
            bar := bar, running := false, issued := s.clk, movedAt := 0, ahead := [], stalled := none, frozen := false }
        (s1.advance k { g with ceq := g.ceq ++ [(id, false)], irrev := true } c 1 none).addCopy ⟨k.die, k.core⟩ x

/-- What CPY and CPY2D share: the scoreboard, fields and specifiers (R318). -/
def State.copyWords (s : State) (f : EFmt) (x : ELong) (two : Bool)
    (go : GKey → Group → Clause → Option BarKey → State) : Host.Outcome State Fault Refusal :=
  s.withIssuer fun k g c =>
    let us := useScalars [useOf f.p true 2, useOf f.q true 2, useOf x.x true (if two then 4 else 1)]
    if g.pending (touchScalars us) then s.hold k g
    else if x.y != 0#8 || x.z1 != 0#2 || x.z2 != 0#6 || x.rsvd != 0#2 || !bselOrNone x.bsel then s.raise k g (trapOf .illField 0#32)
    else if !isEvenScalar f.p then s.raise k g (trapOf .illOperand (auxSpec g f.p))
    else if !isEvenScalar f.q then s.raise k g (trapOf .illOperand (auxSpec g f.q))
    else if (if two then !isScalar x.x || x.x.toNat % 4 != 0 else !isScalarOrImm x.x) then s.raise k g (trapOf .illOperand (auxSpec g x.x))
    else go k g c ((s.team? g.team).bind fun tm => tm.barrier g.team x.bsel)

/-- CPY. -/
def State.cpyOp (s : State) (f : EFmt) (x : ELong) : Host.Outcome State Fault Refusal :=
  s.copyWords f x false fun k g c bar =>
    s.copyIssue k g c f bar (g.scalar64 (f.q.toNat - 0x80)) (g.scalar64 (f.p.toNat - 0x80)) (g.uniform x.x).toNat 1 0 0

/-- CPY2D. -/
def State.cpy2dOp (s : State) (f : EFmt) (x : ELong) : Host.Outcome State Fault Refusal :=
  s.copyWords f x true fun k g c bar =>
    let v (i : Nat) : Nat := (g.scalar (x.x.toNat - 0x80 + i)).toNat
    s.copyIssue k g c f bar (g.scalar64 (f.q.toNat - 0x80)) (g.scalar64 (f.p.toNat - 0x80)) (v 0) (v 1) (v 3) (v 2)

/-! ## The instructions and events -/

/-- CPY (0xa6). -/
def execCpy (f : EFmt) (x : ELong) (s : State) : Host.Outcome State Fault Refusal := s.cpyOp f x
/-- CPY2D (0xa7). -/
def execCpy2d (f : EFmt) (x : ELong) (s : State) : Host.Outcome State Fault Refusal := s.cpy2dOp f x
/-- COPY_START. -/
def execCopyStart (s : State) : Host.Outcome State Fault Refusal :=
  match s.subject with
  | .copyStart c => .next (s.copyStart c)
  | _ => .fault .noSubject
/-- COPY_BEAT. -/
def execCopyBeat (s : State) : Host.Outcome State Fault Refusal :=
  match s.subject with
  | .copyBeat c x => .next (s.copyBeat c x)
  | _ => .fault .noSubject
/-- COPY_COMPLETE. -/
def execCopyComplete (s : State) : Host.Outcome State Fault Refusal :=
  match s.subject with
  | .copyComplete c x => .next (s.copyComplete c x)
  | _ => .fault .noSubject

end Sys2Proof.Machine
end

