-- ==== Sys2Proof/Machine/Tasks.lean ====
section
/-! DEFINITION. Ordered speculative tasks (R67 to R94): the task unit's store, dispatch, the frontier, promotion and commit, with
TSPAWN, TDONE, TABORT and TSERIAL (R343 to R345), and LAUNCH (R349 to R351). -/

namespace Sys2Proof.Machine

/-! ## Records (R70, R71) -/

/-- What the 32 bytes of a record say. -/
structure RecWords where
  ts : BitVec 48
  nl : Nat
  ek : Bool
  u : Bool
  rsvd : Nat
  entry : Word
  budget : Word
  args : List Word
  deriving DecidableEq, Repr

def recWords (bs : List Byte) : RecWords :=
  let w0 := BitVec.ofNat 64 (leNat (bs.take 8))
  let word (i : Nat) : Word := BitVec.ofNat 32 (leNat ((bs.drop i).take 4))
  { ts := w0.extractLsb' 0 48, nl := pteBits w0 48 6, ek := w0.getLsbD 54, u := w0.getLsbD 55, rsvd := pteBits w0 56 8,
    entry := word 8, budget := word 12, args := [word 16, word 20, word 24, word 28] }

/-- R71. -/
def RecWords.valid (r : RecWords) : Bool :=
  decide (1 ≤ r.nl) && decide (r.nl ≤ 32) && r.rsvd == 0 && (!r.ek || bits r.entry 12 20 == 0)

/-- A record on its way to a die's task unit. -/
def RecWords.toRec (r : RecWords) (id : Nat) (code : SegReg) (floor : TaskKey) (parent : Option Nat) (launch node : Nat) : Rec :=
  { id := id, ts := r.ts, nl := r.nl, ek := r.ek, u := r.u, entry := r.entry, budget := r.budget, args := r.args, code := code,
    tb := none, floor := floor, parent := parent, launch := launch, node := node }

/-- TB of a die and a sequence number (R72). -/
def tbOf (die seq : Nat) : BitVec 16 := BitVec.ofNat 16 (die * 2048 + seq)

/-! ## What a die holds (R74, R75) -/

/-- The tasks of a domain that hold a slot of a die. -/
def State.tasksOn (s : State) (part ctx die : Nat) : List Task :=
  ((s.taskGroups part ctx).filterMap fun e => if e.1.die = die then some e.2.2 else none)
    ++ (s.savedTasks part ctx).filterMap fun e => if e.1 = die then some e.2 else none

/-- The records of a domain that a die holds: queued, spilled, running and finished. -/
def State.recordsOn (s : State) (part ctx die : Nat) (d : Domain) : List Rec :=
  (d.at die).queued ++ (d.at die).spilled ++ (s.tasksOn part ctx die).map (·.record) ++ (d.at die).finished.map (·.task.record)

/-- The quota in force (R74). -/
def State.taskQuota (s : State) (die ctx : Nat) : Nat :=
  let c := s.ctx die ctx
  let z := pteBits c.tspill 0 5
  min (max 1 c.tqNow.toNat) (Config.taskStore + if z = 0 then 0 else 2 ^ z / 32)

/-- The records queued in the store of a die, of all its contexts. -/
def State.storeUsed (s : State) (die : Nat) : Nat :=
  s.domains.foldl (fun n e => if e.1.1 = s.slotOf die then n + (e.2.at die).queued.length else n) 0

/-- The context that holds the most records of a die's store, the lower number on a tie (R75). -/
def State.storeMost (s : State) (die : Nat) : Option Nat :=
  (s.domains.foldl (fun (b : Option (Nat × Nat)) e =>
    if e.1.1 ≠ s.slotOf die then b
    else
      let n := (e.2.at die).queued.length
      match b with
      | some (c, m) => if m < n ∨ (m = n ∧ e.1.2 < c) then some (e.1.2, n) else b
      | none => some (e.1.2, n)) none).map (·.1)

/-- A record as R70 lays it out. -/
def Rec.bytes (r : Rec) : List Byte :=
  leBytes 8 (r.ts.toNat + 281474976710656 * (r.nl % 64) + 18014398509481984 * bitOf r.ek + 36028797018963968 * bitOf r.u)
    ++ leBytes 4 r.entry.toNat ++ leBytes 4 r.budget.toNat ++ r.args.flatMap fun w => leBytes 4 w.toNat

/-- The linear address of a place of a context's spill area on a die (R74). -/
def State.spillLin (s : State) (die ctx i : Nat) : Nat := pteBits (s.ctx die ctx).tspill 20 44 * 1048576 + 32 * i

/-- The lowest free place of a spill area (log 54). -/
def DomDie.freePlace (x : DomDie) : Nat := ((List.range (x.places.length + 1)).find? fun i => !(x.places.any fun e => e.2 == i)).getD 0

/-- A record is written to the spill area (R75). -/
def State.spillWrite (s : State) (die ctx i : Nat) (r : Rec) : State :=
  if pteBits (s.ctx die ctx).tspill 0 5 = 0 then s else (s.writeLin (dieWho die ctx) (s.spillLin die ctx i) r.bytes).2

/-- A spilled record as the spill area holds it; as it was where it cannot be read. -/
def State.spillRead (s : State) (die ctx : Nat) (x : DomDie) (r : Rec) : Rec :=
  match x.places.find r.id with
  | none => r
  | some i =>
    if pteBits (s.ctx die ctx).tspill 0 5 = 0 then r
    else match s.translateRange (dieWho die ctx) .read 2 (s.spillLin die ctx i) 32 with
      | (.ok rs, _) =>
        let w := recWords (s.readRuns rs)
        { r with ts := w.ts, nl := w.nl, ek := w.ek, u := w.u, entry := w.entry, budget := w.budget, args := w.args }
      | (.error _, _) => r

/-- A store over its size gives the highest-keyed record of its largest context to that context's spill area (R75; log 54). -/
def State.spillOver (s : State) (die : Nat) : State :=
  if s.storeUsed die ≤ Config.taskStore then s
  else match s.storeMost die with
    | none => s
    | some c => match (s.domain? (s.slotOf die) c).bind fun d => (d.at die).queued.getLast?.map fun r => (r, (d.at die).freePlace) with
      | none => s
      | some (r, i) => (s.updDomain (s.slotOf die) c fun d => d.upd die fun x =>
          { x with queued := x.queued.dropLast, spilled := insertRec r x.spilled, places := x.places.put r.id i }).spillWrite die c i r

/-- A store gives up records until it is within its size. -/
def State.spillAll (s : State) (die : Nat) : State := (List.range (s.storeUsed die - Config.taskStore)).foldl (fun t _ => t.spillOver die) s

/-- Whether R72 has no place for another record of a timestamp: 2048 of one TS. -/
def DomDie.tsFull (x : DomDie) (ts : BitVec 48) : Bool :=
  let waiting := (x.queued ++ x.spilled).filter fun r => r.ts = ts ∧ r.tb = none
  decide (2048 ≤ (assocGet x.counts ts).getD 0 + waiting.length)

/-- The count of a timestamp of which a die holds nothing starts again (R72). -/
def State.trimCounts (s : State) (part ctx die : Nat) : State :=
  s.updDomain part ctx fun d =>
    let held := (s.recordsOn part ctx die d).map (·.ts)
    d.upd die fun x => { x with counts := x.counts.filter fun e => held.contains e.1 }

/-- Put a record into the task unit of a die. -/
def State.enqueueRec (s : State) (part ctx die : Nat) (r : Rec) : State :=
  (((s.trimCounts part ctx die).updDomain part ctx fun d => d.upd die fun x => { x with queued := insertRec r x.queued }).spillOver die).post
    s.clk (.taskDispatch die part ctx)

/-- Spilled records come back when 64 places are free (R75). -/
def State.refillLook (s : State) (die part ctx : Nat) : State :=
  match s.domain? part ctx with
  | none => s
  | some d =>
    if (d.at die).spilled.isEmpty || (d.at die).refilling || decide (Config.taskStore < s.storeUsed die + 64) then s
    else (s.updDomain part ctx fun d => d.upd die fun x => { x with refilling := true }).post (s.clk + 256) (.spillRefill die part ctx)

/-- Places of a die's store may be free for spilled records of any context. -/
def State.refillAll (s : State) (die : Nat) : State :=
  s.domains.foldl (fun t e => if e.1.1 = s.slotOf die then t.refillLook die e.1.1 e.1.2 else t) s

/-- SPILL_REFILL: a run of 64 spilled records, the lowest keys first, is back in the store, as the spill area holds them (R75). -/
def State.spillRefill (s : State) (die part ctx : Nat) : State :=
  let s1 := s.updDomain part ctx fun d => d.upd die fun x =>
    if !x.refilling then x
    else
      let back := x.spilled.take 64
      { x with refilling := false, spilled := x.spilled.drop 64, places := x.places.filter fun e => !(back.any fun r => r.id == e.1),
               queued := back.foldl (fun q r => insertRec (s.spillRead die ctx x r) q) x.queued }
  ((s1.spillAll die).refillLook die part ctx).post s.clk (.taskDispatch die part ctx)

/-! ## The frontier (R85 to R87) -/

def topKey : TaskKey := { ts := BitVec.allOnes 48, tb := BitVec.allOnes 16 }
def minKey (a b : TaskKey) : TaskKey := if keyLt b a then b else a

/-- L of a die. -/
def State.leastKey (s : State) (part ctx die : Nat) (d : Domain) : TaskKey :=
  (((d.at die).queued ++ (d.at die).spilled).map Rec.effKey ++ (s.tasksOn part ctx die).map (·.key)
    ++ (d.at die).finished.map (·.task.key)).foldl minKey topKey

/-- F of a die; none until the samples of every other die of the domain have arrived. -/
def State.frontierOf (s : State) (part ctx die : Nat) (d : Domain) : Option TaskKey :=
  let rest := d.dies.filter (· ≠ die)
  let got := rest.filterMap fun x => (d.at die).others.find x
  if got.length = rest.length then some (got.foldl minKey (s.leastKey part ctx die d)) else none

/-- Grains in ascending address order. -/
def State.insertGrain (s : State) (g : Grain) : List Grain → List Grain
  | [] => [g]
  | x :: r => if s.grainOrder g.place < s.grainOrder x.place then g :: x :: r else x :: s.insertGrain g r

def State.sortGrains (s : State) (l : List Grain) : List Grain := l.foldr s.insertGrain []

/-- A grain of a draft reaches its home as one masked write (R86, R87); tasks of other domains that read it abort (R81). -/
def State.drainGrain (part ctx : Nat) (s : State) (g : Grain) : State :=
  let s1 := (List.range 64).foldl (fun t i =>
    if g.mask.getLsbD i then t.writeByte (s.grainByte g.place i) (g.bytes.getD i 0#8) else t) s
  let s2 := if g.mask = BitVec.allOnes 64 then s1.setPoison (s1.poison.filter (· ≠ g.place)) else s1
  s2.domains.foldl (fun u e => if e.1 = (part, ctx) then u else u.hitReaders e.1.1 e.1.2 none (Run.grains { place := g.place, len := 1 })) s2

/-- A task is promoted (R87): its draft begins to drain, a grain each 4 clk, its reads are no longer recorded, its grains stay
marked as the promoted writer's, and what it waited for at the frontier happens; BUDGET that it parked with is raised, as a deferred cause (R89, R90, R268). -/
def State.promote (s : State) (part ctx : Nat) (k : GKey) (g : Group) (t : Task) : State :=
  let marks := ((s.domain? part ctx).map fun d => (d.tracks.filter fun x => x.writers.contains t.record.id).map (·.place)).getD []
  let s1 := if t.draft.isEmpty then s else s.post (s.clk + 4) (.taskCommit part ctx k.die)
  let s2 := s1.updDomain part ctx fun d => (d.untrack t.record.id).record t.record.id false true marks
  let g0 : Group := { g with task := some { t with spec := false, budgetOut := false, drainAt := s.clk + 4 } }
  let g1 : Group := { g0 with budgetDue := g.budgetDue || t.budgetOut }
  let awake (h : Group) : State := s2.putGroup k { h with run := .ready, readyAt := s.clk }
  match g.run with
  | .waiting .promotion =>
    let inside : Bool := g.clause.any fun c => c.begun
    if t.budgetOut then
      awake { g0 with raiseDue := some (trapOf .budget 0#32, if inside then g.pos else 15, if inside then .instr else .boundary, .deferred) }
    else awake g1
  | .parked (.deferred tr pos kind hyper) => awake { (if tr.cause = .budget then g0 else g1) with raiseDue := some (tr, pos, kind, if hyper then .hyper else .deferred) }
  | .parked (.act c lin die _ _) =>
    (s2.putGroup k g1).report die ctx { lin := lin, ec := c, kind := 0, hostfail := false, core := k.core, slot := k.slot, sel := 0, ofs := 0 }
  | _ => s2.putGroup k g1

/-- The lowest grain that a promoted task has not drained, once its time has come, and the task without it (R87). -/
def State.drainNext (s : State) (t : Task) : Option (Grain × Task) :=
  if t.spec || decide (s.clk < t.drainAt) then none
  else match s.sortGrains t.draft with
    | [] => none
    | x :: rest => some (x, { t with draft := rest, drainAt := s.clk + 4 })

/-- Promoted tasks of a domain on a die, running or saved, drain what is due (R87). -/
def State.drainPromoted (s : State) (part ctx die : Nat) : State :=
  let again (u : State) (t : Task) : State := if t.draft.isEmpty then u else u.post (s.clk + 4) (.taskCommit part ctx die)
  let s1 := (s.taskGroups part ctx).foldl (fun u e => match (if e.1.die = die then s.drainNext e.2.2 else none) with
    | some (x, t) => again (State.drainGrain part ctx (u.updGroup e.1 fun g => { g with task := some t }) x) t
    | none => u) s
  ((s.die die).saved.filter fun y => y.ctx = ctx).foldl (fun u y => match y.group.task.bind s.drainNext with
    | some (x, t) => again (State.drainGrain part ctx (u.updDie die fun d =>
        { d with saved := d.saved.map fun z => if z.id = y.id then { z with group := { z.group with task := some t } } else z }) x) t
    | none => u) s1

/-- What killed tasks had drafted and not drained reaches memory (R90). -/
def State.drainRemains (s : State) (part ctx die : Nat) : State :=
  match s.domain? part ctx with
  | none => s
  | some d =>
    if (d.at die).remains.isEmpty then s
    else (s.sortGrains (d.at die).remains).foldl (State.drainGrain part ctx) (s.updDomain part ctx fun e => e.upd die fun x => { x with remains := [] })

/-- The die's frontier is looked at again: the task at it is promoted, or begins to commit (R85 to R87). -/
def State.refront (s : State) (part ctx die : Nat) : State :=
  match s.domain? part ctx with
  | none => s
  | some d =>
    let f := s.frontierOf part ctx die d
    let s1 := s.updDomain part ctx fun d => d.upd die fun x => { x with frontier := f }
    match f with
    | none => s1
    | some key =>
      match (s1.taskGroups part ctx).find? fun e => e.1.die = die ∧ e.2.2.spec ∧ e.2.2.key = key with
      | some (k, g, t) => s1.promote part ctx k g t
      | none =>
        match (d.at die).finished.find? fun x => x.task.key = key with
        | some x =>
          if (d.at die).committing.isSome then s1
          else
            let due := s.clk + 8 + 4 * x.task.draft.length
            (s1.updDomain part ctx fun d => d.upd die fun y => { y with committing := some (x.task.record.id, due) }).post due
              (.taskCommit part ctx die)
        | none => s1

/-- FRONTIER_SAMPLE: every die of a domain samples L, and each of the others has it 32 clk later (R85). -/
def State.frontierSample (s : State) (part ctx dom : Nat) : State :=
  match s.domain? part ctx with
  | none => s
  | some d =>
    if d.dom ≠ dom then s
    else
    let s1 := s.updDomain part ctx fun x => d.dies.foldl (fun y die => y.upd die fun z => { z with sample := s.leastKey part ctx die d }) x
    let s2 := d.dies.foldl (fun t a => (d.dies.filter (· ≠ a)).foldl (fun u b => u.post (s.clk + 32) (.frontierUpdate part ctx dom a b)) t) s1
    s2.post (s.clk + 32) (.frontierSample part ctx dom)

/-- FRONTIER_UPDATE: a die has received the sample of another (R85). -/
def State.frontierUpdate (s : State) (part ctx dom die other : Nat) : State :=
  if (s.domain? part ctx).any fun d => d.dom == dom then
    (s.updDomain part ctx fun d => d.upd die fun x => { x with others := x.others.put other (d.at other).sample }).refront part ctx die
  else s

/-! ## The end of a domain (R67) -/

/-- Set what has become of a node of a launch. -/
def State.setNodeRun (s : State) (l n : Nat) (r : NodeRun) : State :=
  match s.host.launches.find l with
  | some x => s.setHost { s.host with launches := s.host.launches.put l { x with runs := x.runs.set n r } }
  | none => s

/-- The task slots of a team leave their pens, and the team goes. -/
def State.dropSlots (s : State) (t : Nat) (tm : Team) : State :=
  (tm.keys.foldl (fun u k => match u.group? k with
    | some g => u.exitGroup k g
    | none => u) s).post s.clk (.teamRetire t)

/-- The domain ends: its teams go, and its node finishes or fails. -/
def State.endDomain (s : State) (part ctx : Nat) (d : Domain) : State :=
  let s1 := s.setDomains (assocDel s.domains (part, ctx))
  let s2 := (s1.diesOf part).foldl (fun t die => ((t.updDie die fun x =>
    { x with ranges := x.ranges.filter fun r => !(r.launch == d.launch && r.node == d.node) }).unpost (.spillRefill die part ctx)).post t.clk
      (.clusterPlace die d.launch d.node)) s1
  let s3 := (s2.teams.filter fun e => e.2.launch = d.launch ∧ e.2.node = d.node).foldl (fun t e => t.dropSlots e.1 e.2) s2
  if d.failed then s3.failNode d.launch d.node
  else (s3.setNodeRun d.launch d.node (.running 0 false)).post s3.clk (.nodeFinish d.launch d.node)

/-- Tasks that are gone leave no record at the home slices. -/
def State.sweepTracks (s : State) (part ctx : Nat) : State :=
  match s.domain? part ctx with
  | none => s
  | some d =>
    let ids := d.tracks.flatMap fun t => t.readers ++ t.allWriters
    let dead := (ids.dedup).filter fun i => (s.taskKey? part ctx i).isNone
    s.updDomain part ctx fun d => dead.foldl Domain.untrack d

/-- TASK_COMMIT: a task that finished, was killed, drains or has committed: a commit whose time has come writes its grains and leaves L (R86);
the frontier is looked at again, and a domain that holds nothing ends. -/
def State.taskCommit (s0 : State) (part ctx die : Nat) : State :=
  let s := (s0.drainRemains part ctx die).drainPromoted part ctx die
  match s.domain? part ctx with
  | none => s
  | some d =>
    let x := d.at die
    let s1 := match x.committing with
      | some (id, due) =>
        if due ≤ s.clk then
          let grains := (x.finished.filter fun (f : Finished) => f.task.record.id = id).flatMap fun (f : Finished) => s.sortGrains f.task.draft
          (grains.foldl (State.drainGrain part ctx) s).updDomain part ctx fun e => (e.untrack id).upd die fun y =>
            { y with committing := none, finished := y.finished.filter fun f => f.task.record.id ≠ id }
        else s
      | none => s
    let s2 := s1.sweepTracks part ctx
    match s2.domain? part ctx with
    | none => s2
    | some e => if s2.domainEmpty part ctx e then s2.endDomain part ctx e else s2.refront part ctx die

/-! ## Dispatch (R76, R77) -/

/-- A domain that holds records on a die with no team of its node left, or to come: they are discarded and the node fails (R91). -/
def State.domainLost (s : State) (part ctx die : Nat) : State :=
  match s.domain? part ctx with
  | none => s
  | some d =>
    let here := (s.teams.any fun e => e.2.die == die && e.2.launch == d.launch && e.2.node == d.node)
      || ((s.die die).ranges.any fun r => r.launch == d.launch && r.node == d.node)
    if here || ((d.at die).queued.isEmpty && (d.at die).spilled.isEmpty) then s
    else (s.updDomain part ctx fun d =>
      { d.upd die fun x => { x with queued := [], spilled := [], places := [] } with failed := true }).post s.clk (.taskCommit part ctx die)

/-- The free task slots of a domain on a die, lowest first. -/
def State.freeSlots (s : State) (ctx die : Nat) (d : Domain) : List (GKey × Group × Team) :=
  s.groups.filterMap fun e =>
    let k := keyOfNum e.1
    match s.team? e.2.team with
    | some t =>
      if k.die = die ∧ t.ctx = ctx ∧ t.launch = d.launch ∧ t.node = d.node ∧ !t.noTask ∧ e.2.task = none ∧ e.2.run = .stopped then
        some (k, e.2, t)
      else none
    | none => none

/-- A task starts in its slot in the state of R76, its CSRs at their reset values (R353, log 62). A rubric entry is
resolved at its first clause; until then g15 is the spawning segment (log 62). -/
def Group.startTask (g : Group) (trap : Word) (segs : Tbl SegReg) (r : Rec) (key : TaskKey) (clk ran : Nat) : Group :=
  let h := g.emptySlot
  { h with run := .ready, readyAt := clk, tenure := 0, pc := if r.ek then 0#48 else r.entry.setWidth 48,
           seg := segs.put 15 r.code, regs := [],
           sc := (r.args.zip (List.range 4)).foldl (fun (t : Tbl Word) e => t.put e.2 e.1) [], pr := [], ix := [],
           exec := (maskedBits 0xffffffff#32 0#32 fun l => decide (l < r.nl)) &&& h.population, hand := 0#32, xout := 0#32,
           ixw := [], awb := 0, awl := 0, trapv := trap, tframe := BitVec.ofNat 32 (2560 * g.num),
           task := some { record := r, key := key, spec := !r.u, budget := r.budget, draft := [], budgetOut := false, entered := !r.ek, drainAt := 0, ranAt := ran } }

/-- A look for a record to dispatch, in place of those that stand on the agenda. -/
def State.postDispatch (s : State) (t die part ctx : Nat) : State :=
  (s.unpost (.taskDispatch die part ctx)).post t (.taskDispatch die part ctx)

/-- TASK_DISPATCH: the lowest-keyed record of a domain on a die goes to the lowest free slot, one in a clk (R76). -/
def State.taskDispatch (s0 : State) (die part ctx : Nat) : State :=
  let s := ((s0.domainLost part ctx die).spillAll die).refillAll die
  match s.domain? part ctx with
  | none => s
  | some d =>
    if (s.die die).run ≠ some ctx ∨ (s.die die).switching then s.refront part ctx die
    else if s.clk < (s.die die).nextDispatch then (s.refront part ctx die).postDispatch (s.die die).nextDispatch die part ctx
    else match (d.at die).queued, s.freeSlots ctx die d with
      | r :: rest, (k, g, tm) :: _ =>
        if (d.at die).spilled.any fun x => keyLt x.effKey r.effKey then s.refront part ctx die
        else
          let n := (assocGet (d.at die).counts r.ts).getD 0
          let tb := r.tb.getD (tbOf die n)
          let key : TaskKey := { ts := r.ts, tb := tb }
          let r1 : Rec := { r with tb := some tb }
          let shape := ((s.clusters.find tm.cluster).map fun c => (c.w, c.h)).getD (1, 1)
          let s1 := s.updDomain part ctx fun d => d.upd die fun x =>
            { x with queued := rest, counts := if r.tb.isSome then x.counts else assocPut x.counts r.ts (n + 1) }
          let s2 := s1.putGroup k (g.startTask (s.trapvOf part ctx tm.krec tm.code.sel) (tm.segs shape.1 shape.2) r1 key s.clk (s.ranClk die ctx))
          let s3 := if r.budget = 0#32 then s2 else s2.post (s.clk + 64) (.budgetTick (.task part ctx r.id))
          (((s3.updDie die fun x => { x with nextDispatch := s.clk + 1 }).refillAll die).refront part ctx die).postDispatch (s.clk + 1) die part ctx
      | _, _ => s.refront part ctx die

/-! ## TSPAWN (R343, R344) -/

/-- The words of TSPAWN that R256 step 4 refuses. -/
def MArgs.badSpawn (a : MArgs) (long : Bool) : Bool :=
  a.rsvd || a.neg || a.gp != 0 || a.deadD || (long && a.wid != 5) || a.ord != 0 || a.scope != 0

/-- The key a child's record stands under before its dispatch (R73). -/
def childFloor (die : Nat) (t : Task) (ts : BitVec 48) : TaskKey :=
  if ts = t.key.ts then { ts := ts, tb := t.key.tb + 1#16 } else { ts := ts, tb := tbOf die 0 }

/-- Enqueue one child; its status (R344, R75). -/
def State.spawnOne (s : State) (k : GKey) (g : Group) (t : Task) (w : RecWords) (full : Bool) : Word × State :=
  let (part, ctx) := s.partCtx k g
  match s.domain? part ctx with
  | none => (2#32, s)
  | some d =>
    if full || decide (s.taskQuota k.die ctx ≤ (s.recordsOn part ctx k.die d).length) || ((s.trimCounts part ctx k.die).domain? part ctx).any
        fun e => (e.at k.die).tsFull w.ts then (2#32, s)
    else
      let (id, s1) := s.newId
      let r := w.toRec id (g.segReg 15) (childFloor k.die t w.ts) (some t.record.id) t.record.launch t.record.node
      let s2 := s1.enqueueRec part ctx k.die r
      let spilled := (s2.domain? part ctx).any fun e => (e.at k.die).spilled.any fun x => x.id = id
      (if spilled then 1#32 else 0#32, s2)

/-- Whether the quota in force is reached. -/
def State.quotaFull (s : State) (k : GKey) (g : Group) : Bool :=
  let (part, ctx) := s.partCtx k g
  match s.domain? part ctx with
  | none => true
  | some d => decide (s.taskQuota k.die ctx ≤ (s.recordsOn part ctx k.die d).length)

/-- The lanes of a TSPAWN in ascending order; a quota once reached stays reached. -/
def State.spawnLanes (k : GKey) (g : Group) (t : Task) : List (Nat × RecWords) → Bool → State → List (Nat × Word) × State
  | [], _, s => ([], s)
  | (l, w) :: rest, full, s =>
    let full1 := full || s.quotaFull k g
    let (st, s1) := s.spawnOne k g t w full1
    let (more, s2) := State.spawnLanes k g t rest full1 s1
    ((l, st) :: more, s2)

/-- The records of the lanes, read as R80 gives them. -/
def State.readRecords (s : State) (k : GKey) (g : Group) : List (Nat × List Run) → List (Nat × RecWords) × State
  | [] => ([], s)
  | (l, rs) :: rest =>
    let (bs, s1) := s.groupRead k g rs
    let (more, s2) := s1.readRecords k ((s1.group? k).getD g) rest
    ((l, recWords bs) :: more, s2)

/-- TSPAWN once its words have passed. -/
def State.spawnIssue (s : State) (k : GKey) (g : Group) (c : Clause) (a : MArgs) : State :=
  let r := g.segReg a.g
  let w := s.whoOf k g
  let bad := trapOf .illOperand (auxSpec g 0#8)
  let los := (lanesOf g.exec).map fun l => (l, g.offAt a l)
  match g.task with
  | none => s.raise k g bad
  | some t =>
    if g.exec = 0#32 then s.advance k g c (g.occupancy a.uses 0) (some (g.nibOf a.data 0#32 zeroLanes))
    else if s.acquiring k g then s.waitAcquire k g
    else match s.segCheck w r .read true 32 32 los with
      | some x => s.raise k g x
      | none =>
        let (xs, s1) := s.tryLanes w (s.team? g.team) r .read 32 los
        let lanes := xs.filterMap fun x => match x.reach with
          | .runs rs => some (x, rs)
          | _ => none
        match xs.find? fun x => x.reach = .hole with
        | some x => s.raise k g { cause := .segLimit, aux := 0#32, ofs := ofs48 x.ofs, sel := r.sel.toNat, lin := 0 }
        | none =>
          if g.speculative && lanes.any fun e => e.2.any fun q => q.place.outside then s1.desched k g .promotion
          else match firstFault .load xs with
            | some (f, x) =>
              s1.pageFault k g f { cause := .pageLoad, aux := 0#32, ofs := ofs48 x.ofs, sel := r.sel.toNat, lin := x.lin } false g.pos .instr
            | none =>
              match lanes.find? fun e => s1.spoiled e.2 with
              | some (x, _) => s1.raise k g { cause := .eccUncorr, aux := 0#32, ofs := ofs48 x.ofs, sel := r.sel.toNat, lin := x.lin }
              | none =>
                if s1.homeStalls k g (lanes.flatMap (·.2)) true false || s1.entryWaits k g.team (lanes.flatMap (·.2))
                    || xs.any (fun x => g.logOverlaps r.sel.toNat x.lin 32) || (s1.refreshEnd (lanes.flatMap (·.2))).isSome then s.hold k g
                else
                  let (recs, s2) := s1.readRecords k g (lanes.map fun e => (e.1.lane, e.2))
                  if recs.any fun e => !e.2.valid || BitVec.ult e.2.ts t.key.ts then s2.raise k ((s2.group? k).getD g) bad
                  else
                    let (sts, s3) := State.spawnLanes k g t recs false s2
                    let g1 := (s3.group? k).getD g
                    let out := Lanes.ofFn fun l => ((sts.find? fun e => e.1 = l).map (·.2)).getD 0#32
                    let (g2, wb) := (g1.mDead a).writeDst a.data a.keep g.exec out
                    let wait := lanes.foldl (fun m e => max m (figureOf w e.2)) 0
                    (s3.advance k { g2 with irrev := true } c (g.occupancy a.uses 0 + wait + wb) (some (g.nibOf a.data g.exec out))).refront
                      (s.partCtx k g).1 (s.partCtx k g).2 k.die

/-- TSPAWN. -/
def State.spawnOp (s : State) (a : MArgs) (long : Bool) : Host.Outcome State Fault Refusal :=
  s.withIssuer fun k g c =>
    let b : MArgs := { a with wid := 2 }
    if g.pending (g.mTouch b) then s.hold k g
    else if a.badSpawn long then s.raise k g (trapOf .illField 0#32)
    else if !a.offOk then s.raise k g (trapOf .illOperand (auxSpec g a.off))
    else if !isLaneReg a.data then s.raise k g (trapOf .illOperand (auxSpec g a.data))
    else match g.check128 b.uses with
      | some t => s.raise k g t
      | none => s.spawnIssue k g c b

/-! ## TDONE, TABORT, TSERIAL (R345) -/

/-- TDONE. -/
def State.tdoneOp (s : State) : Host.Outcome State Fault Refusal :=
  s.withIssuer fun k g c =>
    if g.fieldP c != 0#24 then s.raise k g (trapOf .illField 0#32) else s.taskDone k g

/-- TABORT (R84). -/
def State.tabortOp (s : State) : Host.Outcome State Fault Refusal :=
  s.withIssuer fun k g c =>
    let (part, ctx) := s.partCtx k g
    if g.fieldP c != 0#24 then s.raise k g (trapOf .illField 0#32)
    else match g.task with
      | some t => if t.spec then s.abort part ctx t.record.id true else s.raise k g (trapOf .illOperand (auxSpec g 0#8))
      | none => s.raise k g (trapOf .illOperand (auxSpec g 0#8))

/-- TSERIAL. -/
def State.tserialOp (s : State) : Host.Outcome State Fault Refusal :=
  s.withIssuer fun k g c =>
    if g.fieldP c != 0#24 then s.raise k g (trapOf .illField 0#32)
    else if g.speculative then s.desched k g .promotion
    else s.advance k { g with irrev := true } c 1 none

/-! ## LAUNCH (R349 to R351) -/

/-- A kernel record (R245). -/
def krecOf (bs : List Byte) : KRec :=
  let n (i len : Nat) : Nat := leNat ((bs.drop i).take len)
  let f := n 16 4
  { kofs := BitVec.ofNat 32 (n 8 4), regs := f % 256, ord := f / 256 % 2 = 1, idem := f / 512 % 2 = 1, pair := f / 1024 % 2 = 1,
    gres := f / 2048 % 2 = 1, scr := n 20 4, tx := n 24 2, ty := n 26 2, tz := n 28 2, cw := n 30 1, ch := n 31 1,
    trap := BitVec.ofNat 32 (n 32 4), rcf := n 36 2, rcn := n 38 2, rtab := n 40 8 % 2 ^ 57 }

/-- What a launch descriptor says (R350). -/
structure LaunchDesc where
  krub : Nat
  tx : Nat
  ty : Nat
  tz : Nat
  gpt : Nat
  cw : Nat
  ch : Nat
  budget : Word
  asel : BitVec 16
  aofs : Nat
  alen : Nat
  evn : Nat
  even : Bool
  bad : Bool
  deriving DecidableEq, Repr

/-- A cluster shape within R95. -/
def clusterOk (w h : Nat) : Bool := decide (1 ≤ w) && decide (w ≤ 4) && decide (1 ≤ h) && decide (h ≤ 4) && decide (w * h ≤ 12)

def launchDesc (bs : List Byte) : LaunchDesc :=
  let n (i len : Nat) : Nat := leNat ((bs.drop i).take len)
  let alen := n 32 2
  { krub := n 0 4 % 4096, tx := n 4 2, ty := n 6 2, tz := n 8 2, gpt := n 10 1, cw := n 12 1, ch := n 13 1, budget := BitVec.ofNat 32 (n 16 4),
    asel := BitVec.ofNat 16 (n 20 2), aofs := n 24 6, alen := alen, evn := n 34 2, even := n 36 4 % 2 = 1,
    bad := decide (4096 ≤ n 0 4) || n 11 1 != 0 || n 14 2 != 0 || n 22 2 != 0 || n 30 2 != 0 || decide (2 ≤ n 36 4) || n 40 24 != 0
      || n 4 2 == 0 || n 6 2 == 0 || n 8 2 == 0 || n 10 1 == 0 || decide (32 < n 10 1) || !clusterOk (n 12 1) (n 13 1)
      || alen % 64 != 0 || alen == 0 || decide (4096 < alen) }

/-- The device-launched grids of a partition's context that are enqueued and have not retired (R62). -/
def State.deviceGrids (s : State) (part ctx : Nat) : Nat :=
  (s.host.launches.filter fun e => e.2.queue == none && e.2.asked == none && e.2.part == part && e.2.ctx == ctx).length

/-- The quota in force (R45). -/
def State.launchQuota (s : State) (die ctx : Nat) : Nat := min 1024 (bits (s.ctx die ctx).lqNow 0 11).toNat

/-- The child grid as a launch of one node. -/
def State.childLaunch (s : State) (k : GKey) (g : Group) (st : Nat) (x : LaunchDesc) (kr : KRec) (code : SegReg) (args : List Byte) : Launch :=
  let part := s.slotOf k.die
  let node : Node :=
    { kind := .grid, preds := [], rubric := x.krub, tx := x.tx, ty := x.ty, tz := x.tz, gpt := x.gpt, cw := x.cw, ch := x.ch,
      budget := x.budget, addr := 0#64, count := 0#64, src := 0#64, name := 0 }
  { queue := none, parent := (s.team? g.team).map (·.launch), part := part, ctx := s.ctxOf g.team, prio := 0, serial := false, irq := false,
    first := false, started := true, nodes := [node], runs := [.waiting], seen := [0#32], args := args, recs := [(0, { kr with ord := false }, code)],
    gen := (s.part part).gen, err := 0#8, evn := if x.even then some x.evn else none, taken := s.clk, asked := some (k, g.team, st) }

/-- Bytes read through a segment as a load, or what stops it: a refresh of the folio (R166), or a cause of R141. -/
inductive SegRead where
  | wait
  | bytes (bs : List Byte) (rs : List Run) (s : State)
  | trap (t : Trap)
  | fault (f : XFault) (t : Trap) (s : State)

def State.segRead (s : State) (k : GKey) (g : Group) (r : SegReg) (o n align : Nat) : SegRead :=
  let w := s.whoOf k g
  let at_ : Trap := { cause := .segLimit, aux := 0#32, ofs := o % 2 ^ 48, sel := r.sel.toNat, lin := 0 }
  match s.segCheck w r .read true n align [(0, (o : Int))] with
  | some t => .trap t
  | none => match s.reachSeg w (s.team? g.team) r .read o n with
    | (.hole, _) => .trap at_
    | (.fault f lin, s1) => .fault f { at_ with cause := .pageLoad, lin := lin } s1
    | (.runs rs, s1) =>
      if (s1.refreshEnd rs).isSome then .wait
      else if s1.spoiled rs then .trap { at_ with cause := .eccUncorr, lin := r.base.toNat + o }
      else let (bs, s2) := s1.loadRuns rs; .bytes bs rs s2

/-- LAUNCH's work once its kernel record is read: the copy of the arguments, and the grid on its way to the scriptorium, where the quota is looked at
(R351). The group holds its pen until the answer is in its scalar. -/
def State.launchGo (s : State) (k : GKey) (g : Group) (c : Clause) (st : Nat) (x : LaunchDesc) (kr : KRec) (code : SegReg) (occ : Nat) : State :=
  let w := s.whoOf k g
  let ctx := s.ctxOf g.team
  let done (t : State) (v : Word) (o : Nat) : State :=
    t.advance k ({ g.setScalar st v with irrev := true }.acquire s.clk 5) c (occ + o) none
  if x.bad then done s 3#32 0
  else match s.loadSeg w g x.asel with
    | (.error f, s1) => s1.tableFault k g f (s1.descLin w x.asel.toNat)
    | (.ok (r, _), s1) => match s1.segRead k g r x.aofs x.alen 64 with
      | .trap t => s1.raise k g t
      | .wait => s1.hold k g
      | .fault f t s2 => s2.pageFault k g f t false g.pos .instr
      | .bytes bs rs s2 =>
        let (id, s3) := s2.newId
        let l := s3.childLaunch k g st x kr code bs
        let s4 := s3.setHost { s3.host with launches := s3.host.launches.put id l }
        let t := occ + figureOf w rs + 30 * hops k.die 0
        (s4.hold k { g with half := .sent, irrev := true }).within t (t + 8192) (.nodeStart id 0)

/-- LAUNCH. -/
def State.launchOp (s : State) (f : GFmt) : Host.Outcome State Fault Refusal :=
  s.withIssuer fun k g c =>
    let st := f.s.toNat - 0x80
    let tb : BitVec 8 := f.idx.extractLsb' 0 8
    let w := s.whoOf k g
    if g.pending (touchScalars (st :: useScalars [useOf tb true 1])) then s.hold k g
    else if f.idx.extractLsb' 8 4 != 0#4 then s.raise k g (trapOf .illField 0#32)
    else if !isScalar f.s then s.raise k g (trapOf .illOperand (auxSpec g f.s))
    else if !isScalar tb then s.raise k g (trapOf .illOperand (auxSpec g tb))
    else if g.half = .sent then s.hold k g
    else if g.half = .done then s.advance k (g.acquire s.clk 5) c 1 none
    else if g.speculative then s.desched k g .promotion
    else if !g.released then s.hold k g
    else if s.acquiring k g then s.waitAcquire k g
    else match s.segRead k g (g.segReg f.g.toNat) (g.uniform tb).toNat 64 64 with
      | .trap t => s.raise k g t
      | .wait => s.hold k g
      | .fault x t s1 => s1.pageFault k g x t false g.pos .instr
      | .bytes bs rs s1 =>
        let x := launchDesc bs
        let lin := s1.rubricLin w x.krub
        match s1.readLin w lin 8 with
        | (.error e, s2) => s2.tableFault k g e lin
        | (.ok eb, s2) =>
          let e := entryOf eb
          if e.state ≠ 2 then s2.linkTrapOp k g x.krub e lin
          else match s2.loadSeg w g (BitVec.ofNat 16 e.sel) with
            | (.error y, s3) => s3.tableFault k g y (s3.descLin w e.sel)
            | (.ok (r, krec), s3) =>
              let kindTrap := trapOf .rubricKind (BitVec.ofNat 32 x.krub)
              if r.kind ≠ 1#3 ∨ r.bad then s3.raise k g kindTrap
              else if krec = 0 then s3.raise k g kindTrap
              else match s3.readLin w krec 64 with
                | (.error y, s4) => s4.tableFault k g y krec
                | (.ok kb, s4) =>
                  let (t, s5) := s4.tableClk
                  s5.launchGo k g c st x (krecOf kb) r (1 + figureOf w rs + 3 * t)

/-! ## The instructions and events -/

/-- TSPAWN (0xc0). -/
def execTspawn (f : MFmt) (s : State) : Host.Outcome State Fault Refusal := s.spawnOp (mShort 0xc0 f) false
/-- TSPAWN, long form. -/
def execTspawnLong (f : MFmt) (x : MLong) (s : State) : Host.Outcome State Fault Refusal := s.spawnOp (mLong 0xc0 f x) true
/-- TDONE (0xc1). -/
def execTdone (s : State) : Host.Outcome State Fault Refusal := s.tdoneOp
/-- TABORT (0xc2). -/
def execTabort (s : State) : Host.Outcome State Fault Refusal := s.tabortOp
/-- TSERIAL (0xc3). -/
def execTserial (s : State) : Host.Outcome State Fault Refusal := s.tserialOp
/-- LAUNCH (0xc7). -/
def execLaunch (f : GFmt) (s : State) : Host.Outcome State Fault Refusal := s.launchOp f
/-- TASK_DISPATCH. -/
def execTaskDispatch (s : State) : Host.Outcome State Fault Refusal :=
  match s.subject with
  | .taskDispatch d p c => .next (s.taskDispatch d p c)
  | _ => .fault .noSubject
/-- FRONTIER_SAMPLE. -/
def execFrontierSample (s : State) : Host.Outcome State Fault Refusal :=
  match s.subject with
  | .frontierSample p c i => .next (s.frontierSample p c i)
  | _ => .fault .noSubject
/-- FRONTIER_UPDATE. -/
def execFrontierUpdate (s : State) : Host.Outcome State Fault Refusal :=
  match s.subject with
  | .frontierUpdate p c i d o => .next (s.frontierUpdate p c i d o)
  | _ => .fault .noSubject
/-- TASK_COMMIT. -/
def execTaskCommit (s : State) : Host.Outcome State Fault Refusal :=
  match s.subject with
  | .taskCommit p c d => .next (s.taskCommit p c d)
  | _ => .fault .noSubject
/-- SPILL_REFILL. -/
def execSpillRefill (s : State) : Host.Outcome State Fault Refusal :=
  match s.subject with
  | .spillRefill d p c => .next (s.spillRefill d p c)
  | _ => .fault .noSubject

end Sys2Proof.Machine
end

