-- ==== Sys2Proof/Machine/Issue.lean ====
section
/-! DEFINITION. The pens (R51 to R53): the fetch of a clause (R254, R330), its header's wait (R253), its decode (R255) and its start,
the passing of a pen, and what is raised at a clause boundary (R56, R89, R90, R114); budgets, and PKCTL (R55). -/

namespace Sys2Proof.Machine

/-! ## Fetch (R254, R330) -/

/-- Where code bytes come from: nowhere, the clause cache, or memory. -/
inductive CodeFrom where
  | nowhere | cache | memory
  deriving DecidableEq, Repr

/-- What a fetch comes to. -/
inductive Fetched where
  | clause (c : Clause)
  | missing
  | trap (t : Trap) (kind : ResumeKind) (hdr : Option Word)
  | stale
  | fault (f : XFault) (lin ofs : Nat)
  deriving DecidableEq, Repr

/-- A line that a core has fetched since the last TLBINV that covers it (R330). -/
def State.lineKept (s : State) (k : GKey) (ctx lin : Nat) : Option (List Byte) :=
  ((s.core k.die k.core).lines.find? fun l => l.ctx = ctx ∧ l.lin = lin / 64 * 64).map (·.bytes)

/-- The lines that the clause cache of a core holds: 1024 (R330; log 15). -/
def cacheLines : Nat := 1024

/-- A line that the clause cache of a core holds. -/
def State.lineAt (s : State) (k : GKey) (ctx lin : Nat) : Option (List Byte) :=
  (((s.core k.die k.core).lines.take cacheLines).find? fun l => l.ctx = ctx ∧ l.lin = lin / 64 * 64).map (·.bytes)

/-- A byte of code that comes from memory, where it is `now`: a line that has been fetched reads as it was then, since a change reaches fetch
only after a TLBINV (R330). -/
def State.codeByte (s : State) (k : GKey) (ctx lin : Nat) (now : Byte) : Byte :=
  match s.lineKept k ctx lin with
  | some bs => bs.getD (lin % 64) now
  | none => now

/-- The lines that `n` bytes at a linear address lie in. -/
def lineStarts (lin n : Nat) : List Nat := (List.range ((lin % 64 + n + 63) / 64)).map fun i => lin / 64 * 64 + 64 * i

/-- Code bytes: none where a line is missing. -/
def State.codeBytes (s : State) (k : GKey) (w : Who) (from_ : CodeFrom) (lin n : Nat) : Except (XFault × Nat) (Option (List Byte)) × State :=
  match from_ with
  | .nowhere => (.ok none, s)
  | .cache =>
    match (lineStarts lin n).foldr (fun a acc => match acc, s.lineAt k w.ctx a with
      | some l, some bs => some (bs ++ l)
      | _, _ => none) (some []) with
    | some l => (.ok (some ((l.drop (lin % 64)).take n)), s)
    | none => (.ok none, s)
  | .memory =>
    match s.translateRange w .fetch 3 lin n with
    | (.error e, s1) => (.error e, s1)
    | (.ok rs, s1) =>
      if s1.spoiled rs then (.ok none, s1)
      else
        let now := s1.readRuns rs
        (.ok (some ((List.range n).map fun i => s1.codeByte k w.ctx (lin + i) (now.getD i 0#8))), s1)

/-- A segment cause of a fetch at an offset. -/
def fetchTrap (c : Cause) (r : SegReg) (o : Nat) : Trap := { cause := c, aux := 0#32, ofs := o, sel := r.sel.toNat, lin := 0 }

/-- The clause at the group's PC (R254). Code read from memory that is not there has an uncorrectable error (R168). -/
def State.fetchClause (s : State) (k : GKey) (g : Group) (from_ : CodeFrom) : Fetched × State :=
  let r := g.segReg 15
  let w := s.whoOf k g
  let o := g.pc.toNat
  let gone (hdr : Option Word) : Fetched :=
    if from_ = .memory then .trap { fetchTrap .eccUncorr r o with lin := r.base.toNat + o } .decode hdr else .missing
  match s.segStep w r .fetch false (o : Int) 4 4 with
  | some 2 => (.stale, s)
  | some n => (.trap (fetchTrap (segCause n) r o) .decode none, s)
  | none =>
    match s.codeBytes k w from_ (r.base.toNat + o) 4 with
    | (.error (f, lin), s1) => (.fault f lin o, s1)
    | (.ok none, s1) => (gone none, s1)
    | (.ok (some bs), s1) =>
      let h := BitVec.ofNat 32 (leNat bs)
      let n := headerBody h
      if !headerOk h then (.trap (trapOf .illHdr 0#32) .word (some h), s1)
      else if r.limit.toNat < o + 4 + 4 * n then
        (.trap (fetchTrap .segLimit r (o + 4 * ((r.limit.toNat - o) / 4))) .decode (some h), s1)
      else
        match s1.codeBytes k w from_ (r.base.toNat + o + 4) (4 * n) with
        | (.error (f, lin), s2) => (.fault f lin o, s2)
        | (.ok none, s2) => (gone (some h), s2)
        | (.ok (some ws), s2) => (.clause { ofs := g.pc, hdr := h, words := wordsOf n ws, begun := false, skipWait := false }, s2)

/-- A clause of which only the header word is known, for the trap frame. -/
def headerOnly (g : Group) (h : Option Word) : Group :=
  { g with clause := h.map fun w => { ofs := g.pc, hdr := w, words := [], begun := false, skipWait := false } }

/-- A fetch through a stale g15 parks, with a record (R143); in a speculative task it is deferred (R89). -/
def State.fetchStale (s : State) (k : GKey) (g : Group) : State :=
  let r := g.segReg 15
  let t : Trap := { cause := .segStale, aux := 2#32, ofs := g.pc.toNat, sel := r.sel.toNat, lin := r.base.toNat + g.pc.toNat }
  if g.speculative then s.leavePen k g (.parked (.deferred t 15 .boundary false))
  else (s.leavePen k g (.parked .stale)).report k.die (s.ctxOf g.team) (groupFault k t)

/-- A fetch meets a page fault: PAGE_FETCH and the others (R156). -/
def State.fetchFault (s : State) (k : GKey) (g : Group) (f : XFault) (lin ofs : Nat) : State :=
  s.pageFault k g f { cause := .pageFetch, aux := 2#32, ofs := ofs, sel := (g.segReg 15).sel.toNat, lin := lin } true 15 .boundary

/-- When the missing lines of a clause arrive (R330): the latency of the code's place, 1 clk more for each further line. -/
def State.fetchLatency (s : State) (k : GKey) (g : Group) : Except (XFault × Nat) Nat × State :=
  let w := s.whoOf k g
  let lin := (g.segReg 15).base.toNat + g.pc.toNat
  match s.translate w lin .fetch with
  | (.error f, s1) => (.error (f, lin), s1)
  | (.ok p, s1) =>
    let h := BitVec.ofNat 32 (leNat (s1.readBytes p 4))
    (.ok (latencyOf w p + (lineStarts lin (4 + 4 * headerBody h)).length - 1), s1)

/-- Keep the lines of the `n` bytes of code at the group's PC, the latest first; a line fetched before is kept as it was (R330; log 15). -/
def State.keepLines (s : State) (k : GKey) (g : Group) (n : Nat) : State :=
  let w := s.whoOf k g
  let lin := (g.segReg 15).base.toNat + g.pc.toNat
  (lineStarts lin n).foldl (fun t a =>
    match t.translateRange w .fetch 2 a 64 with
    | (.ok rs, t1) =>
      let bs := (t1.lineKept k w.ctx a).getD (t1.readRuns rs)
      t1.updCore k.die k.core fun x =>
        { x with lines := { ctx := w.ctx, lin := a, bytes := bs } :: x.lines.filter fun l => !(l.ctx == w.ctx && l.lin == a) }
    | (.error _, t1) => t1) s

/-- A group that idles with its pen becomes ready: the pen goes to the oldest ready group, which may be the same one (R52). -/
def State.idleOn (s : State) (k : GKey) (g : Group) : State := s.putGroup k { g with run := .ready, readyAt := s.clk }

/-- A line that the first `n` bytes of a group's clause need from memory lies in a folio bank in its refresh window: when that ends (R166). -/
def State.fetchRefresh (s : State) (k : GKey) (g : Group) (n : Nat) : Option Nat :=
  let w := s.whoOf k g
  (lineStarts ((g.segReg 15).base.toNat + g.pc.toNat) n).findSome? fun a =>
    if (s.lineKept k w.ctx a).isSome then none
    else match (s.translateRange w .fetch 2 a 64).1 with
      | .ok rs => s.refreshEnd rs
      | .error _ => none

/-- Whether the lines that a group's fetch asked for are in its core's clause cache: its own fetch or another group's has brought them (R330). -/
def State.linesCome (s : State) (k : GKey) (g : Group) : Bool :=
  match (s.fetchClause k g .cache).1 with
  | .missing => false
  | _ => true

/-- CLAUSE_FETCH_ARRIVE: the clause a group waits for has come (R330), once the pieces of it that cross links are home (R13); a folio bank in refresh
holds it (R166). The lines of a header that raises have come too. -/
def State.clauseFetchArrive (s : State) (k : GKey) : State :=
  match s.group? k with
  | none => s
  | some g =>
    let back (t : State) (h : Group) : State :=
      match h.run with
      | .idle => t.idleOn k h
      | _ => t.putGroup k { h with run := .ready, readyAt := t.clk }
    let waits : Bool := match g.run with
      | .waiting .fetch => true
      | .idle => g.clause.isNone
      | _ => false
    if !waits || s.readFlies (.clause k) then s
    else match s.fetchClause k g .memory with
      | (.clause c, s1) => match s1.fetchRefresh k g (4 + 4 * c.words.length) with
        | some t => s1.post t (.clauseFetchArrive k)
        | none => back (s1.keepLines k g (4 + 4 * c.words.length)) { g with clause := some c }
      | (.trap t kind h, s1) => match h.bind fun _ => s1.fetchRefresh k g 4 with
        | some e => s1.post e (.clauseFetchArrive k)
        | none => back (if h.isSome then s1.keepLines k g 4 else s1) { headerOnly g h with raiseDue := some (t, 15, kind, .plain) }
      | (.stale, s1) => s1.fetchStale k g
      | (.fault f lin o, s1) => s1.fetchFault k g f lin o
      | (.missing, s1) => back s1 g

/-! ## The header's wait (R102, R253) -/

/-- What a group at a clause boundary comes to: it may start, it waits, or it has gone elsewhere. -/
inductive Look where
  | start (g : Group) (c : Clause) (s : State)
  | wait (g : Group) (w : Wait) (s : State)
  | gone (s : State)

/-- The path whose counter a header of a class waits on. -/
def waitPath (cls : Nat) : Nat := if cls = 3 then 1 else if cls = 2 then 2 else 0

/-- The header's wait of a clause that has been fetched. -/
def State.headerLook (s : State) (k : GKey) (g : Group) (c : Clause) : Look :=
  let wp := headerWp c.hdr
  if c.skipWait || (g.flash == .forward && headerPp c.hdr && g.half != .sent) then .start g c s
  else match headerWk c.hdr with
    | 1 => if g.path (waitPath (headerCls c.hdr)) ≤ wp then .start g c s else .wait g .header s
    | 2 =>
      let b : BarKey := .team g.team wp
      match s.barWait g b with
      | .met => .start (g.acquire s.clk (barScope b)) c s
      | .wait _ => .wait g .header s
      | .late => .gone (s.raiseAt k { g with arrivals := assocDel g.arrivals b } (barTrap (BitVec.ofNat 6 (16 + wp)) 0) 15 .headerWait)
    | 3 =>
      if g.speculative then .gone (s.desched k g .promotion)
      else match g.half with
        | .done => .start ({ g with half := .fresh }.acquire s.clk 5) c s
        | .sent => .wait g .header s
        | .fresh => if g.pending (touchScalars [wp]) then .wait g .header s else .wait { g with half := .sent, irrev := true } .header
            (s.eventAct k.die (s.ctxOf g.team) wp (.wait k g.team (g.scalar wp)))
    | _ => .start g c s

/-- The code segment of a task whose entry is a rubric index (R76): loaded from the BOUND entry, or handled as LINK or RUBRIC_KIND. -/
def State.taskEntry (s : State) (k : GKey) (g : Group) (idx : Nat) : Except State (Group × State) :=
  let w := s.whoOf k g
  let lin := s.rubricLin w idx
  let fault (t : State) (f : XFault) (a : Nat) : State :=
    t.pageFault k g f { cause := .pageLoad, aux := 0#32, ofs := 0, sel := 0, lin := a } false 15 .boundary
  match s.readLin w lin 8 with
  | (.error f, s1) => .error (fault s1 f lin)
  | (.ok bs, s1) =>
    let e := entryOf bs
    if e.state ≠ 2 then
      .error (if g.speculative then s1.linkTrapOp k g idx e lin else s1.raiseAt k g (linkTrap idx e lin) 15 .boundary)
    else match s1.loadSeg w g (BitVec.ofNat 16 e.sel) with
      | (.error f, s2) => .error (fault s2 f (s2.descLin w e.sel))
      | (.ok (r, _), s2) =>
        if r.kind ≠ 1#3 then .error (s2.raiseAt k g (trapOf .rubricKind (BitVec.ofNat 32 idx)) 15 .boundary)
        else .ok ({ g with seg := g.seg.put 15 r, task := g.task.map fun (t : Task) => { t with entered := true } }.acquire s.clk 5, s2)

/-- The rubric index a task's code segment is still to come from. -/
def Group.entryIdx (g : Group) : Option Nat :=
  match g.task with
  | some t => if !t.entered ∧ g.handler = none then some (bits t.record.entry 0 12).toNat else none
  | none => none

/-- The requests for the missing lines of a group's clause, and their answers, cross the links to the code's place (R13). -/
def State.fetchFlits (s : State) (k : GKey) (g : Group) : State :=
  let w := s.whoOf k g
  let lin := (g.segReg 15).base.toNat + g.pc.toNat
  match s.translate w lin .fetch with
  | (.error _, _) => s
  | (.ok p, _) =>
    let h := BitVec.ofNat 32 (leNat (s.readBytes p 4))
    ((lineStarts lin (4 + 4 * headerBody h)).filter fun a => (s.lineKept k w.ctx a).isNone).foldl (fun t a =>
      match (t.translateRange w .fetch 2 a 64).1 with
      | .ok rs => t.sendReads k.die (.clause k) g.team w.ctx rs
      | .error _ => t) s

/-- Fetch the next clause of a group that has none. -/
def State.fetchLook (s : State) (k : GKey) (g : Group) : Look :=
  match s.fetchClause k g .cache with
  | (.clause c, s1) => s1.headerLook k { g with clause := some c } c
  | (.trap t kind h, s1) => .gone (s1.raiseAt k (headerOnly g h) t 15 kind)
  | (.stale, s1) => .gone (s1.fetchStale k g)
  | (.fault f lin o, s1) => .gone (s1.fetchFault k g f lin o)
  | (.missing, s1) => match s1.fetchLatency k g with
    | (.ok n, s2) => .wait g .fetch ((s2.after n (.clauseFetchArrive k)).fetchFlits k g)
    | (.error (f, lin), s2) => .gone (s2.fetchFault k g f lin g.pc.toNat)

/-- A recipe that has run to its end gives way to its point (R65); a handler that interrupts it is no part of it. -/
def Group.recipeDone (g : Group) : Group :=
  match g.recipe with
  | (0, pc, inside) :: rest => if g.handler.isSome = inside then { g with recipe := rest, pc := pc, clause := none } else g
  | _ => g

/-- The clauses of a recipe still to run after one more has started. -/
def Group.recipeNext (g : Group) : List (Nat × BitVec 48 × Bool) :=
  match g.recipe with
  | (n, pc, inside) :: rest => if g.handler.isSome = inside then (n - 1, pc, inside) :: rest else g.recipe
  | [] => []

/-! ## The emulation handler (R251, R394, R395) -/

/-- The object whose emulation handler a group in handler mode is about to run. -/
def State.emulates (s : State) (k : GKey) (g : Group) : Option EmuObject :=
  if g.handler.isSome then
    (s.emuObject (s.slotOf k.die) (s.ctxOf g.team) (g.segReg 15).sel).bind fun o => if g.pc.toNat = (handlerAt o) then some o else none
  else none

/-- The note entry that covers what a trap frame holds (R395). -/
def noteEntry (o : EmuObject) (flags w0 w1 : Word) : Option NoteEntry :=
  if flags.extractLsb' 0 8 != 0x02#8 || flags.getLsbD 13 || !flags.getLsbD 12 then none
  else o.note.find? fun e => e.opc == w0.extractLsb' 24 8 && w1 &&& e.mask == e.val

/-- The words of RTT.skip. -/
def rttSkip : Word := 0x0a000001#32

/-- The handler's own part of the frame, +0x38 to +0xff, holds what its code leaves there: free bytes (log 128). -/
def State.handlerKeeps (s : State) (tm : Team) (h : Handler) : State :=
  (s.writeScratch tm (h.frame.toNat + 0x38) ((List.range 200).map fun i => Config.handlerByte (s.freeCtr + i))).setFreeCtr (s.freeCtr + 200)

/-- The emulation handler begins (R395): the instruction in its level-3 form, with the frame's EXEC and nibs, stands before RTT.skip as the rest of
the handler; a trap that no entry covers goes to the kernel's TRAP, or is reported and kills the group (R251). -/
def State.emulate (s : State) (k : GKey) (g : Group) (h : Handler) (tm : Team) (o : EmuObject) : State :=
  let fr := s.readScratch tm h.frame.toNat 512
  let word (i : Nat) : Word := BitVec.ofNat 32 (leNat ((fr.drop i).take 4))
  match noteEntry o (word 0x08) (word 0x0c) (word 0x10) with
  | some e =>
    let c : Clause := { ofs := g.pc, hdr := 5#3 ++ 2#4 ++ 1#3 ++ 0#2 ++ 0#4 ++ 0#1 ++ 1#15, words := [word 0x0c, word 0x10 &&& ~~~e.mask, rttSkip],
                        begun := true, skipWait := false }
    let g1 : Group := { g with run := .active, clause := some c, pos := 0, half := .fresh, exec := word 0x18 &&& g.population,
                               n0 := some (lanesOfBytes (fr.drop 0x100)), n1 := some (lanesOfBytes (fr.drop 0x180)),
                               handler := some { h with found := some g.exec } }
    ((s.handlerKeeps tm h).putGroup k g1).busy k 96
  | none =>
    if tm.krec.trap = 0xffffffff#32 then (s.send (.unhandled k (BitVec.ofNat 8 h.cause.ec) (leNat (fr.take 6)))).killGroup k g
    else (s.handlerKeeps tm h).jump k { g with run := .active } (tm.krec.trap.setWidth 48) 1

/-- What a group at a clause boundary may do. -/
def State.look (s : State) (k : GKey) (g0 : Group) : Look :=
  let g := g0.recipeDone
  match g.clause with
  | some c => s.headerLook k g c
  | none => match g.entryIdx with
    | none => match s.emulates k g, g.handler, s.team? g.team with
      | some o, some h, some tm => .gone (s.emulate k g h tm o)
      | _, _, _ => s.fetchLook k g
    | some i => match s.taskEntry k g i with
      | .error s1 => .gone s1
      | .ok (g1, s1) => s1.fetchLook k g1

/-! ## The pen (R52) -/

/-- Whether flashback saves a group (R64). -/
def Group.beingSaved (g : Group) : Bool :=
  match g.flash with
  | .saving _ _ => true
  | _ => false

/-- The ready groups of a pen but for one slot. -/
def State.readyOn (s : State) (p : PenKey) (but : Option Nat) : List (GKey × Group) :=
  (penSlots p).filterMap fun k => match s.group? k with
    | some g => if some k.slot ≠ but ∧ g.run = .ready ∧ g.readyAt ≤ s.clk ∧ !g.beingSaved then some (k, g) else none
    | none => none

/-- The oldest ready group, the lower slot on a tie. -/
def State.oldestOn (s : State) (p : PenKey) (but : Option Nat) : Option (GKey × Group) :=
  (s.readyOn p but).foldl (fun (b : Option (GKey × Group)) x => match b with
    | some y => if x.2.readyAt < y.2.readyAt then some x else b
    | none => some x) none

/-- The oldest ready group, but for one that has just passed the pen, takes it, with no tenure used. -/
def State.takePen (s : State) (p : PenKey) (but : Option Nat) : State :=
  match s.oldestOn p but with
  | none => s
  | some (k, g) =>
    (s.putGroup k { g with run := .active, tenure := 0 }).putPen p
      { s.pen p with holder := some k.slot, askedAt := max s.clk (s.pen p).freeAt, stalled := false }

/-- A group gives up its pen at a clause boundary: its well is written back first (R52, R125). -/
def State.quitPen (s : State) (p : PenKey) (k : GKey) (g : Group) (r : RunState) : State :=
  let (g1, t) := g.flushWell
  let x := s.pen p
  (s.putGroup k { g1 with run := r }).putPen p { x with holder := none, freeAt := max x.freeAt (s.clk + t), stalled := false }

/-- The clause starts: it is decoded, or raises (R255); a palimpsest point is noted, with the recipe as it was before the point's own clause
was counted (R63, R242). -/
def State.beginClause (s : State) (k : GKey) (g : Group) (c : Clause) (again : Bool) : State :=
  match c.check g.exec with
  | some (cs, pos, aux) => s.raiseAt k { g with clause := some c } (trapOf cs aux) pos .decode
  | none =>
    let g1 : Group := { g with run := .active, clause := some { c with begun := true, skipWait := false }, pos := 0, half := .fresh, n0 := none, n1 := none,
                               tenure := (if again then 0 else g.tenure) + 1,
                               recipe := g.recipeNext }
    s.putGroup k (if headerPp c.hdr then { g1 with ppc := c.ofs.setWidth 32, ppseg := g.segReg 15, pphand := g.handler, pprecipe := g.recipe, irrev := false } else g1)

/-- The park of a speculative task whose budget is spent: BUDGET is delivered when it is promoted (R90, R268). -/
def Group.budgetPark (g : Group) : Park :=
  let inside : Bool := g.clause.any fun c => c.begun
  .deferred (trapOf .budget 0#32) (if inside then g.pos else 15) (if inside then .instr else .boundary) false

/-- What comes before anything else when a group has its pen: a cause recorded for it (R89, R138), the park of a speculative task whose budget is
spent (R90), and at a clause boundary a second arrival (R114), then BUDGET (R56, R90). -/
def State.deliverDue (s : State) (k : GKey) (g : Group) : Option State :=
  match g.raiseDue with
  | some (t, pos, kind, dfr) =>
    let g1 : Group := { g with raiseDue := none }
    some (match dfr with
      | .plain => s.raiseAt k g1 t pos kind
      | .deferred => s.deliverDeferred k g1 t pos kind false
      | .hyper => s.deliverDeferred k g1 t pos kind true)
  | none =>
    if g.speculative && (g.task.any fun t => t.budgetOut) then some (s.leavePen k g (.parked g.budgetPark))
    else if g.clause.any fun c => c.begun then none
    else
      let g1 : Group := { g with half := if g.half = .sent then .fresh else g.half }
      match g.barrierDue with
      | a :: rest => some (s.raiseAt k { g1 with barrierDue := rest } (trapOf .barrier a) 15 .boundary)
      | [] => if g.budgetDue then some (s.raiseAt k { g1 with budgetDue := false } (trapOf .budget 0#32) 15 .boundary) else none

/-- A group stops to be saved, once its pen has finished its instruction: it leaves its pen, with its well written back before the next group's first
instruction is granted (R52, R64). A barrier wait, an event wait, a
claim and a park stay (R66); any other wait is met anew when the group is restored. -/
def State.stopToSave (s : State) (k : GKey) (g : Group) (full : Bool) : State :=
  let p := s.pen (penOf k)
  let holds : Bool := p.holder == some k.slot
  let (g1, wb) := if holds then g.flushWell else (g, 0)
  let free := if holds then max s.clk p.freeAt + wb else s.clk
  let s1 := if holds then s.putPen (penOf k) { p with holder := none, freeAt := free, stalled := false } else s
  let s1 := match g.run, s1.team? g.team with
    | .waiting (.claim _), _ => (s1.putPen (penOf k) { s1.pen (penOf k) with claims := p.claims.filter fun e => e.1 ≠ k.slot }).post s1.clk
        (.claimGrant (penOf k))
    | _, _ => s1
  let run : RunState := match g.run with
    | .parked x => .parked x
    | .waiting (.barrier b n) => .waiting (.barrier b n)
    | .waiting (.event n v) => .waiting (.event n v)
    | .waiting (.claim n) => .waiting (.claim n)
    | .stopped => .stopped
    | _ => .ready
  let half : Half := match g.run with
    | .waiting .pairBind => .fresh
    | .waiting .pairEnd => .fresh
    | _ => g.half
  (s1.putGroup k { g1 with flash := .saving full 0, run := run, half := half }).post free (.groupSave k g.team)

/-- A group at a clause boundary holds its pen: it starts its clause, passes the pen, or leaves it idle (R52); one that waits on a barrier is descheduled
(R125, R336). -/
def State.boundary (s : State) (p : PenKey) (k : GKey) (g0 : Group) : State :=
  let g := if g0.clause.any fun c => c.begun then g0 else g0.recipeDone
  match s.deliverDue k g with
  | some s1 => s1
  | none =>
    if g.clause.any fun c => c.begun then s.putGroup k { g with run := .active }
    else match s.look k g with
      | .gone s1 => s1
      | .start g1 c s1 =>
        let full : Bool := s1.tenq k.die (s1.ctxOf g.team) ≤ g1.tenure
        if g1.flash = .forward ∧ headerPp c.hdr then s1.stopToSave k { g1 with clause := none } false
        else if full && (s1.oldestOn p (some k.slot)).isSome then (s1.quitPen p k { g1 with readyAt := s1.clk } .ready).takePen p (some k.slot)
        else s1.beginClause k g1 c full
      | .wait g1 w s1 =>
        if (s1.oldestOn p (some k.slot)).isSome then (s1.quitPen p k g1 (.waiting w)).takePen p (some k.slot)
        else if g1.clause.any fun c => headerWk c.hdr == 2 then s1.quitPen p k g1 (.waiting w)
        else s1.putGroup k { g1 with run := .idle }

/-- CLAUSE_START. -/
def State.clauseStart (s : State) (p : PenKey) : State :=
  match (s.pen p).holder with
  | none => s.takePen p none
  | some slot =>
    let k : GKey := ⟨p.die, p.core, slot⟩
    match s.group? k with
    | none => (s.putPen p { s.pen p with holder := none }).takePen p none
    | some g => match g.run with
      | .active => s.boundary p k g
      | .ready =>
        if (s.oldestOn p none).any fun e => e.1 != k then (s.quitPen p k g .ready).takePen p none else s.takePen p none
      | .idle =>
        if (s.oldestOn p (some slot)).isSome then (s.quitPen p k g (.waiting (if g.clause.isSome then .header else .fetch))).takePen p none else s
      | _ => (s.putPen p { s.pen p with holder := none }).takePen p none

/-! ## Waits that end when something comes to hold -/

/-- Whether the header's wait of an idle or waiting group is met, or no longer to be waited for. -/
def State.headerMet (s : State) (g : Group) : Bool :=
  match g.clause with
  | none => false
  | some c => match headerWk c.hdr with
    | 1 => decide (g.path (waitPath (headerCls c.hdr)) ≤ headerWp c.hdr)
    | 2 => match s.barWait g (.team g.team (headerWp c.hdr)) with
      | .wait _ => false
      | _ => true
    | 3 => match g.half with
      | .fresh => !g.pending (touchScalars [headerWp c.hdr])
      | .sent => false
      | .done => true
    | _ => true

/-- Whether something is to be raised at the boundary that a group stands at. -/
def Group.boundaryDue (g : Group) : Bool := g.raiseDue.isSome || !g.barrierDue.isEmpty || g.budgetDue

/-- Whether a rubric entry is BOUND. -/
def State.entryBound (s : State) (w : Who) (idx : Nat) : Bool :=
  match s.readLin w (s.rubricLin w idx) 8 with
  | (.ok bs, _) => (entryOf bs).state == 2
  | (.error _, _) => false

/-- Whether the wait of a group has ended. One for more entries than a log has looks again when the log is empty (R157, log 63). -/
def State.waitOver (s : State) (k : GKey) (g : Group) : Bool :=
  match g.run with
  | .idle => g.boundaryDue || s.headerMet g || (g.clause.isNone && s.linesCome k g)
  | .waiting .header => g.boundaryDue || s.headerMet g
  | .waiting .fetch => g.boundaryDue || s.linesCome k g
  | .waiting (.barrier b p) => decide (p < (s.barrier b).phase)
  | .waiting (.path p t) => decide (g.path p ≤ t)
  | .waiting .feeder => (s.freeFeeder k.die).isSome
  | .waiting .owner =>
    let a := s.arr k.die k.core
    let slaved : Bool := match a.pair with
      | some (_, f) => f == k.core && !s.follows k.die k.core g.team
      | none => false
    a.owner == some g.team || (a.owner == none && !slaved)
  | .waiting (.log n) => decide (g.log.length + min n 16 ≤ 16)
  | .waiting .acquire => !s.acquiring k g
  | .parked .room => s.roomFor k.die (s.ctxOf g.team) 1
  | .parked (.link i) => s.entryBound (s.whoOf k g) i
  | _ => false

/-- Pending writes that only time ends. -/
def Group.purge (g : Group) (clk : Nat) : Group := { g with pend := g.pend.filter fun p => p.due = 0 || decide (clk < p.due) }

/-- Lanes of a group's accesses, and answers to them, that stopped on their way, at a closed link or with a far port's refusal, set out
again (R12, R25). -/
def State.resend (s : State) (k : GKey) (team : Nat) : State :=
  (s.access.filter fun e => e.2.g == k && e.2.team == team).foldl (fun t e =>
    e.2.lanes.foldl (fun u x =>
      let away : Bool := match x.path with
        | _ :: _ => !u.fabric.carries fun c => c = .request e.1 x.lane ∨ c = .answer e.1 x.lane
        | [] => !x.done && e.2.kind.isLoad && !(u.agenda.any fun a => a.2 = .loadReturn e.1 x.lane)
      if !away then u
      else if x.done then u.sendBack e.1 (dieWho k.die e.2.ctx) e.2 x
      else u.sendLane e.1 (dieWho k.die e.2.ctx) e.2 x 0) t) s

/-- A group parked by a fault of its own goes on at its instruction; a stale g15 is loaded afresh (R143), and a spent budget of its
team is raised (R56); that of its task is raised at the next clause boundary (R90). -/
def State.resumeParked (s : State) (k : GKey) (g : Group) : State :=
  let g1 : Group := if g.budgetDue && (s.team? g.team).any (·.grace) then { g with budgetDue := false, raiseDue := some (trapOf .budget 0#32, if g.clause.any (·.begun) then g.pos else 15,
      if g.clause.any (·.begun) then .instr else .boundary, .plain) } else g
  ((s.putGroup k g1).makeReady k s.clk).resend k g.team

/-- Look at every group: what waits no longer is ready, what idles with its pen goes on, pending writes whose time is up are done. -/
def State.sweep (s : State) : State :=
  s.groups.foldl (fun t e =>
    let k := keyOfNum e.1
    let g := e.2.purge t.clk
    if t.waitOver k g then
      match g.run with
      | .idle => (t.unpost (.clauseFetchArrive k)).idleOn k g
      | .waiting .fetch => (t.unpost (.clauseFetchArrive k)).putGroup k { g with run := .ready, readyAt := t.clk }
      | .parked _ => t.resumeParked k g
      | .waiting (.log _) => t.resumeParked k g
      | _ => t.putGroup k { g with run := .ready, readyAt := t.clk }
    else if g.pend.length = e.2.pend.length then t
    else t.putGroup k g) s

/-! ## Budgets (R56, R90, R91) -/

/-- A team's budget is at 0: its groups raise BUDGET, its speculative tasks abort, it takes no task, and its grace begins. -/
def State.teamBudgetOut (s : State) (t : Nat) (tm : Team) : State :=
  let s1 := s.putTeam t { tm with budget := some 0, grace := true, noTask := true }
  let s2 := tm.keys.foldl (fun u k => match u.group? k with
    | some g => match g.task with
      | some x => if x.spec then u.abort tm.part tm.ctx x.record.id true else u.putGroup k { g with budgetDue := true }
      | none => u.putGroup k { g with budgetDue := true }
    | none => u) s1
  let s3 := s2.updDie tm.die fun d => { d with saved := d.saved.map fun x =>
    if x.group.team = t then { x with group := { x.group with budgetDue := true } } else x }
  s3.post (s.clk + 4096) (.budgetGraceExpire t)

/-- BUDGET_TICK: a budget is looked at, and falls where its context has run for 64 clk since it last fell (R56, R90); it is looked at again when
the next 64 can be full. -/
def State.budgetTick (s : State) (w : BudgetOf) : State :=
  match w with
  | .team t =>
    match s.team? t with
    | none => s
    | some tm =>
      let el := s.ranClk tm.die tm.ctx - tm.ranAt
      match tm.budget with
      | none => s
      | some 0 => s
      | some (n + 1) =>
        if el < 64 then s.post (s.clk + (64 - el)) (.budgetTick w)
        else if n = 0 then s.teamBudgetOut t tm
        else (s.putTeam t { tm with budget := some n, ranAt := tm.ranAt + 64 }).post (s.clk + max 1 (128 - el)) (.budgetTick w)
  | .task part ctx id =>
    match (s.taskGroups part ctx).find? fun e => e.2.2.record.id = id with
    | none => s
    | some (k, g, t) =>
      let el := s.ranClk k.die ctx - t.ranAt
      if t.budget = 0#32 then s
      else if el < 64 then s.post (s.clk + (64 - el)) (.budgetTick w)
      else
        let b := t.budget - 1#32
        let g1 : Group := { g with task := some { t with budget := b, budgetOut := b == 0#32 && t.spec, ranAt := t.ranAt + 64 },
                                   budgetDue := g.budgetDue || (b == 0#32 && !t.spec),
                                   run := if b == 0#32 && t.spec && g.run == .waiting .promotion then .parked g.budgetPark else g.run }
        let s1 := s.putGroup k g1
        if b = 0#32 then s1 else s1.post (s.clk + max 1 (128 - el)) (.budgetTick w)

/-- A group that flashback has saved is killed: it leaves its team and its barriers, as a group that has a slot does (R56, R115, R145). -/
def State.killSaved (s : State) (die : Nat) (x : Saved) : State :=
  let k : GKey := ⟨die, x.core, savedSlot x.id⟩
  let s1 := s.updDie die fun d => { d with saved := d.saved.filter fun y => y.id ≠ x.id }
  match s1.team? x.group.team with
  | none => s1
  | some t =>
    let s2 := s1.putTeam x.group.team { t with failed := true, groups := t.groups.filter fun e => e.2 ≠ k.slot }
    let s3 := (s2.leaveBarriers k x.group).forgetWait t x.group
    let s4 := match x.group.task with
      | some y => ((s3.keepDraft t.part t.ctx die y).failDomain t.part t.ctx).post s3.clk (.taskCommit t.part t.ctx die)
      | none => s3
    if t.groups.length ≤ 1 then s4.post s4.clk (.teamRetire x.group.team) else s4

/-- BUDGET_GRACE_EXPIRE: every group still present is killed (R56). -/
def State.budgetGraceExpire (s : State) (t : Nat) : State :=
  match s.team? t with
  | none => s
  | some tm =>
    let s1 := tm.keys.foldl (fun u k => match u.group? k with
      | some g => u.killGroup k g
      | none => u) s
    ((s1.die tm.die).saved.filter fun x => x.group.team = t).foldl (fun u x => u.killSaved tm.die x) s1

/-! ## PKCTL (R55, R89) -/

/-- Kill a group: a speculative task aborts for good, and its node fails (R89). -/
def State.killAny (s : State) (k : GKey) (g : Group) : State :=
  match g.task with
  | some t =>
    if t.spec then
      let (part, ctx) := s.partCtx k g
      ((s.failDomain part ctx).abort part ctx t.record.id false).post s.clk (.taskCommit part ctx k.die)
    else s.killGroup k g
  | none => s.killGroup k g

/-- Whether a PKCTL write reaches a group: a master of another context does not (R55). -/
def State.pkReaches (s : State) (g : Group) (by_ : Option Nat) : Bool :=
  match by_ with
  | some c => s.ctxOf g.team == c
  | none => true

/-- PKCTL_RESUME. -/
def State.pkctlResume (s : State) (die core slot : Nat) (by_ : Option Nat) : State :=
  let k : GKey := ⟨die, core, slot⟩
  match s.group? k with
  | none => s
  | some g =>
    if !s.pkReaches g by_ then s
    else match g.run with
      | .parked (.page _) => s.resumeParked k g
      | .parked (.host _ _) => s.resumeParked k g
      | .parked (.act _ _ _ name a) => if g.speculative then s else (s.resumeParked k g).eventAct k.die (s.ctxOf g.team) name (actFrom k a)
      | .parked .stale =>
        let w := s.whoOf k g
        match s.loadSeg w g (g.segReg 15).sel with
        | (.ok (r, _), s1) => s1.resumeParked k { g with seg := g.seg.put 15 r, clause := none }
        | (.error f, s1) => s1.pageFault k g f { cause := .pageLoad, aux := 0#32, ofs := 0, sel := 0, lin := s1.descLin w (g.segReg 15).sel.toNat } false 15 .boundary
      | _ => s

/-- PKCTL_KILL. -/
def State.pkctlKill (s : State) (die core slot : Nat) (by_ : Option Nat) : State :=
  let k : GKey := ⟨die, core, slot⟩
  match s.group? k with
  | none => s
  | some g =>
    if !s.pkReaches g by_ then s
    else match g.run with
      | .parked .frozen => s
      | .parked _ => s.killAny k g
      | _ => s

/-! ## The events -/

/-- CLAUSE_START. -/
def execClauseStart (s : State) : Host.Outcome State Fault Refusal :=
  match s.subject with
  | .clauseStart p => .next (s.clauseStart p)
  | _ => .fault .noSubject
/-- CLAUSE_FETCH_ARRIVE. -/
def execClauseFetchArrive (s : State) : Host.Outcome State Fault Refusal :=
  match s.subject with
  | .clauseFetchArrive k => .next (s.clauseFetchArrive k)
  | _ => .fault .noSubject
/-- BUDGET_TICK. -/
def execBudgetTick (s : State) : Host.Outcome State Fault Refusal :=
  match s.subject with
  | .budgetTick w => .next (s.budgetTick w)
  | _ => .fault .noSubject
/-- BUDGET_GRACE_EXPIRE. -/
def execBudgetGraceExpire (s : State) : Host.Outcome State Fault Refusal :=
  match s.subject with
  | .budgetGraceExpire t => .next (s.budgetGraceExpire t)
  | _ => .fault .noSubject
/-- PKCTL_RESUME. -/
def execPkctlResume (s : State) : Host.Outcome State Fault Refusal :=
  match s.subject with
  | .pkctlResume d c n b => .next (s.pkctlResume d c n b)
  | _ => .fault .noSubject
/-- PKCTL_KILL. -/
def execPkctlKill (s : State) : Host.Outcome State Fault Refusal :=
  match s.subject with
  | .pkctlKill d c n b => .next (s.pkctlKill d c n b)
  | _ => .fault .noSubject

end Sys2Proof.Machine
end

