-- ==== Sys2Proof/Machine/Place.lean ====
section
/-! DEFINITION. Clusters on their dies: the order in which they are placed (R48), the place of a cluster, its teams and their groups
(R49, R50, R68, R116), the state a team starts in (R37, R97, R399), and the end of a team (R47, R115, R164, R169, R211, R214, R219). -/

namespace Sys2Proof.Machine

/-! ## What a core has free (R49, R50) -/

/-- A team's register window: REGS rounded up to a multiple of 8 (R50). -/
def KRec.window (kr : KRec) : Nat := (kr.regs + 7) / 8 * 8
/-- Banks of a scratchpad request (R163). -/
def KRec.bankCount (kr : KRec) : Nat := (kr.scr + 4095) / 4096
/-- Lanes of a team and groups of a team (R96). -/
def KRec.lanes (kr : KRec) : Nat := kr.tx * kr.ty * kr.tz
def KRec.groups (kr : KRec) : Nat := (kr.lanes + 31) / 32

/-- The free banks of a core, ascending. -/
def Core.freeBanks (c : Core) : List Nat := (List.range 512).filter fun b => (c.banks.find b).isNone

/-- The number a bank of a core's draft buffer is listed under (R68). -/
def draftOwner : Nat := 0

/-- Take banks for a team. -/
def Core.takeBanks (c : Core) (bs : List Nat) (team : Nat) : Core := { c with banks := bs.foldl (fun t b => t.put b team) c.banks }

/-- Give back what a team holds. -/
def Core.dropBanks (c : Core) (bs : List Nat) : Core := { c with banks := c.banks.filter fun e => !bs.contains e.1 }

/-- The pen of R50 for a window, with its lowest free residency index. -/
def State.penFor (s : State) (die core window : Nat) : Option GKey :=
  let best := (List.range Config.pens).foldl (fun (b : Option (Nat × Nat)) p =>
    let pk : PenKey := ⟨die, core, p⟩
    let f := s.freeRegs pk
    if ((penSlots pk).filter fun k => (s.group? k).isSome).length < 4 ∧ window ≤ f then
      match b with
      | some (_, m) => if m < f then some (p, f) else b
      | none => some (p, f)
    else b) none
  best.bind fun e => (penSlots ⟨die, core, e.1⟩).find? fun k => (s.group? k).isNone

/-! ## The start of a team -/

/-- A group as it starts (R37, R97, R257, R353, R394, R399): s0 to s15 hold the first 64 bytes of the arguments, PC is at KOFS. -/
def startGroup (team num nlanes : Nat) (kr : KRec) (trapv : Word) (code : SegReg) (segs : Tbl SegReg) (args : List Byte) (clk : Nat) : Group :=
  { team := team, num := num, nlanes := nlanes, run := if kr.ord then .stopped else .ready, readyAt := clk, tenure := 0, pc := kr.kofs.setWidth 48,
    clause := none, pos := 0, half := .fresh, acted := 0#32, seg := segs.put 15 code, window := kr.window, regs := [], dead := [], well := [], n0 := none, n1 := none,
    sc := (List.range 16).foldl (fun (t : Tbl Word) i => t.put i (BitVec.ofNat 32 (leNat ((args.drop (4 * i)).take 4)))) [], pr := [], ix := [],
    exec := maskedBits 0xffffffff#32 0#32 fun l => decide (l < nlanes), hand := 0#32, xout := 0#32, ixw := [], awb := 0, awl := 0, ppc := 0xffffffff#32,
    ppseg := SegReg.null, pphand := none, recipe := [], pprecipe := [], trapv := trapv, tframe := BitVec.ofNat 32 (2560 * num), stack := [], spilled := 0, handler := none, lsq := [], ceq := [], me := 0,
    fd := 0, pend := [], log := [], acqUntil := 0, scOut := [], irrev := false, budgetDue := false, barrierDue := [],
    raiseDue := none, arrivals := [], flash := .no, task := none }

/-- Place the groups of a team from number `i` on, `n` of them (R50). F falls on their pens, so claims there may be in deadlock (R138). -/
def State.placeGroups (team die core : Nat) (kr : KRec) (trapv : Word) (code : SegReg) (segs : Tbl SegReg) (args : List Byte) :
    Nat → Nat → State → Option (List (Nat × Nat) × State)
  | 0, _, s => some ([], s)
  | n + 1, i, s =>
    match s.penFor die core kr.window with
    | none => none
    | some k =>
      let g := startGroup team i (min 32 (kr.lanes - 32 * i)) kr trapv code segs args s.clk
      (State.placeGroups team die core kr trapv code segs args n (i + 1) ((s.putGroup k g).post (s.clk + 64) (.deadlockCheck (penOf k)))).map fun r => ((i, k.slot) :: r.1, r.2)

/-- What a team is part of. -/
structure PlaceOf where
  die : Nat
  launch : Nat
  node : Nat
  cluster : Nat
  again : Bool
  deriving DecidableEq, Repr

/-- Place one team on a core, where it fits (R49, R68, R399). -/
def State.placeTeam (s : State) (x : Launch) (nd : Node) (kr : KRec) (code : SegReg) (w : PlaceOf) (core m number : Nat) :
    Option (Nat × List Nat × State) :=
  let c := s.core w.die core
  let draft : Bool := kr.ord && !c.draft
  let free := c.freeBanks
  let n := kr.bankCount
  if 32 ≤ (s.teams.filter fun e => e.2.die = w.die ∧ e.2.core = core).length then none
  else if free.length < n + (if draft then 64 else 0) then none
  else match (List.range 32).find? fun b => (c.argBufs.find b).isNone with
    | none => none
    | some buf =>
      let (id, s1) := s.newId
      let banks := free.take n
      let c1 := c.takeBanks banks id
      let c2 := if draft then { c1.takeBanks ((free.drop n).take 64) draftOwner with draft := true } else c1
      let s2 := s1.putCore w.die core { c2 with argBufs := c2.argBufs.put buf id }
      let t : Team :=
        { die := w.die, core := core, ctx := x.ctx, part := x.part, launch := w.launch, node := w.node, cluster := w.cluster, member := m,
          number := number, x := number % nd.tx, y := number / nd.tx % nd.ty, z := number / nd.tx / nd.ty, groups := [], count := kr.groups,
          krec := kr, code := code, budget := if nd.budget = 0#32 then none else some nd.budget.toNat, grace := false, failed := false,
          banks := banks, argBuf := buf, argLen := x.args.length, relaunched := w.again, redo := false, noTask := false, logs := [], ranAt := s.ranClk w.die x.ctx }
      match State.placeGroups id w.die core kr (s.trapvOf x.part x.ctx kr code.sel) code (t.segs kr.cw kr.ch) (x.args.take 64) kr.groups 0 s2 with
      | none => none
      | some (gs, s3) =>
        let s4 := s3.writeBytes (.arg w.die core buf 0) x.args
        let s5 := if w.again then s4.writeScratch t 0 (List.replicate (4096 * n) 0#8) else s4
        some (id, banks, s5.putTeam id { t with groups := gs })

/-- Place the members of a cluster from `m` on. -/
def State.placeMembers (x : Launch) (nd : Node) (kr : KRec) (code : SegReg) (w : PlaceOf) (nw cn : Nat) :
    Nat → Nat → State → Option (List (Nat × Nat × List Nat) × State)
  | 0, _, s => some ([], s)
  | n + 1, m, s =>
    let core := nw + m % kr.cw + 4 * (m / kr.cw)
    match s.placeTeam x nd kr code w core m (cn * (kr.cw * kr.ch) + m) with
    | none => none
    | some (id, banks, s1) => (State.placeMembers x nd kr code w nw cn n (m + 1) s1).map fun r => ((id, core, banks) :: r.1, r.2)

/-- Place a cluster on the first rectangle of cores on which every team fits (R49). -/
def State.placeCluster (s : State) (x : Launch) (l : Nat) (n : Nat) (nd : Node) (kr : KRec) (code : SegReg) (die cn : Nat) (again : Bool) : Option State :=
  let (cid, s1) := s.newId
  (List.range Config.cores).findSome? fun nw =>
    if 4 < nw % 4 + kr.cw ∨ 4 < nw / 4 + kr.ch then none
    else match State.placeMembers x nd kr code { die := die, launch := l, node := n, cluster := cid, again := again } nw cn (kr.cw * kr.ch) 0 s1 with
      | none => none
      | some (ms, s2) =>
        let c : Cluster := { die := die, w := kr.cw, h := kr.ch, launch := l, node := n, members := ms.map (·.1), banks := ms.map (·.2),
                             live := ms.length }
        let s3 := s2.setClusters (s2.clusters.put cid c)
        let s4 := if nd.budget = 0#32 then s3 else ms.foldl (fun t e => t.post (s.clk + 64) (.budgetTick (.team e.1))) s3
        some (if kr.ord then s4.post s.clk (.taskDispatch die x.part x.ctx) else s4)

/-- Place clusters one after the other; all of them or none. -/
def State.placeShare (x : Launch) (l n : Nat) (nd : Node) (kr : KRec) (code : SegReg) (die : Nat) : List Nat → State → Option State
  | [], s => some s
  | cn :: rest, s => match s.placeCluster x l n nd kr code die cn false with
    | none => none
    | some s1 => State.placeShare x l n nd kr code die rest s1

/-! ## The order of placement (R48) -/

/-- Whether a range comes before another: PRIO, the order in which the kicks were taken, and, which the spec leaves open, for GRID nodes of one
launch that run at once, each with a head of its own, the node's index (R48; log 130). -/
def State.rangeBefore (s : State) (a b : Range) : Bool :=
  match s.host.launches.find a.launch, s.host.launches.find b.launch with
  | some x, some y => decide (y.prio < x.prio) || (x.prio == y.prio && (decide (a.launch < b.launch) || (a.launch == b.launch && decide (a.node < b.node))))
  | _, _ => true

def State.insertRange (s : State) (r : Range) : List Range → List Range
  | [] => [r]
  | x :: rest => if s.rangeBefore x r then x :: s.insertRange r rest else r :: x :: rest

/-- The ranges of the context that runs on a die, in their order. -/
def State.rangesFor (s : State) (die : Nat) : List Range :=
  ((s.die die).ranges.filter fun r => match s.host.launches.find r.launch with
    | some x => (s.die die).run = some x.ctx
    | none => false).foldr (fun r l => s.insertRange r l) []

/-- Whether two entries of a die's list are one range: a launch's node has one range of its clusters on a die, and one more for each team that
is launched again (R169), which its end tells apart. -/
def Range.same (a b : Range) : Bool := a.launch == b.launch && a.node == b.node && a.again == b.again && (!a.again || a.last == b.last)

/-- Replace a range of a die; one that is spent goes. -/
def State.putRange (s : State) (die : Nat) (r : Range) : State :=
  s.updDie die fun d => { d with ranges := (d.ranges.map fun x => if x.same r then r else x).filter fun x => decide (x.next < x.last) }

/-- Try the head of a range: a cluster, or of a grid-resident launch the die's whole share (R116). -/
def State.tryHead (s : State) (die : Nat) (r : Range) : Option State :=
  match s.host.launches.find r.launch with
  | none => none
  | some x => match x.nodes[r.node]?, x.recs.find? fun e => e.1 = r.node with
    | some nd, some (_, kr, code) =>
      if kr.gres && !r.again then
        (State.placeShare x r.launch r.node nd kr code die ((List.range (r.last - r.next)).map (r.next + ·)) s).map fun t =>
          t.putRange die { r with next := r.last }
      else
        (s.placeCluster x r.launch r.node nd kr code die r.next r.again).map fun t =>
          t.putRange die { r with next := r.next + 1, waited := 0, since := none, blocking := false }
    | _, _ => none

/-- The first range whose head can be placed; a blocking head holds back every later launch (R48). -/
def State.tryRanges (s : State) (die : Nat) : Option Nat → List Range → Option State
  | _, [] => none
  | only, r :: rest =>
    if only.any fun l => l != r.launch then s.tryRanges die only rest
    else match s.tryHead die r with
      | some s1 => some s1
      | none => s.tryRanges die (if r.blocking then some r.launch else only) rest

/-- The heads that were not placed wait from now on. -/
def State.headsWait (s : State) (die : Nat) : State :=
  (s.rangesFor die).foldl (fun t r =>
    if r.since.isSome then t
    else (t.putRange die { r with since := some s.clk }).post (s.clk + (4096 - r.waited)) (.headBlocking die r.launch r.node r.next)) s

/-- Whether a die still holds a saved group of the context it runs, which is restored in that context's next slice (R65). -/
def State.savedWaits (s : State) (die : Nat) : Bool :=
  (s.die die).saved.any fun x => (s.die die).run == some x.ctx

/-- CLUSTER_PLACE: the next cluster that can be placed on a die is placed, and the die looks again (R48, R49). The groups saved for the running
context have their places first (R65). -/
def State.clusterPlace (s : State) (die l n : Nat) : State :=
  if (s.die die).switching || s.savedWaits die then s
  else match s.tryRanges die none (s.rangesFor die) with
    | some s1 => s1.post s.clk (.clusterPlace die l n)
    | none => s.headsWait die

/-- The bytes of the emulation handler's code (R394; log 128). -/
def handlerSize : Nat := 0x140

/-- A write of the loader, which places code in segments that no W right reaches: the page must be there and readable (R250; log 128). -/
def State.loaderWrite (s : State) (w : Who) (lin : Nat) (bs : List Byte) : State :=
  match s.translateRange w .read (bs.length / 65536 + 2) lin bs.length with
  | (.ok rs, s1) => s1.engineWrite w.ctx rs bs
  | (.error _, s1) => s1

/-- The emulation handler's code, which the spec does not give, from a value of the counter on (log 128). -/
def handlerCode (ctr : Nat) : List Byte := (List.range handlerSize).map fun i => Config.handlerByte (ctr + i)

/-- The loader appends the emulation handler's code to the CODE segment that a selector names, and raises its LIMIT to cover it (R394). -/
def State.appendHandler (s : State) (w : Who) (o : EmuObject) (code : List Byte) (sel : BitVec 16) : State :=
  let dl := s.descLin w sel.toNat
  match s.readLin w dl 32 with
  | (.error _, s1) => s1
  | (.ok bs, s1) =>
    let r := (decodeDesc sel bs).1
    (s1.loaderWrite w (r.base.toNat + handlerAt o) code).loaderWrite w (dl + 8) (leBytes 6 (max r.limit.toNat (handlerAt o + code.length)))

/-- The loader's answer for an object, from its version note: the first status of R249 that applies. A context's CLEV stands on each die of its
partition, and the lowest counts; statuses 1, 6 and 7 concern the file, which the event does not carry (log 128). -/
def State.loadStatus (s : State) (o : EmuObject) : Nat :=
  if 3 < o.minLevel then 2
  else if (s.diesOf o.part).any fun d => decide ((s.ctx d o.ctx).clev.toNat < o.minLevel) then 3
  else if o.builtLevel < o.minLevel then 4
  else if 3 < o.builtLevel ∧ o.note.any (·.refuse) then 5
  else 0

/-- An accepted object whose built level is above 3 has the emulation handler installed (R251, R394): its kernels start with the handler's offset as
TRAPV from then on. Any accepted object takes its selectors from the objects that held them before it. -/
def State.objectAccept (s : State) (o : EmuObject) : State :=
  let old := s.host.objects.map fun x => if x.part = o.part ∧ x.ctx = o.ctx then { x with sels := x.sels.filter fun y => !o.sels.contains y } else x
  if 3 < o.builtLevel then
    let code := handlerCode s.freeCtr
    let s1 := (s.diesOf o.part).foldl (fun t d => o.sels.foldl (fun u sel => u.appendHandler (dieWho d o.ctx) o code sel) t)
      (s.setFreeCtr (s.freeCtr + handlerSize))
    s1.setHost { s1.host with objects := o :: old }
  else s.setHost { s.host with objects := old }

/-- The loader takes an object or refuses it, which changes nothing, and answers with the status (R249, R251). The table of steps lists R394
with CLUSTER_PLACE and has no row for a load, so the load stands there (log 128). -/
def State.objectLoad (s : State) (o : EmuObject) : State :=
  let st := s.loadStatus o
  (if st = 0 then s.objectAccept o else s).send (.loaded o.part o.ctx st)

/-- HEAD_BLOCKING: a head has waited for 4096 clk of its context (R48). -/
def State.headBlocking (s : State) (die l n cn : Nat) : State :=
  match (s.die die).ranges.find? fun r => r.launch = l ∧ r.node = n ∧ r.next = cn with
  | none => s
  | some r => match r.since with
    | some t => if 4096 ≤ r.waited + (s.clk - t) then s.putRange die { r with blocking := true } else s
    | none => s

/-! ## The end of a team -/

/-- Whether anything of a team is still on its way: accesses, engine commands, matrix operations, logged lanes, a pair operation. -/
def State.teamBusy (s : State) (t : Nat) (tm : Team) : Bool :=
  let a := s.arr tm.die tm.core
  !tm.logs.isEmpty
    || (s.access.any fun e => e.2.team == t)
    || ((s.core tm.die tm.core).copy.any fun x => x.team == t && x.node.isNone)
    || (a.queue.any fun o => o.team == t) || (a.drains.any fun d => d.team == t)
    || (a.owner == some t && !a.idle)
    || (((s.leads tm.die tm.core && a.owner == some t) || s.follows tm.die tm.core t) && s.pairBusy tm.die tm.core)

/-- A team's core is as it was before the team: its pair ends, its array is without owner, its tile slots and subscriptions go, its argument
buffer is free, and its cluster's scratchpads are free with its last team (R164, R211, R214, R219, R399). -/
def State.releaseTeam (s : State) (t : Nat) (tm : Team) : State :=
  let a := s.arr tm.die tm.core
  let pairs : Bool := (s.leads tm.die tm.core && a.owner == some t) || s.follows tm.die tm.core t
  let s1 := if pairs then s.unpair tm.die tm.core else s
  let s2 := (s1.releaseTiles tm.die t).updArr tm.die tm.core fun b => if b.owner = some t then { b with owner := none } else b
  let s3 := (s2.updCore tm.die tm.core fun c => { c with argBufs := c.argBufs.del tm.argBuf }).setTeams (s2.teams.del t)
  let s4 := s3.setBarriers (s3.barriers.filter fun e => match e.1 with
    | .team x _ => x ≠ t
    | _ => true)
  let s5 := match s4.clusters.find tm.cluster with
    | none => s4
    | some c =>
      if 1 < c.live then s4.setClusters (s4.clusters.put tm.cluster { c with live := c.live - 1 })
      else
        let u := c.banks.foldl (fun u e => u.updCore c.die e.1 fun x => x.dropBanks e.2) s4
        (u.setClusters (u.clusters.del tm.cluster)).setBarriers (u.barriers.filter fun e => match e.1 with
          | .cluster x _ => x ≠ tm.cluster
          | _ => true)
  let last : Bool := tm.krec.ord && !(s5.teams.any fun e => e.2.die == tm.die && e.2.core == tm.core && e.2.krec.ord)
  if last then s5.updCore tm.die tm.core fun c => { c with draft := false, banks := c.banks.filter fun e => e.2 ≠ draftOwner } else s5

/-- The die reports a retired team to the master front end (R47); a domain reports for its node itself (R67). -/
def State.reportTeam (s : State) (tm : Team) : State :=
  let s1 := if tm.failed then s.recordErr tm.launch 0x10#8 else s
  if tm.krec.ord then s1.domainLost tm.part tm.ctx tm.die
  else match s1.host.launches.find tm.launch with
    | none => s1
    | some x => match x.runs[tm.node]? with
      | some (.running left failed) =>
        let s2 := s1.setNodeRun tm.launch tm.node (.running (left - 1) (failed || tm.failed))
        if left ≤ 1 then s2.post s2.clk (.nodeFinish tm.launch tm.node) else s2
      | _ => s1

/-- TEAM_RETIRE: a team whose groups are gone retires when nothing of it is on its way (R47, R211, R214). -/
def State.teamRetire (s : State) (t : Nat) : State :=
  match s.team? t with
  | none => s
  | some tm =>
    if !tm.groups.isEmpty then s
    else if s.teamBusy t tm then
      let ev : Event := .teamRetire t
      (s.unpost ev).post (s.clk + 1) ev
    else
      let s1 := s.releaseTeam t tm
      let s2 := if tm.redo then s1.updDie tm.die fun d => { d with ranges := d.ranges ++
          [{ launch := tm.launch, node := tm.node, next := tm.number, last := tm.number + 1, waited := 0, since := none, blocking := false, again := true }] }
        else s1.reportTeam tm
      (s2.matrixLook tm.die).post s.clk (.clusterPlace tm.die tm.launch tm.node)

/-! ## The events -/

/-- CLUSTER_PLACE. -/
def execClusterPlace (s : State) : Host.Outcome State Fault Refusal :=
  match s.subject with
  | .clusterPlace d l n => .next (s.clusterPlace d l n)
  | .objectLoad o => .next (s.objectLoad o)
  | _ => .fault .noSubject
/-- HEAD_BLOCKING. -/
def execHeadBlocking (s : State) : Host.Outcome State Fault Refusal :=
  match s.subject with
  | .headBlocking d l n c => .next (s.headBlocking d l n c)
  | _ => .fault .noSubject
/-- TEAM_RETIRE. -/
def execTeamRetire (s : State) : Host.Outcome State Fault Refusal :=
  match s.subject with
  | .teamRetire t => .next (s.teamRetire t)
  | _ => .fault .noSubject

end Sys2Proof.Machine
end

