-- ==== Sys2Proof/Machine/Slice.lean ====
section
/-! DEFINITION. The slices of a die's contexts (R44), and flashback: how a context leaves its die and comes back (R63 to R66). The layout of the
group state block is the model's own (log 56). -/

namespace Sys2Proof.Machine

/-! ## Work (R44) -/

/-- A task slot with no task. -/
def State.idleSlot (s : State) (g : Group) : Bool :=
  g.task.isNone && (match g.run with
    | .stopped => true
    | _ => false) && ((s.team? g.team).any fun t => t.krec.ord)

/-- Whether a context has work on a die: clusters to place, saved groups, or task records (R44). -/
def State.ctxWork (s : State) (die ctx : Nat) : Bool :=
  ((s.die die).ranges.any fun r => (s.host.launches.find r.launch).any fun x => x.ctx == ctx)
    || ((s.die die).saved.any fun x => x.ctx == ctx && !s.idleSlot x.group)
    || ((s.domain? (s.slotOf die) ctx).any fun d => !(d.at die).queued.isEmpty || !(d.at die).spilled.isEmpty)

/-- The first enabled context with work among some. -/
def State.firstWork (s : State) (die : Nat) (cs : List Nat) : Option Nat := cs.find? fun c => (s.ctx die c).en && s.ctxWork die c

/-- The contexts after one, wrapping. -/
def ctxsAfter (c : Nat) : List Nat := (List.range 15).map fun i => (c + 1 + i) % 16

/-- The groups of a context that have slots on a die. -/
def State.groupsOn (s : State) (die ctx : Nat) : List (GKey × Group) :=
  s.groups.filterMap fun e => if (keyOfNum e.1).die = die ∧ s.ctxOf e.2.team = ctx then some (keyOfNum e.1, e.2) else none

/-- Whether a context holds claimed tile slots, accumulator windows or a bound pair on a die (R66). -/
def State.holdsMatrix (s : State) (die ctx : Nat) : Bool :=
  ((s.groupsOn die ctx).any fun e => e.2.awl != 0)
    || (List.range Config.cores).any fun c =>
      ((s.core die c).tiles.any fun e => e.2.state != .free && s.ctxOf e.2.owner == ctx)
        || ((s.arr die c).pair.isSome && (s.arr die c).owner.any fun t => s.ctxOf t == ctx)

/-! ## A slice begins (R44, R45, R74) -/

/-- What was written to SCHED, LQ and TQ takes effect, and the slice's end is set. -/
def State.beginSlice (s : State) (die ctx : Nat) : State :=
  let s1 := s.updCtx die ctx fun c => { c with schedNow := c.sched, lqNow := c.lq, tqNow := c.tq }
  let n := (s.die die).slice + 1
  let s2 := (s1.setRun die (some ctx)).updDie die fun d => { d with slice := n, switching := false }
  let len := (bits (s2.ctx die ctx).schedNow 0 16).toNat * 1024
  if len = 0 then s2 else s2.post (s.clk + len) (.sliceEnd die n)

/-- The clk that the heads of a context's launches have waited are kept while it does not run (R48). -/
def State.stopHeads (s : State) (die ctx : Nat) : State :=
  s.updDie die fun d => { d with ranges := d.ranges.map fun r =>
    if (s.host.launches.find r.launch).any fun x => x.ctx == ctx then
      match r.since with
      | some t => { r with waited := r.waited + (s.clk - t), since := none }
      | none => r
    else r }

/-- A context takes a die: its groups are restored, its clusters placed once they all are, its tasks dispatched (R65). -/
def State.takeDie (s : State) (die ctx : Nat) : State :=
  let s0 := match (s.die die).run with
    | some c => s.stopHeads die c
    | none => s
  let s1 := s0.beginSlice die ctx
  let s2 := ((s.die die).saved.filter fun x => x.ctx = ctx).foldl (fun t x => t.after 0 (.groupRestore die x.id)) s1
  (s2.post s.clk (.clusterPlace die 0 0)).postDispatch die (s.slotOf die) ctx s.clk

/-- CONTEXT_START: a die without a running context takes the lowest-numbered that has work; a die that switches takes the one chosen
when its slice ended, or another where that has been disabled since (R44). -/
def State.contextStart (s : State) (die ctx : Nat) : State :=
  let d := s.die die
  match d.run with
  | none =>
    match s.firstWork die (List.range 16) with
    | some c => s.takeDie die c
    | none => s
  | some old =>
    if !d.switching then s
    else if d.coming = some ctx ∧ (s.ctx die ctx).en then s.takeDie die ctx
    else match s.firstWork die (ctxsAfter old) with
      | some c => s.takeDie die c
      | none => s.takeDie die old

/-- A context has gained work on a die (R44). -/
def State.gainWork (s : State) (die ctx : Nat) : State :=
  if (s.die die).run.isNone then s.post s.clk (.contextStart die ctx) else s

/-! ## A slice ends (R64, R66) -/

/-- The speculative tasks of a context on a die that have not committed: those that run, and those that have finished (R64 step 1). -/
def State.specTasks (s : State) (part ctx die : Nat) : List Nat :=
  ((s.taskGroups part ctx).filterMap fun e => if e.1.die = die ∧ e.2.2.spec then some e.2.2.record.id else none)
    ++ ((s.domain? part ctx).map fun d => (d.at die).finished.filterMap fun (f : Finished) =>
        if ((d.at die).committing.any fun c => c.1 == f.task.record.id) || !f.task.spec then none else some f.task.record.id).getD []

/-- The group goes back to its last palimpsest point (R64 step 2), in the recipe that it was in there. A claim is made again when its
instruction comes again. -/
def Group.rewound (g : Group) : Group :=
  { g with pc := g.ppc.setWidth 48, seg := g.seg.put 15 g.ppseg, clause := none, pos := 0, half := .fresh, acted := 0#32, n0 := none, n1 := none,
           handler := g.pphand, raiseDue := none, recipe := g.pprecipe }

/-- Whether a group stands at the header of a clause that is a palimpsest point, and has not started it. -/
def Group.atPoint (g : Group) : Bool := g.clause.any fun c => !c.begun && headerPp c.hdr

/-- What flashback does with a group when the slice ends (R64). -/
def State.flashGroup (s : State) (k : GKey) (g : Group) : State :=
  let fresh (h : Group) : Group := match h.run with
    | .waiting (.claim _) => { h with run := .ready, half := .fresh }
    | .waiting (.event _ _) => { h with run := .ready, half := .fresh }
    | _ => { h with half := .fresh }
  let let_go (t : State) : State := match t.team? g.team with
    | some tm => t.forgetWait tm g
    | none => t
  let unclaimed (t : State) : State :=
    let p := t.pen (penOf k)
    (t.putPen (penOf k) { p with claims := p.claims.filter fun e => e.1 ≠ k.slot }).post t.clk (.claimGrant (penOf k))
  if s.idleSlot g then s.stopToSave k g false
  else if !g.irrev && g.ppseg.sel != 0#16 then (unclaimed s).stopToSave k (fresh g.rewound) false
  else if g.atPoint then (let_go s).stopToSave k (fresh { g with clause := none }) false
  else
    let e : Event := .flashbackTimeout k g.team
    ((s.putGroup k { g with flash := .forward }).unpost e).post (s.clk + 32768) e

/-- SLICE_END: the slice is renewed, extended while the context holds matrix state (R66), or the die begins to
switch to the context that is chosen now (R44). -/
def State.sliceEnd (s : State) (die seq : Nat) : State :=
  let d := s.die die
  match d.run with
  | none => s
  | some ctx =>
    if d.slice ≠ seq ∨ d.switching then s
    else match s.firstWork die (ctxsAfter ctx) with
      | none => s.beginSlice die ctx
      | some next =>
        if s.holdsMatrix die ctx then s.post (s.clk + 1) (.sliceEnd die seq)
        else
          let part := s.slotOf die
          let s1 := s.updDie die fun x => { x with switching := true, coming := some next }
          let s2 := (s1.specTasks part ctx die).foldl (fun t i => t.abort part ctx i true) s1
          let s3 := (s2.groupsOn die ctx).foldl (fun t e => t.flashGroup e.1 e.2) s2
          if (s3.groupsOn die ctx).isEmpty then s3.post (s.clk + 1) (.contextStart die next) else s3

/-- FLASHBACK_TIMEOUT: a group that has run forward for 32768 clk takes a full save. -/
def State.flashbackTimeout (s : State) (k : GKey) (team : Nat) : State :=
  match s.group? k with
  | none => s
  | some g => if g.team = team ∧ g.flash = .forward then s.stopToSave k g true else s

/-! ## The save (R64 step 4) -/

/-- The bits of a live mask that are set (R247). -/
def liveRegs (bs : List Byte) : List Nat := (List.range 256).filter fun n => (bs.getD (n / 8) 0#8).getLsbD (n % 8)

/-- The entry of a kernel's recipe table for a point: its live set, and its recipe's first clause and count (R247). -/
def State.recipeOf (w : Who) (kr : KRec) (point : Nat) : Nat → Nat → State → Option (List Nat × Nat × Nat) × State
  | 0, _, s => (none, s)
  | n + 1, i, s =>
    match s.readLin w (kr.rtab + 48 * (kr.rcf + i)) 48 with
    | (.error _, s1) => (none, s1)
    | (.ok bs, s1) =>
      if leNat (bs.take 4) = point then
        (some (liveRegs (bs.drop 16), leNat ((bs.drop 4).take 4), leNat ((bs.drop 8).take 4)), s1)
      else State.recipeOf w kr point n (i + 1) s1

/-- Keep the listed registers that are not marked dead, and no other; no register is then dead (R64, R65, R127). -/
def Group.keepRegs (g : Group) (live : List Nat) : Group :=
  { g with dead := [], regs := (live.filter fun n => !g.dead.contains n).foldl (fun (t : Tbl Lanes) n => t.put n (g.regs.get zeroLanes n)) [] }

/-- The offset of a save area of a slot (R45). -/
def State.saveLin (s : State) (k : GKey) : Nat := pteBits (s.ctx k.die (s.ctxOf (((s.group? k).map (·.team)).getD 0))).saveb 16 48 * 65536 + 36864 * k.slot

/-- The bytes of a register. -/
def laneBytes (v : Lanes) : List Byte := (List.range 32).flatMap fun l => leBytes 4 (v.at l).toNat

/-- A segment register as the group state block holds it (log 56). -/
def segBytes (r : SegReg) : List Byte :=
  leBytes 2 r.sel.toNat ++ leBytes 2 r.gen.toNat ++ leBytes 8 r.base.toNat ++ leBytes 6 r.limit.toNat
    ++ leBytes 2 (bitOf r.r + 2 * bitOf r.w + 4 * bitOf r.x + 8 * bitOf r.a + 16 * r.kind.toNat + 128 * bitOf r.s + 256 * bitOf r.bad)
    ++ List.replicate 12 0#8

def segOfBytes (bs : List Byte) : SegReg :=
  let n (i len : Nat) : Nat := leNat ((bs.drop i).take len)
  let f : BitVec 16 := BitVec.ofNat 16 (n 18 2)
  { sel := BitVec.ofNat 16 (n 0 2), gen := BitVec.ofNat 16 (n 2 2), base := BitVec.ofNat 57 (n 4 8), limit := BitVec.ofNat 48 (n 12 6),
    r := f.getLsbD 0, w := f.getLsbD 1, x := f.getLsbD 2, a := f.getLsbD 3, kind := f.extractLsb' 4 3, s := f.getLsbD 7, bad := f.getLsbD 8 }

/-- A number for an operation of R306 (log 56). -/
def AOp.code : AOp → Nat
  | .xch => 0
  | .cas => 1
  | .add => 2
  | .min => 3
  | .max => 4
  | .and => 5
  | .or => 6
  | .xor => 7
  | .fadd => 8

/-- A number for the kind of an access of the side log (log 56). -/
def AccKind.code : AccKind → Nat
  | .load => 0
  | .ldu => 1
  | .store => 2
  | .atomic op => 16 + op.code
  | .reduce op => 32 + op.code

/-- An entry of the side log as the group state block holds it (log 56). -/
def logBytes (e : LogEntry) : List Byte :=
  leBytes 1 e.kind.code ++ leBytes 1 e.lane ++ leBytes 1 e.width ++ leBytes 1 (bitOf e.host) ++ leBytes 4 e.sel ++ leBytes 8 e.lin ++ leBytes 8 e.ofs
    ++ ((e.data ++ List.replicate 24 0#8).take 24)

/-- `n` bytes: a list, and 0 behind it. -/
def padded (n : Nat) (bs : List Byte) : List Byte := (bs ++ List.replicate n 0#8).take n

/-- The group state block (R64, R65; log 56): scalars, predicates, EXEC, HAND, XOUT and PPC, index registers, segment registers, the stack, the log. -/
def Group.block (g : Group) : List Byte :=
  (List.range 64).flatMap (fun n => leBytes 4 (g.scalar n).toNat)
    ++ (List.range 8).flatMap (fun n => leBytes 4 (g.pred n).toNat)
    ++ padded 0xe0 (leBytes 4 g.exec.toNat ++ leBytes 4 g.hand.toNat ++ leBytes 4 g.xout.toNat ++ leBytes 4 g.ppc.toNat
      ++ (List.range 4).flatMap fun n => leBytes 4 (g.ixw.get 0#32 n).toNat)
    ++ (List.range 4).flatMap (fun n => (List.range 32).flatMap fun l => leBytes 2 (g.ixLane n l))
    ++ (List.range 16).flatMap (fun n => segBytes (g.segReg n))
    ++ padded 0x200 (g.stack.flatMap reconBytes)
    ++ padded 0x300 (g.log.flatMap logBytes)

/-- What the group state block holds of a group, as it stands in memory now (R65). The depth of the stack, and the side log, are as the die
kept them (log 56). -/
def Group.ofBlock (g : Group) (bs : List Byte) : Group :=
  let word (o : Nat) : Word := BitVec.ofNat 32 (leNat ((bs.drop o).take 4))
  let g1 := (List.range 64).foldl (fun (h : Group) n => if word (4 * n) = h.scalar n then h else h.setScalar n (word (4 * n))) g
  let g2 := (List.range 8).foldl (fun (h : Group) n => if word (0x100 + 4 * n) = h.pred n then h else h.setPred n (word (0x100 + 4 * n))) g1
  let g3 := (List.range 4).foldl (fun (h : Group) n =>
    let v := word (0x130 + 4 * n)
    let ls := (List.range 32).map fun l => BitVec.ofNat 16 (leNat ((bs.drop (0x200 + 64 * n + 2 * l)).take 2))
    let h1 : Group := if v = h.ixw.get 0#32 n then h else { h with ixw := h.ixw.put n v }
    if (List.range 32).all fun l => (ls.getD l 0#16).toNat == h.ixLane n l then h1 else { h1 with ix := h1.ix.put n ls }) g2
  let g4 := (List.range 16).foldl (fun (h : Group) n =>
    let r := segOfBytes (bs.drop (0x300 + 32 * n))
    if r = h.segReg n then h else { h with seg := h.seg.put n r }) g3
  { g4 with exec := word 0x120 &&& g.population, hand := word 0x124, xout := word 0x128, ppc := word 0x12c,
            stack := (List.range g.stack.length).map fun i => reconOf (bs.drop (0x500 + 32 * i)) }

/-- Write a group's state block, the registers it keeps, and for a full save its nibs, to its save area (R45, R64). -/
def State.writeSave (s : State) (k : GKey) (g : Group) (full : Bool) : State :=
  let w := dieWho k.die (s.ctxOf g.team)
  let a := s.saveLin k
  let s0 := (s.writeLin w a g.block).2
  let s1 := g.regs.foldl (fun t e => (t.writeLin w (a + 0x1000 + 128 * e.1) (laneBytes e.2)).2) s0
  if full then ((s1.writeLin w (a + 0xe00) (nibBytes g.n0)).2.writeLin w (a + 0xe80) (nibBytes g.n1)).2 else s1

/-- A group with nothing in flight (R64 step 4): no entry of its side log is on its way to another module either (R12). -/
def Group.quiet (g : Group) : Bool :=
  g.lsq.isEmpty && g.ceq.isEmpty && g.me == 0 && g.fd == 0 && g.pend.isEmpty && g.log.all fun e => e.away.isNone

/-- The wait of a group that leaves its slot, or gets one, goes with it: on its way, held, and in the lists of the events (R66). -/
def State.moveWaits (s : State) (old new : GKey) (team : Nat) : State :=
  let key (x : GKey) (t : Nat) : GKey := if x = old ∧ t = team then new else x
  let act (a : EventAct) : EventAct := match a with
    | .wait x t v => .wait (key x t) t v
    | .signal (some (x, t)) => .signal (some (key x t, t))
    | _ => a
  let waiter (w : Waiter) : Waiter := { w with g := key w.g w.team }
  let s1 := s.setAgenda ((s.agenda.filter fun e => match e.2 with
    | .clauseFetchArrive x => x != old
    | _ => true).map fun e => (e.1, match e.2 with
      | .eventActArrive p c n a => .eventActArrive p c n (act a)
      | .eventWake x t => .eventWake (key x t) t
      | v => v))
  let s2 := s1.setHost { s1.host with launches := s1.host.launches.map fun e =>
    (e.1, { e.2 with asked := e.2.asked.map fun x => (key x.1 x.2.1, x.2) }) }
  s2.setDies (s2.dies.map fun e => (e.1, { e.2 with
    held := e.2.held.map fun h => { h with what := match h.what with
      | .act a => .act (act a)
      | v => v }
    events := e.2.events.map fun v => (v.1, { v.2 with waiters := v.2.waiters.map waiter, listed := v.2.listed.map fun x => (x.1, waiter x.2) }) }))

/-- The save begins: the well is written back, and the registers to be saved are known (R64 step 4, R65). -/
def State.beginSave (s : State) (k : GKey) (g : Group) (full : Bool) (tm : Team) : State :=
  let (g1, wb) := g.flushWell
  let window := List.range g1.window
  let (g2, s1) : Group × State :=
    if full then (g1.keepRegs window, s)
    else match State.recipeOf (s.whoOf k g) tm.krec g1.pc.toNat tm.krec.rcn 0 s with
      | (none, s1) => (g1.keepRegs window, s1)
      | (some (live, ofs, cnt), s1) =>
        let h := g1.keepRegs (window.filter fun n => live.contains n)
        (if ofs = 0xffffffff then h
          else { h with recipe := (cnt, g1.pc, g1.handler.isSome) :: h.recipe, pc := BitVec.ofNat 48 ofs }, s1)
  let due := s.clk + wb + 48 + 16 * g2.regs.length
  (s1.putGroup k { g2 with flash := .saving full due }).post due (.groupSave k g.team)

/-- The group's slot and registers are released; what was saved of it is kept by the die (R64 step 4). Its wait, its park, and how far its
instruction has got, stay (R66). -/
def State.endSave (s : State) (k : GKey) (g : Group) (full : Bool) (tm : Team) : State :=
  let (id, s0) := s.newId
  let slot := savedSlot id
  let away : GKey := ⟨k.die, k.core, slot⟩
  let s1 := (s0.writeSave k g full).moveWaits k away g.team
  let g1 : Group := { g with flash := .no, task := g.task.map fun (t : Task) => { t with ranAt := s.ranClk k.die tm.ctx - t.ranAt } }
  let s2 := s1.updDie k.die fun d => { d with saved := (d.saved.map fun x => { x with lost := x.lost || (x.ctx == tm.ctx && x.slot == k.slot) }) ++
    [{ id := id, ctx := tm.ctx, core := k.core, slot := k.slot, full := full, group := g1, lost := false }] }
  let s3 := s2.updTeam g.team fun t => { t with groups := t.groups.map fun e => if e.2 = k.slot then (e.1, slot) else e }
  let s4 := s3.setBarriers (s3.barriers.map fun e => (e.1, { e.2 with arrived := e.2.arrived.map fun x => if x = k then away else x }))
  let p := s4.pen (penOf k)
  let s5 := (s4.putPen (penOf k) { p with claims := p.claims.filter fun e => e.1 ≠ k.slot }).dropGroup k
  (s5.post s.clk (.claimGrant (penOf k))).dieClears k.die

/-- GROUP_SAVE: a stopped group is saved once nothing of it is in flight. -/
def State.groupSave (s : State) (k : GKey) (team : Nat) : State :=
  match s.group? k, s.team? team with
  | some g, some tm =>
    if g.team ≠ team then s
    else match g.flash with
      | .saving full 0 =>
        if s.idleSlot g then s.endSave k g full tm
        else if g.quiet then s.beginSave k g full tm
        else s.post (s.clk + 1) (.groupSave k team)
      | .saving full due => if due ≤ s.clk then s.endSave k g full tm else s
      | _ => s
  | _, _ => s

/-! ## The restore (R65) -/

/-- A saved group as the save area holds it now: its state block, its registers, and the nibs of a full save that were not void. -/
def State.readSave (s : State) (w : Who) (a : Nat) (g : Group) (full : Bool) : Group × State :=
  let one (x : Group × State) (o n : Nat) (f : Group → List Byte → Group) : Group × State :=
    match x.2.readLin w (a + o) n with
    | (.ok bs, t) => (f x.1 bs, t)
    | (.error _, t) => (x.1, t)
  let x1 := one (g, s) 0 0x900 Group.ofBlock
  let x2 := if full then one (one x1 0xe00 128 fun h bs => { h with n0 := h.n0.map fun _ => lanesOfBytes bs }) 0xe80 128
    (fun h bs => { h with n1 := h.n1.map fun _ => lanesOfBytes bs }) else x1
  g.regs.foldl (fun (x : Group × State) e => one x (0x1000 + 128 * e.1) 128 fun h bs => { h with regs := h.regs.put e.1 (lanesOfBytes bs) }) x2

/-- A window rounded up to a multiple of 8 (R50, R139). -/
def window8 (n : Nat) : Nat := (n + 7) / 8 * 8

/-- What a restored group was doing goes on in its new slot: its claim waits on its pen (R66, R137), the side log is replayed (R65), the budget of its
task falls (R90). -/
def State.restoreWork (s : State) (k : GKey) (g : Group) (ctx : Nat) : State :=
  let s1 := match g.run with
    | .waiting (.claim n) =>
      let p := s.pen (penOf k)
      (s.putPen (penOf k) { p with claims := p.claims ++ [(k.slot, n)] }).post s.clk (.claimGrant (penOf k))
    | _ => s
  let s2 := if g.log.isEmpty then s1 else s1.post s1.clk (.faultRetry (.sideLog k))
  match g.task with
  | some t =>
    if t.budget = 0#32 then s2
    else
      let e : Event := .budgetTick (.task (s.slotOf k.die) ctx t.record.id)
      (s2.setAgenda (s2.agenda.filter fun x => x.2 ≠ e)).post s2.clk e
  | none => s2

/-- GROUP_RESTORE: a saved group is placed again on its team's core, and its side log is replayed (R50, R65). -/
def State.groupRestore (s : State) (die id : Nat) : State :=
  match (s.die die).saved.find? fun x => x.id = id with
  | none => s
  | some x =>
    if (s.die die).run ≠ some x.ctx ∨ (s.die die).switching then s
    else match s.penFor die x.core (window8 x.group.window) with
      | none => s.post (s.clk + 1) (.groupRestore die id)
      | some k =>
        let away : GKey := ⟨die, x.core, savedSlot id⟩
        let (g1, s1) := if x.lost || s.idleSlot x.group then (x.group, s)
          else s.readSave (dieWho die x.ctx) (pteBits (s.ctx die x.ctx).saveb 16 48 * 65536 + 36864 * x.slot) x.group x.full
        let s2 := s1.updDie die fun d => { d with saved := d.saved.filter fun y => y.id ≠ id }
        let s3 := s2.updTeam g1.team fun t => { t with groups := t.groups.map fun e => if e.2 = away.slot then (e.1, k.slot) else e }
        let s4 := (s3.setBarriers (s3.barriers.map fun e => (e.1, { e.2 with arrived := e.2.arrived.map fun y => if y = away then k else y }))).moveWaits
          away k g1.team
        let g2 : Group := { g1 with window := window8 g1.window, readyAt := s.clk, tenure := 0,
                                    task := g1.task.map fun (t : Task) => { t with ranAt := s.ranClk die x.ctx - t.ranAt } }
        let s6 := ((s4.putGroup k g2).restoreWork k g2 x.ctx).post (s.clk + 64) (.deadlockCheck (penOf k))
        let s7 := s6.post s.clk (.clusterPlace die 0 0)
        if s.idleSlot g1 then s7.postDispatch die (s.slotOf die) x.ctx s.clk else s7

/-! ## The events -/

/-- CONTEXT_START. -/
def execContextStart (s : State) : Host.Outcome State Fault Refusal :=
  match s.subject with
  | .contextStart d c => .next (s.contextStart d c)
  | _ => .fault .noSubject
/-- SLICE_END. -/
def execSliceEnd (s : State) : Host.Outcome State Fault Refusal :=
  match s.subject with
  | .sliceEnd d n => .next (s.sliceEnd d n)
  | _ => .fault .noSubject
/-- FLASHBACK_TIMEOUT. -/
def execFlashbackTimeout (s : State) : Host.Outcome State Fault Refusal :=
  match s.subject with
  | .flashbackTimeout k t => .next (s.flashbackTimeout k t)
  | _ => .fault .noSubject
/-- GROUP_SAVE. -/
def execGroupSave (s : State) : Host.Outcome State Fault Refusal :=
  match s.subject with
  | .groupSave k t => .next (s.groupSave k t)
  | _ => .fault .noSubject
/-- GROUP_RESTORE. -/
def execGroupRestore (s : State) : Host.Outcome State Fault Refusal :=
  match s.subject with
  | .groupRestore d i => .next (s.groupRestore d i)
  | _ => .fault .noSubject

end Sys2Proof.Machine
end

