-- ==== Sys2Proof/Machine/Context.lean ====
section
/-! DEFINITION. A context's service on a die: enable, disable and kill (R145), its fault queue (R160), invalidation of its translations
(R154), its descriptors and rubric entries (R143, R144, R148), and what the host answers for its pages (R160). -/

namespace Sys2Proof.Machine

/-! ## Clusters that will not be placed (R145) -/

/-- Clusters of a node that will not be placed: their teams count as retired, and failed (R145). -/
def State.dropRange (s : State) (r : Range) : State :=
  let s1 := s.recordErr r.launch 0x10#8
  match s1.host.launches.find r.launch with
  | none => s1
  | some x => match x.runs[r.node]?, x.recs.find? fun e => e.1 = r.node with
    | some (.running left _), some (_, kr, _) =>
      if kr.ord then s1
      else
        let n := left - (r.last - r.next) * (kr.cw * kr.ch)
        let s2 := s1.setNodeRun r.launch r.node (.running n true)
        if n = 0 then s2.post s2.clk (.nodeFinish r.launch r.node) else s2
    | _, _ => s1

/-- A grid's barriers are looked at: members that were yet to be placed are gone (R115, R116). -/
def State.gridPhases (s : State) (l n : Nat) : State :=
  (s.barriers.map (·.1)).foldl (fun t b => match b with
    | .grid x y _ => if x = l ∧ y = n then t.tryPhase b else t
    | _ => t) s

/-- The cluster ranges of a context on a die are discarded; a head behind one may be placed (R48). -/
def State.killRanges (s : State) (ctx die : Nat) : State :=
  let mine (r : Range) : Bool := (s.host.launches.find r.launch).any fun x => x.ctx == ctx
  let rs := (s.die die).ranges.filter mine
  if rs.isEmpty then s
  else (rs.foldl (fun t r => (t.dropRange r).gridPhases r.launch r.node)
    (s.updDie die fun d => { d with ranges := d.ranges.filter fun r => !mine r })).post s.clk (.clusterPlace die 0 0)

/-! ## Enable and disable (R145) -/

/-- CTXCTL.EN = 1: refused with the first ERRC that holds, in the order of their codes (log 57); ERRC 0x05 also while the unretired dies are not
connected (R21; log 134). -/
def State.contextEnable (s : State) (d c : Nat) : State :=
  let x := s.ctx d c
  let refuse (e : Byte) : State := s.updCtx d c fun y => { y with errc := e }
  if x.en then s
  else if x.sdtb = 0#64 ∨ x.rbtb = 0#64 ∨ x.ptb = 0#64 then refuse 1#8
  else if x.evtb = 0#64 ∨ x.saveb = 0#64 then refuse 2#8
  else if pteBits x.fqb 12 52 = 0 then refuse 3#8
  else if s.slotOf d = 0 ∨ s.fabric.unjoined then refuse 5#8
  else (State.freePages d c 16 (s.updCtx d c fun y => { y with en := true, killing := false })).gainWork d c

/-- What the loader has installed in a context is gone once no die of its partition has the context in service: a context used anew runs the kernels of the
objects that are loaded then (R394). -/
def State.forgetObjects (s : State) (part ctx : Nat) : State :=
  if (s.diesOf part).any fun x => (s.ctx x ctx).en then s
  else s.setHost { s.host with objects := s.host.objects.filter fun o => !(o.part == part && o.ctx == ctx) }

/-- A context is out of service on a die, which has no running context if it ran (R44), and so on its partition: the clusters it has still to
place there fail (R145). -/
def State.contextOff (s : State) (d c : Nat) : State :=
  let s1 := ((List.range Config.dies).filter fun x => x = d ∨ (s.slotOf d ≠ 0 ∧ s.slotOf x = s.slotOf d)).foldl (fun t x => t.killRanges c x)
    ((s.updCtx d c fun y => { y with en := false, killing := false }).forgetObjects (s.slotOf d) c)
  if (s1.die d).run = some c then
    ((s1.setRun d none).updDie d fun x => { x with switching := false }).post s1.clk (.contextStart d c)
  else s1

/-- CTXCTL.EN = 0. -/
def State.contextDisable (s : State) (d c : Nat) : State :=
  if !(s.ctx d c).en then s
  else if s.ctxIdle d c then s.contextOff d c
  else s.updCtx d c fun y => { y with errc := 4#8 }

/-- CONTEXT_IDLE: a held EN = 0 takes effect when the die holds nothing of the context. -/
def State.contextIdle (s : State) (d c : Nat) : State :=
  if !(s.ctx d c).killing then s
  else if s.ctxIdle d c then s.contextOff d c
  else s.post (s.clk + 1) (.contextIdle d c)

/-! ## Kill (R145) -/

/-- The context's task records on a die go, its speculative tasks abort for good, and its ORDERED node fails; spilled records of other contexts may
come back (R75). -/
def State.killTasks (s : State) (part ctx die : Nat) : State :=
  match s.domain? part ctx with
  | none => s
  | some d =>
    if !d.dies.contains die then s
    else
      let s1 := s.updDomain part ctx fun d => { d.upd die fun x => { x with queued := [], spilled := [], places := [] } with failed := true }
      let s2 := (s1.specTasks part ctx die).foldl (fun t i => t.abort part ctx i false) s1
      (s2.refillAll die).post s.clk (.taskCommit part ctx die)

/-- A launch that has not started retires as failed. -/
def State.killKick (s : State) (l : Nat) (x : Launch) : State :=
  let s1 := s.setHost { s.host with launches := s.host.launches.put l { x with started := true, runs := x.runs.map fun _ => .failed } }
  let s2 := match x.queue with
    | some (q, _) => s1.putQueue q { s1.queue q with held := (s1.queue q).held.filter (· ≠ l) }
    | none => s1
  (s2.recordErr l 0x10#8).post s2.clk (.launchRetire l)

/-- The kicks of a context's queues that have not started, on its partition. -/
def State.killKicks (s : State) (part ctx : Nat) : State :=
  (s.host.launches.filter fun e => e.2.queue.isSome && e.2.part == part && e.2.ctx == ctx && !e.2.started).foldl
    (fun t e => t.killKick e.1 e.2) s

/-- What waits for an event, an entry or an earlier domain will not happen: the node fails (log 58). -/
def State.killWaits (s : State) (part ctx : Nat) : State :=
  (s.host.launches.filter fun e => e.2.part == part && e.2.ctx == ctx && e.2.started).foldl (fun t e =>
    (e.2.nodes.zip (List.range e.2.nodes.length)).foldl (fun u x =>
      match e.2.runs.getD x.2 .waiting with
      | .held _ _ => u.failNode e.1 x.2
      | .linked _ => u.failNode e.1 x.2
      | .running _ _ => if x.1.kind = .evwait then u.failNode e.1 x.2 else u
      | _ => u) t) s

/-- The context's copy commands that wait are cancelled; the others complete. -/
def State.killCopies (s : State) (ctx die : Nat) : State :=
  (List.range Config.cores).foldl (fun t c =>
    let ck : CoreKey := ⟨die, c⟩
    let frozen := (t.copies ck).any fun x => x.frozen
    let t1 := ((t.copies ck).filter fun x => x.ctx == ctx && (x.stalled.isSome || x.frozen)).foldl (fun u x =>
      let u1 := u.copyGone ck x
      match x.node with
      | some (l, n) => u1.failNode l n
      | none => u1) t
    if frozen then ((t1.copies ck).filter fun x => x.running && !x.frozen).foldl (fun u x => u.post u.clk (.copyBeat ck x.id)) t1 else t1) s

/-- The context's drains and matrix operations that wait on a fault or are frozen end with what they have written. -/
def State.killDrains (s : State) (ctx die : Nat) : State :=
  (List.range Config.cores).foldl (fun t c =>
    let ck : CoreKey := ⟨die, c⟩
    let stuck := (t.arr die c).drains.filter fun x => x.ctx == ctx && (x.faulted || x.frozen)
    if stuck.isEmpty then t
    else
      let t1 := stuck.foldl (fun u x => u.drainDone ck x) t
      (t1.updArr die c fun a => { a with frozen := a.frozen && a.drains.any fun x => x.frozen }).armMatrix die c) s

/-- The context's event entries, waiting acts and queue blocks on a die are dropped. -/
def State.killTables (s : State) (ctx die : Nat) : State :=
  s.updDie die fun d => { d with
    events := d.events.filter fun e => e.1.1 ≠ ctx
    held := d.held.filter fun h => h.ctx ≠ ctx
    queues := d.queues.filter fun e => e.1 / 8 ≠ ctx }

/-- CONTEXT_KILL: every activity of a context on a die ends; with EN = 0 in the same write the context then leaves service. -/
def State.contextKill (s : State) (die ctx : Nat) (hold : Bool) : State :=
  let part := s.slotOf die
  let s1 := s.killTasks part ctx die
  let s2 := (s1.groupsOn die ctx).foldl (fun t e => match t.group? e.1 with
    | some g => t.killGroup e.1 g
    | none => t) s1
  let s3 := ((s2.die die).saved.filter fun x => x.ctx = ctx).foldl (fun t x => t.killSaved die x) s2
  let s4 := s3.setTeams (s3.teams.map fun e => if e.2.die = die ∧ e.2.ctx = ctx then (e.1, { e.2 with failed := true, redo := false, logs := [] }) else e)
  let s5 := ((s4.killRanges ctx die).killKicks part ctx).killCopies ctx die
  let s6 := s5.killDrains ctx die
  let s7 := if die = s.homeDie part then s6.killWaits part ctx else s6
  let s8 := s7.killTables ctx die
  if hold && (s8.ctx die ctx).en then
    (s8.updCtx die ctx fun c => { c with killing := true }).post s8.clk (.contextIdle die ctx)
  else s8

/-! ## The fault queue (R144, R160) -/

/-- FQCI_WRITE: a value between PI − 2^LOG2N and PI is taken, and records that wait are written. -/
def State.fqciWrite (s : State) (die ctx : Nat) (v : Word) : State :=
  let c := s.ctx die ctx
  if ringSize c.fqb < (c.fqpi - v).toNat then s
  else (s.updCtx die ctx fun x => { x with fqci := v }).drainFaults die ctx c.faults

/-! ## Retries (R158) -/

/-- The die whose translations a retry waits for. -/
def State.retryDie (s : State) (w : RetryOf) : Nat :=
  let home (part : Nat) : Nat := s.homeDie part
  match w with
  | .sideLog k => k.die
  | .feeder d _ => d
  | .drain c _ => c.die
  | .copy c _ => c.die
  | .node l _ => home (((s.host.launches.find l).map (·.part)).getD 1)
  | .rubric d _ _ _ _ _ => d
  | .event p _ _ => home p

/-- Every retry on a die happens at once (R158). -/
def State.retryNow (s : State) (die : Nat) : State :=
  let mine (e : Nat × Event) : Bool := match e.2 with
    | .faultRetry w => s.retryDie w == die
    | _ => false
  let es := s.agenda.filter mine
  es.foldl (fun t e => t.post t.clk e.2) (s.setAgenda (s.agenda.filter fun e => !mine e))

/-! ## TLBINV (R154) -/

/-- When the TLBINV in progress on a die is done. -/
def State.tlbinvPost (s : State) (d c : Nat) : State := s.within (256 + 60 * s.farHop d) 2048 (.tlbinvDone d c)

/-- TLBINV: taken after the one in progress. -/
def State.tlbinv (s : State) (d c : Nat) (v : BitVec 64) : State :=
  let idle := (s.ctx d c).tlbBusy.isEmpty
  let s1 := s.updCtx d c fun x => { x with tlbBusy := x.tlbBusy ++ [v] }
  if idle then s1.tlbinvPost d c else s1

/-- Whether a TLBINV names every entry of its context. -/
def tlbinvAll (v : BitVec 64) : Bool :=
  let n := pteBits v 10 6
  v.getLsbD 0 || decide (n < 16) || decide (57 < n) || decide (pteBits v 16 48 * 65536 % 2 ^ n ≠ 0)

/-- Whether a TLBINV covers a range of linear addresses. -/
def tlbinvHits (v : BitVec 64) (lin size : Nat) : Bool :=
  let a := pteBits v 16 48 * 65536
  tlbinvAll v || (decide (lin < a + 2 ^ pteBits v 10 6) && decide (a < lin + size))

/-- TLBINV_DONE: the range has left every TLB and clause cache of the partition's dies, with the context's guest-physical pages (log 15),
and what waits on them retries (R154, R158, R330). -/
def State.tlbinvDone (s : State) (d c : Nat) : State :=
  match (s.ctx d c).tlbBusy with
  | [] => s
  | v :: rest =>
    let ds := s.diesOf (s.slotOf d)
    let s1 := s.setTlb (s.tlb.filter fun e => !(ds.contains e.die && e.ctx == c && tlbinvHits v (e.page * e.size) e.size))
    let s1 := ds.foldl (fun t x => t.updDie x fun y => { y with ntlb := y.ntlb.filter fun e => e.ctx != c }) s1
    let s2 := s1.setCores (s1.cores.map fun e => if ds.contains (e.1 / 16) then
      (e.1, { e.2 with lines := e.2.lines.filter fun l => !(l.ctx == c && tlbinvHits v l.lin 64) }) else e)
    let s3 := s2.updCtx d c fun x => { x with tlbBusy := rest }
    let s4 := if rest.isEmpty then s3 else s3.tlbinvPost d c
    ds.foldl State.retryNow s4

/-! ## Descriptors (R143, R144) -/

/-- The selector that stands for every selector. -/
def everySel : Nat := 65536

/-- The dies of a partition hold the generation that a descriptor has now, and none where a die cannot read it (log 133); the entries of the reserved
selectors are never read (R399). -/
def State.syncSel (s : State) (part ctx sel : Nat) : State :=
  if 0xfffd ≤ sel then s
  else (s.diesOf part).foldl (fun t d => match t.readLin (dieWho d ctx) (t.descLin (dieWho d ctx) sel + 14) 2 with
    | (.ok bs, t1) => t1.updDie d fun x => { x with gens := x.gens.put (genKey ctx sel) (some (BitVec.ofNat 16 (leNat bs))) }
    | (.error _, t1) => t1.updDie d fun x => if (x.gens.find (genKey ctx sel)).isSome then { x with gens := x.gens.put (genKey ctx sel) none } else x) s

/-- The selectors whose generation a die of a partition holds. -/
def State.heldSels (s : State) (part ctx : Nat) : List Nat :=
  ((s.diesOf part).flatMap fun d => (s.die d).gens.filterMap fun e => if e.1 / 65536 = ctx then some (e.1 % 65536) else none).dedup

/-- SEGSYNC: the change completes on every die within 2048 clk; RBRES answers for it until another act is written. -/
def State.segsync (s : State) (d c : Nat) (v : Word) : State :=
  let sel := if v.getLsbD 31 then everySel else v.toNat % 65536
  let (id, s1) := s.newId
  (s1.updCtx d c fun x => { x with resDone := false, resAct := id, res := 0#2 }).within (80 + 60 * s.farHop d) 2048
    (.descriptorSyncDone (s.slotOf d) c (some sel) (.rbres d c id))

/-- DESCRIPTOR_SYNC_DONE: uses are governed by the new descriptor, and the act is answered. -/
def State.descriptorSyncDone (s : State) (part ctx : Nat) (sel : Option Nat) (ans : SyncAnswer) : State :=
  let s1 := match sel with
    | none => s
    | some n => if n = everySel then (s.heldSels part ctx).foldl (fun t x => t.syncSel part ctx x) s else s.syncSel part ctx n
  match ans with
  | .none => s1
  | .rbres d c n => s1.updCtx d c fun x => if x.resAct = n then { x with resDone := true } else x
  | .scalar k team n => s1.updGroup k fun g =>
      if g.team = team then { g with pend := g.pend.filter fun p => !(p.id == 0 && p.on == .scalar n) } else g

/-! ## RBCMD (R148) -/

/-- The record of an act whose entry cannot be reached. -/
def rbRecord (lin : Nat) : FaultRec :=
  { lin := lin, ec := .pageLoad, kind := 0, hostfail := false, core := 0, slot := 511, sel := 0, ofs := 0 }

/-- An act of RBCMD, of an identity: applied, refused, or waiting for its entry. RBRES answers for the last act written (R144, R148). -/
def State.rbcmdAct (s : State) (d c idx op sel act : Nat) (a : BindAct) (first : Bool) : State :=
  let part := s.slotOf d
  let fresh := if first then s.updCtx d c fun x => { x with resDone := false, resAct := act } else s
  let done (t : State) (res : BitVec 2) (clk : Nat) (x : Option Nat) : State :=
    (t.updCtx d c fun y => if y.resAct = act then { y with res := res } else y).within clk 2048 (.descriptorSyncDone part c x (.rbres d c act))
  match fresh.applyBind (dieWho d c) idx a with
  | (.refused, s1) => done s1 1#2 80 none
  | (.applied e sig, s1) =>
    let s2 := if sig then s1.signalBy d c e.evn else s1
    done s2 0#2 (80 + 60 * s2.farHop d + (if sig then signalClk else 0)) (if a = .revoke ∧ e.sel ≠ 0 then some e.sel else none)
  | (.fault f lin, s1) =>
    let wait (t : State) : State := t.post (s.clk + 256) (.faultRetry (.rubric d c idx op sel act))
    match f with
    | .noPage => wait (if first then s1.report (s1.homeDie part) c (rbRecord lin) else s1)
    | .s2 _ => wait (if first then s1.hyperFault d c (rbRecord lin) else s1)
    | .ats p => wait (if first then s1.send (.ats d c p) else s1)
    | .perm => done s1 1#2 80 none
    | .folioWrite => done s1 1#2 80 none
    | .atomicPath => done s1 1#2 80 none
    | .host _ _ => done s1 1#2 80 none
    | .violation set => done (s1.stray set .req) 1#2 80 none

/-- A write of RBCMD. -/
def State.rbcmd (s : State) (d c idx op sel : Nat) (a : BindAct) : State :=
  let (id, s1) := s.newId
  s1.rbcmdAct d c idx op sel id a true

/-- The act an OP of RBCMD names. -/
def rbAct (op sel : Nat) : BindAct := if op = 1 then .bind sel else if op = 2 then .unbind else if op = 3 then .revoke else .retire

/-! ## The host's answers for pages of type 2 (R152, R154, R160) -/

/-- The groups of a context on a die that wait for the host's answer on a page, with a slot and saved. -/
def State.hostWaiters (s : State) (die ctx page : Nat) : List (GKey × Group) :=
  (s.groupsOn die ctx).filter fun e => match e.2.run with
    | .parked (.host p _) => p == page
    | _ => false

/-- A saved group that waits for a page is ready when it is restored. -/
def State.wakeSaved (s : State) (die ctx page : Nat) : State :=
  s.updDie die fun d => { d with saved := d.saved.map fun x =>
    if x.ctx = ctx then match x.group.run with
      | .parked (.host p _) => if p = page then { x with group := { x.group with run := .ready } } else x
      | _ => x
    else x }

/-- The host holds a page: its translation is kept, and what waits for it goes on (R160). -/
def State.hostPageIn (s : State) (die ctx page : Nat) : State :=
  let pasid := (s.ctx die ctx).pasid.toNat
  let s1 := if s.atsHeld pasid page then s else s.setTlb ({ die := 20, core := none, ctx := pasid, page := page, pte := 0#64, size := 65536 } :: s.tlb)
  let s2 := (s1.hostWaiters die ctx page).foldl (fun t e => t.resumeParked e.1 e.2) s1
  (s2.wakeSaved die ctx page).retryNow die

/-- Whether an entry of a side log waits for a page of the host: for its translation, or with PERM or ATOMIC_PATH on it (R160). -/
def State.logFor (s : State) (w : Who) (page : Nat) (e : LogEntry) : Bool :=
  match s.entryRuns w e with
  | .error (.ats p) => p == page
  | .error (.host _ p) => p == page
  | _ => false

/-- Whether any access that waits for a page writes it. -/
def State.hostWrites (s : State) (die ctx page : Nat) : Bool :=
  ((s.hostWaiters die ctx page).any fun e => match e.2.run with
    | .parked (.host _ t) => t.aux.toNat % 4 == 3
    | _ => false)
    || ((s.groupsOn die ctx).any fun e => e.2.log.any fun x => s.logFor (s.whoOf e.1 e.2) page x)
    || (s.teams.any fun t => t.2.die == die && t.2.ctx == ctx && t.2.logs.any fun x => s.logFor (dieWho die ctx) page x.2)
    || (List.range Config.cores).any fun c => (s.copies ⟨die, c⟩).any fun x => x.ctx == ctx && (match x.stalled with
      | some (_, write, _) => write
      | none => false)

/-- The page requests that a function may have outstanding (R26). -/
def priLimit : Nat := 1024

/-- Page requests of a function that wait are sent while it has fewer than its limit outstanding, oldest first (R26). -/
def State.priSend (fn : Nat) : Nat → State → State
  | 0, s => s
  | n + 1, s =>
    if priLimit ≤ (s.host.pris.filter fun x => x.fn = fn ∧ x.sent).length then s
    else match s.host.pris.find? fun x => x.fn = fn ∧ !x.sent with
      | none => s
      | some x => State.priSend fn n ((s.setHost { s.host with pris := s.host.pris.map fun y => if y = x then { y with sent := true } else y }).send
          (.pri x.die x.ctx x.page x.write))

/-- A page request is made, through the VF of the die's partition (R26, R160; log 70). -/
def State.priAsk (s : State) (die ctx page : Nat) (write : Bool) : State :=
  let x : PageReq := { fn := s.slotOf die, die := die, ctx := ctx, page := page, write := write, sent := false }
  if s.host.pris.any fun y => { y with sent := false } == x then s
  else State.priSend x.fn 1 (s.setHost { s.host with pris := s.host.pris ++ [x] })

/-- A page request has its answer: one that waits may be sent (R26). -/
def State.priAnswered (s : State) (die ctx page : Nat) : State :=
  let (gone, left) := s.host.pris.partition fun x => x.sent && x.die == die && x.ctx == ctx && x.page == page
  gone.foldl (fun t x => State.priSend x.fn 1 t) (s.setHost { s.host with pris := left })

/-- ATS_TRANSLATION_COMPLETION. -/
def State.atsDone (s : State) (die ctx page : Nat) (ok : Bool) : State :=
  if ok then s.hostPageIn die ctx page else s.priAsk die ctx page (s.hostWrites die ctx page)

/-- The HOSTFAIL record of a fault. -/
def hostFail (k : GKey) (t : Trap) : FaultRec := { groupFault k t with hostfail := true }

/-- A group whose page the host refuses is killed, with its record. -/
def State.refuseGroup (s : State) (k : GKey) (g : Group) : State :=
  let t : Trap := match g.run with
    | .parked (.host _ t) => t
    | _ => trapOf .pageLoad 0#32
  (s.report k.die (s.ctxOf g.team) (hostFail k t)).killAny k g

/-- The entries of a page leave the logs of a die's groups; their teams fail. -/
def State.refuseLogs (s : State) (die ctx page : Nat) : State :=
  (s.groupsOn die ctx).foldl (fun t e =>
    match e.2.log.filter fun x => s.logFor (s.whoOf e.1 e.2) page x with
    | [] => t
    | x :: _ =>
      let f : Trap := { cause := .pageLoad, aux := 1#32, ofs := x.ofs, sel := x.sel, lin := x.lin }
      ((t.updGroup e.1 fun g => { g with log := g.log.filter fun y => !s.logFor (s.whoOf e.1 e.2) page y }).updTeam e.2.team
        fun tm => { tm with failed := true }).report die ctx (hostFail e.1 f)) s

/-- The same for what exited groups left with their teams. -/
def State.refuseTeamLogs (s : State) (die ctx page : Nat) : State :=
  s.teams.foldl (fun t e =>
    if e.2.die ≠ die ∨ e.2.ctx ≠ ctx then t
    else match e.2.logs.filter fun x => s.logFor (dieWho die ctx) page x.2 with
      | [] => t
      | x :: _ =>
        let f : Trap := { cause := .pageLoad, aux := 1#32, ofs := x.2.ofs, sel := x.2.sel, lin := x.2.lin }
        (t.updTeam e.1 fun tm => { tm with failed := true, logs := tm.logs.filter fun y => !s.logFor (dieWho die ctx) page y.2 }).report
          die ctx (hostFail x.1 f)) s

/-- The copy commands that wait for a page the host refuses are cancelled. -/
def State.refuseCopies (s : State) (die ctx page : Nat) : State :=
  (List.range Config.cores).foldl (fun t c =>
    let ck : CoreKey := ⟨die, c⟩
    ((t.copies ck).filter fun x => x.ctx == ctx && x.stalled.isSome).foldl (fun u x =>
      let stop (write : Bool) (lin : Nat) : State :=
        let u1 := (u.copyGone ck x).report die ctx { x.record ck .pageLoad write lin with hostfail := true }
        match x.node with
        | some (l, n) => u1.failNode l n
        | none => u1.updTeam x.team fun tm => { tm with failed := true }
      match u.copyReach ck x false (x.from_ + x.moved) (min 64 (x.bytes - x.moved)) with
      | (.error (.ats p, lin), _) => if p = page then stop false lin else u
      | _ => match u.copyReach ck x true (x.into + x.moved) (min 64 (x.bytes - x.moved)) with
        | (.error (.ats p, lin), _) => if p = page then stop true lin else u
        | _ => u) t) s

/-- PRI_RESPONSE. A graph node whose entry, descriptor or kernel record lies on a page that the host refuses goes on waiting (log 142). -/
def State.priResponse (s0 : State) (die ctx page : Nat) (ok : Bool) : State :=
  let s := s0.priAnswered die ctx page
  if ok then s.hostPageIn die ctx page
  else
    let s1 := (s.hostWaiters die ctx page).foldl (fun t e => t.refuseGroup e.1 e.2) s
    let gone := (s1.die die).saved.filter fun x => x.ctx == ctx && (match x.group.run with
      | .parked (.host p _) => p == page
      | _ => false)
    let s2 := gone.foldl (fun t x =>
      let f : Trap := match x.group.run with
        | .parked (.host _ f) => f
        | _ => trapOf .pageLoad 0#32
      (t.report die ctx (hostFail ⟨die, x.core, x.slot⟩ f)).killSaved die x) s1
    (((s2.refuseLogs die ctx page).refuseTeamLogs die ctx page).refuseCopies die ctx page).retryNow die

/-- ATS_INVALIDATE: the host takes back its translations of a range of pages. -/
def State.atsInvalidate (s : State) (pasid lo hi : Nat) : State :=
  s.setTlb (s.tlb.filter fun e => !(e.die == 20 && e.ctx == pasid && decide (lo ≤ e.page) && decide (e.page ≤ hi)))

/-! ## The events -/

/-- CONTEXT_ENABLE. -/
def execContextEnable (s : State) : Host.Outcome State Fault Refusal :=
  match s.subject with
  | .contextEnable d c => .next (s.contextEnable d c)
  | _ => .fault .noSubject
/-- CONTEXT_DISABLE. -/
def execContextDisable (s : State) : Host.Outcome State Fault Refusal :=
  match s.subject with
  | .contextDisable d c => .next (s.contextDisable d c)
  | _ => .fault .noSubject
/-- CONTEXT_KILL. -/
def execContextKill (s : State) : Host.Outcome State Fault Refusal :=
  match s.subject with
  | .contextKill d c h => .next (s.contextKill d c h)
  | _ => .fault .noSubject
/-- CONTEXT_IDLE. -/
def execContextIdle (s : State) : Host.Outcome State Fault Refusal :=
  match s.subject with
  | .contextIdle d c => .next (s.contextIdle d c)
  | _ => .fault .noSubject
/-- FQCI_WRITE. -/
def execFqciWrite (s : State) : Host.Outcome State Fault Refusal :=
  match s.subject with
  | .fqciWrite d c v => .next (s.fqciWrite d c v)
  | _ => .fault .noSubject
/-- TLBINV. -/
def execTlbinv (s : State) : Host.Outcome State Fault Refusal :=
  match s.subject with
  | .tlbinv d c v => .next (s.tlbinv d c v)
  | _ => .fault .noSubject
/-- TLBINV_DONE. -/
def execTlbinvDone (s : State) : Host.Outcome State Fault Refusal :=
  match s.subject with
  | .tlbinvDone d c => .next (s.tlbinvDone d c)
  | _ => .fault .noSubject
/-- SEGSYNC. -/
def execSegsync (s : State) : Host.Outcome State Fault Refusal :=
  match s.subject with
  | .segsync d c v => .next (s.segsync d c v)
  | _ => .fault .noSubject
/-- DESCRIPTOR_SYNC_DONE. -/
def execDescriptorSyncDone (s : State) : Host.Outcome State Fault Refusal :=
  match s.subject with
  | .descriptorSyncDone p c n a => .next (s.descriptorSyncDone p c n a)
  | _ => .fault .noSubject
/-- RBCMD_BIND. -/
def execRbcmdBind (s : State) : Host.Outcome State Fault Refusal :=
  match s.subject with
  | .rbcmdBind d c i n => .next (s.rbcmd d c i 1 n (.bind n))
  | _ => .fault .noSubject
/-- RBCMD_UNBIND. -/
def execRbcmdUnbind (s : State) : Host.Outcome State Fault Refusal :=
  match s.subject with
  | .rbcmdUnbind d c i => .next (s.rbcmd d c i 2 0 .unbind)
  | _ => .fault .noSubject
/-- RBCMD_UNBIND_REVOKE. -/
def execRbcmdUnbindRevoke (s : State) : Host.Outcome State Fault Refusal :=
  match s.subject with
  | .rbcmdUnbindRevoke d c i => .next (s.rbcmd d c i 3 0 .revoke)
  | _ => .fault .noSubject
/-- RBCMD_RETIRE. -/
def execRbcmdRetire (s : State) : Host.Outcome State Fault Refusal :=
  match s.subject with
  | .rbcmdRetire d c i => .next (s.rbcmd d c i 4 0 .retire)
  | _ => .fault .noSubject
/-- PRI_RESPONSE. -/
def execPriResponse (s : State) : Host.Outcome State Fault Refusal :=
  match s.subject with
  | .priResponse d c p ok => .next (s.priResponse d c p ok)
  | _ => .fault .noSubject
/-- ATS_TRANSLATION_COMPLETION. -/
def execAtsTranslationCompletion (s : State) : Host.Outcome State Fault Refusal :=
  match s.subject with
  | .atsTranslationCompletion d c p ok => .next (s.atsDone d c p ok)
  | _ => .fault .noSubject
/-- ATS_INVALIDATE. -/
def execAtsInvalidate (s : State) : Host.Outcome State Fault Refusal :=
  match s.subject with
  | .atsInvalidate p lo hi => .next (s.atsInvalidate p lo hi)
  | _ => .fault .noSubject

end Sys2Proof.Machine
end

