-- ==== Sys2Proof/Machine/HostIf.lean ====
section
/-! DEFINITION. The host interface: queues, kicks and status words (R28 to R34), registered graphs (R35, R36), the start and the end of
launches and their nodes (R37, R46, R47, R62, R67, R69, R401), and weight loading (R41 to R43). -/

namespace Sys2Proof.Machine

/-- Host memory at an address of a PASID. -/
def State.hostBytes (s : State) (pasid a n : Nat) : List Byte := s.readBytes (.host pasid a) n

/-- Little-endian field of bytes. -/
def fieldOf (bs : List Byte) (o n : Nat) : Nat := leNat ((bs.drop o).take n)

/-- Whether any of some bytes is not 0. -/
def anyByte (bs : List Byte) : Bool := bs.any fun b => b != 0#8

/-- Whether a context is in service on a partition (R145). -/
def State.inService (s : State) (part ctx : Nat) : Bool := !(s.diesOf part).isEmpty && (s.diesOf part).all fun d => (s.ctx d ctx).en

/-- Whether a number names a partition slot that holds a die (R21). -/
def State.slotHolds (s : State) (part : Nat) : Bool := decide (1 ≤ part) && decide (part ≤ 20) && !(s.diesOf part).isEmpty

/-! ## Queues (R29, R30) -/

/-- The descriptor of a queue. -/
def qdescOf (bs : List Byte) : QDesc :=
  { pasid := fieldOf bs 4 4 % 1048576, ctx := fieldOf bs 4 4 / 1048576 % 16, prio := fieldOf bs 4 4 / 16777216 % 4, stat := fieldOf bs 8 8,
    argBase := fieldOf bs 16 8, slotSz := fieldOf bs 24 2, slots := fieldOf bs 28 3, vec := fieldOf bs 32 2 }

/-- MSI-X vectors of a function (R26). -/
def vectorsOf (fn : Nat) : Nat := if fnNum fn = 0 then 2048 else 256

/-- The first check of a descriptor that fails, by its code (R30, checks 4 to 8). -/
def State.descCheck (s : State) (fn part : Nat) (bs : List Byte) : Option Byte :=
  let d := qdescOf bs
  if fieldOf bs 0 2 ≠ 1 ∨ fieldOf bs 2 2 ≠ 256 then some 1#8
  else if fieldOf bs 4 4 / 67108864 ≠ 0 ∨ fieldOf bs 26 2 ≠ 0 ∨ fieldOf bs 31 1 ≠ 0 ∨ fieldOf bs 34 2 ≠ 0 ∨ anyByte (bs.drop 36) then some 2#8
  else if d.slotSz % 64 ≠ 0 ∨ d.slotSz < 64 ∨ 4096 < d.slotSz ∨ d.slots = 0 ∨ d.stat % 64 ≠ 0 ∨ d.argBase % 64 ≠ 0 then some 4#8
  else if vectorsOf fn ≤ d.vec then some 5#8
  else if !s.inService part d.ctx then some 3#8
  else none

/-- QUEUE_ENABLE. A queue that this function has enabled stays as it is. The counters start again, which is a change that the status words show
(R33); a status write and vectors still due from before go out with the new descriptor and counts (log 140). -/
def State.queueEnable (s : State) (fn q : Nat) : State :=
  let x := s.queue q
  let part := pslotOf fn x.pslot
  let refuse (t : State) (e : Byte) : State := t.putQueue q { t.queue q with errc := e }
  if x.en && x.fn == fn then s
  else if !s.slotHolds part then refuse s 7#8
  else if x.en then refuse s 6#8
  else
    let s1 := s.setFreeCtr (s.freeCtr + 1)
    let told (t : State) : State := if x.word0 = 0 ∧ x.errseq = 0#32 then t else t.statusSoon q
    if Config.hostRefuses s.freeCtr then refuse s1 8#8
    else
      let bs := s1.hostBytes noPasid x.qda.toNat 256
      match s1.descCheck fn part bs with
      | some e => refuse s1 e
      | none =>
        let y : Queue := { x with en := true, draining := false, pslot := BitVec.ofNat 5 part, fn := fn, desc := qdescOf bs, done := 0#32,
                                  taken := 0#16, err := 0#8, ovf := false, errseq := 0#32, seq := 0#32, held := [], retired := [] }
        told (s1.putQueue q y)

/-- DRAIN, through any function whose queue control holds the queue. -/
def State.drain (s : State) (_fn q : Nat) : State :=
  let x := s.queue q
  if !x.en then s
  else
    let s1 := s.putQueue q { x with draining := true }
    if s1.queueIdle q then s1.post s1.clk (.queueDrainDone q) else s1

/-- QUEUE_DISABLE: EN = 0, which on a busy queue is DRAIN. -/
def State.queueDisable (s : State) (fn q : Nat) : State := s.drain fn q

/-- QUEUE_DRAIN_DONE. -/
def State.queueDrainDone (s : State) (q : Nat) : State :=
  let x := s.queue q
  if x.draining && s.queueIdle q then s.putQueue q { x with en := false, draining := false } else s

/-! ## Status words (R33) -/

/-- DONE runs over retired launches that are contiguous in sequence order; `n` bounds them. -/
def Queue.advance : Nat → Queue → Queue
  | 0, q => q
  | n + 1, q => match q.retired.find? fun e => e.1 = q.done with
    | none => q
    | some e => Queue.advance n { q with done := q.done + 1#32, retired := q.retired.filter fun f => f.1 ≠ e.1, irqs := q.irqs + bitOf e.2 }

/-- A sequence number of a queue has retired. -/
def State.queueRetire (s : State) (q : Nat) (seq : Word) (irq : Bool) : State :=
  let x := s.queue q
  let y : Queue := { x with retired := x.retired ++ [(seq, irq)] }
  (s.putQueue q (y.advance (y.retired.length + 1))).statusSoon q

/-- STATUS_WRITE: both words in one write, then the vector of each launch newly counted that asked for it. -/
def State.statusWrite (s : State) (q : Nat) : State :=
  let x := s.queue q
  let s1 := (s.writeBytes (.host x.desc.pasid x.desc.stat) (leBytes 8 x.word0 ++ leBytes 8 x.errseq.toNat)).putQueue q
    { x with statusDue := false, irqs := 0 }
  (List.range x.irqs).foldl (fun t _ => t.send (.msix x.fn x.desc.vec)) s1

/-! ## Kicks (R31, R32) -/

/-- The graph a handle names for a partition and context. -/
def State.graph? (s : State) (part ctx : Nat) (h : Word) : Option Graph :=
  s.host.graphs.find? fun g => g.part = part ∧ g.ctx = ctx ∧ g.handle = h

/-- A kick of PRIO 1 goes ahead of the waiting kicks of PRIO 0. -/
def State.insertHeld (s : State) (l : Nat) (first : Bool) (held : List Nat) : List Nat :=
  if !first then held ++ [l]
  else
    let isFirst (x : Nat) : Bool := (s.host.launches.find x).any fun y => y.first
    held.filter isFirst ++ [l] ++ held.filter fun x => !isFirst x

/-- The counts that EVWAIT nodes compare with are taken from their home die as the kick is taken (R57). -/
def State.peekEvents (s : State) (part ctx l : Nat) (nodes : List Node) : State :=
  (nodes.zip (List.range nodes.length)).foldl (fun t e =>
    if e.1.kind = .evwait then
      match t.evTake (t.homeDie part) ctx e.1.name with
      | .ok (x, t1) => match t1.evPut (t1.homeDie part) ctx e.1.name x with
        | .ok t2 => t2.setSeen l e.2 x.c
        | .error _ => t1.post t1.clk (.eventActArrive part ctx e.1.name (.peek l e.2))
      | .error _ => t.post t.clk (.eventActArrive part ctx e.1.name (.peek l e.2))
    else t) s

/-- KICK. The model's read of the argument slot is always answered (log 139). -/
def State.kick (s : State) (fn q off width : Nat) (v : BitVec 64) : State :=
  let x := s.queue q
  if !x.en || x.fn != fn || x.draining || !s.fnLive fn then s
  else if 64 ≤ x.held.length then (s.putQueue q { x with ovf := true }).statusSoon q
  else
    let part := x.pslot.toNat
    let seq := x.seq
    let s1 := (s.putQueue q { x with seq := seq + 1#32, taken := x.taken + 1#16 }).statusSoon q
    let refuse (e : Byte) (irq : Bool) : State :=
      (s1.putQueue q { s1.queue q with err := e, errseq := seq }).queueRetire q seq irq
    let irq := v.getLsbD 56
    if width ≠ 8 ∨ off ≠ 0 then refuse 1#8 false
    else if pteBits v 59 5 ≠ 0 then refuse 1#8 irq
    else match s1.graph? part x.desc.ctx (low32 v) with
      | none => refuse 2#8 irq
      | some g =>
        let slot := pteBits v 32 24
        if x.desc.slots ≤ slot then refuse 3#8 irq
        else
          let (l, s2) := s1.newId
          let y : Launch :=
            { queue := some (q, seq.toNat), parent := none, part := part, ctx := x.desc.ctx, prio := x.desc.prio, serial := v.getLsbD 57,
              irq := irq, first := v.getLsbD 58, started := false, nodes := g.nodes, runs := g.nodes.map fun _ => .waiting,
              seen := g.nodes.map fun _ => 0#32, args := s2.hostBytes x.desc.pasid (x.desc.argBase + slot * x.desc.slotSz) x.desc.slotSz,
              recs := [], gen := 0, err := 0#8, evn := none, taken := s.clk, asked := none }
          let s3 := s2.setHost { s2.host with launches := s2.host.launches.put l y }
          let s4 := s3.putQueue q { s3.queue q with held := s3.insertHeld l y.first (s3.queue q).held }
          (s4.peekEvents part x.desc.ctx l g.nodes).after 0 (.launchStart l)

/-! ## Launches (R33, R34, R37) -/

/-- Whether a launch of a queue that was taken before one has not retired (R31): launches are numbered as they are taken (log 1). -/
def State.earlierRuns (s : State) (q l : Nat) : Bool :=
  s.host.launches.any fun e => match e.2.queue with
    | some (p, _) => p == q && decide (e.1 < l)
    | none => false

/-- The launches that stand ahead of one in the order of its queue. -/
def aheadOf (l : Nat) : List Nat → List Nat
  | [] => []
  | x :: rest => if x = l then [] else x :: aheadOf l rest

/-- Whether a held launch that stands ahead of another waits for that one: it is SERIAL and was taken after it, or one that holds it back is so
(R31, R34; log 59). -/
def State.waitsFor (s : State) (q l a : Nat) : Bool :=
  (a :: aheadOf a (s.queue q).held).any fun b => decide (l < b) && decide (b ≤ a) && (s.host.launches.find b).any fun y => y.serial

/-- Whether a held launch may start: SERIAL is met, and none ahead of it is to start first; one ahead that waits for it, or for one that waits for it in
turn, does not hold it back (R34; log 59). -/
def State.mayStart (s : State) (q l : Nat) (x : Launch) : Bool :=
  !(x.serial && s.earlierRuns q l)
    && (aheadOf l (s.queue q).held).all fun a => (s.host.launches.find a).isNone || s.waitsFor q l a

/-- The other held launches of a queue look again. -/
def State.startHeld (s : State) (q : Nat) : State := (s.queue q).held.foldl (fun t l => t.post t.clk (.launchStart l)) s

/-- The nodes that have no predecessor left start, unless they have. -/
def State.startNodes (s : State) (l : Nat) (x : Launch) : State :=
  (x.nodes.zip (List.range x.nodes.length)).foldl (fun t e =>
    if x.runs[e.2]? = some .waiting ∧ e.1.preds.all fun p => x.runs[p]? = some .finished then t.after 0 (.nodeStart l e.2) else t) s

/-- LAUNCH_START: a launch that may start binds the generation in force (R43), and its first nodes start. -/
def State.launchStart (s : State) (l : Nat) : State :=
  match s.host.launches.find l with
  | none => s
  | some x => match x.queue with
    | none => s
    | some (q, _) =>
      if x.started || !s.mayStart q l x then s
      else
        let y : Launch := { x with started := true, gen := (s.part x.part).gen }
        let s1 := s.setHost { s.host with launches := s.host.launches.put l y }
        let s2 := s1.putQueue q { s1.queue q with held := (s1.queue q).held.filter (· ≠ l) }
        (s2.startNodes l y).startHeld q

/-- Whether a node has come to its end. -/
def NodeRun.over (r : NodeRun) : Bool :=
  match r with
  | .finished => true
  | .failed => true
  | .skipped => true
  | _ => false

/-- LAUNCH_RETIRE: every node is over; DONE advances (R33), or the child's event is signalled (R351). -/
def State.launchRetire (s : State) (l : Nat) : State :=
  match s.host.launches.find l with
  | none => s
  | some x =>
    if !x.runs.all NodeRun.over then s
    else
      let s1 := s.setHost { s.host with launches := s.host.launches.del l }
      match x.queue with
      | some (q, seq) =>
        let s2 := (s1.queueRetire q (BitVec.ofNat 32 seq) x.irq).startHeld q
        if (s2.queue q).draining && s2.queueIdle q then s2.post s2.clk (.queueDrainDone q) else s2
      | none => match x.evn with
        | some n => s1.after (60 * hops 0 (s1.homeDie x.part)) (.eventActArrive x.part x.ctx n (.signal none))
        | none => s1

/-! ## Nodes end (R37, R47) -/

/-- Nodes that depend on one that failed or was skipped are skipped; predecessors come before them, so one pass in order reaches all. -/
def skipFrom : List Node → List NodeRun → Nat → List NodeRun → List NodeRun
  | nd :: ns, r :: rs, i, done =>
    let bad := nd.preds.any fun p => match done[p]? with
      | some .failed => true
      | some .skipped => true
      | _ => false
    skipFrom ns rs (i + 1) (done ++ [if r = .waiting ∧ bad then .skipped else r])
  | _, _, _, done => done

/-- The ORDERED nodes that wait for a context's domain to end look again (R67). -/
def State.wakeOrdered (s : State) (part ctx : Nat) : State :=
  s.host.launches.foldl (fun t e =>
    if e.2.part = part ∧ e.2.ctx = ctx ∧ e.2.started then
      (e.2.nodes.zip (List.range e.2.nodes.length)).foldl (fun u x =>
        if x.1.kind = .ordered ∧ e.2.runs[x.2]? = some .waiting then u.post u.clk (.nodeStart e.1 x.2) else u) t
    else t) s

/-- NODE_FINISH: a node whose work is done finishes or fails; its successors start or are skipped; the launch may retire. -/
def State.nodeFinish (s : State) (l n : Nat) : State :=
  match s.host.launches.find l with
  | none => s
  | some x => match x.runs[n]?, x.nodes[n]? with
    | some (.running left failed), some nd =>
      if nd.kind = .grid ∧ left ≠ 0 then s
      else
        let runs := x.runs.set n (if failed then .failed else .finished)
        let y : Launch := { x with runs := skipFrom x.nodes runs 0 [] }
        let s1 := s.setHost { s.host with launches := s.host.launches.put l y }
        let s2 := if failed then s1.recordErr l 0x10#8 else s1
        let s3 := (s2.startNodes l y).post s2.clk (.launchRetire l)
        if nd.kind = .ordered then s3.wakeOrdered x.part x.ctx else s3
    | _, _ => s

/-! ## Nodes start (R37) -/

/-- What the reads of a kernel's entry, descriptor and record come to. -/
inductive KernelRead where
  | kernel (kr : KRec) (code : SegReg) (s : State)
  | unbound (state : Nat) (lin : Nat) (s : State)
  | fails (s : State)
  | fault (f : XFault) (lin : Nat) (s : State)

/-- Read a node's kernel: its rubric entry, the descriptor, and the record at KREC. An entry that is BOUND to selector 0 or a reserved one, or to a
descriptor that is malformed, fails the node as one that is no CODE does (log 141). -/
def State.readKernel (s : State) (w : Who) (idx : Nat) : KernelRead :=
  let lin := s.rubricLin w idx
  match s.readLin w lin 8 with
  | (.error f, s1) => .fault f lin s1
  | (.ok eb, s1) =>
    let e := entryOf eb
    if e.state = 3 then .fails s1
    else if e.state ≠ 2 then .unbound e.state lin s1
    else if e.sel = 0 ∨ 0xfffd ≤ e.sel then .fails s1
    else
      let dl := s1.descLin w e.sel
      match s1.readLin w dl 32 with
      | (.error f, s2) => .fault f dl s2
      | (.ok db, s2) =>
        let (r, k) := decodeDesc (BitVec.ofNat 16 e.sel) db
        if r.kind ≠ 1#3 ∨ r.bad ∨ k = 0 then .fails s2
        else match s2.readLin w k 64 with
          | (.error f, s3) => .fault f k s3
          | (.ok kb, s3) =>
            .kernel (krecOf kb) r (s3.updDie w.die fun d => { d with gens := d.gens.put (genKey w.ctx e.sel) (some r.gen) })

/-- Whether a record's shape and a node's suit each other (R46, R95, R96). -/
def shapeOk (kr : KRec) (nd : Node) : Bool :=
  clusterOk kr.cw kr.ch && decide (1 ≤ kr.lanes) && decide (kr.lanes ≤ 1024) && kr.groups == nd.gpt
    && (nd.tx * nd.ty * nd.tz) % (kr.cw * kr.ch) == 0

/-- The shares of the dies of a partition: die, first cluster, clusters (R46). -/
def sharesOf (clusters : Nat) (ds : List Nat) : List (Nat × Nat × Nat) :=
  let p := ds.length
  (ds.zip (List.range p)).map fun e =>
    let extra := min e.2 (clusters % p)
    (e.1, e.2 * (clusters / p) + extra, clusters / p + (if e.2 < clusters % p then 1 else 0))

/-- A die with nothing on it, to see what fits (R116). -/
def State.emptied (s : State) (die : Nat) : State :=
  let s1 := s.setCores (s.cores.filter fun e => e.1 / 16 ≠ die)
  let s2 := s1.setGroups (s1.groups.filter fun e => (keyOfNum e.1).die ≠ die)
  s2.setTeams (s2.teams.filter fun e => e.2.die ≠ die)

/-- Whether a die's share of a grid-resident launch fits an empty die. -/
def State.shareFits (s : State) (x : Launch) (l n : Nat) (nd : Node) (kr : KRec) (code : SegReg) (e : Nat × Nat × Nat) : Bool :=
  (State.placeShare x l n nd kr code e.1 ((List.range e.2.2).map (e.2.1 + ·)) (s.emptied e.1)).isSome

/-- The master front end, on die 0, sends a die an event as an MGMT flit over the links between them (R9, R13). -/
def State.mgmt (s : State) (die : Nat) (e : Event) : State :=
  match s.hopsTo 0 die .mgmt with
  | [] => s.post s.clk e
  | h :: r => s.sendFlit h (.mgmt e r) 0

/-- The cluster ranges of a node go to their dies. -/
def State.giveRanges (s : State) (l n ctx : Nat) (shares : List (Nat × Nat × Nat)) : State :=
  shares.foldl (fun t e =>
    if e.2.2 = 0 then t
    else
      let r : Range := { launch := l, node := n, next := e.2.1, last := e.2.1 + e.2.2, waited := 0, since := none, blocking := false, again := false }
      ((t.updDie e.1 fun d => { d with ranges := d.ranges ++ [r] }).mgmt e.1 (.clusterPlace e.1 l n)).gainWork e.1 ctx) s

/-- The initial task records of an ORDERED node (R69). The model's reads of them are always answered (log 139). -/
def State.initialRecords (s : State) (pasid : Nat) (nd : Node) : List RecWords :=
  (List.range nd.count.toNat).map fun i => recWords (s.hostBytes pasid (nd.addr.toNat + 32 * i) 32)

/-- The domain of an ORDERED node, with its first records spread over the dies that take part (R67, R69). -/
def State.openDomain (s : State) (l n : Nat) (x : Launch) (code : SegReg) (ds : List Nat) (recs : List RecWords) : State :=
  let (dom, s) := s.newId
  let d : Domain := { dom := dom, launch := l, node := n, dies := ds, args := x.args, onDie := [], tracks := [], failed := false }
  let s1 := s.putDomain x.part x.ctx d
  let s2 := (recs.zip (List.range recs.length)).foldl (fun t e =>
    let die := ds.getD (e.2 % max 1 ds.length) 0
    let (id, t1) := t.newId
    t1.enqueueRec x.part x.ctx die (e.1.toRec id code { ts := e.1.ts, tb := tbOf die 0 } none l n)) s1
  let born := (s.die (s.homeDie x.part)).born
  s2.post (born + (s.clk - born + 31) / 32 * 32) (.frontierSample x.part x.ctx dom)

/-- Whether no die is given more than 2048 records of one timestamp (R72). -/
def recordsFit (dies : Nat) (recs : List RecWords) : Bool :=
  let keys := (recs.zip (List.range recs.length)).map fun e => (e.2 % max 1 dies, e.1.ts)
  decide (recs.length ≤ 2048) || keys.dedup.all fun x => decide (keys.count x ≤ 2048)

/-- Whether the quota of each die that takes part holds the records it is given (R74). -/
def State.quotaHolds (s : State) (ctx : Nat) (takers : List Nat) (n : Nat) : Bool :=
  (takers.zip (List.range takers.length)).all fun e => decide ((n + takers.length - 1 - e.2) / max 1 takers.length ≤ s.taskQuota e.1 ctx)

/-- A GRID or ORDERED node whose kernel is known: it fails where its shape does not suit, or, with 0x12, where a die's quota does not hold its
records (R33, R74; log 130), else its clusters go to the dies. -/
def State.gridGo (s : State) (l n : Nat) (x : Launch) (nd : Node) (kr : KRec) (code : SegReg) : State :=
  let ds := s.diesOf x.part
  let total := nd.tx * nd.ty * nd.tz
  if !shapeOk kr nd then s.failNode l n
  else
    let y : Launch := { x with recs := (n, kr, code) :: x.recs.filter fun e => e.1 ≠ n, runs := x.runs.set n (.running total false) }
    let shares := sharesOf (total / (kr.cw * kr.ch)) ds
    if kr.gres && !(shares.all fun e => s.shareFits y l n nd kr code e) then s.failNode l n
    else
      let put (t : State) : State := (t.setHost { t.host with launches := t.host.launches.put l y }).giveRanges l n x.ctx shares
      if nd.kind = .ordered then
        let pasid := match x.queue with
          | some (q, _) => (s.queue q).desc.pasid
          | none => noPasid
        let recs := s.initialRecords pasid nd
        let takers := shares.filterMap fun e => if e.2.2 = 0 then none else some e.1
        if recs.isEmpty || !recs.all RecWords.valid || !recordsFit takers.length recs then s.failNode l n
        else if !s.quotaHolds x.ctx takers recs.length then s.failNodeWith l n 0x12#8
        else (put s).openDomain l n x code takers recs
      else put s

/-- A node's fault record, on the partition's lowest-numbered die. -/
def nodeRecord (c : Cause) (kind lin : Nat) : FaultRec := { rbRecord lin with ec := c, kind := kind }

/-- A GRID or ORDERED node starts: it reads its kernel, waits for it, or fails (R37, R145). Its kind says whether its groups are task
slots (R68; log 61). -/
def State.gridStart (s : State) (l n : Nat) (x : Launch) (nd : Node) (r : NodeRun) : State :=
  let home := s.homeDie x.part
  let w : Who := { dieWho home x.ctx with gen := x.gen }
  let known := x.recs.find? fun e => e.1 = n
  if !s.inService x.part x.ctx then s.failNode l n
  else if nd.kind = .ordered ∧ (s.domain? x.part x.ctx).isSome then s.setNodeRun l n .waiting
  else match known with
    | some (_, kr, code) => s.gridGo l n x nd kr code
    | none => match s.readKernel w nd.rubric with
      | .kernel kr code s1 => s1.gridGo l n x nd { kr with ord := nd.kind == .ordered } code
      | .fails s1 => s1.failNode l n
      | .unbound st lin s1 =>
        match r with
        | .linked seen => if st = 0 ∧ seen then s1.failNode l n else s1.setNodeRun l n (.linked (seen || st = 1))
        | _ => (s1.setNodeRun l n (.linked (st = 1))).report home x.ctx (nodeRecord .link 2 lin)
      | .fault f lin s1 =>
        let on : NodeRun := .held f.rank (lin / 65536)
        let first : Bool := r != on
        let wait (t : State) : State := (t.setNodeRun l n on).post (s.clk + 256) (.faultRetry (.node l n))
        match f with
        | .noPage => wait (if first then s1.report home x.ctx (nodeRecord .pageLoad 0 lin) else s1)
        | .s2 _ => wait (if first then s1.hyperFault home x.ctx (nodeRecord .pageLoad 0 lin) else s1)
        | .ats p => wait (if first then s1.send (.ats home x.ctx p) else s1)
        | .perm => s1.failNode l n
        | .folioWrite => s1.failNode l n
        | .atomicPath => s1.failNode l n
        | .host _ _ => s1.failNode l n
        | .violation set => (s1.stray set .req).failNode l n

/-- A flat segment over linear addresses, for a COPY node (R401). -/
def flatSeg (wr : Bool) : SegReg := { SegReg.null with r := !wr, w := wr }

/-- A COPY node's command for the engine of core 0 of the partition's lowest-numbered die; while the engine holds 16 it waits. -/
def State.copyNode (s : State) (l n : Nat) (x : Launch) (nd : Node) : State :=
  let ck : CoreKey := ⟨s.homeDie x.part, 0⟩
  if copyPlaces ≤ (s.copies ck).length then s.post (s.clk + 1) (.nodeStart l n)
  else
    let (id, s1) := s.newId
    let count := nd.count.toNat
    let c : CopyCmd :=
      { id := id, g := ⟨ck.die, 0, 511⟩, team := 0, ctx := x.ctx, node := some (l, n), dst := flatSeg true, src := flatSeg false,
        from_ := nd.src.toNat, into := nd.addr.toNat, bytes := count, moved := 0, rows := if count = 0 then 0 else 1, fromPitch := 0,
        intoPitch := 0, total := count, bar := none, running := false, issued := s.clk, movedAt := 0, ahead := [], stalled := none, frozen := false }
    (s1.setNodeRun l n (.running 1 false)).addCopy ck c

/-! ## Weight loading (R41 to R43) -/

/-- A record of a shard list. -/
def shardOf (bs : List Byte) : Shard :=
  { src := fieldOf bs 0 8, len := fieldOf bs 8 4, nvme := fieldOf bs 12 4 % 2 = 1, folio := fieldOf bs 12 4 / 2 % 2 = 1, addr := fieldOf bs 16 8,
    dies := fieldOf bs 24 4 % 1048576, digest := BitVec.ofNat 512 (fieldOf bs 32 64), tries := 0 }

/-- Whether a record keeps the layout of R41; that a folio shard ends within the 2^28 bytes of the logical folio is the model's choice (log 130). -/
def shardLaid (bs : List Byte) : Bool :=
  let x := shardOf bs
  x.len % 64 == 0 && decide (64 ≤ x.len) && decide (x.len ≤ 67108864) && decide (fieldOf bs 12 4 < 4) && decide (fieldOf bs 24 4 < 1048576)
    && fieldOf bs 28 4 == 0 && x.addr % 64 == 0
    && (if x.folio then decide (x.addr < 2 ^ 28) && decide (x.addr + x.len ≤ 2 ^ 28) else x.dies == 0)

/-- The logical regions a folio shard covers. -/
def Shard.regions (x : Shard) : List Nat := (List.range ((x.addr + x.len - 1) / 4194304 - x.addr / 4194304 + 1)).map (x.addr / 4194304 + ·)

/-- The dies a shard names. -/
def Shard.targets (x : Shard) : List Nat := (List.range Config.dies).filter fun d => x.dies / 2 ^ d % 2 = 1

/-- Where an HBM shard goes: pages of types 0 and 1 within the partition; none otherwise. A page with V = 0 or without W is none as well, which
is the model's choice (log 130). -/
def State.shardRuns (s : State) (part ctx : Nat) (x : Shard) : Option (List Run) :=
  match s.translateRange (dieWho (s.homeDie part) ctx) .write (x.len / 65536 + 2) x.addr x.len with
  | (.ok rs, _) => if rs.all fun r => match r.place with
      | .hbm d _ => s.slotOf d == part
      | _ => false then some rs else none
  | (.error _, _) => none

/-- The region table of a die for a generation. -/
def Die.regions (d : Die) (gen : Nat) : Tbl (BitVec 16) := if gen % 2 = 0 then d.regionA else d.regionB

/-- The physical regions of a die that a table uses. -/
def usedRegions (t : Tbl (BitVec 16)) : List Nat := t.filterMap fun e => if e.2.getLsbD 15 then some (e.2.extractLsb' 0 6).toNat else none

/-- Whether a running launch of a partition binds a generation older than the one in force. -/
def State.bindsOlder (s : State) (part gen : Nat) : Bool :=
  s.host.launches.any fun e => e.2.part == part && e.2.started && e.2.gen != gen

/-- The physical regions of a die that are spare, but for those a load has taken (R43). -/
def State.spareRegions (s : State) (part die : Nat) (taken : List ((Nat × Nat) × Nat)) : List Nat :=
  let g := (s.part part).gen
  let d := s.die die
  let used := usedRegions (d.regions g) ++ (if s.bindsOlder part g then usedRegions (d.regions (g + 1)) else [])
    ++ taken.filterMap fun e => if e.1.1 = die then some e.2 else none
  (List.range 64).filter fun p => !used.contains p

/-- Give each region of a list one spare region of a die; none where there are too few. -/
def State.giveSpare (s : State) (part die : Nat) : List Nat → List ((Nat × Nat) × Nat) → Option (List ((Nat × Nat) × Nat))
  | [], t => some t
  | r :: rest, t =>
    if (assocGet t (die, r)).isSome then State.giveSpare s part die rest t
    else match s.spareRegions part die t with
      | p :: _ => State.giveSpare s part die rest (t ++ [((die, r), p)])
      | [] => none

/-- The status of a shard list before its first read, with the index of the first shard that fails, or what it takes (R42). -/
def State.checkShards (s : State) (part ctx : Nat) : List (List Byte) → Nat → List ((Nat × Nat) × Nat) → Except (Nat × Nat) (List ((Nat × Nat) × Nat))
  | [], _, t => .ok t
  | bs :: rest, i, t =>
    let x := shardOf bs
    if !shardLaid bs then .error (5, i)
    else if x.folio then
      if !x.targets.all fun d => s.slotOf d == part then .error (4, i)
      else match x.targets.foldl (fun (a : Option (List ((Nat × Nat) × Nat))) d => a.bind (State.giveSpare s part d x.regions)) (some t) with
        | some t1 => State.checkShards s part ctx rest (i + 1) t1
        | none => .error (3, i)
    else if (s.shardRuns part ctx x).isNone then .error (4, i)
    else State.checkShards s part ctx rest (i + 1) t

/-- The context and the PASID a LOADW node's queue gives it. -/
def State.loadCtx (s : State) (l : Nat) : Nat × Nat :=
  match s.host.launches.find l with
  | some x => (x.ctx, match x.queue with
    | some (q, _) => (s.queue q).desc.pasid
    | none => noPasid)
  | none => (0, noPasid)

/-- The die on which the host link of the function of a launch's queue ends. -/
def State.loadLink (s : State) (l : Nat) : Nat :=
  match s.host.launches.find l with
  | some x => match x.queue with
    | some (q, _) => fnDie (s.queue q).fn
    | none => 0
  | none => 0

/-- The reader die of a partition: the nearest to a host link, the lower number on a tie (R41). -/
def State.readerDie (s : State) (part link : Nat) : Nat :=
  (s.diesOf part).foldl (fun b d => if hops link d < hops link b then d else b) (s.homeDie part)

/-- The reader die of the load of a partition (R41). -/
def State.shardReader (s : State) (part : Nat) : Nat := s.readerDie part (((s.part part).load.map fun ld => s.loadLink ld.launch).getD 0)

/-- The dies that receive a shard (R41). -/
def State.shardDies (s : State) (part ctx : Nat) (x : Shard) : List Nat :=
  if x.folio then x.targets
  else (((s.shardRuns part ctx x).getD []).filterMap fun r => match r.place with
    | .hbm d _ => some d
    | _ => none).dedup

/-- A flit of a shard meets a closed link: the shard is not received (R22, R24, R42; log 126). -/
def State.shardCut (s : State) (h : Hop) (part i : Nat) : State :=
  let s1 := s.stray h.link h.cls
  let mine (e : Nat × Event) : Bool := match e.2 with
    | .shardReceive p j _ => p == part && j == i
    | _ => false
  (s1.setAgenda (s1.agenda.filter fun e => !mine e)).post s1.clk (.shardReceive part i .error)

/-- A flit of a shard's broadcast comes to its next link, or is at its die (R13, R22). -/
def State.shardHop (s : State) (part i d : Nat) : List Hop → State
  | [] => s
  | h :: r => if (s.wall h.link).closed then s.shardCut h part i else s.sendFlit h (.shard part i d r) 0

/-- A host-transit flit of a shard comes to its next link, which it passes where it is open or TRANSIT is set, or is at the reader (R22). -/
def State.transitHop (s : State) (part i : Nat) : List Hop → State
  | [] => s
  | h :: r => if (s.wall h.link).closed && !(s.wall h.link).transit then s.shardCut h part i else s.sendFlit h (.transit part i r) 0

/-- The reader broadcasts a shard to the dies that receive it, as BCAST flits of 64 bytes (R13, R41; log 126). -/
def State.sendShard (s : State) (part i len : Nat) (ds : List Nat) : State :=
  ds.foldl (fun t d =>
    let hs := t.hopsTo (t.shardReader part) d .bcast
    (List.range (len / 64)).foldl (fun u _ => u.shardHop part i d hs) t) s

/-- Whether flits of a shard are on their way. -/
def State.shardFlies (s : State) (part i : Nat) : Bool :=
  s.fabric.carries fun c => match c with
    | .shard p j _ _ => p == part && j == i
    | .transit p j _ => p == part && j == i
    | _ => false

/-- The way of host-transit flits to the reader from the link that fetches a shard: that of die 0 for an even index, that of die 19 for an
odd one, and that of die 0 for every one when die 19 is out of service (R19, R22, R41). It is a shortest one over links that let them pass, where
there is one (log 20). -/
def State.transitHops (s : State) (part i : Nat) : List Hop :=
  let reader := s.shardReader part
  let link := if i % 2 = 0 ∨ s.boot.retired.contains 19 then 0 else 19
  hopsFrom .rsp link (match (reachOut (fun l => !(s.wall l).closed || (s.wall l).transit) Config.dies [(link, [])]).find? fun e => e.1 = reader with
    | some e => e.2.reverse
    | none => route link reader)

/-- A shard is fetched: from host memory as it is, from an NVMe controller with what that answers (log 60); it crosses to the reader in flits of 64
bytes (R22, R41). -/
def State.fetchShard (s : State) (part i : Nat) (x : Shard) (pasid : Nat) : State :=
  let s1 := s.setFreeCtr (s.freeCtr + 1)
  let got : ShardGot :=
    if Config.hostRefuses s.freeCtr then .error
    else if x.nvme then .bytes ((List.range x.len).map fun j => Config.farByte (s.freeCtr + j))
    else .bytes (s.hostBytes pasid x.src x.len)
  let p := s1.part part
  let s2 := ((s1.putPart part { p with load := p.load.map fun ld => { ld with cast := false } }).setFreeCtr (s1.freeCtr + x.len)).after 0
    (.shardReceive part i got)
  match got with
  | .error => s2
  | .bytes _ =>
    let hs := s2.transitHops part i
    (List.range (x.len / 64)).foldl (fun t _ => t.transitHop part i hs) s2

/-- The next LOADW of a partition begins, one at a time in start order; one that is refused gives way to the one after it (R43). `n` bounds them. The
model's reads of its shard list are always answered (log 139). -/
def State.loadFrom (part : Nat) : Nat → State → State
  | 0, s => s
  | more + 1, s =>
  let p := s.part part
  match p.load, p.loads with
  | none, (l, n) :: rest =>
    let (ctx, pasid) := s.loadCtx l
    match s.host.launches.find l with
    | none => State.loadFrom part more (s.putPart part { p with loads := rest })
    | some x => match x.nodes[n]? with
      | none => State.loadFrom part more (s.putPart part { p with loads := rest })
      | some nd =>
        let lists := (List.range nd.count.toNat).map fun i => s.hostBytes pasid (nd.addr.toNat + 96 * i) 96
        match s.checkShards part ctx lists 0 [] with
        | .error (st, i) =>
          let s1 := s.putPart part { p with loads := rest, ldDone := true, ldStatus := BitVec.ofNat 3 st, ldShard := BitVec.ofNat 16 i }
          State.loadFrom part more (s1.failNodeWith l n 0x11#8)
        | .ok spare =>
          let ld : Load := { launch := l, node := n, shards := lists.map shardOf, got := 0, cast := false, spare := spare }
          let s1 := s.putPart part { p with loads := rest, load := some ld }
          match ld.shards with
          | x :: _ => s1.fetchShard part 0 x pasid
          | [] => s1.post s1.clk (.generationPublish part)
  | _, _ => s

/-- The next LOADW of a partition begins (R43). -/
def State.loadNext (s : State) (part : Nat) : State := State.loadFrom part ((s.part part).loads.length + 1) s

/-- A load ends, with its status; the next one begins (R42). -/
def State.loadEnd (s : State) (part : Nat) (ld : Load) (st i : Nat) : State :=
  let s1 := s.putPart part { s.part part with load := none, ldDone := true, ldStatus := BitVec.ofNat 3 st, ldShard := BitVec.ofNat 16 i }
  let s2 := if st = 0 then s1.post s1.clk (.nodeFinish ld.launch ld.node) else s1.failNodeWith ld.launch ld.node 0x11#8
  match (s2.part part).loads with
  | (l, n) :: _ => s2.post s2.clk (.nodeStart l n)
  | [] => s2

/-- A checked shard is written: to HBM, or to the spare regions of its dies' folios (R41, R43, R168). -/
def State.storeShard (s : State) (part ctx : Nat) (ld : Load) (x : Shard) (bs : List Byte) : State :=
  if x.folio then
    x.targets.foldl (fun t d => x.regions.foldl (fun u r =>
      match assocGet ld.spare (d, r) with
      | none => u
      | some p =>
        let lo := max x.addr (4194304 * r)
        let hi := min (x.addr + x.len) (4194304 * (r + 1))
        (u.writeBytes (.folio d (4194304 * p + (lo - 4194304 * r))) ((bs.drop (lo - x.addr)).take (hi - lo))).updDie d fun y =>
          { y with folioBad := y.folioBad.filter (· ≠ p) }) t) s
  else match s.shardRuns part ctx x with
    | some rs => s.engineWrite ctx rs bs
    | none => s

/-- SHARD_RECEIVE: a shard that has come to the reader is broadcast, and once it has come to its dies its digest is checked; a shard that fails is read
again, at most twice (R41, R42). Where the three readings fail in different ways the third gives the status (log 143). -/
def State.shardReceive (s : State) (part i : Nat) (got : ShardGot) : State :=
  match (s.part part).load with
  | none => s
  | some ld => match ld.shards[i]? with
    | none => s
    | some x =>
      if ld.got ≠ i then s
      else if s.shardFlies part i then s.post (s.clk + 1) (.shardReceive part i got)
      else
        let (ctx, pasid) := s.loadCtx ld.launch
        let again (st : Nat) : State :=
          if 2 ≤ x.tries then s.loadEnd part ld st i
          else
            let y : Shard := { x with tries := x.tries + 1 }
            (s.putPart part { s.part part with load := some { ld with shards := ld.shards.set i y } }).fetchShard part i y pasid
        match got with
        | .error => again 2
        | .bytes bs =>
          if !ld.cast then
            let s1 := s.putPart part { s.part part with load := some { ld with cast := true } }
            (s1.post s.clk (.shardReceive part i got)).sendShard part i x.len (s1.shardDies part ctx x)
          else if Config.sha512 bs ≠ x.digest then again 1
          else
            let s1 := s.storeShard part ctx ld x bs
            let s2 := s1.putPart part { s1.part part with load := some { ld with got := i + 1 } }
            match ld.shards[i + 1]? with
            | some y => s2.fetchShard part (i + 1) y pasid
            | none => s2.post s2.clk (.generationPublish part)

/-- GENERATION_PUBLISH: once no running launch binds the older table, the table prepared comes into force (R43, R165). -/
def State.generationPublish (s : State) (part : Nat) : State :=
  match (s.part part).load with
  | none => s
  | some ld =>
    let g := (s.part part).gen
    if s.bindsOlder part g then s.post (s.clk + 1) (.generationPublish part)
    else
      let s1 := (s.diesOf part).foldl (fun t d => t.updDie d fun y =>
        let table := (ld.spare.filter fun e => e.1.1 = d).foldl (fun (u : Tbl (BitVec 16)) e => u.put e.1.2 (BitVec.ofNat 16 (32768 + e.2))) (y.regions g)
        if g % 2 = 0 then { y with regionB := table } else { y with regionA := table }) s
      (s1.putPart part { s1.part part with gen := g + 1 }).loadEnd part ld 0 0

/-- A LAUNCH reaches the scriptorium, the first to do so first (R351): with LQUOTA device-launched grids of its context unretired it is refused with
status 2, else the grid is enqueued, behind every kick taken so far (R62), with status 0. The status goes to the group that waits for it. -/
def State.launchArrives (s : State) (l : Nat) (x : Launch) (k : GKey) (team st : Nat) : State :=
  let answer (t : State) (v : Word) : State := match t.anyGroup k with
    | some g => if g.team = team ∧ g.half = .sent then t.putAny k { g.setScalar st v with half := .done } else t
    | none => t
  let s1 := s.setHost { s.host with launches := s.host.launches.del l }
  if s.launchQuota k.die x.ctx ≤ s.deviceGrids x.part x.ctx then answer s1 2#32
  else
    let (id, s2) := s1.newId
    answer ((s2.setHost { s2.host with launches := s2.host.launches.put id { x with asked := none, taken := s.clk } }).post s.clk (.nodeStart id 0)) 0#32

/-- NODE_START. -/
def State.nodeStart (s : State) (l n : Nat) : State :=
  match s.host.launches.find l with
  | none => s
  | some x => match x.asked with
  | some (k, team, st) => s.launchArrives l x k team st
  | none => match x.nodes[n]?, x.runs[n]? with
    | some nd, some r =>
      let part := x.part
      let far := 60 * hops 0 (s.homeDie part)
      let open_ : Bool := x.started && (match r with
        | .waiting => nd.preds.all fun p => x.runs[p]? == some .finished
        | .held _ _ => true
        | .linked _ => true
        | _ => false)
      let waits : Bool := nd.kind == .loadw && (match r with
        | .running _ _ => true
        | _ => false)
      if waits then s.loadNext part
      else if !open_ then s
      else match nd.kind with
        | .grid => s.gridStart l n x nd r
        | .ordered => s.gridStart l n x nd r
        | .copy => s.copyNode l n x nd
        | .evsig =>
          ((s.setNodeRun l n (.running 1 false)).after far (.eventActArrive part x.ctx nd.name (.signal none))).post s.clk (.nodeFinish l n)
        | .evwait => (s.setNodeRun l n (.running 1 false)).after far (.eventActArrive part x.ctx nd.name (.node l n))
        | .loadw =>
          let s1 := s.setNodeRun l n (.running 1 false)
          (s1.putPart part { s1.part part with loads := (s1.part part).loads ++ [(l, n)] }).loadNext part
    | _, _ => s

/-- Nodes that wait for an entry look at it: BOUND starts them, RETIRED fails them, and so does UNBOUND after RESOLVING (R37), or a
context that has left service (R145). -/
def State.sweepNodes (s : State) : State :=
  s.host.launches.foldl (fun t e =>
    (e.2.runs.zip (List.range e.2.runs.length)).foldl (fun u x => match x.1 with
      | .linked seen =>
        let w := dieWho (u.homeDie e.2.part) e.2.ctx
        let look (v : State) : State := if v.agenda.any fun a => a.2 = .nodeStart e.1 x.2 then v else v.post v.clk (.nodeStart e.1 x.2)
        if !u.inService e.2.part e.2.ctx then look u
        else match u.readLin w (u.rubricLin w ((e.2.nodes[x.2]?.map (·.rubric)).getD 0)) 8 with
        | (.error _, _) => u
        | (.ok bs, _) =>
          let st := (entryOf bs).state
          if st = 1 then (if seen then u else u.setNodeRun e.1 x.2 (.linked true))
          else if st = 0 ∧ !seen then u
          else look u
      | _ => u) t) s

/-! ## Registered graphs (R35, R36) -/

/-- The kind a node record names. -/
def nodeKind (k : Nat) : Option NodeKind :=
  match k with
  | 1 => some .grid
  | 2 => some .ordered
  | 3 => some .copy
  | 4 => some .evsig
  | 5 => some .evwait
  | 6 => some .loadw
  | _ => none

/-- The byte ranges of PARAM that a kind uses. -/
def paramUsed (k : NodeKind) : List (Nat × Nat) :=
  match k with
  | .grid => [(0x14, 0x22), (0x24, 0x28)]
  | .ordered => [(0x14, 0x22), (0x24, 0x34)]
  | .copy => [(0x18, 0x30)]
  | .evsig => [(0x14, 0x16)]
  | .evwait => [(0x14, 0x16)]
  | .loadw => [(0x18, 0x24)]

/-- Whether a byte that a node record does not use is not 0. -/
def nodeReserved (k : NodeKind) (bs : List Byte) : Bool :=
  anyByte ((bs.drop 2).take 2) || anyByte ((bs.drop (4 + 2 * fieldOf bs 1 1)).take (16 - 2 * fieldOf bs 1 1))
    || (List.range 0x2c).any fun i => bs.getD (0x14 + i) 0#8 != 0#8 && !(paramUsed k).any fun e => decide (e.1 ≤ 0x14 + i) && decide (0x14 + i < e.2)

/-- A node record, or the check it fails. -/
def parseNode (i : Nat) (bs : List Byte) : Except Byte Node :=
  match nodeKind (fieldOf bs 0 1) with
  | none => .error 1#8
  | some k =>
    let np := fieldOf bs 1 1
    let preds := (List.range np).map fun j => fieldOf bs (4 + 2 * j) 2
    let grid : Bool := k = .grid || k = .ordered
    let nd : Node :=
      { kind := k, preds := preds, rubric := fieldOf bs 0x14 4, tx := fieldOf bs 0x18 2, ty := fieldOf bs 0x1a 2, tz := fieldOf bs 0x1c 2,
        gpt := fieldOf bs 0x1e 2, cw := fieldOf bs 0x20 1, ch := fieldOf bs 0x21 1, budget := BitVec.ofNat 32 (fieldOf bs 0x24 4),
        addr := BitVec.ofNat 64 (match k with
          | .ordered => fieldOf bs 0x28 8
          | .copy => fieldOf bs 0x20 8
          | .loadw => fieldOf bs 0x18 8
          | _ => 0),
        count := BitVec.ofNat 64 (match k with
          | .ordered => fieldOf bs 0x30 4
          | .copy => fieldOf bs 0x28 8
          | .loadw => fieldOf bs 0x20 4
          | _ => 0),
        src := BitVec.ofNat 64 (if k = .copy then fieldOf bs 0x18 8 else 0), name := fieldOf bs 0x14 2 }
    if 8 < np ∨ preds.any fun p => decide (i ≤ p) then .error 2#8
    else if nodeReserved k bs then .error 6#8
    else if grid && decide (4096 ≤ nd.rubric) then .error 4#8
    else if grid && (nd.tx == 0 || nd.ty == 0 || nd.tz == 0 || nd.gpt == 0 || decide (32 < nd.gpt) || !clusterOk nd.cw nd.ch) then .error 5#8
    else .ok nd

/-- The nodes of an image, or the first check that fails with its node. -/
def State.parseNodes (s : State) (pasid a : Nat) : Nat → Nat → List Node → Except (Byte × Nat) (List Node)
  | 0, _, l => .ok l
  | n + 1, i, l => match parseNode i (s.hostBytes pasid (a + 64 * (i + 1)) 64) with
    | .error e => .error (e, i)
    | .ok nd => State.parseNodes s pasid a n (i + 1) (l ++ [nd])

/-- GCMD's checks, in order. The spec gives no code for a read of the image that the host does not answer: the model's reads are answered (log 130). -/
def State.parseGraph (s : State) (part ctx a : Nat) : Except (Byte × Nat) (List Node) :=
  if !s.slotHolds part || !s.inService part ctx then .error (8#8, 0)
  else
    let pasid := (s.ctx (s.homeDie part) ctx).pasid.toNat
    let h := s.hostBytes pasid a 64
    let n := fieldOf h 4 2
    if fieldOf h 0 2 ≠ 1 ∨ n = 0 ∨ 1024 < n ∨ anyByte ((h.drop 2).take 2) ∨ anyByte (h.drop 6) then .error (3#8, 0)
    else if 256 ≤ (s.host.graphs.filter fun g => g.part == part && g.ctx == ctx).length then .error (7#8, 0)
    else s.parseNodes pasid a n 0 []

/-- The next handle of a partition that no registered graph of it holds, never 0 (R36); `n` bounds the search. -/
def State.freeHandle (s : State) (part : Nat) : Nat → Word → Word
  | 0, h => h
  | n + 1, h => if h = 0#32 ∨ s.host.graphs.any fun g => g.part = part ∧ g.handle = h then s.freeHandle part n (h + 1#32) else h

/-- GCMD: a graph image is registered under a new handle, or refused. -/
def State.gcmd (s : State) (fn : Nat) (v : BitVec 64) : State :=
  let part := pslotOf fn (s.greg fn).pslot
  let ctx := pteBits v 4 4
  match s.parseGraph part ctx (pteBits v 8 56 * 256) with
  | .error (e, i) => s.putGreg fn { s.greg fn with done := true, errg := e, node := BitVec.ofNat 16 i, handle := 0#32 }
  | .ok nodes =>
    let h := s.freeHandle part (s.host.graphs.length + 2) (s.part part).next
    let s1 := s.putPart part { s.part part with next := h + 1#32 }
    let s2 := s1.setHost { s1.host with graphs := s1.host.graphs ++ [{ part := part, ctx := ctx, handle := h, nodes := nodes }] }
    s2.putGreg fn { s2.greg fn with done := true, errg := 0#8, node := 0#16, handle := h }

/-- GUNREG: the handle of the partition is released, whichever context holds it. -/
def State.gunreg (s : State) (fn : Nat) (h : Word) : State :=
  let part := pslotOf fn (s.greg fn).pslot
  s.setHost { s.host with graphs := s.host.graphs.filter fun g => !(g.part == part && g.handle == h) }

/-! ## The events -/

/-- QUEUE_ENABLE. -/
def execQueueEnable (s : State) : Host.Outcome State Fault Refusal :=
  match s.subject with
  | .queueEnable f q => .next (s.queueEnable f q)
  | _ => .fault .noSubject
/-- DRAIN. -/
def execDrain (s : State) : Host.Outcome State Fault Refusal :=
  match s.subject with
  | .drain f q => .next (s.drain f q)
  | _ => .fault .noSubject
/-- QUEUE_DISABLE. -/
def execQueueDisable (s : State) : Host.Outcome State Fault Refusal :=
  match s.subject with
  | .queueDisable f q => .next (s.queueDisable f q)
  | _ => .fault .noSubject
/-- QUEUE_DRAIN_DONE. -/
def execQueueDrainDone (s : State) : Host.Outcome State Fault Refusal :=
  match s.subject with
  | .queueDrainDone q => .next (s.queueDrainDone q)
  | _ => .fault .noSubject
/-- KICK. -/
def execKick (s : State) : Host.Outcome State Fault Refusal :=
  match s.subject with
  | .kick f q o w v => .next (s.kick f q o w v)
  | _ => .fault .noSubject
/-- LAUNCH_START. -/
def execLaunchStart (s : State) : Host.Outcome State Fault Refusal :=
  match s.subject with
  | .launchStart l => .next (s.launchStart l)
  | _ => .fault .noSubject
/-- LAUNCH_RETIRE. -/
def execLaunchRetire (s : State) : Host.Outcome State Fault Refusal :=
  match s.subject with
  | .launchRetire l => .next (s.launchRetire l)
  | _ => .fault .noSubject
/-- STATUS_WRITE. -/
def execStatusWrite (s : State) : Host.Outcome State Fault Refusal :=
  match s.subject with
  | .statusWrite q => .next (s.statusWrite q)
  | _ => .fault .noSubject
/-- GCMD. -/
def execGcmd (s : State) : Host.Outcome State Fault Refusal :=
  match s.subject with
  | .gcmd f v => .next (s.gcmd f v)
  | _ => .fault .noSubject
/-- GUNREG. -/
def execGunreg (s : State) : Host.Outcome State Fault Refusal :=
  match s.subject with
  | .gunreg f h => .next (s.gunreg f h)
  | _ => .fault .noSubject
/-- NODE_START. -/
def execNodeStart (s : State) : Host.Outcome State Fault Refusal :=
  match s.subject with
  | .nodeStart l n => .next (s.nodeStart l n)
  | _ => .fault .noSubject
/-- NODE_FINISH. -/
def execNodeFinish (s : State) : Host.Outcome State Fault Refusal :=
  match s.subject with
  | .nodeFinish l n => .next (s.nodeFinish l n)
  | _ => .fault .noSubject
/-- SHARD_RECEIVE. -/
def execShardReceive (s : State) : Host.Outcome State Fault Refusal :=
  match s.subject with
  | .shardReceive p i g => .next (s.shardReceive p i g)
  | _ => .fault .noSubject
/-- GENERATION_PUBLISH. -/
def execGenerationPublish (s : State) : Host.Outcome State Fault Refusal :=
  match s.subject with
  | .generationPublish p => .next (s.generationPublish p)
  | _ => .fault .noSubject

end Sys2Proof.Machine
end

