-- ==== Sys2Proof/Machine/Module.lean ====
section
/-! DEFINITION. The module: start and reset (R16, R17), power and margin (R15, R18, R19), the mailbox, bitstreams and keys (R38 to R40),
partitions and firewalls (R20 to R25), die links and fabric ports (R12 to R14), uncorrectable errors (R168, R169), and the retries
of R158. -/

namespace Sys2Proof.Machine

/-! ## Bitstreams (R38, R40) -/

/-- Whether a key is in a revoked slot: it is never accepted again, whatever slot it is named by (R40). -/
def Boot.isRevoked (b : Boot) (key : BitVec 256) : Bool := b.keys.any fun e => e.2 == .revoked key

/-- The key of a signer: 0 the Vexsyn key, 1 to 4 an owner key that is enrolled; none for a key that was revoked (R40; log 131). -/
def State.keyOf (s : State) (n : Nat) : Option (BitVec 256) :=
  let key : Option (BitVec 256) :=
    if n = 0 then some Config.vexsynKey
    else if 4 < n then none
    else match s.boot.keys.find n with
      | some (.inUse k) => some k
      | _ => none
  key.filter fun k => !s.boot.isRevoked k

/-- Whether an image is accepted (R38). -/
def State.imageOk (s : State) (img : List Byte) : Bool :=
  (match s.keyOf (Config.imageSigner img) with
    | some k => Config.ed25519 k (Config.sha512 (Config.imageBody img)) (Config.imageSignature img)
    | none => false)
    && decide (s.boot.minVersion ≤ Config.imageVersion img) && Config.imageNamesPart img

/-! ## Stages (R16, R17) -/

/-- The clk within which a stage is reached from the one before (R16). -/
def stageClk (stage : Nat) : Nat :=
  if stage = 0 then 47000000 else if stage = 1 then 1833000000 else if stage = 2 then 3384000000 else 1

/-- The next stage's work is under way. It can fail where R39 has a code for it: a host link that does not train on the way to stage 2; on the
way to stage 3 the memory of a die, before the first wave, or a core of the column that a wave brings up. -/
def State.stagePost (s : State) : State :=
  let n := s.freeCtr
  let d := (Config.openWord (n + 1)).toNat
  let bad : StageOut := match s.boot.stage with
    | 1 => .bad 2#8 0
    | 2 => if s.boot.columns = 0 ∧ Config.openWord n = 0#32 then .bad 3#8 (d % Config.dies) else .bad 4#8 (s.boot.columns + 5 * (d % 4))
    | _ => .ok
  let out : StageOut := if Config.startFails n then bad else .ok
  (s.setFreeCtr (n + 2)).post (s.clk + 1 + Config.delay n % stageClk s.boot.stage) (.stageAdvance out)

/-- What a reset leaves: the flash, the retired dies, the host's memory and the count of clk (R16, R20, R21, R38, R40). The links of a retired
die are closed with TRANSIT cleared, as R19 says, where R20 has every firewall open (log 131). -/
def State.cleared (s : State) : State :=
  let b := s.boot
  let live := (List.range Config.dies).filter fun d => !b.retired.contains d
  let boot : Boot := { Boot.reset with copyA := b.copyA, copyB := b.copyB, loaded := b.loaded, minVersion := b.minVersion, keys := b.keys, ctr := b.ctr,
                                       retired := b.retired }
  let slots := b.retired.foldl (fun (t : Tbl (BitVec 5)) d => t.put d 0#5) []
  let walls := b.retired.foldl (fun (t : Tbl Firewall) d => (List.range 31).foldl (fun (u : Tbl Firewall) l =>
    if (linkEnds l).1 = d ∨ (linkEnds l).2 = d then u.put l { Firewall.reset with closed := true, transit := false } else u) t) []
  let dies : Tbl Die := (List.range Config.dies).map fun d =>
    (d, { Die.reset with born := s.clk, voltage := (s.die d).voltage, margin := (s.die d).margin })
  { State.reset with clk := s.clk, agenda := [], subject := s.subject, issuer := s.issuer, fresh := s.fresh, freeCtr := s.freeCtr,
                     outbox := s.outbox, boot := boot, fabric := { Fabric.reset with pslot := slots, cslot := slots, walls := walls, unjoined := !connected live },
                     dies := dies, mem := s.mem.filter fun e => e.1 % 8 = 5 }

/-- POWER_ON and MODULE_RESET: the module starts from stage 0, unless it is out of service for want of die 0 (R19). -/
def State.startUp (s : State) : State := if s.boot.retired.contains 0 then s.cleared else s.cleared.stagePost

/-- At stage 2 copy A is checked, and copy B if A fails; loading a copy raises the fused minimum (R38). -/
def State.loadCopy (s : State) : Option State :=
  let load (img : List Byte) (b : Bool) : State :=
    s.setBoot { s.boot with loaded := some b, minVersion := max s.boot.minVersion (Config.imageVersion img) }
  if s.imageOk s.boot.copyA then some (load s.boot.copyA false)
  else if s.imageOk s.boot.copyB then some (load s.boot.copyB true)
  else none

/-! ## Margin (R18, R19) -/

/-- FWCTL takes values; the flits under way on the link, in both directions, are those accepted before (R22, R23). -/
def State.setWall (s : State) (l : Nat) (closed transit : Bool) : State :=
  let x := s.fabric
  let mark (i : Nat) : List Flit := (x.flits.get [] i).map fun f => { f with old := true }
  let s1 := s.setFabric { x with flits := (x.flits.put (2 * l) (mark (2 * l))).put (2 * l + 1) (mark (2 * l + 1)) }
  s1.putWall l { s1.wall l with closed := closed, transit := transit, before := (mark (2 * l)).length + (mark (2 * l + 1)).length }


/-- A die goes out of service: its links are closed with TRANSIT cleared, its ports are disabled, its slots are 0; without die 0 the
module is out of service: every die stops, as after a reset, and no stage is reached (R19, R21). -/
def State.retireDie (s : State) (d : Nat) : State :=
  let s1 := s.setBoot { s.boot with retired := if s.boot.retired.contains d then s.boot.retired else s.boot.retired ++ [d] }
  let s2 := (List.range 31).foldl (fun t l =>
    if (linkEnds l).1 = d ∨ (linkEnds l).2 = d then
      t.setWall l true false else t) s1
  let s3 := (List.range 24).foldl (fun t p => if portDie p = d then t.putPort p { t.port p with oen := false, ien := false } else t) s2
  let s4 := s3.setFabric { s3.fabric with pslot := s3.fabric.pslot.put d 0#5, cslot := s3.fabric.cslot.put d 0#5 }
  if d = 0 then s4.cleared else s4

/-- Whether a die has an enabled context. -/
def State.dieEnabled (s : State) (d : Nat) : Bool := (List.range 16).any fun c => (s.ctx d c).en

/-- The monitors of a die are read: its margin is known and its voltage is planned anew; a die that cannot hold the clock is retired once
it has no enabled context (log 5). -/
def State.dieMargin (s : State) (d : Nat) : State :=
  if s.boot.retired.contains d then s
  else
    let m := Config.marginReading (s.freeCtr + d)
    let s1 := s.updDie d fun x => { x with margin := m, voltage := Config.voltagePlan (s.freeCtr + d) }
    let s2 := if BitVec.slt m 10#16 then s1.send (.margin d) else s1
    if BitVec.slt m 0#16 ∧ !s2.dieEnabled d then s2.retireDie d else s2

/-- 30 days in clk. -/
def marginClk : Nat := 30 * 86400 * 940000000

/-- MARGIN_CHECK. -/
def State.marginCheck (s : State) : State :=
  let s1 := (List.range Config.dies).foldl State.dieMargin s
  (s1.setFreeCtr (s.freeCtr + Config.dies)).post (s.clk + marginClk) .marginCheck

/-- STAGE_ADVANCE. -/
def State.stageAdvance (s : State) (out : StageOut) : State :=
  let b := s.boot
  if b.tripped then s
  else match out with
    | .bad code d => s.setBoot { b with failCode := code, failDie := d % 32 }
    | .ok =>
      match b.stage with
      | 0 => (s.setBoot { b with stage := 1 }).stagePost
      | 1 => match s.loadCopy with
        | some s1 => (s1.setBoot { s1.boot with stage := 2 }).stagePost
        | none => s.setBoot { b with failCode := 1#8 }
      | 2 =>
        if b.columns < 4 then (s.setBoot { b with columns := b.columns + 1 }).stagePost
        else ((s.setBoot { b with stage := 3, columns := 5 }).post s.clk .marginCheck).stagePost
      | 3 => s.setBoot { b with stage := 4 }
      | _ => s

/-! ## Temperature (R15) -/

/-- THERMAL_WARNING. -/
def State.thermalWarning (s : State) (d : Nat) : State := s.updDie d fun x => { x with thermal := true }

/-- THERMAL_TRIP: every die stops and is held in reset until the host resets the module. -/
def State.thermalTrip (s : State) (d : Nat) : State :=
  let s1 := s.cleared
  (s1.setBoot { s1.boot with stage := 1, failCode := 5#8, failDie := d, tripped := true }).send (.thermalTrip d)

/-! ## The mailbox (R39, R40) -/

/-- A command ends. -/
def State.mailDone (s : State) (merr : Byte) : State := s.setBoot { s.boot with mbBusy := false, mbDone := true, merr := merr }

/-- STAGE. -/
def State.mailStage (s : State) : State :=
  let b := s.boot
  (s.setBoot { b with mbRes := b.mbRes.put 0 (BitVec.ofNat 32 (b.stage + 256 * b.failCode.toNat + 65536 * b.failDie)) }).mailDone 0#8

/-- The MARGIN word of a die. -/
def State.marginWord (s : State) (d : Nat) : Word :=
  let m := (s.die d).margin
  BitVec.ofNat 32 (m.toNat + 65536 * bitOf (BitVec.slt m 10#16) + 131072 * bitOf (s.boot.retired.contains d))

/-- MARGIN. -/
def State.mailMargin (s : State) : State :=
  (s.setBoot { s.boot with mbRes := (List.range Config.dies).foldl (fun (t : Tbl Word) d => t.put d (s.marginWord d)) s.boot.mbRes }).mailDone 0#8

/-- The host address in ARG0 and ARG1. -/
def State.mailAddr (s : State) : Nat := (s.boot.mbArg.get 0#32 0).toNat + 4294967296 * (s.boot.mbArg.get 0#32 1).toNat

/-- Read host memory for a command; none where the host does not answer. -/
def State.mailRead (s : State) (n : Nat) : Option (List Byte) × State :=
  (if Config.hostRefuses s.freeCtr then none else some (s.hostBytes noPasid s.mailAddr n), s.setFreeCtr (s.freeCtr + 1))

/-- STAGEBITS: an accepted image goes to the copy that was not loaded at the last stage 2, to copy A where none was. A length of 0 is the bad
argument (R39, R40; log 131). -/
def State.mailStagebits (s : State) : State :=
  let n := (s.boot.mbArg.get 0#32 2).toNat
  if n = 0 then s.mailDone 2#8
  else match s.mailRead n with
    | (none, s1) => s1.mailDone 3#8
    | (some img, s1) =>
      if !s1.imageOk img then s1.mailDone 4#8
      else
        let s2 := s1.setFreeCtr (s1.freeCtr + 1)
        if Config.flashFails s1.freeCtr then s2.mailDone 7#8
        else
          let b := s2.boot
          let toB : Bool := b.loaded == some false
          let c : Boot := { b with copyA := if toB then b.copyA else img, copyB := if toB then img else b.copyB,
                                   mbRes := b.mbRes.put 0 (if toB then 1#32 else 0#32) }
          (s2.setBoot c).mailDone 0#8

/-- Whether an owner key slot suits ENROL or REVOKE: a slot that holds the Vexsyn key's value is not revocable (R39; log 131). -/
def State.slotSuits (s : State) (k : Nat) (enrol : Bool) : Bool :=
  match s.boot.keys.find k with
  | none => enrol
  | some .empty => enrol
  | some (.inUse k) => !enrol && k != Config.vexsynKey
  | some (.revoked _) => false

/-- The MERR of a request of 128 bytes, in the order of R40; 0 where it is accepted. -/
def State.requestErr (s : State) (bs : List Byte) (enrol : Bool) : Byte :=
  let k := fieldOf bs 0x20 1
  let signer := fieldOf bs 0x21 1
  if anyByte ((bs.drop 0x22).take 6) || anyByte ((bs.drop 0x30).take 16) || decide (4 < k) || decide (4 < signer)
      || (if enrol then k == 0 else anyByte (bs.take 32)) then 2#8
  else
    let good := match s.keyOf signer with
      | some key => Config.ed25519 key (Config.sha512 (bs.take 64)) (BitVec.ofNat 512 (fieldOf bs 0x40 64))
      | none => false
    if !good then 4#8
    else if fieldOf bs 0x28 8 ≤ s.boot.ctr.toNat then 5#8
    else if k = 0 ∨ !s.slotSuits k enrol then 6#8
    else 0#8

/-- ENROL and REVOKE. -/
def State.mailKey (s : State) (enrol : Bool) : State :=
  match s.mailRead 128 with
  | (none, s1) => s1.mailDone 3#8
  | (some bs, s1) =>
    let e := s1.requestErr bs enrol
    let s2 := s1.setFreeCtr (s1.freeCtr + 1)
    if e ≠ 0#8 then s2.mailDone e
    else if Config.flashFails s1.freeCtr then s2.mailDone 7#8
    else
      let n := fieldOf bs 0x20 1
      let slot : KeySlot := match enrol, s2.boot.keys.find n with
        | false, some (.inUse k) => .revoked k
        | _, _ => .inUse (BitVec.ofNat 256 (fieldOf bs 0 32))
      (s2.setBoot { s2.boot with keys := s2.boot.keys.put n slot, ctr := BitVec.ofNat 64 (fieldOf bs 0x28 8) }).mailDone 0#8

/-! ## Partitions (R20, R21) -/

/-- The staged slot of a die. -/
def State.stagedSlot (s : State) (d : Nat) : Nat := (s.fabric.pslot.get 1#5 d).toNat

/-- Whether a link between dies of different staged slots is not closed, or not drained (R21). -/
def State.unsealed (s : State) (l : Nat) : Bool :=
  s.stagedSlot (linkEnds l).1 != s.stagedSlot (linkEnds l).2 && (!(s.wall l).closed || (s.wall l).before != 0)

/-- Why APPLY is refused: PERR, the lowest code where several grounds hold, and WHERE, the lowest die or slot (R21; logs 77, 131). -/
def State.applyErr (s : State) : Option (Byte × Nat) :=
  let ds := List.range Config.dies
  let slots := (List.range 20).map (· + 1)
  let staged (n : Nat) : List Nat := ds.filter fun d => s.stagedSlot d = n
  match ds.find? fun d => s.stagedSlot d ≠ s.slotOf d ∧ s.dieEnabled d with
  | some d => some (1#8, d)
  | none => match slots.find? fun n => !connected (staged n) with
    | some n => some (2#8, n)
    | none => match (List.range 31).find? s.unsealed with
      | some _ => some (3#8, (ds.find? fun d => (List.range 31).any fun l => ((linkEnds l).1 == d || (linkEnds l).2 == d) && s.unsealed l).getD 0)
      | none => match ds.find? fun d => s.boot.retired.contains d ∧ s.stagedSlot d ≠ 0 with
        | some d => some (4#8, d)
        | none => match slots.find? fun n => staged n ≠ s.diesOf n ∧ (s.host.queues.any fun e => e.2.en && e.2.pslot.toNat == n) with
          | some n => some (5#8, n)
          | none => none

/-- PSTAT says that the last PCMD has completed. -/
def State.pcmdDone (s : State) (e : Byte × Nat) : State :=
  s.setFabric { s.fabric with pdone := true, perr := e.1, pwhere := BitVec.ofNat 5 e.2 }

/-- APPLY. -/
def State.apply (s : State) : State :=
  match s.applyErr with
  | some e => s.pcmdDone e
  | none =>
    let slots := (List.range Config.dies).foldl (fun (t : Tbl (BitVec 5)) d => t.put d (BitVec.ofNat 5 (s.stagedSlot d))) []
    (s.setFabric { s.fabric with cslot := slots, unjoined := false }).pcmdDone (0#8, 0)

/-- RETIRE. A DIE of 20 to 31 names no die: the command completes with PERR 0 (R21; log 131). -/
def State.retire (s : State) (d : Nat) : State :=
  if Config.dies ≤ d then s.pcmdDone (0#8, 0)
  else if s.dieEnabled d then s.pcmdDone (1#8, d)
  else (s.retireDie d).pcmdDone (0#8, 0)

/-! ## Firewalls and links (R13, R14, R22 to R25) -/

/-- FWCTL_WRITE. -/
def State.fwctlWrite (s : State) (l : Nat) (v : Word) : State :=
  let w := s.wall l
  let opens : Bool := w.closed && !v.getLsbD 0
  if opens && (s.dieEnabled (linkEnds l).1 || s.dieEnabled (linkEnds l).2) then s.putWall l { w with refused := true }
  else s.setWall l (v.getLsbD 0) (v.getLsbD 1)

/-- Take the first flit of a class from a queue. -/
def takeFlit (c : FlitClass) : List Flit → Option (Flit × List Flit)
  | [] => none
  | f :: r => if f.cls = c then some (f, r) else (takeFlit c r).map fun e => (e.1, f :: e.2)

/-- A lane, or its answer, has crossed a link: it goes on over the next one, or has reached its die. -/
def State.laneCrossed (s : State) (id lane : Nat) : State :=
  match s.access.find id with
  | none => s
  | some a =>
    let a1 : Access := { a with lanes := a.lanes.map fun x => if x.lane = lane then { x with path := x.path.drop 1 } else x }
    let s1 := s.setAccess (s.access.put id a1)
    match a1.lanes.find? fun x => x.lane = lane with
    | none => s1
    | some x => if x.done then s1.sendBack id (dieWho a.g.die a.ctx) a1 x else s1.sendLane id (dieWho a.g.die a.ctx) a1 x 0

/-- Where a port's inbound window takes a fabric offset; none where IEN = 0 or the request does not lie within the window. One inside the window that runs
past the end of the die's HBM is refused as well (R12; log 131). -/
def State.inboundRun (s : State) (p off width : Nat) : Option Run :=
  let x := s.port p
  let a := pteBits x.win 16 43 * 65536 + off
  if !x.ien || decide (pteBits x.lim 16 32 * 65536 < off + width) || decide (hbmSize < a + width) then none
  else some { place := .hbm (pteBits x.win 59 5) a, len := width }

/-- The hop that an answer makes out through a port. -/
def portOut (p : Nat) : Hop := { link := portLink p, up := true, cls := .rsp }

/-- The hops of an inbound request from its port's die to its place (R12, R13). -/
def State.insideHops (s : State) (p : Nat) (run : Run) : List Hop := s.outHops (portDie p) run.place .req

/-- The hops of its answer, out through the port. -/
def State.outboundHops (s : State) (p : Nat) (run : Run) : List Hop := s.inHops run.place (portDie p) .rsp ++ [portOut p]

/-- An answer comes to its next link, or has left through its port (R12). -/
def State.outboundHop (s : State) (p : Nat) (data : Option (List Byte)) : List Hop → State
  | [] => s.send (.fabric p data)
  | h :: r => if (s.wall h.link).closed then s.stray h.link h.cls else s.sendFlit h (.outbound p data r) 0

/-- An inbound request comes to its next link, or is performed at its home and answered (R12); at a closed link it is discarded (R24; log 23). -/
def State.insideHop (s : State) (p : Nat) (wr : Bool) (run : Run) (data : List Byte) : List Hop → State
  | [] =>
    if wr then (s.engineWrite 0 [run] data).outboundHop p (some []) (s.outboundHops p run)
    else s.outboundHop p (some (s.readRuns [run])) (s.outboundHops p run)
  | h :: r => if (s.wall h.link).closed then s.stray h.link h.cls else s.sendFlit h (.inside p wr run data r) 0

/-- A port looks at a request: its window takes it to a place, or it is refused and counted (R12). -/
def State.inboundLook (s : State) (p : Nat) (wr : Bool) (off width : Nat) (data : List Byte) : State :=
  match s.inboundRun p off width with
  | some run => s.insideHop p wr run data (s.insideHops p run)
  | none =>
    let x := s.port p
    (s.putPort p { x with refused := if x.refused = 0xffff#16 then x.refused else x.refused + 1#16 }).outboundHop p none [portOut p]

/-- What a flit carries is at a die: it is home, or goes on over the next link (R13, R22 to R24). -/
def State.cargoMoves (s : State) (c : Cargo) : State :=
  match c with
  | .request id lane => s.laneCrossed id lane
  | .answer id lane => s.laneCrossed id lane
  | .write cmd g team ctx ck rs bs r => s.writeHop cmd g team ctx ck rs bs r
  | .drain ck id _ [] => if s.drainFlies ck id then s else s.post s.clk (.drainComplete ck id)
  | .drain ck id ctx r => s.drainHop ck id ctx r
  | .read what team ctx r => s.readHop what team ctx r
  | .inbound p wr off width data => s.inboundLook p wr off width data
  | .inside p wr run data r => s.insideHop p wr run data r
  | .outbound p data r => s.outboundHop p data r
  | .transit part i r => s.transitHop part i r
  | .shard part i d r => s.shardHop part i d r
  | .mgmt e [] => s.post s.clk e
  | .mgmt e (h :: r) => s.sendFlit h (.mgmt e r) 0

/-- The hop a flit makes next. -/
def State.nextHop (s : State) (c : Cargo) : Option Hop :=
  let lane (id l : Nat) : Option Hop := (s.access.find id).bind fun a => (a.lanes.find? fun x => x.lane = l).bind fun x => (x.path.drop 1).head?
  match c with
  | .request id l => lane id l
  | .answer id l => lane id l
  | .write _ _ _ _ _ _ _ r => r.head?
  | .drain _ _ _ r => r.head?
  | .read _ _ _ r => r.head?
  | .inbound p _ off width _ => (match s.inboundRun p off width with
    | some run => s.insideHops p run
    | none => [portOut p]).head?
  | .inside p _ run _ r => (r ++ s.outboundHops p run).head?
  | .outbound _ _ r => r.head?
  | .transit _ _ r => r.head?
  | .shard _ _ _ r => r.head?
  | .mgmt _ r => r.head?

/-- The free space of a link input's receive buffer for a class, of 128 KiB (R14). -/
def Fabric.free (x : Fabric) (i : Nat) (c : FlitClass) : Nat := 131072 - 64 * ((x.bufs.get [] i).filter fun f => f.cls = c).length

/-- A receiver raises the stop signal of a class when less than 80 KiB are free, and drops it when 96 KiB are; the sender sees it within
40 clk (R14). -/
def State.stopLook (s : State) (l : Nat) (up : Bool) (c : FlitClass) : State :=
  let i := 2 * l + bitOf up
  let x := s.fabric
  let on := x.raised.contains (i, c)
  let seen (u : State) : State := (u.setFreeCtr (u.freeCtr + 1)).post (u.clk + Config.delay u.freeCtr % 41) (.linkStopSignal l up c)
  if !on && decide (x.free i c < 81920) then seen (s.setFabric { x with raised := x.raised ++ [(i, c)] })
  else if on && decide (98304 ≤ x.free i c) then seen (s.setFabric { x with raised := x.raised.filter fun e => e ≠ (i, c) })
  else s

/-- Whether a flit may set out on its next link now. -/
def State.mayHop (s : State) (c : Cargo) : Bool :=
  match s.nextHop c with
  | some h => !s.fabric.stops.contains (h.input, h.cls) && !((s.fabric.held.get [] h.input).any fun f => f.cls == h.cls)
  | none => true

/-- What was held at a sender sets out over its link, as the firewall then is. -/
def State.againOn (s : State) (h : Hop) (c : Cargo) : State :=
  match c with
  | .request id l => match (s.access.find id).bind fun a => (a.lanes.find? fun x => x.lane = l).map fun x => (a, x) with
    | some (a, x) => s.laneHop id a x h 0
    | none => s
  | .answer id l => match (s.access.find id).bind fun a => (a.lanes.find? fun x => x.lane = l).map fun x => (a, x) with
    | some (a, x) => s.laneHop id a x h 0
    | none => s
  | .write cmd g team ctx ck rs bs r => s.cargoMoves (.write cmd g team ctx ck rs bs (h :: r))
  | .drain ck id ctx r => s.cargoMoves (.drain ck id ctx (h :: r))
  | .read what team ctx r => s.cargoMoves (.read what team ctx (h :: r))
  | .inbound _ _ _ _ _ => s.cargoMoves c
  | .inside p wr run data r => s.cargoMoves (.inside p wr run data (h :: r))
  | .outbound p data r => s.cargoMoves (.outbound p data (h :: r))
  | .transit part i r => s.cargoMoves (.transit part i (h :: r))
  | .shard part i d r => s.cargoMoves (.shard part i d (h :: r))
  | .mgmt e r => s.cargoMoves (.mgmt e (h :: r))

/-- LINK_FLIT_ARRIVE: the oldest flit of a class on a link, or on a fabric port, arrives in the receive buffer of its end, once that has room, or the
oldest of the class leaves the buffer, unless its next link's stop signal holds it there (R12 to R14). -/
def State.linkFlitArrive (s : State) (l : Nat) (up : Bool) (c : FlitClass) (leaves : Bool) : State :=
  let i := 2 * l + bitOf up
  if leaves then
    match takeFlit c (s.fabric.bufs.get [] i) with
    | none => s
    | some (f, rest) =>
      if !s.mayHop f.cargo then s.post (s.clk + 1) (.linkFlitArrive l up c true)
      else ((s.setFabric { s.fabric with bufs := s.fabric.bufs.put i rest }).stopLook l up c).cargoMoves f.cargo
  else
    match takeFlit c (s.fabric.flits.get [] i) with
    | none => s
    | some (f, rest) =>
      let x := s.fabric
      if x.free i c < 64 then s.post (s.clk + 1) (.linkFlitArrive l up c false)
      else
      let s1 := s.setFabric { x with flits := x.flits.put i rest, bufs := x.bufs.put i (x.bufs.get [] i ++ [f]) }
      let s2 := if l < 31 then s1.putWall l { s1.wall l with before := (s1.wall l).before - bitOf f.old } else s1
      (s2.stopLook l up c).after 0 (.linkFlitArrive l up c true)

/-- LINK_STOP_SIGNAL: the sender sees a receiver's stop signal for a class; without one, what was held sets out, in order and as fast as the link
takes it, over the link as its firewall then is (R13, R14, R23). -/
def State.linkStopSignal (s : State) (l : Nat) (up : Bool) (c : FlitClass) : State :=
  let i := 2 * l + bitOf up
  let x := s.fabric
  if x.raised.contains (i, c) then s.setFabric { x with stops := if x.stops.contains (i, c) then x.stops else x.stops ++ [(i, c)] }
  else
    let h : Hop := { link := l, up := up, cls := c }
    let go := (x.held.get [] i).filter fun f => f.cls = c
    let room := flitsPerClk - s.sentNow h
    let s1 := s.setFabric { x with stops := x.stops.filter fun e => e ≠ (i, c), held := x.held.put i ((x.held.get [] i).filter fun f => f.cls ≠ c) }
    let s2 := (go.take room).foldl (fun t f => t.againOn h f.cargo) s1
    if go.length ≤ room then s2
    else (s2.setFabric { s2.fabric with held := s2.fabric.held.put i (s2.fabric.held.get [] i ++ go.drop room) }).post (s.clk + 1) (.linkStopSignal l up c)

/-- Whether a flit carries a piece that a core's copy engine writes. -/
def Cargo.ofCopy (c : Cargo) (ck : CoreKey) : Bool :=
  match c with
  | .write _ _ _ _ k _ _ _ => k == ck
  | _ => false

/-- The saved groups that are frozen under a slot. -/
def State.frozenSaved (s : State) (m : Master) : List Saved :=
  (s.die m.die).saved.filter fun x => x.core == m.core && x.slot == m.slot && x.group.run == .parked .frozen

/-- Pieces that were stopped at a link, and the beats of a core's engine that have no event under way, go on. -/
def State.copiesGoOn (s : State) (ck : CoreKey) : State :=
  ((s.copies ck).filter fun x => x.running && !(s.agenda.any fun e => e.2 = .copyBeat ck x.id || e.2 = .copyComplete ck x.id)).foldl
    (fun t x => t.post t.clk (.copyBeat ck x.id)) s

/-- The drains of an array that no event is under way for go on: they came to a halted engine, or halted it (R24, R25). -/
def State.drainsGoOn (s : State) (ck : CoreKey) : State :=
  (s.arr ck.die ck.core).drains.foldl (fun t d =>
    if (t.agenda.any fun e => e.2 = .drainComplete ck d.id || e.2 = .faultRetry (.drain ck d.id)) || t.drainFlies ck d.id then t
    else t.post t.clk (.drainComplete ck d.id)) s

/-- Whether a flit carries a piece that a group reads. -/
def Cargo.readBy (c : Cargo) (k : GKey) (team : Nat) : Bool :=
  match c with
  | .read r t _ _ => r.group == k && t == team
  | _ => false

/-- Pieces of a group's reads that were stopped at a link set out again, for a tile; the lines of a clause are asked for afresh (R25; log 23). -/
def State.readsGoOn (s : State) (k : GKey) (team : Nat) : State :=
  (s.fabric.cut.filter fun f => f.cargo.readBy k team).foldl (fun t f => match f.cargo with
    | .read (.tile _ _ _) _ _ _ => t.cargoMoves f.cargo
    | _ => t) (s.setFabric { s.fabric with cut := s.fabric.cut.filter fun f => !f.cargo.readBy k team })

/-- Pieces of a group's reads that were stopped at a link are given up, and the loads of tiles end without them (R25; log 23). -/
def State.readsEnd (s : State) (k : GKey) (team : Nat) : State :=
  (s.fabric.cut.filter fun f => f.cargo.readBy k team).foldl (fun t f => match f.cargo with
    | .read (.tile g ck n) _ _ _ => if t.readFlies (.tile g ck n) || t.agenda.any fun e => e.2 = .tileLoadLand ck n then t else t.post t.clk (.tileLoadLand ck n)
    | _ => t) (s.setFabric { s.fabric with cut := s.fabric.cut.filter fun f => !f.cargo.readBy k team })

/-- UNFREEZE_RESUME (R25): a group executes its instruction again, and its side log is retried; an engine goes on at its command. -/
def State.unfreezeResume (s : State) (m : Master) : State :=
  let k : GKey := ⟨m.die, m.core, m.slot⟩
  let ck : CoreKey := ⟨m.die, m.core⟩
  match m.kind with
  | .group => match s.group? k with
    | some g =>
      if g.run ≠ .parked .frozen then s
      else
        let s1 := (s.resumeParked k g).readsGoOn k g.team
        if g.log.isEmpty then s1 else (s1.unpost (.faultRetry (.sideLog k))).post s.clk (.faultRetry (.sideLog k))
    | none => match s.frozenSaved m with
      | x :: _ => (s.updDie m.die fun d => { d with saved := d.saved.map fun y =>
          if y.id = x.id then { y with group := { y.group with run := .ready } } else y }).readsGoOn k x.group.team
      | [] => s
  | .copy =>
    if !(s.copies ck).any fun x => x.frozen then s
    else
      let s0 := s.putCopies ck ((s.copies ck).map fun x => { x with frozen := false })
      let s1 := (s.fabric.cut.filter fun f => f.cargo.ofCopy ck).foldl (fun t f => t.cargoMoves f.cargo)
        (s0.setFabric { s0.fabric with cut := s0.fabric.cut.filter fun f => !f.cargo.ofCopy ck })
      s1.copiesGoOn ck
  | .matrix =>
    let a := s.arr m.die m.core
    if !a.frozen then s
    else
      let s1 := s.putArr m.die m.core { a with frozen := false, drains := a.drains.map fun d => { d with frozen := false } }
      (s1.drainsGoOn ck).armMatrix m.die m.core
  | .feeder => s

/-- UNFREEZE_KILL (R25). -/
def State.unfreezeKill (s : State) (m : Master) : State :=
  let k : GKey := ⟨m.die, m.core, m.slot⟩
  let ck : CoreKey := ⟨m.die, m.core⟩
  match m.kind with
  | .group => match s.group? k with
    | some g =>
      if g.run = .parked .frozen then
        ((s.setAccess (s.access.filter fun e => !(e.2.g == k && e.2.team == g.team && e.2.lanes.any fun x => !x.path.isEmpty))).killGroup k g).readsEnd k g.team
      else s
    | none => match s.frozenSaved m with
      | x :: _ => (s.killSaved m.die x).readsEnd k x.group.team
      | [] => s
  | .copy =>
    let bad := (s.copies ck).filter fun x => x.frozen
    if bad.isEmpty then s
    else
      let s0 := s.setFabric { s.fabric with cut := s.fabric.cut.filter fun f => !f.cargo.ofCopy ck }
      let s1 := bad.foldl (fun t x =>
        let t1 := t.copyGone ck x
        match x.node with
        | some (l, n) => t1.failNode l n
        | none => t1) s0
      s1.copiesGoOn ck
  | .matrix =>
    let a := s.arr m.die m.core
    if !a.frozen then s
    else
      let s1 := s.updArr m.die m.core fun b => { b with frozen := false }
      (((a.drains.filter fun d => d.frozen).foldl (fun t d => t.drainDone ck d) s1).drainsGoOn ck).armMatrix m.die m.core
  | .feeder => s

/-! ## Fabric ports (R12) -/

/-- FPCTL_WRITE. -/
def State.fpctlWrite (s : State) (p : Nat) (v : Word) : State :=
  let x := s.port p
  let die := portDie p
  let idie := pteBits x.win 59 5
  let inside : Bool := decide (idie < Config.dies) && s.slotOf die != 0 && s.slotOf idie == s.slotOf die
  let on := !s.boot.retired.contains die
  s.putPort p { x with oen := on && v.getLsbD 0, ien := on && v.getLsbD 1 && (x.ien || inside) }

/-- FABRIC_PORT_LINK_TRAINING. -/
def State.portTraining (s : State) (p : Nat) (up : Bool) : State := s.putPort p { s.port p with up := up }

/-- FABRIC_REQUEST_ARRIVE: a request from the far module comes, in flits of at most 64 bytes, into the receive buffer of the port (R12, R14). -/
def State.fabricRequest (s : State) (p : Nat) (wr : Bool) (off width : Nat) (data : List Byte) : State :=
  let i := 2 * portLink p
  (List.range (max 1 ((width + 63) / 64))).foldl (fun t j =>
    let f : Flit := { cls := .req, cargo := .inbound p wr (off + 64 * j) (min 64 (width - 64 * j)) ((data.drop (64 * j)).take (min 64 (width - 64 * j))),
                      old := false }
    ((t.setFabric { t.fabric with bufs := t.fabric.bufs.put i (t.fabric.bufs.get [] i ++ [f]) }).stopLook (portLink p) false .req).after 0
      (.linkFlitArrive (portLink p) false .req true)) s

/-- An access that replays an entry of a side log is refused again: the entry waits for its next retry (R12, R158). -/
def State.refusedEntry (s : State) (id : Nat) (a : Access) : Option State :=
  let mine (e : LogEntry) : Bool := e.away == some id
  let back (e : LogEntry) : LogEntry := if mine e then { e with away := none } else e
  let s1 := (s.setAccess (s.access.del id)).unpost (.accessComplete id)
  let again (t : State) : State := t.after 256 (.faultRetry (.sideLog a.g))
  match s.groupOf? a.g a.team, s.team? a.team with
  | some g, _ => if g.log.any mine then some (again (s1.putGroup a.g { g with log := g.log.map back })) else none
  | none, some t => if t.logs.any fun e => mine e.2 then some (again (s1.putTeam a.team { t with logs := t.logs.map fun e => (e.1, back e.2) })) else none
  | none, none => none

/-- A load's lane is refused: its group parks with PERM, and the lane sets out again when it is resumed. -/
def State.refusedLoad (s : State) (id : Nat) (a : Access) (x : LaneAcc) : State :=
  let s0 := s.unpost (.loadReturn id x.lane)
  let s1 := s0.setAccess (s0.access.put id { a with lanes := a.lanes.map fun y => if y.lane = x.lane then { y with done := false, got := none } else y })
  let t : Trap := { cause := .perm, aux := 0#32, ofs := x.ofs, sel := a.sel, lin := x.lin }
  match s1.group? a.g with
  | none => s1
  | some g =>
    if g.team ≠ a.team then s1
    else (s1.leavePen a.g g (.parked (.page .perm))).report a.g.die a.ctx (groupFault a.g t)

/-- The entries that the side log of an access's group holds, or its team for it (R157). -/
def State.logLength (s : State) (a : Access) : Nat :=
  match s.groupOf? a.g a.team with
  | some g => g.log.length
  | none => ((s.team? a.team).map fun t => (t.logs.filter fun e => e.1 == a.g).length).getD 0

/-- A store's lane is refused: it goes to the side log (R157), with one record for each page of the store (R160); a lane that finds the log's 16 entries
in use sets out again (log 110). -/
def State.refusedStore (s : State) (id : Nat) (a : Access) (x : LaneAcc) : State :=
  let w := dieWho a.g.die a.ctx
  if 16 ≤ s.logLength a then
    let y : LaneAcc := { x with path := s.pathOf a.g.die x.runs, done := false, got := none }
    let b : Access := { a with lanes := a.lanes.map fun z => if z.lane = x.lane then y else z }
    (s.setAccess (s.access.put id b)).sendLane id w b y 256
  else
    let e : LogEntry := { kind := a.kind, lane := x.lane, lin := x.lin, ofs := x.ofs, sel := a.sel, width := a.width, data := x.data, host := false, away := none }
    let t : Trap := { cause := .perm, aux := 1#32, ofs := x.ofs, sel := a.sel, lin := x.lin }
    let page := x.lin / 65536
    let s1 := s.setAccess (s.access.put id { a with lanes := a.lanes.filter fun y => y.lane ≠ x.lane,
                                                    told := if a.told.contains page then a.told else a.told ++ [page] })
    let s2 := match s1.groupOf? a.g a.team with
      | some g => s1.putGroup a.g { g with log := g.log ++ [e] }
      | none => s1.updTeam a.team fun m => { m with logs := m.logs ++ [(a.g, e)] }
    (if a.told.contains page then s2 else s2.report a.g.die a.ctx (groupFault a.g t)).after 256 (.faultRetry (.sideLog a.g))

/-- A copy command with an identity, and its core. -/
def State.findCopy (s : State) (id : Nat) : Option (CoreKey × CopyCmd) :=
  s.cores.findSome? fun e => (e.2.copy.find? fun x => x.id = id).map fun x => (⟨e.1 / 16, e.1 % 16⟩, x)

/-- A drain with an identity, and its core. -/
def State.findDrain (s : State) (id : Nat) : Option (CoreKey × Drain) :=
  s.cores.findSome? fun e => (e.2.arr.drains.find? fun x => x.id = id).map fun x => (⟨e.1 / 16, e.1 % 16⟩, x)

/-- FABRIC_REFUSAL_RECEIVE: a far port's refusal acts as PERM: a load parks, a store's lane is logged, a copy is cancelled, a drain is held and
replays (R12, R231). `lane` names the lane of an access, or the piece of a drain. -/
def State.fabricRefused (s : State) (id lane : Nat) : State :=
  match s.access.find id with
  | some a => match a.lanes.find? fun x => x.lane = lane with
    | none => s
    | some x => if a.kind.isLoad then (if x.done && x.got.isNone then s else s.refusedLoad id a x)
      else (s.refusedEntry id a).getD (s.refusedStore id a x)
  | none => match s.findCopy id with
    | none => match s.findDrain id with
      | some (ck, d) =>
        if d.away then
          (s.unpost (.drainComplete ck id)).drainFault ck d .perm (d.seg.base.toNat + ((d.pieces[lane]?).map (·.1)).getD d.ofs)
        else s
      | none => s
    | some (ck, x) =>
      let wr : Bool := (match (s.copyReach ck x true (x.into + x.moved) 1).1 with
        | .ok (r :: _) => (match r.place with
          | .far _ _ => true
          | _ => false)
        | _ => false)
      let r := if wr then x.dst else x.src
      s.copyCancel ck x wr (r.base.toNat + (if wr then x.into else x.from_) + x.moved)

/-! ## Uncorrectable errors (R92, R168, R169) -/

/-- A team is killed by an uncorrectable error: one that is idempotent, alone in its cluster and not yet launched again, is. -/
def State.eccTeam (s : State) (t : Nat) : State :=
  match s.team? t with
  | none => s
  | some tm =>
    let again : Bool := tm.krec.idem && tm.krec.cw == 1 && tm.krec.ch == 1 && !tm.relaunched
    let s1 := tm.keys.foldl (fun u k => match u.group? k with
      | none => u
      | some g =>
        let u1 := match g.task with
          | some x => if x.spec then u.abort tm.part tm.ctx x.record.id true else u
          | none => u
        match u1.group? k with
        | some h => u1.killGroup k h
        | none => u1) s
    let s2 := ((s1.die tm.die).saved.filter fun x => x.group.team = t).foldl (fun u x => u.killSaved tm.die x) s1
    s2.updTeam t fun m => { m with failed := !again, redo := again }

/-- The task of a domain with a record's identity that has not committed, and its team: it runs, is saved, or has finished. -/
def State.taskOf (s : State) (part ctx id : Nat) : Option (Task × Nat) :=
  match (s.taskGroups part ctx).find? fun e => e.2.2.record.id = id with
  | some e => some (e.2.2, e.2.1.team)
  | none => (s.diesOf part).findSome? fun d =>
    match (s.die d).saved.findSome? fun x => (x.group.task.filter fun t => x.ctx == ctx && t.record.id == id).map fun t => (t, x.group.team) with
    | some r => some r
    | none => ((s.domain? part ctx).bind fun o => (o.at d).finished.find? fun f => f.task.record.id = id).map fun f =>
        (f.task, ((s.teams.find? fun e => e.2.die == d && e.2.core == f.core && e.2.ctx == ctx && e.2.krec.ord).map (·.1)).getD 0)

/-- A grain of a promoted task's draft is lost before it has drained: no team is killed for it (R92), and the task is never aborted (R87). Its home is
poisoned in HBM, as a line that is lost on its way there (R168), and takes free bytes elsewhere (log 127). -/
def State.grainLost (s : State) (k : Nat) (g : Grain) : State :=
  match g.place with
  | .hbm _ _ => if s.poison.contains g.place then s else s.setPoison (s.poison ++ [g.place])
  | _ => (List.range 64).foldl (fun t i =>
      if g.mask.getLsbD i then t.writeByte (s.grainByte g.place i) (Config.lostByte (k + i)) else t) (s.setFreeCtr (s.freeCtr + 64))

/-- An uncorrectable error in a grain of a task's draft: the task aborts and runs again (R92); a promoted task loses the grain alone (log 127). -/
def State.draftError (s : State) (part ctx id grain : Nat) : State :=
  match s.taskOf part ctx id with
  | none => s
  | some (t, _) =>
    if t.spec then (if t.draft.length ≤ grain then s else s.abort part ctx id true)
    else match t.draft[grain]? with
      | none => s
      | some x =>
        let rest (u : Task) : Task := if u.record.id = id then { u with draft := u.draft.filter fun y => y.place ≠ x.place } else u
        let s1 := s.setGroups (s.groups.map fun e => (e.1, { e.2 with task := e.2.task.map rest }))
        let s2 := (s1.diesOf part).foldl (fun v d => v.updDie d fun y =>
          { y with saved := y.saved.map fun z => { z with group := { z.group with task := z.group.task.map rest } } }) s1
        let s3 := (s2.diesOf part).foldl (fun v d => v.updDomain part ctx fun o => o.upd d fun y =>
          { y with finished := y.finished.map fun f => { f with task := rest f.task } }) s2
        s3.grainLost s.freeCtr x

/-- UNCORRECTABLE_ERROR; `corrected` counts a corrected one. -/
def State.uncorrectable (s : State) (e : ErrorAt) : State :=
  match e with
  | .corrected d => s.updDie d fun x => { x with corrected := x.corrected + 1 }
  | .group k => match s.group? k with
    | some g => s.eccTeam g.team
    | none => s
  | .bank c b => match (s.core c.die c.core).banks.find b with
    | some t => s.eccTeam t
    | none => s
  | .draft part ctx task grain => s.draftError part ctx task grain
  | .tile c n =>
    let x := s.tile c.die c.core n
    if x.state = .free then s else s.eccTeam x.owner
  | .accumulators c => match (s.arr c.die c.core).owner with
    | some t => s.eccTeam t
    | none => s
  | .cleanLine _ => s
  | .hbm d o => if s.poison.contains (.hbm d (o / 64 * 64)) then s else s.setPoison (s.poison ++ [.hbm d (o / 64 * 64)])
  | .folio d r => s.updDie d fun x => { x with folioBad := if x.folioBad.contains r then x.folioBad else x.folioBad ++ [r] }
  | .queue d c q i =>
    let w := s.wq d (8 * c + q)
    s.putWq d (8 * c + q) { w with spoilt := if w.spoilt.contains i then w.spoilt else w.spoilt ++ [i] }

/-! ## FAULT_RETRY (R158) -/

/-- FAULT_RETRY: what waits on a fault is tried again. -/
def State.faultRetry (s : State) (w : RetryOf) : State :=
  match w with
  | .sideLog k => s.sideLogRetry k
  | .feeder d f => s.feederTry d f true
  | .drain c id => s.drainComplete c id
  | .copy c id => s.copyBeat c id
  | .node l n => s.nodeStart l n
  | .rubric d c i op sel act => s.rbcmdAct d c i op sel act (rbAct op sel) false
  | .event p c n => s.evRetry p c n

/-! ## The events -/

/-- POWER_ON. -/
def execPowerOn (s : State) : Host.Outcome State Fault Refusal :=
  match s.subject with
  | .powerOn => .next s.startUp
  | _ => .fault .noSubject
/-- MODULE_RESET. -/
def execModuleReset (s : State) : Host.Outcome State Fault Refusal :=
  match s.subject with
  | .moduleReset => .next s.startUp
  | _ => .fault .noSubject
/-- STAGE_ADVANCE. -/
def execStageAdvance (s : State) : Host.Outcome State Fault Refusal :=
  match s.subject with
  | .stageAdvance o => .next (s.stageAdvance o)
  | _ => .fault .noSubject
/-- THERMAL_WARNING. -/
def execThermalWarning (s : State) : Host.Outcome State Fault Refusal :=
  match s.subject with
  | .thermalWarning d => .next (s.thermalWarning d)
  | _ => .fault .noSubject
/-- THERMAL_TRIP. -/
def execThermalTrip (s : State) : Host.Outcome State Fault Refusal :=
  match s.subject with
  | .thermalTrip d => .next (s.thermalTrip d)
  | _ => .fault .noSubject
/-- MARGIN_CHECK. -/
def execMarginCheck (s : State) : Host.Outcome State Fault Refusal :=
  match s.subject with
  | .marginCheck => .next s.marginCheck
  | _ => .fault .noSubject
/-- STAGE. -/
def execStage (s : State) : Host.Outcome State Fault Refusal :=
  match s.subject with
  | .stage => .next s.mailStage
  | _ => .fault .noSubject
/-- MARGIN. -/
def execMargin (s : State) : Host.Outcome State Fault Refusal :=
  match s.subject with
  | .margin => .next s.mailMargin
  | _ => .fault .noSubject
/-- STAGEBITS. -/
def execStagebits (s : State) : Host.Outcome State Fault Refusal :=
  match s.subject with
  | .stagebits => .next s.mailStagebits
  | _ => .fault .noSubject
/-- ENROL. -/
def execEnrol (s : State) : Host.Outcome State Fault Refusal :=
  match s.subject with
  | .enrol => .next (s.mailKey true)
  | _ => .fault .noSubject
/-- REVOKE. -/
def execRevoke (s : State) : Host.Outcome State Fault Refusal :=
  match s.subject with
  | .revoke => .next (s.mailKey false)
  | _ => .fault .noSubject
/-- A mailbox command that has no meaning: MERR 0x01. -/
def execUnknownMailboxCommand (s : State) : Host.Outcome State Fault Refusal :=
  match s.subject with
  | .unknownMailboxCommand _ => .next (s.mailDone 1#8)
  | _ => .fault .noSubject
/-- APPLY. -/
def execApply (s : State) : Host.Outcome State Fault Refusal :=
  match s.subject with
  | .apply => .next s.apply
  | _ => .fault .noSubject
/-- RETIRE. -/
def execRetire (s : State) : Host.Outcome State Fault Refusal :=
  match s.subject with
  | .retire d => .next (s.retire d)
  | _ => .fault .noSubject
/-- FWCTL_WRITE. -/
def execFwctlWrite (s : State) : Host.Outcome State Fault Refusal :=
  match s.subject with
  | .fwctlWrite l v => .next (s.fwctlWrite l v)
  | _ => .fault .noSubject
/-- LINK_FLIT_ARRIVE. -/
def execLinkFlitArrive (s : State) : Host.Outcome State Fault Refusal :=
  match s.subject with
  | .linkFlitArrive l u c b => .next (s.linkFlitArrive l u c b)
  | _ => .fault .noSubject
/-- LINK_STOP_SIGNAL. -/
def execLinkStopSignal (s : State) : Host.Outcome State Fault Refusal :=
  match s.subject with
  | .linkStopSignal l u c => .next (s.linkStopSignal l u c)
  | _ => .fault .noSubject
/-- UNFREEZE_RESUME. -/
def execUnfreezeResume (s : State) : Host.Outcome State Fault Refusal :=
  match s.subject with
  | .unfreezeResume m => .next (s.unfreezeResume m)
  | _ => .fault .noSubject
/-- UNFREEZE_KILL. -/
def execUnfreezeKill (s : State) : Host.Outcome State Fault Refusal :=
  match s.subject with
  | .unfreezeKill m => .next (s.unfreezeKill m)
  | _ => .fault .noSubject
/-- FABRIC_REQUEST_ARRIVE. -/
def execFabricRequestArrive (s : State) : Host.Outcome State Fault Refusal :=
  match s.subject with
  | .fabricRequestArrive p w o n d => .next (s.fabricRequest p w o n d)
  | _ => .fault .noSubject
/-- FPCTL_WRITE. -/
def execFpctlWrite (s : State) : Host.Outcome State Fault Refusal :=
  match s.subject with
  | .fpctlWrite p v => .next (s.fpctlWrite p v)
  | _ => .fault .noSubject
/-- FABRIC_PORT_LINK_TRAINING. -/
def execFabricPortLinkTraining (s : State) : Host.Outcome State Fault Refusal :=
  match s.subject with
  | .fabricPortLinkTraining p u => .next (s.portTraining p u)
  | _ => .fault .noSubject
/-- FABRIC_REFUSAL_RECEIVE. -/
def execFabricRefusalReceive (s : State) : Host.Outcome State Fault Refusal :=
  match s.subject with
  | .fabricRefusalReceive a l => .next (s.fabricRefused a l)
  | _ => .fault .noSubject
/-- FOLIO_REFRESH: the windows follow from the count of clk (R166), so that one opens changes no state. -/
def execFolioRefresh (s : State) : Host.Outcome State Fault Refusal :=
  match s.subject with
  | .folioRefresh _ => .next s
  | _ => .fault .noSubject
/-- UNCORRECTABLE_ERROR. -/
def execUncorrectableError (s : State) : Host.Outcome State Fault Refusal :=
  match s.subject with
  | .uncorrectableError e => .next (s.uncorrectable e)
  | _ => .fault .noSubject
/-- FAULT_RETRY. -/
def execFaultRetry (s : State) : Host.Outcome State Fault Refusal :=
  match s.subject with
  | .faultRetry w => .next (s.faultRetry w)
  | _ => .fault .noSubject
/-- REGISTER_WRITE. -/
def execRegisterWrite (s : State) : Host.Outcome State Fault Refusal :=
  match s.subject with
  | .registerWrite f b o w v => .next (s.registerWrite f b o w v)
  | .registerAtomic f b o w op v => .next (s.registerAtomic f b o w op v)
  | _ => .fault .noSubject
/-- REGISTER_READ_CLEAR. -/
def execRegisterReadClear (s : State) : Host.Outcome State Fault Refusal :=
  match s.subject with
  | .registerReadClear f b o w => .next (s.regReadClear f b o w)
  | _ => .fault .noSubject

end Sys2Proof.Machine
end

