-- ==== Sys2Proof/Machine/Schedule.lean ====
section
/-! DEFINITION. What happens next (R51, R52; log 1): the earliest event of the agenda, the clause boundary of a pen or the issue of a pen's
group; the instruction fetched and decoded at issue (R256 steps 1 and 2). -/

namespace Sys2Proof.Machine

/-! ## The constructor of an event (log 17) -/

/-- The row of the table that an event of the agenda is. -/
def rowOf (e : Event) : Instr :=
  match e with
  | .powerOn => .powerOn
  | .moduleReset => .moduleReset
  | .stageAdvance _ => .stageAdvance
  | .thermalWarning _ => .thermalWarning
  | .thermalTrip _ => .thermalTrip
  | .marginCheck => .marginCheck
  | .stage => .stage
  | .margin => .margin
  | .stagebits => .stagebits
  | .enrol => .enrol
  | .revoke => .revoke
  | .unknownMailboxCommand _ => .unknownMailboxCommand
  | .apply => .apply
  | .retire _ => .retire
  | .fwctlWrite _ _ => .fwctlWrite
  | .linkFlitArrive _ _ _ _ => .linkFlitArrive
  | .linkStopSignal _ _ _ => .linkStopSignal
  | .unfreezeResume _ => .unfreezeResume
  | .unfreezeKill _ => .unfreezeKill
  | .fabricRequestArrive _ _ _ _ _ => .fabricRequestArrive
  | .fpctlWrite _ _ => .fpctlWrite
  | .queueEnable _ _ => .queueEnable
  | .drain _ _ => .drain
  | .queueDisable _ _ => .queueDisable
  | .queueDrainDone _ => .queueDrainDone
  | .kick _ _ _ _ _ => .kick
  | .launchStart _ => .launchStart
  | .launchRetire _ => .launchRetire
  | .statusWrite _ => .statusWrite
  | .gcmd _ _ => .gcmd
  | .gunreg _ _ => .gunreg
  | .nodeStart _ _ => .nodeStart
  | .nodeFinish _ _ => .nodeFinish
  | .shardReceive _ _ _ => .shardReceive
  | .generationPublish _ => .generationPublish
  | .contextStart _ _ => .contextStart
  | .sliceEnd _ _ => .sliceEnd
  | .flashbackTimeout _ _ => .flashbackTimeout
  | .groupSave _ _ => .groupSave
  | .groupRestore _ _ => .groupRestore
  | .clusterPlace _ _ _ => .clusterPlace
  | .objectLoad _ => .clusterPlace
  | .headBlocking _ _ _ _ => .headBlocking
  | .clauseStart _ => .clauseStart
  | .clauseFetchArrive _ => .clauseFetchArrive
  | .budgetTick _ => .budgetTick
  | .budgetGraceExpire _ => .budgetGraceExpire
  | .pkctlResume _ _ _ _ => .pkctlResume
  | .pkctlKill _ _ _ _ => .pkctlKill
  | .fqciWrite _ _ _ => .fqciWrite
  | .faultRetry _ => .faultRetry
  | .priResponse _ _ _ _ => .priResponse
  | .atsInvalidate _ _ _ => .atsInvalidate
  | .tlbinv _ _ _ => .tlbinv
  | .tlbinvDone _ _ => .tlbinvDone
  | .segsync _ _ _ => .segsync
  | .descriptorSyncDone _ _ _ _ => .descriptorSyncDone
  | .rbcmdBind _ _ _ _ => .rbcmdBind
  | .rbcmdUnbind _ _ _ => .rbcmdUnbind
  | .rbcmdUnbindRevoke _ _ _ => .rbcmdUnbindRevoke
  | .rbcmdRetire _ _ _ => .rbcmdRetire
  | .contextEnable _ _ => .contextEnable
  | .contextDisable _ _ => .contextDisable
  | .contextKill _ _ _ => .contextKill
  | .contextIdle _ _ => .contextIdle
  | .eventActArrive _ _ _ _ => .eventActArrive
  | .eventCountUpdate _ _ _ _ => .eventCountUpdate
  | .eventWake _ _ => .eventWake
  | .queueActArrive _ _ => .queueActArrive
  | .queueSwapInDone _ _ _ => .queueSwapInDone
  | .accessComplete _ => .accessComplete
  | .loadReturn _ _ => .loadReturn
  | .taskDispatch _ _ _ => .taskDispatch
  | .frontierSample _ _ _ => .frontierSample
  | .frontierUpdate _ _ _ _ _ => .frontierUpdate
  | .taskCommit _ _ _ => .taskCommit
  | .spillRefill _ _ _ => .spillRefill
  | .barrierArrive _ _ => .barrierArrive
  | .copyStart _ => .copyStart
  | .copyBeat _ _ => .copyBeat
  | .copyComplete _ _ => .copyComplete
  | .feederTileLand _ _ => .feederTileLand
  | .tileLoadLand _ _ => .tileLoadLand
  | .matrixOpStart _ _ => .matrixOpStart
  | .matrixOpRetire _ _ => .matrixOpRetire
  | .subarrayGate _ _ => .subarrayGate
  | .drainComplete _ _ => .drainComplete
  | .pairBind _ => .pairBind
  | .pairEnd _ => .pairEnd
  | .claimGrant _ => .claimGrant
  | .deadlockCheck _ => .deadlockCheck
  | .teamRetire _ => .teamRetire
  | .folioRefresh _ => .folioRefresh
  | .uncorrectableError _ => .uncorrectableError
  | .registerWrite _ _ _ _ _ => .registerWrite
  | .registerAtomic _ _ _ _ _ _ => .registerWrite
  | .registerReadClear _ _ _ _ => .registerReadClear
  | .fabricPortLinkTraining _ _ => .fabricPortLinkTraining
  | .fabricRefusalReceive _ _ => .fabricRefusalReceive
  | .atsTranslationCompletion _ _ _ _ => .atsTranslationCompletion

/-! ## Pens that have something to do (R51, R52) -/

/-- The sector of a pen: 32 pens each (R51). -/
def sectorOf (p : PenKey) : Nat := p.pen / 32

/-- The earliest clk at which a ready group of a pen may take it. -/
def State.readyTime (s : State) (p : PenKey) (but : Option Nat) : Option Nat :=
  (penSlots p).foldl (fun b k => match s.group? k with
    | some g =>
      if some k.slot ≠ but ∧ g.run = .ready ∧ !g.beingSaved then
        let t := max g.readyAt (max s.clk (s.pen p).freeAt)
        some (match b with
          | some u => min u t
          | none => t)
      else b
    | none => b) none

/-- What a pen does next: when, whether it issues an instruction (else it stands at a clause boundary), since when it asks, and the slot. -/
structure PenTurn where
  at_ : Nat
  issues : Bool
  askedAt : Nat
  pen : PenKey
  slot : Nat
  deriving DecidableEq, Repr

/-- Whether a group stands inside a clause with nothing to raise, or to park for, first. -/
def Group.issuing (g : Group) : Bool :=
  g.raiseDue.isNone && !(g.speculative && g.task.any fun t => t.budgetOut) && g.clause.any fun c => c.begun

/-- The earliest clk from `t` on at which the pen's sector has granted nothing (R51). -/
def State.grantTime (s : State) (p : PenKey) (t : Nat) : Nat :=
  if (s.core p.die p.core).granted.find (sectorOf p) = some t then t + 1 else t

/-- What a pen does next, if anything. -/
def State.penTurn (s : State) (p : PenKey) : Option PenTurn :=
  let x := s.pen p
  let free := max s.clk x.freeAt
  let bound (t : Nat) : PenTurn := { at_ := t, issues := false, askedAt := x.askedAt, pen := p, slot := 0 }
  match x.holder with
  | none => (s.readyTime p none).map bound
  | some slot => match s.group? ⟨p.die, p.core, slot⟩ with
    | none => some (bound free)
    | some g => match g.run with
      | .active =>
        if g.issuing then some { at_ := if x.stalled then free else s.grantTime p free, issues := true, askedAt := x.askedAt, pen := p, slot := slot } else some (bound free)
      | .idle => (s.readyTime p (some slot)).map bound
      | _ => some (bound free)

/-- The order of turns: the earlier clk; a clause boundary before an issue; then who has asked longest, and the lower number (R51). -/
def PenTurn.before (a b : PenTurn) : Bool :=
  let r (t : PenTurn) : List Nat := [t.at_, if t.issues then 1 else 0, t.askedAt, t.pen.die, t.pen.core, t.pen.pen]
  decide (r a < r b)

/-- The pens that hold groups. -/
def State.busyPens (s : State) : List PenKey := (s.groups.map fun e => penOf (keyOfNum e.1)).dedup

/-- The next turn of a pen. -/
def State.nextTurn (s : State) : Option PenTurn :=
  s.busyPens.foldl (fun b p => match b, s.penTurn p with
    | some x, some y => if y.before x then some y else some x
    | none, y => y
    | x, none => x) none

/-- The next clk at which something ends by time alone: a pending write or an acquire (R104, R178). -/
def State.nextLapse (s : State) : Option Nat :=
  (s.groups.flatMap fun e => e.2.acqUntil :: e.2.pend.map (·.due)).foldl (fun b t =>
    if s.clk < t then some (match b with
      | some u => min u t
      | none => t) else b) none

/-- What the machine does next. -/
inductive Next where
  | event (at_ : Nat) (e : Event) (rest : List (Nat × Event))
  | turn (t : PenTurn)
  | pass (till : Nat)
  deriving DecidableEq, Repr

def Next.time (n : Next) : Nat :=
  match n with
  | .event t _ _ => t
  | .turn t => t.at_
  | .pass t => t

/-- The earlier of the agenda's first event and the next turn of a pen, the event first in one clk (log 1). -/
def State.nextDeed (s : State) : Option Next :=
  match s.agenda, s.nextTurn with
  | [], none => none
  | [], some t => some (.turn t)
  | (d, e) :: r, none => some (.event (max s.clk d) e r)
  | (d, e) :: r, some t => some (if t.at_ < max s.clk d then .turn t else .event (max s.clk d) e r)

/-- What the machine does next; where something ends by time before that, time passes up to there. -/
def State.next (s : State) : Next :=
  match s.nextDeed, s.nextLapse with
  | none, none => .pass (s.clk + 1)
  | none, some t => .pass t
  | some n, none => n
  | some n, some t => if t < n.time then .pass t else n

/-- What has come to hold since the last step is seen: waits that are over, and nodes whose entry is bound. -/
def State.settle (s : State) : State := s.sweep.sweepNodes

/-! ## Issue (R51, R256) -/

/-- The sector of a pen grants in a clk, unless the pen's instruction has had its grant and waits to issue (R51). -/
def State.grant (s : State) (p : PenKey) : State :=
  if (s.pen p).stalled then s else s.updCore p.die p.core fun c => { c with granted := c.granted.put (sectorOf p) s.clk }

/-- What the words at the issuer's position decode to (R256 steps 1 and 2). -/
def State.fetched (s : State) : Option (Except Reject Instr) :=
  match s.group? s.issuer with
  | none => none
  | some g => g.clause.map fun c => decodeInstr (c.wordsAt g.pos).1 (c.wordsAt g.pos).2

/-- The cause of words that are no instruction (R256 steps 1 and 2). -/
def rejectCause (r : Reject) : Cause :=
  match r with
  | .opc => .illOpc
  | .form => .illField

/-- The issuer's words are no instruction. -/
def State.rejected (s : State) (r : Reject) : Host.Outcome State Fault Refusal :=
  s.withIssuer fun k g _ => s.raise k g (trapOf (rejectCause r) 0#32)

/-! ## A group placed to issue given words -/

/-- The kernel record of the team that withFetchWord places; MODEL. -/
def probeKernel : KRec :=
  { kofs := 0#32, regs := 64, ord := false, idem := false, pair := false, gres := false, scr := 0, tx := 32, ty := 1, tz := 1, cw := 1, ch := 1,
    trap := 0xffffffff#32, rcf := 0, rcn := 0, rtab := 0 }

/-- The team that withFetchWord places; MODEL. -/
def probeTeam : Team :=
  { die := 0, core := 0, ctx := 0, part := 1, launch := 0, node := 0, cluster := 0, member := 0, number := 0, x := 0, y := 0, z := 0,
    groups := [(0, 0)], count := 1, krec := probeKernel, code := SegReg.null, budget := none, grace := false, failed := false, banks := [],
    argBuf := 0, argLen := 0, relaunched := false, redo := false, noTask := false, logs := [], ranAt := 0 }

/-- A group of 32 lanes at the start of a clause of one instruction whose words are given. -/
def probeGroup (w : Word) (x : Option Word) : Group :=
  let c : Clause := { ofs := 0#48, hdr := soleHeader w x.isSome, words := w :: x.toList, begun := true, skipWait := false }
  { startGroup 0 0 32 probeKernel 0xffffffff#32 SegReg.null [] [] 0 with run := .active, clause := some c }

/-- Stage 4 is reached, nothing is due, and slot 0 of core 0 of die 0 issues the given words next. -/
def State.placeWords (s : State) (w : Word) (x : Option Word) : State :=
  let s1 := ((s.setAgenda []).setBoot { s.boot with stage := 4 }).putTeam 0 probeTeam
  (s1.putGroup ⟨0, 0, 0⟩ (probeGroup w x)).putPen ⟨0, 0, 0⟩ { Pen.reset with holder := some 0 }

end Sys2Proof.Machine
end

