-- ==== Sys2Proof/Machine/Dispatch.lean ====
section
/-! DEFINITION. One arm for each row of the table of operations and events, one meaning for each arm. -/

namespace Sys2Proof.Machine

/-- What an instruction or an event does. -/
def exec (i : Instr) (s : State) : Host.Outcome State Fault Refusal :=
  match i with
  | .bra f => Sys2Proof.Machine.execBra f s
  | .bru f => Sys2Proof.Machine.execBru f s
  | .call f => Sys2Proof.Machine.execCall f s
  | .callr f => Sys2Proof.Machine.execCallr f s
  | .div f => Sys2Proof.Machine.execDiv f s
  | .bar f => Sys2Proof.Machine.execBar f s
  | .bara f => Sys2Proof.Machine.execBara f s
  | .barw f => Sys2Proof.Machine.execBarw f s
  | .barexp f => Sys2Proof.Machine.execBarexp f s
  | .evsig f => Sys2Proof.Machine.execEvsig f s
  | .evwait f => Sys2Proof.Machine.execEvwait f s
  | .evtest f => Sys2Proof.Machine.execEvtest f s
  | .waitp f => Sys2Proof.Machine.execWaitp f s
  | .elect f => Sys2Proof.Machine.execElect f s
  | .pmask f => Sys2Proof.Machine.execPmask f s
  | .iadd f => Sys2Proof.Machine.execIadd f s
  | .iaddLong f x => Sys2Proof.Machine.execIaddLong f x s
  | .isub f => Sys2Proof.Machine.execIsub f s
  | .isubLong f x => Sys2Proof.Machine.execIsubLong f x s
  | .imul f => Sys2Proof.Machine.execImul f s
  | .imulLong f x => Sys2Proof.Machine.execImulLong f x s
  | .imulhs f => Sys2Proof.Machine.execImulhs f s
  | .imulhsLong f x => Sys2Proof.Machine.execImulhsLong f x s
  | .imulhu f => Sys2Proof.Machine.execImulhu f s
  | .imulhuLong f x => Sys2Proof.Machine.execImulhuLong f x s
  | .imad f => Sys2Proof.Machine.execImad f s
  | .imadLong f x => Sys2Proof.Machine.execImadLong f x s
  | .iaddc f => Sys2Proof.Machine.execIaddc f s
  | .iaddcLong f x => Sys2Proof.Machine.execIaddcLong f x s
  | .iabs f => Sys2Proof.Machine.execIabs f s
  | .iabsLong f x => Sys2Proof.Machine.execIabsLong f x s
  | .imin f => Sys2Proof.Machine.execImin f s
  | .iminLong f x => Sys2Proof.Machine.execIminLong f x s
  | .imax f => Sys2Proof.Machine.execImax f s
  | .imaxLong f x => Sys2Proof.Machine.execImaxLong f x s
  | .iminu f => Sys2Proof.Machine.execIminu f s
  | .iminuLong f x => Sys2Proof.Machine.execIminuLong f x s
  | .imaxu f => Sys2Proof.Machine.execImaxu f s
  | .imaxuLong f x => Sys2Proof.Machine.execImaxuLong f x s
  | .iadds f => Sys2Proof.Machine.execIadds f s
  | .iaddsLong f x => Sys2Proof.Machine.execIaddsLong f x s
  | .icmp f => Sys2Proof.Machine.execIcmp f s
  | .icmpLong f x => Sys2Proof.Machine.execIcmpLong f x s
  | .icmpu f => Sys2Proof.Machine.execIcmpu f s
  | .icmpuLong f x => Sys2Proof.Machine.execIcmpuLong f x s
  | .iaddi f => Sys2Proof.Machine.execIaddi f s
  | .and f => Sys2Proof.Machine.execAnd f s
  | .andLong f x => Sys2Proof.Machine.execAndLong f x s
  | .or f => Sys2Proof.Machine.execOr f s
  | .orLong f x => Sys2Proof.Machine.execOrLong f x s
  | .xor f => Sys2Proof.Machine.execXor f s
  | .xorLong f x => Sys2Proof.Machine.execXorLong f x s
  | .andn f => Sys2Proof.Machine.execAndn f s
  | .andnLong f x => Sys2Proof.Machine.execAndnLong f x s
  | .shl f => Sys2Proof.Machine.execShl f s
  | .shlLong f x => Sys2Proof.Machine.execShlLong f x s
  | .shr f => Sys2Proof.Machine.execShr f s
  | .shrLong f x => Sys2Proof.Machine.execShrLong f x s
  | .sar f => Sys2Proof.Machine.execSar f s
  | .sarLong f x => Sys2Proof.Machine.execSarLong f x s
  | .rot f => Sys2Proof.Machine.execRot f s
  | .rotLong f x => Sys2Proof.Machine.execRotLong f x s
  | .popc f => Sys2Proof.Machine.execPopc f s
  | .popcLong f x => Sys2Proof.Machine.execPopcLong f x s
  | .clz f => Sys2Proof.Machine.execClz f s
  | .clzLong f x => Sys2Proof.Machine.execClzLong f x s
  | .brev f => Sys2Proof.Machine.execBrev f s
  | .brevLong f x => Sys2Proof.Machine.execBrevLong f x s
  | .bfx f => Sys2Proof.Machine.execBfx f s
  | .bfxLong f x => Sys2Proof.Machine.execBfxLong f x s
  | .bfi f => Sys2Proof.Machine.execBfi f s
  | .bfiLong f x => Sys2Proof.Machine.execBfiLong f x s
  | .bfn3 f x => Sys2Proof.Machine.execBfn3 f x s
  | .movi f => Sys2Proof.Machine.execMovi f s
  | .movhi f => Sys2Proof.Machine.execMovhi f s
  | .fadd f => Sys2Proof.Machine.execFadd f s
  | .faddLong f x => Sys2Proof.Machine.execFaddLong f x s
  | .fsub f => Sys2Proof.Machine.execFsub f s
  | .fsubLong f x => Sys2Proof.Machine.execFsubLong f x s
  | .fmul f => Sys2Proof.Machine.execFmul f s
  | .fmulLong f x => Sys2Proof.Machine.execFmulLong f x s
  | .ffma f => Sys2Proof.Machine.execFfma f s
  | .ffmaLong f x => Sys2Proof.Machine.execFfmaLong f x s
  | .fmin f => Sys2Proof.Machine.execFmin f s
  | .fminLong f x => Sys2Proof.Machine.execFminLong f x s
  | .fmax f => Sys2Proof.Machine.execFmax f s
  | .fmaxLong f x => Sys2Proof.Machine.execFmaxLong f x s
  | .fcmp f => Sys2Proof.Machine.execFcmp f s
  | .fcmpLong f x => Sys2Proof.Machine.execFcmpLong f x s
  | .frcp f => Sys2Proof.Machine.execFrcp f s
  | .frcpLong f x => Sys2Proof.Machine.execFrcpLong f x s
  | .frsq f => Sys2Proof.Machine.execFrsq f s
  | .frsqLong f x => Sys2Proof.Machine.execFrsqLong f x s
  | .fsqrt f => Sys2Proof.Machine.execFsqrt f s
  | .fsqrtLong f x => Sys2Proof.Machine.execFsqrtLong f x s
  | .fexp2 f => Sys2Proof.Machine.execFexp2 f s
  | .fexp2Long f x => Sys2Proof.Machine.execFexp2Long f x s
  | .flog2 f => Sys2Proof.Machine.execFlog2 f s
  | .flog2Long f x => Sys2Proof.Machine.execFlog2Long f x s
  | .fsin f => Sys2Proof.Machine.execFsin f s
  | .fsinLong f x => Sys2Proof.Machine.execFsinLong f x s
  | .fcos f => Sys2Proof.Machine.execFcos f s
  | .fcosLong f x => Sys2Proof.Machine.execFcosLong f x s
  | .ftanh f => Sys2Proof.Machine.execFtanh f s
  | .ftanhLong f x => Sys2Proof.Machine.execFtanhLong f x s
  | .fclass f => Sys2Proof.Machine.execFclass f s
  | .fclassLong f x => Sys2Proof.Machine.execFclassLong f x s
  | .hadd2 f => Sys2Proof.Machine.execHadd2 f s
  | .hadd2Long f x => Sys2Proof.Machine.execHadd2Long f x s
  | .hmul2 f => Sys2Proof.Machine.execHmul2 f s
  | .hmul2Long f x => Sys2Proof.Machine.execHmul2Long f x s
  | .hfma2 f => Sys2Proof.Machine.execHfma2 f s
  | .hfma2Long f x => Sys2Proof.Machine.execHfma2Long f x s
  | .hmax2 f => Sys2Proof.Machine.execHmax2 f s
  | .hmax2Long f x => Sys2Proof.Machine.execHmax2Long f x s
  | .hmin2 f => Sys2Proof.Machine.execHmin2 f s
  | .hmin2Long f x => Sys2Proof.Machine.execHmin2Long f x s
  | .hcmp2 f => Sys2Proof.Machine.execHcmp2 f s
  | .hcmp2Long f x => Sys2Proof.Machine.execHcmp2Long f x s
  | .qdot4 f => Sys2Proof.Machine.execQdot4 f s
  | .qdot4Long f x => Sys2Proof.Machine.execQdot4Long f x s
  | .f2i f => Sys2Proof.Machine.execF2i f s
  | .f2iLong f x => Sys2Proof.Machine.execF2iLong f x s
  | .i2f f => Sys2Proof.Machine.execI2f f s
  | .i2fLong f x => Sys2Proof.Machine.execI2fLong f x s
  | .f2h f => Sys2Proof.Machine.execF2h f s
  | .f2hLong f x => Sys2Proof.Machine.execF2hLong f x s
  | .h2f f => Sys2Proof.Machine.execH2f f s
  | .h2fLong f x => Sys2Proof.Machine.execH2fLong f x s
  | .f2q f => Sys2Proof.Machine.execF2q f s
  | .f2qLong f x => Sys2Proof.Machine.execF2qLong f x s
  | .q2f f => Sys2Proof.Machine.execQ2f f s
  | .q2fLong f x => Sys2Proof.Machine.execQ2fLong f x s
  | .f2n f => Sys2Proof.Machine.execF2n f s
  | .f2nLong f x => Sys2Proof.Machine.execF2nLong f x s
  | .n2f f => Sys2Proof.Machine.execN2f f s
  | .n2fLong f x => Sys2Proof.Machine.execN2fLong f x s
  | .bscl f => Sys2Proof.Machine.execBscl f s
  | .bsclLong f x => Sys2Proof.Machine.execBsclLong f x s
  | .frnd f => Sys2Proof.Machine.execFrnd f s
  | .frndLong f x => Sys2Proof.Machine.execFrndLong f x s
  | .mov f => Sys2Proof.Machine.execMov f s
  | .movLong f x => Sys2Proof.Machine.execMovLong f x s
  | .sel f x => Sys2Proof.Machine.execSel f x s
  | .perm f => Sys2Proof.Machine.execPerm f s
  | .permLong f x => Sys2Proof.Machine.execPermLong f x s
  | .iscan f => Sys2Proof.Machine.execIscan f s
  | .iscanLong f x => Sys2Proof.Machine.execIscanLong f x s
  | .fscan f => Sys2Proof.Machine.execFscan f s
  | .fscanLong f x => Sys2Proof.Machine.execFscanLong f x s
  | .ired f => Sys2Proof.Machine.execIred f s
  | .iredLong f x => Sys2Proof.Machine.execIredLong f x s
  | .fred f => Sys2Proof.Machine.execFred f s
  | .fredLong f x => Sys2Proof.Machine.execFredLong f x s
  | .movs f => Sys2Proof.Machine.execMovs f s
  | .movsLong f x => Sys2Proof.Machine.execMovsLong f x s
  | .pmov f => Sys2Proof.Machine.execPmov f s
  | .pmovLong f x => Sys2Proof.Machine.execPmovLong f x s
  | .plog f => Sys2Proof.Machine.execPlog f s
  | .plogLong f x => Sys2Proof.Machine.execPlogLong f x s
  | .ld f => Sys2Proof.Machine.execLd f s
  | .ldLong f x => Sys2Proof.Machine.execLdLong f x s
  | .st f => Sys2Proof.Machine.execSt f s
  | .stLong f x => Sys2Proof.Machine.execStLong f x s
  | .ldu f => Sys2Proof.Machine.execLdu f s
  | .lduLong f x => Sys2Proof.Machine.execLduLong f x s
  | .lda f => Sys2Proof.Machine.execLda f s
  | .ldaLong f x => Sys2Proof.Machine.execLdaLong f x s
  | .stl f => Sys2Proof.Machine.execStl f s
  | .stlLong f x => Sys2Proof.Machine.execStlLong f x s
  | .pref f => Sys2Proof.Machine.execPref f s
  | .prefLong f x => Sys2Proof.Machine.execPrefLong f x s
  | .axch f x => Sys2Proof.Machine.execAxch f x s
  | .acas f x => Sys2Proof.Machine.execAcas f x s
  | .aadd f x => Sys2Proof.Machine.execAadd f x s
  | .amin f x => Sys2Proof.Machine.execAmin f x s
  | .amax f x => Sys2Proof.Machine.execAmax f x s
  | .aand f x => Sys2Proof.Machine.execAand f x s
  | .aor f x => Sys2Proof.Machine.execAor f x s
  | .axor f x => Sys2Proof.Machine.execAxor f x s
  | .afadd f x => Sys2Proof.Machine.execAfadd f x s
  | .radd f x => Sys2Proof.Machine.execRadd f x s
  | .rfadd f x => Sys2Proof.Machine.execRfadd f x s
  | .rmax f x => Sys2Proof.Machine.execRmax f x s
  | .link f => Sys2Proof.Machine.execLink f s
  | .gld f => Sys2Proof.Machine.execGld f s
  | .gmov f => Sys2Proof.Machine.execGmov f s
  | .segq f => Sys2Proof.Machine.execSegq f s
  | .cpy f x => Sys2Proof.Machine.execCpy f x s
  | .cpy2d f x => Sys2Proof.Machine.execCpy2d f x s
  | .fsubFeeder f x => Sys2Proof.Machine.execFsubFeeder f x s
  | .unbind f => Sys2Proof.Machine.execUnbind f s
  | .bind f => Sys2Proof.Machine.execBind f s
  | .tclm f => Sys2Proof.Machine.execTclm f s
  | .trel f => Sys2Proof.Machine.execTrel f s
  | .tld f => Sys2Proof.Machine.execTld f s
  | .mma f x => Sys2Proof.Machine.execMma f x s
  | .mmas f x => Sys2Proof.Machine.execMmas f x s
  | .awin f => Sys2Proof.Machine.execAwin f s
  | .aclr f => Sys2Proof.Machine.execAclr f s
  | .adrn f x => Sys2Proof.Machine.execAdrn f x s
  | .ald f => Sys2Proof.Machine.execAld f s
  | .aldLong f x => Sys2Proof.Machine.execAldLong f x s
  | .ast f => Sys2Proof.Machine.execAst f s
  | .astLong f x => Sys2Proof.Machine.execAstLong f x s
  | .tspawn f => Sys2Proof.Machine.execTspawn f s
  | .tspawnLong f x => Sys2Proof.Machine.execTspawnLong f x s
  | .qpop f => Sys2Proof.Machine.execQpop f s
  | .qpush f => Sys2Proof.Machine.execQpush f s
  | .qcnt f => Sys2Proof.Machine.execQcnt f s
  | .launch f => Sys2Proof.Machine.execLaunch f s
  | .sadd f => Sys2Proof.Machine.execSadd f s
  | .saddLong f x => Sys2Proof.Machine.execSaddLong f x s
  | .ssub f => Sys2Proof.Machine.execSsub f s
  | .ssubLong f x => Sys2Proof.Machine.execSsubLong f x s
  | .smul f => Sys2Proof.Machine.execSmul f s
  | .smulLong f x => Sys2Proof.Machine.execSmulLong f x s
  | .sand f => Sys2Proof.Machine.execSand f s
  | .sandLong f x => Sys2Proof.Machine.execSandLong f x s
  | .sor f => Sys2Proof.Machine.execSor f s
  | .sorLong f x => Sys2Proof.Machine.execSorLong f x s
  | .sxor f => Sys2Proof.Machine.execSxor f s
  | .sxorLong f x => Sys2Proof.Machine.execSxorLong f x s
  | .sshl f => Sys2Proof.Machine.execSshl f s
  | .sshlLong f x => Sys2Proof.Machine.execSshlLong f x s
  | .sshr f => Sys2Proof.Machine.execSshr f s
  | .sshrLong f x => Sys2Proof.Machine.execSshrLong f x s
  | .scmp f => Sys2Proof.Machine.execScmp f s
  | .scmpLong f x => Sys2Proof.Machine.execScmpLong f x s
  | .smovi f => Sys2Proof.Machine.execSmovi f s
  | .smovhi f => Sys2Proof.Machine.execSmovhi f s
  | .ssel f x => Sys2Proof.Machine.execSsel f x s
  | .smin f => Sys2Proof.Machine.execSmin f s
  | .sminLong f x => Sys2Proof.Machine.execSminLong f x s
  | .smax f => Sys2Proof.Machine.execSmax f s
  | .smaxLong f x => Sys2Proof.Machine.execSmaxLong f x s
  | .csrr f => Sys2Proof.Machine.execCsrr f s
  | .csrw f => Sys2Proof.Machine.execCsrw f s
  | .sethand f => Sys2Proof.Machine.execSethand f s
  | .rclaim f => Sys2Proof.Machine.execRclaim f s
  | .rgive f => Sys2Proof.Machine.execRgive f s
  | .ixset f => Sys2Proof.Machine.execIxset f s
  | .nop => Sys2Proof.Machine.execNop s
  | .ret => Sys2Proof.Machine.execRet s
  | .join => Sys2Proof.Machine.execJoin s
  | .exit => Sys2Proof.Machine.execExit s
  | .trap => Sys2Proof.Machine.execTrap s
  | .rtt => Sys2Proof.Machine.execRtt s
  | .brk => Sys2Proof.Machine.execBrk s
  | .yield => Sys2Proof.Machine.execYield s
  | .fence => Sys2Proof.Machine.execFence s
  | .fencex => Sys2Proof.Machine.execFencex s
  | .fend => Sys2Proof.Machine.execFend s
  | .mpair => Sys2Proof.Machine.execMpair s
  | .munpair => Sys2Proof.Machine.execMunpair s
  | .tdone => Sys2Proof.Machine.execTdone s
  | .tabort => Sys2Proof.Machine.execTabort s
  | .tserial => Sys2Proof.Machine.execTserial s
  | .wellfl => Sys2Proof.Machine.execWellfl s
  | .kill => Sys2Proof.Machine.execKill s
  | .powerOn => Sys2Proof.Machine.execPowerOn s
  | .moduleReset => Sys2Proof.Machine.execModuleReset s
  | .stageAdvance => Sys2Proof.Machine.execStageAdvance s
  | .thermalWarning => Sys2Proof.Machine.execThermalWarning s
  | .thermalTrip => Sys2Proof.Machine.execThermalTrip s
  | .marginCheck => Sys2Proof.Machine.execMarginCheck s
  | .stage => Sys2Proof.Machine.execStage s
  | .margin => Sys2Proof.Machine.execMargin s
  | .stagebits => Sys2Proof.Machine.execStagebits s
  | .enrol => Sys2Proof.Machine.execEnrol s
  | .revoke => Sys2Proof.Machine.execRevoke s
  | .unknownMailboxCommand => Sys2Proof.Machine.execUnknownMailboxCommand s
  | .apply => Sys2Proof.Machine.execApply s
  | .retire => Sys2Proof.Machine.execRetire s
  | .fwctlWrite => Sys2Proof.Machine.execFwctlWrite s
  | .linkFlitArrive => Sys2Proof.Machine.execLinkFlitArrive s
  | .linkStopSignal => Sys2Proof.Machine.execLinkStopSignal s
  | .unfreezeResume => Sys2Proof.Machine.execUnfreezeResume s
  | .unfreezeKill => Sys2Proof.Machine.execUnfreezeKill s
  | .fabricRequestArrive => Sys2Proof.Machine.execFabricRequestArrive s
  | .fpctlWrite => Sys2Proof.Machine.execFpctlWrite s
  | .queueEnable => Sys2Proof.Machine.execQueueEnable s
  | .drain => Sys2Proof.Machine.execDrain s
  | .queueDisable => Sys2Proof.Machine.execQueueDisable s
  | .queueDrainDone => Sys2Proof.Machine.execQueueDrainDone s
  | .kick => Sys2Proof.Machine.execKick s
  | .launchStart => Sys2Proof.Machine.execLaunchStart s
  | .launchRetire => Sys2Proof.Machine.execLaunchRetire s
  | .statusWrite => Sys2Proof.Machine.execStatusWrite s
  | .gcmd => Sys2Proof.Machine.execGcmd s
  | .gunreg => Sys2Proof.Machine.execGunreg s
  | .nodeStart => Sys2Proof.Machine.execNodeStart s
  | .nodeFinish => Sys2Proof.Machine.execNodeFinish s
  | .shardReceive => Sys2Proof.Machine.execShardReceive s
  | .generationPublish => Sys2Proof.Machine.execGenerationPublish s
  | .contextStart => Sys2Proof.Machine.execContextStart s
  | .sliceEnd => Sys2Proof.Machine.execSliceEnd s
  | .flashbackTimeout => Sys2Proof.Machine.execFlashbackTimeout s
  | .groupSave => Sys2Proof.Machine.execGroupSave s
  | .groupRestore => Sys2Proof.Machine.execGroupRestore s
  | .clusterPlace => Sys2Proof.Machine.execClusterPlace s
  | .headBlocking => Sys2Proof.Machine.execHeadBlocking s
  | .clauseStart => Sys2Proof.Machine.execClauseStart s
  | .clauseFetchArrive => Sys2Proof.Machine.execClauseFetchArrive s
  | .budgetTick => Sys2Proof.Machine.execBudgetTick s
  | .budgetGraceExpire => Sys2Proof.Machine.execBudgetGraceExpire s
  | .pkctlResume => Sys2Proof.Machine.execPkctlResume s
  | .pkctlKill => Sys2Proof.Machine.execPkctlKill s
  | .fqciWrite => Sys2Proof.Machine.execFqciWrite s
  | .faultRetry => Sys2Proof.Machine.execFaultRetry s
  | .priResponse => Sys2Proof.Machine.execPriResponse s
  | .atsInvalidate => Sys2Proof.Machine.execAtsInvalidate s
  | .tlbinv => Sys2Proof.Machine.execTlbinv s
  | .tlbinvDone => Sys2Proof.Machine.execTlbinvDone s
  | .segsync => Sys2Proof.Machine.execSegsync s
  | .descriptorSyncDone => Sys2Proof.Machine.execDescriptorSyncDone s
  | .rbcmdBind => Sys2Proof.Machine.execRbcmdBind s
  | .rbcmdUnbind => Sys2Proof.Machine.execRbcmdUnbind s
  | .rbcmdUnbindRevoke => Sys2Proof.Machine.execRbcmdUnbindRevoke s
  | .rbcmdRetire => Sys2Proof.Machine.execRbcmdRetire s
  | .contextEnable => Sys2Proof.Machine.execContextEnable s
  | .contextDisable => Sys2Proof.Machine.execContextDisable s
  | .contextKill => Sys2Proof.Machine.execContextKill s
  | .contextIdle => Sys2Proof.Machine.execContextIdle s
  | .eventActArrive => Sys2Proof.Machine.execEventActArrive s
  | .eventCountUpdate => Sys2Proof.Machine.execEventCountUpdate s
  | .eventWake => Sys2Proof.Machine.execEventWake s
  | .queueActArrive => Sys2Proof.Machine.execQueueActArrive s
  | .queueSwapInDone => Sys2Proof.Machine.execQueueSwapInDone s
  | .accessComplete => Sys2Proof.Machine.execAccessComplete s
  | .loadReturn => Sys2Proof.Machine.execLoadReturn s
  | .taskDispatch => Sys2Proof.Machine.execTaskDispatch s
  | .frontierSample => Sys2Proof.Machine.execFrontierSample s
  | .frontierUpdate => Sys2Proof.Machine.execFrontierUpdate s
  | .taskCommit => Sys2Proof.Machine.execTaskCommit s
  | .spillRefill => Sys2Proof.Machine.execSpillRefill s
  | .barrierArrive => Sys2Proof.Machine.execBarrierArrive s
  | .copyStart => Sys2Proof.Machine.execCopyStart s
  | .copyBeat => Sys2Proof.Machine.execCopyBeat s
  | .copyComplete => Sys2Proof.Machine.execCopyComplete s
  | .feederTileLand => Sys2Proof.Machine.execFeederTileLand s
  | .tileLoadLand => Sys2Proof.Machine.execTileLoadLand s
  | .matrixOpStart => Sys2Proof.Machine.execMatrixOpStart s
  | .matrixOpRetire => Sys2Proof.Machine.execMatrixOpRetire s
  | .subarrayGate => Sys2Proof.Machine.execSubarrayGate s
  | .drainComplete => Sys2Proof.Machine.execDrainComplete s
  | .pairBind => Sys2Proof.Machine.execPairBind s
  | .pairEnd => Sys2Proof.Machine.execPairEnd s
  | .claimGrant => Sys2Proof.Machine.execClaimGrant s
  | .deadlockCheck => Sys2Proof.Machine.execDeadlockCheck s
  | .teamRetire => Sys2Proof.Machine.execTeamRetire s
  | .folioRefresh => Sys2Proof.Machine.execFolioRefresh s
  | .uncorrectableError => Sys2Proof.Machine.execUncorrectableError s
  | .registerWrite => Sys2Proof.Machine.execRegisterWrite s
  | .registerReadClear => Sys2Proof.Machine.execRegisterReadClear s
  | .fabricPortLinkTraining => Sys2Proof.Machine.execFabricPortLinkTraining s
  | .fabricRefusalReceive => Sys2Proof.Machine.execFabricRefusalReceive s
  | .atsTranslationCompletion => Sys2Proof.Machine.execAtsTranslationCompletion s

end Sys2Proof.Machine
end

