-- ==== Sys2Proof/Machine/Step.lean ====
section
/-! DEFINITION. One step of the machine: what has come to hold is seen, and then the next thing happens (log 1): an event of the agenda,
a pen at a clause boundary, an instruction that issues, or time that passes. -/

namespace Sys2Proof.Machine

/-- An event happens: the state names it and its row runs. -/
def takeEvent (e : Event) (s : State) : Host.Outcome State Fault Refusal := exec (rowOf e) (s.setSubject e)

/-- The issuer's instruction: its words are decoded, and it runs or they are rejected (R256). -/
def issue (s : State) : Host.Outcome State Fault Refusal :=
  match s.fetched with
  | none => .fault .noIssuer
  | some (.ok i) => exec i s
  | some (.error r) => s.rejected r

/-- A pen has its turn: its group issues, or a clause boundary is seen to. -/
def takeTurn (t : PenTurn) (s : State) : Host.Outcome State Fault Refusal :=
  if t.issues then issue ((s.setIssuer ⟨t.pen.die, t.pen.core, t.slot⟩).grant t.pen)
  else takeEvent (.clauseStart t.pen) s

/-- One step. -/
def step (s0 : State) : Host.Outcome State Fault Refusal :=
  let s := s0.settle
  match s.next with
  | .event t e rest => takeEvent e ((s.setClk t).setAgenda rest)
  | .turn t => takeTurn t (s.setClk t.at_)
  | .pass t => .next (s.setClk t)

/-- The state with the instruction of these bits placed where the next step issues (log 19). -/
def State.withFetchWord (s : State) (nbits w : Nat) : State := s.placeWords (tableWords nbits w).1 (tableWords nbits w).2

end Sys2Proof.Machine
end

