-- ==== Sys2Proof/Safety.lean ====
section
/-! DEFINITION. What a safe run is, and the terms the statements use: an instruction that issues, an instruction that no check
stops, and the state an instruction of a format leaves. -/

namespace Sys2Proof.Machine

/-- What the statements call a sound state: memory is in its canonical form, and so are the tables of groups, cores and dies. -/
def State.sound (s : State) : Bool :=
  Memory.wf s.mem && Tbl.sorted s.groups && Tbl.sorted s.cores && Tbl.sorted s.dies

/-- A step does not stop the machine. -/
def State.goesOn (s : State) : Bool :=
  match step s with
  | .next _ => true
  | .fault _ => false
  | .refused _ => false

/-- The group `g` of slot `k` issues, in clause `c`. -/
def State.issues (s : State) (k : GKey) (g : Group) (c : Clause) : Prop :=
  s.issuer = k ∧ s.group? k = some g ∧ g.clause = some c

/-! ## What an instruction leaves -/

/-- `t` is `s` but for the group of slot `k` and the time its pen is busy: every other group, core, pen and piece of state is as
it was, memory included. -/
def State.onlyGroup (s t : State) (k : GKey) : Prop :=
  t = { s with groups := t.groups, cores := t.cores }
  ∧ (∀ n, n ≠ keyNum k → t.groups.find n = s.groups.find n)
  ∧ (∀ n, n ≠ coreNum k.die k.core → t.cores.find n = s.cores.find n)
  ∧ t.core k.die k.core = { s.core k.die k.core with pens := (t.core k.die k.core).pens }
  ∧ ∀ p, p ≠ k.slot / 4 → (t.core k.die k.core).pens.find p = (s.core k.die k.core).pens.find p

/-- The well is as instructions leave it: its entries rise, entry `j` holds a register whose number is `j` modulo 8, and is
dirty (R122, R123). -/
def Group.wellOk (g : Group) : Prop := Tbl.sorted g.well = true ∧ ∀ e ∈ g.well, e.2.reg % 8 = e.1 ∧ e.2.dirty = true

/-- Format V marks register `n` dead: a named source with its DEAD bit, and a lane active (R126). -/
def VArgs.marks (v : VArgs) (n : Nat) : Prop :=
  (v.deadA = true ∧ specKind v.a = .reg n) ∨ (v.deadB = true ∧ specKind v.b = .reg n) ∨ (v.deadC = true ∧ specKind v.c = .reg n)

/-! ## Format V -/

/-- The shape of an opcode of format V. -/
def shapeOf (op : Nat) : VShape := (vShape op).getD scalar2

/-- The opcode and the operands of an instruction of format V of 13_isa_compute; none for every other row. -/
def vForm (i : Instr) : Option (Nat × VArgs) :=
  match i with
  | .iadd f => some (0x20, vShort f)
  | .iaddLong f x => some (0x20, vLong f x)
  | .isub f => some (0x21, vShort f)
  | .isubLong f x => some (0x21, vLong f x)
  | .imul f => some (0x22, vShort f)
  | .imulLong f x => some (0x22, vLong f x)
  | .imulhs f => some (0x23, vShort f)
  | .imulhsLong f x => some (0x23, vLong f x)
  | .imulhu f => some (0x24, vShort f)
  | .imulhuLong f x => some (0x24, vLong f x)
  | .imad f => some (0x25, vShort f)
  | .imadLong f x => some (0x25, vLong f x)
  | .iaddc f => some (0x26, vShort f)
  | .iaddcLong f x => some (0x26, vLong f x)
  | .iabs f => some (0x27, vShort f)
  | .iabsLong f x => some (0x27, vLong f x)
  | .imin f => some (0x28, vShort f)
  | .iminLong f x => some (0x28, vLong f x)
  | .imax f => some (0x29, vShort f)
  | .imaxLong f x => some (0x29, vLong f x)
  | .iminu f => some (0x2a, vShort f)
  | .iminuLong f x => some (0x2a, vLong f x)
  | .imaxu f => some (0x2b, vShort f)
  | .imaxuLong f x => some (0x2b, vLong f x)
  | .iadds f => some (0x2c, vShort f)
  | .iaddsLong f x => some (0x2c, vLong f x)
  | .icmp f => some (0x2d, vShort f)
  | .icmpLong f x => some (0x2d, vLong f x)
  | .icmpu f => some (0x2e, vShort f)
  | .icmpuLong f x => some (0x2e, vLong f x)
  | .and f => some (0x30, vShort f)
  | .andLong f x => some (0x30, vLong f x)
  | .or f => some (0x31, vShort f)
  | .orLong f x => some (0x31, vLong f x)
  | .xor f => some (0x32, vShort f)
  | .xorLong f x => some (0x32, vLong f x)
  | .andn f => some (0x33, vShort f)
  | .andnLong f x => some (0x33, vLong f x)
  | .shl f => some (0x34, vShort f)
  | .shlLong f x => some (0x34, vLong f x)
  | .shr f => some (0x35, vShort f)
  | .shrLong f x => some (0x35, vLong f x)
  | .sar f => some (0x36, vShort f)
  | .sarLong f x => some (0x36, vLong f x)
  | .rot f => some (0x37, vShort f)
  | .rotLong f x => some (0x37, vLong f x)
  | .popc f => some (0x38, vShort f)
  | .popcLong f x => some (0x38, vLong f x)
  | .clz f => some (0x39, vShort f)
  | .clzLong f x => some (0x39, vLong f x)
  | .brev f => some (0x3a, vShort f)
  | .brevLong f x => some (0x3a, vLong f x)
  | .bfx f => some (0x3b, vShort f)
  | .bfxLong f x => some (0x3b, vLong f x)
  | .bfi f => some (0x3c, vShort f)
  | .bfiLong f x => some (0x3c, vLong f x)
  | .fadd f => some (0x40, vShort f)
  | .faddLong f x => some (0x40, vLong f x)
  | .fsub f => some (0x41, vShort f)
  | .fsubLong f x => some (0x41, vLong f x)
  | .fmul f => some (0x42, vShort f)
  | .fmulLong f x => some (0x42, vLong f x)
  | .ffma f => some (0x43, vShort f)
  | .ffmaLong f x => some (0x43, vLong f x)
  | .fmin f => some (0x44, vShort f)
  | .fminLong f x => some (0x44, vLong f x)
  | .fmax f => some (0x45, vShort f)
  | .fmaxLong f x => some (0x45, vLong f x)
  | .fcmp f => some (0x46, vShort f)
  | .fcmpLong f x => some (0x46, vLong f x)
  | .frcp f => some (0x47, vShort f)
  | .frcpLong f x => some (0x47, vLong f x)
  | .frsq f => some (0x48, vShort f)
  | .frsqLong f x => some (0x48, vLong f x)
  | .fsqrt f => some (0x49, vShort f)
  | .fsqrtLong f x => some (0x49, vLong f x)
  | .fexp2 f => some (0x4a, vShort f)
  | .fexp2Long f x => some (0x4a, vLong f x)
  | .flog2 f => some (0x4b, vShort f)
  | .flog2Long f x => some (0x4b, vLong f x)
  | .fsin f => some (0x4c, vShort f)
  | .fsinLong f x => some (0x4c, vLong f x)
  | .fcos f => some (0x4d, vShort f)
  | .fcosLong f x => some (0x4d, vLong f x)
  | .ftanh f => some (0x4e, vShort f)
  | .ftanhLong f x => some (0x4e, vLong f x)
  | .fclass f => some (0x4f, vShort f)
  | .fclassLong f x => some (0x4f, vLong f x)
  | .hadd2 f => some (0x50, vShort f)
  | .hadd2Long f x => some (0x50, vLong f x)
  | .hmul2 f => some (0x51, vShort f)
  | .hmul2Long f x => some (0x51, vLong f x)
  | .hfma2 f => some (0x52, vShort f)
  | .hfma2Long f x => some (0x52, vLong f x)
  | .hmax2 f => some (0x53, vShort f)
  | .hmax2Long f x => some (0x53, vLong f x)
  | .hmin2 f => some (0x54, vShort f)
  | .hmin2Long f x => some (0x54, vLong f x)
  | .hcmp2 f => some (0x55, vShort f)
  | .hcmp2Long f x => some (0x55, vLong f x)
  | .qdot4 f => some (0x56, vShort f)
  | .qdot4Long f x => some (0x56, vLong f x)
  | .f2i f => some (0x60, vShort f)
  | .f2iLong f x => some (0x60, vLong f x)
  | .i2f f => some (0x61, vShort f)
  | .i2fLong f x => some (0x61, vLong f x)
  | .f2h f => some (0x62, vShort f)
  | .f2hLong f x => some (0x62, vLong f x)
  | .h2f f => some (0x63, vShort f)
  | .h2fLong f x => some (0x63, vLong f x)
  | .f2q f => some (0x64, vShort f)
  | .f2qLong f x => some (0x64, vLong f x)
  | .q2f f => some (0x65, vShort f)
  | .q2fLong f x => some (0x65, vLong f x)
  | .f2n f => some (0x66, vShort f)
  | .f2nLong f x => some (0x66, vLong f x)
  | .n2f f => some (0x67, vShort f)
  | .n2fLong f x => some (0x67, vLong f x)
  | .bscl f => some (0x68, vShort f)
  | .bsclLong f x => some (0x68, vLong f x)
  | .frnd f => some (0x69, vShort f)
  | .frndLong f x => some (0x69, vLong f x)
  | .mov f => some (0x70, vShort f)
  | .movLong f x => some (0x70, vLong f x)
  | .perm f => some (0x72, vShort f)
  | .permLong f x => some (0x72, vLong f x)
  | .iscan f => some (0x73, vShort f)
  | .iscanLong f x => some (0x73, vLong f x)
  | .fscan f => some (0x74, vShort f)
  | .fscanLong f x => some (0x74, vLong f x)
  | .ired f => some (0x75, vShort f)
  | .iredLong f x => some (0x75, vLong f x)
  | .fred f => some (0x76, vShort f)
  | .fredLong f x => some (0x76, vLong f x)
  | .movs f => some (0x77, vShort f)
  | .movsLong f x => some (0x77, vLong f x)
  | .pmov f => some (0x78, vShort f)
  | .pmovLong f x => some (0x78, vLong f x)
  | .plog f => some (0x79, vShort f)
  | .plogLong f x => some (0x79, vLong f x)
  | .sadd f => some (0xd0, vShort f)
  | .saddLong f x => some (0xd0, vLong f x)
  | .ssub f => some (0xd1, vShort f)
  | .ssubLong f x => some (0xd1, vLong f x)
  | .smul f => some (0xd2, vShort f)
  | .smulLong f x => some (0xd2, vLong f x)
  | .sand f => some (0xd3, vShort f)
  | .sandLong f x => some (0xd3, vLong f x)
  | .sor f => some (0xd4, vShort f)
  | .sorLong f x => some (0xd4, vLong f x)
  | .sxor f => some (0xd5, vShort f)
  | .sxorLong f x => some (0xd5, vLong f x)
  | .sshl f => some (0xd6, vShort f)
  | .sshlLong f x => some (0xd6, vLong f x)
  | .sshr f => some (0xd7, vShort f)
  | .sshrLong f x => some (0xd7, vLong f x)
  | .smin f => some (0xdc, vShort f)
  | .sminLong f x => some (0xdc, vLong f x)
  | .smax f => some (0xdd, vShort f)
  | .smaxLong f x => some (0xdd, vLong f x)
  | .scmp f => some (0xd8, vShort f)
  | .scmpLong f x => some (0xd8, vLong f x)
  | .bfn3 f x => some (0x3d, bfn3Args f x)
  | .sel f x => some (0x71, vLong f x)
  | .ssel f x => some (0xdb, vLong f x)
  | _ => none

/-- No check of R256 or R128 stops the instruction, and no pending write stands against it (R104). -/
def Group.clearV (g : Group) (op : Nat) (v : VArgs) : Prop :=
  (vShape op).isSome = true ∧ g.vTrap v op (shapeOf op) = none ∧ g.pending (g.vTouch v (shapeOf op)) = false

/-- The state after an instruction of format V whose effect on its group is `e`: the group takes the effect and steps, and the
pen is busy for the occupancy of R129, for 1 clk where the instruction is uniform. -/
def State.afterV (s : State) (k : GKey) (g : Group) (c : Clause) (op : Nat) (v : VArgs) (e : VEffect) : State :=
  let x := g.applyV v (shapeOf op) e
  s.advance k x.1 c (if (shapeOf op).perLane then g.occupancy (s.vReads k g op v (shapeOf op)) (shapeOf op).extra + x.2.2 else 1) x.2.1

/-- What A, B and C deliver to lane `l`. -/
def State.laneA (s : State) (k : GKey) (g : Group) (op : Nat) (v : VArgs) (l : Nat) : Word := s.deliver k g (v.srcA (shapeOf op)) l
def State.laneB (s : State) (k : GKey) (g : Group) (op : Nat) (v : VArgs) (l : Nat) : Word := s.deliver k g (v.srcB (shapeOf op)) l
def State.laneC (s : State) (k : GKey) (g : Group) (op : Nat) (v : VArgs) (l : Nat) : Word := s.deliver k g (v.srcC (shapeOf op)) l

/-- The OR of the flags of the active lanes (R206). -/
def Group.laneFlags (g : Group) (f : Nat → Flags) : Flags := (lanesOf g.exec).foldl (fun w l => w ||| f l) 0#32

/-- An instruction of format V that no check stops gives lane `l` the result `r` of what its sources deliver, and sets no flag
of its own. -/
def computesAt (op : Nat) (i : Instr) (v : VArgs) (r : Word → Word → Word → Word) : Prop :=
  ∀ s k g c, State.issues s k g c → g.clearV op v →
    exec i s = .next (s.afterV k g c op v (.lanes (Lanes.ofFn fun l => r (s.laneA k g op v l) (s.laneB k g op v l) (s.laneC k g op v l)) 0#32))

/-- So do both forms of an instruction. -/
def computes (op : Nat) (short : VFmt → Instr) (long : VFmt → VLong → Instr) (r : Word → Word → Word → Word) : Prop :=
  (∀ f, computesAt op (short f) (vShort f) r) ∧ ∀ f x, computesAt op (long f x) (vLong f x) r

/-- An instruction of format V whose result depends on the level and on HAND and sets flags (R206). -/
def roundsAt (op : Nat) (i : Instr) (v : VArgs) (r : Nat → Word → Word → Word → Word → Word × Flags) : Prop :=
  ∀ s k g c, State.issues s k g c → g.clearV op v →
    let z (l : Nat) : Word × Flags := r (s.level k g) g.hand (s.laneA k g op v l) (s.laneB k g op v l) (s.laneC k g op v l)
    exec i s = .next (s.afterV k g c op v (.lanes (Lanes.ofFn fun l => (z l).1) (g.laneFlags fun l => (z l).2)))

/-- So do both forms; the result may depend on the word of the instruction, for a mode. -/
def rounds (op : Nat) (short : VFmt → Instr) (long : VFmt → VLong → Instr)
    (r : VFmt → Nat → Word → Word → Word → Word → Word × Flags) : Prop :=
  (∀ f, roundsAt op (short f) (vShort f) (r f)) ∧ ∀ f x, roundsAt op (long f x) (vLong f x) (r f)

/-- An instruction of format V that writes to predicate D[2:0] the result of a test in every active lane and leaves the other
lanes of the predicate. -/
def testsAt (op : Nat) (i : Instr) (v : VArgs) (r : Nat → Word → Word → Word → Bool × Flags) : Prop :=
  ∀ s k g c, State.issues s k g c → g.clearV op v →
    let z (l : Nat) : Bool × Flags := r (s.level k g) g.hand (s.laneA k g op v l) (s.laneB k g op v l)
    exec i s = .next (s.afterV k g c op v (.pred (maskedBits g.exec (g.pred (v.d.toNat % 8)) fun l => (z l).1) (g.laneFlags fun l => (z l).2)))

def tests (op : Nat) (short : VFmt → Instr) (long : VFmt → VLong → Instr) (r : VFmt → Nat → Word → Word → Word → Bool × Flags) : Prop :=
  (∀ f, testsAt op (short f) (vShort f) (r f)) ∧ ∀ f x, testsAt op (long f x) (vLong f x) (r f)

/-- An instruction of format V with the effect `e` on its group. -/
def effectsAt (op : Nat) (i : Instr) (v : VArgs) (e : State → GKey → Group → VEffect) : Prop :=
  ∀ s k g c, State.issues s k g c → g.clearV op v → exec i s = .next (s.afterV k g c op v (e s k g))

def effects (op : Nat) (short : VFmt → Instr) (long : VFmt → VLong → Instr) (e : VArgs → State → GKey → Group → VEffect) : Prop :=
  (∀ f, effectsAt op (short f) (vShort f) (e (vShort f))) ∧ ∀ f x, effectsAt op (long f x) (vLong f x) (e (vLong f x))

/-- A uniform instruction of both forms that writes to scalar D a function of its uniform sources. -/
def uniformly (op : Nat) (short : VFmt → Instr) (long : VFmt → VLong → Instr) (r : Word → Word → Word) : Prop :=
  effects op short long fun v _ _ g => .scalar (some (r (g.uniform v.a) (g.uniform v.b))) 0#32

/-! ## Per-lane accesses (R295 to R309) -/

/-- The fields of a per-lane load, store, atomic or reduction, or of PREF; none for every other row. -/
def memForm (i : Instr) : Option MArgs :=
  match i with
  | .ld f => some (mShort 0x80 f)
  | .ldLong f x => some (mLong 0x80 f x)
  | .st f => some (mShort 0x81 f)
  | .stLong f x => some (mLong 0x81 f x)
  | .ldu f => some (mShort 0x82 f)
  | .lduLong f x => some (mLong 0x82 f x)
  | .lda f => some (mShort 0x83 f)
  | .ldaLong f x => some (mLong 0x83 f x)
  | .stl f => some (mShort 0x84 f)
  | .stlLong f x => some (mLong 0x84 f x)
  | .pref f => some (mShort 0x85 f)
  | .prefLong f x => some (mLong 0x85 f x)
  | .axch f x => some (aLong 0x90 f x)
  | .acas f x => some (aLong 0x91 f x)
  | .aadd f x => some (aLong 0x92 f x)
  | .amin f x => some (aLong 0x93 f x)
  | .amax f x => some (aLong 0x94 f x)
  | .aand f x => some (aLong 0x95 f x)
  | .aor f x => some (aLong 0x96 f x)
  | .axor f x => some (aLong 0x97 f x)
  | .afadd f x => some (aLong 0x98 f x)
  | .radd f x => some (aLong 0x99 f x)
  | .rfadd f x => some (aLong 0x9a f x)
  | .rmax f x => some (aLong 0x9b f x)
  | _ => none

/-- No check of R256 steps 4 to 6 stops the access, and no pending write stands against it (R104). -/
def Group.accessReady (g : Group) (a : MArgs) : Prop :=
  g.pending (g.mTouch a) = false ∧ a.badField = false ∧ a.badSpec = none
  ∧ (mKind a.op ≠ .ldu → ({ g with exec := g.mLanes a }).check128 a.uses = none)
  ∧ (mKind a.op = .ldu → g.check128 (a.usesAt (g.mLanes a)) = none)

/-- The lanes of an access, each with its offset (R140, R300, R304). -/
def Group.accessOffsets (g : Group) (a : MArgs) : List (Nat × Int) :=
  (lanesOf (g.mLanes a)).map fun l => (l, g.laneOfs a ((lowest (g.mLanes a)).getD 0) l)

/-- Nothing makes the access wait: no acquire work, room on LS, and its own order met (R299, R303, R305, R309). -/
def State.accessFree (s : State) (k : GKey) (g : Group) (a : MArgs) : Prop :=
  s.acquiring k g = false ∧ g.ls < 255 ∧ (a.ord = 3 → g.scOut = []) ∧ ((mKind a.op).writes = true → 2 ≤ a.ord → g.released = true) ∧ g.log = []

/-- The access reaches every lane's bytes: no cause of its segment, no fault of a page, no byte in error, and for a speculative
task nothing outside the partition's memory. `xs` is what its lanes reach, `t` the state once they are translated. -/
def State.accessReaches (s : State) (k : GKey) (g : Group) (a : MArgs) (xs : List LaneTry) (t : State) : Prop :=
  s.segCheck (s.whoOf k g) (g.segReg a.g) (mKind a.op).need true a.width a.width (g.accessOffsets a) = none
  ∧ s.tryLanes (s.whoOf k g) (s.team? g.team) (g.segReg a.g) (mKind a.op).need a.width (g.accessOffsets a) = (xs, t)
  ∧ ∀ x ∈ xs, x.fault (mKind a.op) = none ∧ ∃ rs, x.reach = .runs rs
      ∧ (g.speculative = true → (rs.any fun q => q.place.outside) = false) ∧ ((mKind a.op).reads = true → t.spoiled rs = false)

/-- A place of plain memory, where a write changes the bytes of the place and nothing else (R151): no register, nothing of another module, and
not the store that holds the on-chip queues. -/
def Place.plain (p : Place) : Bool :=
  match p with
  | .reg _ _ => false
  | .far _ _ => false
  | .queueStore _ _ => false
  | _ => true

/-- A lane is active and the group is no speculative task: a matrix or queue instruction acts at once (R362, R346). -/
def Group.acts (g : Group) : Prop := g.exec ≠ 0#32 ∧ g.speculative = false

/-- The team of the group owns its core's array, whose accumulators are set to 0 (R211). -/
def State.ownsArray (s : State) (k : GKey) (g : Group) : Prop :=
  (s.arr k.die k.core).owner = some g.team ∧ (s.arr k.die k.core).zeroUntil ≤ s.clk

/-- `f` is an even scalar pair at scalar `n`. -/
def pairAt (f : BitVec 8) (n : Nat) : Prop := f.toNat = 0x80 + n ∧ n % 2 = 0 ∧ n < 64

end Sys2Proof.Machine
end

