-- ==== Sys2Proof/WellFormed.lean ====
section
/-! DEFINITION. Which instructions are well formed: those whose reserved fields are zero and whose codes are assigned, as far as the words
alone say so (R258, R260 to R264). One that is not well formed raises ILL_FIELD where it issues (R256 step 4). An event has no words. -/

namespace Sys2Proof

/-- Format V, word 1: RSVD is zero (R258) and no pattern has the code 7 (R133). -/
def VLong.wf (x : VLong) : Bool := x.rsvd == 0#2 && x.pata != 7#3 && x.patb != 7#3

/-- BFN3's word 1 holds a truth table in place of its first pattern (R260). -/
def VLong.wfTable (x : VLong) : Bool := x.rsvd == 0#2 && x.patb != 7#3

/-- SEL's word 1 begins with a guard byte, whose high bits are zero (R260). -/
def VLong.wfGuard (x : VLong) : Bool := x.wf && x.c.extractLsb' 4 4 == 0#4

/-- Format M, word 1: RSVD is zero and WID is assigned (R258, R261). -/
def MLong.wf (x : MLong) : Bool := x.rsvd == 0#2 && BitVec.ult x.wid 6#3

/-- A load takes no guard (R261). -/
def MFmt.noGuard (f : MFmt) : Bool := f.neg == 0#1 && f.gp == 0#3

/-- Format A, word 1: RSVD is zero and WID is assigned (R258, R261). -/
def ALong.wf (x : ALong) : Bool := x.rsvd == 0#2 && BitVec.ult x.wid 6#3

/-- An atomic other than ACAS has CMP 0x00 (R261). -/
def ALong.noCmp (x : ALong) : Bool := x.wf && x.cmp == 0#8

/-- A reduction returns nothing: its DATA is 0x00 and its KEEP 0 (R261). -/
def MFmt.noData (f : MFmt) (x : ALong) : Bool := f.data == 0#8 && x.keep == 0#1

/-- CALL and DIV take no guard (R262). -/
def CFmt.noGuard (f : CFmt) : Bool := f.neg == 0#1 && f.gp == 0#3

/-- A barrier select (R263): its bits name a barrier of a team, a cluster or a grid. -/
def barrierSelect (n : BitVec 16) : Bool :=
  n.extractLsb' 6 10 == 0#10 && (match (n.extractLsb' 4 2).toNat with
    | 1 => true
    | 2 => n.extractLsb' 3 1 == 0#1
    | 3 => n.extractLsb' 2 2 == 0#2
    | _ => false)

/-- Format Q: the two fields marked 0 are zero (R258). -/
def QFmt.wf (f : QFmt) : Bool := f.z1 == 0#5 && f.z2 == 0#5

/-- Format E, word 1: the fields marked 0 and RSVD are zero (R258). -/
def ELong.wf (x : ELong) : Bool := x.z1 == 0#2 && x.z2 == 0#6 && x.rsvd == 0#2

/-- Format X, word 1: RSVD is zero, and BAR is 0000 or 1nnn (R258). -/
def XLong.wf (x : XLong) : Bool := x.rsvd == 0#2 && (x.bar == 0#4 || x.bar.getLsbD 3)

/-- Format XD: the fields marked 0 and RSVD are zero (R258). -/
def XDFmt.wf (f : XDFmt) : Bool := f.z == 0#4
def XDLong.wf (x : XDLong) : Bool := x.z == 0#21 && x.rsvd == 0#2

/-- Whether a row is an instruction, with words: the others are events. -/
def Instr.hasWords (i : Instr) : Bool :=
  match i with
  | .bra _ => true
  | .bru _ => true
  | .call _ => true
  | .callr _ => true
  | .div _ => true
  | .bar _ => true
  | .bara _ => true
  | .barw _ => true
  | .barexp _ => true
  | .evsig _ => true
  | .evwait _ => true
  | .evtest _ => true
  | .waitp _ => true
  | .elect _ => true
  | .pmask _ => true
  | .iadd _ => true
  | .iaddLong _ _ => true
  | .isub _ => true
  | .isubLong _ _ => true
  | .imul _ => true
  | .imulLong _ _ => true
  | .imulhs _ => true
  | .imulhsLong _ _ => true
  | .imulhu _ => true
  | .imulhuLong _ _ => true
  | .imad _ => true
  | .imadLong _ _ => true
  | .iaddc _ => true
  | .iaddcLong _ _ => true
  | .iabs _ => true
  | .iabsLong _ _ => true
  | .imin _ => true
  | .iminLong _ _ => true
  | .imax _ => true
  | .imaxLong _ _ => true
  | .iminu _ => true
  | .iminuLong _ _ => true
  | .imaxu _ => true
  | .imaxuLong _ _ => true
  | .iadds _ => true
  | .iaddsLong _ _ => true
  | .icmp _ => true
  | .icmpLong _ _ => true
  | .icmpu _ => true
  | .icmpuLong _ _ => true
  | .iaddi _ => true
  | .and _ => true
  | .andLong _ _ => true
  | .or _ => true
  | .orLong _ _ => true
  | .xor _ => true
  | .xorLong _ _ => true
  | .andn _ => true
  | .andnLong _ _ => true
  | .shl _ => true
  | .shlLong _ _ => true
  | .shr _ => true
  | .shrLong _ _ => true
  | .sar _ => true
  | .sarLong _ _ => true
  | .rot _ => true
  | .rotLong _ _ => true
  | .popc _ => true
  | .popcLong _ _ => true
  | .clz _ => true
  | .clzLong _ _ => true
  | .brev _ => true
  | .brevLong _ _ => true
  | .bfx _ => true
  | .bfxLong _ _ => true
  | .bfi _ => true
  | .bfiLong _ _ => true
  | .bfn3 _ _ => true
  | .movi _ => true
  | .movhi _ => true
  | .fadd _ => true
  | .faddLong _ _ => true
  | .fsub _ => true
  | .fsubLong _ _ => true
  | .fmul _ => true
  | .fmulLong _ _ => true
  | .ffma _ => true
  | .ffmaLong _ _ => true
  | .fmin _ => true
  | .fminLong _ _ => true
  | .fmax _ => true
  | .fmaxLong _ _ => true
  | .fcmp _ => true
  | .fcmpLong _ _ => true
  | .frcp _ => true
  | .frcpLong _ _ => true
  | .frsq _ => true
  | .frsqLong _ _ => true
  | .fsqrt _ => true
  | .fsqrtLong _ _ => true
  | .fexp2 _ => true
  | .fexp2Long _ _ => true
  | .flog2 _ => true
  | .flog2Long _ _ => true
  | .fsin _ => true
  | .fsinLong _ _ => true
  | .fcos _ => true
  | .fcosLong _ _ => true
  | .ftanh _ => true
  | .ftanhLong _ _ => true
  | .fclass _ => true
  | .fclassLong _ _ => true
  | .hadd2 _ => true
  | .hadd2Long _ _ => true
  | .hmul2 _ => true
  | .hmul2Long _ _ => true
  | .hfma2 _ => true
  | .hfma2Long _ _ => true
  | .hmax2 _ => true
  | .hmax2Long _ _ => true
  | .hmin2 _ => true
  | .hmin2Long _ _ => true
  | .hcmp2 _ => true
  | .hcmp2Long _ _ => true
  | .qdot4 _ => true
  | .qdot4Long _ _ => true
  | .f2i _ => true
  | .f2iLong _ _ => true
  | .i2f _ => true
  | .i2fLong _ _ => true
  | .f2h _ => true
  | .f2hLong _ _ => true
  | .h2f _ => true
  | .h2fLong _ _ => true
  | .f2q _ => true
  | .f2qLong _ _ => true
  | .q2f _ => true
  | .q2fLong _ _ => true
  | .f2n _ => true
  | .f2nLong _ _ => true
  | .n2f _ => true
  | .n2fLong _ _ => true
  | .bscl _ => true
  | .bsclLong _ _ => true
  | .frnd _ => true
  | .frndLong _ _ => true
  | .mov _ => true
  | .movLong _ _ => true
  | .sel _ _ => true
  | .perm _ => true
  | .permLong _ _ => true
  | .iscan _ => true
  | .iscanLong _ _ => true
  | .fscan _ => true
  | .fscanLong _ _ => true
  | .ired _ => true
  | .iredLong _ _ => true
  | .fred _ => true
  | .fredLong _ _ => true
  | .movs _ => true
  | .movsLong _ _ => true
  | .pmov _ => true
  | .pmovLong _ _ => true
  | .plog _ => true
  | .plogLong _ _ => true
  | .ld _ => true
  | .ldLong _ _ => true
  | .st _ => true
  | .stLong _ _ => true
  | .ldu _ => true
  | .lduLong _ _ => true
  | .lda _ => true
  | .ldaLong _ _ => true
  | .stl _ => true
  | .stlLong _ _ => true
  | .pref _ => true
  | .prefLong _ _ => true
  | .axch _ _ => true
  | .acas _ _ => true
  | .aadd _ _ => true
  | .amin _ _ => true
  | .amax _ _ => true
  | .aand _ _ => true
  | .aor _ _ => true
  | .axor _ _ => true
  | .afadd _ _ => true
  | .radd _ _ => true
  | .rfadd _ _ => true
  | .rmax _ _ => true
  | .link _ => true
  | .gld _ => true
  | .gmov _ => true
  | .segq _ => true
  | .cpy _ _ => true
  | .cpy2d _ _ => true
  | .fsubFeeder _ _ => true
  | .unbind _ => true
  | .bind _ => true
  | .tclm _ => true
  | .trel _ => true
  | .tld _ => true
  | .mma _ _ => true
  | .mmas _ _ => true
  | .awin _ => true
  | .aclr _ => true
  | .adrn _ _ => true
  | .ald _ => true
  | .aldLong _ _ => true
  | .ast _ => true
  | .astLong _ _ => true
  | .tspawn _ => true
  | .tspawnLong _ _ => true
  | .qpop _ => true
  | .qpush _ => true
  | .qcnt _ => true
  | .launch _ => true
  | .sadd _ => true
  | .saddLong _ _ => true
  | .ssub _ => true
  | .ssubLong _ _ => true
  | .smul _ => true
  | .smulLong _ _ => true
  | .sand _ => true
  | .sandLong _ _ => true
  | .sor _ => true
  | .sorLong _ _ => true
  | .sxor _ => true
  | .sxorLong _ _ => true
  | .sshl _ => true
  | .sshlLong _ _ => true
  | .sshr _ => true
  | .sshrLong _ _ => true
  | .scmp _ => true
  | .scmpLong _ _ => true
  | .smovi _ => true
  | .smovhi _ => true
  | .ssel _ _ => true
  | .smin _ => true
  | .sminLong _ _ => true
  | .smax _ => true
  | .smaxLong _ _ => true
  | .csrr _ => true
  | .csrw _ => true
  | .sethand _ => true
  | .rclaim _ => true
  | .rgive _ => true
  | .ixset _ => true
  | .nop => true
  | .ret => true
  | .join => true
  | .exit => true
  | .trap => true
  | .rtt => true
  | .brk => true
  | .yield => true
  | .fence => true
  | .fencex => true
  | .fend => true
  | .mpair => true
  | .munpair => true
  | .tdone => true
  | .tabort => true
  | .tserial => true
  | .wellfl => true
  | .kill => true
  | .powerOn => false
  | .moduleReset => false
  | .stageAdvance => false
  | .thermalWarning => false
  | .thermalTrip => false
  | .marginCheck => false
  | .stage => false
  | .margin => false
  | .stagebits => false
  | .enrol => false
  | .revoke => false
  | .unknownMailboxCommand => false
  | .apply => false
  | .retire => false
  | .fwctlWrite => false
  | .linkFlitArrive => false
  | .linkStopSignal => false
  | .unfreezeResume => false
  | .unfreezeKill => false
  | .fabricRequestArrive => false
  | .fpctlWrite => false
  | .queueEnable => false
  | .drain => false
  | .queueDisable => false
  | .queueDrainDone => false
  | .kick => false
  | .launchStart => false
  | .launchRetire => false
  | .statusWrite => false
  | .gcmd => false
  | .gunreg => false
  | .nodeStart => false
  | .nodeFinish => false
  | .shardReceive => false
  | .generationPublish => false
  | .contextStart => false
  | .sliceEnd => false
  | .flashbackTimeout => false
  | .groupSave => false
  | .groupRestore => false
  | .clusterPlace => false
  | .headBlocking => false
  | .clauseStart => false
  | .clauseFetchArrive => false
  | .budgetTick => false
  | .budgetGraceExpire => false
  | .pkctlResume => false
  | .pkctlKill => false
  | .fqciWrite => false
  | .faultRetry => false
  | .priResponse => false
  | .atsInvalidate => false
  | .tlbinv => false
  | .tlbinvDone => false
  | .segsync => false
  | .descriptorSyncDone => false
  | .rbcmdBind => false
  | .rbcmdUnbind => false
  | .rbcmdUnbindRevoke => false
  | .rbcmdRetire => false
  | .contextEnable => false
  | .contextDisable => false
  | .contextKill => false
  | .contextIdle => false
  | .eventActArrive => false
  | .eventCountUpdate => false
  | .eventWake => false
  | .queueActArrive => false
  | .queueSwapInDone => false
  | .accessComplete => false
  | .loadReturn => false
  | .taskDispatch => false
  | .frontierSample => false
  | .frontierUpdate => false
  | .taskCommit => false
  | .spillRefill => false
  | .barrierArrive => false
  | .copyStart => false
  | .copyBeat => false
  | .copyComplete => false
  | .feederTileLand => false
  | .tileLoadLand => false
  | .matrixOpStart => false
  | .matrixOpRetire => false
  | .subarrayGate => false
  | .drainComplete => false
  | .pairBind => false
  | .pairEnd => false
  | .claimGrant => false
  | .deadlockCheck => false
  | .teamRetire => false
  | .folioRefresh => false
  | .uncorrectableError => false
  | .registerWrite => false
  | .registerReadClear => false
  | .fabricPortLinkTraining => false
  | .fabricRefusalReceive => false
  | .atsTranslationCompletion => false

/-- Whether an instruction is well formed. -/
def Instr.wellFormed (i : Instr) : Bool :=
  match i with
  | .bra _ => true
  | .bru _ => true
  | .call f => f.noGuard
  | .callr _ => true
  | .div f => f.noGuard
  | .bar f => f.s == 0#8 && barrierSelect f.n
  | .bara f => f.s == 0#8 && barrierSelect f.n
  | .barw f => f.s == 0#8 && barrierSelect f.n
  | .barexp f => barrierSelect f.n
  | .evsig f => f.s == 0#8
  | .evwait _ => true
  | .evtest _ => true
  | .waitp _ => true
  | .elect _ => true
  | .pmask _ => true
  | .iadd _ => true
  | .iaddLong _ x => x.wf
  | .isub _ => true
  | .isubLong _ x => x.wf
  | .imul _ => true
  | .imulLong _ x => x.wf
  | .imulhs _ => true
  | .imulhsLong _ x => x.wf
  | .imulhu _ => true
  | .imulhuLong _ x => x.wf
  | .imad _ => true
  | .imadLong _ x => x.wf
  | .iaddc _ => true
  | .iaddcLong _ x => x.wf
  | .iabs _ => true
  | .iabsLong _ x => x.wf
  | .imin _ => true
  | .iminLong _ x => x.wf
  | .imax _ => true
  | .imaxLong _ x => x.wf
  | .iminu _ => true
  | .iminuLong _ x => x.wf
  | .imaxu _ => true
  | .imaxuLong _ x => x.wf
  | .iadds _ => true
  | .iaddsLong _ x => x.wf
  | .icmp _ => true
  | .icmpLong _ x => x.wf
  | .icmpu _ => true
  | .icmpuLong _ x => x.wf
  | .iaddi _ => true
  | .and _ => true
  | .andLong _ x => x.wf
  | .or _ => true
  | .orLong _ x => x.wf
  | .xor _ => true
  | .xorLong _ x => x.wf
  | .andn _ => true
  | .andnLong _ x => x.wf
  | .shl _ => true
  | .shlLong _ x => x.wf
  | .shr _ => true
  | .shrLong _ x => x.wf
  | .sar _ => true
  | .sarLong _ x => x.wf
  | .rot _ => true
  | .rotLong _ x => x.wf
  | .popc _ => true
  | .popcLong _ x => x.wf
  | .clz _ => true
  | .clzLong _ x => x.wf
  | .brev _ => true
  | .brevLong _ x => x.wf
  | .bfx _ => true
  | .bfxLong _ x => x.wf
  | .bfi _ => true
  | .bfiLong _ x => x.wf
  | .bfn3 _ x => x.wfTable
  | .movi _ => true
  | .movhi _ => true
  | .fadd _ => true
  | .faddLong _ x => x.wf
  | .fsub _ => true
  | .fsubLong _ x => x.wf
  | .fmul _ => true
  | .fmulLong _ x => x.wf
  | .ffma _ => true
  | .ffmaLong _ x => x.wf
  | .fmin _ => true
  | .fminLong _ x => x.wf
  | .fmax _ => true
  | .fmaxLong _ x => x.wf
  | .fcmp _ => true
  | .fcmpLong _ x => x.wf
  | .frcp _ => true
  | .frcpLong _ x => x.wf
  | .frsq _ => true
  | .frsqLong _ x => x.wf
  | .fsqrt _ => true
  | .fsqrtLong _ x => x.wf
  | .fexp2 _ => true
  | .fexp2Long _ x => x.wf
  | .flog2 _ => true
  | .flog2Long _ x => x.wf
  | .fsin _ => true
  | .fsinLong _ x => x.wf
  | .fcos _ => true
  | .fcosLong _ x => x.wf
  | .ftanh _ => true
  | .ftanhLong _ x => x.wf
  | .fclass _ => true
  | .fclassLong _ x => x.wf
  | .hadd2 _ => true
  | .hadd2Long _ x => x.wf
  | .hmul2 _ => true
  | .hmul2Long _ x => x.wf
  | .hfma2 _ => true
  | .hfma2Long _ x => x.wf
  | .hmax2 _ => true
  | .hmax2Long _ x => x.wf
  | .hmin2 _ => true
  | .hmin2Long _ x => x.wf
  | .hcmp2 _ => true
  | .hcmp2Long _ x => x.wf
  | .qdot4 _ => true
  | .qdot4Long _ x => x.wf
  | .f2i _ => true
  | .f2iLong _ x => x.wf
  | .i2f _ => true
  | .i2fLong _ x => x.wf
  | .f2h _ => true
  | .f2hLong _ x => x.wf
  | .h2f _ => true
  | .h2fLong _ x => x.wf
  | .f2q _ => true
  | .f2qLong _ x => x.wf
  | .q2f _ => true
  | .q2fLong _ x => x.wf
  | .f2n _ => true
  | .f2nLong _ x => x.wf
  | .n2f _ => true
  | .n2fLong _ x => x.wf
  | .bscl _ => true
  | .bsclLong _ x => x.wf
  | .frnd _ => true
  | .frndLong _ x => x.wf
  | .mov _ => true
  | .movLong _ x => x.wf
  | .sel _ x => x.wfGuard
  | .perm _ => true
  | .permLong _ x => x.wf
  | .iscan _ => true
  | .iscanLong _ x => x.wf
  | .fscan _ => true
  | .fscanLong _ x => x.wf
  | .ired _ => true
  | .iredLong _ x => x.wf
  | .fred _ => true
  | .fredLong _ x => x.wf
  | .movs _ => true
  | .movsLong _ x => x.wf
  | .pmov _ => true
  | .pmovLong _ x => x.wf
  | .plog _ => true
  | .plogLong _ x => x.wf
  | .ld f => f.noGuard
  | .ldLong f x => f.noGuard && x.wf
  | .st _ => true
  | .stLong _ x => x.wf
  | .ldu f => f.noGuard
  | .lduLong f x => f.noGuard && x.wf
  | .lda f => f.noGuard
  | .ldaLong f x => f.noGuard && x.wf
  | .stl _ => true
  | .stlLong _ x => x.wf
  | .pref f => f.noGuard
  | .prefLong f x => f.noGuard && x.wf
  | .axch _ x => x.noCmp
  | .acas _ x => x.wf
  | .aadd _ x => x.noCmp
  | .amin _ x => x.noCmp
  | .amax _ x => x.noCmp
  | .aand _ x => x.noCmp
  | .aor _ x => x.noCmp
  | .axor _ x => x.noCmp
  | .afadd _ x => x.noCmp
  | .radd f x => x.noCmp && f.noData x
  | .rfadd f x => x.noCmp && f.noData x
  | .rmax f x => x.noCmp && f.noData x
  | .link _ => true
  | .gld _ => true
  | .gmov _ => true
  | .segq _ => true
  | .cpy _ x => x.wf
  | .cpy2d _ x => x.wf
  | .fsubFeeder _ x => x.wf
  | .unbind _ => true
  | .bind _ => true
  | .tclm _ => true
  | .trel _ => true
  | .tld _ => true
  | .mma _ x => x.wf
  | .mmas _ x => x.wf
  | .awin _ => true
  | .aclr _ => true
  | .adrn f x => f.wf && x.wf
  | .ald _ => true
  | .aldLong _ x => x.wf
  | .ast _ => true
  | .astLong _ x => x.wf
  | .tspawn f => f.noGuard
  | .tspawnLong f x => f.noGuard && x.wf
  | .qpop f => f.wf
  | .qpush f => f.wf
  | .qcnt f => f.wf
  | .launch _ => true
  | .sadd _ => true
  | .saddLong _ x => x.wf
  | .ssub _ => true
  | .ssubLong _ x => x.wf
  | .smul _ => true
  | .smulLong _ x => x.wf
  | .sand _ => true
  | .sandLong _ x => x.wf
  | .sor _ => true
  | .sorLong _ x => x.wf
  | .sxor _ => true
  | .sxorLong _ x => x.wf
  | .sshl _ => true
  | .sshlLong _ x => x.wf
  | .sshr _ => true
  | .sshrLong _ x => x.wf
  | .scmp _ => true
  | .scmpLong _ x => x.wf
  | .smovi _ => true
  | .smovhi _ => true
  | .ssel _ x => x.wf
  | .smin _ => true
  | .sminLong _ x => x.wf
  | .smax _ => true
  | .smaxLong _ x => x.wf
  | .csrr _ => true
  | .csrw _ => true
  | .sethand _ => true
  | .rclaim _ => true
  | .rgive _ => true
  | .ixset _ => true
  | .nop => true
  | .ret => true
  | .join => true
  | .exit => true
  | .trap => true
  | .rtt => true
  | .brk => true
  | .yield => true
  | .fence => true
  | .fencex => true
  | .fend => true
  | .mpair => true
  | .munpair => true
  | .tdone => true
  | .tabort => true
  | .tserial => true
  | .wellfl => true
  | .kill => true
  | .powerOn => false
  | .moduleReset => false
  | .stageAdvance => false
  | .thermalWarning => false
  | .thermalTrip => false
  | .marginCheck => false
  | .stage => false
  | .margin => false
  | .stagebits => false
  | .enrol => false
  | .revoke => false
  | .unknownMailboxCommand => false
  | .apply => false
  | .retire => false
  | .fwctlWrite => false
  | .linkFlitArrive => false
  | .linkStopSignal => false
  | .unfreezeResume => false
  | .unfreezeKill => false
  | .fabricRequestArrive => false
  | .fpctlWrite => false
  | .queueEnable => false
  | .drain => false
  | .queueDisable => false
  | .queueDrainDone => false
  | .kick => false
  | .launchStart => false
  | .launchRetire => false
  | .statusWrite => false
  | .gcmd => false
  | .gunreg => false
  | .nodeStart => false
  | .nodeFinish => false
  | .shardReceive => false
  | .generationPublish => false
  | .contextStart => false
  | .sliceEnd => false
  | .flashbackTimeout => false
  | .groupSave => false
  | .groupRestore => false
  | .clusterPlace => false
  | .headBlocking => false
  | .clauseStart => false
  | .clauseFetchArrive => false
  | .budgetTick => false
  | .budgetGraceExpire => false
  | .pkctlResume => false
  | .pkctlKill => false
  | .fqciWrite => false
  | .faultRetry => false
  | .priResponse => false
  | .atsInvalidate => false
  | .tlbinv => false
  | .tlbinvDone => false
  | .segsync => false
  | .descriptorSyncDone => false
  | .rbcmdBind => false
  | .rbcmdUnbind => false
  | .rbcmdUnbindRevoke => false
  | .rbcmdRetire => false
  | .contextEnable => false
  | .contextDisable => false
  | .contextKill => false
  | .contextIdle => false
  | .eventActArrive => false
  | .eventCountUpdate => false
  | .eventWake => false
  | .queueActArrive => false
  | .queueSwapInDone => false
  | .accessComplete => false
  | .loadReturn => false
  | .taskDispatch => false
  | .frontierSample => false
  | .frontierUpdate => false
  | .taskCommit => false
  | .spillRefill => false
  | .barrierArrive => false
  | .copyStart => false
  | .copyBeat => false
  | .copyComplete => false
  | .feederTileLand => false
  | .tileLoadLand => false
  | .matrixOpStart => false
  | .matrixOpRetire => false
  | .subarrayGate => false
  | .drainComplete => false
  | .pairBind => false
  | .pairEnd => false
  | .claimGrant => false
  | .deadlockCheck => false
  | .teamRetire => false
  | .folioRefresh => false
  | .uncorrectableError => false
  | .registerWrite => false
  | .registerReadClear => false
  | .fabricPortLinkTraining => false
  | .fabricRefusalReceive => false
  | .atsTranslationCompletion => false

end Sys2Proof
end

