-- ==== Sys2Proof/Certificates/Slice0/Obligations.lean ====
section
/-! DEFINITION. The statements for the provers. Each docstring names the rules of spec/ it rests on; what the model chose is said
with its log entry. -/

open Sys2Proof Sys2Proof.Machine

/-! ## Compute instructions (13_isa_compute) -/

/-- Integer arithmetic (R274): the result of every active lane, in both forms. All but IADDS give it modulo 2^32 and set no flag; IADDS clamps
it to the signed range and sets SATD where it has clamped. -/
def Obligations.IntegerArithmeticResults : Prop :=
  computes 0x20 .iadd .iaddLong (fun a b _ => a + b)
  ∧ computes 0x21 .isub .isubLong (fun a b _ => a - b)
  ∧ computes 0x22 .imul .imulLong (fun a b _ => a * b)
  ∧ computes 0x23 .imulhs .imulhsLong (fun a b _ => BitVec.ofInt 32 (a.toInt * b.toInt / 2 ^ 32))
  ∧ computes 0x24 .imulhu .imulhuLong (fun a b _ => BitVec.ofNat 32 (a.toNat * b.toNat / 2 ^ 32))
  ∧ computes 0x25 .imad .imadLong (fun a b c => a * b + c)
  ∧ computes 0x26 .iaddc .iaddcLong (fun a b c => BitVec.ofNat 32 ((a.toNat + b.toNat + (c &&& 1#32).toNat) / 2 ^ 32))
  ∧ computes 0x27 .iabs .iabsLong (fun a _ _ => BitVec.ofNat 32 a.toInt.natAbs)
  ∧ computes 0x28 .imin .iminLong (fun a b _ => if a.toInt ≤ b.toInt then a else b)
  ∧ computes 0x29 .imax .imaxLong (fun a b _ => if a.toInt ≤ b.toInt then b else a)
  ∧ computes 0x2a .iminu .iminuLong (fun a b _ => if a.toNat ≤ b.toNat then a else b)
  ∧ computes 0x2b .imaxu .imaxuLong (fun a b _ => if a.toNat ≤ b.toNat then b else a)
  ∧ rounds 0x2c .iadds .iaddsLong (fun _ _ _ a b _ =>
      (if 2 ^ 31 ≤ a.toInt + b.toInt then 0x7fffffff#32 else if a.toInt + b.toInt < -2 ^ 31 then 0x80000000#32 else a + b,
       if 2 ^ 31 ≤ a.toInt + b.toInt ∨ a.toInt + b.toInt < -2 ^ 31 then flagSATD else 0#32))

/-- Bitwise instructions, shifts and fields (R276, R277): the result of every active lane, in every form. -/
def Obligations.BitwiseAndShiftResults : Prop :=
  computes 0x30 .and .andLong (fun a b _ => a &&& b)
  ∧ computes 0x31 .or .orLong (fun a b _ => a ||| b)
  ∧ computes 0x32 .xor .xorLong (fun a b _ => a ^^^ b)
  ∧ computes 0x33 .andn .andnLong (fun a b _ => a &&& ~~~b)
  ∧ computes 0x34 .shl .shlLong (fun a b _ => if 32 ≤ b.toNat % 256 then 0#32 else a <<< (b.toNat % 256))
  ∧ computes 0x35 .shr .shrLong (fun a b _ => if 32 ≤ b.toNat % 256 then 0#32 else a >>> (b.toNat % 256))
  ∧ computes 0x36 .sar .sarLong (fun a b _ => a.sshiftRight (min 32 (b.toNat % 256)))
  ∧ computes 0x37 .rot .rotLong (fun a b _ => a.rotateLeft (b.toNat % 32))
  ∧ computes 0x38 .popc .popcLong (fun a _ _ => BitVec.ofNat 32 ((List.range 32).filter fun i => a.getLsbD i).length)
  ∧ computes 0x39 .clz .clzLong (fun a _ _ => BitVec.ofNat 32 (if a = 0#32 then 32 else 31 - Nat.log2 a.toNat))
  ∧ computes 0x3a .brev .brevLong (fun a _ _ => a.reverse)
  ∧ computes 0x3b .bfx .bfxLong (fun a b _ =>
      let p := b.toNat % 32
      let n := min (b.toNat / 256 % 64) (32 - p)
      let ones := BitVec.ofNat 32 (2 ^ n - 1)
      ((a >>> p) &&& ones) ||| (if b.getLsbD 16 ∧ 0 < n ∧ a.getLsbD (p + n - 1) then ~~~ones else 0#32))
  ∧ computes 0x3c .bfi .bfiLong (fun a b c =>
      let p := b.toNat % 32
      let n := min (b.toNat / 256 % 64) (32 - p)
      let mask := BitVec.ofNat 32 (2 ^ n - 1) <<< p
      (c &&& ~~~mask) ||| ((a <<< p) &&& mask))
  ∧ (∀ f x, computesAt 0x3d (.bfn3 f x) (bfn3Args f x) fun a b c =>
      maskedBits 0xffffffff#32 0#32 fun i =>
        Nat.testBit (bfn3Table x) ((a.getLsbD i).toNat + 2 * (b.getLsbD i).toNat + 4 * (c.getLsbD i).toNat))

/-- FP32 arithmetic and functions (R278 to R280, R282): the exact value of the operation, rounded as R203 says at the level in
force, with its flags. -/
def Obligations.FloatResults : Prop :=
  rounds 0x40 .fadd .faddLong (fun _ lv _ a b _ => toWord (addF (ctx32 lv) (f32 a) (f32 b)))
  ∧ rounds 0x41 .fsub .fsubLong (fun _ lv _ a b _ => toWord (subF (ctx32 lv) (f32 a) (f32 b)))
  ∧ rounds 0x42 .fmul .fmulLong (fun _ lv _ a b _ => toWord (mulF (ctx32 lv) (f32 a) (f32 b)))
  ∧ rounds 0x43 .ffma .ffmaLong (fun _ lv _ a b c => toWord (fmaF (ctx32 lv) (f32 a) (f32 b) (f32 c)))
  ∧ rounds 0x44 .fmin .fminLong (fun _ lv _ a b _ => toWord (minMaxF (ctx32 lv) false (f32 a) (f32 b)))
  ∧ rounds 0x45 .fmax .fmaxLong (fun _ lv _ a b _ => toWord (minMaxF (ctx32 lv) true (f32 a) (f32 b)))
  ∧ rounds 0x47 .frcp .frcpLong (fun _ lv _ a _ _ => toWord (funF (ctx32 lv) .rcp (f32 a)))
  ∧ rounds 0x48 .frsq .frsqLong (fun _ lv _ a _ _ => toWord (funF (ctx32 lv) .rsq (f32 a)))
  ∧ rounds 0x49 .fsqrt .fsqrtLong (fun _ lv _ a _ _ => toWord (funF (ctx32 lv) .sqrt (f32 a)))
  ∧ rounds 0x4a .fexp2 .fexp2Long (fun _ lv _ a _ _ => toWord (funF (ctx32 lv) .exp2 (f32 a)))
  ∧ rounds 0x4b .flog2 .flog2Long (fun _ lv _ a _ _ => toWord (funF (ctx32 lv) .log2 (f32 a)))
  ∧ rounds 0x4c .fsin .fsinLong (fun _ lv _ a _ _ => toWord (funF (ctx32 lv) .sin (f32 a)))
  ∧ rounds 0x4d .fcos .fcosLong (fun _ lv _ a _ _ => toWord (funF (ctx32 lv) .cos (f32 a)))
  ∧ rounds 0x4e .ftanh .ftanhLong (fun _ lv _ a _ _ => toWord (funF (ctx32 lv) .tanh (f32 a)))
  ∧ computes 0x4f .fclass .fclassLong (fun a _ _ =>
      let neg := a.getLsbD 31
      let e := a.toNat / 2 ^ 23 % 256
      let m := a.toNat % 2 ^ 23
      1#32 <<< (if e = 255 then (if m = 0 then (if neg then 0 else 7) else if 2 ^ 22 ≤ m then 9 else 8)
        else if e = 0 then (if m = 0 then (if neg then 3 else 4) else if neg then 2 else 5)
        else if neg then 1 else 6))

/-- Packed 16-bit arithmetic and the dot product (R283, R285), in the formats HAND selects. -/
def Obligations.PackedResults : Prop :=
  rounds 0x50 .hadd2 .hadd2Long (fun _ lv hand a b c => packed2 lv hand ((h16Of hand).getD fp16) (fun t x y _ => addF t x y) a b c)
  ∧ rounds 0x51 .hmul2 .hmul2Long (fun _ lv hand a b c => packed2 lv hand ((h16Of hand).getD fp16) (fun t x y _ => mulF t x y) a b c)
  ∧ rounds 0x52 .hfma2 .hfma2Long (fun _ lv hand a b c => packed2 lv hand ((h16Of hand).getD fp16) fmaF a b c)
  ∧ rounds 0x53 .hmax2 .hmax2Long (fun _ lv hand a b c =>
      packed2 lv hand ((h16Of hand).getD fp16) (fun t x y _ => minMaxF t true x y) a b c)
  ∧ rounds 0x54 .hmin2 .hmin2Long (fun _ lv hand a b c =>
      packed2 lv hand ((h16Of hand).getD fp16) (fun t x y _ => minMaxF t false x y) a b c)
  ∧ rounds 0x56 .qdot4 .qdot4Long (fun _ lv hand a b c => qdot4 lv hand ((q8Of hand).getD e4m3) a b c)

/-- Conversions and scaling (R286): the mode is B's immediate code. -/
def Obligations.ConversionResults : Prop :=
  rounds 0x60 .f2i .f2iLong (fun f _ _ a _ _ => (f2i (f.b.toNat - 0xe0) a).getD (0#32, 0#32))
  ∧ rounds 0x61 .i2f .i2fLong (fun f _ _ a _ _ => (i2f (f.b.toNat - 0xe0) a).getD (0#32, 0#32))
  ∧ rounds 0x62 .f2h .f2hLong (fun _ lv hand a b _ => pack2 ((h16Of hand).getD fp16) 16 0#32 lv hand a b)
  ∧ rounds 0x63 .h2f .h2fLong (fun f lv hand a _ _ => widenAt lv hand ((h16Of hand).getD fp16) (f.b.toNat - 0xe0) a)
  ∧ rounds 0x64 .f2q .f2qLong (fun _ lv hand a b c => pack2 ((q8Of hand).getD e4m3) 8 (c <<< 16) lv hand a b)
  ∧ rounds 0x65 .q2f .q2fLong (fun f lv hand a _ _ => widenAt lv hand ((q8Of hand).getD e4m3) (f.b.toNat - 0xe0) a)
  ∧ rounds 0x66 .f2n .f2nLong (fun _ lv hand a b c => pack2 e2m1 4 (c <<< 8) lv hand a b)
  ∧ rounds 0x67 .n2f .n2fLong (fun f lv hand a _ _ => widenAt lv hand e2m1 (f.b.toNat - 0xe0) a)
  ∧ rounds 0x68 .bscl .bsclLong (fun _ lv _ a b _ => bscl lv a b)
  ∧ rounds 0x69 .frnd .frndLong (fun f lv _ a _ _ => (frnd lv (f.b.toNat - 0xe0) a).getD (0#32, 0#32))

/-- Moves between lanes and to a scalar (R287, R288, R290): MOV delivers A; SEL delivers A where its guard is true and B
elsewhere; PERM delivers the lane B[4:0] of A; MOVS writes lane B[4:0] of A, or 0 where that lane is at or above NLANES, and nothing
with EXEC = 0. -/
def Obligations.LaneMoveResults : Prop :=
  computes 0x70 .mov .movLong (fun a _ _ => a)
  ∧ (∀ f x, effectsAt 0x71 (.sel f x) (vLong f x) fun s k g =>
      .lanes (Lanes.ofFn fun l =>
        if (g.pred (x.c.toNat % 8)).getLsbD l != x.c.getLsbD 3 then s.laneA k g 0x71 (vLong f x) l else s.laneB k g 0x71 (vLong f x) l) 0#32)
  ∧ effects 0x72 .perm .permLong (fun v s k g =>
      .lanes (Lanes.ofFn fun l => s.deliverAt k g (v.srcA (shapeOf 0x72)) l (some ((s.laneB k g 0x72 v l).toNat % 32))) 0#32)
  ∧ effects 0x77 .movs .movsLong (fun v s k g =>
      let j := (g.uniform v.b).toNat % 32
      .scalar (if g.exec = 0#32 then none
        else some (if g.nlanes ≤ j then 0#32 else s.deliverAt k g (v.srcA (shapeOf 0x77)) j (some j))) 0#32)

/-- Scans and reductions (R289): the active lanes are combined in ascending order; a scan gives lane l the combination so far, a
reduction gives every active lane, or the scalar D, the last one. -/
def Obligations.ScanAndReductionResults : Prop :=
  let run (op : Nat) (fp : Bool) (v : VArgs) (s : State) (k : GKey) (g : Group) : List (Nat × Word) × Flags :=
    scanLanes (fun a x =>
        if fp then
          let t := ctx32 (s.level k g)
          toWord (match v.b.toNat - 0xe0 with | 0 => addF t (f32 a) (f32 x) | 1 => minMaxF t false (f32 a) (f32 x) | _ => minMaxF t true (f32 a) (f32 x))
        else (match v.b.toNat - 0xe0 with
          | 0 => a + x
          | 1 => if a.toInt ≤ x.toInt then a else x
          | 2 => if a.toInt ≤ x.toInt then x else a
          | 3 => if a.toNat ≤ x.toNat then a else x
          | 4 => if a.toNat ≤ x.toNat then x else a
          | 5 => a &&& x
          | 6 => a ||| x
          | _ => a ^^^ x, 0#32))
      ((lanesOf g.exec).map fun l => (l, s.laneA k g op v l))
  let scan (op : Nat) (fp : Bool) (v : VArgs) (s : State) (k : GKey) (g : Group) : VEffect :=
    .lanes (Lanes.ofFn fun l => (assocGet (run op fp v s k g).1 l).getD 0#32) (run op fp v s k g).2
  let reduce (op : Nat) (fp : Bool) (v : VArgs) (s : State) (k : GKey) (g : Group) : VEffect :=
    let last := (run op fp v s k g).1.getLast?.map (·.2)
    if isScalar v.d then .scalar last (run op fp v s k g).2
    else .lanes (Lanes.ofFn fun _ => last.getD 0#32) (run op fp v s k g).2
  effects 0x73 .iscan .iscanLong (scan 0x73 false) ∧ effects 0x74 .fscan .fscanLong (scan 0x74 true)
  ∧ effects 0x75 .ired .iredLong (reduce 0x75 false) ∧ effects 0x76 .fred .fredLong (reduce 0x76 true)

/-- Per-lane tests (R275, R281, R284, R291): bit l of F[D[2:0]] becomes the test's result in every active lane. -/
def Obligations.LaneTestResults : Prop :=
  let ord (fn : Nat) (a b : Int) : Bool := match fn with
    | 0 => a == b
    | 1 => a != b
    | 2 => decide (a < b)
    | 3 => decide (a ≤ b)
    | 4 => decide (b < a)
    | _ => decide (b ≤ a)
  tests 0x2d .icmp .icmpLong (fun f _ _ a b => (if f.d.toNat / 8 ≤ 5 then ord (f.d.toNat / 8) a.toInt b.toInt else false, 0#32))
  ∧ tests 0x2e .icmpu .icmpuLong (fun f _ _ a b => (if f.d.toNat / 8 ≤ 5 then ord (f.d.toNat / 8) a.toNat b.toNat else false, 0#32))
  ∧ tests 0x46 .fcmp .fcmpLong (fun f _ _ a b => (condF (f.d.toNat / 8) (f32 a) (f32 b)).getD (false, 0#32))
  ∧ tests 0x55 .hcmp2 .hcmp2Long (fun f lv hand a b => condH lv hand ((h16Of hand).getD fp16) (f.d.toNat / 8) a b)
  ∧ tests 0x78 .pmov .pmovLong (fun f _ _ a _ =>
      (match f.d.toNat / 8 with | 0 => a != 0#32 | 1 => a.getLsbD 31 | _ => a.getLsbD 0, 0#32))

/-- Scalar instructions and predicate logic (R292, R293, R294): uniform, whatever EXEC holds. -/
def Obligations.ScalarAndPredicateResults : Prop :=
  uniformly 0xd0 .sadd .saddLong (fun a b => a + b)
  ∧ uniformly 0xd1 .ssub .ssubLong (fun a b => a - b)
  ∧ uniformly 0xd2 .smul .smulLong (fun a b => a * b)
  ∧ uniformly 0xd3 .sand .sandLong (fun a b => a &&& b)
  ∧ uniformly 0xd4 .sor .sorLong (fun a b => a ||| b)
  ∧ uniformly 0xd5 .sxor .sxorLong (fun a b => a ^^^ b)
  ∧ uniformly 0xd6 .sshl .sshlLong (fun a b => if 32 ≤ b.toNat % 256 then 0#32 else a <<< (b.toNat % 256))
  ∧ uniformly 0xd7 .sshr .sshrLong (fun a b => if 32 ≤ b.toNat % 256 then 0#32 else a >>> (b.toNat % 256))
  ∧ uniformly 0xdc .smin .sminLong (fun a b => if a.toInt ≤ b.toInt then a else b)
  ∧ uniformly 0xdd .smax .smaxLong (fun a b => if a.toInt ≤ b.toInt then b else a)
  ∧ (∀ f x, effectsAt 0xdb (.ssel f x) (vLong f x) fun _ _ g =>
      .scalar (some (if g.uniform x.c ≠ 0#32 then g.uniform f.a else g.uniform f.b)) 0#32)
  ∧ effects 0xd8 .scmp .scmpLong (fun v _ _ g =>
      let a := g.uniform v.a
      let b := g.uniform v.b
      let t : Bool := match v.d.toNat / 8 with
        | 0 => a == b
        | 1 => a != b
        | 2 => decide (a.toInt < b.toInt)
        | 3 => decide (a.toInt ≤ b.toInt)
        | 4 => decide (b.toInt < a.toInt)
        | 5 => decide (b.toInt ≤ a.toInt)
        | 6 => decide (a.toNat < b.toNat)
        | 7 => decide (a.toNat ≤ b.toNat)
        | 8 => decide (b.toNat < a.toNat)
        | 9 => decide (b.toNat ≤ a.toNat)
        | _ => false
      .pred (bif t then 0xffffffff#32 else 0#32) 0#32)
  ∧ effects 0x79 .plog .plogLong (fun v _ _ g =>
      let a := g.pred (v.a.toNat % 8)
      let b := g.pred (v.b.toNat % 8)
      .pred (match v.d.toNat / 8 with | 0 => a &&& b | 1 => a ||| b | 2 => a ^^^ b | 3 => a &&& ~~~b | 4 => ~~~a | _ => a) 0#32)

/-- The result of an instruction of format V reaches its destination (R119, R123, R126, R260, R292, R293): the active lanes of a register, or
of the registers that v[i] names, read as the lane result and the others as before, while the well holds what R122 and R123 let it hold; a scalar and a predicate read as their result, the sticky flags include the result's, and F0 still reads all
ones. -/
def Obligations.ResultsReachTheirDestination : Prop :=
  (∀ (s : State) k g c op v r fl, g.wellOk → ∃ h, (s.afterV k g c op v (.lanes r fl)).group? k = some h ∧ h.wellOk
    ∧ ∀ l < 32, (∀ n, g.useReg (useOf v.d false 1) l = some n → g.exec.getLsbD l = true → h.regLane n l = Lanes.at r l)
      ∧ ∀ n, specKind v.d = .reg n → ¬ v.marks n → g.exec.getLsbD l = false → h.regLane n l = g.regLane n l)
  ∧ (∀ (s : State) k g c op v w fl,
    (∃ h, (s.afterV k g c op v (.scalar (some w) fl)).group? k = some h ∧ h.scalar (v.d.toNat - 0x80) = w ∧ h.xout &&& fl = fl)
    ∧ ∃ h, (s.afterV k g c op v (.pred w fl)).group? k = some h ∧ h.pred 0 = 0xffffffff#32
      ∧ (v.d.toNat % 8 ≠ 0 → h.pred (v.d.toNat % 8) = w) ∧ h.xout &&& fl = fl)

/-- The frame of the instructions of format V (R270, R266): an instruction that no check stops answers a next state that
differs from the one before in its own group and its pen's time only, memory included; of the group, only the place where it
stands, the nibs, its destination, the registers it marks dead and the sticky flags may change. -/
def Obligations.VectorFrame : Prop :=
  ∀ (i : Instr) op v s k g c, vForm i = some (op, v) → State.issues s k g c → g.clearV op v → g.wellOk →
    ∃ t h, exec i s = .next t ∧ s.onlyGroup t k ∧ t.group? k = some h
      ∧ h = { g with pc := h.pc, clause := h.clause, pos := h.pos, half := h.half, acted := h.acted, n0 := h.n0, n1 := h.n1, regs := h.regs, dead := h.dead,
                     well := h.well, sc := h.sc, pr := h.pr, xout := h.xout }
      ∧ h.xout &&& g.xout = g.xout
      ∧ (∀ n, (n + 0x80 = v.d.toNat → ∃ m, (shapeOf op).d = .pred m) → h.scalar n = g.scalar n)
      ∧ (∀ f, (f = v.d.toNat % 8 → ∀ m, (shapeOf op).d ≠ .pred m) → h.pred f = g.pred f)
      ∧ ∀ m, specKind v.d ≠ .reg m → (∀ j l, specKind v.d = .index j → g.exec.getLsbD l = true → g.ixReg j l ≠ m) → ¬ v.marks m →
          ∀ l < 32, h.regLane m l = g.regLane m l

/-- An operand outside the register window (R128): whatever the instruction of format V, a source A that names a register
at or above W raises ILL_OPERAND, and a trap is taken with none of the instruction's effect (R270). -/
def Obligations.RegisterOutsideWindowTraps : Prop :=
  ∀ (i : Instr) op v s k g c n, vForm i = some (op, v) → State.issues s k g c →
    v.static op (shapeOf op) = none → g.pending (g.vTouch v (shapeOf op)) = false →
    (∃ q, (shapeOf op).a = .src q) → specKind v.a = .reg n → g.window ≤ n →
    ∃ u, exec i s = .next (s.raise k g { trapOf .illOperand 0#32 with aux := u })

/-! ## Immediate forms, control and the special registers (13_isa_compute, 15_isa_control, 05_execution) -/

/-- The immediate forms (R274, R276, R293): IADDI adds the sign-extended IMM to its destination in every active lane, MOVI writes
it, MOVHI replaces the upper half; SMOVI and SMOVHI do so with a scalar, whatever EXEC holds. -/
def Obligations.ImmediateFormResults : Prop :=
  (∀ (f : VIFmt) s k g c, State.issues s k g c → isLaneDst f.d = true →
    let old (l : Nat) : Word := s.deliver k g { spec := f.d, pat := 0, par := 0, dead := false, kind := .int } l
    let after (reads : Bool) (r : Nat → Word) : State :=
      let x := g.applyV (vShort { d := f.d, a := 0xe0#8, b := 0xe0#8 }) (lane1 .int) (.lanes (Lanes.ofFn r) 0#32)
      s.advance k x.1 c (g.occupancy [useOf f.d reads 1] 0 + x.2.2) x.2.1
    g.pending { regs := g.useRegs [useOf f.d true 1], scalars := [], preds := [] } = false →
    (g.check128 [useOf f.d true 1] = none →
      exec (.iaddi f) s = .next (after true fun l => old l + f.imm.signExtend 32)
      ∧ exec (.movhi f) s = .next (after true fun l => f.imm ++ (old l).extractLsb' 0 16))
    ∧ (g.check128 [useOf f.d false 1] = none → exec (.movi f) s = .next (after false fun _ => f.imm.signExtend 32)))
  ∧ ∀ (f : VIFmt) s k g c n, State.issues s k g c → f.d.toNat = 0x80 + n → n < 64 →
    g.pending { regs := [], scalars := [n], preds := [] } = false →
    exec (.smovi f) s = .next (s.advance k (g.setScalar n (f.imm.signExtend 32)) c 1 none)
    ∧ exec (.smovhi f) s = .next (s.advance k (g.setScalar n (f.imm ++ (g.scalar n).extractLsb' 0 16)) c 1 none)

/-- Branches (R107, R328; that with EXEC = 0 the first row of R107's table is taken is log 67): BRA goes to its target where every active lane takes it and on where none does; where the lanes
part, it splits the top entry of the reconvergence stack, keeps the lanes that go on as the pending path and goes to the target
with the others; without an entry that is not yet split it raises ILL_OPERAND. BRU goes to its target where any active
lane's guard is true. -/
def Obligations.BranchesTakeTheirTarget : Prop :=
  ∀ (f : CFmt) s k g c, State.issues s k g c → g.pending (touchPred f.gp.toNat) = false →
    let t := g.guarded (f.neg = 1#1) f.gp.toNat
    let goal := c.ofsAt g.pos + 4 * f.offs.signExtend 48
    (t = g.exec → exec (.bra f) s = .next (s.jump k g goal 1))
    ∧ (t ≠ g.exec → t = 0#32 → exec (.bra f) s = .next (s.advance k g c 1 none))
    ∧ (t ≠ g.exec → t ≠ 0#32 → ∀ e rest, g.stack = e :: rest → e.split = false →
        exec (.bra f) s = .next (s.jump k { g with
          stack := { e with split := true, ppc := c.next, psel := (g.segReg 15).sel, pmask := g.exec &&& ~~~t } :: rest,
          exec := t, hand := e.h } goal 1))
    ∧ (t ≠ g.exec → t ≠ 0#32 → (∀ e rest, g.stack = e :: rest → e.split = true) →
        exec (.bra f) s = .next (s.raise k g (trapOf .illOperand (auxSpec g 0#8))))
    ∧ (t ≠ 0#32 → exec (.bru f) s = .next (s.jump k g goal 1))
    ∧ (t = 0#32 → exec (.bru f) s = .next (s.advance k g c 1 none))

/-- Calls (R329): CALL saves the offset of the next clause and g15's selector in s60 and s61 and goes to its target; CALLR does so
and enters the segment that a BOUND rubric entry of kind CODE names, at offset 0; RET goes where s60 and s61 say, here within
the segment in g15. -/
def Obligations.CallsSaveAndReturn : Prop :=
  (∀ (f : CFmt) s k g c, State.issues s k g c → g.pending (touchScalars [60, 61]) = false → f.neg = 0#1 → f.gp = 0#3 →
    exec (.call f) s = .next (s.jump k (g.saveReturn c) (c.ofsAt g.pos + 4 * f.offs.signExtend 48) 1))
  ∧ (∀ (f : GFmt) s k g c bs s1 r n s2, State.issues s k g c → g.pending (touchScalars [60, 61]) = false →
      f.s = 0#8 → f.g = 0#4 → s.acquiring k g = false → s.tableHolds k g (s.whoOf k g) (s.rubricLin (s.whoOf k g) f.idx.toNat) 8 = false →
      s.readLin (s.whoOf k g) (s.rubricLin (s.whoOf k g) f.idx.toNat) 8 = (.ok bs, s1) → (entryOf bs).state = 2 →
      s1.selHolds k g (s.whoOf k g) (BitVec.ofNat 16 (entryOf bs).sel) = false →
      s1.loadSeg (s.whoOf k g) g (BitVec.ofNat 16 (entryOf bs).sel) = (.ok (r, n), s2) → r.kind = 1#3 → (r.s = true → g.supervisor = true) →
      exec (.callr f) s = .next (s2.tableClk.2.jump k (Group.acquire { g.saveReturn c with seg := (g.saveReturn c).seg.put 15 r } s.clk 5) 0#48
        (1 + s2.tableClk.1)))
  ∧ (∀ s k g c, State.issues s k g c → g.pending (touchScalars [60, 61]) = false → g.fieldP c = 0#24 →
      (g.scalar 61).extractLsb' 16 16 = (g.segReg 15).sel → (g.segReg 15).sel ≠ 0#16 → (g.scalar 60).extractLsb' 0 2 = 0#2 →
      exec .ret s = .next (s.jump k g ((g.scalar 61).extractLsb' 0 16 ++ g.scalar 60) 1))
  ∧ ∀ (g : Group) (c : Clause), (g.saveReturn c).scalar 60 = c.next.extractLsb' 0 32
      ∧ ((g.saveReturn c).scalar 61).extractLsb' 0 16 = c.next.extractLsb' 32 16
      ∧ ((g.saveReturn c).scalar 61).extractLsb' 16 16 = (g.segReg 15).sel

/-- Reconvergence (R106, R108, R110, R331): DIV pushes an entry with EXEC and HAND; JOIN takes the pending path of a split entry,
or else pops the entry and restores its lanes and HAND, within the population (R97). -/
def Obligations.DivergenceAndReconvergence : Prop :=
  (∀ (f : CFmt) s k g c, State.issues s k g c → f.neg = 0#1 → f.gp = 0#3 → g.stack.length < 16 → g.stack.length + g.spilled < 80 →
    exec (.div f) s = .next (s.advance k { g with
      stack := { pc := c.ofsAt g.pos + 4 * f.offs.signExtend 48, sel := (g.segReg 15).sel, m := g.exec, h := g.hand, split := false,
                 ppc := 0#48, psel := 0#16, pmask := 0#32 } :: g.stack } c 1 none))
  ∧ (∀ s k g c e rest, State.issues s k g c → g.fieldP c = 0#24 → g.stack = e :: rest → e.split = true → e.pmask ≠ 0#32 →
      e.psel = (g.segReg 15).sel →
      exec .join s = .next (s.jump k { g with exec := e.pmask &&& g.population, hand := e.h, stack := { e with pmask := 0#32 } :: rest }
        e.ppc 1))
  ∧ (∀ s k g c e rest, State.issues s k g c → g.fieldP c = 0#24 → g.stack = e :: rest → (e.split = false ∨ e.pmask = 0#32) →
      g.spilled = 0 → e.sel = (g.segReg 15).sel →
      exec .join s = .next (s.jump k { g with exec := e.m &&& g.population, hand := e.h, stack := rest } e.pc 1))
  ∧ ∀ s k g c, State.issues s k g c → g.fieldP c = 0#24 → g.stack = [] →
      exec .join s = .next (s.raise k g (trapOf .illOperand (auxSpec g 0#8)))

/-- EXIT (R109): the lanes that exit leave every entry; where no lane of the group is left the group ends; where the top entry keeps
lanes, the group goes on as after JOIN with them; in a task it ends the task, as TDONE does. -/
def Obligations.ExitEndsLanes : Prop :=
  (∀ s k g c tm, State.issues s k g c → g.fieldP c = 0#24 → g.task = none → g.spilled = 0 → s.team? g.team = some tm →
    (∀ e ∈ g.stack, (e.m ||| e.pmask) &&& ~~~g.exec &&& g.population = 0#32) →
    exec .exit s = .next (s.exitGroup k g))
  ∧ (∀ s k g c tm e rest, State.issues s k g c → g.fieldP c = 0#24 → g.task = none → g.spilled = 0 → s.team? g.team = some tm →
      g.stack = e :: rest → e.split = false → e.m &&& ~~~g.exec &&& g.population ≠ 0#32 → e.sel = (g.segReg 15).sel →
      exec .exit s = .next (s.jump k { g with
        exec := e.m &&& ~~~g.exec &&& g.population, hand := e.h, stack := rest.map (Recon.without · g.exec) } e.pc 1))
  ∧ ∀ s k g c t, State.issues s k g c → g.fieldP c = 0#24 → g.task = some t → exec .exit s = .next (s.taskDone k g)

/-- NOP, YIELD, ELECT and PMASK (R332, R341, R342): NOP only goes on; YIELD ends the group's tenure at the pen; ELECT leaves in its
predicate the lowest active lane alone; PMASK writes the predicate's active bits, or whether any or all are set, or their
number, to a scalar. -/
def Obligations.SmallControlResults : Prop :=
  (∀ s k g c, State.issues s k g c → g.fieldP c = 0#24 →
    exec .nop s = .next (s.advance k g c 1 none)
    ∧ exec .yield s = .next (s.advance k { g with tenure := s.tenq k.die (s.ctxOf g.team) } c 1 none))
  ∧ (∀ (f : BFmt) s k g c, State.issues s k g c → f.n = 0#16 → f.s.toNat < 8 → g.pending (touchPred f.s.toNat) = false →
      exec (.elect f) s = .next (s.advance k (g.setPred f.s.toNat (match lowest g.exec with | some l => 1#32 <<< l | none => 0#32)) c 1 none))
  ∧ (∀ (f : BFmt) s k g c, State.issues s k g c → (f.n ≠ 0#16 ∨ 8 ≤ f.s.toNat) → g.pending (touchPred (f.s.toNat % 8)) = false →
      exec (.elect f) s = .next (s.raise k g (trapOf .illField 0#32)))
  ∧ (∀ (g : Group) w n, (g.setPred n w).pred n = if n = 0 then 0xffffffff#32 else w)
  ∧ (∀ (f : BFmt) s k g c n p, State.issues s k g c → f.s.toNat = 0x80 + n → n < 64 → f.n.toNat < 32 → p = f.n.toNat % 8 →
      g.pending { regs := [], scalars := [n], preds := [p] } = false →
      let b := g.pred p &&& g.exec
      exec (.pmask f) s = .next (s.advance k (g.setScalar n (match f.n.toNat / 8 with
        | 0 => b
        | 1 => if b = 0#32 then 0#32 else 1#32
        | 2 => if b = g.exec then 1#32 else 0#32
        | _ => BitVec.ofNat 32 (lanesOf b).length)) c 1 none))
  ∧ (∀ (f : BFmt) s k g c, State.issues s k g c → g.pend = [] →
      (32 ≤ f.n.toNat → exec (.pmask f) s = .next (s.raise k g (trapOf .illField 0#32)))
      ∧ (f.n.toNat < 32 → isScalar f.s = false → exec (.pmask f) s = .next (s.raise k g (trapOf .illOperand (auxSpec g f.s)))))
  ∧ decodeInstr 0x18010000#32 none = .ok (.elect { s := 0x01#8, n := 0x0000#16 })
  ∧ decodeInstr 0x1985001a#32 none = .ok (.pmask { s := 0x85#8, n := 0x001a#16 })

/-- TRAP and BRK raise TRAPI and BRK with their codes (R333). RTT, BIND and UNBIND raise PRIV in code that has neither handler mode nor supervisor
privilege, and CSRR and CSRW raise PRIV for an address of 0x100 to 0x1ff without supervisor privilege (R324). What raising does is stated below. -/
def Obligations.RaisingInstructionsTrap : Prop :=
  (∀ s k g c, State.issues s k g c →
    ((g.fieldP c).toNat < 256 → exec .trap s = .next (s.raise k g (trapOf .trapi ((g.fieldP c).setWidth 32))))
    ∧ ((g.fieldP c).toNat < 65536 → exec .brk s = .next (s.raise k g (trapOf .brk ((g.fieldP c).setWidth 32)))))
  ∧ (∀ s k g c, State.issues s k g c →
    (g.privileged = false → exec .rtt s = .next (s.raise k g (trapOf .priv 0#32)))
    ∧ (∀ f : GFmt, g.privileged = false → (∀ n, g.pending { regs := [], scalars := n, preds := [] } = false) →
        exec (.bind f) s = .next (s.raise k g (trapOf .priv 0#32)) ∧ exec (.unbind f) s = .next (s.raise k g (trapOf .priv 0#32)))
    ∧ ∀ f : VIFmt, g.supervisor = false → 0x100 ≤ f.imm.toNat % 4096 → f.imm.toNat % 4096 < 0x200 →
        (∀ n, g.pending { regs := [], scalars := n, preds := [] } = false) →
        exec (.csrr f) s = .next (s.raise k g (trapOf .priv 0#32)) ∧ exec (.csrw f) s = .next (s.raise k g (trapOf .priv 0#32)))

/-- Taking an exception (R257, R269, R121, R334): outside a speculative task, with a handler, the group goes to TRAPV in handler
mode, remembers the place, the segment and the privilege it left, and has no nibs; the trap frame at TFRAME begins with the PC and the selector of
the code, its byte 8 is EC, and AUX stands at +0x2c; nothing else of the machine changes but the bytes of the frame and the pen's time. -/
def Obligations.TrapEntersHandler : Prop :=
  ∀ (s : State) k g c x tm, g.clause = some c → (∀ t, g.task = some t → t.spec = false) → s.team? g.team = some tm →
    g.trapv ≠ 0xffffffff#32 → g.handler = none → g.tframe.toNat + 512 ≤ tm.scratchLimit →
    ∃ t h, s.raise k g x = t ∧ t.group? k = some h
      ∧ h.pc = g.trapv.setWidth 48 ∧ h.clause = none ∧ h.n0 = none ∧ h.n1 = none ∧ h.well = []
      ∧ h.handler = some { sel := (g.segReg 15).sel, ofs := c.ofs, pos := g.pos, clause := some c, kind := .instr, sup := (g.segReg 15).s,
                           half := g.half, cause := x.cause, frame := g.tframe, found := none }
      ∧ h.exec = g.exec ∧ h.sc = g.sc ∧ h.pr = g.pr ∧ h.seg = g.seg ∧ h.xout = g.xout ∧ h.stack = g.stack ∧ h.window = g.window
      ∧ (g.wellOk → ∀ n l, l < 32 → h.regLane n l = g.regLane n l)
      ∧ t = { s with groups := t.groups, cores := t.cores, mem := t.mem }
      ∧ (frameHead g x g.pos .instr false).take 6 = leBytes 6 (if g.pos = 15 then c.ofs else c.ofsAt g.pos).toNat
      ∧ ((frameHead g x g.pos .instr false).drop 6).take 2 = leBytes 2 (g.segReg 15).sel.toNat
      ∧ ((frameHead g x g.pos .instr false).drop 8).take 1 = [BitVec.ofNat 8 x.cause.ec]
      ∧ ((frameHead g x g.pos .instr false).drop 0x2c).take 4 = leBytes 4 x.aux.toNat
      ∧ t.mem = ((s.writeScratch tm g.tframe.toNat (frameHead g x g.pos .instr false)).writeScratch tm (g.tframe.toNat + 0x100)
          (nibBytes g.n0 ++ nibBytes g.n1)).mem

/-- Without a handler (R257): where TRAPV is all ones, or the group is in its handler, or the frame does not lie in the team's scratchpad, an exception
ends the group and its team has failed. A speculative task defers its exception (R89): the group leaves its pen and stands parked with the cause
until promotion. -/
def Obligations.TrapWithoutEntry : Prop :=
  (∀ (s : State) k g x tm, (∀ t, g.task = some t → t.spec = false) → s.team? g.team = some tm →
    (g.trapv = 0xffffffff#32 ∨ g.handler ≠ none ∨ tm.scratchLimit < g.tframe.toNat + 512) →
    s.raise k g x = s.killGroup k g)
  ∧ (∀ (s : State) k g x t, g.task = some t → t.spec = true →
    ∃ h, (s.raise k g x).group? k = some h ∧ h.run = .parked (.deferred x g.pos .instr false) ∧ (s.raise k g x).mem = s.mem
      ∧ h.pc = g.pc ∧ h.clause = g.clause ∧ h.pos = g.pos ∧ h.handler = g.handler)

/-- Return from an exception (R257, R334, R324): RTT with privilege returns in the segment the handler was entered from; the group
leaves handler mode with the privilege it had at entry, its nibs read from the frame that the entry wrote (R121), and stands at the recorded
instruction, or, skipping, at the one after it; a cause met at a clause's end, at its decoding or at a header resumes at the recorded place. -/
def Obligations.TrapReturnRestores : Prop :=
  ∀ s k g c hd tm cl, State.issues s k g c → g.privileged = true → (g.fieldP c).toNat < 2 →
    g.handler = some hd → s.team? g.team = some tm → hd.sel = (g.segReg 15).sel → hd.clause = some cl →
    ∃ t h, exec .rtt s = .next t ∧ t.group? k = some h ∧ h.handler = none ∧ (h.segReg 15).s = hd.sup
      ∧ h.exec = hd.found.getD g.exec ∧ h.sc = g.sc ∧ h.pr = g.pr ∧ (g.wellOk → ∀ n l, l < 32 → h.regLane n l = g.regLane n l)
      ∧ (∀ n, n ≠ 15 → h.segReg n = g.segReg n) ∧ t.mem = s.mem
      ∧ (hd.kind = .instr → g.fieldP c = 0#24 → hd.pos < headerCnt cl.hdr → h.clause = some cl ∧ h.pos = hd.pos
          ∧ h.n0 = some (lanesOfBytes (s.readScratch tm (hd.frame.toNat + 0x100) 256))
          ∧ h.n1 = some (lanesOfBytes ((s.readScratch tm (hd.frame.toNat + 0x100) 256).drop 128)))
      ∧ (hd.kind = .instr → g.fieldP c = 1#24 → hd.pos + 1 < headerCnt cl.hdr → h.clause = some cl ∧ h.pos = hd.pos + 1)
      ∧ (hd.kind = .instr → g.fieldP c = 1#24 → headerCnt cl.hdr = hd.pos + 1 → h.clause = none ∧ h.pc = cl.next)
      ∧ (hd.kind ≠ .instr → g.fieldP c = 0#24 → h.clause = none ∧ h.pc = hd.ofs)
      ∧ (hd.kind = .boundary → h.clause = none ∧ h.pc = hd.ofs)
      ∧ (hd.kind = .decode → g.fieldP c = 1#24 → h.clause = none ∧ h.pc = cl.next)
      ∧ (hd.kind = .word → g.fieldP c = 1#24 → h.clause = none ∧ h.pc = hd.ofs + 4)

/-- Barriers (R113, R305, R335, R336): BARA sends the arrival of its group and goes on, in the same clk at the barrier (log 79); BARW goes on once the phase it arrived in has completed, and
leaves the pen until then; BAR arrives and then waits; BAREXP sends the bytes to expect; the arrival needs every earlier access complete. WAITP
(R340) goes on where the path's counter is at most the threshold, or the threshold is 255 or more, and waits otherwise. -/
def Obligations.BarrierAndPathWaits : Prop :=
  (∀ (f : BFmt) s k g c tm b, State.issues s k g c → f.n.toNat < 64 → bselOk (f.n.extractLsb' 0 6) = true → g.task = none →
    s.team? g.team = some tm → (f.n.toNat / 16 = 3 → tm.krec.gres = true) → tm.barrier g.team (f.n.extractLsb' 0 6) = some b →
    let arrive := s.post s.clk (.barrierArrive b (.arrive k g.team))
    let done := s.advance k (g.acquire s.clk (barScope b)) c 1 none
    (f.s = 0#8 → g.released = true → (s.barrier b).arrived.contains k = false →
      exec (.bara f) s = .next (arrive.advance k { g with irrev := true } c 1 none)
      ∧ (g.half = .fresh → exec (.bar f) s = .next (arrive.hold k { g with irrev := true, half := .sent })))
    ∧ (f.s = 0#8 → s.barWait g b = .met →
        exec (.barw f) s = .next done ∧ (g.half ≠ .fresh → exec (.bar f) s = .next done))
    ∧ (f.s = 0#8 → ∀ p, s.barWait g b = .wait p → exec (.barw f) s = .next (s.desched k g (.barrier b p)))
    ∧ (isScalarOrImm f.s = true → g.pending (touchScalars (useScalars [useOf f.s true 1])) = false →
        exec (.barexp f) s = .next ((s.post s.clk (.barrierArrive b (.expect (g.uniform f.s)))).advance k { g with irrev := true } c 1 none)))
  ∧ (∀ (f : BFmt) s k g c, State.issues s k g c → f.n.toNat < 4 → isScalarOrImm f.s = true →
    g.pending (touchScalars (useScalars [useOf f.s true 1])) = false →
    let t := (g.uniform f.s).toNat
    ((255 ≤ t ∨ g.path f.n.toNat ≤ t) → exec (.waitp f) s = .next (s.advance k g c 1 none))
    ∧ (t < 255 → t < g.path f.n.toNat → headerCnt c.hdr ≤ g.pos + 1 → exec (.waitp f) s = .next (s.desched k g (.path f.n.toNat t)))
    ∧ (t < 255 → t < g.path f.n.toNat → g.pos + 1 < headerCnt c.hdr → exec (.waitp f) s = .next (s.hold k g)))

/-- A barrier phase completes (R113): when every present member has arrived and B is not below E, and for a grid no team is
still to be placed, the phase count rises by one, the arrivals and both byte counts start anew, and nothing else of the barrier
table changes; otherwise nothing happens. -/
def Obligations.BarrierPhaseCompletes : Prop :=
  ∀ (s : State) b,
    let complete : Prop := s.members b ≠ [] ∧ (∀ k ∈ s.members b, k ∈ (s.barrier b).arrived) ∧ (s.barrier b).e.toNat ≤ (s.barrier b).b.toNat
      ∧ ∀ l n i, b = .grid l n i → s.unplaced l n = false
    (complete →
      (s.tryPhase b).barrier b = { phase := (s.barrier b).phase + 1, arrived := [], e := 0#32, b := 0#32,
                                   late := if (s.barrier b).e < (s.barrier b).b then (s.barrier b).phase :: (s.barrier b).late
                                           else (s.barrier b).late }
      ∧ (∀ x, x ≠ b → (s.tryPhase b).barrier x = s.barrier x) ∧ (s.tryPhase b).mem = s.mem)
    ∧ (¬complete → s.tryPhase b = s)

/-- Special registers (R352 to R356): CSRR writes the register's value to a scalar, or to a pair for one of 64 bits; CSRW writes EXEC within the
population, HAND, the flags of XOUT, TRAPV, TFRAME, the index windows, the index registers and TENQ; SETHAND writes HAND. CSRW to an address that R352 does
not list, or lists as read-only, raises ILL_OPERAND, and so does a value the register refuses, with the auxiliary word of log 65. -/
def Obligations.SpecialRegisterAccess : Prop :=
  ((∀ (f : VIFmt) s k g c n w, State.issues s k g c → f.d.toNat = 0x80 + n → n < 64 → f.imm.toNat < 4096 →
    (0x100 ≤ f.imm.toNat → f.imm.toNat < 0x200 → g.supervisor = true) →
    g.pending (touchScalars [n, n + 1]) = false → (f.imm.toNat = 2 → g.settled = true) →
    (csrInfo f.imm.toNat = some (32, w) →
      exec (.csrr f) s = .next (s.advance k (g.setScalar n (BitVec.ofNat 32 (s.csrRead k g f.imm.toNat))) c 1 none))
    ∧ (csrInfo f.imm.toNat = some (64, w) → n % 2 = 0 →
      exec (.csrr f) s = .next (s.advance k ((g.setScalar n (BitVec.ofNat 32 (s.csrRead k g f.imm.toNat))).setScalar (n + 1)
        (BitVec.ofNat 32 (s.csrRead k g f.imm.toNat / 2 ^ 32))) c 1 none)))
  ∧ (∀ (f : VIFmt) s k g c, State.issues s k g c → isScalarOrImm f.d = true →
      g.pending (touchScalars (useScalars [useOf f.d true 1])) = false →
      let v := g.uniform f.d
      let goes (h : Group) : Host.Outcome State Fault Refusal := .next (s.advance k h c 1 none)
      (f.imm = 0x000#16 → exec (.csrw f) s = goes { g with exec := v &&& g.population })
      ∧ (f.imm = 0x001#16 → v.toNat < 65536 → exec (.csrw f) s = goes { g with hand := v })
      ∧ (f.imm = 0x002#16 → exec (.csrw f) s = goes { g with xout := v &&& 0x0001001f#32 })
      ∧ (f.imm = 0x010#16 → v = 0xffffffff#32 ∨ v.toNat % 4 = 0 → exec (.csrw f) s = goes { g with trapv := v })
      ∧ (f.imm = 0x011#16 → v.toNat % 64 = 0 → exec (.csrw f) s = goes { g with tframe := v })
      ∧ (∀ j < 4, f.imm.toNat = 0x020 + j → ixwBad v = false → exec (.csrw f) s = goes { g with ixw := g.ixw.put j v })
      ∧ (∀ j < 4, f.imm.toNat = 0x028 + j → exec (.csrw f) s = goes { g with ix := g.ix.put j (ixlLanes v) })
      ∧ (f.imm = 0x100#16 → g.supervisor = true →
          exec (.csrw f) s = .next ((s.putTenq k.die (s.ctxOf g.team) v).advance k g c 1 none)))
  ∧ ∀ (f : VIFmt) s k g c, State.issues s k g c → f.d = 0#8 →
      exec (.sethand f) s = .next (s.advance k { g with hand := f.imm.setWidth 32 } c 1 none))
  ∧ (∀ (f : VIFmt) s k g c, State.issues s k g c → isScalarOrImm f.d = true → f.imm.toNat < 4096 →
    (0x100 ≤ f.imm.toNat → f.imm.toNat < 0x200 → g.supervisor = true) →
    g.pending (touchScalars (useScalars [useOf f.d true 1])) = false →
    ((∀ w, csrInfo f.imm.toNat ≠ some (w, true)) ∨ csrBad f.imm.toNat (g.uniform f.d) = true) →
    exec (.csrw f) s = .next (s.raise k g (trapOf .illOperand (auxSpec g 0#8))))

/-- The register window (R137, R357, R358, R360, R361): RCLAIM raises W where the pen has the registers free and no claim waits
before it, and otherwise leaves the pen with its claim in line, and goes on once it has been granted; RGIVE lowers W and forgets the registers given; IXSET sets an
index window; WELLFL writes back and empties the well entries it names, with every value and every other entry as before; KILL marks a range of registers dead and
leaves the others. The auxiliary word of an IXSET refused is log 65. -/
def Obligations.RegisterWindowResults : Prop :=
  (∀ (f : VIFmt) s k g c, State.issues s k g c → f.d = 0#8 → g.task = none → g.half ≠ .done →
    0 < f.imm.toNat → g.window + f.imm.toNat ≤ 256 →
    (f.imm.toNat ≤ s.freeRegs (penOf k) → (s.pen (penOf k)).claims = [] →
      exec (.rclaim f) s = .next (s.advance k { g.grant f.imm.toNat with irrev := true } c 1 none))
    ∧ (s.freeRegs (penOf k) < f.imm.toNat ∨ (s.pen (penOf k)).claims ≠ [] →
      ∃ t h, exec (.rclaim f) s = .next t ∧ t.group? k = some h ∧ h.run = .waiting (.claim f.imm.toNat) ∧ h.window = g.window
        ∧ h.irrev = true ∧ t.mem = s.mem ∧ (g.wellOk → ∀ m l, l < 32 → h.regLane m l = g.regLane m l) ∧ (k.slot, f.imm.toNat) ∈ (t.pen (penOf k)).claims))
  ∧ (∀ (f : VIFmt) s k g c, State.issues s k g c → f.d = 0#8 → g.task = none →
      (g.half = .done → exec (.rclaim f) s = .next (s.advance k { g with irrev := true } c 1 none))
      ∧ (f.imm = 0#16 → exec (.rgive f) s = .next (s.advance k { g with irrev := true } c 1 none)))
  ∧ (∀ (f : VIFmt) s k g c, State.issues s k g c → f.d = 0#8 → g.task = none → 0 < f.imm.toNat → f.imm.toNat + 8 ≤ g.window →
      (∀ l, g.pending { regs := l, scalars := [], preds := [] } = false) →
      ∃ t h, exec (.rgive f) s = .next t ∧ t.group? k = some h ∧ h.window = g.window - f.imm.toNat ∧ t.mem = s.mem
        ∧ (g.wellOk → ∀ n l, n < h.window → h.regLane n l = g.regLane n l) ∧ ∀ e ∈ h.regs, e.1 < h.window)
  ∧ (∀ (f : VIFmt) s k g c, State.issues s k g c →
      let base := f.imm.toNat % 256
      let len := f.imm.toNat / 256 + 256 * (f.d.toNat / 4)
      (f.d.toNat < 8 → base + len ≤ 256 →
        exec (.ixset f) s = .next (s.advance k { g with ixw := g.ixw.put (f.d.toNat % 4) (BitVec.ofNat 32 (base + 256 * len)) } c 1 none))
      ∧ (f.d.toNat < 8 → 256 < base + len → exec (.ixset f) s = .next (s.raise k g (trapOf .illOperand (auxSpec g 0#8))))
      ∧ (8 ≤ f.d.toNat → exec (.ixset f) s = .next (s.raise k g (trapOf .illField 0#32))))
  ∧ decodeInstr 0xe5010828#32 none = .ok (.ixset { d := 0x01#8, imm := 0x0828#16 })
  ∧ (∀ s k g c, State.issues s k g c → (g.fieldP c).toNat < 256 →
      ∃ h n, exec .wellfl s = .next (s.advance k h c n none) ∧ (∀ e ∈ h.well, (g.fieldP c).getLsbD e.1 = false)
        ∧ (∀ e, (g.fieldP c).getLsbD e.1 = false → (e ∈ h.well ↔ e ∈ g.well))
        ∧ (g.wellOk → ∀ m l, l < 32 → h.regLane m l = g.regLane m l)
        ∧ h = { g with regs := h.regs, well := h.well })
  ∧ ∀ s k g c f n z, State.issues s k g c → (g.fieldP c).toNat = 65536 * f + 256 * n + z → n < 256 → z < 256 →
      (z ≠ 0 ∨ n = 0 ∨ 128 < f + n → exec .kill s = .next (s.raise k g (trapOf .illField 0#32)))
      ∧ (z = 0 → 0 < n → f + n ≤ 128 → g.window < f + n → ∃ u, u.toNat % 256 = max f g.window ∧ exec .kill s = .next (s.raise k g (trapOf .illOperand u)))
      ∧ (z = 0 → 0 < n → f + n ≤ 128 → f + n ≤ g.window → (∀ l, g.pending { regs := l, scalars := [], preds := [] } = false) → g.wellOk →
        ∃ h, exec .kill s = .next (s.advance k h c 1 none) ∧ (∀ r, f ≤ r → r < f + n → r ∈ h.dead)
          ∧ (∀ r, (r < f ∨ f + n ≤ r) → (r ∈ h.dead ↔ r ∈ g.dead)) ∧ h.regs = g.regs
          ∧ (∀ e ∈ h.well, e ∈ g.well ∧ (e.2.reg < f ∨ f + n ≤ e.2.reg))
          ∧ (∀ e ∈ g.well, (e.2.reg < f ∨ f + n ≤ e.2.reg) → e ∈ h.well) ∧ h = { g with dead := h.dead, well := h.well })

/-- A per-lane access issues (R298, R299): a load, store, atomic or reduction that no check stops and nothing makes wait puts its
lanes in flight; PREF, and an access without lanes, only go on (R297, R302). -/
def Obligations.AccessIssues : Prop :=
  ∀ i a s k g c, memForm i = some a → State.issues s k g c → g.accessReady a →
    (g.mLanes a = 0#32 ∨ mKind a.op = .pref → exec i s = .next (s.advance k (g.mDead a) c (g.occupancy a.uses 0) none))
    ∧ ∀ xs t, g.mLanes a ≠ 0#32 → mKind a.op ≠ .pref → s.accessFree k g a → s.accessReaches k g a xs t →
        exec i s = .next (t.launchAccess k g c a (s.whoOf k g) (g.segReg a.g).sel.toNat (g.mLanes a) xs [])

/-- What an access in flight is (R299, R301, R307, R13): LS rises by one, the access holds each lane's bytes and places and the links its request
has to cross, its destinations are pending, and until a lane arrives neither memory nor any scalar, predicate, segment register or mask has
changed, nor any register of the group that the access does not mark dead. In a speculative task ORD has no effect on an atomic (R82). -/
def Obligations.AccessInFlight : Prop :=
  ∀ (s : State) k g c a w sel mask xs,
    (∀ x ∈ xs, ∃ rs, x.reach = .runs rs ∧ ∀ h ∈ (s.pathOf w.die rs).head?, (s.wall h.link).closed = false) → s.group? k = some g →
    let t := s.launchAccess k g c a w sel mask xs []
    t.mem = s.mem ∧ t = { s with groups := t.groups, cores := t.cores, access := t.access, agenda := t.agenda, fabric := t.fabric,
                                 fresh := s.fresh + 1, freeCtr := t.freeCtr }
    ∧ (∀ n, n ≠ keyNum k → t.groups.find n = s.groups.find n)
    ∧ (∃ acc, t.access.find s.fresh = some acc ∧ acc.g = k ∧ acc.kind = (mKind a.op).accKind ∧ acc.width = a.width ∧ acc.dst = g.mDst a
        ∧ acc.ord = (if g.speculative = true ∧ ((mKind a.op).isAtomic = true ∨ (mKind a.op).isReduce = true) then 0 else a.ord) ∧ acc.scope = a.scope
        ∧ ∀ x ∈ xs, ∃ y ∈ acc.lanes, y.lane = x.lane ∧ x.reach = .runs y.runs ∧ y.done = false ∧ y.path = s.pathOf w.die y.runs
            ∧ ((mKind a.op).isStore = true → y.data = s.dataOf k g a.data .int a.width x.lane)
            ∧ (mKind a.op = .atomic .cas → y.data = s.dataOf k g a.val .int a.width x.lane ∧ y.cmp = s.dataOf k g a.cmp .int a.width x.lane))
    ∧ ∃ h, t.group? k = some h ∧ h.lsq = g.lsq ++ [(s.fresh, false)] ∧ h.pend = pendsOf s.fresh a (g.mDst a) (if mKind a.op = .ldu then g.exec else mask) ++ g.pend
        ∧ h.sc = g.sc ∧ h.pr = g.pr ∧ h.seg = g.seg ∧ h.exec = g.exec ∧ h.hand = g.hand ∧ h.xout = g.xout ∧ h.window = g.window
        ∧ h.trapv = g.trapv ∧ h.stack = g.stack ∧ (g.wellOk → ∀ n l, l < 32 → n ∉ h.dead → h.regLane n l = g.regLane n l)

/-- LOAD_RETURN (R299, R301, R295) comes twice for a lane of a load, and what stands between is log 21. First the lane performs, once the lower lanes have (R298): what its places
hold is taken and sets out over the links back, no byte and no group changes, and where no link lies between, what is left of the figure of R299 is
left to the return. Then the data land, little-endian in the registers of the
destination: of its own lane for LD, LDA, of every active lane for LDU, or in a scalar or a pair of them. What has landed is no longer
pending, no other register or lane and no byte of memory changes, and with the last lane the access is complete. -/
def Obligations.LoadReturnLands : Prop :=
  (∀ s id l a x g, s.subject = .loadReturn id l → s.access.find id = some a → (a.lanes.find? fun y => y.lane = l) = some x →
    s.group? a.g = some g → g.task = none → g.team = a.team → x.done = false → x.path = [] → (∀ y ∈ a.lanes, y.lane < l → y.done = true) →
    (∀ h ∈ (s.backOf a.g.die x.runs).head?, (s.wall h.link).closed = false) → s.mustFollow id a x.runs = false → s.refreshEnd x.runs = none → (x.runs.all fun r => r.place.plain) = true →
    ∃ t, exec .loadReturn s = .next t ∧ t.mem = s.mem ∧ t.groups = s.groups
      ∧ t.access.find id = some { a with lanes := a.lanes.map fun y => if y.lane = l then
          { x with done := true, got := some (s.readRuns x.runs), path := s.backOf a.g.die x.runs } else y }
      ∧ ((a.kind = .load ∨ a.kind = .ldu) → s.backOf a.g.die x.runs = [] →
          ∃ due, s.clk + backLeg (s.whoOf a.g g) x.runs ≤ due ∧ (due, Event.loadReturn id l) ∈ t.agenda))
  ∧ ∀ s id l a x g bs, s.subject = .loadReturn id l → s.access.find id = some a → (a.lanes.find? fun y => y.lane = l) = some x →
    s.group? a.g = some g → g.wellOk → g.team = a.team → x.done = true → x.path = [] → x.got = some bs → l < 32 →
    let word (i : Nat) : Word := BitVec.ofNat 32 (leNat ((bs.drop (4 * i)).take 4))
    let n := max 1 (bs.length / 4)
    let to_ : Word := if a.kind = .ldu then a.mask else 1#32 <<< l
    ∃ t h, exec .loadReturn s = .next t ∧ t.group? a.g = some h ∧ t.mem = s.mem
      ∧ (∀ regs, a.dst = .lanes regs → h.sc = g.sc
          ∧ (∀ j i, j < 32 → to_.getLsbD j = true → i < n → h.regLane (regs.getD j 0 + i) j = word i ∧ regs.getD j 0 + i ∉ h.dead)
          ∧ (∀ m, (∀ j < 32, to_.getLsbD j = true → m < regs.getD j 0 ∨ regs.getD j 0 + n ≤ m) → ∀ j < 32, h.regLane m j = g.regLane m j)
          ∧ ∀ p ∈ h.pend, p.id = id → p.lanes &&& to_ = 0#32)
      ∧ (∀ m, a.dst = .scalar m → h.regs = g.regs ∧ h.well = g.well ∧ (∀ j, j ≠ m → j ≠ m + 1 → h.scalar j = g.scalar j)
          ∧ (bs.length ≤ 4 → h.scalar m = word 0 ∧ h.scalar (m + 1) = g.scalar (m + 1))
          ∧ (bs.length = 8 → h.scalar m = word 0 ∧ h.scalar (m + 1) = word 1))
      ∧ h.pr = g.pr ∧ h.seg = g.seg ∧ h.exec = g.exec ∧ h.log = g.log ∧ h.clause = g.clause ∧ h.pos = g.pos
      ∧ (Tbl.sorted s.access = true → (∀ y ∈ a.lanes, y = x ∨ (y.done = true ∧ y.got = none)) → t.access.find id = none)

/-- ACCESS_COMPLETE of a store (R304, R299) comes twice (log 21). First, with its flits arrived and nothing before it, the lanes' bytes are written
in ascending order in one step (log 86), each at its own places, every byte outside those places reads as before, and the group's counter LS does not know of it yet.
Then, after the rest of the figure of R299, LS learns of the access and no byte changes; where the access was the replay of an entry of the side log (R158), the
entry leaves the log and the next is tried. -/
def Obligations.StoreCompletes : Prop :=
  (∀ s id a g, s.subject = .accessComplete id → s.access.find id = some a → s.group? a.g = some g → g.task = none → g.team = a.team →
    a.kind = .store → a.lanes ≠ [] → (∀ x ∈ a.lanes, x.done = false ∧ x.path = []) →
    (∀ x ∈ a.lanes, ∀ h ∈ (s.backOf a.g.die x.runs).head?, (s.wall h.link).closed = false) → s.mustFollow id a (a.lanes.flatMap fun x => x.runs) = false →
    (∀ x ∈ a.lanes, ∀ r ∈ x.runs, r.place.plain = true) → s.domains = [] → s.poison = [] →
    ∃ t due, exec .accessComplete s = .next t
      ∧ t.mem = (a.lanes.foldl (fun u x => u.writeRuns x.runs x.data) s).mem
      ∧ t.group? a.g = some g
      ∧ (∀ p : Place, (∀ x ∈ a.lanes, ∀ r ∈ x.runs, ∀ i < r.len, r.place.key ≠ p.key ∧ (r.place.shift i).key ≠ p.key) → t.readByte p = s.readByte p)
      ∧ (∀ x d o, a.lanes = [x] → x.runs = [{ place := .hbm d o, len := x.data.length }] → Memory.wf s.mem = true →
          t.readBytes (.hbm d o) x.data.length = x.data)
      ∧ (∃ b, t.access.find id = some b ∧ ∀ x ∈ b.lanes, x.done = true ∧ x.path = s.backOf a.g.die x.runs) ∧ s.clk ≤ due ∧ (due, Event.accessComplete id) ∈ t.agenda)
  ∧ ∀ s id a g, s.subject = .accessComplete id → s.access.find id = some a → s.group? a.g = some g → g.team = a.team → a.kind = .store →
    (∀ x ∈ a.lanes, x.done = true ∧ x.got = none ∧ x.path = []) → (∀ tm, s.team? a.team = some tm → ∀ e ∈ tm.logs, e.2.away ≠ some id) →
    ((∀ e ∈ g.log, e.away ≠ some id) → exec .accessComplete s = .next ((s.setAccess (s.access.del id)).putGroup a.g (g.lsDone id)))
    ∧ ∀ e rest, g.log = e :: rest → e.away = some id → (∀ y ∈ rest, y.away ≠ some id) → ∃ t h, exec .accessComplete s = .next t ∧ t.group? a.g = some h
        ∧ h = { g.lsDone id with log := rest } ∧ t.mem = s.mem ∧ t.access = s.access.del id ∧ (s.clk, Event.faultRetry (.sideLog a.g)) ∈ t.agenda

/-- Atomics and reductions (R306, R308, R309): ACCESS_COMPLETE comes twice (log 21); the first of one lane of HBM reads the old value and writes the new one that the
operation gives; the second puts an atomic's old value into the lane. The operations are the exchange, the compare and swap,
the wrapping sum, signed minimum and maximum, and the bitwise ones. -/
def Obligations.AtomicResults : Prop :=
  (∀ s id a g x d o, s.subject = .accessComplete id → s.access.find id = some a → s.group? a.g = some g → g.task = none → g.team = a.team →
    a.lanes = [x] → x.done = false → x.path = [] → x.runs = [{ place := .hbm d o, len := a.width }] →
    (∀ h ∈ (s.backOf a.g.die x.runs).head?, (s.wall h.link).closed = false) → s.mustFollow id a x.runs = false → s.domains = [] →
    s.poison = [] → Memory.wf s.mem = true → ∀ op, a.kind = .atomic op ∨ a.kind = .reduce op →
    ∃ t, exec .accessComplete s = .next t
      ∧ t.readBytes (.hbm d o) a.width = leBytes a.width (atomicNew (((s.ctx a.g.die a.ctx).clev).toNat % 4) op (8 * a.width)
          (leNat (s.readBytes (.hbm d o) a.width)) (leNat x.data) (leNat x.cmp))
      ∧ (∀ p : Place, (∀ i < a.width, (Place.hbm d (o + i)).key ≠ p.key) → t.readByte p = s.readByte p)
      ∧ (∃ due, s.clk ≤ due ∧ (due, Event.accessComplete id) ∈ t.agenda)
      ∧ t.access.find id = some { a with lanes := [{ x with done := true, got := (if a.kind = .atomic op then some (s.readBytes (.hbm d o) a.width) else none),
                                                                path := s.backOf a.g.die x.runs }] })
  ∧ (∀ s id a g x old, s.subject = .accessComplete id → s.access.find id = some a → s.group? a.g = some g → g.team = a.team → g.wellOk →
    a.lanes = [x] → x.done = true → x.path = [] → x.got = some old → old.length = 4 → ∀ op regs, a.kind = .atomic op → a.dst = .lanes regs → x.lane < 32 →
    ∃ t h, exec .accessComplete s = .next t ∧ t.group? a.g = some h ∧ t.mem = s.mem ∧ h.sc = g.sc
      ∧ h.regLane (regs.getD x.lane 0) x.lane = BitVec.ofNat 32 (leNat old)
      ∧ ∀ m, m ≠ regs.getD x.lane 0 → ∀ l < 32, h.regLane m l = g.regLane m l)
  ∧ ∀ l w old val cmp, old < 2 ^ w → val < 2 ^ w → (w = 32 ∨ w = 64) →
      atomicNew l .xch w old val cmp = val
      ∧ atomicNew l .cas w old val cmp = (if old = cmp then val else old)
      ∧ atomicNew l .add w old val cmp = (BitVec.ofNat w old + BitVec.ofNat w val).toNat
      ∧ ((BitVec.ofNat w (atomicNew l .min w old val cmp)).toInt = min (BitVec.ofNat w old).toInt (BitVec.ofNat w val).toInt)
      ∧ ((BitVec.ofNat w (atomicNew l .max w old val cmp)).toInt = max (BitVec.ofNat w old).toInt (BitVec.ofNat w val).toInt)
      ∧ atomicNew l .and w old val cmp = old &&& val ∧ atomicNew l .or w old val cmp = old ||| val ∧ atomicNew l .xor w old val cmp = old ^^^ val
      ∧ (w = 32 → atomicNew l .fadd w old val cmp = (faddWord l (BitVec.ofNat 32 old) (BitVec.ofNat 32 val)).toNat)

/-- Fences (R310, R311, R157, R190): FENCE, and FENCEX between two paths, wait for the side log; FENCE with release or stronger also waits for every earlier access of LS,
and with order 3 for the earlier strong ones; a fence with acquire begins acquire work of its scope, and one that only releases does not. FENCEX
takes 16 clk between two paths, once what a promoted task has drafted is drained; between a path and itself, and in a speculative task (R82), it completes at once. -/
def Obligations.FencesOrder : Prop :=
  ∀ s k g c, State.issues s k g c → s.acquiring k g = false →
    let p := g.fieldP c
    let ord := p.toNat % 4
    let scope := p.toNat / 4 % 8
    (p.toNat < 32 → 1 ≤ ord → 1 ≤ scope → scope ≤ 6 → g.log = [] → (2 ≤ ord → g.released = true) → (ord = 3 → g.scOut = []) →
      exec .fence s = .next (s.advance k (if ord = 2 then g else g.acquire s.clk scope) c 1 none))
    ∧ (p.toNat < 32 → 1 ≤ ord → 1 ≤ scope → scope ≤ 6 → (g.log ≠ [] ∨ (2 ≤ ord ∧ g.released = false)) → exec .fence s = .next (s.hold k g))
    ∧ (32 ≤ p.toNat ∨ ord = 0 ∨ scope = 0 ∨ scope = 7 → exec .fence s = .next (s.raise k g (trapOf .illField 0#32)))
    ∧ (p.toNat < 16 → (g.speculative = true ∨ ord = p.toNat / 4) → exec .fencex s = .next (s.advance k g c 1 none))
    ∧ (p.toNat < 16 → g.speculative = false → ord ≠ p.toNat / 4 →
        (g.log = [] → g.drained = true → exec .fencex s = .next (s.advance k g c 16 none))
        ∧ (g.log ≠ [] ∨ g.drained = false → exec .fencex s = .next (s.hold k g)))
    ∧ (16 ≤ p.toNat → exec .fencex s = .next (s.raise k g (trapOf .illField 0#32)))

/-- Segment registers and rubric entries (R146 to R148, R312 to R315): LINK loads G from the descriptor that a BOUND entry names, and raises LINK for another;
GLD loads it by the selector in a scalar or an immediate; GMOV copies a register; SEGQ answers a word of a descriptor; other segment registers, the lanes and
memory stay. BIND, UNBIND, revoke and retire move an entry as R148 says, another state refuses the act, and the status scalar is 0 or 1 and pending
until the act is complete. Each waits for the group's own accesses in flight to what it reads (R173, R175). -/
def Obligations.SegmentAndRubricResults : Prop :=
  (∀ (f : GFmt) s k g c n, State.issues s k g c → s.acquiring k g = false →
    let w := s.whoOf k g
    let lin := s.rubricLin w f.idx.toNat
    let loads (i : Instr) (u : State) (r : SegReg) : Prop :=
      ∃ t h, exec i s = .next t ∧ t.group? k = some h ∧ h.segReg f.g.toNat = r ∧ (∀ m, m ≠ f.g.toNat → h.segReg m = g.segReg m)
        ∧ h.sc = g.sc ∧ h.regs = g.regs ∧ h.well = g.well ∧ h.pr = g.pr ∧ h.exec = g.exec ∧ t.mem = u.mem
    (∀ bs u r kr v, f.s = 0#8 → f.g ≠ 15#4 → s.tableHolds k g w lin 8 = false → s.readLin w lin 8 = (.ok bs, u) → (entryOf bs).state = 2 →
      u.selHolds k g (u.whoOf k g) (BitVec.ofNat 16 (entryOf bs).sel) = false →
      u.loadSeg (u.whoOf k g) g (BitVec.ofNat 16 (entryOf bs).sel) = (.ok (r, kr), v) → loads (.link f) v r)
    ∧ (f.s = 0#8 → f.g ≠ 15#4 → s.tableHolds k g w lin 8 = true → exec (.link f) s = .next (s.hold k g))
    ∧ (∀ bs u, f.s = 0#8 → f.g ≠ 15#4 → s.tableHolds k g w lin 8 = false → s.readLin w lin 8 = (.ok bs, u) → (entryOf bs).state ≠ 2 → g.speculative = false →
      exec (.link f) s = .next (u.raise k g (linkTrap f.idx.toNat (entryOf bs) lin)))
    ∧ (f.idx = 0#12 → f.g ≠ 15#4 → isScalarOrImm f.s = true → g.pending (touchScalars (useScalars [useOf f.s true 1])) = false →
      (∀ r kr v, s.selHolds k g w ((g.uniform f.s).setWidth 16) = false → s.loadSeg w g ((g.uniform f.s).setWidth 16) = (.ok (r, kr), v) → loads (.gld f) v r)
      ∧ (s.selHolds k g w ((g.uniform f.s).setWidth 16) = true → exec (.gld f) s = .next (s.hold k g)))
    ∧ (∀ src, f.s = 0#8 → f.g ≠ 15#4 → f.idx.toNat = 256 * src → loads (.gmov f) s (g.segReg src))
    ∧ ∀ q, f.s.toNat = 0x80 + n → n < 64 → g.pending { regs := [], scalars := [n], preds := [] } = false → f.idx.toNat = q → q < 3 →
        ((g.segReg f.g.toNat).sel = 0#16 → exec (.segq f) s = .next (s.advance k (g.setScalar n 0#32) c 1 none))
        ∧ ((g.segReg f.g.toNat).sel ≠ 0#16 → (0xfffd ≤ (g.segReg f.g.toNat).sel.toNat ∨ q < 2) →
            exec (.segq f) s = .next (s.advance k (g.setScalar n (segAnswer (g.segReg f.g.toNat) q false)) c 1 none))
        ∧ ((g.segReg f.g.toNat).sel ≠ 0#16 → (g.segReg f.g.toNat).sel.toNat < 0xfffd → q = 2 →
            s.tableHolds k g w (s.descLin w (g.segReg f.g.toNat).sel.toNat) 32 = true → exec (.segq f) s = .next (s.hold k g))
        ∧ ∀ bs u, (g.segReg f.g.toNat).sel ≠ 0#16 → (g.segReg f.g.toNat).sel.toNat < 0xfffd → q = 2 →
            s.tableHolds k g w (s.descLin w (g.segReg f.g.toNat).sel.toNat) 32 = false →
            s.readLin w (s.descLin w (g.segReg f.g.toNat).sel.toNat) 32 = (.ok bs, u) →
            ∃ t h, exec (.segq f) s = .next t ∧ t.group? k = some h ∧ t.mem = u.mem
              ∧ h.scalar n = segAnswer (g.segReg f.g.toNat) q ((decodeDesc (g.segReg f.g.toNat).sel bs).1.gen != (g.segReg f.g.toNat).gen))
  ∧ ((∀ e : Entry, ∀ sel,
    (entryAct (.bind sel) e = if e.state = 0 ∨ e.state = 1 then some ({ e with state := 2, sel := sel }, true) else none)
    ∧ (entryAct .unbind e = if e.state = 2 then some ({ e with state := 0, rgen := e.rgen + 1 }, false) else none)
    ∧ entryAct .revoke e = entryAct .unbind e
    ∧ (e.state < 3 → ∃ b, entryAct .retire e = some ({ e with state := 3, rgen := e.rgen + 1 }, b)) ∧ (e.state = 3 → entryAct .retire e = none))
  ∧ ∀ (f : GFmt) s k g c n m i act, State.issues s k g c → g.privileged = true → g.speculative = false → f.s.toNat = 0x80 + n → n < 64 →
      g.pending { regs := [], scalars := [n, n + 1], preds := [] } = false → g.pending { regs := [], scalars := [n], preds := [] } = false →
      ((i = .bind f ∧ f.g = 0#4 ∧ n % 2 = 0 ∧ m = n + 1 ∧ act = .bind ((g.scalar n).toNat % 65536))
        ∨ (i = .unbind f ∧ m = n ∧ ((f.g = 0#4 ∧ act = .unbind) ∨ (f.g = 1#4 ∧ act = .revoke) ∨ (f.g = 2#4 ∧ act = .retire)))) →
      (s.bindHolds k g (s.whoOf k g) f.idx.toNat act = true → exec i s = .next (s.hold k g))
      ∧ (s.bindHolds k g (s.whoOf k g) f.idx.toNat act = false →
      (∀ e sig u, s.applyBind (s.whoOf k g) f.idx.toNat act = (.applied e sig, u) → ∃ t h, exec i s = .next t ∧ t.group? k = some h
        ∧ h.scalar m = 0#32 ∧ h.pending { regs := [], scalars := [m], preds := [] } = true ∧ t.mem = u.mem ∧ h.regs = g.regs ∧ h.seg = g.seg ∧ h.pr = g.pr)
      ∧ ∀ u, s.applyBind (s.whoOf k g) f.idx.toNat act = (.refused, u) → ∃ t h, exec i s = .next t ∧ t.group? k = some h
        ∧ h.scalar m = 1#32 ∧ h.pending { regs := [], scalars := [m], preds := [] } = true ∧ t.mem = u.mem ∧ h.regs = g.regs ∧ h.seg = g.seg ∧ h.pr = g.pr))

/-- CPY and CPY2D (R317 to R319): once its words and its segments pass, a copy takes a place in the core's engine with its offsets, its
bytes, its rows and their pitches, CE rises by one, and the group goes on; memory changes only as beats move. With 16 commands in the
engine the instruction waits. -/
def Obligations.CopyCommandsIssue : Prop :=
  ∀ (f : EFmt) (x : ELong) s k g c i p q bytes rows sp dp, State.issues s k g c → g.speculative = false → s.acquiring k g = false →
    pairAt f.p p → pairAt f.q q → x.y = 0#8 → x.z1 = 0#2 → x.z2 = 0#6 → x.rsvd = 0#2 → bselOrNone x.bsel = true →
    (i = .cpy f x ∧ isScalarOrImm x.x = true ∧ bytes = (g.uniform x.x).toNat ∧ rows = 1 ∧ sp = 0 ∧ dp = 0
        ∧ g.pending (touchScalars (useScalars [useOf f.p true 2, useOf f.q true 2, useOf x.x true 1])) = false)
      ∨ (∃ n, i = .cpy2d f x ∧ x.x.toNat = 0x80 + 4 * n ∧ n < 16 ∧ bytes = (g.scalar (4 * n)).toNat ∧ rows = (g.scalar (4 * n + 1)).toNat
        ∧ dp = (g.scalar (4 * n + 2)).toNat ∧ sp = (g.scalar (4 * n + 3)).toNat
        ∧ g.pending (touchScalars (useScalars [useOf f.p true 2, useOf f.q true 2, useOf x.x true 4])) = false) →
    (∀ r need at_ pitch, (r = g.segReg f.gs.toNat ∧ need = .read ∧ at_ = g.scalar64 q ∧ pitch = sp)
        ∨ (r = g.segReg f.gd.toNat ∧ need = .write ∧ at_ = g.scalar64 p ∧ pitch = dp) → rows ≠ 0 →
      s.segCheck { s.whoOf k g with copy := true } r need false bytes 1 [(0, (at_ : Int)), (1, ((at_ + (rows - 1) * pitch : Nat) : Int))] = none
      ∧ ∀ i < rows, s.holeAt { s.whoOf k g with copy := true } r (at_ + i * pitch) bytes = false) →
    ((s.copies ⟨k.die, k.core⟩).length < 16 → g.ceq.length < 255 →
      ∃ t h cmd, exec i s = .next t ∧ t.group? k = some h ∧ h.ceq = g.ceq ++ [(s.fresh, false)] ∧ t.mem = s.mem
        ∧ t.copies ⟨k.die, k.core⟩ = s.copies ⟨k.die, k.core⟩ ++ [cmd]
        ∧ cmd.id = s.fresh ∧ cmd.g = k ∧ cmd.src = g.segReg f.gs.toNat ∧ cmd.dst = g.segReg f.gd.toNat ∧ cmd.from_ = g.scalar64 q
        ∧ cmd.into = g.scalar64 p ∧ cmd.bytes = bytes ∧ cmd.rows = (if bytes = 0 then 0 else rows) ∧ cmd.fromPitch = sp ∧ cmd.intoPitch = dp
        ∧ cmd.total = bytes * rows ∧ cmd.running = false
        ∧ h.sc = g.sc ∧ h.regs = g.regs ∧ h.well = g.well ∧ h.pr = g.pr ∧ h.seg = g.seg ∧ h.exec = g.exec ∧ h.lsq = g.lsq ∧ h.me = g.me)
    ∧ (16 ≤ (s.copies ⟨k.die, k.core⟩).length → exec i s = .next (s.hold k g))

/-- Tile slots (R219, R364 to R367): TCLM makes a FREE slot EMPTY for its team and answers 1, and answers 0 for another; TREL makes a FULL
slot without readers EMPTY, or with F FREE, raises SLOT_STATE where R219 says so, and waits for a fill or a reader; TLD makes the slot
FILLING with the image its segment gives at issue (log 96), which lands later. Other slots, the lanes and memory stay. -/
def Obligations.TileSlotResults : Prop :=
  ∀ (f : TFmt) s k g c, State.issues s k g c → g.acts → f.slot.toNat < 96 → s.follower k.die k.core g.team = none →
    let n := f.slot.toNat
    let x := s.tile k.die k.core n
    let frame (t : State) : Prop := t.mem = s.mem ∧ ∀ m, m ≠ n → ∀ y, t.tile k.die y m = s.tile k.die y m
    (∀ st, f.s.toNat = 0x80 + st → st < 64 → f.u = 0#8 → f.fl = 0#1 → g.pending (touchScalars [st]) = false →
      ∃ t h, exec (.tclm f) s = .next t ∧ t.group? k = some h ∧ frame t ∧ h.regs = g.regs ∧ h.seg = g.seg ∧ h.pr = g.pr
        ∧ (x.state = .free → h.scalar st = 1#32 ∧ t.tile k.die k.core n = { Tile.reset with state := .empty, owner := g.team })
        ∧ (x.state ≠ .free → h.scalar st = 0#32 ∧ t.tile k.die k.core n = x)
        ∧ ∀ m, m ≠ st → h.scalar m = g.scalar m)
    ∧ (f.s = 0#8 → f.u = 0#8 →
      (∀ y, x.trel g.team (f.fl == 1#1) = .ok y →
        exec (.trel f) s = .next (((s.putTile k.die k.core n y).advance k { g with irrev := true } c 1 none).feederPoke k.die))
      ∧ (x.trel g.team (f.fl == 1#1) = .wait → exec (.trel f) s = .next (s.hold k g))
      ∧ (x.trel g.team (f.fl == 1#1) = .bad →
        exec (.trel f) s = .next (s.raise k g (trapOf .slotState (BitVec.ofNat 32 (n + 256 * x.state.code)))))
      ∧ (x.state = .full → x.owner = g.team → x.readers = 0 → f.fl = 1#1 → x.ring = false → x.trel g.team true = .ok Tile.reset)
      ∧ (x.state = .full → x.owner = g.team → x.readers = 0 → ∃ y, x.trel g.team false = .ok y ∧ y.state = .empty ∧ y.owner = x.owner))
    ∧ ∀ rs u o len, f.u.toNat % 16 = 0 → isScalarOrImm f.s = true → g.pending (touchScalars (useScalars [useOf f.s true 1])) = false →
        s.acquiring k g = false → o = (g.uniform f.s).toNat → o % 64 = 0 → len = (if f.fl = 1#1 then 20488 else 16384) →
        s.segCheck (s.whoOf k g) (g.segReg (f.u.toNat / 16)) .read true len 1 [(0, (o : Int))] = none →
        s.reachSeg (s.whoOf k g) (s.team? g.team) (g.segReg (f.u.toNat / 16)) .image o len = (.runs rs, u) →
        u.refreshEnd rs = none → u.spoiled rs = false → u.tile k.die k.core n = x →
        x.ownedBy g.team = true → x.state = .empty → x.ring = false → (u.readRuns rs).length = len → u.mem = s.mem →
        (∀ y m, u.tile k.die y m = s.tile k.die y m) →
        ∃ t, exec (.tld f) s = .next t ∧ frame t ∧ (t.tile k.die k.core n).state = .filling
          ∧ (∀ j < len, (t.tile k.die k.core n).bytes.get 0#8 j = (u.readRuns rs).getD j 0#8)
          ∧ ∃ due, (due, Event.tileLoadLand ⟨k.die, k.core⟩ n) ∈ t.agenda

/-- The feeders (R220 to R223, R321, R322): FSUB reads the walk descriptor and, its ring's slots EMPTY, the team's and outside every ring, binds the
lowest free feeder to the walk, flags the ring, and FD rises by NT, the feeder then looks for its first tile; a ring slot that is not so raises
SLOT_STATE, a bad descriptor and an FD counter above 255 raise ILL_OPERAND, a pair walk without a pair raises PAIR, and without a free feeder the
group leaves the pen. FEND ends the team's subscription whose ring base it names: FD falls by what is not delivered, the ring's flags clear, and
the feeder is free, or free once the tile on its way has landed; without one it has no effect. -/
def Obligations.FeederInstructionResults : Prop :=
  (∀ (f : EFmt) (x : ELong) s k g c p rs u, State.issues s k g c → g.speculative = false → s.acquiring k g = false →
    pairAt f.p p → g.pending (touchScalars (useScalars [useOf f.p true 2, useOf x.x true 1])) = false →
    f.gs = 0#4 → x.y = 0#8 → x.z1 = 0#2 → x.z2 = 0#6 → x.rsvd = 0#2 → f.q.toNat < 96 → bselOrNone x.bsel = true → isScalarOrImm x.x = true →
    1 ≤ (g.uniform x.x).toNat → (g.uniform x.x).toNat ≤ 16 →
    s.segCheck (s.whoOf k g) (g.segReg f.gd.toNat) .read true 64 64 [(0, (g.scalar64 p : Int))] = none →
    s.reachSeg (s.whoOf k g) (s.team? g.team) (g.segReg f.gd.toNat) .read (g.scalar64 p) 64 = (.runs rs, u) →
    g.logOverlaps (g.segReg f.gd.toNat).sel.toNat ((g.segReg f.gd.toNat).base.toNat + g.scalar64 p) 64 = false → u.readHolds k g rs = false → u.spoiled rs = false →
    let v := (u.loadRuns rs).2.tableClk.2
    let d := walkOf (u.loadRuns rs).1
    let n := (g.uniform x.x).toNat
    let ring := (List.range n).map (f.q.toNat + ·)
    let fol := v.follower k.die k.core g.team
    let cores := k.core :: (if d.pair = true then fol.toList else [])
    let clear : Prop := ∀ m ∈ cores, v.ringBad k.die m g.team ring = none
    (clear → d.bad = false → g.fd + d.nt ≤ 255 → (d.pair = true → fol ≠ none) → ∀ fd, v.freeFeeder k.die = some fd →
      ∃ (w : State) (h : Group) (z : Feeder), exec (.fsubFeeder f x) s = .next (w.feederTry k.die fd false)
        ∧ w.group? k = some h ∧ h.fd = g.fd + d.nt ∧ h.sc = g.sc ∧ h.regs = g.regs ∧ h.well = g.well ∧ h.pr = g.pr ∧ h.seg = g.seg ∧ w.mem = v.mem
        ∧ (w.die k.die).feeders.find fd = some z ∧ z.g = k ∧ z.team = g.team ∧ z.base = f.q.toNat ∧ z.len = n ∧ z.nt = d.nt ∧ z.dbase = d.dbase
        ∧ z.pitch = d.pitch ∧ z.tstep = d.tstep ∧ z.sbase = d.sbase ∧ z.spitch = d.spitch ∧ z.bbase = d.bbase ∧ z.sfmt = d.sfmt
        ∧ z.roleB = d.roleB ∧ z.pair = (if d.pair = true then fol else none) ∧ z.next = 0
        ∧ z.bar = (s.team? g.team).bind (fun tm => tm.barrier g.team x.bsel)
        ∧ ∀ m ∈ cores, ∀ j ∈ ring, (w.tile k.die m j).ring = true)
    ∧ (clear → d.bad = false → g.fd + d.nt ≤ 255 → (d.pair = true → fol ≠ none) → v.freeFeeder k.die = none →
      exec (.fsubFeeder f x) s = .next (v.desched k g .feeder))
    ∧ (∀ m ∈ cores, ∀ e, v.ringBad k.die m g.team ring = some e →
        ∃ y : Nat × Tile, exec (.fsubFeeder f x) s = .next (v.raise k g (slotTrap (y.1 % 128) y.2)))
    ∧ (clear → (d.bad = true ∨ 255 < g.fd + d.nt) → exec (.fsubFeeder f x) s = .next (v.raise k g (trapOf .illOperand (auxSpec g 0#8))))
    ∧ (clear → d.bad = false → g.fd + d.nt ≤ 255 → d.pair = true → fol = none → exec (.fsubFeeder f x) s = .next (v.raise k g (trapOf .pair 0#32))))
  ∧ ∀ s k g c, State.issues s k g c → g.speculative = false → s.acquiring k g = false → (g.fieldP c).toNat < 96 →
      let mine (e : Nat × Feeder) : Bool := e.2.team == g.team && e.2.g.core == k.core && e.2.base == (g.fieldP c).toNat && feederLive e.1 e.2
      ((s.die k.die).feeders.find? mine = none → exec .fend s = .next (s.advance k g c 1 none))
      ∧ ∀ fd z, (s.die k.die).feeders.find? mine = some (fd, z) → Tbl.sorted (s.die k.die).feeders = true →
          ∃ t h, exec .fend s = .next t ∧ t.group? k = some h ∧ t.mem = s.mem ∧ h.sc = g.sc ∧ h.regs = g.regs ∧ h.pr = g.pr ∧ h.seg = g.seg
            ∧ (z.g = k → h.fd = g.fd - (z.nt - z.next - (if z.filling = true then 1 else 0)))
            ∧ (z.filling = false → (t.die k.die).feeders.find fd = none)
            ∧ (z.filling = true → (t.die k.die).feeders.find fd = some { z with stopped := true })
            ∧ ∀ m ∈ z.cores, ∀ j ∈ z.ring, (s.tile k.die m j).owner = g.team → (t.tile k.die m j).ring = false

/-- MMA, MMAS, MPAIR and MUNPAIR (R368 to R370, R377, R213, R214): with its slots FULL and its team the owner of the array, an
operation joins the array's queue with its sizes and the slots it reads, and ME rises; with four in the queue it waits. MPAIR
and MUNPAIR leave the pen until the pair has begun or ended, and then go on. -/
def Obligations.MatrixOperationsIssue : Prop :=
  (∀ (f : XFmt) (x : XLong) s k g c m n kv, State.issues s k g c → g.acts → s.ownsArray k g → handMatOk g.hand = true →
    (∀ r l p, g.pending { regs := r, scalars := l, preds := p } = false) →
    x.rsvd = 0#2 → f.a.toNat < 96 → f.b0.toNat < 96 → f.b1.toNat < 96 → x.bar = 0#4 → f.pair = 0#1 →
    specKind x.m = .scalar m → specKind x.n = .scalar n → specKind x.k = .scalar kv →
    (g.scalar m).toNat ≤ 256 → (g.scalar n).toNat ≤ 512 → (g.scalar kv).toNat ≤ kSpan (g.hand.toNat % 16) →
    s.follows k.die k.core g.team = false →
    (∀ e ∈ matReads k.core none f.a.toNat f.b0.toNat f.b1.toNat (g.scalar m).toNat (g.scalar n).toNat,
      (s.tile k.die e.1 e.2).ownedBy g.team = true ∧ (s.tile k.die e.1 e.2).state = .full) →
    ∀ i scaled, (i = .mma f x ∧ scaled = false) ∨ (i = .mmas f x ∧ scaled = true) →
    ((s.arr k.die k.core).queue.length < 4 → g.me < 255 → ∃ t h o, exec i s = .next t ∧ t.group? k = some h ∧ h.me = g.me + 1 ∧ t.mem = s.mem
        ∧ (t.arr k.die k.core).queue = (s.arr k.die k.core).queue ++ [o] ∧ (t.arr k.die k.core).acc = (s.arr k.die k.core).acc
        ∧ o.g = k ∧ o.team = g.team ∧ o.scaled = scaled ∧ o.hand = g.hand ∧ o.m = (g.scalar m).toNat ∧ o.n = (g.scalar n).toNat
        ∧ o.k = (g.scalar kv).toNat ∧ o.a = f.a.toNat ∧ o.b0 = f.b0.toNat ∧ o.b1 = f.b1.toNat ∧ (o.clr = true ↔ x.clr = 1#1)
        ∧ o.reads = (if (g.scalar kv).toNat = 0 then [] else
            matReads k.core none f.a.toNat f.b0.toNat f.b1.toNat (g.scalar m).toNat (g.scalar n).toNat)
        ∧ (o.rel = true ↔ x.rel = 1#1) ∧ h.sc = g.sc ∧ h.regs = g.regs ∧ h.pr = g.pr ∧ h.seg = g.seg)
    ∧ (4 ≤ (s.arr k.die k.core).queue.length → exec i s = .next (s.hold k g)))
  ∧ ∀ s k g c, State.issues s k g c → g.acts → (g.pending (touchScalars []) = false) →
      (g.half = .done → (g.fieldP c).toNat < 2 → exec .mpair s = .next (s.advance k { g with irrev := true } c 1 none))
      ∧ (g.half = .done → g.fieldP c = 0#24 → exec .munpair s = .next (s.advance k { g with irrev := true } c 1 none))
      ∧ (∀ fl, g.half = .fresh → (g.fieldP c).toNat < 2 → s.ownsArray k g → s.pairFor k.die k.core g.team (g.fieldP c == 1#24) = some fl →
          exec .mpair s = .next ((s.desched k { g with half := .sent } .pairBind).post (s.clk + 1) (.pairBind ⟨k.die, k.core⟩)))
      ∧ (g.half = .fresh → g.fieldP c = 0#24 → s.follower k.die k.core g.team = none → exec .munpair s = .next (s.raise k g (trapOf .pair 0#32)))
      ∧ ∀ fl, g.half = .fresh → g.fieldP c = 0#24 → s.follower k.die k.core g.team = some fl →
          exec .munpair s = .next ((s.desched k { g with half := .sent } .pairEnd).post (s.clk + 1) (.pairEnd ⟨k.die, k.core⟩))

/-- Accumulators (R225, R371 to R376): AWIN gives a group of the team its window; ACLR sets its rows to +0; ALD brings to each active
lane the element its row and column name, AST stores the lanes there, each lane once no operation works on its row block, in ascending order; ADRN reads the elements of its rectangle, which DRAIN_COMPLETE
writes; the elements are read when it issues (log 96). A row outside the window raises ACC_WINDOW. -/
def Obligations.AccumulatorResults : Prop :=
  ∀ s k g c, State.issues s k g c → g.acts → (∀ r l p, g.pending { regs := r, scalars := l, preds := p } = false) →
    let a := s.arr k.die k.core
    (∀ (f : TFmt) tm slot, s.ownsArray k g → g.num = 0 → f.fl = 0#1 → f.slot.toNat < 32 → isScalarOrImm f.s = true → isScalarOrImm f.u = true →
      s.team? g.team = some tm → f.slot.toNat < tm.count → (g.uniform f.s).toNat ≤ (g.uniform f.u).toNat → (g.uniform f.u).toNat ≤ 256 →
      (tm.groups.find? fun e => e.1 = f.slot.toNat) = some (f.slot.toNat, slot) →
      exec (.awin f) s = .next ((s.advance k { g with irrev := true } c 1 none).updGroup ⟨k.die, k.core, slot⟩ fun h =>
        { h with awb := (g.uniform f.s).toNat, awl := (g.uniform f.u).toNat }))
    ∧ (∀ f : TFmt, f.fl = 0#1 → f.slot = 0#7 → isScalarOrImm f.s = true → isScalarOrImm f.u = true → g.half = .fresh → g.me < 255 →
      let first := (g.uniform f.s).toNat
      let count := (g.uniform f.u).toNat
      (∀ r, g.outside first count = some r → exec (.aclr f) s = .next (s.raise k g (windowTrap r)))
      ∧ (g.outside first count = none → (0 < count → a.busyRow k.core first = false) → ∃ t h, exec (.aclr f) s = .next t ∧ t.group? k = some h
          ∧ h.me = g.me + 1 ∧ t.mem = s.mem
          ∧ ∀ i j, j < 512 → (t.arr k.die k.core).elem i j = (if first ≤ i ∧ i < first + count then 0#32 else a.elem i j)))
    ∧ (∀ i op v sh, (∃ f, (i = .ald f ∧ op = 0xb8 ∨ i = .ast f ∧ op = 0xb9) ∧ v = vShort f)
        ∨ (∃ f x, (i = .aldLong f x ∧ op = 0xb8 ∨ i = .astLong f x ∧ op = 0xb9) ∧ v = vLong f x) → vShape op = some sh → g.vTrap v op sh = none →
      let rows (l : Nat) : Nat := (s.deliver k g (v.srcA sh) l).toNat
      let cols (l : Nat) : Nat := (s.deliver k g (v.srcB sh) l).toNat
      let left := (lanesOf g.exec).filter fun l => !g.acted.getLsbD l
      let now := left.takeWhile fun l => !a.busyRow k.core (rows l)
      (∀ x, g.half = .fresh → g.accTrap v.b rows cols = some x → exec i s = .next (s.raise k g x))
      ∧ ((g.half = .fresh → g.accTrap v.b rows cols = none) →
        ∃ t h, exec i s = .next t ∧ t.group? k = some h ∧ t.mem = s.mem ∧ h.sc = g.sc ∧ h.pr = g.pr ∧ h.seg = g.seg ∧ h.exec = g.exec
          ∧ (op = 0xb8 → t.arr k.die k.core = a ∧ (g.wellOk → ∀ l ∈ now, h.regLane ((g.dstRegs v.d).getD l 0) l = a.elem (rows l) (cols l)))
          ∧ (op = 0xb9 → t.arr k.die k.core = now.foldl (fun x l => x.putElem (rows l) (cols l) (s.deliver k g v.srcD l)) a)
          ∧ ((∀ l ∈ left, a.busyRow k.core (rows l) = false) → now = left
              ∧ (headerCnt c.hdr ≤ g.pos + 1 → h.clause = none ∧ h.pc = c.next) ∧ (g.pos + 1 < headerCnt c.hdr → h.clause = g.clause ∧ h.pos = g.pos + 1))
          ∧ ∀ l ∈ left, a.busyRow k.core (rows l) = true →
              h.clause = g.clause ∧ h.pos = g.pos ∧ ∀ m < 32, h.acted.getLsbD m = (g.acted.getLsbD m || now.contains m)))
    ∧ ∀ (f : XDFmt) (x : XDLong) o q rss u, f.z = 0#4 → x.z = 0#21 → x.rsvd = 0#2 → pairAt f.o o → isScalarOrImm f.pt = true →
        x.rq.toNat = 0x80 + 4 * q → q < 16 → g.hand.toNat / 256 % 4 < 3 → g.half = .fresh → g.me < 255 → s.acquiring k g = false → x.add = 0#1 →
        let n (i : Nat) : Nat := (g.scalar (4 * q + i)).toNat
        let e := drainSize g.hand
        let pitch := (g.uniform f.pt).toNat
        (∀ y, g.outside (n 0) (n 1) = some y → exec (.adrn f x) s = .next (s.raise k g (windowTrap y)))
        ∧ (g.outside (n 0) (n 1) = none → n 2 + n 3 ≤ 512 → 0 < n 1 → 0 < n 3 → a.busyRow k.core (n 0) = false →
          s.drainCheck (s.whoOf k g) (g.segReg f.g.toNat) false (g.scalar64 o) pitch ((n 1 - 1) * pitch + n 3 * e) e = none →
          s.reachRows (s.whoOf k g) (s.team? g.team) (g.segReg f.g.toNat) .write ((List.range (n 1)).map fun i => (g.scalar64 o + i * pitch, n 3 * e)) = (.ok rss, u) →
          u.arr k.die k.core = a →
          ∃ t h d, exec (.adrn f x) s = .next t ∧ t.group? k = some h ∧ h.me = g.me + 1 ∧ t.mem = u.mem
            ∧ (t.arr k.die k.core).drains = a.drains ++ [d] ∧ (t.arr k.die k.core).acc = a.acc ∧ d.clear = false ∧ d.add = false
            ∧ d.ofs = g.scalar64 o ∧ d.pitch = pitch ∧ d.rows = n 1 ∧ d.cols = n 3
            ∧ d.values = (List.range (n 1)).flatMap fun i => (List.range (n 3)).map fun j => a.elem (n 0 + i) (n 2 + j))

/-- Task instructions (R343 to R345, R84, R73): TSPAWN reads one record for each active lane, takes them up in ascending order, and writes to each active lane of DATA's
register the status of its own record, 2 where the store or the quota is full (log 102); other registers and lanes stay. With EXEC = 0 it only goes on, and without a
task it raises ILL_OPERAND (its auxiliary word is log 65). TDONE, with nothing of the group in flight, ends the task, frees the slot, and the task stands finished until it commits;
TABORT aborts a speculative task; TSERIAL goes on in a task that is not speculative and waits for promotion in one that is. -/
def Obligations.TaskInstructionResults : Prop :=
  (∀ i a long f, (i = .tspawn f ∧ a = mShort 0xc0 f ∧ long = false) ∨ (∃ x, i = .tspawnLong f x ∧ a = mLong 0xc0 f x ∧ long = true) →
    let b : MArgs := { a with wid := 2 }
    ∀ s k g c tk xs s1, State.issues s k g c → g.pending (g.mTouch b) = false → a.badSpawn long = false →
      a.offOk = true → isLaneReg a.data = true → g.check128 b.uses = none →
      (g.task = none → exec i s = .next (s.raise k g (trapOf .illOperand (auxSpec g 0#8))))
      ∧ (g.task = some tk → g.exec = 0#32 → exec i s = .next (s.advance k g c (g.occupancy b.uses 0) (some (g.nibOf a.data 0#32 zeroLanes))))
      ∧ (g.task = some tk → g.exec ≠ 0#32 → s.acquiring k g = false → g.log = [] →
      let los := (lanesOf g.exec).map fun l => (l, g.offAt b l)
      s.segCheck (s.whoOf k g) (g.segReg b.g) .read true 32 32 los = none →
      s.tryLanes (s.whoOf k g) (s.team? g.team) (g.segReg b.g) .read 32 los = (xs, s1) →
      (∀ x ∈ xs, ∃ rs, x.reach = .runs rs ∧ (rs.any fun q => q.place.outside) = false ∧ s1.spoiled rs = false) →
      let lanes := xs.map fun x => (x, match x.reach with | .runs rs => rs | _ => [])
      s1.homeStalls k g (lanes.flatMap (·.2)) true false = false → s1.entryWaits k g.team (lanes.flatMap (·.2)) = false →
      s1.refreshEnd (lanes.flatMap (·.2)) = none →
      let got := s1.readRecords k g (lanes.map fun e => (e.1.lane, e.2))
      let kids := State.spawnLanes k g tk got.1 false got.2
      (∀ e ∈ got.1, e.2.valid = true ∧ BitVec.ult e.2.ts tk.key.ts = false) →
      let status (l : Nat) : Word := ((kids.1.find? fun e => e.1 = l).map (·.2)).getD 0#32
      ∃ h n, exec i s = .next ((kids.2.advance k h c n (some (g.nibOf a.data g.exec (Lanes.ofFn status)))).refront (s.partCtx k g).1 (s.partCtx k g).2 k.die)
        ∧ h.irrev = true
        ∧ ∀ g1, kids.2.group? k = some g1 → h.sc = g1.sc ∧ h.pr = g1.pr ∧ h.seg = g1.seg ∧ h.task = g1.task ∧ h.window = g1.window
          ∧ (g1.wellOk → ∀ l < 32,
            (∀ n, g1.useReg (useOf a.data false 1) l = some n → g.exec.getLsbD l = true → h.regLane n l = status l)
            ∧ ∀ m, (a.deadO = true → ∀ r, specKind a.off = .reg r → m < r ∨ r + (if a.o64 then 2 else 1) ≤ m) →
                ((specKind a.data = .reg m → g.exec.getLsbD l = false) ∧ ∀ j i, specKind a.data = .index j → g.exec.getLsbD i = true → g1.ixReg j i ≠ m) →
                h.regLane m l = g1.regLane m l)))
  ∧ (∀ (s : State) k g tk w full part ctx d, (part, ctx) = s.partCtx k g → s.domain? part ctx = some d →
      let got := s.spawnOne k g tk w full
      (full = true ∨ s.taskQuota k.die ctx ≤ (s.recordsOn part ctx k.die d).length → got = (2#32, s))
      ∧ (got.1 = 0#32 ∨ got.1 = 1#32 ∨ got = (2#32, s))
      ∧ (got.1 ≠ 2#32 → (got.1 = 1#32 ↔ ∃ e, got.2.domain? part ctx = some e ∧ ∃ x ∈ (e.at k.die).spilled, x.id = s.fresh)))
  ∧ ∀ s k g c tk part ctx, State.issues s k g c → g.fieldP c = 0#24 → g.task = some tk → (part, ctx) = s.partCtx k g →
      (g.lsq = [] → g.log = [] → g.ceq = [] → g.me = 0 → g.fd = 0 →
        let s1 := s.freeSlot part ctx k g
        exec .tdone s = .next ((if tk.record.u then s1 else s1.updDomain part ctx fun d =>
          d.upd k.die fun x => { x with finished := x.finished ++ [{ task := tk, core := k.core }] }).post s.clk (.taskCommit part ctx k.die)))
      ∧ ((g.lsq ≠ [] ∨ g.log ≠ [] ∨ g.ceq ≠ [] ∨ g.me ≠ 0 ∨ g.fd ≠ 0) → exec .tdone s = .next (s.hold k g))
      ∧ (tk.spec = true → exec .tabort s = .next (s.abort part ctx tk.record.id true)
          ∧ exec .tserial s = .next (s.desched k g .promotion))
      ∧ (tk.spec = false → exec .tserial s = .next (s.advance k { g with irrev := true } c 1 none)
          ∧ exec .tabort s = .next (s.raise k g (trapOf .illOperand (auxSpec g 0#8))))

/-- LAUNCH (R349 to R351): once the descriptor, the kernel it names and the arguments are read, a good descriptor sets out for the scriptorium with those
arguments and the group waits; where it arrives within the quota a child grid starts and the answer is 0, at the quota it is 2, and the group then goes on; a bad
descriptor is answered 3. -/
def Obligations.LaunchResults : Prop :=
  (∀ (f : GFmt) s k g c st tb, State.issues s k g c → f.s.toNat = 0x80 + st → st < 64 → f.idx.toNat = 0x80 + tb → tb < 64 →
    (∀ l, g.pending (touchScalars l) = false) →
    (g.half = .sent → exec (.launch f) s = .next (s.hold k g))
    ∧ (g.half = .done → exec (.launch f) s = .next (s.advance k (g.acquire s.clk 5) c 1 none)))
  ∧ (∀ (f : GFmt) s k g c st tb bs rs s1 eb s2 r kr s3 kb s4, State.issues s k g c → g.half = .fresh → g.speculative = false → g.released = true →
    s.acquiring k g = false → f.s.toNat = 0x80 + st → st < 64 → f.idx.toNat = 0x80 + tb → tb < 64 →
    (∀ l, g.pending (touchScalars l) = false) →
    s.segRead k g (g.segReg f.g.toNat) (g.scalar tb).toNat 64 64 = .bytes bs rs s1 →
    let x := launchDesc bs
    s1.readLin (s.whoOf k g) (s1.rubricLin (s.whoOf k g) x.krub) 8 = (.ok eb, s2) → (entryOf eb).state = 2 →
    s2.loadSeg (s.whoOf k g) g (BitVec.ofNat 16 (entryOf eb).sel) = (.ok (r, kr), s3) → r.kind = 1#3 → r.bad = false → kr ≠ 0 →
    s3.readLin (s.whoOf k g) kr 64 = (.ok kb, s4) →
    exec (.launch f) s = .next (s4.tableClk.2.launchGo k g c st x (krecOf kb) r (1 + figureOf (s.whoOf k g) rs + 3 * s4.tableClk.1)))
  ∧ (∀ (s : State) k (g : Group) c st (x : LaunchDesc) kr code occ,
      (x.bad = true → ∃ h, (s.launchGo k g c st x kr code occ).group? k = some h ∧ h.scalar st = 3#32
        ∧ (s.launchGo k g c st x kr code occ).host = s.host ∧ (s.launchGo k g c st x kr code occ).mem = s.mem)
      ∧ ∀ (r : SegReg) (z : Nat) (s1 : State) bs rs (s2 : State), x.bad = false → s.loadSeg (s.whoOf k g) g x.asel = (.ok (r, z), s1) → s1.segRead k g r x.aofs x.alen 64 = .bytes bs rs s2 →
          let t := s.launchGo k g c st x kr code occ
          t.group? k = some { g with half := .sent, irrev := true } ∧ t.mem = s2.mem
          ∧ ∃ l, t.host.launches.find s2.fresh = some l ∧ l.args = bs ∧ l.queue = none ∧ l.asked = some (k, g.team, st)
            ∧ (l.nodes.map fun n => (n.tx, n.ty, n.tz, n.gpt, n.budget)) = [(x.tx, x.ty, x.tz, x.gpt, x.budget)]
            ∧ ∃ due, s2.clk ≤ due ∧ (due, Event.nodeStart s2.fresh 0) ∈ t.agenda)
  ∧ ∀ s l n x k team st g, s.subject = .nodeStart l n → s.host.launches.find l = some x → x.asked = some (k, team, st) → Tbl.sorted s.host.launches = true →
      s.group? k = some g → g.team = team → g.half = .sent →
      (s.launchQuota k.die x.ctx ≤ s.deviceGrids x.part x.ctx → ∃ t, exec .nodeStart s = .next t ∧ t.host.launches.find l = none ∧ t.mem = s.mem
        ∧ t.group? k = some { g.setScalar st 2#32 with half := .done })
      ∧ (s.deviceGrids x.part x.ctx < s.launchQuota k.die x.ctx → s.fresh ≠ l → ∃ t, exec .nodeStart s = .next t ∧ t.host.launches.find l = none ∧ t.mem = s.mem
        ∧ t.host.launches.find s.fresh = some { x with asked := none, taken := s.clk } ∧ (s.clk, Event.nodeStart s.fresh 0) ∈ t.agenda
        ∧ t.group? k = some { g.setScalar st 0#32 with half := .done })

/-- Work queues (R60, R61, R346 to R348): QPOP, QPUSH and QCNT send an act to the queue store of the die, which answers 40 clk later unloaded, and
go on with what it answers pending; QPUSH first waits for every earlier access of the group; each raises ILL_OPERAND on a disabled queue, and on
one that is not resident leaves the pen while the queue is read back, which takes 256 clk and 1 for each block. -/
def Obligations.QueueInstructionResults : Prop :=
  ∀ (f : QFmt) s k g c, State.issues s k g c → f.z1 = 0#5 → f.z2 = 0#5 → (∀ r l p, g.pending { regs := r, scalars := l, preds := p } = false) →
    let cq := 8 * s.ctxOf g.team + f.qn.toNat
    let q := s.wq k.die cq
    let src : Src := { spec := f.d, pat := 0, par := 0, dead := false, kind := .int }
    let there : Prop := s.wqCap k.die cq ≠ 0 ∧ q.resident = true
    let id := s.fresh
    let s1 := s.newId.2
    let stops (i : Instr) : Prop :=
      (s.wqCap k.die cq = 0 → exec i s = .next (s.raise k g (trapOf .illOperand (auxSpec g 0#8))))
      ∧ (s.wqCap k.die cq ≠ 0 → q.resident = false → q.loading = true → exec i s = .next (s.desched k { g with half := .sent } (.queue cq)))
      ∧ (s.wqCap k.die cq ≠ 0 → q.resident = false → q.loading = false → ∃ t h, exec i s = .next t ∧ t.group? k = some h
          ∧ h.run = .waiting (.queue cq) ∧ t.mem = s.mem ∧ (t.wq k.die cq) = { q with loading := true }
          ∧ (s.clk + 256 + wqBlocks q.items.length, Event.queueSwapInDone k.die (cq / 8) (cq % 8)) ∈ t.agenda)
    (isLaneReg f.d = true → g.check128 [useOf f.d false 1] = none → g.acts → (∀ i ∈ q.spoilt, (lanesOf g.exec).length ≤ i) →
      (there → ∃ h, exec (.qpop f) s = .next ((s1.advance k h c (g.occupancy [useOf f.d false 1] 0) none).after 40
          (.queueActArrive k (.pop id cq (g.dstRegs f.d) f.f.toNat g.exec)))
        ∧ h.sc = g.sc ∧ h.regs = g.regs ∧ h.well = g.well ∧ h.pr = g.pr ∧ h.seg = g.seg ∧ h.exec = g.exec
        ∧ (∀ l ∈ lanesOf g.exec, h.pending { regs := [(g.dstRegs f.d).getD l 0], scalars := [], preds := [] } = true)
        ∧ (f.f ≠ 0#3 → h.pending { regs := [], scalars := [], preds := [f.f.toNat] } = true))
      ∧ stops (.qpop f))
    ∧ (isSource f.d = true → g.check128 [src.use] = none → g.acts → g.released = true →
      (there → exec (.qpush f) s = .next ((s1.advance k { g with pend := predPend id f.f.toNat ++ g.pend, irrev := true } c (g.occupancy [src.use] 0) none).after 40
        (.queueActArrive k (.push id cq f.f.toNat g.exec (Lanes.ofFn fun l => s.deliver k g src l)))))
      ∧ stops (.qpush f))
    ∧ (isSource f.d = true → g.check128 [src.use] = none → g.acts → g.released = false → exec (.qpush f) s = .next (s.hold k g))
    ∧ ∀ n, f.f = 0#3 → f.d.toNat = 0x80 + n → n < 64 →
        (there → exec (.qcnt f) s = .next ((s1.advance k (g.awaitScalar n id) c 1 none).after 40 (.queueActArrive k (.count id cq n))))
        ∧ stops (.qcnt f)

/-- Event instructions (R57 to R59, R338): EVSIG with every earlier access complete sends a signal to the event's home die and goes on; EVWAIT
sends its wait once and goes on, with acquire work of scope 5, when the act has arrived and the count differs from its value (log 81); EVTEST sends a test and goes on with
its scalar pending. EVSIG and EVTEST look at their table when they issue (log 80). -/
def Obligations.EventInstructionResults : Prop :=
  ∀ (f : BFmt) s k g c, State.issues s k g c → (∀ r l p, g.pending { regs := r, scalars := l, preds := p } = false) →
    let ctx := s.ctxOf g.team
    let name := f.n.toNat
    (f.s = 0#8 → g.speculative = false → g.released = true → s.evProbe k ctx name (.signal (some (k, g.team))) = none →
      exec (.evsig f) s = .next ((s.advance k { g with irrev := true } c 1 none).eventAct k.die ctx name (.signal (some (k, g.team)))))
    ∧ (isScalarOrImm f.s = true → g.speculative = false →
      (g.half = .done → exec (.evwait f) s = .next (s.advance k (g.acquire s.clk 5) c 1 none))
      ∧ (g.half = .fresh → exec (.evwait f) s = .next ((s.hold k { g with half := .sent, irrev := true }).eventAct k.die ctx name
          (.wait k g.team (g.uniform f.s))))
      ∧ (g.half = .sent → exec (.evwait f) s = .next (s.hold k g)))
    ∧ ∀ n, f.s.toNat = 0x80 + n → n < 64 → s.evProbe k ctx name (.test k s.fresh n) = none →
        exec (.evtest f) s = .next ((s.newId.2.advance k (g.awaitScalar n s.fresh) c 1 none).eventAct k.die ctx name (.test k s.fresh n))

/-- Start, reset and what the monitors do (R15 to R19, R38): power-on and a module reset leave stage 0 with flash, keys and host memory kept and the
stage's work under way, unless die 0 is retired; each stage follows the one before, stage 2 where a copy is accepted, stage 3 after five waves; a
failure leaves its code and die and the stage; a trip stops every die and holds stage 1; a warning only marks the die; the margin check comes every 30 days. The model's
choices in it are the passage from stage to stage (log 4), the first margin check (log 5), the memories a reset leaves (log 13), what happens with die 0 retired (log 76) and the
fields a reset keeps (log 115). -/
def Obligations.StartAndResetEvents : Prop :=
  (∀ s i, (s.subject = .powerOn ∧ i = .powerOn) ∨ (s.subject = .moduleReset ∧ i = .moduleReset) →
    ∃ t out due, exec i s = .next t ∧ t.boot.stage = 0 ∧ t.groups = [] ∧ t.teams = [] ∧ t.ctxs = [] ∧ t.host = HostIf.reset
      ∧ t.boot.copyA = s.boot.copyA ∧ t.boot.copyB = s.boot.copyB ∧ t.boot.keys = s.boot.keys ∧ t.boot.ctr = s.boot.ctr
      ∧ t.boot.minVersion = s.boot.minVersion ∧ t.boot.retired = s.boot.retired
      ∧ t.agenda = (if s.boot.retired.contains 0 = true then [] else [(due, .stageAdvance out)])
      ∧ ∀ e, e ∈ t.mem ↔ e ∈ s.mem ∧ e.1 % 8 = 5)
  ∧ (∀ s, s.subject = .stageAdvance .ok → s.boot.tripped = false →
      (s.boot.stage = 0 → ∃ t, exec .stageAdvance s = .next t ∧ t.boot.stage = 1)
      ∧ (s.boot.stage = 1 → s.imageOk s.boot.copyA = true → ∃ t, exec .stageAdvance s = .next t ∧ t.boot.stage = 2 ∧ t.boot.loaded = some false
          ∧ t.boot.minVersion = max s.boot.minVersion (Config.imageVersion s.boot.copyA))
      ∧ (s.boot.stage = 1 → s.imageOk s.boot.copyA = false → s.imageOk s.boot.copyB = true → ∃ t, exec .stageAdvance s = .next t ∧ t.boot.stage = 2 ∧ t.boot.loaded = some true)
      ∧ (s.boot.stage = 1 → s.imageOk s.boot.copyA = false → s.imageOk s.boot.copyB = false → ∃ t, exec .stageAdvance s = .next t ∧ t.boot.stage = 1 ∧ t.boot.failCode = 1#8)
      ∧ (s.boot.stage = 2 → s.boot.columns < 4 → ∃ t, exec .stageAdvance s = .next t ∧ t.boot.stage = 2 ∧ t.boot.columns = s.boot.columns + 1)
      ∧ (s.boot.stage = 2 → 4 ≤ s.boot.columns → ∃ t, exec .stageAdvance s = .next t ∧ t.boot.stage = 3 ∧ ∃ d, (d, Event.marginCheck) ∈ t.agenda)
      ∧ (s.boot.stage = 3 → exec .stageAdvance s = .next (s.setBoot { s.boot with stage := 4 })))
  ∧ (∀ s code d, s.subject = .stageAdvance (.bad code d) → s.boot.tripped = false →
      exec .stageAdvance s = .next (s.setBoot { s.boot with failCode := code, failDie := d % 32 }))
  ∧ (∀ s d, s.subject = .thermalWarning d → exec .thermalWarning s = .next (s.putDie d { s.die d with thermal := true }))
  ∧ (∀ s d, s.subject = .thermalTrip d → ∃ t, exec .thermalTrip s = .next t ∧ t.boot.stage = 1 ∧ t.boot.failCode = 5#8 ∧ t.boot.failDie = d
      ∧ t.boot.tripped = true ∧ t.groups = [] ∧ t.agenda = [] ∧ t.outbox = s.outbox ++ [.thermalTrip d])
  ∧ ∀ s, s.subject = .marginCheck → ∃ t, exec .marginCheck s = .next t ∧ t.mem = s.mem ∧ t.groups = s.groups
      ∧ (s.clk + 30 * 86400 * 940000000, Event.marginCheck) ∈ t.agenda

/-- The mailbox (R39, R40): each command clears BUSY, sets DONE and leaves MERR; STAGE answers the stage and the last failure, MARGIN each die's
word; STAGEBITS puts an accepted image into the copy that was not loaded, ENROL and REVOKE change the slot a signed request names and no other,
and raise the counter; a write of the flash that fails is MERR 0x07 and changes nothing; an unknown code is MERR 0x01. That a length of 0 is the bad
argument of STAGEBITS, and copy A the one it writes when none was loaded, is the model's choice (log 131). -/
def Obligations.MailboxResults : Prop :=
  ∀ s : State,
    let done (t : State) (e : Byte) : Prop := t.boot.mbBusy = false ∧ t.boot.mbDone = true ∧ t.boot.merr = e ∧ t.mem = s.mem ∧ t.groups = s.groups
    (s.subject = .stage → ∃ t, exec .stage s = .next t ∧ done t 0#8
      ∧ t.boot.mbRes.get 0#32 0 = BitVec.ofNat 32 (s.boot.stage + 256 * s.boot.failCode.toNat + 65536 * s.boot.failDie))
    ∧ (s.subject = .margin → ∃ t, exec .margin s = .next t ∧ done t 0#8 ∧ ∀ d < 20, t.boot.mbRes.get 0#32 d = s.marginWord d)
    ∧ (∀ b, s.subject = .unknownMailboxCommand b → ∃ t, exec .unknownMailboxCommand s = .next t ∧ done t 1#8)
    ∧ (s.subject = .stagebits →
      let n := (s.boot.mbArg.get 0#32 2).toNat
      let img := s.hostBytes noPasid s.mailAddr n
      (n = 0 → ∃ t, exec .stagebits s = .next t ∧ done t 2#8)
      ∧ (0 < n → Config.hostRefuses s.freeCtr = true → ∃ t, exec .stagebits s = .next t ∧ done t 3#8)
      ∧ (0 < n → Config.hostRefuses s.freeCtr = false → s.imageOk img = false → ∃ t, exec .stagebits s = .next t ∧ done t 4#8)
      ∧ (0 < n → Config.hostRefuses s.freeCtr = false → s.imageOk img = true → Config.flashFails (s.freeCtr + 1) = true →
          ∃ t, exec .stagebits s = .next t ∧ done t 7#8 ∧ t.boot.copyA = s.boot.copyA ∧ t.boot.copyB = s.boot.copyB)
      ∧ (0 < n → Config.hostRefuses s.freeCtr = false → s.imageOk img = true → Config.flashFails (s.freeCtr + 1) = false →
          ∃ t, exec .stagebits s = .next t ∧ done t 0#8
          ∧ (s.boot.loaded = some false → t.boot.copyB = img ∧ t.boot.copyA = s.boot.copyA)
          ∧ (s.boot.loaded ≠ some false → t.boot.copyA = img ∧ t.boot.copyB = s.boot.copyB)))
    ∧ ∀ i enrol, (i = .enrol ∧ enrol = true ∧ s.subject = .enrol) ∨ (i = .revoke ∧ enrol = false ∧ s.subject = .revoke) →
        let bs := s.hostBytes noPasid s.mailAddr 128
        let e := s.requestErr bs enrol
        (Config.hostRefuses s.freeCtr = true → ∃ t, exec i s = .next t ∧ done t 3#8 ∧ t.boot.keys = s.boot.keys)
        ∧ (Config.hostRefuses s.freeCtr = false → e ≠ 0#8 → ∃ t, exec i s = .next t ∧ done t e ∧ t.boot.keys = s.boot.keys ∧ t.boot.ctr = s.boot.ctr)
        ∧ (Config.hostRefuses s.freeCtr = false → e = 0#8 → Config.flashFails (s.freeCtr + 1) = true → ∃ t, exec i s = .next t ∧ done t 7#8
            ∧ t.boot.keys = s.boot.keys ∧ t.boot.ctr = s.boot.ctr)
        ∧ (Config.hostRefuses s.freeCtr = false → e = 0#8 → Config.flashFails (s.freeCtr + 1) = false → ∃ t, exec i s = .next t ∧ done t 0#8
            ∧ (enrol = true → t.boot.keys.find (fieldOf bs 0x20 1) = some (.inUse (BitVec.ofNat 256 (fieldOf bs 0 32))))
            ∧ (enrol = false → ∃ key, s.boot.keys.find (fieldOf bs 0x20 1) = some (.inUse key) ∧ t.boot.keys.find (fieldOf bs 0x20 1) = some (.revoked key))
            ∧ (∀ m, m ≠ fieldOf bs 0x20 1 → t.boot.keys.find m = s.boot.keys.find m)
            ∧ t.boot.ctr = BitVec.ofNat 64 (fieldOf bs 0x28 8))

/-- Partitions, firewalls and links (R13, R14, R20 to R25): APPLY puts every staged slot in force, or answers the first reason against it and
changes none; RETIRE takes a die without an enabled context out of service; a firewall opens only between dies without an enabled
context; a flit that has crossed a link stands in the buffer of its end, once that has room, and goes on from there, over the next link, where a closed firewall stops
it and freezes its group; a stop signal holds flits at the sender until it is dropped; an unfreeze resumes or kills what is frozen. The model's choices in it are where a
stopped flit waits (log 23), a RETIRE of die 0 (log 76), which reason APPLY answers (log 77), the pace of buffers and links (log 117) and that a RETIRE of die 20 to 31 does nothing
and is done (log 131). -/
def Obligations.PartitionAndLinkEvents : Prop :=
  (∀ s, s.subject = .apply →
    (∀ e, s.applyErr = some e → exec .apply s = .next (s.pcmdDone e) ∧ (s.pcmdDone e).fabric.cslot = s.fabric.cslot)
    ∧ (s.applyErr = none → ∃ t, exec .apply s = .next t ∧ (∀ d < 20, t.slotOf d = s.stagedSlot d) ∧ t.fabric.pdone = true ∧ t.fabric.perr = 0#8 ∧ t.mem = s.mem))
  ∧ (∀ s d, s.subject = .retire d →
      (20 ≤ d → exec .retire s = .next (s.pcmdDone (0#8, 0)))
      ∧ (d < 20 → s.dieEnabled d = true → exec .retire s = .next (s.pcmdDone (1#8, d)))
      ∧ (d < 20 → s.dieEnabled d = false → ∃ t, exec .retire s = .next t ∧ d ∈ t.boot.retired ∧ t.slotOf d = 0 ∧ t.fabric.pdone = true
          ∧ (∀ l < 31, (linkEnds l).1 = d ∨ (linkEnds l).2 = d → (t.wall l).closed = true ∧ (t.wall l).transit = false)
          ∧ (d ≠ 0 → t.mem = s.mem ∧ t.groups = s.groups ∧ t.agenda = s.agenda)
          ∧ (d = 0 → t.boot.stage = 0 ∧ t.groups = [] ∧ t.agenda = [])))
  ∧ (∀ s l v, s.subject = .fwctlWrite l v →
      let opens : Prop := (s.wall l).closed = true ∧ v.getLsbD 0 = false
      (opens → (s.dieEnabled (linkEnds l).1 = true ∨ s.dieEnabled (linkEnds l).2 = true) →
        exec .fwctlWrite s = .next (s.putWall l { s.wall l with refused := true }))
      ∧ ((¬opens ∨ (s.dieEnabled (linkEnds l).1 = false ∧ s.dieEnabled (linkEnds l).2 = false)) →
        ∃ t, exec .fwctlWrite s = .next t ∧ t.mem = s.mem ∧ t.groups = s.groups ∧ (∀ m, m ≠ l → t.wall m = s.wall m)
          ∧ t.wall l = { s.wall l with closed := v.getLsbD 0, transit := v.getLsbD 1,
                                       before := (s.fabric.flits.get [] (2 * l)).length + (s.fabric.flits.get [] (2 * l + 1)).length }))
  ∧ (∀ s l up c i, s.subject = .linkFlitArrive l up c false → i = 2 * l + bitOf up →
      (takeFlit c (s.fabric.flits.get [] i) = none → exec .linkFlitArrive s = .next s)
      ∧ ∀ f rest, takeFlit c (s.fabric.flits.get [] i) = some (f, rest) →
        (s.fabric.free i c < 64 → exec .linkFlitArrive s = .next (s.post (s.clk + 1) (.linkFlitArrive l up c false)))
        ∧ (64 ≤ s.fabric.free i c → ∃ t due, exec .linkFlitArrive s = .next t
          ∧ t.fabric.flits.get [] i = rest ∧ t.fabric.bufs.get [] i = s.fabric.bufs.get [] i ++ [f] ∧ t.mem = s.mem ∧ t.groups = s.groups
          ∧ t.access = s.access ∧ (due, Event.linkFlitArrive l up c true) ∈ t.agenda))
  ∧ (∀ s l up c i f rest, s.subject = .linkFlitArrive l up c true → i = 2 * l + bitOf up → takeFlit c (s.fabric.bufs.get [] i) = some (f, rest) →
      (s.mayHop f.cargo = false → exec .linkFlitArrive s = .next (s.post (s.clk + 1) (.linkFlitArrive l up c true)))
      ∧ ∀ id lane a x, s.mayHop f.cargo = true → f.cargo = .request id lane → s.access.find id = some a → (a.lanes.find? fun y => y.lane = lane) = some x →
          let crossed (t : State) (p : List Hop) : Prop :=
            ∃ b, t.access.find id = some b ∧ (b.lanes.find? fun y => y.lane = lane) = some { x with path := p }
          (∀ h, x.path = [h] → ∃ t, exec .linkFlitArrive s = .next t ∧ t.fabric.bufs.get [] i = rest ∧ crossed t [] ∧ t.mem = s.mem ∧ t.groups = s.groups)
          ∧ (∀ h h2 r, x.path = h :: h2 :: r → (s.wall h2.link).closed = false → s.linkHolds h2 = false → ∃ t, exec .linkFlitArrive s = .next t
              ∧ t.fabric.bufs.get [] i = rest ∧ crossed t (h2 :: r) ∧ t.mem = s.mem ∧ t.groups = s.groups
              ∧ ∃ y, t.fabric.flits.get [] h2.input = s.fabric.flits.get [] h2.input ++ [y] ∧ y.cls = h2.cls)
          ∧ ∀ h h2 r g, x.path = h :: h2 :: r → (s.wall h2.link).closed = true → s.group? a.g = some g → g.team = a.team → g.speculative = false →
              ∃ t g', exec .linkFlitArrive s = .next t ∧ t.group? a.g = some g' ∧ g'.run = .parked .frozen ∧ (t.wall h2.link).frozen = true
                ∧ (t.wall h2.link).vclass = vclassOf h2.cls ∧ t.mem = s.mem ∧ t.fabric.flits = s.fabric.flits)
  ∧ (∀ s l up c i, s.subject = .linkStopSignal l up c → i = 2 * l + bitOf up →
      (s.fabric.raised.contains (i, c) = true → ∃ t, exec .linkStopSignal s = .next t ∧ t.mem = s.mem ∧ t.groups = s.groups ∧ t.fabric.stops.contains (i, c) = true)
      ∧ (s.fabric.raised.contains (i, c) = false → (∀ f ∈ s.fabric.held.get [] i, f.cls ≠ c) → ∃ t, exec .linkStopSignal s = .next t ∧ t.mem = s.mem
          ∧ t.groups = s.groups ∧ t.fabric.stops.contains (i, c) = false))
  ∧ ∀ s (m : Master) g, m.kind = .group → s.group? ⟨m.die, m.core, m.slot⟩ = some g → g.run = .parked .frozen →
      (s.subject = .unfreezeResume m → g.log = [] → exec .unfreezeResume s = .next ((s.resumeParked ⟨m.die, m.core, m.slot⟩ g).readsGoOn ⟨m.die, m.core, m.slot⟩ g.team))
      ∧ (s.subject = .unfreezeKill m → s.access = [] → exec .unfreezeKill s = .next ((s.killGroup ⟨m.die, m.core, m.slot⟩ g).readsEnd ⟨m.die, m.core, m.slot⟩ g.team))

/-- Fabric ports and errors (R12, R92, R157, R158, R166, R168, R169): a request stands in the buffer of its port as flits of 64 bytes; one within an open
window reads or writes the memory of the window's die, and another is refused and counted, up to 0xffff; either is answered out through the port; FPCTL sets OEN, and IEN where the window's die is in the port's partition, unless the port's die is
retired; a link's training is noted; a refusal parks a load, sends a store's lane to the side log where that has room and out again where it has none, gives a replayed entry back to its log,
cancels a copy and holds a drain; an uncorrectable
error marks the memory or the record that it hits, kills the team that owns what it hits, aborts the speculative task of a draft, and takes from a promoted task's
draft the grain it hits (log 127); one that is
corrected is counted; a refresh window changes no state of its own, since what reads a folio looks at the clock; a retry takes up what waits, and one
of a side log whose page is now there performs its entry and forgets it. That a request which runs past the end of HBM is refused is the model's choice
(log 131), as is that a refused load's lane sets out again once its group goes on (log 110). -/
def Obligations.PortAndErrorEvents : Prop :=
  (∀ s p wr off width data, s.subject = .fabricRequestArrive p wr off width data →
    ∃ t due, exec .fabricRequestArrive s = .next t ∧ t.mem = s.mem ∧ t.groups = s.groups ∧ t.outbox = s.outbox
      ∧ t.fabric.bufs.get [] (2 * portLink p) = s.fabric.bufs.get [] (2 * portLink p) ++ ((List.range (max 1 ((width + 63) / 64))).map fun j =>
          ({ cls := .req, cargo := .inbound p wr (off + 64 * j) (min 64 (width - 64 * j)) ((data.drop (64 * j)).take (min 64 (width - 64 * j))), old := false } : Flit))
      ∧ s.clk ≤ due ∧ (due, Event.linkFlitArrive (portLink p) false .req true) ∈ t.agenda)
  ∧ (∀ s p wr off width data f rest, s.subject = .linkFlitArrive (portLink p) false .req true →
    takeFlit .req (s.fabric.bufs.get [] (2 * portLink p)) = some (f, rest) → f.cargo = .inbound p wr off width data → s.mayHop f.cargo = true →
    (s.wall (portLink p)).closed = false → s.linkHolds (portOut p) = false →
    let x := s.port p
    let at_ := pteBits x.win 16 43 * 65536 + off
    let die := pteBits x.win 59 5
    let answers (t : State) (d : Option (List Byte)) : Prop := t.fabric.bufs.get [] (2 * portLink p) = rest ∧ t.groups = s.groups
      ∧ ∃ y, t.fabric.flits.get [] (portOut p).input = s.fabric.flits.get [] (portOut p).input ++ [y] ∧ y.cls = .rsp ∧ y.cargo = .outbound p d []
    ((x.ien = false ∨ pteBits x.lim 16 32 * 65536 < off + width ∨ hbmSize < at_ + width) →
      ∃ t, exec .linkFlitArrive s = .next t ∧ t.mem = s.mem ∧ answers t none
        ∧ (t.port p).refused = (if x.refused = 0xffff#16 then 0xffff#16 else x.refused + 1#16))
    ∧ (x.ien = true → off + width ≤ pteBits x.lim 16 32 * 65536 → at_ + width ≤ hbmSize → die = portDie p →
      (wr = false → ∃ t, exec .linkFlitArrive s = .next t ∧ t.mem = s.mem ∧ answers t (some (s.readBytes (.hbm die at_) width)))
      ∧ (wr = true → s.domains = [] → data.length = width → Memory.wf s.mem = true → ∃ t, exec .linkFlitArrive s = .next t ∧ answers t (some [])
          ∧ t.readBytes (.hbm die at_) width = data ∧ ∀ q : Place, (∀ i < width, (Place.hbm die (at_ + i)).key ≠ q.key) → t.readByte q = s.readByte q)))
  ∧ (∀ s p data f rest, s.subject = .linkFlitArrive (portLink p) true .rsp true →
    takeFlit .rsp (s.fabric.bufs.get [] (2 * portLink p + 1)) = some (f, rest) → f.cargo = .outbound p data [] →
    ∃ t, exec .linkFlitArrive s = .next t ∧ t.mem = s.mem ∧ t.groups = s.groups ∧ t.outbox = s.outbox ++ [.fabric p data])
  ∧ (∀ s p v, s.subject = .fpctlWrite p v →
      let x := s.port p
      let die := portDie p
      let idie := pteBits x.win 59 5
      let inside : Prop := idie < 20 ∧ s.slotOf die ≠ 0 ∧ s.slotOf idie = s.slotOf die
      ∃ t, exec .fpctlWrite s = .next t ∧ t.mem = s.mem ∧ t.groups = s.groups ∧ (∀ q, q ≠ p → t.port q = s.port q)
        ∧ (s.boot.retired.contains die = true → t.port p = { x with oen := false, ien := false })
        ∧ (s.boot.retired.contains die = false → v.getLsbD 1 = false → t.port p = { x with oen := v.getLsbD 0, ien := false })
        ∧ (s.boot.retired.contains die = false → v.getLsbD 1 = true → (x.ien = true ∨ inside) →
            t.port p = { x with oen := v.getLsbD 0, ien := true })
        ∧ (s.boot.retired.contains die = false → v.getLsbD 1 = true → x.ien = false → ¬inside →
            t.port p = { x with oen := v.getLsbD 0, ien := false }))
  ∧ (∀ s p up, s.subject = .fabricPortLinkTraining p up → exec .fabricPortLinkTraining s = .next (s.putPort p { s.port p with up := up }))
  ∧ (∀ s id l, s.subject = .fabricRefusalReceive id l →
      (∀ a x g, s.access.find id = some a → (a.lanes.find? fun y => y.lane = l) = some x → s.group? a.g = some g → g.team = a.team →
        (a.kind.isLoad = true → (x.done = false ∨ x.got ≠ none) → ∃ (u : State) (h : Group) (b : Access),
          exec .fabricRefusalReceive s = .next (u.report a.g.die a.ctx (groupFault a.g { cause := .perm, aux := 0#32, ofs := x.ofs, sel := a.sel, lin := x.lin }))
            ∧ u.group? a.g = some h ∧ h.run = .parked (.page .perm) ∧ h.pc = g.pc ∧ h.clause = g.clause ∧ h.pos = g.pos ∧ u.mem = s.mem
            ∧ u.access.find id = some b ∧ (b.lanes.find? fun y => y.lane = l) = some { x with done := false, got := none })
        ∧ (a.kind = .store → (∀ e ∈ g.log, e.away ≠ some id) →
          let told : Prop := x.lin / 65536 ∈ a.told
          (g.log.length < 16 → ∃ (u : State) (e : LogEntry),
            (¬told → exec .fabricRefusalReceive s = .next ((u.report a.g.die a.ctx
              (groupFault a.g { cause := .perm, aux := 1#32, ofs := x.ofs, sel := a.sel, lin := x.lin })).after 256 (.faultRetry (.sideLog a.g))))
            ∧ (told → exec .fabricRefusalReceive s = .next (u.after 256 (.faultRetry (.sideLog a.g))))
            ∧ u.group? a.g = some { g with log := g.log ++ [e] } ∧ e.kind = .store ∧ e.lane = x.lane ∧ e.lin = x.lin ∧ e.data = x.data ∧ e.width = a.width
            ∧ e.away = none ∧ u.mem = s.mem)
          ∧ (16 ≤ g.log.length → (∀ h ∈ (s.pathOf a.g.die x.runs).head?, (s.wall h.link).closed = false) → ∃ t b, exec .fabricRefusalReceive s = .next t
            ∧ t.access.find id = some b ∧ (b.lanes.find? fun y => y.lane = l) = some { x with path := s.pathOf a.g.die x.runs, done := false, got := none }
            ∧ t.groups = s.groups ∧ t.mem = s.mem))
        ∧ ∀ e rest, a.kind = .store → g.log = e :: rest → e.away = some id → (∀ y ∈ rest, y.away ≠ some id) → ∃ t due, exec .fabricRefusalReceive s = .next t
            ∧ t.group? a.g = some { g with log := { e with away := none } :: rest } ∧ t.mem = s.mem ∧ s.clk + 256 ≤ due ∧ (due, Event.faultRetry (.sideLog a.g)) ∈ t.agenda)
      ∧ (∀ ck x, s.access.find id = none → s.findCopy id = some (ck, x) → ∃ wr lin, exec .fabricRefusalReceive s = .next (s.copyCancel ck x wr lin))
      ∧ ∀ ck d, s.access.find id = none → s.findCopy id = none → s.findDrain id = some (ck, d) → d.away = true →
          ∃ lin, exec .fabricRefusalReceive s = .next ((s.unpost (.drainComplete ck id)).drainFault ck d .perm lin))
  ∧ (∀ s e, s.subject = .uncorrectableError e →
      (∀ d o, e = .hbm d o → ∃ t, exec .uncorrectableError s = .next t ∧ Place.hbm d (o / 64 * 64) ∈ t.poison ∧ t.mem = s.mem ∧ t.groups = s.groups)
      ∧ (∀ d r, e = .folio d r → ∃ t, exec .uncorrectableError s = .next t ∧ r ∈ (t.die d).folioBad ∧ t.mem = s.mem ∧ t.groups = s.groups)
      ∧ (∀ d c q i, e = .queue d c q i → ∃ t, exec .uncorrectableError s = .next t ∧ i ∈ (t.wq d (8 * c + q)).spoilt
          ∧ (t.wq d (8 * c + q)).items = (s.wq d (8 * c + q)).items ∧ t.mem = s.mem ∧ t.groups = s.groups)
      ∧ (∀ d, e = .corrected d → exec .uncorrectableError s = .next (s.putDie d { s.die d with corrected := (s.die d).corrected + 1 }))
      ∧ (∀ d, e = .cleanLine d → exec .uncorrectableError s = .next s)
      ∧ (∀ k g, e = .group k → s.group? k = some g → exec .uncorrectableError s = .next (s.eccTeam g.team))
      ∧ (∀ ck b tm, e = .bank ck b → (s.core ck.die ck.core).banks.find b = some tm → exec .uncorrectableError s = .next (s.eccTeam tm))
      ∧ (∀ ck n, e = .tile ck n → exec .uncorrectableError s
          = .next (if (s.tile ck.die ck.core n).state = .free then s else s.eccTeam (s.tile ck.die ck.core n).owner))
      ∧ (∀ ck tm, e = .accumulators ck → (s.arr ck.die ck.core).owner = some tm → exec .uncorrectableError s = .next (s.eccTeam tm))
      ∧ ∀ part ctx id n tk team, e = .draft part ctx id n → s.taskOf part ctx id = some (tk, team) → n < tk.draft.length →
          (tk.spec = true → exec .uncorrectableError s = .next (s.abort part ctx id true))
          ∧ ∀ gr hd o, tk.spec = false → tk.draft[n]? = some gr → gr.place = .hbm hd o → ∃ t, exec .uncorrectableError s = .next t ∧ gr.place ∈ t.poison
            ∧ t.mem = s.mem ∧ t.teams = s.teams ∧ ∀ k h u, t.group? k = some h → h.task = some u → u.record.id = id → ∀ y ∈ u.draft, y.place ≠ gr.place)
  ∧ (∀ s d, s.subject = .folioRefresh d → exec .folioRefresh s = .next s)
  ∧ (∀ s w, s.subject = .faultRetry w →
      (∀ d f, w = .feeder d f → exec .faultRetry s = .next (s.feederTry d f true))
      ∧ (∀ ck id, w = .drain ck id → exec .faultRetry s = .next (s.drainComplete ck id))
      ∧ (∀ ck id, w = .copy ck id → exec .faultRetry s = .next (s.copyBeat ck id))
      ∧ (∀ l n, w = .node l n → exec .faultRetry s = .next (s.nodeStart l n))
      ∧ (∀ p c n, w = .event p c n → exec .faultRetry s = .next (s.evRetry p c n))
      ∧ (∀ k, w = .sideLog k → exec .faultRetry s = .next (s.sideLogRetry k))
      ∧ ∀ k g e d o leaf, w = .sideLog k → s.group? k = some g → g.task = none → g.log = [e] → e.away = none → e.kind = .store → e.data.length = e.width → g.run ≠ .parked .frozen → d = k.die →
          s.freshWalk (s.whoOf k g) e.lin .write = .ok (.hbm d o, leaf) → s.access = [] → s.domains = [] → s.poison = [] →
          (∀ m ∈ s.teams, m.2.logs = []) → Memory.wf s.mem = true →
          ∃ t h, exec .faultRetry s = .next t ∧ t.group? k = some h ∧ h.log = [] ∧ t.readBytes (.hbm d o) e.width = e.data
            ∧ ∀ q : Place, (∀ i < e.width, (Place.hbm d (o + i)).key ≠ q.key) → t.readByte q = s.readByte q)

/-- Registers over the host's buses (R5, R6, R17, R19, R26, R32): before stage 4 only BAR4 answers, from stage 1 on, and nothing of the second link
while die 19 is retired; a write to a kick page is a kick; a write of a register's own width has that register's effect and another width has none; an
AtomicOp reads and writes in one and tells the host the old value; a read clears the fields that a read clears. The model's choices in it are that an access of another
width, or at no register, does nothing (log 69), that an AtomicOp goes through its register's rules (log 70) and what remains of die 19's functions (log 76). -/
def Obligations.RegisterAccessEvents : Prop :=
  (∀ (s : State) fn bar, (s.fnLive fn = false → s.barsOpen fn bar = false)
      ∧ (s.fnLive fn = true → (s.boot.stage = 4 → s.barsOpen fn bar = true) ∧ (bar = 4 → 1 ≤ s.boot.stage → s.barsOpen fn bar = true)
        ∧ (s.boot.stage ≠ 4 → bar ≠ 4 → s.barsOpen fn bar = false) ∧ (s.boot.stage = 0 → s.barsOpen fn bar = false))
      ∧ (s.fnLive fn = true ↔ fn / 32 = 0 ∨ s.boot.retired.contains 19 = false))
  ∧ (∀ s fn bar off width v, s.subject = .registerWrite fn bar off width v →
    (s.barsOpen fn bar = false → exec .registerWrite s = .next s)
    ∧ (s.barsOpen fn bar = true →
      (∀ q o, bar = 2 → off = 4096 * q + o → o < 8 → q < 4096 → exec .registerWrite s = .next (s.post s.clk (.kick fn q o width v)))
      ∧ (¬(bar = 2 ∧ off % 4096 < 8 ∧ off / 4096 < 4096) →
          (∀ r n, regAt fn bar off = some (r, n) → exec .registerWrite s = .next (if n = width then s.regPut fn none r v else s))
          ∧ (regAt fn bar off = none → exec .registerWrite s = .next s))))
  ∧ (∀ s fn bar off width op v r, s.subject = .registerAtomic fn bar off width op v → s.barsOpen fn bar = true → regAt fn bar off = some (r, width) →
      ¬(bar = 2 ∧ off % 4096 < 8 ∧ off / 4096 < 4096) →
      let old : BitVec 64 := BitVec.ofNat 64 (s.regRead fn bar off width)
      (op = .swap → exec .registerWrite s = .next (((s.regClear fn r).regPut fn none r v).send (.atomicOld fn bar off old)))
      ∧ (op = .fetchAdd → exec .registerWrite s = .next (((s.regClear fn r).regPut fn none r (old + v)).send (.atomicOld fn bar off old)))
      ∧ ∀ c, op = .cas c → exec .registerWrite s = .next ((if old.toNat = c.toNat % 2 ^ (8 * width) then (s.regClear fn r).regPut fn none r v
          else s.regClear fn r).send (.atomicOld fn bar off old)))
  ∧ (∀ s fn bar off width, s.subject = .registerReadClear fn bar off width →
      (s.barsOpen fn bar = false → exec .registerReadClear s = .next s)
      ∧ ∀ r, s.barsOpen fn bar = true → regAt fn bar off = some (r, width) → exec .registerReadClear s = .next (s.regClear fn r))
  ∧ ∀ (s : State) fn,
      (∀ l, ((s.regClear fn (.fwstat l)).wall l).vcount = 0#16) ∧ (s.regClear fn .pstat).fabric.pdone = false ∧ (s.regClear fn .mbstat).boot.mbDone = false
      ∧ (∀ p, ((s.regClear fn (.fpstat p)).port p).refused = 0#16)
      ∧ (∀ d c, ((s.regClear fn (.ctx d c 0x50)).ctx d c).resDone = false)
      ∧ ∀ d c v, (s.ctx d c).en = true → s.regPut fn none (.ctx d c 0x08) v = s ∧ s.regPut fn none (.ctx d c 0x18) v = s

/-- Queues, kicks and launches (R28 to R34): a good descriptor enables a queue with its counters at 0; a drained queue refuses kicks and closes when
idle; a kick takes the next number and holds a launch, or retires at once with its error; a launch that may start binds the generation in force; one whose
nodes are over retires, and DONE runs over contiguous numbers; both status words are written together. The model's choices in it are that any function drains a queue (log 71)
and what a new enable starts from (log 72). -/
def Obligations.QueueAndLaunchEvents : Prop :=
  ∀ (s : State) fn q, let x := s.queue q
    (s.subject = .queueEnable fn q → x.en = false → s.slotHolds (pslotOf fn x.pslot) = true → Config.hostRefuses s.freeCtr = false →
      (s.setFreeCtr (s.freeCtr + 1)).descCheck fn (pslotOf fn x.pslot) (s.hostBytes noPasid x.qda.toNat 256) = none →
      ∃ t, exec .queueEnable s = .next t ∧ ((x.word0 ≠ 0 ∨ x.errseq ≠ 0#32) → (t.queue q).statusDue = true) ∧ (t.queue q).en = true ∧ (t.queue q).fn = fn ∧ (t.queue q).done = 0#32 ∧ (t.queue q).taken = 0#16 ∧ (t.queue q).err = 0#8
        ∧ (t.queue q).desc = qdescOf (s.hostBytes noPasid x.qda.toNat 256) ∧ t.mem = s.mem ∧ t.groups = s.groups)
    ∧ (∀ i, (i = .drain ∧ s.subject = .drain fn q) ∨ (i = .queueDisable ∧ s.subject = .queueDisable fn q) → x.en = true →
      ∃ t, exec i s = .next t ∧ (t.queue q).draining = true ∧ (t.queue q).en = true ∧ t.mem = s.mem)
    ∧ (s.subject = .queueDrainDone q → x.draining = true → s.queueIdle q = true → exec .queueDrainDone s = .next (s.putQueue q { x with en := false, draining := false }))
    ∧ (∀ v g, s.subject = .kick fn q 0 8 v → x.en = true → x.fn = fn → s.fnLive fn = true → x.draining = false → x.held.length < 64 → pteBits v 59 5 = 0 →
      s.graph? x.pslot.toNat x.desc.ctx (v.setWidth 32) = some g → pteBits v 32 24 < x.desc.slots → (∀ nd ∈ g.nodes, nd.kind ≠ .evwait) →
      ∃ t l, exec .kick s = .next t ∧ (t.queue q).seq = x.seq + 1#32 ∧ (t.queue q).taken = x.taken + 1#16 ∧ s.fresh ∈ (t.queue q).held
        ∧ t.host.launches.find s.fresh = some l ∧ l.queue = some (q, x.seq.toNat) ∧ l.nodes = g.nodes ∧ l.started = false
        ∧ l.args = s.hostBytes x.desc.pasid (x.desc.argBase + pteBits v 32 24 * x.desc.slotSz) x.desc.slotSz)
    ∧ (∀ o w v, s.subject = .kick fn q o w v → (x.en = false ∨ x.fn ≠ fn ∨ x.draining = true ∨ s.fnLive fn = false) → exec .kick s = .next s)
    ∧ (∀ l y seq, s.subject = .launchStart l → s.host.launches.find l = some y → y.queue = some (q, seq) → y.started = false → s.mayStart q l y = true →
      ∃ t z, exec .launchStart s = .next t ∧ t.host.launches.find l = some z ∧ z.started = true ∧ z.gen = (s.part y.part).gen ∧ l ∉ (t.queue q).held)
    ∧ (∀ l y seq, s.subject = .launchRetire l → s.host.launches.find l = some y → y.queue = some (q, seq) → y.runs.all NodeRun.over = true → Tbl.sorted s.host.launches = true →
      ∃ t, exec .launchRetire s = .next t ∧ t.host.launches.find l = none ∧ t.mem = s.mem
        ∧ (x.done = BitVec.ofNat 32 seq → x.retired = [] → (t.queue q).done = x.done + 1#32))
    ∧ (s.subject = .statusWrite q → ∃ t, exec .statusWrite s = .next t
        ∧ t.mem = (s.writeBytes (.host x.desc.pasid x.desc.stat) (leBytes 8 x.word0 ++ leBytes 8 x.errseq.toNat)).mem
        ∧ (t.queue q).statusDue = false ∧ (t.queue q).irqs = 0 ∧ t.outbox = s.outbox ++ List.replicate x.irqs (.msix x.fn x.desc.vec))

/-- Graphs, nodes and weight loads (R35 to R37, R41 to R43): GCMD registers a good image under the next handle that is free or answers its first error; GUNREG
releases a handle; a node whose predecessors have finished starts; a finished node frees its successors; a shard that has come is broadcast, and with the right digest it is
then stored, and the generation is published once no launch binds the older table. That the handle after h is h + 1 is the model's choice (log 7). -/
def Obligations.GraphAndNodeEvents : Prop :=
  (∀ s fn v, s.subject = .gcmd fn v →
    let part := pslotOf fn (s.greg fn).pslot
    (∀ e i, s.parseGraph part (pteBits v 4 4) (pteBits v 8 56 * 256) = .error (e, i) → ∃ t, exec .gcmd s = .next t ∧ (t.greg fn).done = true ∧ (t.greg fn).errg = e
      ∧ (t.greg fn).handle = 0#32 ∧ t.host.graphs = s.host.graphs ∧ t.mem = s.mem)
    ∧ ∀ nodes, s.parseGraph part (pteBits v 4 4) (pteBits v 8 56 * 256) = .ok nodes →
      let h := s.freeHandle part (s.host.graphs.length + 2) (s.part part).next
      (∃ t, exec .gcmd s = .next t ∧ (t.greg fn).done = true ∧ (t.greg fn).errg = 0#8 ∧ (t.greg fn).handle = h ∧ (t.part part).next = h + 1#32 ∧ t.mem = s.mem
        ∧ t.host.graphs = s.host.graphs ++ [{ part := part, ctx := pteBits v 4 4, handle := h, nodes := nodes }])
      ∧ (s.host.graphs.length < 2 ^ 31 → h ≠ 0#32 ∧ ∀ g ∈ s.host.graphs, g.part = part → g.handle ≠ h)
      ∧ ((s.part part).next ≠ 0#32 → (∀ g ∈ s.host.graphs, g.part = part → g.handle ≠ (s.part part).next) → h = (s.part part).next))
  ∧ (∀ s fn h, s.subject = .gunreg fn h → ∃ t, exec .gunreg s = .next t ∧ t.mem = s.mem
      ∧ ∀ g, g ∈ t.host.graphs ↔ g ∈ s.host.graphs ∧ ¬(g.part = pslotOf fn (s.greg fn).pslot ∧ g.handle = h))
  ∧ (∀ s l n x nd, s.subject = .nodeStart l n → s.host.launches.find l = some x → x.nodes[n]? = some nd → x.runs[n]? = some .waiting → x.started = true → x.asked = none →
      (∀ p ∈ nd.preds, x.runs[p]? = some .finished) →
      let far := 60 * hops 0 (s.homeDie x.part)
      (nd.kind = .evsig → exec .nodeStart s = .next (((s.setNodeRun l n (.running 1 false)).after far (.eventActArrive x.part x.ctx nd.name (.signal none))).post s.clk (.nodeFinish l n)))
      ∧ (nd.kind = .evwait → exec .nodeStart s = .next ((s.setNodeRun l n (.running 1 false)).after far (.eventActArrive x.part x.ctx nd.name (.node l n))))
      ∧ (nd.kind = .copy → exec .nodeStart s = .next (s.copyNode l n x nd))
      ∧ (nd.kind = .grid ∨ nd.kind = .ordered → exec .nodeStart s = .next (s.gridStart l n x nd .waiting))
      ∧ (nd.kind = .loadw → let u := s.setNodeRun l n (.running 1 false)
          exec .nodeStart s = .next ((u.putPart x.part { u.part x.part with loads := (u.part x.part).loads ++ [(l, n)] }).loadNext x.part)))
  ∧ (∀ s l n x nd, s.subject = .nodeFinish l n → s.host.launches.find l = some x → x.runs[n]? = some (.running 0 false) → x.nodes[n]? = some nd → n < x.nodes.length →
      ∃ t y, exec .nodeFinish s = .next t ∧ t.host.launches.find l = some y ∧ y.runs = skipFrom x.nodes (x.runs.set n .finished) 0 [] ∧ t.mem = s.mem
        ∧ ∃ due, (due, Event.launchRetire l) ∈ t.agenda)
  ∧ (∀ s part i ld x bs, s.subject = .shardReceive part i (.bytes bs) → (s.part part).load = some ld → ld.shards[i]? = some x → ld.got = i → s.shardFlies part i = false → ld.cast = true → Config.sha512 bs = x.digest →
      ld.shards[i + 1]? = none → ∃ t u, exec .shardReceive s = .next t ∧ u = s.storeShard part (s.loadCtx ld.launch).1 ld x bs ∧ t.mem = u.mem
        ∧ ∃ due, (due, Event.generationPublish part) ∈ t.agenda)
  ∧ (∀ s part i ld x bs, s.subject = .shardReceive part i (.bytes bs) → (s.part part).load = some ld → ld.shards[i]? = some x → ld.got = i → s.shardFlies part i = false → ld.cast = false →
      (∀ l, (s.wall l).closed = false) → ∃ t, exec .shardReceive s = .next t ∧ t.mem = s.mem ∧ t.groups = s.groups ∧ (t.part part).load = some { ld with cast := true }
        ∧ (s.clk, Event.shardReceive part i (.bytes bs)) ∈ t.agenda)
  ∧ ∀ s part ld, s.subject = .generationPublish part → (s.part part).load = some ld →
      (s.bindsOlder part (s.part part).gen = true → exec .generationPublish s = .next (s.post (s.clk + 1) (.generationPublish part)))
      ∧ (s.bindsOlder part (s.part part).gen = false → ∃ t, exec .generationPublish s = .next t ∧ (t.part part).gen = (s.part part).gen + 1 ∧ (t.part part).load = none
          ∧ (t.part part).ldDone = true ∧ (t.part part).ldStatus = 0#3 ∧ t.mem = s.mem)

/-- Contexts and translations (R144, R145, R154, R160, R330): a write of EN enables a context whose tables are given, on a die of a partition, or leaves the
first error; EN = 0 takes effect where the die holds nothing of it; a kill drops its events, waiting acts and queues on the die, and a held EN = 0 waits for
the die to hold nothing of it; FQCI takes a value the ring allows; TLBINV leaves no translation of its range in any TLB of the partition and no fetched
line in its cores, one TLBINV at a time, each within 2048 clk. Which ERRC is left where several grounds hold is log 57, and where the dies are not joined log 134. -/
def Obligations.ContextEvents : Prop :=
  ∀ (s : State) d c, let x := s.ctx d c
    (s.subject = .contextEnable d c → x.en = false →
      let bad (e : Byte) : Prop := exec .contextEnable s = .next (s.putCtx d c { x with errc := e })
      ((x.sdtb = 0#64 ∨ x.rbtb = 0#64 ∨ x.ptb = 0#64) → bad 1#8)
      ∧ (x.sdtb ≠ 0#64 → x.rbtb ≠ 0#64 → x.ptb ≠ 0#64 → (x.evtb = 0#64 ∨ x.saveb = 0#64) → bad 2#8)
      ∧ (x.sdtb ≠ 0#64 → x.rbtb ≠ 0#64 → x.ptb ≠ 0#64 → x.evtb ≠ 0#64 → x.saveb ≠ 0#64 →
        (pteBits x.fqb 12 52 = 0 → bad 3#8)
        ∧ (pteBits x.fqb 12 52 ≠ 0 → (s.slotOf d = 0 ∨ s.fabric.unjoined = true) → bad 5#8)
        ∧ (pteBits x.fqb 12 52 ≠ 0 → s.slotOf d ≠ 0 → s.fabric.unjoined = false →
          exec .contextEnable s = .next ((State.freePages d c 16 (s.putCtx d c { x with en := true, killing := false })).gainWork d c))))
    ∧ (s.subject = .contextDisable d c → x.en = true →
      (s.ctxIdle d c = true → exec .contextDisable s = .next (s.contextOff d c) ∧ ((s.contextOff d c).ctx d c).en = false)
      ∧ (s.ctxIdle d c = false → exec .contextDisable s = .next (s.putCtx d c { x with errc := 4#8 })))
    ∧ (s.subject = .contextIdle d c → x.killing = true →
      (s.ctxIdle d c = true → exec .contextIdle s = .next (s.contextOff d c)) ∧ (s.ctxIdle d c = false → exec .contextIdle s = .next (s.post (s.clk + 1) (.contextIdle d c))))
    ∧ (∀ hold, s.subject = .contextKill d c hold → ∃ t, exec .contextKill s = .next t ∧ (∀ e ∈ (t.die d).events, e.1.1 ≠ c) ∧ (∀ h ∈ (t.die d).held, h.ctx ≠ c)
        ∧ (∀ q ∈ (t.die d).queues, q.1 / 8 ≠ c) ∧ (hold = true → (t.ctx d c).en = true → (t.ctx d c).killing = true ∧ (t.clk, Event.contextIdle d c) ∈ t.agenda))
    ∧ (∀ v, s.subject = .fqciWrite d c v →
      (ringSize x.fqb < (x.fqpi - v).toNat → exec .fqciWrite s = .next s)
      ∧ ((x.fqpi - v).toNat ≤ ringSize x.fqb → exec .fqciWrite s = .next ((s.putCtx d c { x with fqci := v }).drainFaults d c x.faults)))
    ∧ (∀ v, s.subject = .tlbinv d c v → ∃ t, exec .tlbinv s = .next t ∧ (t.ctx d c).tlbBusy = x.tlbBusy ++ [v] ∧ t.tlb = s.tlb ∧ t.mem = s.mem
        ∧ (x.tlbBusy = [] → d < 20 → ∃ due, 256 + s.clk ≤ due ∧ due < 2048 + s.clk ∧ (due, Event.tlbinvDone d c) ∈ t.agenda))
    ∧ ∀ v rest, s.subject = .tlbinvDone d c → x.tlbBusy = v :: rest → ∃ t, exec .tlbinvDone s = .next t ∧ (t.ctx d c).tlbBusy = rest ∧ t.mem = s.mem
        ∧ (∀ e, e ∈ t.tlb ↔ e ∈ s.tlb ∧ ¬((s.diesOf (s.slotOf d)).contains e.die = true ∧ e.ctx = c ∧ tlbinvHits v (e.page * e.size) e.size = true))
        ∧ ∀ e ∈ t.cores, (s.diesOf (s.slotOf d)).contains (e.1 / 16) = true → ∀ l ∈ e.2.lines, ¬(l.ctx = c ∧ tlbinvHits v l.lin 64 = true)

/-- Descriptors, rubric commands and the host's answers (R55, R143, R148, R152, R154, R160): SEGSYNC and RBCMD clear RBRES and have it answered when every die
knows; an act's status scalar is then no longer pending; the host's answer for a page keeps its translation and makes ready the groups that wait for it,
and a refusal kills them with a record; a refused translation asks for the page; ATS_INVALIDATE takes the host's translations back; PKCTL resumes or kills
a parked group of the writer's own context, and no other. RBRES is answered for the last act alone. How long an answer of the host is kept is log 74. Each of segsync, descriptorSyncDone, rbcmdBind, rbcmdUnbind, rbcmdUnbindRevoke, rbcmdRetire,
priResponse, atsTranslationCompletion, atsInvalidate, pkctlResume and pkctlKill completes. -/
def Obligations.DescriptorAndHostEvents : Prop :=
  (∀ s d c v, s.subject = .segsync d c v → ∃ t due, exec .segsync s = .next t ∧ (t.ctx d c).resDone = false ∧ (t.ctx d c).resAct = s.fresh ∧ t.mem = s.mem
      ∧ (d < 20 → s.clk + 80 ≤ due ∧ due < s.clk + 2048)
      ∧ (due, Event.descriptorSyncDone (s.slotOf d) c (some (if v.getLsbD 31 then everySel else v.toNat % 65536)) (.rbres d c s.fresh)) ∈ t.agenda)
  ∧ (∀ s part ctx, (∀ sel d c n, s.subject = .descriptorSyncDone part ctx sel (.rbres d c n) → ∃ t, exec .descriptorSyncDone s = .next t
          ∧ (t.ctx d c).resDone = (decide ((s.ctx d c).resAct = n) || (s.ctx d c).resDone)
          ∧ (sel = none → (s.ctx d c).resAct = n → t = s.putCtx d c { s.ctx d c with resDone := true }))
      ∧ ∀ k team n g, s.subject = .descriptorSyncDone part ctx none (.scalar k team n) → s.group? k = some g → g.team = team →
          ∃ t h, exec .descriptorSyncDone s = .next t ∧ t.group? k = some h ∧ h.sc = g.sc ∧ ∀ p ∈ h.pend, ¬(p.id = 0 ∧ p.on = .scalar n))
  ∧ (∀ s d c idx sel i a, (i = .rbcmdBind ∧ s.subject = .rbcmdBind d c idx sel ∧ a = .bind sel) ∨ (i = .rbcmdUnbind ∧ s.subject = .rbcmdUnbind d c idx ∧ a = .unbind)
        ∨ (i = .rbcmdUnbindRevoke ∧ s.subject = .rbcmdUnbindRevoke d c idx ∧ a = .revoke) ∨ (i = .rbcmdRetire ∧ s.subject = .rbcmdRetire d c idx ∧ a = .retire) →
      let u := s.newId.2.putCtx d c { s.ctx d c with resDone := false, resAct := s.fresh }
      (∃ v, exec i s = .next v)
      ∧ (∀ t, u.applyBind (dieWho d c) idx a = (.refused, t) → ∃ v due, exec i s = .next v ∧ (v.ctx d c).res = 1#2 ∧ v.mem = t.mem
        ∧ (due, Event.descriptorSyncDone (s.slotOf d) c none (.rbres d c s.fresh)) ∈ v.agenda)
      ∧ ∀ e sig t, u.applyBind (dieWho d c) idx a = (.applied e sig, t) → (t.ctx d c).resAct = s.fresh → ∃ v due, exec i s = .next v ∧ (v.ctx d c).res = 0#2 ∧ v.mem = t.mem
        ∧ (due, Event.descriptorSyncDone (s.slotOf d) c (if a = .revoke ∧ e.sel ≠ 0 then some e.sel else none) (.rbres d c s.fresh)) ∈ v.agenda)
  ∧ (∀ s d c page i, ((i = .priResponse ∧ s.subject = .priResponse d c page true) ∨ (i = .atsTranslationCompletion ∧ s.subject = .atsTranslationCompletion d c page true)) →
      (∃ t, exec i s = .next t)
      ∧ ∀ k g tr, s.groups = [(keyNum k, g)] → k.core < 16 → k.slot < 512 → k.die = d → s.ctxOf g.team = c → g.run = .parked (.host page tr) → g.budgetDue = false →
          s.access = [] → ∃ t h, exec i s = .next t ∧ t.group? k = some h ∧ h = { g with run := .ready, readyAt := s.clk } ∧ t.mem = s.mem
            ∧ ∃ e ∈ t.tlb, e.die = 20 ∧ e.ctx = (s.ctx d c).pasid.toNat ∧ e.page = page)
  ∧ (∀ s d c page, s.subject = .priResponse d c page false →
      let s1 := s.priAnswered d c page
      (s.groups = [] → s.teams = [] → s.cores = [] → (s.die d).saved = [] → exec .priResponse s = .next (s1.retryNow d))
      ∧ ∀ k g, s1.hostWaiters d c page = [(k, g)] →
        let u := s1.refuseGroup k g
        u.groupsOn d c = [] → (∀ e ∈ u.teams, e.2.logs = []) → (∀ e ∈ u.cores, e.2.copy = []) → (u.die d).saved = [] → exec .priResponse s = .next (u.retryNow d))
  ∧ (∀ s d c page, s.subject = .atsTranslationCompletion d c page false → exec .atsTranslationCompletion s = .next (s.priAsk d c page (s.hostWrites d c page)))
  ∧ (∀ s pasid lo hi, s.subject = .atsInvalidate pasid lo hi → ∃ t, exec .atsInvalidate s = .next t ∧ t.mem = s.mem ∧ t.groups = s.groups
      ∧ ∀ e, e ∈ t.tlb ↔ e ∈ s.tlb ∧ ¬(e.die = 20 ∧ e.ctx = pasid ∧ lo ≤ e.page ∧ e.page ≤ hi))
  ∧ (∀ s d c n g cs lin home name a, s.group? ⟨d, c, n⟩ = some g → g.run = .parked (.act cs lin home name a) → g.speculative = false → s.subject = .pkctlResume d c n none →
      exec .pkctlResume s = .next ((s.resumeParked ⟨d, c, n⟩ g).eventAct d (s.ctxOf g.team) name (actFrom ⟨d, c, n⟩ a)))
  ∧ ∀ s d c n by_ g cause, s.group? ⟨d, c, n⟩ = some g → (g.run = .parked (.page cause) ∨ ∃ p t, g.run = .parked (.host p t)) →
      (s.subject = .pkctlResume d c n by_ → (by_ = none ∨ by_ = some (s.ctxOf g.team)) →
        exec .pkctlResume s = .next (s.resumeParked ⟨d, c, n⟩ g)
        ∧ (s.access = [] → g.budgetDue = false → ∃ t, exec .pkctlResume s = .next t ∧ t.group? ⟨d, c, n⟩ = some { g with run := .ready, readyAt := s.clk } ∧ t.mem = s.mem))
      ∧ (s.subject = .pkctlResume d c n by_ → (∃ x, by_ = some x ∧ x ≠ s.ctxOf g.team) → exec .pkctlResume s = .next s)
      ∧ (s.subject = .pkctlKill d c n by_ → (by_ = none ∨ by_ = some (s.ctxOf g.team)) →
        exec .pkctlKill s = .next (s.killAny ⟨d, c, n⟩ g)
        ∧ (g.task = none → s.barriers = [] → Tbl.sorted s.groups = true → ∃ t, exec .pkctlKill s = .next t ∧ t.group? ⟨d, c, n⟩ = none ∧ t.mem = s.mem
          ∧ ∀ tm, s.team? g.team = some tm → ∃ u, t.team? g.team = some u ∧ u.failed = true ∧ u.groups = tm.groups.filter fun e => e.2 ≠ n))
      ∧ (s.subject = .pkctlKill d c n by_ → (∃ x, by_ = some x ∧ x ≠ s.ctxOf g.team) → exec .pkctlKill s = .next s)

/-- Scheduling on a die and its pens (R44, R47 to R56, R64, R65, R137, R138, R166, R254, R394): a die with work and no context takes the lowest; a slice with no
other context's work is renewed, and otherwise the die begins to switch to the first of them unless the context holds matrix state; a saved group is restored from its save area, on
a window rounded up to a multiple of 8; clusters are placed in their order; a loaded object's kernels start with the emulation handler as TRAPV; a pen without
a group is taken by the oldest ready one; a fetched clause is kept, one that lies in a refresh window waits for its end; budgets count 64 clk of their
context's run, and at 0 a team's groups are to raise BUDGET; a claim is granted when the pen has the registers, and claims that no group of the team can make way
for raise REG_DEADLOCK. The model's choices in it are how a save area is read back (log 56), what a budget counts (log 103), when the pens are looked at for deadlock (log 118) and
that the loader's work is an event at the row CLUSTER_PLACE (log 128). -/
def Obligations.SchedulingEvents : Prop :=
  (∀ s d c, s.subject = .contextStart d c → (s.die d).run = none →
      (∀ x, s.firstWork d (List.range 16) = some x → exec .contextStart s = .next (s.takeDie d x)) ∧ (s.firstWork d (List.range 16) = none → exec .contextStart s = .next s))
  ∧ (∀ s d c old x, s.subject = .contextStart d c → (s.die d).run = some old →
      ((s.die d).switching = false → exec .contextStart s = .next s)
      ∧ ((s.die d).switching = true → (s.die d).coming = some c → (s.ctx d c).en = true → exec .contextStart s = .next (s.takeDie d c))
      ∧ ((s.die d).switching = true → ((s.die d).coming ≠ some c ∨ (s.ctx d c).en = false) → s.firstWork d (ctxsAfter old) = some x → exec .contextStart s = .next (s.takeDie d x)))
  ∧ (∀ s d n c, s.subject = .sliceEnd d n → (s.die d).run = some c → (s.die d).slice = n → (s.die d).switching = false →
      (s.firstWork d (ctxsAfter c) = none → exec .sliceEnd s = .next (s.beginSlice d c))
      ∧ ∀ x, s.firstWork d (ctxsAfter c) = some x → (s.holdsMatrix d c = true → exec .sliceEnd s = .next (s.post (s.clk + 1) (.sliceEnd d n)))
        ∧ (s.holdsMatrix d c = false → s.groups = [] → s.domains = [] → exec .sliceEnd s = .next ((s.updDie d fun y => { y with switching := true, coming := some x }).post (s.clk + 1) (.contextStart d x))))
  ∧ (∀ s k g, s.group? k = some g → g.flash = .forward → s.subject = .flashbackTimeout k g.team → exec .flashbackTimeout s = .next (s.stopToSave k g true))
  ∧ (∀ s k g tm full, s.subject = .groupSave k g.team → s.group? k = some g → s.team? g.team = some tm → g.flash = .saving full 0 → s.idleSlot g = false →
      (g.quiet = true → exec .groupSave s = .next (s.beginSave k g full tm)) ∧ (g.quiet = false → exec .groupSave s = .next (s.post (s.clk + 1) (.groupSave k g.team))))
  ∧ (∀ s k g tm full due, s.subject = .groupSave k g.team → s.group? k = some g → s.team? g.team = some tm → g.flash = .saving full (due + 1) → due + 1 ≤ s.clk →
      exec .groupSave s = .next (s.endSave k g full tm))
  ∧ (∀ s d n x, s.subject = .groupRestore d n → ((s.die d).saved.find? fun y => y.id = n) = some x →
      (s.die d).run = some x.ctx → (s.die d).switching = false →
      (s.penFor d x.core (window8 x.group.window) = none → exec .groupRestore s = .next (s.post (s.clk + 1) (.groupRestore d n)))
      ∧ ∀ k, s.penFor d x.core (window8 x.group.window) = some k →
          let h := if x.lost || s.idleSlot x.group then x.group
            else (s.readSave (dieWho d x.ctx) (pteBits (s.ctx d x.ctx).saveb 16 48 * 65536 + 36864 * x.slot) x.group x.full).1
          ∃ t, exec .groupRestore s = .next t ∧ t.mem = s.mem ∧ (∀ y ∈ (t.die d).saved, y.id ≠ n)
            ∧ t.group? k = some { h with window := window8 h.window, readyAt := s.clk, tenure := 0,
                                         task := h.task.map fun (y : Task) => { y with ranAt := s.ranClk d x.ctx - y.ranAt } })
  ∧ (∀ s d l n, s.subject = .clusterPlace d l n → s.savedWaits d = true → exec .clusterPlace s = .next s)
  ∧ (∀ s d l n, s.subject = .clusterPlace d l n → (s.die d).switching = false → s.savedWaits d = false →
      (∀ t, s.tryRanges d none (s.rangesFor d) = some t → exec .clusterPlace s = .next (t.post s.clk (.clusterPlace d l n)))
      ∧ (s.tryRanges d none (s.rangesFor d) = none → exec .clusterPlace s = .next (s.headsWait d)))
  ∧ (∀ s o, s.subject = .objectLoad o →
      let low : Prop := ∃ d ∈ s.diesOf o.part, ((s.ctx d o.ctx).clev).toNat < o.minLevel
      (3 < o.minLevel → exec .clusterPlace s = .next (s.send (.loaded o.part o.ctx 2)))
      ∧ (o.minLevel ≤ 3 → low → exec .clusterPlace s = .next (s.send (.loaded o.part o.ctx 3)))
      ∧ (o.minLevel ≤ 3 → ¬low → o.builtLevel < o.minLevel → exec .clusterPlace s = .next (s.send (.loaded o.part o.ctx 4)))
      ∧ (o.minLevel ≤ 3 → ¬low → 3 < o.builtLevel → (∃ e ∈ o.note, e.refuse = true) → exec .clusterPlace s = .next (s.send (.loaded o.part o.ctx 5)))
      ∧ (o.minLevel ≤ 3 → ¬low → o.minLevel ≤ o.builtLevel → (o.builtLevel ≤ 3 ∨ ∀ e ∈ o.note, e.refuse = false) →
          ∃ t, exec .clusterPlace s = .next t ∧ Message.loaded o.part o.ctx 0 ∈ t.outbox
            ∧ ∀ kr sel, sel ∈ o.sels → t.trapvOf o.part o.ctx kr sel = (if 3 < o.builtLevel then BitVec.ofNat 32 ((o.size + 63) / 64 * 64) else kr.trap)))
  ∧ (∀ s d l n cn r since, s.subject = .headBlocking d l n cn → ((s.die d).ranges.find? fun r => r.launch = l ∧ r.node = n ∧ r.next = cn) = some r → r.since = some since →
      4096 ≤ r.waited + (s.clk - since) → exec .headBlocking s = .next (s.putRange d { r with blocking := true }))
  ∧ (∀ s p k g, s.subject = .clauseStart p → (s.pen p).holder = none → s.oldestOn p none = some (k, g) → ∃ t, exec .clauseStart s = .next t
      ∧ t.group? k = some { g with run := .active, tenure := 0 } ∧ (t.pen p).holder = some k.slot ∧ t.mem = s.mem)
  ∧ (∀ s k g c u, s.subject = .clauseFetchArrive k → s.group? k = some g → g.run = .waiting .fetch → s.readFlies (.clause k) = false → s.fetchClause k g .memory = (.clause c, u) →
      (u.fetchRefresh k g (4 + 4 * c.words.length) = none →
        ∃ t, exec .clauseFetchArrive s = .next t ∧ t.group? k = some { g with clause := some c, run := .ready, readyAt := t.clk })
      ∧ ∀ e, u.fetchRefresh k g (4 + 4 * c.words.length) = some e → exec .clauseFetchArrive s = .next (u.post e (.clauseFetchArrive k)))
  ∧ (∀ s x tm n, s.subject = .budgetTick (.team x) → s.team? x = some tm → tm.budget = some (n + 1) →
      let el := s.ranClk tm.die tm.ctx - tm.ranAt
      (el < 64 → exec .budgetTick s = .next (s.post (s.clk + (64 - el)) (.budgetTick (.team x))))
      ∧ (64 ≤ el → n ≠ 0 → exec .budgetTick s = .next ((s.putTeam x { tm with budget := some n, ranAt := tm.ranAt + 64 }).post (s.clk + max 1 (128 - el)) (.budgetTick (.team x))))
      ∧ ∀ k g, 64 ≤ el → n = 0 → tm.keys = [k] → s.group? k = some g → g.task = none → ∃ t, exec .budgetTick s = .next t
          ∧ t.team? x = some { tm with budget := some 0, grace := true, noTask := true } ∧ t.group? k = some { g with budgetDue := true } ∧ t.mem = s.mem
          ∧ (s.clk + 4096, Event.budgetGraceExpire x) ∈ t.agenda)
  ∧ (∀ s x, s.subject = .budgetGraceExpire x → s.team? x = none → exec .budgetGraceExpire s = .next s)
  ∧ (∀ s x tm k g, s.subject = .budgetGraceExpire x → s.team? x = some tm → tm.keys = [k] → s.group? k = some g → ((s.killGroup k g).die tm.die).saved = [] →
      exec .budgetGraceExpire s = .next (s.killGroup k g))
  ∧ (∀ s x tm, s.subject = .teamRetire x → s.team? x = some tm → tm.groups ≠ [] → exec .teamRetire s = .next s)
  ∧ (∀ s x tm, s.subject = .teamRetire x → s.team? x = some tm → tm.groups = [] → s.teamBusy x tm = true →
      exec .teamRetire s = .next ((s.unpost (.teamRetire x)).post (s.clk + 1) (.teamRetire x)))
  ∧ (∀ s x tm, s.subject = .teamRetire x → s.team? x = some tm → tm.groups = [] → s.teamBusy x tm = false → tm.redo = false →
      exec .teamRetire s =
      .next ((((s.releaseTeam x tm).reportTeam tm).matrixLook tm.die).post s.clk (.clusterPlace tm.die tm.launch tm.node)))
  ∧ (∀ s p k g n, s.subject = .claimGrant p → (s.pen p).claims = [(k.slot, n)] → p = penOf k → s.group? k = some g → g.run = .waiting (.claim n) → n ≤ s.freeRegs p →
      ∃ t h, exec .claimGrant s = .next t ∧ t.group? k = some h ∧ h.window = g.window + n ∧ h.run = .ready ∧ h.half = .done ∧ h.irrev = true ∧ (t.pen p).claims = []
        ∧ ∀ r l, g.window ≤ r → g.well = [] → h.regLane r l = 0#32)
  ∧ (∀ s p, s.subject = .deadlockCheck p → (∀ k ∈ penSlots p, ∀ g, s.group? k = some g → s.deadlocked p g.team = false) → exec .deadlockCheck s = .next s)
  ∧ ∀ s p k g n, s.subject = .deadlockCheck p → k ∈ penSlots p → s.group? k = some g → g.run = .waiting (.claim n) → (k.slot, n) ∈ (s.pen p).claims → s.deadlocked p g.team = true →
      ∃ t h, exec .deadlockCheck s = .next t ∧ t.group? k = some h ∧ h.run = .ready ∧ h.window = g.window
        ∧ h.raiseDue = some (trapOf .regDeadlock (BitVec.ofNat 32 n), g.pos, .instr, .plain)

/-- What arrives at barriers, events and queues (R57 to R61, R113, R114): an arrival stands in the phase in progress, an expectation and a post add to E and
B, and an MMA that arrives a second time in a phase leaves BARRIER to be raised; a signal adds 1 to a count that is on the die; a count from the home die takes effect; a group whose wait is complete is ready; a pop takes the
oldest records, lane by lane, a push appends within the capacity, a count answers how many there are; a pop that meets a record with an uncorrectable error takes nothing and its group
is to raise ECC_UNCORR; a queue read back is resident with the records of its backing. The model's choices in it are when an arrival acts (log 79), where a backing lies (log 84) and a push for
which no block can be freed (log 129). -/
def Obligations.ArrivalEvents : Prop :=
  (∀ s b k g, s.subject = .barrierArrive b (.arrive k g.team) → s.group? k = some g → exec .barrierArrive s = .next
      (((s.putGroup k { g with arrivals := assocPut g.arrivals b (s.barrier b).phase }).putBarrier b { s.barrier b with arrived := (s.barrier b).arrived ++ [k] }).tryPhase b))
  ∧ (∀ s b k g, s.subject = .barrierArrive b (.arriveMma k g.team) → s.group? k = some g → (s.barrier b).arrived.contains k = true →
      exec .barrierArrive s = .next (s.putGroup k { g with barrierDue := g.barrierDue ++ [BitVec.ofNat 32 (barBsel b + 64)] }))
  ∧ (∀ s b n, s.subject = .barrierArrive b (.expect n) → exec .barrierArrive s = .next ((s.putBarrier b { s.barrier b with e := (s.barrier b).e + n }).tryPhase b))
  ∧ (∀ s b n, s.subject = .barrierArrive b (.post n) → exec .barrierArrive s = .next ((s.putBarrier b { s.barrier b with b := (s.barrier b).b + BitVec.ofNat 32 n }).tryPhase b))
  ∧ (∀ s part c n e, s.agenda = [] → s.subject = .eventActArrive part c n (.signal none) → s.evFind (s.homeDie part) c n = some e → e.onChip = true → e.waiters = [] → e.nodes = [] → e.head = 0 →
      e.dies = [] → s.evHeld (s.homeDie part) c n = false → ∃ t x, exec .eventActArrive s = .next t ∧ t.evFind (s.homeDie part) c n = some x ∧ x.c = e.c + 1#32 ∧ t.mem = s.mem)
  ∧ (∀ s d c n v e, s.subject = .eventCountUpdate d c n v → s.evFind d c n = some e → e.onChip = true → e.waiters = [] → e.nodes = [] → e.head = 0 →
      ∃ t x, exec .eventCountUpdate s = .next t ∧ t.evFind d c n = some x ∧ x.c = v ∧ t.mem = s.mem)
  ∧ (∀ s k g n v, s.subject = .eventWake k g.team → s.group? k = some g → g.run = .waiting (.event n v) → g.half = .done →
      ∃ t, exec .eventWake s = .next t ∧ t.group? k = some { g with run := .ready, readyAt := s.clk } ∧ t.mem = s.mem)
  ∧ (∀ s k g id q, s.agenda = [] → s.group? k = some g → g.pend.any (fun p => p.id = id) = true → (s.wq k.die q).spoilt = [] →
      (∀ n, s.subject = .queueActArrive k (.count id q n) → ∃ t h, exec .queueActArrive s = .next t ∧ t.group? k = some h
        ∧ h.scalar n = BitVec.ofNat 32 (s.wq k.die q).items.length ∧ (t.wq k.die q).items = (s.wq k.die q).items ∧ t.mem = s.mem)
      ∧ (∀ regs f mask, s.subject = .queueActArrive k (.pop id q regs f mask) → ∃ t, exec .queueActArrive s = .next t
        ∧ (t.wq k.die q).items = (s.wq k.die q).items.drop (lanesOf mask).length ∧ t.mem = s.mem
        ∧ t.group? k = some (g.landPop id regs f ((lanesOf mask).zipIdx.map fun x => (x.1, (s.wq k.die q).items[x.2]?)) s.clk))
      ∧ ∀ f mask vals, s.subject = .queueActArrive k (.push id q f mask vals) → (s.wq k.die q).items.length + (lanesOf mask).length ≤ s.wqCap k.die q →
          s.usedBlocks k.die + wqBlocks ((s.wq k.die q).items.length + (lanesOf mask).length) ≤ storeBlocks + wqBlocks (s.wq k.die q).items.length →
          ∃ t, exec .queueActArrive s = .next t ∧ (t.wq k.die q).items = (s.wq k.die q).items ++ (lanesOf mask).map vals.at ∧ t.mem = s.mem)
  ∧ (∀ s k g id q regs f mask i, s.agenda = [] → s.subject = .queueActArrive k (.pop id q regs f mask) → s.group? k = some g → g.pend.any (fun p => p.id = id) = true →
      i ∈ (s.wq k.die q).spoilt → i < (lanesOf mask).length → i < (s.wq k.die q).items.length → exec .queueActArrive s = .next (s.putGroup k (g.popSpoilt id)))
  ∧ ∀ s d c q rs u, s.subject = .queueSwapInDone d c q → s.usedBlocks d + wqBlocks (s.wq d (8 * c + q)).items.length ≤ storeBlocks →
      s.translateRange (dieWho d c) .read ((s.wq d (8 * c + q)).items.length / 16384 + 2) (s.qsaveLin d (8 * c + q)) (4 * (s.wq d (8 * c + q)).items.length) = (.ok rs, u) →
      ∃ t, exec .queueSwapInDone s = .next t ∧ (t.wq d (8 * c + q)).resident = true ∧ (t.wq d (8 * c + q)).loading = false
        ∧ (t.wq d (8 * c + q)).items = wordsOf (s.wq d (8 * c + q)).items.length (u.readRuns rs)

/-- Task events (R67, R71 to R76, R85 to R87): a task starts with EXEC its NL lanes, s0 to s3 its arguments and everything else at 0; the lowest-keyed record goes to
the lowest free slot, one record in a clk, with a TB of its die and count where it has none; every die samples its least key, and takes the others' 32 clk later; a commit whose time
has come writes the bytes of its grains and no others, and a domain that holds nothing ends, with its node; a run of spilled records comes back from the
spill area. The model's choices in it are the spill area's layout (log 54) and a task's TRAPV (log 62). Each of taskDispatch, frontierSample, frontierUpdate, taskCommit and spillRefill completes. -/
def Obligations.TaskEvents : Prop :=
  (∀ (g : Group) trap segs (r : Rec) key clk ran, r.args.length = 4 → r.nl ≤ 32 →
      let h := g.startTask trap segs r key clk ran
      h.run = .ready ∧ (∀ i < 4, h.scalar i = r.args.getD i 0#32) ∧ (∀ i, 4 ≤ i → h.scalar i = 0#32) ∧ (∀ n l, h.regLane n l = 0#32)
        ∧ (∀ l, h.exec.getLsbD l = (decide (l < r.nl) && g.population.getLsbD l))
        ∧ (r.ek = false → h.pc = r.entry.setWidth 48) ∧ h.stack = [] ∧ h.pend = [] ∧ h.log = [] ∧ h.handler = none ∧ h.window = g.window
        ∧ ∃ t, h.task = some t ∧ t.record = r ∧ t.key = key ∧ t.spec = !r.u ∧ t.draft = [])
  ∧ (∀ s d part c, s.subject = .taskDispatch d part c → s.domains = [] → exec .taskDispatch s = .next s)
  ∧ (∀ s d part c dom (k : GKey) g tm, s.subject = .taskDispatch d part c → s.domains = [((part, c), dom)] → s.slotOf d = part → (dom.at d).spilled = [] →
      (dom.at d).queued.length ≤ Config.taskStore → s.groups = [(keyNum k, g)] → k.core < 16 → k.slot < 512 → k.die = d → s.team? g.team = some tm → tm.die = d → tm.ctx = c →
      tm.launch = dom.launch → tm.node = dom.node → tm.noTask = false → g.task = none → g.run = .stopped →
      (((s.die d).run ≠ some c ∨ (s.die d).switching = true) → exec .taskDispatch s = .next (s.refront part c d))
      ∧ ((s.die d).run = some c → (s.die d).switching = false → s.clk < (s.die d).nextDispatch →
          exec .taskDispatch s = .next ((s.refront part c d).postDispatch (s.die d).nextDispatch d part c))
      ∧ ∀ r rest, (s.die d).run = some c → (s.die d).switching = false → (s.die d).nextDispatch ≤ s.clk → (dom.at d).queued = r :: rest →
          let n := (assocGet (dom.at d).counts r.ts).getD 0
          let tb := r.tb.getD (BitVec.ofNat 16 (d * 2048 + n))
          ∃ t e y segs, exec .taskDispatch s = .next t ∧ t.domain? part c = some e ∧ (e.at d).queued = rest
            ∧ t.group? k = some { g.startTask (s.trapvOf part c tm.krec tm.code.sel) segs { r with tb := some tb } { ts := r.ts, tb := tb } s.clk (s.ranClk d c) with task := some y }
            ∧ y.record = { r with tb := some tb } ∧ y.key = { ts := r.ts, tb := tb } ∧ y.draft = [] ∧ t.mem = s.mem)
  ∧ (∀ s part c i dom, s.subject = .frontierSample part c i → s.domain? part c = some dom →
      (dom.dom ≠ i → exec .frontierSample s = .next s)
      ∧ (dom.dom = i → ∃ t e, exec .frontierSample s = .next t ∧ t.mem = s.mem ∧ t.groups = s.groups ∧ t.domain? part c = some e
        ∧ (∀ a ∈ dom.dies, (e.at a).sample = s.leastKey part c a dom)
        ∧ (s.clk + 32, Event.frontierSample part c i) ∈ t.agenda ∧ ∀ a ∈ dom.dies, ∀ b ∈ dom.dies, b ≠ a → (s.clk + 32, Event.frontierUpdate part c i a b) ∈ t.agenda))
  ∧ (∀ s part c i d o dom, s.subject = .frontierUpdate part c i d o → s.domain? part c = some dom →
      (dom.dom ≠ i → exec .frontierUpdate s = .next s)
      ∧ (dom.dom = i → exec .frontierUpdate s = .next ((s.updDomain part c fun e => e.upd d fun x => { x with others := x.others.put o (dom.at o).sample }).refront part c d))
      ∧ (dom.dom = i → s.groups = [] → (dom.at d).finished = [] → ∃ t e, exec .frontierUpdate s = .next t ∧ t.domain? part c = some e
          ∧ (e.at d).others.find o = some (dom.at o).sample ∧ t.mem = s.mem))
  ∧ (∀ s part c d, s.subject = .taskCommit part c d → (∀ e ∈ s.groups, e.2.task = none) → (s.die d).saved = [] →
      (s.domain? part c = none → exec .taskCommit s = .next s)
      ∧ ∀ dom, s.domain? part c = some dom → (dom.at d).remains = [] → (dom.at d).committing = none → dom.tracks = [] → s.domainEmpty part c dom = true → dom.failed = false →
          ∃ t, exec .taskCommit s = .next t ∧ t.domain? part c = none ∧ (s.clk, Event.nodeFinish dom.launch dom.node) ∈ t.agenda)
  ∧ (∀ s part c d dom id due (f : Finished) (x : Grain) hd o, s.subject = .taskCommit part c d → s.groups = [] → s.teams = [] → (s.die d).saved = [] →
      s.domains = [((part, c), dom)] → dom.failed = false → (dom.at d).remains = [] → (dom.at d).committing = some (id, due) → due ≤ s.clk → (dom.at d).finished = [f] → f.task.record.id = id → f.task.draft = [x] →
      x.place = .hbm hd o → Memory.wf s.mem = true → ∃ t, exec .taskCommit s = .next t
        ∧ (∀ i < 64, x.mask.getLsbD i = true → t.readByte (.hbm hd (o + i)) = x.bytes.getD i 0#8)
        ∧ ∀ q : Place, (∀ i < 64, x.mask.getLsbD i = true → (Place.hbm hd (o + i)).key ≠ q.key) → t.readByte q = s.readByte q)
  ∧ ∀ s d part c dom, s.subject = .spillRefill d part c → s.domains = [((part, c), dom)] → s.slotOf d = part → (dom.at d).refilling = true →
      (dom.at d).spilled.length ≤ 64 → (dom.at d).queued.length + (dom.at d).spilled.length ≤ Config.taskStore →
      ∃ t e, exec .spillRefill s = .next t ∧ t.mem = s.mem ∧ t.groups = s.groups ∧ t.domain? part c = some e ∧ (e.at d).refilling = false ∧ (e.at d).spilled = []
        ∧ (e.at d).queued = (dom.at d).spilled.foldl (fun q r => insertRec (s.spillRead d c (dom.at d) r) q) (dom.at d).queued

/-- Engine events (R12, R13, R211, R212, R222, R226 to R234, R317 to R320, R364 to R370, R377): at most four copies move at once; a beat carries at most 64 bytes a
place from source to destination; a complete copy posts its bytes and lowers CE; a tile lands FULL; an operation starts, and when it retires its effect
stands, its readers leave and ME falls; an idle sub-array is gated; a drain whose pieces are home writes its elements, and one that is done, or a clear,
lowers ME; a pair begins and ends when its arrays are idle. Each of copyStart, copyBeat, copyComplete, feederTileLand, tileLoadLand, matrixOpStart,
matrixOpRetire, subarrayGate, drainComplete, pairBind and pairEnd completes. -/
def Obligations.EngineEvents : Prop :=
  (∀ s ck, s.subject = .copyStart ck → 4 ≤ ((s.copies ck).filter (·.running)).length → exec .copyStart s = .next s)
  ∧ (∀ s ck x, s.subject = .copyStart ck → ((s.copies ck).filter (·.running)).length < 4 → ((s.copies ck).find? fun y => !y.running) = some x → ∃ t, exec .copyStart s = .next t
      ∧ (max (s.clk + 1) (x.issued + 64), Event.copyBeat ck x.id) ∈ t.agenda ∧ t.mem = s.mem ∧ ∀ y ∈ t.copies ck, y.id = x.id → y.running = true)
  ∧ (∀ s ck x, s.subject = .copyBeat ck x.id → s.copies ck = [x] → x.running = true → x.frozen = false → x.rows = 0 → ∃ t, exec .copyBeat s = .next t ∧ t.mem = s.mem
      ∧ ∃ due, (due, Event.copyComplete ck x.id) ∈ t.agenda)
  ∧ (∀ s ck x rs r u v, s.subject = .copyBeat ck x.id → s.copies ck = [x] → x.running = true → x.frozen = false → x.rows = 1 → x.ahead = [] → x.bytes = x.moved + 64 →
      x.issued + 64 ≤ s.clk → s.copyFlies x.id = false → s.beatsMade ck < 4 → s.domains = [] →
      s.copyReach ck x false (x.from_ + x.moved) 64 = (.ok rs, u) → (rs.all fun r => r.place.plain) = true → u.refreshEnd rs = none →
      u.copyReach ck x true (x.into + x.moved) 64 = (.ok [r], v) → (∀ q ∈ rs.head?, q.place.onDie ck.die = ck.die ∧ q.place.isFar = false) →
      r.place.onDie ck.die = ck.die → r.place.isFar = false → r.len = 64 →
      ∃ t, exec .copyBeat s = .next t ∧ t.mem = (v.masterWrite x.g x.team x.ctx [r] ((v.readRuns rs).take 64)).mem ∧ ∃ due, (due, Event.copyComplete ck x.id) ∈ t.agenda)
  ∧ (∀ s ck x, s.subject = .copyComplete ck x.id → s.copies ck = [x] → s.copyFlies x.id = true → exec .copyComplete s = .next (s.post (s.clk + 1) (.copyComplete ck x.id)))
  ∧ (∀ s ck x g, s.subject = .copyComplete ck x.id → s.copies ck = [x] → s.copyFlies x.id = false → x.node = none → x.bar = none → s.group? x.g = some g → g.team = x.team →
      ∃ t, exec .copyComplete s = .next t ∧ t.copies ck = [] ∧ t.mem = s.mem ∧ t.group? x.g = some { g with ceq := popDone (g.ceq.map fun e => if e.1 = x.id then (e.1, true) else e) })
  ∧ (∀ s d f x, s.subject = .feederTileLand d f → (s.die d).feeders.find f = some x → x.filling = true → x.stopped = false → x.nt = x.next + 1 → x.cores = [x.g.core] → x.bar = none →
      (s.tile d x.g.core x.slot).freeing = false → ∃ t, exec .feederTileLand s = .next t ∧ (t.tile d x.g.core x.slot).state = .full ∧ (t.tile d x.g.core x.slot).bytes = (s.tile d x.g.core x.slot).bytes ∧ t.mem = s.mem
        ∧ ∀ g, s.group? x.g = some g → g.team = x.team → t.group? x.g = some { g with fd := g.fd - 1 })
  ∧ (∀ s c n, s.subject = .tileLoadLand c n → (s.tile c.die c.core n).state = .filling → (s.tile c.die c.core n).freeing = false →
      (s.tileFlies c n = false → exec .tileLoadLand s = .next (s.putTile c.die c.core n { s.tile c.die c.core n with state := .full }))
      ∧ (s.tileFlies c n = true → exec .tileLoadLand s = .next s))
  ∧ (∀ s ck o, s.subject = .matrixOpStart ck o.id → ((s.arr ck.die ck.core).queue.find? fun p => p.start.isNone) = some o → (s.arr ck.die ck.core).frozen = false → (s.arr ck.die ck.core).pair = none →
      ∃ t due, exec .matrixOpStart s = .next t ∧ (due, Event.matrixOpRetire ck o.id) ∈ t.agenda ∧ s.clk + 80 ≤ due ∧ t.mem = s.mem ∧ (t.arr ck.die ck.core).acc = (s.arr ck.die ck.core).acc)
  ∧ (∀ s ck o g, s.subject = .matrixOpRetire ck o.id → (s.arr ck.die ck.core).queue = [o] → (s.arr ck.die ck.core).pair = none → o.pair = false → o.reads = [] → o.bar = none → s.group? o.g = some g → g.team = o.team →
      (s.die ck.die).feeders = [] → ∃ t, exec .matrixOpRetire s = .next t ∧ (t.arr ck.die ck.core).queue = [] ∧ t.mem = s.mem ∧ t.group? o.g = some { g with me := g.me - 1 }
        ∧ (t.arr ck.die ck.core).acc = ((s.matEffect ck.die ck.core (o.rowsOn false) o).arr ck.die ck.core).acc)
  ∧ (∀ s ck q, s.subject = .subarrayGate ck q →
      let a := s.arr ck.die ck.core
      let due := a.lastUse.get 0 q + 64 * (s.die ck.die).mgate.toNat
      (((s.die ck.die).mgate = 0#16 ∨ a.gated.get true q = true) → exec .subarrayGate s = .next s)
      ∧ ((s.die ck.die).mgate ≠ 0#16 → a.gated.get true q = false → s.clk < due → exec .subarrayGate s = .next (s.post due (.subarrayGate ck q)))
      ∧ ((s.die ck.die).mgate ≠ 0#16 → a.gated.get true q = false → due ≤ s.clk →
        ∃ t, exec .subarrayGate s = .next t ∧ (t.arr ck.die ck.core).gated.get false q = true ∧ t.mem = s.mem))
  ∧ (∀ s ck d, s.subject = .drainComplete ck d.id → (s.arr ck.die ck.core).drains = [d] →
      (((s.arr ck.die ck.core).frozen = true ∨ s.drainFlies ck d.id = true) → exec .drainComplete s = .next s)
      ∧ ((s.arr ck.die ck.core).frozen = false → s.drainFlies ck d.id = false →
        (∀ g, (d.clear = true ∨ d.away = true) → s.group? d.g = some g → g.team = d.team → ∃ t, exec .drainComplete s = .next t ∧ (t.arr ck.die ck.core).drains = []
          ∧ t.group? d.g = some { g with me := g.me - 1 } ∧ t.mem = s.mem)
        ∧ ∀ rss u, d.clear = false → d.away = false →
          s.reachRows { die := ck.die, core := ck.core, ctx := d.ctx, copy := false, gen := s.teamGen d.team } (s.team? d.team) d.seg (if d.add then .atomic else .write)
            d.pieces = (.ok rss, u) → (d.add = true → ∀ rs ∈ rss, ∀ r ∈ rs, r.place.addable = true) → (∀ rs ∈ rss, ∀ r ∈ rs, r.place.isFar = false) →
          (d.sent = true ∨ ∀ rs ∈ rss, ∀ r ∈ rs, r.place.onDie ck.die = ck.die) →
          ∃ t, exec .drainComplete s = .next t ∧ t.mem = (u.drainRows d ((s.ctx ck.die d.ctx).clev.toNat % 4) rss d.values).mem))
  ∧ (∀ s ck, s.subject = .pairBind ck → (∀ e ∈ s.groups, e.2.run ≠ .waiting .pairBind) → exec .pairBind s = .next s)
  ∧ (∀ s k g c f, s.subject = .pairBind ⟨k.die, k.core⟩ → s.groups = [(keyNum k, g)] → k.core < 16 → k.slot < 512 → g.run = .waiting .pairBind → g.clause = some c →
      s.pairFor k.die k.core g.team ((g.fieldP c).getLsbD 0) = some f → f ≠ k.core → f < 16 → (s.arr k.die k.core).idle = true → (s.arr k.die f).idle = true → ∃ t, exec .pairBind s = .next t
        ∧ (t.arr k.die k.core).pair = some (k.core, f) ∧ (t.arr k.die f).pair = some (k.core, f) ∧ t.group? k = some { g with half := .done, irrev := true, run := .ready, readyAt := s.clk } ∧ t.mem = s.mem)
  ∧ (∀ s ck, s.subject = .pairEnd ck → s.pairBusy ck.die ck.core = true → exec .pairEnd s = .next s)
  ∧ ∀ s k g l f, s.subject = .pairEnd ⟨k.die, k.core⟩ → s.groups = [(keyNum k, g)] → k.core < 16 → k.slot < 512 → g.run = .waiting .pairEnd → s.pairBusy k.die k.core = false → (s.arr k.die k.core).pair = some (l, f) → l ≠ f → l < 16 → f < 16 →
      ∃ t, exec .pairEnd s = .next t ∧ (t.arr k.die l).pair = none ∧ (t.arr k.die f).pair = none ∧ (t.arr k.die l).acc = (s.arr k.die l).acc ∧ (t.arr k.die f).acc = (s.arr k.die f).acc ∧ t.mem = s.mem
        ∧ t.group? k = some { g with half := .done, irrev := true, run := .ready, readyAt := s.clk }

/-! ## The whole machine (12_encoding, 01_module, 07_memory) -/

/-- Words written out from R258 and R265, one for each format, decode to the instruction they stand for; an unassigned opcode is no
instruction (ILL_OPC, R265), and neither is a LEN bit that the opcode's format does not have (R256 step 2). -/
def Obligations.WordsDecode : Prop :=
  decodeInstr 0x20030405#32 none = .ok (.iadd { d := 0x03#8, a := 0x04#8, b := 0x05#8 })
  ∧ decodeInstr 0x25010203#32 (some 0x04c5a2a8#32) = .ok (.imadLong { d := 0x01#8, a := 0x02#8, b := 0x03#8 }
      { c := 0x04#8, pata := 6#3, para := 5#5, patb := 5#3, parb := 2#5, deadA := 1#1, deadB := 0#1, deadC := 1#1, keep := 0#1, hint := 2#2, rsvd := 0#2 })
  ∧ decodeInstr 0x2f07ffff#32 none = .ok (.iaddi { d := 0x07#8, imm := 0xffff#16 })
  ∧ decodeInstr 0x80092001#32 none = .ok (.ld { data := 0x09#8, g := 2#4, neg := 0#1, gp := 0#3, off := 0x01#8 })
  ∧ decodeInstr 0x81093a01#32 (some 0x00106e90#32) = .ok (.stLong { data := 0x09#8, g := 3#4, neg := 1#1, gp := 2#3, off := 0x01#8 }
      { disp := 0x0010#16, wid := 3#3, scope := 3#3, ord := 2#2, deadD := 1#1, deadO := 0#1, keep := 0#1, o64 := 1#1, hint := 0#2, rsvd := 0#2 })
  ∧ decodeInstr 0x920a3002#32 (some 0x0b004820#32) = .ok (.aadd { data := 0x0a#8, g := 3#4, neg := 0#1, gp := 0#3, off := 0x02#8 }
      { val := 0x0b#8, cmp := 0x00#8, wid := 2#3, scope := 2#3, ord := 0#2, deadD := 0#1, deadO := 0#1, keep := 1#1, o64 := 0#1, hint := 0#2, rsvd := 0#2 })
  ∧ decodeInstr 0x01affffe#32 none = .ok (.bra { neg := 1#1, gp := 2#3, offs := 0xffffe#20 })
  ∧ decodeInstr 0x09000005#32 none = .ok .trap
  ∧ decodeInstr 0x10000013#32 none = .ok (.bar { s := 0x00#8, n := 0x0013#16 })
  ∧ decodeInstr 0xa0004123#32 none = .ok (.link { s := 0x00#8, g := 4#4, idx := 0x123#12 })
  ∧ decodeInstr 0xc4050306#32 none = .ok (.qpop { d := 0x05#8, z1 := 0#5, f := 3#3, z2 := 0#5, qn := 6#3 })
  ∧ decodeInstr 0xb2803091#32 none = .ok (.tld { s := 0x80#8, u := 0x30#8, fl := 1#1, slot := 0x11#7 })
  ∧ decodeInstr 0xa6238284#32 (some 0x86440000#32) = .ok (.cpy { gd := 2#4, gs := 3#4, p := 0x82#8, q := 0x84#8 }
      { x := 0x86#8, bsel := 0x11#6, z1 := 0#2, y := 0#8, z2 := 0#6, rsvd := 0#2 })
  ∧ decodeInstr 0xb302081c#32 (some 0x204010cc#32) = .ok (.mma { a := 1#7, b0 := 2#7, b1 := 3#7, pair := 1#1, hint := 0#2 }
      { m := 0x20#8, n := 0x40#8, k := 0x10#8, clr := 1#1, bar := 9#4, rel := 1#1, rsvd := 0#2 })
  ∧ decodeInstr 0xb750888a#32 (some 0x8c000004#32) = .ok (.adrn { g := 5#4, z := 0#4, o := 0x88#8, pt := 0x8a#8 }
      { rq := 0x8c#8, z := 0#21, add := 1#1, rsvd := 0#2 })
  ∧ decodeInstr 0x0d000000#32 none = .error .opc ∧ decodeInstr 0x57000000#32 none = .error .opc ∧ decodeInstr 0xf0000000#32 none = .error .opc
  ∧ decodeInstr 0x00000000#32 (some 0#32) = .error .form ∧ decodeInstr 0xb302081c#32 none = .error .form

/-- Decoding and encoding agree (R258, R265): decoding the words of an instruction gives it back with every field, format K's P
standing in its word; and words that decode to an instruction are the words that encode it. -/
def Obligations.DecodeInvertsEncode : Prop :=
  (∀ (i : Instr) (k : KFmt), i.hasWords = true → decodeWords (encode i k) = .ok i)
  ∧ (∀ (k : KFmt), ∀ i ∈ [Instr.nop, .ret, .join, .exit, .trap, .rtt, .brk, .yield, .fence, .fencex, .fend, .mpair, .munpair, .tdone, .tabort, .tserial,
      .wellfl, .kill], ∃ w, encode i k = [w] ∧ unpackK w = k)
  ∧ ∀ (w : Word) (x : Option Word) (i : Instr), decodeInstr w x = .ok i → encode i (unpackK w) = w :: x.toList

/-- A step runs the decoded instruction (R51, R256): where the next deed is a pen's turn to issue and the words at the group's position
decode to `i`, the step is `exec i` with that group as the issuer; words that are no instruction raise their cause. Where the next
deed is an event of the agenda, the step runs its row at its time; where nothing is due, only time passes. The row of every event completes in every
state whose subject is that event, every instruction completes for every group that issues it, and so every step completes. -/
def Obligations.StepRunsDecodedInstruction : Prop :=
  ∀ (s : State),
    (∀ t g c, s.settle.next = .turn t → t.issues = true →
      let k : GKey := ⟨t.pen.die, t.pen.core, t.slot⟩
      let u := ((s.settle.setClk t.at_).setIssuer k).grant t.pen
      s.settle.group? k = some g → g.clause = some c →
        (∀ i, decodeInstr (c.wordsAt g.pos).1 (c.wordsAt g.pos).2 = .ok i → step s = exec i u ∧ State.issues u k g c)
        ∧ (decodeInstr (c.wordsAt g.pos).1 (c.wordsAt g.pos).2 = .error .opc → step s = .next (u.raise k g (trapOf .illOpc 0#32)))
        ∧ (decodeInstr (c.wordsAt g.pos).1 (c.wordsAt g.pos).2 = .error .form → step s = .next (u.raise k g (trapOf .illField 0#32))))
    ∧ (∀ t, s.settle.next = .turn t → t.issues = false → step s = exec .clauseStart ((s.settle.setClk t.at_).setSubject (.clauseStart t.pen)))
    ∧ (∀ t e rest, s.settle.next = .event t e rest → step s = exec (rowOf e) (((s.settle.setClk t).setAgenda rest).setSubject e))
    ∧ (∀ t, s.settle.next = .pass t → step s = .next (s.settle.setClk t))
    ∧ (∃ t, exec (rowOf s.subject) s = .next t)
    ∧ (∀ k g c (i : Instr), State.issues s k g c → i.hasWords = true → ∃ t, exec i s = .next t)
    ∧ ∃ t, step s = .next t

/-- What reset leaves (R20, R21, R44, R45, R74, R144, R209, R212): no die runs a context and every context is disabled, SCHED, LQ, TQ, CLEV and
MGATE at their reset values, every die in partition 1, every firewall open, no group placed, and memory and the tables in their
canonical form. What an unlisted byte reads as is the model's choice (log 13). -/
def Obligations.ResetLeaves : Prop :=
  (∀ d, (State.reset.die d).run = none ∧ (State.reset.die d).mgate = 0x0040#16 ∧ State.reset.slotOf d = 1)
  ∧ (∀ d c, (State.reset.ctx d c).en = false ∧ (State.reset.ctx d c).errc = 0#8 ∧ (State.reset.ctx d c).sched = 0x01100100#32 ∧ (State.reset.ctx d c).lq = 0x040#32
      ∧ (State.reset.ctx d c).tq = 0x4000#16 ∧ (State.reset.ctx d c).clev = 3#8)
  ∧ (∀ l, (State.reset.wall l).closed = false) ∧ (∀ k, State.reset.group? k = none) ∧ (∀ p, State.reset.readByte p = 0#8)
  ∧ State.reset.sound = true

/-- Memory keeps its canonical form (log 13): addresses strictly rising and no entry equal to what an unlisted address reads as, so that equal
memories are equal data, through every step that answers a next state. -/
def Obligations.MemoryStaysCanonical : Prop :=
  ∀ s t : State, Memory.wf s.mem = true → step s = .next t → Memory.wf t.mem = true
end

