-- ==== Sys2Proof/Laws/State.lean ====
section
/-! SUPPORT. What each update of one field leaves, and what the shared operations over the state leave: one lemma per field
per operation, true by unfolding, for `simp`. -/

namespace Sys2Proof.Machine

/-! ## Updates of one field -/

@[simp] theorem State.setClk_clk (s : State) (x) : (s.setClk x).clk = x := rfl
@[simp] theorem State.setClk_agenda (s : State) (x) : (s.setClk x).agenda = s.agenda := rfl
@[simp] theorem State.setClk_subject (s : State) (x) : (s.setClk x).subject = s.subject := rfl
@[simp] theorem State.setClk_issuer (s : State) (x) : (s.setClk x).issuer = s.issuer := rfl
@[simp] theorem State.setClk_fresh (s : State) (x) : (s.setClk x).fresh = s.fresh := rfl
@[simp] theorem State.setClk_freeCtr (s : State) (x) : (s.setClk x).freeCtr = s.freeCtr := rfl
@[simp] theorem State.setClk_outbox (s : State) (x) : (s.setClk x).outbox = s.outbox := rfl
@[simp] theorem State.setClk_boot (s : State) (x) : (s.setClk x).boot = s.boot := rfl
@[simp] theorem State.setClk_fabric (s : State) (x) : (s.setClk x).fabric = s.fabric := rfl
@[simp] theorem State.setClk_host (s : State) (x) : (s.setClk x).host = s.host := rfl
@[simp] theorem State.setClk_ctxs (s : State) (x) : (s.setClk x).ctxs = s.ctxs := rfl
@[simp] theorem State.setClk_dies (s : State) (x) : (s.setClk x).dies = s.dies := rfl
@[simp] theorem State.setClk_cores (s : State) (x) : (s.setClk x).cores = s.cores := rfl
@[simp] theorem State.setClk_teams (s : State) (x) : (s.setClk x).teams = s.teams := rfl
@[simp] theorem State.setClk_clusters (s : State) (x) : (s.setClk x).clusters = s.clusters := rfl
@[simp] theorem State.setClk_groups (s : State) (x) : (s.setClk x).groups = s.groups := rfl
@[simp] theorem State.setClk_barriers (s : State) (x) : (s.setClk x).barriers = s.barriers := rfl
@[simp] theorem State.setClk_access (s : State) (x) : (s.setClk x).access = s.access := rfl
@[simp] theorem State.setClk_domains (s : State) (x) : (s.setClk x).domains = s.domains := rfl
@[simp] theorem State.setClk_tlb (s : State) (x) : (s.setClk x).tlb = s.tlb := rfl
@[simp] theorem State.setClk_mem (s : State) (x) : (s.setClk x).mem = s.mem := rfl
@[simp] theorem State.setClk_poison (s : State) (x) : (s.setClk x).poison = s.poison := rfl
@[simp] theorem State.setAgenda_clk (s : State) (x) : (s.setAgenda x).clk = s.clk := rfl
@[simp] theorem State.setAgenda_agenda (s : State) (x) : (s.setAgenda x).agenda = x := rfl
@[simp] theorem State.setAgenda_subject (s : State) (x) : (s.setAgenda x).subject = s.subject := rfl
@[simp] theorem State.setAgenda_issuer (s : State) (x) : (s.setAgenda x).issuer = s.issuer := rfl
@[simp] theorem State.setAgenda_fresh (s : State) (x) : (s.setAgenda x).fresh = s.fresh := rfl
@[simp] theorem State.setAgenda_freeCtr (s : State) (x) : (s.setAgenda x).freeCtr = s.freeCtr := rfl
@[simp] theorem State.setAgenda_outbox (s : State) (x) : (s.setAgenda x).outbox = s.outbox := rfl
@[simp] theorem State.setAgenda_boot (s : State) (x) : (s.setAgenda x).boot = s.boot := rfl
@[simp] theorem State.setAgenda_fabric (s : State) (x) : (s.setAgenda x).fabric = s.fabric := rfl
@[simp] theorem State.setAgenda_host (s : State) (x) : (s.setAgenda x).host = s.host := rfl
@[simp] theorem State.setAgenda_ctxs (s : State) (x) : (s.setAgenda x).ctxs = s.ctxs := rfl
@[simp] theorem State.setAgenda_dies (s : State) (x) : (s.setAgenda x).dies = s.dies := rfl
@[simp] theorem State.setAgenda_cores (s : State) (x) : (s.setAgenda x).cores = s.cores := rfl
@[simp] theorem State.setAgenda_teams (s : State) (x) : (s.setAgenda x).teams = s.teams := rfl
@[simp] theorem State.setAgenda_clusters (s : State) (x) : (s.setAgenda x).clusters = s.clusters := rfl
@[simp] theorem State.setAgenda_groups (s : State) (x) : (s.setAgenda x).groups = s.groups := rfl
@[simp] theorem State.setAgenda_barriers (s : State) (x) : (s.setAgenda x).barriers = s.barriers := rfl
@[simp] theorem State.setAgenda_access (s : State) (x) : (s.setAgenda x).access = s.access := rfl
@[simp] theorem State.setAgenda_domains (s : State) (x) : (s.setAgenda x).domains = s.domains := rfl
@[simp] theorem State.setAgenda_tlb (s : State) (x) : (s.setAgenda x).tlb = s.tlb := rfl
@[simp] theorem State.setAgenda_mem (s : State) (x) : (s.setAgenda x).mem = s.mem := rfl
@[simp] theorem State.setAgenda_poison (s : State) (x) : (s.setAgenda x).poison = s.poison := rfl
@[simp] theorem State.setSubject_clk (s : State) (x) : (s.setSubject x).clk = s.clk := rfl
@[simp] theorem State.setSubject_agenda (s : State) (x) : (s.setSubject x).agenda = s.agenda := rfl
@[simp] theorem State.setSubject_subject (s : State) (x) : (s.setSubject x).subject = x := rfl
@[simp] theorem State.setSubject_issuer (s : State) (x) : (s.setSubject x).issuer = s.issuer := rfl
@[simp] theorem State.setSubject_fresh (s : State) (x) : (s.setSubject x).fresh = s.fresh := rfl
@[simp] theorem State.setSubject_freeCtr (s : State) (x) : (s.setSubject x).freeCtr = s.freeCtr := rfl
@[simp] theorem State.setSubject_outbox (s : State) (x) : (s.setSubject x).outbox = s.outbox := rfl
@[simp] theorem State.setSubject_boot (s : State) (x) : (s.setSubject x).boot = s.boot := rfl
@[simp] theorem State.setSubject_fabric (s : State) (x) : (s.setSubject x).fabric = s.fabric := rfl
@[simp] theorem State.setSubject_host (s : State) (x) : (s.setSubject x).host = s.host := rfl
@[simp] theorem State.setSubject_ctxs (s : State) (x) : (s.setSubject x).ctxs = s.ctxs := rfl
@[simp] theorem State.setSubject_dies (s : State) (x) : (s.setSubject x).dies = s.dies := rfl
@[simp] theorem State.setSubject_cores (s : State) (x) : (s.setSubject x).cores = s.cores := rfl
@[simp] theorem State.setSubject_teams (s : State) (x) : (s.setSubject x).teams = s.teams := rfl
@[simp] theorem State.setSubject_clusters (s : State) (x) : (s.setSubject x).clusters = s.clusters := rfl
@[simp] theorem State.setSubject_groups (s : State) (x) : (s.setSubject x).groups = s.groups := rfl
@[simp] theorem State.setSubject_barriers (s : State) (x) : (s.setSubject x).barriers = s.barriers := rfl
@[simp] theorem State.setSubject_access (s : State) (x) : (s.setSubject x).access = s.access := rfl
@[simp] theorem State.setSubject_domains (s : State) (x) : (s.setSubject x).domains = s.domains := rfl
@[simp] theorem State.setSubject_tlb (s : State) (x) : (s.setSubject x).tlb = s.tlb := rfl
@[simp] theorem State.setSubject_mem (s : State) (x) : (s.setSubject x).mem = s.mem := rfl
@[simp] theorem State.setSubject_poison (s : State) (x) : (s.setSubject x).poison = s.poison := rfl
@[simp] theorem State.setIssuer_clk (s : State) (x) : (s.setIssuer x).clk = s.clk := rfl
@[simp] theorem State.setIssuer_agenda (s : State) (x) : (s.setIssuer x).agenda = s.agenda := rfl
@[simp] theorem State.setIssuer_subject (s : State) (x) : (s.setIssuer x).subject = s.subject := rfl
@[simp] theorem State.setIssuer_issuer (s : State) (x) : (s.setIssuer x).issuer = x := rfl
@[simp] theorem State.setIssuer_fresh (s : State) (x) : (s.setIssuer x).fresh = s.fresh := rfl
@[simp] theorem State.setIssuer_freeCtr (s : State) (x) : (s.setIssuer x).freeCtr = s.freeCtr := rfl
@[simp] theorem State.setIssuer_outbox (s : State) (x) : (s.setIssuer x).outbox = s.outbox := rfl
@[simp] theorem State.setIssuer_boot (s : State) (x) : (s.setIssuer x).boot = s.boot := rfl
@[simp] theorem State.setIssuer_fabric (s : State) (x) : (s.setIssuer x).fabric = s.fabric := rfl
@[simp] theorem State.setIssuer_host (s : State) (x) : (s.setIssuer x).host = s.host := rfl
@[simp] theorem State.setIssuer_ctxs (s : State) (x) : (s.setIssuer x).ctxs = s.ctxs := rfl
@[simp] theorem State.setIssuer_dies (s : State) (x) : (s.setIssuer x).dies = s.dies := rfl
@[simp] theorem State.setIssuer_cores (s : State) (x) : (s.setIssuer x).cores = s.cores := rfl
@[simp] theorem State.setIssuer_teams (s : State) (x) : (s.setIssuer x).teams = s.teams := rfl
@[simp] theorem State.setIssuer_clusters (s : State) (x) : (s.setIssuer x).clusters = s.clusters := rfl
@[simp] theorem State.setIssuer_groups (s : State) (x) : (s.setIssuer x).groups = s.groups := rfl
@[simp] theorem State.setIssuer_barriers (s : State) (x) : (s.setIssuer x).barriers = s.barriers := rfl
@[simp] theorem State.setIssuer_access (s : State) (x) : (s.setIssuer x).access = s.access := rfl
@[simp] theorem State.setIssuer_domains (s : State) (x) : (s.setIssuer x).domains = s.domains := rfl
@[simp] theorem State.setIssuer_tlb (s : State) (x) : (s.setIssuer x).tlb = s.tlb := rfl
@[simp] theorem State.setIssuer_mem (s : State) (x) : (s.setIssuer x).mem = s.mem := rfl
@[simp] theorem State.setIssuer_poison (s : State) (x) : (s.setIssuer x).poison = s.poison := rfl
@[simp] theorem State.setFresh_clk (s : State) (x) : (s.setFresh x).clk = s.clk := rfl
@[simp] theorem State.setFresh_agenda (s : State) (x) : (s.setFresh x).agenda = s.agenda := rfl
@[simp] theorem State.setFresh_subject (s : State) (x) : (s.setFresh x).subject = s.subject := rfl
@[simp] theorem State.setFresh_issuer (s : State) (x) : (s.setFresh x).issuer = s.issuer := rfl
@[simp] theorem State.setFresh_fresh (s : State) (x) : (s.setFresh x).fresh = x := rfl
@[simp] theorem State.setFresh_freeCtr (s : State) (x) : (s.setFresh x).freeCtr = s.freeCtr := rfl
@[simp] theorem State.setFresh_outbox (s : State) (x) : (s.setFresh x).outbox = s.outbox := rfl
@[simp] theorem State.setFresh_boot (s : State) (x) : (s.setFresh x).boot = s.boot := rfl
@[simp] theorem State.setFresh_fabric (s : State) (x) : (s.setFresh x).fabric = s.fabric := rfl
@[simp] theorem State.setFresh_host (s : State) (x) : (s.setFresh x).host = s.host := rfl
@[simp] theorem State.setFresh_ctxs (s : State) (x) : (s.setFresh x).ctxs = s.ctxs := rfl
@[simp] theorem State.setFresh_dies (s : State) (x) : (s.setFresh x).dies = s.dies := rfl
@[simp] theorem State.setFresh_cores (s : State) (x) : (s.setFresh x).cores = s.cores := rfl
@[simp] theorem State.setFresh_teams (s : State) (x) : (s.setFresh x).teams = s.teams := rfl
@[simp] theorem State.setFresh_clusters (s : State) (x) : (s.setFresh x).clusters = s.clusters := rfl
@[simp] theorem State.setFresh_groups (s : State) (x) : (s.setFresh x).groups = s.groups := rfl
@[simp] theorem State.setFresh_barriers (s : State) (x) : (s.setFresh x).barriers = s.barriers := rfl
@[simp] theorem State.setFresh_access (s : State) (x) : (s.setFresh x).access = s.access := rfl
@[simp] theorem State.setFresh_domains (s : State) (x) : (s.setFresh x).domains = s.domains := rfl
@[simp] theorem State.setFresh_tlb (s : State) (x) : (s.setFresh x).tlb = s.tlb := rfl
@[simp] theorem State.setFresh_mem (s : State) (x) : (s.setFresh x).mem = s.mem := rfl
@[simp] theorem State.setFresh_poison (s : State) (x) : (s.setFresh x).poison = s.poison := rfl
@[simp] theorem State.setFreeCtr_clk (s : State) (x) : (s.setFreeCtr x).clk = s.clk := rfl
@[simp] theorem State.setFreeCtr_agenda (s : State) (x) : (s.setFreeCtr x).agenda = s.agenda := rfl
@[simp] theorem State.setFreeCtr_subject (s : State) (x) : (s.setFreeCtr x).subject = s.subject := rfl
@[simp] theorem State.setFreeCtr_issuer (s : State) (x) : (s.setFreeCtr x).issuer = s.issuer := rfl
@[simp] theorem State.setFreeCtr_fresh (s : State) (x) : (s.setFreeCtr x).fresh = s.fresh := rfl
@[simp] theorem State.setFreeCtr_freeCtr (s : State) (x) : (s.setFreeCtr x).freeCtr = x := rfl
@[simp] theorem State.setFreeCtr_outbox (s : State) (x) : (s.setFreeCtr x).outbox = s.outbox := rfl
@[simp] theorem State.setFreeCtr_boot (s : State) (x) : (s.setFreeCtr x).boot = s.boot := rfl
@[simp] theorem State.setFreeCtr_fabric (s : State) (x) : (s.setFreeCtr x).fabric = s.fabric := rfl
@[simp] theorem State.setFreeCtr_host (s : State) (x) : (s.setFreeCtr x).host = s.host := rfl
@[simp] theorem State.setFreeCtr_ctxs (s : State) (x) : (s.setFreeCtr x).ctxs = s.ctxs := rfl
@[simp] theorem State.setFreeCtr_dies (s : State) (x) : (s.setFreeCtr x).dies = s.dies := rfl
@[simp] theorem State.setFreeCtr_cores (s : State) (x) : (s.setFreeCtr x).cores = s.cores := rfl
@[simp] theorem State.setFreeCtr_teams (s : State) (x) : (s.setFreeCtr x).teams = s.teams := rfl
@[simp] theorem State.setFreeCtr_clusters (s : State) (x) : (s.setFreeCtr x).clusters = s.clusters := rfl
@[simp] theorem State.setFreeCtr_groups (s : State) (x) : (s.setFreeCtr x).groups = s.groups := rfl
@[simp] theorem State.setFreeCtr_barriers (s : State) (x) : (s.setFreeCtr x).barriers = s.barriers := rfl
@[simp] theorem State.setFreeCtr_access (s : State) (x) : (s.setFreeCtr x).access = s.access := rfl
@[simp] theorem State.setFreeCtr_domains (s : State) (x) : (s.setFreeCtr x).domains = s.domains := rfl
@[simp] theorem State.setFreeCtr_tlb (s : State) (x) : (s.setFreeCtr x).tlb = s.tlb := rfl
@[simp] theorem State.setFreeCtr_mem (s : State) (x) : (s.setFreeCtr x).mem = s.mem := rfl
@[simp] theorem State.setFreeCtr_poison (s : State) (x) : (s.setFreeCtr x).poison = s.poison := rfl
@[simp] theorem State.setOutbox_clk (s : State) (x) : (s.setOutbox x).clk = s.clk := rfl
@[simp] theorem State.setOutbox_agenda (s : State) (x) : (s.setOutbox x).agenda = s.agenda := rfl
@[simp] theorem State.setOutbox_subject (s : State) (x) : (s.setOutbox x).subject = s.subject := rfl
@[simp] theorem State.setOutbox_issuer (s : State) (x) : (s.setOutbox x).issuer = s.issuer := rfl
@[simp] theorem State.setOutbox_fresh (s : State) (x) : (s.setOutbox x).fresh = s.fresh := rfl
@[simp] theorem State.setOutbox_freeCtr (s : State) (x) : (s.setOutbox x).freeCtr = s.freeCtr := rfl
@[simp] theorem State.setOutbox_outbox (s : State) (x) : (s.setOutbox x).outbox = x := rfl
@[simp] theorem State.setOutbox_boot (s : State) (x) : (s.setOutbox x).boot = s.boot := rfl
@[simp] theorem State.setOutbox_fabric (s : State) (x) : (s.setOutbox x).fabric = s.fabric := rfl
@[simp] theorem State.setOutbox_host (s : State) (x) : (s.setOutbox x).host = s.host := rfl
@[simp] theorem State.setOutbox_ctxs (s : State) (x) : (s.setOutbox x).ctxs = s.ctxs := rfl
@[simp] theorem State.setOutbox_dies (s : State) (x) : (s.setOutbox x).dies = s.dies := rfl
@[simp] theorem State.setOutbox_cores (s : State) (x) : (s.setOutbox x).cores = s.cores := rfl
@[simp] theorem State.setOutbox_teams (s : State) (x) : (s.setOutbox x).teams = s.teams := rfl
@[simp] theorem State.setOutbox_clusters (s : State) (x) : (s.setOutbox x).clusters = s.clusters := rfl
@[simp] theorem State.setOutbox_groups (s : State) (x) : (s.setOutbox x).groups = s.groups := rfl
@[simp] theorem State.setOutbox_barriers (s : State) (x) : (s.setOutbox x).barriers = s.barriers := rfl
@[simp] theorem State.setOutbox_access (s : State) (x) : (s.setOutbox x).access = s.access := rfl
@[simp] theorem State.setOutbox_domains (s : State) (x) : (s.setOutbox x).domains = s.domains := rfl
@[simp] theorem State.setOutbox_tlb (s : State) (x) : (s.setOutbox x).tlb = s.tlb := rfl
@[simp] theorem State.setOutbox_mem (s : State) (x) : (s.setOutbox x).mem = s.mem := rfl
@[simp] theorem State.setOutbox_poison (s : State) (x) : (s.setOutbox x).poison = s.poison := rfl
@[simp] theorem State.setBoot_clk (s : State) (x) : (s.setBoot x).clk = s.clk := rfl
@[simp] theorem State.setBoot_agenda (s : State) (x) : (s.setBoot x).agenda = s.agenda := rfl
@[simp] theorem State.setBoot_subject (s : State) (x) : (s.setBoot x).subject = s.subject := rfl
@[simp] theorem State.setBoot_issuer (s : State) (x) : (s.setBoot x).issuer = s.issuer := rfl
@[simp] theorem State.setBoot_fresh (s : State) (x) : (s.setBoot x).fresh = s.fresh := rfl
@[simp] theorem State.setBoot_freeCtr (s : State) (x) : (s.setBoot x).freeCtr = s.freeCtr := rfl
@[simp] theorem State.setBoot_outbox (s : State) (x) : (s.setBoot x).outbox = s.outbox := rfl
@[simp] theorem State.setBoot_boot (s : State) (x) : (s.setBoot x).boot = x := rfl
@[simp] theorem State.setBoot_fabric (s : State) (x) : (s.setBoot x).fabric = s.fabric := rfl
@[simp] theorem State.setBoot_host (s : State) (x) : (s.setBoot x).host = s.host := rfl
@[simp] theorem State.setBoot_ctxs (s : State) (x) : (s.setBoot x).ctxs = s.ctxs := rfl
@[simp] theorem State.setBoot_dies (s : State) (x) : (s.setBoot x).dies = s.dies := rfl
@[simp] theorem State.setBoot_cores (s : State) (x) : (s.setBoot x).cores = s.cores := rfl
@[simp] theorem State.setBoot_teams (s : State) (x) : (s.setBoot x).teams = s.teams := rfl
@[simp] theorem State.setBoot_clusters (s : State) (x) : (s.setBoot x).clusters = s.clusters := rfl
@[simp] theorem State.setBoot_groups (s : State) (x) : (s.setBoot x).groups = s.groups := rfl
@[simp] theorem State.setBoot_barriers (s : State) (x) : (s.setBoot x).barriers = s.barriers := rfl
@[simp] theorem State.setBoot_access (s : State) (x) : (s.setBoot x).access = s.access := rfl
@[simp] theorem State.setBoot_domains (s : State) (x) : (s.setBoot x).domains = s.domains := rfl
@[simp] theorem State.setBoot_tlb (s : State) (x) : (s.setBoot x).tlb = s.tlb := rfl
@[simp] theorem State.setBoot_mem (s : State) (x) : (s.setBoot x).mem = s.mem := rfl
@[simp] theorem State.setBoot_poison (s : State) (x) : (s.setBoot x).poison = s.poison := rfl
@[simp] theorem State.setFabric_clk (s : State) (x) : (s.setFabric x).clk = s.clk := rfl
@[simp] theorem State.setFabric_agenda (s : State) (x) : (s.setFabric x).agenda = s.agenda := rfl
@[simp] theorem State.setFabric_subject (s : State) (x) : (s.setFabric x).subject = s.subject := rfl
@[simp] theorem State.setFabric_issuer (s : State) (x) : (s.setFabric x).issuer = s.issuer := rfl
@[simp] theorem State.setFabric_fresh (s : State) (x) : (s.setFabric x).fresh = s.fresh := rfl
@[simp] theorem State.setFabric_freeCtr (s : State) (x) : (s.setFabric x).freeCtr = s.freeCtr := rfl
@[simp] theorem State.setFabric_outbox (s : State) (x) : (s.setFabric x).outbox = s.outbox := rfl
@[simp] theorem State.setFabric_boot (s : State) (x) : (s.setFabric x).boot = s.boot := rfl
@[simp] theorem State.setFabric_fabric (s : State) (x) : (s.setFabric x).fabric = x := rfl
@[simp] theorem State.setFabric_host (s : State) (x) : (s.setFabric x).host = s.host := rfl
@[simp] theorem State.setFabric_ctxs (s : State) (x) : (s.setFabric x).ctxs = s.ctxs := rfl
@[simp] theorem State.setFabric_dies (s : State) (x) : (s.setFabric x).dies = s.dies := rfl
@[simp] theorem State.setFabric_cores (s : State) (x) : (s.setFabric x).cores = s.cores := rfl
@[simp] theorem State.setFabric_teams (s : State) (x) : (s.setFabric x).teams = s.teams := rfl
@[simp] theorem State.setFabric_clusters (s : State) (x) : (s.setFabric x).clusters = s.clusters := rfl
@[simp] theorem State.setFabric_groups (s : State) (x) : (s.setFabric x).groups = s.groups := rfl
@[simp] theorem State.setFabric_barriers (s : State) (x) : (s.setFabric x).barriers = s.barriers := rfl
@[simp] theorem State.setFabric_access (s : State) (x) : (s.setFabric x).access = s.access := rfl
@[simp] theorem State.setFabric_domains (s : State) (x) : (s.setFabric x).domains = s.domains := rfl
@[simp] theorem State.setFabric_tlb (s : State) (x) : (s.setFabric x).tlb = s.tlb := rfl
@[simp] theorem State.setFabric_mem (s : State) (x) : (s.setFabric x).mem = s.mem := rfl
@[simp] theorem State.setFabric_poison (s : State) (x) : (s.setFabric x).poison = s.poison := rfl
@[simp] theorem State.setHost_clk (s : State) (x) : (s.setHost x).clk = s.clk := rfl
@[simp] theorem State.setHost_agenda (s : State) (x) : (s.setHost x).agenda = s.agenda := rfl
@[simp] theorem State.setHost_subject (s : State) (x) : (s.setHost x).subject = s.subject := rfl
@[simp] theorem State.setHost_issuer (s : State) (x) : (s.setHost x).issuer = s.issuer := rfl
@[simp] theorem State.setHost_fresh (s : State) (x) : (s.setHost x).fresh = s.fresh := rfl
@[simp] theorem State.setHost_freeCtr (s : State) (x) : (s.setHost x).freeCtr = s.freeCtr := rfl
@[simp] theorem State.setHost_outbox (s : State) (x) : (s.setHost x).outbox = s.outbox := rfl
@[simp] theorem State.setHost_boot (s : State) (x) : (s.setHost x).boot = s.boot := rfl
@[simp] theorem State.setHost_fabric (s : State) (x) : (s.setHost x).fabric = s.fabric := rfl
@[simp] theorem State.setHost_host (s : State) (x) : (s.setHost x).host = x := rfl
@[simp] theorem State.setHost_ctxs (s : State) (x) : (s.setHost x).ctxs = s.ctxs := rfl
@[simp] theorem State.setHost_dies (s : State) (x) : (s.setHost x).dies = s.dies := rfl
@[simp] theorem State.setHost_cores (s : State) (x) : (s.setHost x).cores = s.cores := rfl
@[simp] theorem State.setHost_teams (s : State) (x) : (s.setHost x).teams = s.teams := rfl
@[simp] theorem State.setHost_clusters (s : State) (x) : (s.setHost x).clusters = s.clusters := rfl
@[simp] theorem State.setHost_groups (s : State) (x) : (s.setHost x).groups = s.groups := rfl
@[simp] theorem State.setHost_barriers (s : State) (x) : (s.setHost x).barriers = s.barriers := rfl
@[simp] theorem State.setHost_access (s : State) (x) : (s.setHost x).access = s.access := rfl
@[simp] theorem State.setHost_domains (s : State) (x) : (s.setHost x).domains = s.domains := rfl
@[simp] theorem State.setHost_tlb (s : State) (x) : (s.setHost x).tlb = s.tlb := rfl
@[simp] theorem State.setHost_mem (s : State) (x) : (s.setHost x).mem = s.mem := rfl
@[simp] theorem State.setHost_poison (s : State) (x) : (s.setHost x).poison = s.poison := rfl
@[simp] theorem State.setCtxs_clk (s : State) (x) : (s.setCtxs x).clk = s.clk := rfl
@[simp] theorem State.setCtxs_agenda (s : State) (x) : (s.setCtxs x).agenda = s.agenda := rfl
@[simp] theorem State.setCtxs_subject (s : State) (x) : (s.setCtxs x).subject = s.subject := rfl
@[simp] theorem State.setCtxs_issuer (s : State) (x) : (s.setCtxs x).issuer = s.issuer := rfl
@[simp] theorem State.setCtxs_fresh (s : State) (x) : (s.setCtxs x).fresh = s.fresh := rfl
@[simp] theorem State.setCtxs_freeCtr (s : State) (x) : (s.setCtxs x).freeCtr = s.freeCtr := rfl
@[simp] theorem State.setCtxs_outbox (s : State) (x) : (s.setCtxs x).outbox = s.outbox := rfl
@[simp] theorem State.setCtxs_boot (s : State) (x) : (s.setCtxs x).boot = s.boot := rfl
@[simp] theorem State.setCtxs_fabric (s : State) (x) : (s.setCtxs x).fabric = s.fabric := rfl
@[simp] theorem State.setCtxs_host (s : State) (x) : (s.setCtxs x).host = s.host := rfl
@[simp] theorem State.setCtxs_ctxs (s : State) (x) : (s.setCtxs x).ctxs = x := rfl
@[simp] theorem State.setCtxs_dies (s : State) (x) : (s.setCtxs x).dies = s.dies := rfl
@[simp] theorem State.setCtxs_cores (s : State) (x) : (s.setCtxs x).cores = s.cores := rfl
@[simp] theorem State.setCtxs_teams (s : State) (x) : (s.setCtxs x).teams = s.teams := rfl
@[simp] theorem State.setCtxs_clusters (s : State) (x) : (s.setCtxs x).clusters = s.clusters := rfl
@[simp] theorem State.setCtxs_groups (s : State) (x) : (s.setCtxs x).groups = s.groups := rfl
@[simp] theorem State.setCtxs_barriers (s : State) (x) : (s.setCtxs x).barriers = s.barriers := rfl
@[simp] theorem State.setCtxs_access (s : State) (x) : (s.setCtxs x).access = s.access := rfl
@[simp] theorem State.setCtxs_domains (s : State) (x) : (s.setCtxs x).domains = s.domains := rfl
@[simp] theorem State.setCtxs_tlb (s : State) (x) : (s.setCtxs x).tlb = s.tlb := rfl
@[simp] theorem State.setCtxs_mem (s : State) (x) : (s.setCtxs x).mem = s.mem := rfl
@[simp] theorem State.setCtxs_poison (s : State) (x) : (s.setCtxs x).poison = s.poison := rfl
@[simp] theorem State.setDies_clk (s : State) (x) : (s.setDies x).clk = s.clk := rfl
@[simp] theorem State.setDies_agenda (s : State) (x) : (s.setDies x).agenda = s.agenda := rfl
@[simp] theorem State.setDies_subject (s : State) (x) : (s.setDies x).subject = s.subject := rfl
@[simp] theorem State.setDies_issuer (s : State) (x) : (s.setDies x).issuer = s.issuer := rfl
@[simp] theorem State.setDies_fresh (s : State) (x) : (s.setDies x).fresh = s.fresh := rfl
@[simp] theorem State.setDies_freeCtr (s : State) (x) : (s.setDies x).freeCtr = s.freeCtr := rfl
@[simp] theorem State.setDies_outbox (s : State) (x) : (s.setDies x).outbox = s.outbox := rfl
@[simp] theorem State.setDies_boot (s : State) (x) : (s.setDies x).boot = s.boot := rfl
@[simp] theorem State.setDies_fabric (s : State) (x) : (s.setDies x).fabric = s.fabric := rfl
@[simp] theorem State.setDies_host (s : State) (x) : (s.setDies x).host = s.host := rfl
@[simp] theorem State.setDies_ctxs (s : State) (x) : (s.setDies x).ctxs = s.ctxs := rfl
@[simp] theorem State.setDies_dies (s : State) (x) : (s.setDies x).dies = x := rfl
@[simp] theorem State.setDies_cores (s : State) (x) : (s.setDies x).cores = s.cores := rfl
@[simp] theorem State.setDies_teams (s : State) (x) : (s.setDies x).teams = s.teams := rfl
@[simp] theorem State.setDies_clusters (s : State) (x) : (s.setDies x).clusters = s.clusters := rfl
@[simp] theorem State.setDies_groups (s : State) (x) : (s.setDies x).groups = s.groups := rfl
@[simp] theorem State.setDies_barriers (s : State) (x) : (s.setDies x).barriers = s.barriers := rfl
@[simp] theorem State.setDies_access (s : State) (x) : (s.setDies x).access = s.access := rfl
@[simp] theorem State.setDies_domains (s : State) (x) : (s.setDies x).domains = s.domains := rfl
@[simp] theorem State.setDies_tlb (s : State) (x) : (s.setDies x).tlb = s.tlb := rfl
@[simp] theorem State.setDies_mem (s : State) (x) : (s.setDies x).mem = s.mem := rfl
@[simp] theorem State.setDies_poison (s : State) (x) : (s.setDies x).poison = s.poison := rfl
@[simp] theorem State.setCores_clk (s : State) (x) : (s.setCores x).clk = s.clk := rfl
@[simp] theorem State.setCores_agenda (s : State) (x) : (s.setCores x).agenda = s.agenda := rfl
@[simp] theorem State.setCores_subject (s : State) (x) : (s.setCores x).subject = s.subject := rfl
@[simp] theorem State.setCores_issuer (s : State) (x) : (s.setCores x).issuer = s.issuer := rfl
@[simp] theorem State.setCores_fresh (s : State) (x) : (s.setCores x).fresh = s.fresh := rfl
@[simp] theorem State.setCores_freeCtr (s : State) (x) : (s.setCores x).freeCtr = s.freeCtr := rfl
@[simp] theorem State.setCores_outbox (s : State) (x) : (s.setCores x).outbox = s.outbox := rfl
@[simp] theorem State.setCores_boot (s : State) (x) : (s.setCores x).boot = s.boot := rfl
@[simp] theorem State.setCores_fabric (s : State) (x) : (s.setCores x).fabric = s.fabric := rfl
@[simp] theorem State.setCores_host (s : State) (x) : (s.setCores x).host = s.host := rfl
@[simp] theorem State.setCores_ctxs (s : State) (x) : (s.setCores x).ctxs = s.ctxs := rfl
@[simp] theorem State.setCores_dies (s : State) (x) : (s.setCores x).dies = s.dies := rfl
@[simp] theorem State.setCores_cores (s : State) (x) : (s.setCores x).cores = x := rfl
@[simp] theorem State.setCores_teams (s : State) (x) : (s.setCores x).teams = s.teams := rfl
@[simp] theorem State.setCores_clusters (s : State) (x) : (s.setCores x).clusters = s.clusters := rfl
@[simp] theorem State.setCores_groups (s : State) (x) : (s.setCores x).groups = s.groups := rfl
@[simp] theorem State.setCores_barriers (s : State) (x) : (s.setCores x).barriers = s.barriers := rfl
@[simp] theorem State.setCores_access (s : State) (x) : (s.setCores x).access = s.access := rfl
@[simp] theorem State.setCores_domains (s : State) (x) : (s.setCores x).domains = s.domains := rfl
@[simp] theorem State.setCores_tlb (s : State) (x) : (s.setCores x).tlb = s.tlb := rfl
@[simp] theorem State.setCores_mem (s : State) (x) : (s.setCores x).mem = s.mem := rfl
@[simp] theorem State.setCores_poison (s : State) (x) : (s.setCores x).poison = s.poison := rfl
@[simp] theorem State.setTeams_clk (s : State) (x) : (s.setTeams x).clk = s.clk := rfl
@[simp] theorem State.setTeams_agenda (s : State) (x) : (s.setTeams x).agenda = s.agenda := rfl
@[simp] theorem State.setTeams_subject (s : State) (x) : (s.setTeams x).subject = s.subject := rfl
@[simp] theorem State.setTeams_issuer (s : State) (x) : (s.setTeams x).issuer = s.issuer := rfl
@[simp] theorem State.setTeams_fresh (s : State) (x) : (s.setTeams x).fresh = s.fresh := rfl
@[simp] theorem State.setTeams_freeCtr (s : State) (x) : (s.setTeams x).freeCtr = s.freeCtr := rfl
@[simp] theorem State.setTeams_outbox (s : State) (x) : (s.setTeams x).outbox = s.outbox := rfl
@[simp] theorem State.setTeams_boot (s : State) (x) : (s.setTeams x).boot = s.boot := rfl
@[simp] theorem State.setTeams_fabric (s : State) (x) : (s.setTeams x).fabric = s.fabric := rfl
@[simp] theorem State.setTeams_host (s : State) (x) : (s.setTeams x).host = s.host := rfl
@[simp] theorem State.setTeams_ctxs (s : State) (x) : (s.setTeams x).ctxs = s.ctxs := rfl
@[simp] theorem State.setTeams_dies (s : State) (x) : (s.setTeams x).dies = s.dies := rfl
@[simp] theorem State.setTeams_cores (s : State) (x) : (s.setTeams x).cores = s.cores := rfl
@[simp] theorem State.setTeams_teams (s : State) (x) : (s.setTeams x).teams = x := rfl
@[simp] theorem State.setTeams_clusters (s : State) (x) : (s.setTeams x).clusters = s.clusters := rfl
@[simp] theorem State.setTeams_groups (s : State) (x) : (s.setTeams x).groups = s.groups := rfl
@[simp] theorem State.setTeams_barriers (s : State) (x) : (s.setTeams x).barriers = s.barriers := rfl
@[simp] theorem State.setTeams_access (s : State) (x) : (s.setTeams x).access = s.access := rfl
@[simp] theorem State.setTeams_domains (s : State) (x) : (s.setTeams x).domains = s.domains := rfl
@[simp] theorem State.setTeams_tlb (s : State) (x) : (s.setTeams x).tlb = s.tlb := rfl
@[simp] theorem State.setTeams_mem (s : State) (x) : (s.setTeams x).mem = s.mem := rfl
@[simp] theorem State.setTeams_poison (s : State) (x) : (s.setTeams x).poison = s.poison := rfl
@[simp] theorem State.setClusters_clk (s : State) (x) : (s.setClusters x).clk = s.clk := rfl
@[simp] theorem State.setClusters_agenda (s : State) (x) : (s.setClusters x).agenda = s.agenda := rfl
@[simp] theorem State.setClusters_subject (s : State) (x) : (s.setClusters x).subject = s.subject := rfl
@[simp] theorem State.setClusters_issuer (s : State) (x) : (s.setClusters x).issuer = s.issuer := rfl
@[simp] theorem State.setClusters_fresh (s : State) (x) : (s.setClusters x).fresh = s.fresh := rfl
@[simp] theorem State.setClusters_freeCtr (s : State) (x) : (s.setClusters x).freeCtr = s.freeCtr := rfl
@[simp] theorem State.setClusters_outbox (s : State) (x) : (s.setClusters x).outbox = s.outbox := rfl
@[simp] theorem State.setClusters_boot (s : State) (x) : (s.setClusters x).boot = s.boot := rfl
@[simp] theorem State.setClusters_fabric (s : State) (x) : (s.setClusters x).fabric = s.fabric := rfl
@[simp] theorem State.setClusters_host (s : State) (x) : (s.setClusters x).host = s.host := rfl
@[simp] theorem State.setClusters_ctxs (s : State) (x) : (s.setClusters x).ctxs = s.ctxs := rfl
@[simp] theorem State.setClusters_dies (s : State) (x) : (s.setClusters x).dies = s.dies := rfl
@[simp] theorem State.setClusters_cores (s : State) (x) : (s.setClusters x).cores = s.cores := rfl
@[simp] theorem State.setClusters_teams (s : State) (x) : (s.setClusters x).teams = s.teams := rfl
@[simp] theorem State.setClusters_clusters (s : State) (x) : (s.setClusters x).clusters = x := rfl
@[simp] theorem State.setClusters_groups (s : State) (x) : (s.setClusters x).groups = s.groups := rfl
@[simp] theorem State.setClusters_barriers (s : State) (x) : (s.setClusters x).barriers = s.barriers := rfl
@[simp] theorem State.setClusters_access (s : State) (x) : (s.setClusters x).access = s.access := rfl
@[simp] theorem State.setClusters_domains (s : State) (x) : (s.setClusters x).domains = s.domains := rfl
@[simp] theorem State.setClusters_tlb (s : State) (x) : (s.setClusters x).tlb = s.tlb := rfl
@[simp] theorem State.setClusters_mem (s : State) (x) : (s.setClusters x).mem = s.mem := rfl
@[simp] theorem State.setClusters_poison (s : State) (x) : (s.setClusters x).poison = s.poison := rfl
@[simp] theorem State.setGroups_clk (s : State) (x) : (s.setGroups x).clk = s.clk := rfl
@[simp] theorem State.setGroups_agenda (s : State) (x) : (s.setGroups x).agenda = s.agenda := rfl
@[simp] theorem State.setGroups_subject (s : State) (x) : (s.setGroups x).subject = s.subject := rfl
@[simp] theorem State.setGroups_issuer (s : State) (x) : (s.setGroups x).issuer = s.issuer := rfl
@[simp] theorem State.setGroups_fresh (s : State) (x) : (s.setGroups x).fresh = s.fresh := rfl
@[simp] theorem State.setGroups_freeCtr (s : State) (x) : (s.setGroups x).freeCtr = s.freeCtr := rfl
@[simp] theorem State.setGroups_outbox (s : State) (x) : (s.setGroups x).outbox = s.outbox := rfl
@[simp] theorem State.setGroups_boot (s : State) (x) : (s.setGroups x).boot = s.boot := rfl
@[simp] theorem State.setGroups_fabric (s : State) (x) : (s.setGroups x).fabric = s.fabric := rfl
@[simp] theorem State.setGroups_host (s : State) (x) : (s.setGroups x).host = s.host := rfl
@[simp] theorem State.setGroups_ctxs (s : State) (x) : (s.setGroups x).ctxs = s.ctxs := rfl
@[simp] theorem State.setGroups_dies (s : State) (x) : (s.setGroups x).dies = s.dies := rfl
@[simp] theorem State.setGroups_cores (s : State) (x) : (s.setGroups x).cores = s.cores := rfl
@[simp] theorem State.setGroups_teams (s : State) (x) : (s.setGroups x).teams = s.teams := rfl
@[simp] theorem State.setGroups_clusters (s : State) (x) : (s.setGroups x).clusters = s.clusters := rfl
@[simp] theorem State.setGroups_groups (s : State) (x) : (s.setGroups x).groups = x := rfl
@[simp] theorem State.setGroups_barriers (s : State) (x) : (s.setGroups x).barriers = s.barriers := rfl
@[simp] theorem State.setGroups_access (s : State) (x) : (s.setGroups x).access = s.access := rfl
@[simp] theorem State.setGroups_domains (s : State) (x) : (s.setGroups x).domains = s.domains := rfl
@[simp] theorem State.setGroups_tlb (s : State) (x) : (s.setGroups x).tlb = s.tlb := rfl
@[simp] theorem State.setGroups_mem (s : State) (x) : (s.setGroups x).mem = s.mem := rfl
@[simp] theorem State.setGroups_poison (s : State) (x) : (s.setGroups x).poison = s.poison := rfl
@[simp] theorem State.setBarriers_clk (s : State) (x) : (s.setBarriers x).clk = s.clk := rfl
@[simp] theorem State.setBarriers_agenda (s : State) (x) : (s.setBarriers x).agenda = s.agenda := rfl
@[simp] theorem State.setBarriers_subject (s : State) (x) : (s.setBarriers x).subject = s.subject := rfl
@[simp] theorem State.setBarriers_issuer (s : State) (x) : (s.setBarriers x).issuer = s.issuer := rfl
@[simp] theorem State.setBarriers_fresh (s : State) (x) : (s.setBarriers x).fresh = s.fresh := rfl
@[simp] theorem State.setBarriers_freeCtr (s : State) (x) : (s.setBarriers x).freeCtr = s.freeCtr := rfl
@[simp] theorem State.setBarriers_outbox (s : State) (x) : (s.setBarriers x).outbox = s.outbox := rfl
@[simp] theorem State.setBarriers_boot (s : State) (x) : (s.setBarriers x).boot = s.boot := rfl
@[simp] theorem State.setBarriers_fabric (s : State) (x) : (s.setBarriers x).fabric = s.fabric := rfl
@[simp] theorem State.setBarriers_host (s : State) (x) : (s.setBarriers x).host = s.host := rfl
@[simp] theorem State.setBarriers_ctxs (s : State) (x) : (s.setBarriers x).ctxs = s.ctxs := rfl
@[simp] theorem State.setBarriers_dies (s : State) (x) : (s.setBarriers x).dies = s.dies := rfl
@[simp] theorem State.setBarriers_cores (s : State) (x) : (s.setBarriers x).cores = s.cores := rfl
@[simp] theorem State.setBarriers_teams (s : State) (x) : (s.setBarriers x).teams = s.teams := rfl
@[simp] theorem State.setBarriers_clusters (s : State) (x) : (s.setBarriers x).clusters = s.clusters := rfl
@[simp] theorem State.setBarriers_groups (s : State) (x) : (s.setBarriers x).groups = s.groups := rfl
@[simp] theorem State.setBarriers_barriers (s : State) (x) : (s.setBarriers x).barriers = x := rfl
@[simp] theorem State.setBarriers_access (s : State) (x) : (s.setBarriers x).access = s.access := rfl
@[simp] theorem State.setBarriers_domains (s : State) (x) : (s.setBarriers x).domains = s.domains := rfl
@[simp] theorem State.setBarriers_tlb (s : State) (x) : (s.setBarriers x).tlb = s.tlb := rfl
@[simp] theorem State.setBarriers_mem (s : State) (x) : (s.setBarriers x).mem = s.mem := rfl
@[simp] theorem State.setBarriers_poison (s : State) (x) : (s.setBarriers x).poison = s.poison := rfl
@[simp] theorem State.setAccess_clk (s : State) (x) : (s.setAccess x).clk = s.clk := rfl
@[simp] theorem State.setAccess_agenda (s : State) (x) : (s.setAccess x).agenda = s.agenda := rfl
@[simp] theorem State.setAccess_subject (s : State) (x) : (s.setAccess x).subject = s.subject := rfl
@[simp] theorem State.setAccess_issuer (s : State) (x) : (s.setAccess x).issuer = s.issuer := rfl
@[simp] theorem State.setAccess_fresh (s : State) (x) : (s.setAccess x).fresh = s.fresh := rfl
@[simp] theorem State.setAccess_freeCtr (s : State) (x) : (s.setAccess x).freeCtr = s.freeCtr := rfl
@[simp] theorem State.setAccess_outbox (s : State) (x) : (s.setAccess x).outbox = s.outbox := rfl
@[simp] theorem State.setAccess_boot (s : State) (x) : (s.setAccess x).boot = s.boot := rfl
@[simp] theorem State.setAccess_fabric (s : State) (x) : (s.setAccess x).fabric = s.fabric := rfl
@[simp] theorem State.setAccess_host (s : State) (x) : (s.setAccess x).host = s.host := rfl
@[simp] theorem State.setAccess_ctxs (s : State) (x) : (s.setAccess x).ctxs = s.ctxs := rfl
@[simp] theorem State.setAccess_dies (s : State) (x) : (s.setAccess x).dies = s.dies := rfl
@[simp] theorem State.setAccess_cores (s : State) (x) : (s.setAccess x).cores = s.cores := rfl
@[simp] theorem State.setAccess_teams (s : State) (x) : (s.setAccess x).teams = s.teams := rfl
@[simp] theorem State.setAccess_clusters (s : State) (x) : (s.setAccess x).clusters = s.clusters := rfl
@[simp] theorem State.setAccess_groups (s : State) (x) : (s.setAccess x).groups = s.groups := rfl
@[simp] theorem State.setAccess_barriers (s : State) (x) : (s.setAccess x).barriers = s.barriers := rfl
@[simp] theorem State.setAccess_access (s : State) (x) : (s.setAccess x).access = x := rfl
@[simp] theorem State.setAccess_domains (s : State) (x) : (s.setAccess x).domains = s.domains := rfl
@[simp] theorem State.setAccess_tlb (s : State) (x) : (s.setAccess x).tlb = s.tlb := rfl
@[simp] theorem State.setAccess_mem (s : State) (x) : (s.setAccess x).mem = s.mem := rfl
@[simp] theorem State.setAccess_poison (s : State) (x) : (s.setAccess x).poison = s.poison := rfl
@[simp] theorem State.setDomains_clk (s : State) (x) : (s.setDomains x).clk = s.clk := rfl
@[simp] theorem State.setDomains_agenda (s : State) (x) : (s.setDomains x).agenda = s.agenda := rfl
@[simp] theorem State.setDomains_subject (s : State) (x) : (s.setDomains x).subject = s.subject := rfl
@[simp] theorem State.setDomains_issuer (s : State) (x) : (s.setDomains x).issuer = s.issuer := rfl
@[simp] theorem State.setDomains_fresh (s : State) (x) : (s.setDomains x).fresh = s.fresh := rfl
@[simp] theorem State.setDomains_freeCtr (s : State) (x) : (s.setDomains x).freeCtr = s.freeCtr := rfl
@[simp] theorem State.setDomains_outbox (s : State) (x) : (s.setDomains x).outbox = s.outbox := rfl
@[simp] theorem State.setDomains_boot (s : State) (x) : (s.setDomains x).boot = s.boot := rfl
@[simp] theorem State.setDomains_fabric (s : State) (x) : (s.setDomains x).fabric = s.fabric := rfl
@[simp] theorem State.setDomains_host (s : State) (x) : (s.setDomains x).host = s.host := rfl
@[simp] theorem State.setDomains_ctxs (s : State) (x) : (s.setDomains x).ctxs = s.ctxs := rfl
@[simp] theorem State.setDomains_dies (s : State) (x) : (s.setDomains x).dies = s.dies := rfl
@[simp] theorem State.setDomains_cores (s : State) (x) : (s.setDomains x).cores = s.cores := rfl
@[simp] theorem State.setDomains_teams (s : State) (x) : (s.setDomains x).teams = s.teams := rfl
@[simp] theorem State.setDomains_clusters (s : State) (x) : (s.setDomains x).clusters = s.clusters := rfl
@[simp] theorem State.setDomains_groups (s : State) (x) : (s.setDomains x).groups = s.groups := rfl
@[simp] theorem State.setDomains_barriers (s : State) (x) : (s.setDomains x).barriers = s.barriers := rfl
@[simp] theorem State.setDomains_access (s : State) (x) : (s.setDomains x).access = s.access := rfl
@[simp] theorem State.setDomains_domains (s : State) (x) : (s.setDomains x).domains = x := rfl
@[simp] theorem State.setDomains_tlb (s : State) (x) : (s.setDomains x).tlb = s.tlb := rfl
@[simp] theorem State.setDomains_mem (s : State) (x) : (s.setDomains x).mem = s.mem := rfl
@[simp] theorem State.setDomains_poison (s : State) (x) : (s.setDomains x).poison = s.poison := rfl
@[simp] theorem State.setTlb_clk (s : State) (x) : (s.setTlb x).clk = s.clk := rfl
@[simp] theorem State.setTlb_agenda (s : State) (x) : (s.setTlb x).agenda = s.agenda := rfl
@[simp] theorem State.setTlb_subject (s : State) (x) : (s.setTlb x).subject = s.subject := rfl
@[simp] theorem State.setTlb_issuer (s : State) (x) : (s.setTlb x).issuer = s.issuer := rfl
@[simp] theorem State.setTlb_fresh (s : State) (x) : (s.setTlb x).fresh = s.fresh := rfl
@[simp] theorem State.setTlb_freeCtr (s : State) (x) : (s.setTlb x).freeCtr = s.freeCtr := rfl
@[simp] theorem State.setTlb_outbox (s : State) (x) : (s.setTlb x).outbox = s.outbox := rfl
@[simp] theorem State.setTlb_boot (s : State) (x) : (s.setTlb x).boot = s.boot := rfl
@[simp] theorem State.setTlb_fabric (s : State) (x) : (s.setTlb x).fabric = s.fabric := rfl
@[simp] theorem State.setTlb_host (s : State) (x) : (s.setTlb x).host = s.host := rfl
@[simp] theorem State.setTlb_ctxs (s : State) (x) : (s.setTlb x).ctxs = s.ctxs := rfl
@[simp] theorem State.setTlb_dies (s : State) (x) : (s.setTlb x).dies = s.dies := rfl
@[simp] theorem State.setTlb_cores (s : State) (x) : (s.setTlb x).cores = s.cores := rfl
@[simp] theorem State.setTlb_teams (s : State) (x) : (s.setTlb x).teams = s.teams := rfl
@[simp] theorem State.setTlb_clusters (s : State) (x) : (s.setTlb x).clusters = s.clusters := rfl
@[simp] theorem State.setTlb_groups (s : State) (x) : (s.setTlb x).groups = s.groups := rfl
@[simp] theorem State.setTlb_barriers (s : State) (x) : (s.setTlb x).barriers = s.barriers := rfl
@[simp] theorem State.setTlb_access (s : State) (x) : (s.setTlb x).access = s.access := rfl
@[simp] theorem State.setTlb_domains (s : State) (x) : (s.setTlb x).domains = s.domains := rfl
@[simp] theorem State.setTlb_tlb (s : State) (x) : (s.setTlb x).tlb = x := rfl
@[simp] theorem State.setTlb_mem (s : State) (x) : (s.setTlb x).mem = s.mem := rfl
@[simp] theorem State.setTlb_poison (s : State) (x) : (s.setTlb x).poison = s.poison := rfl
@[simp] theorem State.setMem_clk (s : State) (x) : (s.setMem x).clk = s.clk := rfl
@[simp] theorem State.setMem_agenda (s : State) (x) : (s.setMem x).agenda = s.agenda := rfl
@[simp] theorem State.setMem_subject (s : State) (x) : (s.setMem x).subject = s.subject := rfl
@[simp] theorem State.setMem_issuer (s : State) (x) : (s.setMem x).issuer = s.issuer := rfl
@[simp] theorem State.setMem_fresh (s : State) (x) : (s.setMem x).fresh = s.fresh := rfl
@[simp] theorem State.setMem_freeCtr (s : State) (x) : (s.setMem x).freeCtr = s.freeCtr := rfl
@[simp] theorem State.setMem_outbox (s : State) (x) : (s.setMem x).outbox = s.outbox := rfl
@[simp] theorem State.setMem_boot (s : State) (x) : (s.setMem x).boot = s.boot := rfl
@[simp] theorem State.setMem_fabric (s : State) (x) : (s.setMem x).fabric = s.fabric := rfl
@[simp] theorem State.setMem_host (s : State) (x) : (s.setMem x).host = s.host := rfl
@[simp] theorem State.setMem_ctxs (s : State) (x) : (s.setMem x).ctxs = s.ctxs := rfl
@[simp] theorem State.setMem_dies (s : State) (x) : (s.setMem x).dies = s.dies := rfl
@[simp] theorem State.setMem_cores (s : State) (x) : (s.setMem x).cores = s.cores := rfl
@[simp] theorem State.setMem_teams (s : State) (x) : (s.setMem x).teams = s.teams := rfl
@[simp] theorem State.setMem_clusters (s : State) (x) : (s.setMem x).clusters = s.clusters := rfl
@[simp] theorem State.setMem_groups (s : State) (x) : (s.setMem x).groups = s.groups := rfl
@[simp] theorem State.setMem_barriers (s : State) (x) : (s.setMem x).barriers = s.barriers := rfl
@[simp] theorem State.setMem_access (s : State) (x) : (s.setMem x).access = s.access := rfl
@[simp] theorem State.setMem_domains (s : State) (x) : (s.setMem x).domains = s.domains := rfl
@[simp] theorem State.setMem_tlb (s : State) (x) : (s.setMem x).tlb = s.tlb := rfl
@[simp] theorem State.setMem_mem (s : State) (x) : (s.setMem x).mem = x := rfl
@[simp] theorem State.setMem_poison (s : State) (x) : (s.setMem x).poison = s.poison := rfl
@[simp] theorem State.setPoison_clk (s : State) (x) : (s.setPoison x).clk = s.clk := rfl
@[simp] theorem State.setPoison_agenda (s : State) (x) : (s.setPoison x).agenda = s.agenda := rfl
@[simp] theorem State.setPoison_subject (s : State) (x) : (s.setPoison x).subject = s.subject := rfl
@[simp] theorem State.setPoison_issuer (s : State) (x) : (s.setPoison x).issuer = s.issuer := rfl
@[simp] theorem State.setPoison_fresh (s : State) (x) : (s.setPoison x).fresh = s.fresh := rfl
@[simp] theorem State.setPoison_freeCtr (s : State) (x) : (s.setPoison x).freeCtr = s.freeCtr := rfl
@[simp] theorem State.setPoison_outbox (s : State) (x) : (s.setPoison x).outbox = s.outbox := rfl
@[simp] theorem State.setPoison_boot (s : State) (x) : (s.setPoison x).boot = s.boot := rfl
@[simp] theorem State.setPoison_fabric (s : State) (x) : (s.setPoison x).fabric = s.fabric := rfl
@[simp] theorem State.setPoison_host (s : State) (x) : (s.setPoison x).host = s.host := rfl
@[simp] theorem State.setPoison_ctxs (s : State) (x) : (s.setPoison x).ctxs = s.ctxs := rfl
@[simp] theorem State.setPoison_dies (s : State) (x) : (s.setPoison x).dies = s.dies := rfl
@[simp] theorem State.setPoison_cores (s : State) (x) : (s.setPoison x).cores = s.cores := rfl
@[simp] theorem State.setPoison_teams (s : State) (x) : (s.setPoison x).teams = s.teams := rfl
@[simp] theorem State.setPoison_clusters (s : State) (x) : (s.setPoison x).clusters = s.clusters := rfl
@[simp] theorem State.setPoison_groups (s : State) (x) : (s.setPoison x).groups = s.groups := rfl
@[simp] theorem State.setPoison_barriers (s : State) (x) : (s.setPoison x).barriers = s.barriers := rfl
@[simp] theorem State.setPoison_access (s : State) (x) : (s.setPoison x).access = s.access := rfl
@[simp] theorem State.setPoison_domains (s : State) (x) : (s.setPoison x).domains = s.domains := rfl
@[simp] theorem State.setPoison_tlb (s : State) (x) : (s.setPoison x).tlb = s.tlb := rfl
@[simp] theorem State.setPoison_mem (s : State) (x) : (s.setPoison x).mem = s.mem := rfl
@[simp] theorem State.setPoison_poison (s : State) (x) : (s.setPoison x).poison = x := rfl

/-! ## The shared operations -/

@[simp] theorem State.putGroup_clk (s : State) (k : GKey) (g : Group) : (s.putGroup k g).clk = s.clk := rfl
@[simp] theorem State.putGroup_agenda (s : State) (k : GKey) (g : Group) : (s.putGroup k g).agenda = s.agenda := rfl
@[simp] theorem State.putGroup_subject (s : State) (k : GKey) (g : Group) : (s.putGroup k g).subject = s.subject := rfl
@[simp] theorem State.putGroup_issuer (s : State) (k : GKey) (g : Group) : (s.putGroup k g).issuer = s.issuer := rfl
@[simp] theorem State.putGroup_fresh (s : State) (k : GKey) (g : Group) : (s.putGroup k g).fresh = s.fresh := rfl
@[simp] theorem State.putGroup_freeCtr (s : State) (k : GKey) (g : Group) : (s.putGroup k g).freeCtr = s.freeCtr := rfl
@[simp] theorem State.putGroup_outbox (s : State) (k : GKey) (g : Group) : (s.putGroup k g).outbox = s.outbox := rfl
@[simp] theorem State.putGroup_boot (s : State) (k : GKey) (g : Group) : (s.putGroup k g).boot = s.boot := rfl
@[simp] theorem State.putGroup_fabric (s : State) (k : GKey) (g : Group) : (s.putGroup k g).fabric = s.fabric := rfl
@[simp] theorem State.putGroup_host (s : State) (k : GKey) (g : Group) : (s.putGroup k g).host = s.host := rfl
@[simp] theorem State.putGroup_ctxs (s : State) (k : GKey) (g : Group) : (s.putGroup k g).ctxs = s.ctxs := rfl
@[simp] theorem State.putGroup_dies (s : State) (k : GKey) (g : Group) : (s.putGroup k g).dies = s.dies := rfl
@[simp] theorem State.putGroup_cores (s : State) (k : GKey) (g : Group) : (s.putGroup k g).cores = s.cores := rfl
@[simp] theorem State.putGroup_teams (s : State) (k : GKey) (g : Group) : (s.putGroup k g).teams = s.teams := rfl
@[simp] theorem State.putGroup_clusters (s : State) (k : GKey) (g : Group) : (s.putGroup k g).clusters = s.clusters := rfl
@[simp] theorem State.putGroup_barriers (s : State) (k : GKey) (g : Group) : (s.putGroup k g).barriers = s.barriers := rfl
@[simp] theorem State.putGroup_access (s : State) (k : GKey) (g : Group) : (s.putGroup k g).access = s.access := rfl
@[simp] theorem State.putGroup_domains (s : State) (k : GKey) (g : Group) : (s.putGroup k g).domains = s.domains := rfl
@[simp] theorem State.putGroup_tlb (s : State) (k : GKey) (g : Group) : (s.putGroup k g).tlb = s.tlb := rfl
@[simp] theorem State.putGroup_mem (s : State) (k : GKey) (g : Group) : (s.putGroup k g).mem = s.mem := rfl
@[simp] theorem State.putGroup_poison (s : State) (k : GKey) (g : Group) : (s.putGroup k g).poison = s.poison := rfl
@[simp] theorem State.dropGroup_clk (s : State) (k : GKey) : (s.dropGroup k).clk = s.clk := rfl
@[simp] theorem State.dropGroup_agenda (s : State) (k : GKey) : (s.dropGroup k).agenda = s.agenda := rfl
@[simp] theorem State.dropGroup_subject (s : State) (k : GKey) : (s.dropGroup k).subject = s.subject := rfl
@[simp] theorem State.dropGroup_issuer (s : State) (k : GKey) : (s.dropGroup k).issuer = s.issuer := rfl
@[simp] theorem State.dropGroup_fresh (s : State) (k : GKey) : (s.dropGroup k).fresh = s.fresh := rfl
@[simp] theorem State.dropGroup_freeCtr (s : State) (k : GKey) : (s.dropGroup k).freeCtr = s.freeCtr := rfl
@[simp] theorem State.dropGroup_outbox (s : State) (k : GKey) : (s.dropGroup k).outbox = s.outbox := rfl
@[simp] theorem State.dropGroup_boot (s : State) (k : GKey) : (s.dropGroup k).boot = s.boot := rfl
@[simp] theorem State.dropGroup_fabric (s : State) (k : GKey) : (s.dropGroup k).fabric = s.fabric := rfl
@[simp] theorem State.dropGroup_host (s : State) (k : GKey) : (s.dropGroup k).host = s.host := rfl
@[simp] theorem State.dropGroup_ctxs (s : State) (k : GKey) : (s.dropGroup k).ctxs = s.ctxs := rfl
@[simp] theorem State.dropGroup_dies (s : State) (k : GKey) : (s.dropGroup k).dies = s.dies := rfl
@[simp] theorem State.dropGroup_cores (s : State) (k : GKey) : (s.dropGroup k).cores = s.cores := rfl
@[simp] theorem State.dropGroup_teams (s : State) (k : GKey) : (s.dropGroup k).teams = s.teams := rfl
@[simp] theorem State.dropGroup_clusters (s : State) (k : GKey) : (s.dropGroup k).clusters = s.clusters := rfl
@[simp] theorem State.dropGroup_barriers (s : State) (k : GKey) : (s.dropGroup k).barriers = s.barriers := rfl
@[simp] theorem State.dropGroup_access (s : State) (k : GKey) : (s.dropGroup k).access = s.access := rfl
@[simp] theorem State.dropGroup_domains (s : State) (k : GKey) : (s.dropGroup k).domains = s.domains := rfl
@[simp] theorem State.dropGroup_tlb (s : State) (k : GKey) : (s.dropGroup k).tlb = s.tlb := rfl
@[simp] theorem State.dropGroup_mem (s : State) (k : GKey) : (s.dropGroup k).mem = s.mem := rfl
@[simp] theorem State.dropGroup_poison (s : State) (k : GKey) : (s.dropGroup k).poison = s.poison := rfl
@[simp] theorem State.putCore_clk (s : State) (d c : Nat) (x : Core) : (s.putCore d c x).clk = s.clk := rfl
@[simp] theorem State.putCore_agenda (s : State) (d c : Nat) (x : Core) : (s.putCore d c x).agenda = s.agenda := rfl
@[simp] theorem State.putCore_subject (s : State) (d c : Nat) (x : Core) : (s.putCore d c x).subject = s.subject := rfl
@[simp] theorem State.putCore_issuer (s : State) (d c : Nat) (x : Core) : (s.putCore d c x).issuer = s.issuer := rfl
@[simp] theorem State.putCore_fresh (s : State) (d c : Nat) (x : Core) : (s.putCore d c x).fresh = s.fresh := rfl
@[simp] theorem State.putCore_freeCtr (s : State) (d c : Nat) (x : Core) : (s.putCore d c x).freeCtr = s.freeCtr := rfl
@[simp] theorem State.putCore_outbox (s : State) (d c : Nat) (x : Core) : (s.putCore d c x).outbox = s.outbox := rfl
@[simp] theorem State.putCore_boot (s : State) (d c : Nat) (x : Core) : (s.putCore d c x).boot = s.boot := rfl
@[simp] theorem State.putCore_fabric (s : State) (d c : Nat) (x : Core) : (s.putCore d c x).fabric = s.fabric := rfl
@[simp] theorem State.putCore_host (s : State) (d c : Nat) (x : Core) : (s.putCore d c x).host = s.host := rfl
@[simp] theorem State.putCore_ctxs (s : State) (d c : Nat) (x : Core) : (s.putCore d c x).ctxs = s.ctxs := rfl
@[simp] theorem State.putCore_dies (s : State) (d c : Nat) (x : Core) : (s.putCore d c x).dies = s.dies := rfl
@[simp] theorem State.putCore_teams (s : State) (d c : Nat) (x : Core) : (s.putCore d c x).teams = s.teams := rfl
@[simp] theorem State.putCore_clusters (s : State) (d c : Nat) (x : Core) : (s.putCore d c x).clusters = s.clusters := rfl
@[simp] theorem State.putCore_groups (s : State) (d c : Nat) (x : Core) : (s.putCore d c x).groups = s.groups := rfl
@[simp] theorem State.putCore_barriers (s : State) (d c : Nat) (x : Core) : (s.putCore d c x).barriers = s.barriers := rfl
@[simp] theorem State.putCore_access (s : State) (d c : Nat) (x : Core) : (s.putCore d c x).access = s.access := rfl
@[simp] theorem State.putCore_domains (s : State) (d c : Nat) (x : Core) : (s.putCore d c x).domains = s.domains := rfl
@[simp] theorem State.putCore_tlb (s : State) (d c : Nat) (x : Core) : (s.putCore d c x).tlb = s.tlb := rfl
@[simp] theorem State.putCore_mem (s : State) (d c : Nat) (x : Core) : (s.putCore d c x).mem = s.mem := rfl
@[simp] theorem State.putCore_poison (s : State) (d c : Nat) (x : Core) : (s.putCore d c x).poison = s.poison := rfl
@[simp] theorem State.updCore_clk (s : State) (d c : Nat) (h : Core → Core) : (s.updCore d c h).clk = s.clk := rfl
@[simp] theorem State.updCore_agenda (s : State) (d c : Nat) (h : Core → Core) : (s.updCore d c h).agenda = s.agenda := rfl
@[simp] theorem State.updCore_subject (s : State) (d c : Nat) (h : Core → Core) : (s.updCore d c h).subject = s.subject := rfl
@[simp] theorem State.updCore_issuer (s : State) (d c : Nat) (h : Core → Core) : (s.updCore d c h).issuer = s.issuer := rfl
@[simp] theorem State.updCore_fresh (s : State) (d c : Nat) (h : Core → Core) : (s.updCore d c h).fresh = s.fresh := rfl
@[simp] theorem State.updCore_freeCtr (s : State) (d c : Nat) (h : Core → Core) : (s.updCore d c h).freeCtr = s.freeCtr := rfl
@[simp] theorem State.updCore_outbox (s : State) (d c : Nat) (h : Core → Core) : (s.updCore d c h).outbox = s.outbox := rfl
@[simp] theorem State.updCore_boot (s : State) (d c : Nat) (h : Core → Core) : (s.updCore d c h).boot = s.boot := rfl
@[simp] theorem State.updCore_fabric (s : State) (d c : Nat) (h : Core → Core) : (s.updCore d c h).fabric = s.fabric := rfl
@[simp] theorem State.updCore_host (s : State) (d c : Nat) (h : Core → Core) : (s.updCore d c h).host = s.host := rfl
@[simp] theorem State.updCore_ctxs (s : State) (d c : Nat) (h : Core → Core) : (s.updCore d c h).ctxs = s.ctxs := rfl
@[simp] theorem State.updCore_dies (s : State) (d c : Nat) (h : Core → Core) : (s.updCore d c h).dies = s.dies := rfl
@[simp] theorem State.updCore_teams (s : State) (d c : Nat) (h : Core → Core) : (s.updCore d c h).teams = s.teams := rfl
@[simp] theorem State.updCore_clusters (s : State) (d c : Nat) (h : Core → Core) : (s.updCore d c h).clusters = s.clusters := rfl
@[simp] theorem State.updCore_groups (s : State) (d c : Nat) (h : Core → Core) : (s.updCore d c h).groups = s.groups := rfl
@[simp] theorem State.updCore_barriers (s : State) (d c : Nat) (h : Core → Core) : (s.updCore d c h).barriers = s.barriers := rfl
@[simp] theorem State.updCore_access (s : State) (d c : Nat) (h : Core → Core) : (s.updCore d c h).access = s.access := rfl
@[simp] theorem State.updCore_domains (s : State) (d c : Nat) (h : Core → Core) : (s.updCore d c h).domains = s.domains := rfl
@[simp] theorem State.updCore_tlb (s : State) (d c : Nat) (h : Core → Core) : (s.updCore d c h).tlb = s.tlb := rfl
@[simp] theorem State.updCore_mem (s : State) (d c : Nat) (h : Core → Core) : (s.updCore d c h).mem = s.mem := rfl
@[simp] theorem State.updCore_poison (s : State) (d c : Nat) (h : Core → Core) : (s.updCore d c h).poison = s.poison := rfl
@[simp] theorem State.putDie_clk (s : State) (d : Nat) (x : Die) : (s.putDie d x).clk = s.clk := rfl
@[simp] theorem State.putDie_agenda (s : State) (d : Nat) (x : Die) : (s.putDie d x).agenda = s.agenda := rfl
@[simp] theorem State.putDie_subject (s : State) (d : Nat) (x : Die) : (s.putDie d x).subject = s.subject := rfl
@[simp] theorem State.putDie_issuer (s : State) (d : Nat) (x : Die) : (s.putDie d x).issuer = s.issuer := rfl
@[simp] theorem State.putDie_fresh (s : State) (d : Nat) (x : Die) : (s.putDie d x).fresh = s.fresh := rfl
@[simp] theorem State.putDie_freeCtr (s : State) (d : Nat) (x : Die) : (s.putDie d x).freeCtr = s.freeCtr := rfl
@[simp] theorem State.putDie_outbox (s : State) (d : Nat) (x : Die) : (s.putDie d x).outbox = s.outbox := rfl
@[simp] theorem State.putDie_boot (s : State) (d : Nat) (x : Die) : (s.putDie d x).boot = s.boot := rfl
@[simp] theorem State.putDie_fabric (s : State) (d : Nat) (x : Die) : (s.putDie d x).fabric = s.fabric := rfl
@[simp] theorem State.putDie_host (s : State) (d : Nat) (x : Die) : (s.putDie d x).host = s.host := rfl
@[simp] theorem State.putDie_ctxs (s : State) (d : Nat) (x : Die) : (s.putDie d x).ctxs = s.ctxs := rfl
@[simp] theorem State.putDie_cores (s : State) (d : Nat) (x : Die) : (s.putDie d x).cores = s.cores := rfl
@[simp] theorem State.putDie_teams (s : State) (d : Nat) (x : Die) : (s.putDie d x).teams = s.teams := rfl
@[simp] theorem State.putDie_clusters (s : State) (d : Nat) (x : Die) : (s.putDie d x).clusters = s.clusters := rfl
@[simp] theorem State.putDie_groups (s : State) (d : Nat) (x : Die) : (s.putDie d x).groups = s.groups := rfl
@[simp] theorem State.putDie_barriers (s : State) (d : Nat) (x : Die) : (s.putDie d x).barriers = s.barriers := rfl
@[simp] theorem State.putDie_access (s : State) (d : Nat) (x : Die) : (s.putDie d x).access = s.access := rfl
@[simp] theorem State.putDie_domains (s : State) (d : Nat) (x : Die) : (s.putDie d x).domains = s.domains := rfl
@[simp] theorem State.putDie_tlb (s : State) (d : Nat) (x : Die) : (s.putDie d x).tlb = s.tlb := rfl
@[simp] theorem State.putDie_mem (s : State) (d : Nat) (x : Die) : (s.putDie d x).mem = s.mem := rfl
@[simp] theorem State.putDie_poison (s : State) (d : Nat) (x : Die) : (s.putDie d x).poison = s.poison := rfl
@[simp] theorem State.updDie_clk (s : State) (d : Nat) (h : Die → Die) : (s.updDie d h).clk = s.clk := rfl
@[simp] theorem State.updDie_agenda (s : State) (d : Nat) (h : Die → Die) : (s.updDie d h).agenda = s.agenda := rfl
@[simp] theorem State.updDie_subject (s : State) (d : Nat) (h : Die → Die) : (s.updDie d h).subject = s.subject := rfl
@[simp] theorem State.updDie_issuer (s : State) (d : Nat) (h : Die → Die) : (s.updDie d h).issuer = s.issuer := rfl
@[simp] theorem State.updDie_fresh (s : State) (d : Nat) (h : Die → Die) : (s.updDie d h).fresh = s.fresh := rfl
@[simp] theorem State.updDie_freeCtr (s : State) (d : Nat) (h : Die → Die) : (s.updDie d h).freeCtr = s.freeCtr := rfl
@[simp] theorem State.updDie_outbox (s : State) (d : Nat) (h : Die → Die) : (s.updDie d h).outbox = s.outbox := rfl
@[simp] theorem State.updDie_boot (s : State) (d : Nat) (h : Die → Die) : (s.updDie d h).boot = s.boot := rfl
@[simp] theorem State.updDie_fabric (s : State) (d : Nat) (h : Die → Die) : (s.updDie d h).fabric = s.fabric := rfl
@[simp] theorem State.updDie_host (s : State) (d : Nat) (h : Die → Die) : (s.updDie d h).host = s.host := rfl
@[simp] theorem State.updDie_ctxs (s : State) (d : Nat) (h : Die → Die) : (s.updDie d h).ctxs = s.ctxs := rfl
@[simp] theorem State.updDie_cores (s : State) (d : Nat) (h : Die → Die) : (s.updDie d h).cores = s.cores := rfl
@[simp] theorem State.updDie_teams (s : State) (d : Nat) (h : Die → Die) : (s.updDie d h).teams = s.teams := rfl
@[simp] theorem State.updDie_clusters (s : State) (d : Nat) (h : Die → Die) : (s.updDie d h).clusters = s.clusters := rfl
@[simp] theorem State.updDie_groups (s : State) (d : Nat) (h : Die → Die) : (s.updDie d h).groups = s.groups := rfl
@[simp] theorem State.updDie_barriers (s : State) (d : Nat) (h : Die → Die) : (s.updDie d h).barriers = s.barriers := rfl
@[simp] theorem State.updDie_access (s : State) (d : Nat) (h : Die → Die) : (s.updDie d h).access = s.access := rfl
@[simp] theorem State.updDie_domains (s : State) (d : Nat) (h : Die → Die) : (s.updDie d h).domains = s.domains := rfl
@[simp] theorem State.updDie_tlb (s : State) (d : Nat) (h : Die → Die) : (s.updDie d h).tlb = s.tlb := rfl
@[simp] theorem State.updDie_mem (s : State) (d : Nat) (h : Die → Die) : (s.updDie d h).mem = s.mem := rfl
@[simp] theorem State.updDie_poison (s : State) (d : Nat) (h : Die → Die) : (s.updDie d h).poison = s.poison := rfl
@[simp] theorem State.putCtx_clk (s : State) (d c : Nat) (x : Ctx) : (s.putCtx d c x).clk = s.clk := rfl
@[simp] theorem State.putCtx_agenda (s : State) (d c : Nat) (x : Ctx) : (s.putCtx d c x).agenda = s.agenda := rfl
@[simp] theorem State.putCtx_subject (s : State) (d c : Nat) (x : Ctx) : (s.putCtx d c x).subject = s.subject := rfl
@[simp] theorem State.putCtx_issuer (s : State) (d c : Nat) (x : Ctx) : (s.putCtx d c x).issuer = s.issuer := rfl
@[simp] theorem State.putCtx_fresh (s : State) (d c : Nat) (x : Ctx) : (s.putCtx d c x).fresh = s.fresh := rfl
@[simp] theorem State.putCtx_freeCtr (s : State) (d c : Nat) (x : Ctx) : (s.putCtx d c x).freeCtr = s.freeCtr := rfl
@[simp] theorem State.putCtx_outbox (s : State) (d c : Nat) (x : Ctx) : (s.putCtx d c x).outbox = s.outbox := rfl
@[simp] theorem State.putCtx_boot (s : State) (d c : Nat) (x : Ctx) : (s.putCtx d c x).boot = s.boot := rfl
@[simp] theorem State.putCtx_fabric (s : State) (d c : Nat) (x : Ctx) : (s.putCtx d c x).fabric = s.fabric := rfl
@[simp] theorem State.putCtx_host (s : State) (d c : Nat) (x : Ctx) : (s.putCtx d c x).host = s.host := rfl
@[simp] theorem State.putCtx_dies (s : State) (d c : Nat) (x : Ctx) : (s.putCtx d c x).dies = s.dies := rfl
@[simp] theorem State.putCtx_cores (s : State) (d c : Nat) (x : Ctx) : (s.putCtx d c x).cores = s.cores := rfl
@[simp] theorem State.putCtx_teams (s : State) (d c : Nat) (x : Ctx) : (s.putCtx d c x).teams = s.teams := rfl
@[simp] theorem State.putCtx_clusters (s : State) (d c : Nat) (x : Ctx) : (s.putCtx d c x).clusters = s.clusters := rfl
@[simp] theorem State.putCtx_groups (s : State) (d c : Nat) (x : Ctx) : (s.putCtx d c x).groups = s.groups := rfl
@[simp] theorem State.putCtx_barriers (s : State) (d c : Nat) (x : Ctx) : (s.putCtx d c x).barriers = s.barriers := rfl
@[simp] theorem State.putCtx_access (s : State) (d c : Nat) (x : Ctx) : (s.putCtx d c x).access = s.access := rfl
@[simp] theorem State.putCtx_domains (s : State) (d c : Nat) (x : Ctx) : (s.putCtx d c x).domains = s.domains := rfl
@[simp] theorem State.putCtx_tlb (s : State) (d c : Nat) (x : Ctx) : (s.putCtx d c x).tlb = s.tlb := rfl
@[simp] theorem State.putCtx_mem (s : State) (d c : Nat) (x : Ctx) : (s.putCtx d c x).mem = s.mem := rfl
@[simp] theorem State.putCtx_poison (s : State) (d c : Nat) (x : Ctx) : (s.putCtx d c x).poison = s.poison := rfl
@[simp] theorem State.updCtx_clk (s : State) (d c : Nat) (h : Ctx → Ctx) : (s.updCtx d c h).clk = s.clk := rfl
@[simp] theorem State.updCtx_agenda (s : State) (d c : Nat) (h : Ctx → Ctx) : (s.updCtx d c h).agenda = s.agenda := rfl
@[simp] theorem State.updCtx_subject (s : State) (d c : Nat) (h : Ctx → Ctx) : (s.updCtx d c h).subject = s.subject := rfl
@[simp] theorem State.updCtx_issuer (s : State) (d c : Nat) (h : Ctx → Ctx) : (s.updCtx d c h).issuer = s.issuer := rfl
@[simp] theorem State.updCtx_fresh (s : State) (d c : Nat) (h : Ctx → Ctx) : (s.updCtx d c h).fresh = s.fresh := rfl
@[simp] theorem State.updCtx_freeCtr (s : State) (d c : Nat) (h : Ctx → Ctx) : (s.updCtx d c h).freeCtr = s.freeCtr := rfl
@[simp] theorem State.updCtx_outbox (s : State) (d c : Nat) (h : Ctx → Ctx) : (s.updCtx d c h).outbox = s.outbox := rfl
@[simp] theorem State.updCtx_boot (s : State) (d c : Nat) (h : Ctx → Ctx) : (s.updCtx d c h).boot = s.boot := rfl
@[simp] theorem State.updCtx_fabric (s : State) (d c : Nat) (h : Ctx → Ctx) : (s.updCtx d c h).fabric = s.fabric := rfl
@[simp] theorem State.updCtx_host (s : State) (d c : Nat) (h : Ctx → Ctx) : (s.updCtx d c h).host = s.host := rfl
@[simp] theorem State.updCtx_dies (s : State) (d c : Nat) (h : Ctx → Ctx) : (s.updCtx d c h).dies = s.dies := rfl
@[simp] theorem State.updCtx_cores (s : State) (d c : Nat) (h : Ctx → Ctx) : (s.updCtx d c h).cores = s.cores := rfl
@[simp] theorem State.updCtx_teams (s : State) (d c : Nat) (h : Ctx → Ctx) : (s.updCtx d c h).teams = s.teams := rfl
@[simp] theorem State.updCtx_clusters (s : State) (d c : Nat) (h : Ctx → Ctx) : (s.updCtx d c h).clusters = s.clusters := rfl
@[simp] theorem State.updCtx_groups (s : State) (d c : Nat) (h : Ctx → Ctx) : (s.updCtx d c h).groups = s.groups := rfl
@[simp] theorem State.updCtx_barriers (s : State) (d c : Nat) (h : Ctx → Ctx) : (s.updCtx d c h).barriers = s.barriers := rfl
@[simp] theorem State.updCtx_access (s : State) (d c : Nat) (h : Ctx → Ctx) : (s.updCtx d c h).access = s.access := rfl
@[simp] theorem State.updCtx_domains (s : State) (d c : Nat) (h : Ctx → Ctx) : (s.updCtx d c h).domains = s.domains := rfl
@[simp] theorem State.updCtx_tlb (s : State) (d c : Nat) (h : Ctx → Ctx) : (s.updCtx d c h).tlb = s.tlb := rfl
@[simp] theorem State.updCtx_mem (s : State) (d c : Nat) (h : Ctx → Ctx) : (s.updCtx d c h).mem = s.mem := rfl
@[simp] theorem State.updCtx_poison (s : State) (d c : Nat) (h : Ctx → Ctx) : (s.updCtx d c h).poison = s.poison := rfl
@[simp] theorem State.putTeam_clk (s : State) (t : Nat) (x : Team) : (s.putTeam t x).clk = s.clk := rfl
@[simp] theorem State.putTeam_agenda (s : State) (t : Nat) (x : Team) : (s.putTeam t x).agenda = s.agenda := rfl
@[simp] theorem State.putTeam_subject (s : State) (t : Nat) (x : Team) : (s.putTeam t x).subject = s.subject := rfl
@[simp] theorem State.putTeam_issuer (s : State) (t : Nat) (x : Team) : (s.putTeam t x).issuer = s.issuer := rfl
@[simp] theorem State.putTeam_fresh (s : State) (t : Nat) (x : Team) : (s.putTeam t x).fresh = s.fresh := rfl
@[simp] theorem State.putTeam_freeCtr (s : State) (t : Nat) (x : Team) : (s.putTeam t x).freeCtr = s.freeCtr := rfl
@[simp] theorem State.putTeam_outbox (s : State) (t : Nat) (x : Team) : (s.putTeam t x).outbox = s.outbox := rfl
@[simp] theorem State.putTeam_boot (s : State) (t : Nat) (x : Team) : (s.putTeam t x).boot = s.boot := rfl
@[simp] theorem State.putTeam_fabric (s : State) (t : Nat) (x : Team) : (s.putTeam t x).fabric = s.fabric := rfl
@[simp] theorem State.putTeam_host (s : State) (t : Nat) (x : Team) : (s.putTeam t x).host = s.host := rfl
@[simp] theorem State.putTeam_ctxs (s : State) (t : Nat) (x : Team) : (s.putTeam t x).ctxs = s.ctxs := rfl
@[simp] theorem State.putTeam_dies (s : State) (t : Nat) (x : Team) : (s.putTeam t x).dies = s.dies := rfl
@[simp] theorem State.putTeam_cores (s : State) (t : Nat) (x : Team) : (s.putTeam t x).cores = s.cores := rfl
@[simp] theorem State.putTeam_clusters (s : State) (t : Nat) (x : Team) : (s.putTeam t x).clusters = s.clusters := rfl
@[simp] theorem State.putTeam_groups (s : State) (t : Nat) (x : Team) : (s.putTeam t x).groups = s.groups := rfl
@[simp] theorem State.putTeam_barriers (s : State) (t : Nat) (x : Team) : (s.putTeam t x).barriers = s.barriers := rfl
@[simp] theorem State.putTeam_access (s : State) (t : Nat) (x : Team) : (s.putTeam t x).access = s.access := rfl
@[simp] theorem State.putTeam_domains (s : State) (t : Nat) (x : Team) : (s.putTeam t x).domains = s.domains := rfl
@[simp] theorem State.putTeam_tlb (s : State) (t : Nat) (x : Team) : (s.putTeam t x).tlb = s.tlb := rfl
@[simp] theorem State.putTeam_mem (s : State) (t : Nat) (x : Team) : (s.putTeam t x).mem = s.mem := rfl
@[simp] theorem State.putTeam_poison (s : State) (t : Nat) (x : Team) : (s.putTeam t x).poison = s.poison := rfl
@[simp] theorem State.putPen_clk (s : State) (p : PenKey) (x : Pen) : (s.putPen p x).clk = s.clk := rfl
@[simp] theorem State.putPen_agenda (s : State) (p : PenKey) (x : Pen) : (s.putPen p x).agenda = s.agenda := rfl
@[simp] theorem State.putPen_subject (s : State) (p : PenKey) (x : Pen) : (s.putPen p x).subject = s.subject := rfl
@[simp] theorem State.putPen_issuer (s : State) (p : PenKey) (x : Pen) : (s.putPen p x).issuer = s.issuer := rfl
@[simp] theorem State.putPen_fresh (s : State) (p : PenKey) (x : Pen) : (s.putPen p x).fresh = s.fresh := rfl
@[simp] theorem State.putPen_freeCtr (s : State) (p : PenKey) (x : Pen) : (s.putPen p x).freeCtr = s.freeCtr := rfl
@[simp] theorem State.putPen_outbox (s : State) (p : PenKey) (x : Pen) : (s.putPen p x).outbox = s.outbox := rfl
@[simp] theorem State.putPen_boot (s : State) (p : PenKey) (x : Pen) : (s.putPen p x).boot = s.boot := rfl
@[simp] theorem State.putPen_fabric (s : State) (p : PenKey) (x : Pen) : (s.putPen p x).fabric = s.fabric := rfl
@[simp] theorem State.putPen_host (s : State) (p : PenKey) (x : Pen) : (s.putPen p x).host = s.host := rfl
@[simp] theorem State.putPen_ctxs (s : State) (p : PenKey) (x : Pen) : (s.putPen p x).ctxs = s.ctxs := rfl
@[simp] theorem State.putPen_dies (s : State) (p : PenKey) (x : Pen) : (s.putPen p x).dies = s.dies := rfl
@[simp] theorem State.putPen_teams (s : State) (p : PenKey) (x : Pen) : (s.putPen p x).teams = s.teams := rfl
@[simp] theorem State.putPen_clusters (s : State) (p : PenKey) (x : Pen) : (s.putPen p x).clusters = s.clusters := rfl
@[simp] theorem State.putPen_groups (s : State) (p : PenKey) (x : Pen) : (s.putPen p x).groups = s.groups := rfl
@[simp] theorem State.putPen_barriers (s : State) (p : PenKey) (x : Pen) : (s.putPen p x).barriers = s.barriers := rfl
@[simp] theorem State.putPen_access (s : State) (p : PenKey) (x : Pen) : (s.putPen p x).access = s.access := rfl
@[simp] theorem State.putPen_domains (s : State) (p : PenKey) (x : Pen) : (s.putPen p x).domains = s.domains := rfl
@[simp] theorem State.putPen_tlb (s : State) (p : PenKey) (x : Pen) : (s.putPen p x).tlb = s.tlb := rfl
@[simp] theorem State.putPen_mem (s : State) (p : PenKey) (x : Pen) : (s.putPen p x).mem = s.mem := rfl
@[simp] theorem State.putPen_poison (s : State) (p : PenKey) (x : Pen) : (s.putPen p x).poison = s.poison := rfl
@[simp] theorem State.putBarrier_clk (s : State) (b : BarKey) (x : Barrier) : (s.putBarrier b x).clk = s.clk := rfl
@[simp] theorem State.putBarrier_agenda (s : State) (b : BarKey) (x : Barrier) : (s.putBarrier b x).agenda = s.agenda := rfl
@[simp] theorem State.putBarrier_subject (s : State) (b : BarKey) (x : Barrier) : (s.putBarrier b x).subject = s.subject := rfl
@[simp] theorem State.putBarrier_issuer (s : State) (b : BarKey) (x : Barrier) : (s.putBarrier b x).issuer = s.issuer := rfl
@[simp] theorem State.putBarrier_fresh (s : State) (b : BarKey) (x : Barrier) : (s.putBarrier b x).fresh = s.fresh := rfl
@[simp] theorem State.putBarrier_freeCtr (s : State) (b : BarKey) (x : Barrier) : (s.putBarrier b x).freeCtr = s.freeCtr := rfl
@[simp] theorem State.putBarrier_outbox (s : State) (b : BarKey) (x : Barrier) : (s.putBarrier b x).outbox = s.outbox := rfl
@[simp] theorem State.putBarrier_boot (s : State) (b : BarKey) (x : Barrier) : (s.putBarrier b x).boot = s.boot := rfl
@[simp] theorem State.putBarrier_fabric (s : State) (b : BarKey) (x : Barrier) : (s.putBarrier b x).fabric = s.fabric := rfl
@[simp] theorem State.putBarrier_host (s : State) (b : BarKey) (x : Barrier) : (s.putBarrier b x).host = s.host := rfl
@[simp] theorem State.putBarrier_ctxs (s : State) (b : BarKey) (x : Barrier) : (s.putBarrier b x).ctxs = s.ctxs := rfl
@[simp] theorem State.putBarrier_dies (s : State) (b : BarKey) (x : Barrier) : (s.putBarrier b x).dies = s.dies := rfl
@[simp] theorem State.putBarrier_cores (s : State) (b : BarKey) (x : Barrier) : (s.putBarrier b x).cores = s.cores := rfl
@[simp] theorem State.putBarrier_teams (s : State) (b : BarKey) (x : Barrier) : (s.putBarrier b x).teams = s.teams := rfl
@[simp] theorem State.putBarrier_clusters (s : State) (b : BarKey) (x : Barrier) : (s.putBarrier b x).clusters = s.clusters := rfl
@[simp] theorem State.putBarrier_groups (s : State) (b : BarKey) (x : Barrier) : (s.putBarrier b x).groups = s.groups := rfl
@[simp] theorem State.putBarrier_access (s : State) (b : BarKey) (x : Barrier) : (s.putBarrier b x).access = s.access := rfl
@[simp] theorem State.putBarrier_domains (s : State) (b : BarKey) (x : Barrier) : (s.putBarrier b x).domains = s.domains := rfl
@[simp] theorem State.putBarrier_tlb (s : State) (b : BarKey) (x : Barrier) : (s.putBarrier b x).tlb = s.tlb := rfl
@[simp] theorem State.putBarrier_mem (s : State) (b : BarKey) (x : Barrier) : (s.putBarrier b x).mem = s.mem := rfl
@[simp] theorem State.putBarrier_poison (s : State) (b : BarKey) (x : Barrier) : (s.putBarrier b x).poison = s.poison := rfl
@[simp] theorem State.post_clk (s : State) (due : Nat) (e : Event) : (s.post due e).clk = s.clk := rfl
@[simp] theorem State.post_subject (s : State) (due : Nat) (e : Event) : (s.post due e).subject = s.subject := rfl
@[simp] theorem State.post_issuer (s : State) (due : Nat) (e : Event) : (s.post due e).issuer = s.issuer := rfl
@[simp] theorem State.post_fresh (s : State) (due : Nat) (e : Event) : (s.post due e).fresh = s.fresh := rfl
@[simp] theorem State.post_freeCtr (s : State) (due : Nat) (e : Event) : (s.post due e).freeCtr = s.freeCtr := rfl
@[simp] theorem State.post_outbox (s : State) (due : Nat) (e : Event) : (s.post due e).outbox = s.outbox := rfl
@[simp] theorem State.post_boot (s : State) (due : Nat) (e : Event) : (s.post due e).boot = s.boot := rfl
@[simp] theorem State.post_fabric (s : State) (due : Nat) (e : Event) : (s.post due e).fabric = s.fabric := rfl
@[simp] theorem State.post_host (s : State) (due : Nat) (e : Event) : (s.post due e).host = s.host := rfl
@[simp] theorem State.post_ctxs (s : State) (due : Nat) (e : Event) : (s.post due e).ctxs = s.ctxs := rfl
@[simp] theorem State.post_dies (s : State) (due : Nat) (e : Event) : (s.post due e).dies = s.dies := rfl
@[simp] theorem State.post_cores (s : State) (due : Nat) (e : Event) : (s.post due e).cores = s.cores := rfl
@[simp] theorem State.post_teams (s : State) (due : Nat) (e : Event) : (s.post due e).teams = s.teams := rfl
@[simp] theorem State.post_clusters (s : State) (due : Nat) (e : Event) : (s.post due e).clusters = s.clusters := rfl
@[simp] theorem State.post_groups (s : State) (due : Nat) (e : Event) : (s.post due e).groups = s.groups := rfl
@[simp] theorem State.post_barriers (s : State) (due : Nat) (e : Event) : (s.post due e).barriers = s.barriers := rfl
@[simp] theorem State.post_access (s : State) (due : Nat) (e : Event) : (s.post due e).access = s.access := rfl
@[simp] theorem State.post_domains (s : State) (due : Nat) (e : Event) : (s.post due e).domains = s.domains := rfl
@[simp] theorem State.post_tlb (s : State) (due : Nat) (e : Event) : (s.post due e).tlb = s.tlb := rfl
@[simp] theorem State.post_mem (s : State) (due : Nat) (e : Event) : (s.post due e).mem = s.mem := rfl
@[simp] theorem State.post_poison (s : State) (due : Nat) (e : Event) : (s.post due e).poison = s.poison := rfl
@[simp] theorem State.after_clk (s : State) (base : Nat) (e : Event) : (s.after base e).clk = s.clk := rfl
@[simp] theorem State.after_subject (s : State) (base : Nat) (e : Event) : (s.after base e).subject = s.subject := rfl
@[simp] theorem State.after_issuer (s : State) (base : Nat) (e : Event) : (s.after base e).issuer = s.issuer := rfl
@[simp] theorem State.after_fresh (s : State) (base : Nat) (e : Event) : (s.after base e).fresh = s.fresh := rfl
@[simp] theorem State.after_outbox (s : State) (base : Nat) (e : Event) : (s.after base e).outbox = s.outbox := rfl
@[simp] theorem State.after_boot (s : State) (base : Nat) (e : Event) : (s.after base e).boot = s.boot := rfl
@[simp] theorem State.after_fabric (s : State) (base : Nat) (e : Event) : (s.after base e).fabric = s.fabric := rfl
@[simp] theorem State.after_host (s : State) (base : Nat) (e : Event) : (s.after base e).host = s.host := rfl
@[simp] theorem State.after_ctxs (s : State) (base : Nat) (e : Event) : (s.after base e).ctxs = s.ctxs := rfl
@[simp] theorem State.after_dies (s : State) (base : Nat) (e : Event) : (s.after base e).dies = s.dies := rfl
@[simp] theorem State.after_cores (s : State) (base : Nat) (e : Event) : (s.after base e).cores = s.cores := rfl
@[simp] theorem State.after_teams (s : State) (base : Nat) (e : Event) : (s.after base e).teams = s.teams := rfl
@[simp] theorem State.after_clusters (s : State) (base : Nat) (e : Event) : (s.after base e).clusters = s.clusters := rfl
@[simp] theorem State.after_groups (s : State) (base : Nat) (e : Event) : (s.after base e).groups = s.groups := rfl
@[simp] theorem State.after_barriers (s : State) (base : Nat) (e : Event) : (s.after base e).barriers = s.barriers := rfl
@[simp] theorem State.after_access (s : State) (base : Nat) (e : Event) : (s.after base e).access = s.access := rfl
@[simp] theorem State.after_domains (s : State) (base : Nat) (e : Event) : (s.after base e).domains = s.domains := rfl
@[simp] theorem State.after_tlb (s : State) (base : Nat) (e : Event) : (s.after base e).tlb = s.tlb := rfl
@[simp] theorem State.after_mem (s : State) (base : Nat) (e : Event) : (s.after base e).mem = s.mem := rfl
@[simp] theorem State.after_poison (s : State) (base : Nat) (e : Event) : (s.after base e).poison = s.poison := rfl
@[simp] theorem State.send_clk (s : State) (m : Message) : (s.send m).clk = s.clk := rfl
@[simp] theorem State.send_agenda (s : State) (m : Message) : (s.send m).agenda = s.agenda := rfl
@[simp] theorem State.send_subject (s : State) (m : Message) : (s.send m).subject = s.subject := rfl
@[simp] theorem State.send_issuer (s : State) (m : Message) : (s.send m).issuer = s.issuer := rfl
@[simp] theorem State.send_fresh (s : State) (m : Message) : (s.send m).fresh = s.fresh := rfl
@[simp] theorem State.send_freeCtr (s : State) (m : Message) : (s.send m).freeCtr = s.freeCtr := rfl
@[simp] theorem State.send_boot (s : State) (m : Message) : (s.send m).boot = s.boot := rfl
@[simp] theorem State.send_fabric (s : State) (m : Message) : (s.send m).fabric = s.fabric := rfl
@[simp] theorem State.send_host (s : State) (m : Message) : (s.send m).host = s.host := rfl
@[simp] theorem State.send_ctxs (s : State) (m : Message) : (s.send m).ctxs = s.ctxs := rfl
@[simp] theorem State.send_dies (s : State) (m : Message) : (s.send m).dies = s.dies := rfl
@[simp] theorem State.send_cores (s : State) (m : Message) : (s.send m).cores = s.cores := rfl
@[simp] theorem State.send_teams (s : State) (m : Message) : (s.send m).teams = s.teams := rfl
@[simp] theorem State.send_clusters (s : State) (m : Message) : (s.send m).clusters = s.clusters := rfl
@[simp] theorem State.send_groups (s : State) (m : Message) : (s.send m).groups = s.groups := rfl
@[simp] theorem State.send_barriers (s : State) (m : Message) : (s.send m).barriers = s.barriers := rfl
@[simp] theorem State.send_access (s : State) (m : Message) : (s.send m).access = s.access := rfl
@[simp] theorem State.send_domains (s : State) (m : Message) : (s.send m).domains = s.domains := rfl
@[simp] theorem State.send_tlb (s : State) (m : Message) : (s.send m).tlb = s.tlb := rfl
@[simp] theorem State.send_mem (s : State) (m : Message) : (s.send m).mem = s.mem := rfl
@[simp] theorem State.send_poison (s : State) (m : Message) : (s.send m).poison = s.poison := rfl
@[simp] theorem State.busy_clk (s : State) (k : GKey) (n : Nat) : (s.busy k n).clk = s.clk := rfl
@[simp] theorem State.busy_agenda (s : State) (k : GKey) (n : Nat) : (s.busy k n).agenda = s.agenda := rfl
@[simp] theorem State.busy_subject (s : State) (k : GKey) (n : Nat) : (s.busy k n).subject = s.subject := rfl
@[simp] theorem State.busy_issuer (s : State) (k : GKey) (n : Nat) : (s.busy k n).issuer = s.issuer := rfl
@[simp] theorem State.busy_fresh (s : State) (k : GKey) (n : Nat) : (s.busy k n).fresh = s.fresh := rfl
@[simp] theorem State.busy_freeCtr (s : State) (k : GKey) (n : Nat) : (s.busy k n).freeCtr = s.freeCtr := rfl
@[simp] theorem State.busy_outbox (s : State) (k : GKey) (n : Nat) : (s.busy k n).outbox = s.outbox := rfl
@[simp] theorem State.busy_boot (s : State) (k : GKey) (n : Nat) : (s.busy k n).boot = s.boot := rfl
@[simp] theorem State.busy_fabric (s : State) (k : GKey) (n : Nat) : (s.busy k n).fabric = s.fabric := rfl
@[simp] theorem State.busy_host (s : State) (k : GKey) (n : Nat) : (s.busy k n).host = s.host := rfl
@[simp] theorem State.busy_ctxs (s : State) (k : GKey) (n : Nat) : (s.busy k n).ctxs = s.ctxs := rfl
@[simp] theorem State.busy_dies (s : State) (k : GKey) (n : Nat) : (s.busy k n).dies = s.dies := rfl
@[simp] theorem State.busy_teams (s : State) (k : GKey) (n : Nat) : (s.busy k n).teams = s.teams := rfl
@[simp] theorem State.busy_clusters (s : State) (k : GKey) (n : Nat) : (s.busy k n).clusters = s.clusters := rfl
@[simp] theorem State.busy_groups (s : State) (k : GKey) (n : Nat) : (s.busy k n).groups = s.groups := rfl
@[simp] theorem State.busy_barriers (s : State) (k : GKey) (n : Nat) : (s.busy k n).barriers = s.barriers := rfl
@[simp] theorem State.busy_access (s : State) (k : GKey) (n : Nat) : (s.busy k n).access = s.access := rfl
@[simp] theorem State.busy_domains (s : State) (k : GKey) (n : Nat) : (s.busy k n).domains = s.domains := rfl
@[simp] theorem State.busy_tlb (s : State) (k : GKey) (n : Nat) : (s.busy k n).tlb = s.tlb := rfl
@[simp] theorem State.busy_mem (s : State) (k : GKey) (n : Nat) : (s.busy k n).mem = s.mem := rfl
@[simp] theorem State.busy_poison (s : State) (k : GKey) (n : Nat) : (s.busy k n).poison = s.poison := rfl
@[simp] theorem State.writeByte_clk (s : State) (p : Place) (b : Byte) : (s.writeByte p b).clk = s.clk := rfl
@[simp] theorem State.writeByte_agenda (s : State) (p : Place) (b : Byte) : (s.writeByte p b).agenda = s.agenda := rfl
@[simp] theorem State.writeByte_subject (s : State) (p : Place) (b : Byte) : (s.writeByte p b).subject = s.subject := rfl
@[simp] theorem State.writeByte_issuer (s : State) (p : Place) (b : Byte) : (s.writeByte p b).issuer = s.issuer := rfl
@[simp] theorem State.writeByte_fresh (s : State) (p : Place) (b : Byte) : (s.writeByte p b).fresh = s.fresh := rfl
@[simp] theorem State.writeByte_freeCtr (s : State) (p : Place) (b : Byte) : (s.writeByte p b).freeCtr = s.freeCtr := rfl
@[simp] theorem State.writeByte_outbox (s : State) (p : Place) (b : Byte) : (s.writeByte p b).outbox = s.outbox := rfl
@[simp] theorem State.writeByte_boot (s : State) (p : Place) (b : Byte) : (s.writeByte p b).boot = s.boot := rfl
@[simp] theorem State.writeByte_fabric (s : State) (p : Place) (b : Byte) : (s.writeByte p b).fabric = s.fabric := rfl
@[simp] theorem State.writeByte_host (s : State) (p : Place) (b : Byte) : (s.writeByte p b).host = s.host := rfl
@[simp] theorem State.writeByte_ctxs (s : State) (p : Place) (b : Byte) : (s.writeByte p b).ctxs = s.ctxs := rfl
@[simp] theorem State.writeByte_dies (s : State) (p : Place) (b : Byte) : (s.writeByte p b).dies = s.dies := rfl
@[simp] theorem State.writeByte_cores (s : State) (p : Place) (b : Byte) : (s.writeByte p b).cores = s.cores := rfl
@[simp] theorem State.writeByte_teams (s : State) (p : Place) (b : Byte) : (s.writeByte p b).teams = s.teams := rfl
@[simp] theorem State.writeByte_clusters (s : State) (p : Place) (b : Byte) : (s.writeByte p b).clusters = s.clusters := rfl
@[simp] theorem State.writeByte_groups (s : State) (p : Place) (b : Byte) : (s.writeByte p b).groups = s.groups := rfl
@[simp] theorem State.writeByte_barriers (s : State) (p : Place) (b : Byte) : (s.writeByte p b).barriers = s.barriers := rfl
@[simp] theorem State.writeByte_access (s : State) (p : Place) (b : Byte) : (s.writeByte p b).access = s.access := rfl
@[simp] theorem State.writeByte_domains (s : State) (p : Place) (b : Byte) : (s.writeByte p b).domains = s.domains := rfl
@[simp] theorem State.writeByte_tlb (s : State) (p : Place) (b : Byte) : (s.writeByte p b).tlb = s.tlb := rfl
@[simp] theorem State.writeByte_poison (s : State) (p : Place) (b : Byte) : (s.writeByte p b).poison = s.poison := rfl
@[simp] theorem State.advance_clk (s : State) (k : GKey) (g : Group) (c : Clause) (n : Nat) (nib : Option Lanes) : (s.advance k g c n nib).clk = s.clk := rfl
@[simp] theorem State.advance_agenda (s : State) (k : GKey) (g : Group) (c : Clause) (n : Nat) (nib : Option Lanes) : (s.advance k g c n nib).agenda = s.agenda := rfl
@[simp] theorem State.advance_subject (s : State) (k : GKey) (g : Group) (c : Clause) (n : Nat) (nib : Option Lanes) : (s.advance k g c n nib).subject = s.subject := rfl
@[simp] theorem State.advance_issuer (s : State) (k : GKey) (g : Group) (c : Clause) (n : Nat) (nib : Option Lanes) : (s.advance k g c n nib).issuer = s.issuer := rfl
@[simp] theorem State.advance_fresh (s : State) (k : GKey) (g : Group) (c : Clause) (n : Nat) (nib : Option Lanes) : (s.advance k g c n nib).fresh = s.fresh := rfl
@[simp] theorem State.advance_freeCtr (s : State) (k : GKey) (g : Group) (c : Clause) (n : Nat) (nib : Option Lanes) : (s.advance k g c n nib).freeCtr = s.freeCtr := rfl
@[simp] theorem State.advance_outbox (s : State) (k : GKey) (g : Group) (c : Clause) (n : Nat) (nib : Option Lanes) : (s.advance k g c n nib).outbox = s.outbox := rfl
@[simp] theorem State.advance_boot (s : State) (k : GKey) (g : Group) (c : Clause) (n : Nat) (nib : Option Lanes) : (s.advance k g c n nib).boot = s.boot := rfl
@[simp] theorem State.advance_fabric (s : State) (k : GKey) (g : Group) (c : Clause) (n : Nat) (nib : Option Lanes) : (s.advance k g c n nib).fabric = s.fabric := rfl
@[simp] theorem State.advance_host (s : State) (k : GKey) (g : Group) (c : Clause) (n : Nat) (nib : Option Lanes) : (s.advance k g c n nib).host = s.host := rfl
@[simp] theorem State.advance_ctxs (s : State) (k : GKey) (g : Group) (c : Clause) (n : Nat) (nib : Option Lanes) : (s.advance k g c n nib).ctxs = s.ctxs := rfl
@[simp] theorem State.advance_dies (s : State) (k : GKey) (g : Group) (c : Clause) (n : Nat) (nib : Option Lanes) : (s.advance k g c n nib).dies = s.dies := rfl
@[simp] theorem State.advance_teams (s : State) (k : GKey) (g : Group) (c : Clause) (n : Nat) (nib : Option Lanes) : (s.advance k g c n nib).teams = s.teams := rfl
@[simp] theorem State.advance_clusters (s : State) (k : GKey) (g : Group) (c : Clause) (n : Nat) (nib : Option Lanes) : (s.advance k g c n nib).clusters = s.clusters := rfl
@[simp] theorem State.advance_barriers (s : State) (k : GKey) (g : Group) (c : Clause) (n : Nat) (nib : Option Lanes) : (s.advance k g c n nib).barriers = s.barriers := rfl
@[simp] theorem State.advance_access (s : State) (k : GKey) (g : Group) (c : Clause) (n : Nat) (nib : Option Lanes) : (s.advance k g c n nib).access = s.access := rfl
@[simp] theorem State.advance_domains (s : State) (k : GKey) (g : Group) (c : Clause) (n : Nat) (nib : Option Lanes) : (s.advance k g c n nib).domains = s.domains := rfl
@[simp] theorem State.advance_tlb (s : State) (k : GKey) (g : Group) (c : Clause) (n : Nat) (nib : Option Lanes) : (s.advance k g c n nib).tlb = s.tlb := rfl
@[simp] theorem State.advance_mem (s : State) (k : GKey) (g : Group) (c : Clause) (n : Nat) (nib : Option Lanes) : (s.advance k g c n nib).mem = s.mem := rfl
@[simp] theorem State.advance_poison (s : State) (k : GKey) (g : Group) (c : Clause) (n : Nat) (nib : Option Lanes) : (s.advance k g c n nib).poison = s.poison := rfl
@[simp] theorem State.hold_clk (s : State) (k : GKey) (g : Group) : (s.hold k g).clk = s.clk := rfl
@[simp] theorem State.hold_agenda (s : State) (k : GKey) (g : Group) : (s.hold k g).agenda = s.agenda := rfl
@[simp] theorem State.hold_subject (s : State) (k : GKey) (g : Group) : (s.hold k g).subject = s.subject := rfl
@[simp] theorem State.hold_issuer (s : State) (k : GKey) (g : Group) : (s.hold k g).issuer = s.issuer := rfl
@[simp] theorem State.hold_fresh (s : State) (k : GKey) (g : Group) : (s.hold k g).fresh = s.fresh := rfl
@[simp] theorem State.hold_freeCtr (s : State) (k : GKey) (g : Group) : (s.hold k g).freeCtr = s.freeCtr := rfl
@[simp] theorem State.hold_outbox (s : State) (k : GKey) (g : Group) : (s.hold k g).outbox = s.outbox := rfl
@[simp] theorem State.hold_boot (s : State) (k : GKey) (g : Group) : (s.hold k g).boot = s.boot := rfl
@[simp] theorem State.hold_fabric (s : State) (k : GKey) (g : Group) : (s.hold k g).fabric = s.fabric := rfl
@[simp] theorem State.hold_host (s : State) (k : GKey) (g : Group) : (s.hold k g).host = s.host := rfl
@[simp] theorem State.hold_ctxs (s : State) (k : GKey) (g : Group) : (s.hold k g).ctxs = s.ctxs := rfl
@[simp] theorem State.hold_dies (s : State) (k : GKey) (g : Group) : (s.hold k g).dies = s.dies := rfl
@[simp] theorem State.hold_teams (s : State) (k : GKey) (g : Group) : (s.hold k g).teams = s.teams := rfl
@[simp] theorem State.hold_clusters (s : State) (k : GKey) (g : Group) : (s.hold k g).clusters = s.clusters := rfl
@[simp] theorem State.hold_barriers (s : State) (k : GKey) (g : Group) : (s.hold k g).barriers = s.barriers := rfl
@[simp] theorem State.hold_access (s : State) (k : GKey) (g : Group) : (s.hold k g).access = s.access := rfl
@[simp] theorem State.hold_domains (s : State) (k : GKey) (g : Group) : (s.hold k g).domains = s.domains := rfl
@[simp] theorem State.hold_tlb (s : State) (k : GKey) (g : Group) : (s.hold k g).tlb = s.tlb := rfl
@[simp] theorem State.hold_mem (s : State) (k : GKey) (g : Group) : (s.hold k g).mem = s.mem := rfl
@[simp] theorem State.hold_poison (s : State) (k : GKey) (g : Group) : (s.hold k g).poison = s.poison := rfl
@[simp] theorem State.jump_clk (s : State) (k : GKey) (g : Group) (p : BitVec 48) (n : Nat) : (s.jump k g p n).clk = s.clk := rfl
@[simp] theorem State.jump_agenda (s : State) (k : GKey) (g : Group) (p : BitVec 48) (n : Nat) : (s.jump k g p n).agenda = s.agenda := rfl
@[simp] theorem State.jump_subject (s : State) (k : GKey) (g : Group) (p : BitVec 48) (n : Nat) : (s.jump k g p n).subject = s.subject := rfl
@[simp] theorem State.jump_issuer (s : State) (k : GKey) (g : Group) (p : BitVec 48) (n : Nat) : (s.jump k g p n).issuer = s.issuer := rfl
@[simp] theorem State.jump_fresh (s : State) (k : GKey) (g : Group) (p : BitVec 48) (n : Nat) : (s.jump k g p n).fresh = s.fresh := rfl
@[simp] theorem State.jump_freeCtr (s : State) (k : GKey) (g : Group) (p : BitVec 48) (n : Nat) : (s.jump k g p n).freeCtr = s.freeCtr := rfl
@[simp] theorem State.jump_outbox (s : State) (k : GKey) (g : Group) (p : BitVec 48) (n : Nat) : (s.jump k g p n).outbox = s.outbox := rfl
@[simp] theorem State.jump_boot (s : State) (k : GKey) (g : Group) (p : BitVec 48) (n : Nat) : (s.jump k g p n).boot = s.boot := rfl
@[simp] theorem State.jump_fabric (s : State) (k : GKey) (g : Group) (p : BitVec 48) (n : Nat) : (s.jump k g p n).fabric = s.fabric := rfl
@[simp] theorem State.jump_host (s : State) (k : GKey) (g : Group) (p : BitVec 48) (n : Nat) : (s.jump k g p n).host = s.host := rfl
@[simp] theorem State.jump_ctxs (s : State) (k : GKey) (g : Group) (p : BitVec 48) (n : Nat) : (s.jump k g p n).ctxs = s.ctxs := rfl
@[simp] theorem State.jump_dies (s : State) (k : GKey) (g : Group) (p : BitVec 48) (n : Nat) : (s.jump k g p n).dies = s.dies := rfl
@[simp] theorem State.jump_teams (s : State) (k : GKey) (g : Group) (p : BitVec 48) (n : Nat) : (s.jump k g p n).teams = s.teams := rfl
@[simp] theorem State.jump_clusters (s : State) (k : GKey) (g : Group) (p : BitVec 48) (n : Nat) : (s.jump k g p n).clusters = s.clusters := rfl
@[simp] theorem State.jump_barriers (s : State) (k : GKey) (g : Group) (p : BitVec 48) (n : Nat) : (s.jump k g p n).barriers = s.barriers := rfl
@[simp] theorem State.jump_access (s : State) (k : GKey) (g : Group) (p : BitVec 48) (n : Nat) : (s.jump k g p n).access = s.access := rfl
@[simp] theorem State.jump_domains (s : State) (k : GKey) (g : Group) (p : BitVec 48) (n : Nat) : (s.jump k g p n).domains = s.domains := rfl
@[simp] theorem State.jump_tlb (s : State) (k : GKey) (g : Group) (p : BitVec 48) (n : Nat) : (s.jump k g p n).tlb = s.tlb := rfl
@[simp] theorem State.jump_mem (s : State) (k : GKey) (g : Group) (p : BitVec 48) (n : Nat) : (s.jump k g p n).mem = s.mem := rfl
@[simp] theorem State.jump_poison (s : State) (k : GKey) (g : Group) (p : BitVec 48) (n : Nat) : (s.jump k g p n).poison = s.poison := rfl

end Sys2Proof.Machine
end

