-- ==== Sys2Proof/Laws/Memory.lean ====
section
/-! SUPPORT. The laws of tables and of memory: a read after a write, a write leaves every other place, and every write keeps
the canonical form. -/

namespace Sys2Proof.Machine

/-! ## Tables -/

@[simp] theorem Tbl.find_put_self {α : Type} (t : Tbl α) (k : Nat) (v : α) : (Tbl.put t k v).find k = some v := by
  induction t with
  | nil => simp [Tbl.put, Tbl.find]
  | cons e r ih =>
    obtain ⟨j, w⟩ := e
    unfold Tbl.put
    split
    · simp [Tbl.find]
    · split
      · simp [Tbl.find]
      · simp [Tbl.find, ih]; omega

theorem Tbl.find_put_ne {α : Type} (t : Tbl α) {k n : Nat} (v : α) (h : n ≠ k) : (Tbl.put t k v).find n = t.find n := by
  induction t with
  | nil => simp [Tbl.put, Tbl.find, h.symm]
  | cons e r ih =>
    obtain ⟨j, w⟩ := e
    unfold Tbl.put
    split
    · simp [Tbl.find, h.symm]
    · split
      · subst_vars; simp [Tbl.find, h.symm]
      · simp [Tbl.find, ih]

@[simp] theorem Tbl.get_put_self {α : Type} (t : Tbl α) (d : α) (k : Nat) (v : α) : (Tbl.put t k v).get d k = v := by simp [Tbl.get]

theorem Tbl.get_put_ne {α : Type} (t : Tbl α) (d : α) {k n : Nat} (v : α) (h : n ≠ k) : (Tbl.put t k v).get d n = t.get d n := by
  simp [Tbl.get, Tbl.find_put_ne t v h]

theorem Tbl.find_del_ne {α : Type} (t : Tbl α) {k n : Nat} (h : n ≠ k) : (Tbl.del t k).find n = t.find n := by
  induction t with
  | nil => rfl
  | cons e r ih =>
    obtain ⟨j, w⟩ := e
    unfold Tbl.del
    split
    · subst_vars; simp [Tbl.find, h.symm]
    · simp [Tbl.find, ih]

/-- Every key of a sorted table's tail is above its head. -/
theorem Tbl.sorted_cons {α : Type} {j : Nat} {w : α} {r : Tbl α} :
    Tbl.sorted ((j, w) :: r) = true ↔ (∀ e ∈ r, j < e.1) ∧ Tbl.sorted r = true := by
  induction r generalizing j w with
  | nil => simp [Tbl.sorted]
  | cons e r ih =>
    obtain ⟨k, v⟩ := e
    simp only [Tbl.sorted, Bool.and_eq_true, decide_eq_true_eq, List.mem_cons, forall_eq_or_imp]
    constructor
    · intro ⟨h, hs⟩; exact ⟨⟨h, fun e he => Nat.lt_trans h ((ih.mp hs).1 e he)⟩, hs⟩
    · intro ⟨⟨h, _⟩, hs⟩; exact ⟨h, hs⟩

theorem Tbl.mem_put {α : Type} {t : Tbl α} {k : Nat} {v : α} {e : Nat × α} (h : e ∈ Tbl.put t k v) : e = (k, v) ∨ e ∈ t := by
  induction t with
  | nil => simpa [Tbl.put] using h
  | cons x r ih =>
    obtain ⟨j, w⟩ := x
    unfold Tbl.put at h
    split at h
    · simpa using h
    · split at h
      · simp only [List.mem_cons] at h ⊢; tauto
      · simp only [List.mem_cons] at h ⊢; rcases h with h | h
        · exact .inr (.inl h)
        · rcases ih h with h | h <;> tauto

theorem Tbl.mem_del {α : Type} {t : Tbl α} {k : Nat} {e : Nat × α} (h : e ∈ Tbl.del t k) : e ∈ t := by
  induction t with
  | nil => simpa [Tbl.del] using h
  | cons x r ih =>
    obtain ⟨j, w⟩ := x
    unfold Tbl.del at h
    split at h
    · simp [h]
    · simp only [List.mem_cons] at h ⊢; rcases h with h | h
      · exact .inl h
      · exact .inr (ih h)

theorem Tbl.sorted_put {α : Type} {t : Tbl α} (k : Nat) (v : α) (h : Tbl.sorted t = true) : Tbl.sorted (Tbl.put t k v) = true := by
  induction t with
  | nil => simp [Tbl.put, Tbl.sorted]
  | cons x r ih =>
    obtain ⟨j, w⟩ := x
    have ⟨hj, hr⟩ := Tbl.sorted_cons.mp h
    unfold Tbl.put
    split
    · next hk => exact Tbl.sorted_cons.mpr ⟨by simpa using ⟨hk, fun a b hab => Nat.lt_trans hk (hj (a, b) hab)⟩, h⟩
    · split
      · next hk => subst hk; exact Tbl.sorted_cons.mpr ⟨hj, hr⟩
      · next h1 h2 =>
        refine Tbl.sorted_cons.mpr ⟨fun e he => ?_, ih hr⟩
        rcases Tbl.mem_put he with rfl | he
        · show j < k; omega
        · exact hj e he

theorem Tbl.sorted_del {α : Type} {t : Tbl α} (k : Nat) (h : Tbl.sorted t = true) : Tbl.sorted (Tbl.del t k) = true := by
  induction t with
  | nil => simpa [Tbl.del] using h
  | cons x r ih =>
    obtain ⟨j, w⟩ := x
    have ⟨hj, hr⟩ := Tbl.sorted_cons.mp h
    unfold Tbl.del
    split
    · exact hr
    · exact Tbl.sorted_cons.mpr ⟨fun e he => hj e (Tbl.mem_del he), ih hr⟩

theorem Tbl.find_none_of_lt {α : Type} {t : Tbl α} {k : Nat} (h : ∀ e ∈ t, k < e.1) : t.find k = none := by
  induction t with
  | nil => rfl
  | cons x r ih =>
    obtain ⟨j, w⟩ := x
    have := h (j, w) (by simp)
    simp only [Tbl.find]
    rw [if_neg (by simp at this; omega), ih fun e he => h e (by simp [he])]

theorem Tbl.find_del_self {α : Type} {t : Tbl α} (k : Nat) (h : Tbl.sorted t = true) : (Tbl.del t k).find k = none := by
  induction t with
  | nil => rfl
  | cons x r ih =>
    obtain ⟨j, w⟩ := x
    have ⟨hj, hr⟩ := Tbl.sorted_cons.mp h
    unfold Tbl.del
    split
    · next e => subst e; exact Tbl.find_none_of_lt hj
    · next e => simp [Tbl.find, e, ih hr]

/-! ## Memory -/

/-- A byte reads as it was written. -/
theorem memGet_memPut_self {m : List Host.Cell} (k : Nat) (b : Byte) (h : Memory.wf m = true) : memGet (memPut m k b) k = b := by
  simp only [Memory.wf, Bool.and_eq_true] at h
  unfold memGet memPut Tbl.get
  split
  · next e => simp [Tbl.find_del_self k h.1, e]
  · simp

/-- A write leaves every other byte. -/
theorem memGet_memPut_ne (m : List Host.Cell) {k n : Nat} (b : Byte) (h : n ≠ k) : memGet (memPut m k b) n = memGet m n := by
  unfold memGet memPut Tbl.get
  split
  · rw [Tbl.find_del_ne m h]
  · rw [Tbl.find_put_ne m b h]

/-- A write keeps the canonical form. -/
theorem Memory.wf_memPut {m : List Host.Cell} (k : Nat) (b : Byte) (h : Memory.wf m = true) : Memory.wf (memPut m k b) = true := by
  simp only [Memory.wf, Bool.and_eq_true, List.all_eq_true, bne_iff_ne, ne_eq] at h ⊢
  unfold memPut
  split
  · exact ⟨Tbl.sorted_del k h.1, fun e he => h.2 e (Tbl.mem_del he)⟩
  · next hb =>
    refine ⟨Tbl.sorted_put k b h.1, fun e he => ?_⟩
    rcases Tbl.mem_put he with rfl | he
    · exact hb
    · exact h.2 e he

theorem State.wf_writeByte {s : State} (p : Place) (b : Byte) (h : Memory.wf s.mem = true) : Memory.wf (s.writeByte p b).mem = true :=
  Memory.wf_memPut p.key b h

theorem State.wf_writeBytes {s : State} (p : Place) (bs : List Byte) (h : Memory.wf s.mem = true) :
    Memory.wf (s.writeBytes p bs).mem = true := by
  induction bs generalizing s p with
  | nil => exact h
  | cons b r ih => exact ih _ (State.wf_writeByte p b h)

theorem State.wf_writeRuns {s : State} (rs : List Run) (bs : List Byte) (h : Memory.wf s.mem = true) :
    Memory.wf (s.writeRuns rs bs).mem = true := by
  induction rs generalizing s bs with
  | nil => exact h
  | cons r rest ih => exact ih _ (State.wf_writeBytes _ _ h)

theorem State.wf_writeScratch {s : State} (t : Team) (o : Nat) (bs : List Byte) (h : Memory.wf s.mem = true) :
    Memory.wf (s.writeScratch t o bs).mem = true := by
  induction bs generalizing s o with
  | nil => exact h
  | cons b r ih =>
    refine ih _ ?_
    split
    · exact State.wf_writeByte _ b h
    · exact h

/-- The bytes `bs` written from `p` on leave a byte at any place that is none of theirs. -/
theorem State.readByte_writeBytes_ne (s : State) (p q : Place) (bs : List Byte)
    (h : ∀ i < bs.length, q.key ≠ (p.shift i).key) (hs : ∀ i j, (p.shift i).shift j = p.shift (i + j)) (h0 : p.shift 0 = p) :
    (s.writeBytes p bs).readByte q = s.readByte q := by
  suffices ∀ (n : Nat) (s : State) (bs : List Byte), (∀ i < bs.length, q.key ≠ (p.shift (n + i)).key) →
      (s.writeBytes (p.shift n) bs).readByte q = s.readByte q by simpa [h0] using this 0 s bs (by simpa using h)
  intro n s bs
  induction bs generalizing n s with
  | nil => intro _; rfl
  | cons b r ih =>
    intro h
    have hb := h 0 (by simp)
    rw [State.writeBytes, hs]
    rw [ih (n + 1) _ fun i hi => by have := h (i + 1) (by simpa using hi); rwa [show n + 1 + i = n + (i + 1) by omega]]
    exact memGet_memPut_ne _ b (by simpa using hb)

end Sys2Proof.Machine
end

