-- ==== Sys2Proof/Laws/Compute.lean ====
section
/-! SUPPORT. What the shared operations of format V do, once: an instruction that no check stops has its effect; and the
result functions of 13_isa_compute as integer and bit arithmetic. -/
namespace Sys2Proof.Machine

/-! ## The shared operations -/

theorem runV_next {s : State} {k g c op v} (f : GKey → Group → VShape → VEffect) (h : s.issues k g c) (hc : g.clearV op v) :
    s.runV op v f = .next (s.afterV k g c op v (f k g (shapeOf op))) := by
  obtain ⟨rfl, hg, hcl⟩ := h
  obtain ⟨hs, ht, hp⟩ := hc
  obtain ⟨sh, hsh⟩ := Option.isSome_iff_exists.mp hs
  simp only [shapeOf, hsh, Option.getD_some] at ht hp
  simp [State.runV, State.withIssuer, hg, hcl, hsh, ht, hp, State.afterV, shapeOf]

theorem foldl_or_zero (l : List Nat) : l.foldl (fun (w : Flags) _ => w ||| 0#32) 0#32 = 0#32 := by
  induction l with
  | nil => rfl
  | cons a r ih => simp

theorem laneOp_plain {s : State} {k g c op v} (h : Word → Word → Word → Word) (hi : s.issues k g c) (hc : g.clearV op v) :
    s.laneOp op v (plain h) = .next (s.afterV k g c op v (.lanes (Lanes.ofFn fun l => h (s.laneA k g op v l) (s.laneB k g op v l) (s.laneC k g op v l)) 0#32)) := by
  rw [State.laneOp, runV_next _ hi hc]
  simp [plain, State.laneA, State.laneB, State.laneC]

theorem laneOp_rounds {s : State} {k g c op v} (f) (hi : s.issues k g c) (hc : g.clearV op v) :
    s.laneOp op v f = .next (s.afterV k g c op v (.lanes (Lanes.ofFn fun l => (f (s.level k g) g.hand (s.laneA k g op v l) (s.laneB k g op v l) (s.laneC k g op v l)).1) (g.laneFlags fun l => (f (s.level k g) g.hand (s.laneA k g op v l) (s.laneB k g op v l) (s.laneC k g op v l)).2))) := by
  rw [State.laneOp, runV_next _ hi hc]; rfl
theorem lanePredOp_tests {s : State} {k g c op v} (f) (hi : s.issues k g c) (hc : g.clearV op v) :
    s.lanePredOp op v f = .next (s.afterV k g c op v (.pred (maskedBits g.exec (g.pred (v.d.toNat % 8)) fun l => (f (s.level k g) g.hand (s.laneA k g op v l) (s.laneB k g op v l)).1) (g.laneFlags fun l => (f (s.level k g) g.hand (s.laneA k g op v l) (s.laneB k g op v l)).2))) := by
  rw [State.lanePredOp, runV_next _ hi hc]; rfl

theorem plain_pt {op i v} {r h : Word → Word → Word → Word} (e : ∀ s, exec i s = State.laneOp s op v (plain h)) (hr : ∀ a b c, h a b c = r a b c) : computesAt op i v r := by
  intro s k g c hi hc
  rw [e, laneOp_plain h hi hc]; simp only [hr]
theorem rounds_pt {op i v r} {h} (e : ∀ s, exec i s = State.laneOp s op v h) (hr : ∀ l t a b c, h l t a b c = r l t a b c) : roundsAt op i v r := by
  intro s k g c hi hc
  rw [e, laneOp_rounds h hi hc]; simp only [hr]
theorem tests_pt {op i v r} {h} (e : ∀ s, exec i s = State.lanePredOp s op v h) (hr : ∀ l t a b, h l t a b = r l t a b) : testsAt op i v r := by
  intro s k g c hi hc
  rw [e, lanePredOp_tests h hi hc]; simp only [hr]
theorem effects_pt {op i v e h} (he : ∀ s, exec i s = State.runV s op v h) (hr : ∀ s k g, h k g (shapeOf op) = e s k g) : effectsAt op i v e := by
  intro s k g c hi hc
  rw [he, runV_next h hi hc, hr s]
theorem effects_pt' {op i v e} {h : State → GKey → Group → VShape → VEffect} (he : ∀ s, exec i s = State.runV s op v (h s)) (hr : ∀ s k g, h s k g (shapeOf op) = e s k g) : effectsAt op i v e := by
  intro s k g c hi hc
  rw [he, runV_next (h s) hi hc, hr s]

/-! ## The result functions -/

theorem resAddc_eq (a b c : Word) : resAddc a b c = BitVec.ofNat 32 ((a.toNat + b.toNat + (c &&& 1#32).toNat) / 2 ^ 32) := by
  simp [resAddc, Nat.and_one_is_mod]
theorem resAbs_eq (a b c : Word) : resAbs a b c = BitVec.ofNat 32 a.toInt.natAbs := by
  apply BitVec.eq_of_toNat_eq
  have := a.isLt
  unfold resAbs
  rw [BitVec.msb_eq_decide]
  simp only [BitVec.toInt_eq_toNat_cond, BitVec.toNat_ofNat, decide_eq_true_eq]
  split <;> split <;> simp_all <;> omega
theorem resMin_eq (a b c : Word) : resMin a b c = if a.toInt ≤ b.toInt then a else b := by
  simp only [resMin, BitVec.slt, decide_eq_true_eq]; split <;> split <;> first | rfl | omega
theorem resMax_eq (a b c : Word) : resMax a b c = if a.toInt ≤ b.toInt then b else a := by
  simp only [resMax, BitVec.slt, decide_eq_true_eq]
  split <;> split <;> first | rfl | omega | (apply BitVec.eq_of_toInt_eq; omega)
theorem resMinu_eq (a b c : Word) : resMinu a b c = if a.toNat ≤ b.toNat then a else b := by
  simp only [resMinu, BitVec.ult, decide_eq_true_eq]; split <;> split <;> first | rfl | omega
theorem resMaxu_eq (a b c : Word) : resMaxu a b c = if a.toNat ≤ b.toNat then b else a := by
  simp only [resMaxu, BitVec.ult, decide_eq_true_eq]
  split <;> split <;> first | rfl | omega | (apply BitVec.eq_of_toNat_eq; omega)
theorem resAdds_eq (l : Nat) (h a b c : Word) : resAdds l h a b c =
    (if 2 ^ 31 ≤ a.toInt + b.toInt then 0x7fffffff#32 else if a.toInt + b.toInt < -2 ^ 31 then 0x80000000#32 else a + b,
       if 2 ^ 31 ≤ a.toInt + b.toInt ∨ a.toInt + b.toInt < -2 ^ 31 then flagSATD else 0#32) := by
  have := BitVec.toInt_lt (x := a); have := BitVec.toInt_lt (x := b)
  have := BitVec.le_toInt a; have := BitVec.le_toInt b
  have e : BitVec.ofInt 32 (a.toInt + b.toInt) = a + b := by simp [BitVec.ofInt_add]
  have z (t : Int) : resAdds l h a b c = (BitVec.ofInt 32 (clampInt (-2147483648) 2147483647 (a.toInt + b.toInt)),
      flagIf (decide (clampInt (-2147483648) 2147483647 (a.toInt + b.toInt) ≠ a.toInt + b.toInt)) flagSATD) := rfl
  rw [z 0]
  simp only [Nat.reduceSub] at *
  by_cases h1 : (2 : Int) ^ 31 ≤ a.toInt + b.toInt
  · have k : clampInt (-2147483648) 2147483647 (a.toInt + b.toInt) = 2147483647 := by unfold clampInt; split <;> (try split) <;> omega
    have n : (2147483647 : Int) ≠ a.toInt + b.toInt := by omega
    rw [k, if_pos h1, if_pos (Or.inl h1), decide_eq_true n]; rfl
  · by_cases h2 : a.toInt + b.toInt < -2 ^ 31
    · have k : clampInt (-2147483648) 2147483647 (a.toInt + b.toInt) = -2147483648 := by unfold clampInt; split <;> (try split) <;> omega
      have n : (-2147483648 : Int) ≠ a.toInt + b.toInt := by omega
      rw [k, if_neg h1, if_pos h2, if_pos (Or.inr h2), decide_eq_true n]; rfl
    · have k : clampInt (-2147483648) 2147483647 (a.toInt + b.toInt) = a.toInt + b.toInt := by unfold clampInt; split <;> (try split) <;> omega
      rw [k, if_neg h1, if_neg h2, if_neg (by tauto), e]; simp [flagIf]

theorem resShl_eq (a b c : Word) : resShl a b c = if 32 ≤ b.toNat % 256 then 0#32 else a <<< (b.toNat % 256) := by
  have : (bits b 0 8).toNat = b.toNat % 256 := by simp [bits]
  rw [resShl, this]; split
  · exact BitVec.shiftLeft_eq_zero ‹_›
  · rfl
theorem resShr_eq (a b c : Word) : resShr a b c = if 32 ≤ b.toNat % 256 then 0#32 else a >>> (b.toNat % 256) := by
  have : (bits b 0 8).toNat = b.toNat % 256 := by simp [bits]
  rw [resShr, this]; split
  · exact BitVec.ushiftRight_eq_zero ‹_›
  · rfl
theorem resSar_eq (a b c : Word) : resSar a b c = a.sshiftRight (min 32 (b.toNat % 256)) := by
  have : (bits b 0 8).toNat = b.toNat % 256 := by simp [bits]
  rw [resSar, this]
  ext i hi
  simp only [BitVec.getElem_sshiftRight]
  by_cases h : b.toNat % 256 ≤ 32
  · rw [Nat.min_eq_right h]
  · rw [Nat.min_eq_left (by omega)]
    rw [dif_neg (by omega), dif_neg (by omega)]
theorem resRot_eq (a b c : Word) : resRot a b c = a.rotateLeft (b.toNat % 32) := by
  have : (bits b 0 5).toNat = b.toNat % 32 := by simp [bits]
  rw [resRot, this]
theorem resPopc_eq (a b c : Word) : resPopc a b c = BitVec.ofNat 32 ((List.range 32).filter fun i => a.getLsbD i).length := rfl
theorem bitField_eq (b : Word) : bitField b = (b.toNat % 32, min (b.toNat / 256 % 64) (32 - b.toNat % 32)) := by
  have h1 : (bits b 0 5).toNat = b.toNat % 32 := by simp [bits]
  have h2 : (bits b 8 6).toNat = b.toNat / 256 % 64 := by simp [bits, Nat.shiftRight_eq_div_pow]
  simp only [bitField, h1, h2]
theorem resBfx_eq (a b c : Word) : resBfx a b c =
      (let p := b.toNat % 32
      let n := min (b.toNat / 256 % 64) (32 - p)
      let ones := BitVec.ofNat 32 (2 ^ n - 1)
      ((a >>> p) &&& ones) ||| (if b.getLsbD 16 ∧ 0 < n ∧ a.getLsbD (p + n - 1) then ~~~ones else 0#32)) := by
  simp only [resBfx, bitField_eq]
  simp only [Bool.and_eq_true, decide_eq_true_eq, and_assoc]
  split <;> simp
theorem resBfi_eq (a b c : Word) : resBfi a b c =
      (let p := b.toNat % 32
      let n := min (b.toNat / 256 % 64) (32 - p)
      let mask := BitVec.ofNat 32 (2 ^ n - 1) <<< p
      (c &&& ~~~mask) ||| ((a <<< p) &&& mask)) := by
  simp only [resBfi, bitField_eq]
  have (m p : Nat) : BitVec.ofNat 32 (m * 2 ^ p) = BitVec.ofNat 32 m <<< p := by
    apply BitVec.eq_of_toNat_eq; simp [Nat.shiftLeft_eq, Nat.mod_mul_mod]
  simp only [this]
theorem resBfn3_eq (tt : Nat) (a b c : Word) : resBfn3 tt a b c =
    maskedBits 0xffffffff#32 0#32 fun i => Nat.testBit tt ((a.getLsbD i).toNat + 2 * (b.getLsbD i).toNat + 4 * (c.getLsbD i).toNat) := by
  unfold resBfn3
  congr 1; funext i
  have (n : Nat) : (tt / 2 ^ n % 2 == 1) = Nat.testBit tt n := by
    rw [Nat.testBit_eq_decide_div_mod_eq]; simp [BEq.beq]
  rw [← this]
  cases a.getLsbD i <;> cases b.getLsbD i <;> cases c.getLsbD i <;> rfl

theorem condSigned_eq (fn : Nat) (a b : Word) : (condSigned fn a b).getD false = (if fn ≤ 5 then (match fn with
    | 0 => a.toInt == b.toInt
    | 1 => a.toInt != b.toInt
    | 2 => decide (a.toInt < b.toInt)
    | 3 => decide (a.toInt ≤ b.toInt)
    | 4 => decide (b.toInt < a.toInt)
    | _ => decide (b.toInt ≤ a.toInt) : Bool) else false) := by
  rcases fn with _ | _ | _ | _ | _ | _ | n <;> simp [condSigned, BitVec.slt, BitVec.sle, BEq.beq, bne, BitVec.toInt_inj]

theorem condUnsigned_eq (fn : Nat) (a b : Word) : (condUnsigned fn a b).getD false = (if fn ≤ 5 then (match fn with
    | 0 => (a.toNat : Int) == b.toNat
    | 1 => (a.toNat : Int) != b.toNat
    | 2 => decide ((a.toNat : Int) < b.toNat)
    | 3 => decide ((a.toNat : Int) ≤ b.toNat)
    | 4 => decide ((b.toNat : Int) < a.toNat)
    | _ => decide ((b.toNat : Int) ≤ a.toNat) : Bool) else false) := by
  rcases fn with _ | _ | _ | _ | _ | _ | n <;> simp [condUnsigned, BitVec.ult, BitVec.ule, BEq.beq, bne, BitVec.toNat_inj]

theorem condScalar_eq (fn : Nat) (a b : Word) : (condScalar fn a b).getD false = (match fn with
        | 0 => a == b
        | 1 => a != b
        | 2 => decide (a.toInt < b.toInt)
        | 3 => decide (a.toInt ≤ b.toInt)
        | 4 => decide (b.toInt < a.toInt)
        | 5 => decide (b.toInt ≤ a.toInt)
        | 6 => decide (a.toNat < b.toNat)
        | 7 => decide (a.toNat ≤ b.toNat)
        | 8 => decide (b.toNat < a.toNat)
        | 9 => decide (b.toNat ≤ a.toNat)
        | _ => false : Bool) := by
  rcases fn with _ | _ | _ | _ | _ | _ | _ | _ | _ | _ | n <;> simp [condScalar, condSigned, BitVec.slt, BitVec.sle, BitVec.ult, BitVec.ule]

end Sys2Proof.Machine
end

