-- ==== Sys2Proof/Laws/Groups.lean ====
section
/-! SUPPORT. The group that issues, and what the ends of an instruction leave of it. -/

namespace Sys2Proof.Machine

/-- An instruction of a group that issues runs its meaning. -/
theorem State.withIssuer_of {s : State} {k g c} (f : GKey → Group → Clause → State) (h : s.issues k g c) :
    s.withIssuer f = .next (f k g c) := by
  obtain ⟨rfl, hg, hc⟩ := h
  simp [State.withIssuer, hg, hc]

@[simp] theorem State.putGroup_group?_self (s : State) (k : GKey) (g : Group) : (s.putGroup k g).group? k = some g := by
  simp [State.putGroup, State.group?]

theorem State.putGroup_group?_ne (s : State) {k j : GKey} (g : Group) (h : keyNum j ≠ keyNum k) :
    (s.putGroup k g).group? j = s.group? j := by
  simp [State.putGroup, State.group?, Tbl.find_put_ne _ _ h]

theorem State.group?_eq (s t : State) (k : GKey) (h : t.groups = s.groups) : t.group? k = s.group? k := by simp [State.group?, h]

@[simp] theorem State.busy_group? (s : State) (k j : GKey) (n : Nat) : (s.busy k n).group? j = s.group? j := rfl
@[simp] theorem State.post_group? (s : State) (n : Nat) (e : Event) (j : GKey) : (s.post n e).group? j = s.group? j := rfl
@[simp] theorem State.after_group? (s : State) (n : Nat) (e : Event) (j : GKey) : (s.after n e).group? j = s.group? j := rfl
@[simp] theorem State.writeByte_group? (s : State) (p : Place) (b : Byte) (j : GKey) : (s.writeByte p b).group? j = s.group? j := rfl
@[simp] theorem State.putCore_group? (s : State) (d c : Nat) (x : Core) (j : GKey) : (s.putCore d c x).group? j = s.group? j := rfl
@[simp] theorem State.updCore_group? (s : State) (d c : Nat) (f : Core → Core) (j : GKey) : (s.updCore d c f).group? j = s.group? j := rfl
@[simp] theorem State.putPen_group? (s : State) (p : PenKey) (x : Pen) (j : GKey) : (s.putPen p x).group? j = s.group? j := rfl
@[simp] theorem State.updDie_group? (s : State) (d : Nat) (f : Die → Die) (j : GKey) : (s.updDie d f).group? j = s.group? j := rfl

@[simp] theorem State.advance_group? (s : State) (k : GKey) (g : Group) (c : Clause) (n : Nat) (nib : Option Lanes) :
    (s.advance k g c n nib).group? k = some (g.stepped c nib) := by simp [State.advance]

@[simp] theorem State.hold_group? (s : State) (k : GKey) (g : Group) : (s.hold k g).group? k = some g := by simp [State.hold]

@[simp] theorem State.jump_group? (s : State) (k : GKey) (g : Group) (t : BitVec 48) (n : Nat) : (s.jump k g t n).group? k =
    some { g with clause := none, pos := 0, pc := t, n0 := none, n1 := none, half := .fresh } := by simp [State.jump]

theorem State.leavePen_group? (s : State) (k : GKey) (g : Group) (r : RunState) :
    (s.leavePen k g r).group? k = some { g.flushWell.1 with run := r } := by
  unfold State.leavePen
  dsimp only
  split <;> simp

theorem State.updGroup_group?_self {s : State} {k : GKey} {g : Group} (f : Group → Group) (h : s.group? k = some g) :
    (s.updGroup k f).group? k = some (f g) := by simp [State.updGroup, h]

/-! ## The fields that no end of an instruction changes -/

theorem State.writeScratch_eq (s : State) (t : Team) (o : Nat) (bs : List Byte) :
    s.writeScratch t o bs = s.setMem (s.writeScratch t o bs).mem := by
  induction bs generalizing s o with
  | nil => rfl
  | cons b r ih =>
    simp only [State.writeScratch]
    rw [ih]
    cases t.scratch o <;> rfl

@[simp] theorem State.writeScratch_groups (s : State) (t : Team) (o : Nat) (bs : List Byte) :
    (s.writeScratch t o bs).groups = s.groups := by rw [State.writeScratch_eq]; rfl

@[simp] theorem State.writeScratch_cores (s : State) (t : Team) (o : Nat) (bs : List Byte) :
    (s.writeScratch t o bs).cores = s.cores := by rw [State.writeScratch_eq]; rfl

@[simp] theorem State.writeScratch_clk (s : State) (t : Team) (o : Nat) (bs : List Byte) :
    (s.writeScratch t o bs).clk = s.clk := by rw [State.writeScratch_eq]; rfl

@[simp] theorem Group.stepped_exec (g : Group) (c : Clause) (nib : Option Lanes) : (g.stepped c nib).exec = g.exec := by
  unfold Group.stepped; split <;> rfl

/-- A group that steps keeps everything but its place, its nibs and the lanes that have acted. -/
theorem Group.stepped_eq (g : Group) (c : Clause) (nib : Option Lanes) :
    g.stepped c nib = { g with pc := (g.stepped c nib).pc, clause := (g.stepped c nib).clause, pos := (g.stepped c nib).pos,
                               half := (g.stepped c nib).half, n0 := (g.stepped c nib).n0, n1 := (g.stepped c nib).n1,
                               acted := 0#32 } := by
  unfold Group.stepped; split <;> rfl

/-- An instruction that only steps its group changes nothing but the group and its pen's time. -/
theorem State.onlyGroup_busy (s : State) (k : GKey) (g : Group) (n : Nat) : s.onlyGroup ((s.putGroup k g).busy k n) k := by
  refine ⟨rfl, fun m h => Tbl.find_put_ne _ _ h, fun m h => Tbl.find_put_ne _ _ h, ?_, ?_⟩
  · simp [State.busy, State.putPen, State.updCore, State.putCore, State.core, penOf]
  · intro p h
    simp only [State.busy, State.putPen, State.updCore, State.putCore, State.core, penOf, State.setCores_cores, Tbl.get_put_self]
    rw [Tbl.find_put_ne _ _ h]; rfl

theorem State.onlyGroup_advance (s : State) (k : GKey) (g : Group) (c : Clause) (n : Nat) (nib : Option Lanes) :
    s.onlyGroup (s.advance k g c n nib) k := s.onlyGroup_busy k _ n

theorem State.onlyGroup_jump (s : State) (k : GKey) (g : Group) (t : BitVec 48) (n : Nat) : s.onlyGroup (s.jump k g t n) k :=
  s.onlyGroup_busy k _ n

end Sys2Proof.Machine
end

