-- ==== Sys2Proof/Laws/Links.lean ====
section
/-! SUPPORT. The die links: the way between two dies depends on the fabric alone, and a flit that sets out on open links moves nothing but
the fabric, the agenda and the counter of delays (R13, R22). -/

namespace Sys2Proof.Machine

theorem State.inSlot_congr {s t : State} (h : t.fabric = s.fabric) : t.inSlot = s.inSlot := by
  funext d l; simp only [State.inSlot, State.wall, State.slotOf, h]

theorem State.linksTo_congr {s t : State} (h : t.fabric = s.fabric) (a b : Nat) : t.linksTo a b = s.linksTo a b := by
  unfold State.linksTo; rw [State.inSlot_congr h]

theorem State.hopsTo_congr {s t : State} (h : t.fabric = s.fabric) (a b : Nat) (c : FlitClass) : t.hopsTo a b c = s.hopsTo a b c := by
  simp only [State.hopsTo, State.linksTo_congr h]

theorem State.pathOf_congr {s t : State} (h : t.fabric = s.fabric) (d : Nat) (rs : List Run) : t.pathOf d rs = s.pathOf d rs := by
  cases rs <;> simp only [State.pathOf, State.outHops, State.hopsTo_congr h]

theorem State.backOf_congr {s t : State} (h : t.fabric = s.fabric) (d : Nat) (rs : List Run) : t.backOf d rs = s.backOf d rs := by
  cases rs <;> simp only [State.backOf, State.inHops, State.hopsTo_congr h]

/-- The second state is the first but for the fabric's flits, the agenda and the counter of delays; the firewalls stand as they were. -/
def State.flitsMoved (s t : State) : Prop :=
  ∃ f a n, t = ((s.setFabric f).setAgenda a).setFreeCtr n ∧ f.walls = s.fabric.walls

theorem State.flitsMoved_refl (s : State) : s.flitsMoved s := ⟨s.fabric, s.agenda, s.freeCtr, rfl, rfl⟩

theorem State.flitsMoved_trans {s t u : State} (h : s.flitsMoved t) (k : t.flitsMoved u) : s.flitsMoved u := by
  obtain ⟨f, a, n, rfl, hf⟩ := h
  obtain ⟨f', a', n', rfl, hf'⟩ := k
  exact ⟨f', a', n', rfl, hf'.trans hf⟩

theorem State.flitsMoved_wall {s t : State} (h : s.flitsMoved t) (l : Nat) : t.wall l = s.wall l := by
  obtain ⟨f, a, n, rfl, hf⟩ := h
  show Tbl.get f.walls _ _ = _
  rw [hf]; rfl

/-- What flits that set out leave as it was. -/
theorem State.flitsMoved_keeps {s t : State} (h : s.flitsMoved t) :
    t.mem = s.mem ∧ t.groups = s.groups ∧ t.cores = s.cores ∧ t.access = s.access ∧ t.clk = s.clk := by
  obtain ⟨f, a, n, rfl, -⟩ := h
  exact ⟨rfl, rfl, rfl, rfl, rfl⟩

/-- A flit sets out. -/
theorem State.sendFlit_moves (s : State) (h : Hop) (c : Cargo) (b : Nat) : s.flitsMoved (s.sendFlit h c b) := by
  unfold State.sendFlit
  simp only
  split
  · split
    · exact ⟨{ s.fabric with held := s.fabric.held.put h.input (s.fabric.held.get [] h.input ++ [{ cls := h.cls, cargo := c, old := false }]) },
        s.agenda, s.freeCtr, rfl, rfl⟩
    · exact ⟨{ s.fabric with held := s.fabric.held.put h.input (s.fabric.held.get [] h.input ++ [{ cls := h.cls, cargo := c, old := false }]) },
        insertDue (s.clk + 1) (.linkStopSignal h.link h.up h.cls) s.agenda, s.freeCtr, rfl, rfl⟩
  · exact ⟨_, _, _, rfl, rfl⟩

/-- A lane comes to an open link. -/
theorem State.laneHop_moves (s : State) (id : Nat) (a : Access) (x : LaneAcc) (h : Hop) (b : Nat) (ho : (s.wall h.link).closed = false) :
    s.flitsMoved (s.laneHop id a x h b) := by
  unfold State.laneHop; simp only [ho]; exact State.sendFlit_moves _ _ _ _

/-- A lane's request sets out, its first link open. -/
theorem State.sendLane_moves (s : State) (id : Nat) (w : Who) (a : Access) (x : LaneAcc) (b : Nat)
    (ho : ∀ h ∈ x.path.head?, (s.wall h.link).closed = false) : s.flitsMoved (s.sendLane id w a x b) := by
  unfold State.sendLane
  cases hp : x.path with
  | cons h r => exact State.laneHop_moves _ _ _ _ _ _ (ho h (by simp [hp]))
  | nil =>
    simp only
    split
    · exact ⟨_, _, _, rfl, rfl⟩
    · exact ⟨_, _, _, rfl, rfl⟩
    · exact State.flitsMoved_refl _

/-- A lane's answer sets out, its first link open. -/
theorem State.sendBack_moves (s : State) (id : Nat) (w : Who) (a : Access) (x : LaneAcc)
    (ho : ∀ h ∈ x.path.head?, (s.wall h.link).closed = false) : s.flitsMoved (s.sendBack id w a x) := by
  unfold State.sendBack
  cases hp : x.path with
  | cons h r => exact State.laneHop_moves _ _ _ _ _ _ (ho h (by simp [hp]))
  | nil =>
    simp only
    split
    · exact ⟨_, _, _, rfl, rfl⟩
    · exact ⟨_, _, _, rfl, rfl⟩
    · exact State.flitsMoved_refl _

/-- Lanes send one after the other, each over an open first link. -/
theorem State.foldl_moves (send : State → LaneAcc → State)
    (hs : ∀ (s : State) (x : LaneAcc), (∀ h ∈ x.path.head?, (s.wall h.link).closed = false) → s.flitsMoved (send s x)) :
    ∀ (ls : List LaneAcc) (s : State), (∀ x ∈ ls, ∀ h ∈ x.path.head?, (s.wall h.link).closed = false) → s.flitsMoved (ls.foldl send s) := by
  intro ls
  induction ls with
  | nil => intro s _; exact State.flitsMoved_refl s
  | cons x r ih =>
    intro s h
    have h1 := hs s x (h x (by simp))
    exact State.flitsMoved_trans h1 (ih _ fun y hy q hq => by rw [State.flitsMoved_wall h1]; exact h y (by simp [hy]) q hq)

end Sys2Proof.Machine
end

