-- ==== Sys2Proof/Laws/Well.lean ====
section
/-! SUPPORT. The well and the writes of registers: what a mark, a write and a kept write leave in every register, and that the well stays as
instructions leave it (R119, R122 to R126). -/

namespace Sys2Proof.Machine

@[simp] theorem Lanes.at_ofFn (f : Nat → Word) {l : Nat} (h : l < 32) : (Lanes.ofFn f).at l = f l := by
  simp [Lanes.at, Lanes.ofFn, List.getD, h]

theorem mergeLanes_at (mask : Word) (v old : Lanes) {l : Nat} (h : l < 32) :
    (mergeLanes mask v old).at l = if mask.getLsbD l then v.at l else old.at l := by simp [mergeLanes, h]

/-- Entry `j` of a well as instructions leave it. -/
theorem Group.wellOk_find {g : Group} (h : g.wellOk) {j : Nat} {e : WellEntry} (he : g.well.find j = some e) :
    e.reg % 8 = j ∧ e.dirty = true := by
  have : (j, e) ∈ g.well := by
    have : ∀ t : Tbl WellEntry, t.find j = some e → (j, e) ∈ t := by
      intro t; induction t with
      | nil => intro h; cases h
      | cons x r ih =>
        obtain ⟨i, w⟩ := x
        intro h
        unfold Tbl.find at h
        split at h
        · next q => cases h; subst q; simp
        · exact List.mem_cons_of_mem _ (ih h)
    exact this _ he
  exact h.2 _ this

/-- The table of a well as instructions leave it. -/
abbrev wellTbl (w : Tbl WellEntry) : Prop := Tbl.sorted w = true ∧ ∀ e ∈ w, e.2.reg % 8 = e.1 ∧ e.2.dirty = true

theorem wellTbl_put {w : Tbl WellEntry} (h : wellTbl w) {n : Nat} {e : WellEntry} (he : e.reg % 8 = n) (hd : e.dirty = true) :
    wellTbl (w.put n e) := by
  refine ⟨Tbl.sorted_put _ _ h.1, fun x hx => ?_⟩
  rcases Tbl.mem_put hx with rfl | hx
  · exact ⟨he, hd⟩
  · exact h.2 x hx

theorem wellTbl_del {w : Tbl WellEntry} (h : wellTbl w) (n : Nat) : wellTbl (w.del n) :=
  ⟨Tbl.sorted_del _ h.1, fun x hx => h.2 x (Tbl.mem_del hx)⟩

theorem Group.markDead_well (g : Group) (n : Nat) : (g.markDead n).well = match g.well.find (n % 8) with
    | some e => if e.reg = n then g.well.del (n % 8) else g.well
    | none => g.well := rfl

theorem Group.wellOk_markDead {g : Group} (h : g.wellOk) (n : Nat) : (g.markDead n).wellOk := by
  show wellTbl (g.markDead n).well
  rw [Group.markDead_well]
  split
  · split
    · exact wellTbl_del h _
    · exact h
  · exact h

theorem Group.wellOk_writeRes {g : Group} (h : g.wellOk) (n : Nat) (mask : Word) (v : Lanes) : (g.writeRes n mask v).wellOk := by
  unfold Group.writeRes
  dsimp only
  split
  · next e he =>
    split
    · exact wellTbl_put (e := { e with vals := _ }) h (Group.wellOk_find h he).1 (Group.wellOk_find h he).2
    · exact h
  · exact h

theorem Group.wellOk_writeKeep {g : Group} (h : g.wellOk) (n : Nat) (mask : Word) (v : Lanes) : (g.writeKeep n mask v).1.wellOk := by
  unfold Group.writeKeep
  dsimp only
  split
  · exact wellTbl_put h rfl rfl
  · next e he =>
    split
    · exact wellTbl_put (e := { e with valid := _, dirty := true, vals := _ }) h (Group.wellOk_find h he).1 rfl
    · exact wellTbl_put h rfl rfl

theorem Group.wellOk_applyDead {g : Group} (h : g.wellOk) (v : VArgs) : (g.applyDead v).wellOk := by
  unfold Group.applyDead
  have go (x : Group) (hx : x.wellOk) (d : Bool) (b : BitVec 8) :
      Group.wellOk (match specKind b with | .reg n => if d then x.markDead n else x | _ => x) := by
    split
    · split
      · exact Group.wellOk_markDead hx _
      · exact hx
    · exact hx
  dsimp only
  split
  · exact h
  · exact go _ (go _ (go _ h _ _) _ _) _ _

theorem Group.wellOk_writeDst {g : Group} (h : g.wellOk) (d : BitVec 8) (keep : Bool) (mask : Word) (v : Lanes) :
    (g.writeDst d keep mask v).1.wellOk := by
  unfold Group.writeDst
  split
  · exact h
  · split
    · split
      · exact Group.wellOk_writeKeep (g := g.enliven _) h _ _ _
      · exact Group.wellOk_writeRes (g := g.enliven _) h _ _ _
    · have : ∀ (ls : List Nat) (x : Group) (f : Nat → Nat), x.wellOk →
          (ls.foldl (fun (h : Group) l => (h.enliven (f l)).writeRes (f l) (1#32 <<< l) v) x).wellOk := by
        intro ls; induction ls with
        | nil => intro x f h; exact h
        | cons a r ih => intro x f h; exact ih _ f (Group.wellOk_writeRes (g := x.enliven _) h _ _ _)
      exact this _ g _ h
    · exact h

theorem Group.regLane_markDead {g : Group} (h : g.wellOk) {n m : Nat} (hm : m ≠ n) (l : Nat) : (g.markDead n).regLane m l = g.regLane m l := by
  unfold Group.regLane
  rw [Group.markDead_well]
  show (match Tbl.find (match g.well.find (n % 8) with | some e => if e.reg = n then g.well.del (n % 8) else g.well | none => g.well) (m % 8) with
    | some (e : WellEntry) => if e.reg = m ∧ e.valid.getLsbD l then e.vals.at l else (g.regs.get zeroLanes m).at l
    | none => (g.regs.get zeroLanes m).at l) = _
  cases he : g.well.find (n % 8) with
  | none => rfl
  | some e =>
    dsimp only
    by_cases q : e.reg = n
    · rw [if_pos q]
      by_cases hk : m % 8 = n % 8
      · rw [hk, Tbl.find_del_self _ h.1, he]
        simp [q, hm.symm]
      · rw [Tbl.find_del_ne _ hk]
        all_goals cases g.well.find (m % 8) <;> rfl
    · rw [if_neg q]
      all_goals cases g.well.find (m % 8) <;> rfl

@[simp] theorem Group.regLane_enliven (g : Group) (n m l : Nat) : (g.enliven n).regLane m l = g.regLane m l := rfl

theorem Group.regLane_writeRes (g : Group) (n m : Nat) (mask : Word) (v : Lanes) {l : Nat} (hl : l < 32) :
    (g.writeRes n mask v).regLane m l = if m = n ∧ mask.getLsbD l = true then v.at l else g.regLane m l := by
  unfold Group.writeRes
  dsimp only
  by_cases hm : m = n
  · subst hm
    cases hf : g.well.find (m % 8) with
    | none => simp [Group.regLane, hf, mergeLanes_at, hl]
    | some e =>
      dsimp only
      split
      · next q =>
        simp only [Group.regLane, Tbl.find_put_self, hf, q, true_and, mergeLanes_at, hl, Tbl.get_put_self, BitVec.getLsbD_and]
        by_cases a : mask.getLsbD l <;> by_cases b : e.valid.getLsbD l <;> simp [a, b]
      · next q => simp [Group.regLane, hf, q, mergeLanes_at, hl]
  · simp only [hm, false_and, if_false]
    cases hf : g.well.find (n % 8) with
    | none => simp [Group.regLane, Tbl.get_put_ne _ _ _ hm]
    | some e =>
      dsimp only
      split
      · next q =>
        by_cases hk : m % 8 = n % 8
        · simp only [Group.regLane, hk, Tbl.find_put_self, hf, q, Ne.symm hm, false_and, if_false, Tbl.get_put_ne _ _ _ hm]
        · simp only [Group.regLane, Tbl.find_put_ne _ _ hk, Tbl.get_put_ne _ _ _ hm]
      · simp only [Group.regLane, Tbl.get_put_ne _ _ _ hm]

theorem Group.regLane_writeKeep {g : Group} (h : g.wellOk) (n m : Nat) (mask : Word) (v : Lanes) {l : Nat} (hl : l < 32) :
    (g.writeKeep n mask v).1.regLane m l = if m = n ∧ mask.getLsbD l = true then v.at l else g.regLane m l := by
  unfold Group.writeKeep
  dsimp only
  by_cases hk : m % 8 = n % 8
  · cases hf : g.well.find (n % 8) with
    | none =>
      by_cases hm : m = n
      · subst hm
        by_cases a : mask.getLsbD l <;> simp only [BitVec.getLsbD_eq_getElem hl] at a <;> simp [Group.regLane, hf, mergeLanes_at, hl, a]
      · simp [Group.regLane, hk, hf, hm, Ne.symm hm]
    | some e =>
      have ⟨hr, hd⟩ := Group.wellOk_find h hf
      dsimp only
      split
      · next q =>
        by_cases hm : m = n
        · subst hm
          by_cases a : mask.getLsbD l <;> by_cases b : e.valid.getLsbD l <;> simp only [BitVec.getLsbD_eq_getElem hl] at a b <;>
            simp [Group.regLane, hf, q, mergeLanes_at, hl, a, b]
        · simp [Group.regLane, hk, hf, hm, Ne.symm hm, q]
      · next q =>
        by_cases hm : m = n
        · subst hm
          by_cases a : mask.getLsbD l
          · simp [Group.regLane, mergeLanes_at, hl, a]
          · simp [Group.regLane, hf, q, a, writeBack, hd, Tbl.get_put_ne _ _ _ (Ne.symm q)]
        · by_cases hq : e.reg = m
          · subst hq
            by_cases b : e.valid.getLsbD l <;> simp [Group.regLane, hk, hf, hm, Ne.symm hm, writeBack, hd, mergeLanes_at, hl, b]
          · simp [Group.regLane, hk, hf, hm, Ne.symm hm, writeBack, hd, hq, Tbl.get_put_ne _ _ _ (Ne.symm hq)]
  · have hm : m ≠ n := fun q => hk (q ▸ rfl)
    simp only [hm, false_and, if_false]
    cases hf : g.well.find (n % 8) with
    | none => simp [Group.regLane, Tbl.find_put_ne _ _ hk]
    | some e =>
      have ⟨hr, hd⟩ := Group.wellOk_find h hf
      have hq : m ≠ e.reg := fun q => hk (q ▸ hr)
      dsimp only
      split
      · simp [Group.regLane, Tbl.find_put_ne _ _ hk]
      · simp [Group.regLane, Tbl.find_put_ne _ _ hk, writeBack, hd, Tbl.get_put_ne _ _ _ hq]

theorem Group.regLane_applyDead {g : Group} (h : g.wellOk) {v : VArgs} {m : Nat} (hm : ¬ v.marks m) (l : Nat) :
    (g.applyDead v).regLane m l = g.regLane m l := by
  have go (x : Group) (hx : x.wellOk) (d : Bool) (b : BitVec 8) (hq : ¬ (d = true ∧ specKind b = .reg m)) :
      Group.wellOk (match specKind b with | .reg n => if d then x.markDead n else x | _ => x)
      ∧ Group.regLane (match specKind b with | .reg n => if d then x.markDead n else x | _ => x) m l = x.regLane m l := by
    split
    · next n hb =>
      split
      · next hd => exact ⟨Group.wellOk_markDead hx _, Group.regLane_markDead hx (by rintro rfl; exact hq ⟨hd, hb⟩) _⟩
      · exact ⟨hx, rfl⟩
    · exact ⟨hx, rfl⟩
  unfold VArgs.marks at hm
  unfold Group.applyDead
  dsimp only
  split
  · rfl
  · have a1 := go g h v.deadA v.a (by tauto)
    have a2 := go _ a1.1 v.deadB v.b (by tauto)
    have a3 := go _ a2.1 v.deadC v.c (by tauto)
    exact a3.2.trans (a2.2.trans a1.2)

theorem one_shift (l j : Nat) (hj : j < 32) : (1#32 <<< l).getLsbD j = decide (j = l) := by
  simp only [BitVec.getLsbD_shiftLeft, hj, BitVec.getLsbD_one, decide_true, Bool.true_and]
  by_cases h : j = l
  · subst h; simp
  · by_cases h2 : j < l
    · simp [h, h2]
    · have : j - l ≠ 0 := by omega
      simp [h, this]

theorem foldl_writeRes (f : Nat → Nat) (v : Lanes) (ls : List Nat) (x : Group) (m : Nat) {l : Nat} (hl : l < 32) :
    (ls.foldl (fun (h : Group) l => (h.enliven (f l)).writeRes (f l) (1#32 <<< l) v) x).regLane m l
      = if l ∈ ls ∧ m = f l then v.at l else x.regLane m l := by
  induction ls generalizing x with
  | nil => simp
  | cons a r ih =>
    simp only [List.foldl_cons, ih, Group.regLane_writeRes _ _ _ _ _ hl, one_shift _ _ hl, Group.regLane_enliven, List.mem_cons]
    by_cases c : l = a
    · subst c
      by_cases e : m = f l <;> by_cases b : l ∈ r <;> simp [e, b]
    · simp [c]

theorem mem_lanesOf (m : Word) {l : Nat} : l ∈ lanesOf m ↔ l < 32 ∧ m.getLsbD l = true := by simp [lanesOf]

/-- What a write to a per-lane destination leaves in every register (R119, R123). -/
theorem Group.regLane_writeDst {g : Group} (h : g.wellOk) (d : BitVec 8) (keep : Bool) (mask : Word) (v : Lanes) (m : Nat) {l : Nat} (hl : l < 32) :
    (g.writeDst d keep mask v).1.regLane m l =
      if mask.getLsbD l = true ∧ g.useReg (useOf d false 1) l = some m then v.at l else g.regLane m l := by
  unfold Group.writeDst Group.useReg useOf
  dsimp only
  by_cases q : mask = 0#32
  · subst q; simp
  · rw [if_neg q]
    cases specKind d with
    | reg n =>
      dsimp only
      have e : (mask.getLsbD l = true ∧ some n = some m) ↔ (m = n ∧ mask.getLsbD l = true) := by
        rw [Option.some.injEq]; tauto
      rw [if_congr e rfl rfl]
      split
      · rw [Group.regLane_writeKeep (g := g.enliven n) h _ _ _ _ hl]; rfl
      · rw [Group.regLane_writeRes (g.enliven n) _ _ _ _ hl]; rfl
    | index n =>
      dsimp only
      rw [foldl_writeRes (fun l => g.ixReg n l) v _ _ _ hl]
      simp only [mem_lanesOf, hl, true_and, Option.some.injEq]
      exact if_congr (by tauto) rfl rfl
    | _ => simp

/-- Dead marks change the marks and the well alone. -/
theorem Group.applyDead_eq (g : Group) (v : VArgs) : g.applyDead v = { g with dead := (g.applyDead v).dead, well := (g.applyDead v).well } := by
  have go (x : Group) (d : Bool) (b : BitVec 8) (hx : x = { g with dead := x.dead, well := x.well }) :
      (match specKind b with | .reg n => if d then x.markDead n else x | _ => x) = 
       { g with dead := (match specKind b with | .reg n => if d then x.markDead n else x | _ => x).dead, well := (match specKind b with | .reg n => if d then x.markDead n else x | _ => x).well } := by
    split
    · split
      · rw [hx]; rfl
      · exact hx
    · exact hx
  unfold Group.applyDead
  dsimp only
  split
  · rfl
  · exact go _ _ _ (go _ _ _ (go _ _ _ rfl))

/-- A write to a per-lane destination changes registers, marks and the well alone. -/
theorem Group.writeDst_eq (g : Group) (d : BitVec 8) (keep : Bool) (m : Word) (v : Lanes) : (g.writeDst d keep m v).1 = { g with dead := (g.writeDst d keep m v).1.dead, well := (g.writeDst d keep m v).1.well, regs := (g.writeDst d keep m v).1.regs } := by
  have one (x : Group) (n : Nat) (mk : Word) : x.writeRes n mk v = { x with well := (x.writeRes n mk v).well, regs := (x.writeRes n mk v).regs } := by
    unfold Group.writeRes; dsimp only; split
    · split <;> rfl
    · rfl
  have two (x : Group) (n : Nat) (mk : Word) : (x.writeKeep n mk v).1 = { x with well := (x.writeKeep n mk v).1.well, regs := (x.writeKeep n mk v).1.regs } := by
    unfold Group.writeKeep; dsimp only; split
    · rfl
    · split <;> rfl
  have three (f : Nat → Nat) (ls : List Nat) : ∀ x : Group, x = { g with dead := x.dead, well := x.well, regs := x.regs } → 
     (ls.foldl (fun (h : Group) l => (h.enliven (f l)).writeRes (f l) (1#32 <<< l) v) x) = { g with dead := (ls.foldl (fun (h : Group) l => (h.enliven (f l)).writeRes (f l) (1#32 <<< l) v) x).dead, well := (ls.foldl (fun (h : Group) l => (h.enliven (f l)).writeRes (f l) (1#32 <<< l) v) x).well, regs := (ls.foldl (fun (h : Group) l => (h.enliven (f l)).writeRes (f l) (1#32 <<< l) v) x).regs } := by
    induction ls with
    | nil => intro x h; exact h
    | cons a r ih => 
      intro x h
      exact ih _ (by dsimp only; rw [one, h]; rfl)
  unfold Group.writeDst
  split
  · rfl
  · split
    · split
      · rw [two]; rfl
      · dsimp only; rw [one]; rfl
    · exact three _ _ _ rfl
    · rfl

end Sys2Proof.Machine
end

