-- ==== Sys2Proof/Tests/Slice0.lean ====
section
/-! SUPPORT. Tests: what WellFormed refuses, words of the spec and what they decode to, small steps against the spec's worked cases, and
for each statement that has hypotheses a state and operands that meet them. -/

section
open Sys2Proof Sys2Proof.Machine

/- The kernel evaluations below are made one after the other: many at once ask for a thread each. -/
set_option Elab.async false

/-! ## WellFormed: a term that each check refuses -/

theorem test_wf_long_rsvd : (Instr.iaddLong ⟨1, 2, 3⟩ ⟨0, 0, 0, 0, 0, 0, 0, 0, 0, 0, 1⟩).wellFormed = false := by decide
theorem test_wf_long_pata : (Instr.iaddLong ⟨1, 2, 3⟩ ⟨0, 7, 0, 0, 0, 0, 0, 0, 0, 0, 0⟩).wellFormed = false := by decide
theorem test_wf_long_patb : (Instr.iaddLong ⟨1, 2, 3⟩ ⟨0, 0, 0, 7, 0, 0, 0, 0, 0, 0, 0⟩).wellFormed = false := by decide
theorem test_wf_long_ok : (Instr.iaddLong ⟨1, 2, 3⟩ ⟨0, 6, 31, 6, 31, 1, 1, 0, 1, 3, 0⟩).wellFormed = true := by decide
theorem test_wf_table : (Instr.bfn3 ⟨1, 2, 3⟩ ⟨0, 7, 0, 0, 0, 0, 0, 0, 0, 0, 0⟩).wellFormed = true
    ∧ (Instr.bfn3 ⟨1, 2, 3⟩ ⟨0, 0, 0, 7, 0, 0, 0, 0, 0, 0, 0⟩).wellFormed = false := by decide
theorem test_wf_guard_byte : (Instr.sel ⟨1, 2, 3⟩ ⟨0x12, 0, 0, 0, 0, 0, 0, 0, 0, 0, 0⟩).wellFormed = false := by decide
theorem test_wf_width : (Instr.stLong ⟨1, 2, 0, 0, 3⟩ ⟨0, 6, 0, 0, 0, 0, 0, 0, 0, 0⟩).wellFormed = false
    ∧ (Instr.stLong ⟨1, 2, 0, 0, 3⟩ ⟨0, 5, 0, 0, 0, 0, 0, 0, 0, 0⟩).wellFormed = true := by decide
theorem test_wf_memory_rsvd : (Instr.stLong ⟨1, 2, 0, 0, 3⟩ ⟨0, 2, 0, 0, 0, 0, 0, 0, 0, 1⟩).wellFormed = false := by decide
theorem test_wf_load_guard : (Instr.ld ⟨1, 2, 1, 0, 3⟩).wellFormed = false ∧ (Instr.ldu ⟨1, 2, 0, 1, 3⟩).wellFormed = false := by decide
theorem test_wf_atomic_cmp : (Instr.aadd ⟨1, 2, 0, 0, 3⟩ ⟨4, 5, 2, 0, 0, 0, 0, 0, 0, 0, 0⟩).wellFormed = false
    ∧ (Instr.acas ⟨1, 2, 0, 0, 3⟩ ⟨4, 5, 2, 0, 0, 0, 0, 0, 0, 0, 0⟩).wellFormed = true := by decide
theorem test_wf_atomic_rsvd : (Instr.acas ⟨1, 2, 0, 0, 3⟩ ⟨4, 5, 2, 0, 0, 0, 0, 0, 0, 0, 2⟩).wellFormed = false := by decide
theorem test_wf_atomic_width : (Instr.acas ⟨1, 2, 0, 0, 3⟩ ⟨4, 5, 7, 0, 0, 0, 0, 0, 0, 0, 0⟩).wellFormed = false := by decide
theorem test_wf_reduction_data : (Instr.radd ⟨1, 2, 0, 0, 3⟩ ⟨4, 0, 2, 0, 0, 0, 0, 0, 0, 0, 0⟩).wellFormed = false
    ∧ (Instr.radd ⟨0, 2, 0, 0, 3⟩ ⟨4, 0, 2, 0, 0, 0, 0, 1, 0, 0, 0⟩).wellFormed = false
    ∧ (Instr.radd ⟨0, 2, 0, 0, 3⟩ ⟨4, 0, 2, 0, 0, 0, 0, 0, 0, 0, 0⟩).wellFormed = true := by decide
theorem test_wf_call_guard : (Instr.call ⟨1, 0, 4⟩).wellFormed = false ∧ (Instr.div ⟨0, 2, 4⟩).wellFormed = false := by decide
theorem test_wf_barrier : (Instr.bar ⟨0, 0x00⟩).wellFormed = false ∧ (Instr.bar ⟨0, 0x28⟩).wellFormed = false ∧ (Instr.bar ⟨0, 0x34⟩).wellFormed = false
    ∧ (Instr.bar ⟨0, 0x51⟩).wellFormed = false ∧ (Instr.bar ⟨1, 0x11⟩).wellFormed = false ∧ (Instr.bar ⟨0, 0x33⟩).wellFormed = true := by decide
theorem test_wf_queue : (Instr.qpop ⟨4, 1, 3, 0, 2⟩).wellFormed = false ∧ (Instr.qcnt ⟨0x87, 0, 0, 1, 2⟩).wellFormed = false := by decide
theorem test_wf_engine : (Instr.cpy ⟨1, 2, 0x84, 0x86⟩ ⟨0x8a, 0x11, 1, 0, 0, 0⟩).wellFormed = false
    ∧ (Instr.cpy ⟨1, 2, 0x84, 0x86⟩ ⟨0x8a, 0x11, 0, 0, 1, 0⟩).wellFormed = false ∧ (Instr.cpy ⟨1, 2, 0x84, 0x86⟩ ⟨0x8a, 0x11, 0, 0, 0, 1⟩).wellFormed = false := by decide
theorem test_wf_matrix_bar : (Instr.mma ⟨0, 8, 8, 1, 0⟩ ⟨0x94, 0x95, 0x96, 1, 7, 1, 0⟩).wellFormed = false
    ∧ (Instr.mma ⟨0, 8, 8, 1, 0⟩ ⟨0x94, 0x95, 0x96, 1, 8, 1, 0⟩).wellFormed = true ∧ (Instr.mma ⟨0, 8, 8, 1, 0⟩ ⟨0x94, 0x95, 0x96, 1, 0, 1, 1⟩).wellFormed = false := by decide
theorem test_wf_drain : (Instr.adrn ⟨2, 1, 0x84, 0x86⟩ ⟨0x88, 0, 1, 0⟩).wellFormed = false ∧ (Instr.adrn ⟨2, 0, 0x84, 0x86⟩ ⟨0x88, 1, 1, 0⟩).wellFormed = false
    ∧ (Instr.adrn ⟨2, 0, 0x84, 0x86⟩ ⟨0x88, 0, 1, 2⟩).wellFormed = false ∧ (Instr.adrn ⟨2, 0, 0x84, 0x86⟩ ⟨0x88, 0, 1, 0⟩).wellFormed = true := by decide

/-! ## Words that the spec writes out -/

/-- 12_encoding: the worked clause at 0x200, an ST and an AADD of two words each. -/
theorem test_word_st : decodeInstr 0x81092004#32 (some 0x00085600#32) = .ok (.stLong ⟨9, 2, 0, 0, 4⟩ ⟨8, 2, 5, 2, 0, 0, 0, 0, 0, 0⟩) := by decide
theorem test_word_aadd : decodeInstr 0x92035106#32 (some 0x07005600#32) = .ok (.aadd ⟨3, 5, 0, 1, 6⟩ ⟨7, 0, 2, 5, 2, 0, 0, 0, 0, 0, 0⟩) := by decide
/-- The header of that clause: CNT 2, CLS 001, LEN 0x0003. -/
theorem test_word_header : headerCnt 0xa4400003#32 = 2 ∧ headerCls 0xa4400003#32 = 1 ∧ headerWk 0xa4400003#32 = 0 ∧ headerLen 0xa4400003#32 1 = true
    ∧ headerLen 0xa4400003#32 2 = false ∧ headerOk 0xa4400003#32 = true := by decide
/-- 11_assembler, R239: FFMA v8, v1, v5, v2 with KEEP, and FADD v3, n0, v2. -/
theorem test_word_ffma : decodeInstr 0x43080105#32 (some 0x02000010#32) = .ok (.ffmaLong ⟨8, 1, 5⟩ ⟨2, 0, 0, 0, 0, 0, 0, 0, 1, 0, 0⟩) := by decide
theorem test_word_fadd : decodeInstr 0x4003c002#32 none = .ok (.fadd ⟨3, 0xc0, 2⟩) := by decide
/-- R275, R277, R292, R294: ICMP.lt f2, v1, v3; BFN3 v7, v1, v2, v3, 0xac; PLOG.andn f3, f1, f2; SSEL s8, s1, 7, s9. -/
theorem test_word_icmp : decodeInstr 0x2d120103#32 none = .ok (.icmp ⟨0x12, 1, 3⟩) := by decide
theorem test_word_bfn3 : decodeInstr 0x3d070102#32 (some 0x03ac0000#32) = .ok (.bfn3 ⟨7, 1, 2⟩ ⟨3, 5, 12, 0, 0, 0, 0, 0, 0, 0, 0⟩)
    ∧ bfn3Table ⟨3, 5, 12, 0, 0, 0, 0, 0, 0, 0, 0⟩ = 0xac := by decide
theorem test_word_plog : decodeInstr 0x791b0102#32 none = .ok (.plog ⟨0x1b, 1, 2⟩) := by decide
theorem test_word_ssel : decodeInstr 0xdb8881e7#32 (some 0x89000000#32) = .ok (.ssel ⟨0x88, 0x81, 0xe7⟩ ⟨0x89, 0, 0, 0, 0, 0, 0, 0, 0, 0, 0⟩) := by decide
/-- R286, R289: F2Q n0, v3, v4; FRED v5, v2.mirror(2). -/
theorem test_word_f2q : decodeInstr 0x64c00304#32 none = .ok (.f2q ⟨0xc0, 3, 4⟩) := by decide
theorem test_word_fred : decodeInstr 0x760502e0#32 (some 0xe0820000#32) = .ok (.fredLong ⟨5, 2, 0xe0⟩ ⟨0xe0, 4, 2, 0, 0, 0, 0, 0, 0, 0, 0⟩) := by decide
/-- R302, R307: LDA v5 and ACAS v3 of the worked cases. -/
theorem test_word_lda : decodeInstr 0x83052004#32 none = .ok (.lda ⟨5, 2, 0, 0, 4⟩) := by decide
theorem test_word_acas : decodeInstr 0x91034002#32 (some 0x07085600#32) = .ok (.acas ⟨3, 4, 0, 0, 2⟩ ⟨7, 8, 2, 5, 2, 0, 0, 0, 0, 0, 0⟩) := by decide
/-- R312, R315: LINK g4 of index 5, GLD g3 of s7, GMOV g3 of g7, UNBIND.revoke s8 of index 5. -/
theorem test_word_link : decodeInstr 0xa0004005#32 none = .ok (.link ⟨0, 4, 5⟩) ∧ decodeInstr 0xa1873000#32 none = .ok (.gld ⟨0x87, 3, 0⟩)
    ∧ decodeInstr 0xa2003700#32 none = .ok (.gmov ⟨0, 3, 0x700⟩) ∧ decodeInstr 0xaa881005#32 none = .ok (.unbind ⟨0x88, 1, 5⟩) := by decide
/-- R318: CPY g13 of s4 from g3 of s6, s10 bytes, bt1. -/
theorem test_word_cpy : decodeInstr 0xa6d38486#32 (some 0x8a440000#32) = .ok (.cpy ⟨13, 3, 0x84, 0x86⟩ ⟨0x8a, 0x11, 0, 0, 0, 0⟩) := by decide
/-- R328, R331: (f2) BRA and (!f1) BRU by 4, DIV by 8, MOV v1, 2, JOIN. -/
theorem test_word_bra : decodeInstr 0x01200004#32 none = .ok (.bra ⟨0, 2, 4⟩) ∧ decodeInstr 0x02900004#32 none = .ok (.bru ⟨1, 1, 4⟩)
    ∧ decodeInstr 0x06000008#32 none = .ok (.div ⟨0, 0, 8⟩) := by decide
theorem test_word_mov : decodeInstr 0x7001e2e0#32 none = .ok (.mov ⟨1, 0xe2, 0xe0⟩) := by decide
theorem test_word_join : decodeInstr 0x07000000#32 none = .ok .join ∧ decodeInstr 0x09000007#32 none = .ok .trap ∧ decodeInstr 0x0a000001#32 none = .ok .rtt
    ∧ encode .trap ⟨7⟩ = [0x09000007#32] := by decide
/-- R335, R338, R340 to R342. -/
theorem test_word_barriers : decodeInstr 0x10000011#32 none = .ok (.bar ⟨0, 0x11⟩) ∧ decodeInstr 0x11000020#32 none = .ok (.bara ⟨0, 0x20⟩)
    ∧ decodeInstr 0x12000031#32 none = .ok (.barw ⟨0, 0x31⟩) ∧ decodeInstr 0x13840011#32 none = .ok (.barexp ⟨0x84, 0x11⟩) := by decide
theorem test_word_events : decodeInstr 0x1400004d#32 none = .ok (.evsig ⟨0, 77⟩) ∧ decodeInstr 0x15890051#32 none = .ok (.evwait ⟨0x89, 0x51⟩)
    ∧ decodeInstr 0x16820051#32 none = .ok (.evtest ⟨0x82, 0x51⟩) := by decide
theorem test_word_waitp : decodeInstr 0x17e00003#32 none = .ok (.waitp ⟨0xe0, 3⟩) ∧ decodeInstr 0x18010000#32 none = .ok (.elect ⟨1, 0⟩)
    ∧ decodeInstr 0x1985001a#32 none = .ok (.pmask ⟨0x85, 0x1a⟩) := by decide
/-- R343, R346, R349. -/
theorem test_word_tasks : decodeInstr 0xc0063002#32 none = .ok (.tspawn ⟨6, 3, 0, 0, 2⟩) ∧ decodeInstr 0xc7834086#32 none = .ok (.launch ⟨0x83, 4, 0x86⟩) := by decide
theorem test_word_queues : decodeInstr 0xc4040302#32 none = .ok (.qpop ⟨4, 0, 3, 0, 2⟩) ∧ decodeInstr 0xc5040302#32 none = .ok (.qpush ⟨4, 0, 3, 0, 2⟩)
    ∧ decodeInstr 0xc6870002#32 none = .ok (.qcnt ⟨0x87, 0, 0, 0, 2⟩) := by decide
/-- R354 to R361. -/
theorem test_word_system : decodeInstr 0xe0840001#32 none = .ok (.csrr ⟨0x84, 1⟩) ∧ decodeInstr 0xe08a0040#32 none = .ok (.csrr ⟨0x8a, 0x40⟩)
    ∧ decodeInstr 0xe1e00002#32 none = .ok (.csrw ⟨0xe0, 2⟩) ∧ decodeInstr 0xe2000033#32 none = .ok (.sethand ⟨0, 0x33⟩)
    ∧ decodeInstr 0xe300001c#32 none = .ok (.rclaim ⟨0, 28⟩) ∧ decodeInstr 0xe4000038#32 none = .ok (.rgive ⟨0, 56⟩)
    ∧ decodeInstr 0xe5040000#32 none = .ok (.ixset ⟨4, 0⟩) ∧ encode .wellfl ⟨0x11⟩ = [0xe6000011#32] ∧ encode .kill ⟨0x080400⟩ = [0xe7080400#32] := by decide
/-- R364 to R377. -/
theorem test_word_tiles : decodeInstr 0xb0840008#32 none = .ok (.tclm ⟨0x84, 0, 0, 8⟩) ∧ decodeInstr 0xb1000088#32 none = .ok (.trel ⟨0, 0, 1, 8⟩)
    ∧ decodeInstr 0xb2863085#32 none = .ok (.tld ⟨0x86, 0x30, 1, 5⟩) := by decide
theorem test_word_mma : decodeInstr 0xb302244c#32 (some 0x94959644#32) = .ok (.mma ⟨1, 9, 9, 1, 0⟩ ⟨0x94, 0x95, 0x96, 0, 8, 1, 0⟩) := by decide
theorem test_word_windows : decodeInstr 0xb5828301#32 none = .ok (.awin ⟨0x82, 0x83, 0, 1⟩) ∧ decodeInstr 0xb6828300#32 none = .ok (.aclr ⟨0x82, 0x83, 0, 0⟩)
    ∧ decodeInstr 0xb8060203#32 none = .ok (.ald ⟨6, 2, 3⟩) ∧ decodeInstr 0xb9060203#32 none = .ok (.ast ⟨6, 2, 3⟩) := by decide
theorem test_word_adrn : decodeInstr 0xb7208486#32 (some 0x88000004#32) = .ok (.adrn ⟨2, 0, 0x84, 0x86⟩ ⟨0x88, 0, 1, 0⟩)
    ∧ encode .mpair ⟨1⟩ = [0xba000001#32] ∧ encode .munpair ⟨0⟩ = [0xbb000000#32] := by decide
/-- R265: an opcode without an assignment is no instruction, nor is an engine command of one word (R256 step 2). -/
theorem test_word_unassigned : decodeInstr 0x1a000000#32 none = .error .opc ∧ decodeInstr 0xee000000#32 none = .error .opc ∧ decodeInstr 0xff000000#32 none = .error .opc
    ∧ decodeInstr 0xa6d38486#32 none = .error .form := by decide

/-! ## Small states -/

/-- A group of 32 lanes at an instruction whose first word is `w`, and its clause. -/
def tg (w : Word) : Group := probeGroup w none
def tc (w : Word) : Clause := { ofs := 0#48, hdr := soleHeader w false, words := [w], begun := true, skipWait := false }
def tk : GKey := ⟨0, 0, 0⟩
/-- The state in which a group issues from slot 0 of core 0 of die 0. -/
def ts (g : Group) : State := (State.reset.putTeam 0 probeTeam).putGroup tk g

theorem test_ts_group (g : Group) : (ts g).group? tk = some g := State.putGroup_group?_self _ _ _
theorem test_ts_issues (g : Group) (c : Clause) (h : g.clause = some c) : State.issues (ts g) tk g c := ⟨rfl, test_ts_group g, h⟩
theorem test_issues (w : Word) : State.issues (ts (tg w)) tk (tg w) (tc w) := test_ts_issues _ _ rfl
/-- Nothing is pending in a group whose list of pending writes is empty. -/
theorem test_nothing_pending (g : Group) (h : g.pend = []) (t : Touch) : g.pending t = false := by simp [Group.pending, h]

/-! ## The hypotheses of the statements can be met: compute and control -/

/-- For each opcode of 13_isa_compute an instruction that no check stops. -/
theorem test_wit_compute_results : State.issues (ts (tg 0)) tk (tg 0) (tc 0) ∧ (tg 0).pend = [] :=
  ⟨test_issues 0, by decide +kernel⟩
theorem test_wit_compute_binary : ∀ op ∈ [0x20, 0x21, 0x22, 0x23, 0x24, 0x26, 0x28, 0x29, 0x2a, 0x2b, 0x2c, 0x2d, 0x2e, 0x30, 0x31, 0x32, 0x33, 0x34, 0x35, 0x36, 0x37,
      0x3b, 0x40, 0x41, 0x42, 0x44, 0x45, 0x46, 0x50, 0x51, 0x53, 0x54, 0x55, 0x62, 0x68],
    (vShape op).isSome = true ∧ (tg 0).vTrap (vShort ⟨3, 1, 2⟩) op (shapeOf op) = none := by decide +kernel
theorem test_wit_compute_three : ∀ op ∈ [0x25, 0x26, 0x3c, 0x3d, 0x43, 0x52, 0x56, 0x64, 0x66, 0x71],
    (vShape op).isSome = true ∧ (tg 0).vTrap (vLong ⟨3, 1, 2⟩ ⟨4, 0, 0, 0, 0, 0, 0, 0, 0, 0, 0⟩) op (shapeOf op) = none := by decide +kernel
theorem test_wit_compute_unary : ∀ op ∈ [0x27, 0x38, 0x39, 0x3a, 0x47, 0x48, 0x49, 0x4a, 0x4b, 0x4c, 0x4d, 0x4e, 0x4f, 0x60, 0x61, 0x63, 0x65, 0x67, 0x69, 0x70, 0x72, 0x73,
      0x74, 0x75, 0x76, 0x78],
    (vShape op).isSome = true ∧ (tg 0).vTrap (vShort ⟨3, 1, 0xe0⟩) op (shapeOf op) = none := by decide +kernel
theorem test_wit_compute_scalar : ∀ op ∈ [0xd0, 0xd1, 0xd2, 0xd3, 0xd4, 0xd5, 0xd6, 0xd7, 0xdc, 0xdd, 0xd8, 0xdb],
    (vShape op).isSome = true ∧ (tg 0).vTrap (vLong ⟨if op = 0xd8 then 2 else 0x83, 0x81, 0x82⟩ ⟨if op = 0xdb then 0x84 else 0xe0, 0, 0, 0, 0, 0, 0, 0, 0, 0, 0⟩) op (shapeOf op) = none := by
  decide +kernel
theorem test_wit_compute_moves : (tg 0).vTrap (vShort ⟨0x83, 1, 0xe3⟩) 0x77 (shapeOf 0x77) = none ∧ (tg 0).vTrap (vShort ⟨3, 1, 2⟩) 0x79 (shapeOf 0x79) = none := by decide +kernel
theorem test_wit_ResultsReachTheirDestination : specKind (vShort ⟨3, 1, 2⟩).d = .reg 3 ∧ (vShort ⟨3, 1, 2⟩).deadA = false ∧ (vShort ⟨3, 1, 2⟩).deadB = false
    ∧ (vShort ⟨3, 1, 2⟩).deadC = false ∧ (tg 0).wellOk ∧ (tg 0).useReg (useOf 3 false 1) 31 = some 3 ∧ (tg 0).useReg (useOf 0xc8 false 1) 0 = some 0
    ∧ (tg 0).exec.getLsbD 31 = true ∧ (Group.exec { tg 0 with exec := 1#32 }).getLsbD 31 = false :=
  ⟨by decide, by decide, by decide, by decide, ⟨by decide, fun _ h => nomatch h⟩, by decide, by decide, by decide, by decide⟩
theorem test_wit_VectorFrame : vForm (.iadd ⟨3, 1, 2⟩) = some (0x20, vShort ⟨3, 1, 2⟩) ∧ State.issues (ts (tg 0)) tk (tg 0) (tc 0) ∧ (tg 0).clearV 0x20 (vShort ⟨3, 1, 2⟩)
    ∧ (tg 0).wellOk := ⟨rfl, test_issues 0, ⟨by decide, by decide +kernel, by decide +kernel⟩, by decide, fun _ h => nomatch h⟩
theorem test_wit_RegisterOutsideWindowTraps : (tg 0).window = 64 ∧ specKind (vShort ⟨3, 64, 2⟩).a = .reg 64 ∧ (vShort ⟨3, 64, 2⟩).static 0x20 (shapeOf 0x20) = none
    ∧ (tg 0).pending ((tg 0).vTouch (vShort ⟨3, 64, 2⟩) (shapeOf 0x20)) = false ∧ (∃ q, (shapeOf 0x20).a = .src q) :=
  ⟨by decide +kernel, by decide, by decide +kernel, by decide +kernel, _, rfl⟩
theorem test_wit_ImmediateFormResults : isLaneDst 3#8 = true ∧ (tg 0).pend = [] ∧ (tg 0).check128 [useOf 3#8 true 1] = none ∧ (tg 0).check128 [useOf 3#8 false 1] = none
    ∧ (0xbf#8).toNat = 0x80 + 63 := by decide +kernel
/-- A group with F1 true in lane 0, and an entry on its reconvergence stack. -/
def tgBra (stk : List Recon) : Group := { tg 0 with pr := [(1, 1#32)], stack := stk }
def tRecon (split : Bool) (pmask : Word) : Recon := { pc := 64#48, sel := 0#16, m := 3#32, h := 0#32, split := split, ppc := 96#48, psel := 0#16, pmask := pmask }
theorem test_wit_BranchesTakeTheirTarget : (tg 0).guarded false 0 = (tg 0).exec ∧ (tg 0).guarded true 0 = 0#32 ∧ (tg 0).exec ≠ 0#32
    ∧ (tgBra [tRecon false 0]).guarded false 1 ≠ (tg 0).exec ∧ (tgBra [tRecon false 0]).guarded false 1 ≠ 0#32 ∧ (tRecon false 0).split = false
    ∧ (tgBra []).stack = [] ∧ (tgBra [tRecon true 0]).guarded false 1 ≠ (tg 0).exec ∧ (tRecon true 0).split = true := by decide +kernel

/-- A state whose context 0 has pages of 1 GiB, 0 to 3, all at HBM offset 0 of the die, with every right. Rubric entry 5, in page 0, is BOUND to selector 1, whose
descriptor, in page 1, is of code in page 3 with a kernel record; selector 2 names 64 KiB of data in page 2. -/
def tp (g : Group) : State :=
  (((((((ts g).putCtx 0 0 { Ctx.reset with sdtb := 0x40200000#64, rbtb := 0x10000#64 }).writeBytes (.hbm 0 0) [0x01#8, 0x10#8]).writeBytes (.hbm 0 0x1000)
    [0x1f#8, 0#8, 0#8, 0#8, 0#8, 0#8, 0#8, 0#8, 0x1f#8, 0#8, 0#8, 0#8, 0#8, 0#8, 0#8, 0#8, 0x1f#8, 0#8, 0#8, 0#8, 0#8, 0#8, 0#8, 0#8, 0x1f#8]).writeBytes
    (.hbm 0 0x10050) [2#8, 0#8, 0#8, 0#8, 1#8]).writeBytes (.hbm 0 0x200020) (leBytes 8 0xc0300000 ++ leBytes 8 0x1000 ++ leBytes 8 0x15 ++ leBytes 8 0xc0300040)).writeBytes
    (.hbm 0 0x200040) (leBytes 8 0x80400000 ++ leBytes 8 0x10000 ++ leBytes 8 0x0f))

theorem test_tp_group (g : Group) : (tp g).group? tk = some g := test_ts_group g
theorem test_tp_issues (g : Group) (c : Clause) (h : g.clause = some c) : State.issues (tp g) tk g c := ⟨rfl, test_tp_group g, h⟩

/-- A group in a segment of supervisor code, selector 1. -/
def tgCode (w : Word) : Group :=
  { tg w with seg := [(3, { ownSeg 2 0 true 0x10000 with base := 0x80400000#57 }), (15, { SegReg.null with sel := 1#16, kind := 1#3, x := true, r := true, s := true })] }
theorem test_wit_CallsSaveAndReturn_call : (tg 0).pending (touchScalars [60, 61]) = false := by decide +kernel
/-- What a read answers, where it answers bytes: `p = (.ok (val p), p.2)` where `isOk p`. -/
def isOk {α : Type} (p : Except XFault α × State) : Bool := match p.1 with | .ok _ => true | .error _ => false
def val {α : Type} [Inhabited α] (p : Except XFault α × State) : α := match p.1 with | .ok x => x | .error _ => default
theorem test_isOk {α : Type} [Inhabited α] (p : Except XFault α × State) (h : isOk p = true) : p = (.ok (val p), p.2) := by
  obtain ⟨_ | x, s⟩ := p
  · cases h
  · rfl
def segVal (p : Except XFault (SegReg × Nat) × State) : SegReg × Nat := match p.1 with | .ok x => x | .error _ => (SegReg.null, 0)
def tpEntry : Except XFault (List Byte) × State := (tp (tg 0)).readLin ((tp (tg 0)).whoOf tk (tg 0)) ((tp (tg 0)).rubricLin ((tp (tg 0)).whoOf tk (tg 0)) 5) 8
def tpCode : Except XFault (SegReg × Nat) × State := tpEntry.2.loadSeg ((tp (tg 0)).whoOf tk (tg 0)) (tg 0) (BitVec.ofNat 16 (entryOf (val tpEntry)).sel)
theorem test_wit_CallsSaveAndReturn_callr : (tp (tg 0)).acquiring tk (tg 0) = false ∧ isOk tpEntry = true ∧ (entryOf (val tpEntry)).state = 2 ∧ isOk tpCode = true
    ∧ (segVal tpCode).1.kind = 1#3 ∧ ((segVal tpCode).1.s = true → (tg 0).supervisor = true) := by decide +kernel
theorem test_wit_CallsSaveAndReturn_holds : (tp (tg 0)).tableHolds tk (tg 0) ((tp (tg 0)).whoOf tk (tg 0)) ((tp (tg 0)).rubricLin ((tp (tg 0)).whoOf tk (tg 0)) 5) 8 = false
    ∧ tpEntry.2.selHolds tk (tg 0) ((tp (tg 0)).whoOf tk (tg 0)) (BitVec.ofNat 16 (entryOf (val tpEntry)).sel) = false := by decide +kernel
theorem test_wit_CallsSaveAndReturn_ret : (tgCode 0x08000000).fieldP (tc 0x08000000) = 0#24
    ∧ (({ tgCode 0 with sc := [(60, 64#32), (61, 0x10000#32)] } : Group).scalar 61).extractLsb' 16 16 = ((tgCode 0).segReg 15).sel ∧ ((tgCode 0).segReg 15).sel ≠ 0#16
    ∧ (({ tgCode 0 with sc := [(60, 64#32), (61, 0x10000#32)] } : Group).scalar 60).extractLsb' 0 2 = 0#2 := by decide +kernel
theorem test_wit_DivergenceAndReconvergence : (tg 0).stack.length < 16 ∧ (tg 0).stack.length + (tg 0).spilled < 80 ∧ (tg 0x07000000).fieldP (tc 0x07000000) = 0#24
    ∧ (tRecon true 4).split = true ∧ (tRecon true 4).pmask ≠ 0#32 ∧ (tRecon true 4).psel = ((tgBra [tRecon true 4]).segReg 15).sel
    ∧ (tRecon true 0).pmask = 0#32 ∧ (tRecon true 0).sel = ((tgBra [tRecon true 0]).segReg 15).sel ∧ (tgBra []).stack = [] ∧ (tg 0).spilled = 0 := by decide +kernel
theorem test_wit_ExitEndsLanes : (tg 0).task = none ∧ (tg 0).spilled = 0 ∧ (ts (tg 0)).team? (tg 0).team = some probeTeam ∧ (∀ e ∈ (tg 0).stack, (e.m ||| e.pmask) = 0#32)
    ∧ (tRecon false 0).split = false ∧ (tRecon false 0).m &&& ~~~({ tgBra [tRecon false 0] with exec := 1#32 } : Group).exec &&& (tgBra []).population ≠ 0#32
    ∧ (tRecon false 0).sel = ((tgBra [tRecon false 0]).segReg 15).sel := by decide +kernel
theorem test_wit_SmallControlResults : (tg 0).fieldP (tc 0) = 0#24 ∧ (7#8).toNat < 8 ∧ (8#8).toNat ≥ 8 ∧ (0xbf#8).toNat = 0x80 + 63 ∧ (0x1f#16).toNat < 32 ∧ 32 ≤ (0x20#16).toNat
    ∧ isScalar 0x7f#8 = false ∧ (tg 0).pend = [] := by decide +kernel
theorem test_wit_RaisingInstructionsTrap : ((tg 0x090000ff).fieldP (tc 0x090000ff)).toNat < 256 ∧ ((tg 0x0b00ffff).fieldP (tc 0x0b00ffff)).toNat < 65536
    ∧ (tg 0).privileged = false ∧ (tg 0).supervisor = false ∧ 0x100 ≤ (0x1ff#16).toNat % 4096 ∧ (0x1ff#16).toNat % 4096 < 0x200 := by decide +kernel
/-- A team with one bank of scratchpad, and a group of it whose handler is at 0x40. -/
def tTeam : Team := { probeTeam with banks := [0] }
def tgTrap : Group := { tg 0 with trapv := 0x40#32 }
theorem test_wit_TrapEntersHandler : tgTrap.clause = some (tc 0) ∧ tgTrap.task = none ∧ ((ts tgTrap).putTeam 0 tTeam).team? tgTrap.team = some tTeam ∧ tgTrap.trapv ≠ 0xffffffff#32
    ∧ tgTrap.handler = none ∧ tgTrap.tframe.toNat + 512 ≤ tTeam.scratchLimit := by decide +kernel
def tTask (spec : Bool) : Task :=
  { record := { id := 9, ts := 4#48, nl := 32, ek := false, u := false, entry := 0#32, budget := 0#32, args := [1#32, 2#32, 3#32, 4#32], code := SegReg.null, tb := none,
                floor := { ts := 0#48, tb := 0#16 }, parent := none, launch := 0, node := 0 },
    key := { ts := 4#48, tb := 0#16 }, spec := spec, budget := 0#32, draft := [], budgetOut := false, entered := true, drainAt := 0, ranAt := 0 }
theorem test_wit_TrapWithoutEntry : (tg 0).trapv = 0xffffffff#32 ∧ (tg 0).task = none ∧ (ts (tg 0)).team? (tg 0).team = some probeTeam ∧ probeTeam.scratchLimit < (tg 0).tframe.toNat + 512
    ∧ (tTask true).spec = true := by decide +kernel
theorem test_wit_ExitEndsLanes_task : ({ tg 0 with task := some (tTask true) } : Group).task = some (tTask true) ∧ (tg 0x05000000).fieldP (tc 0x05000000) = 0#24 := by decide +kernel
def tgRtt (p : Word) : Group := { tg p with handler := some { sel := 0#16, ofs := 0#48, pos := 0, clause := some (tc 0), kind := .instr, sup := false, half := .fresh, cause := .brk, frame := 0#32, found := none } }
theorem test_wit_TrapReturnRestores : (tgRtt 0x0a000001).privileged = true ∧ ((tgRtt 0x0a000001).fieldP (tc 0x0a000001)).toNat < 2 ∧ ((tgRtt 0).segReg 15).sel = 0#16
    ∧ (ts (tgRtt 0)).team? (tgRtt 0).team = some probeTeam ∧ headerCnt (tc 0).hdr = 0 + 1 ∧ 0 < headerCnt (tc 0).hdr ∧ (tgRtt 0x0a000000).fieldP (tc 0x0a000000) = 0#24
    ∧ (tgRtt 0x0a000001).fieldP (tc 0x0a000001) = 1#24 ∧ 0 + 1 < headerCnt 0xa4400003#32 := by decide +kernel
theorem test_wit_BarrierAndPathWaits : (0x33#16).toNat < 64 ∧ bselOk ((0x33#16).extractLsb' 0 6) = true ∧ ({ probeTeam with krec := { probeKernel with gres := true } } : Team).barrier 0 0x33#6 = some (.grid 0 0 3)
    ∧ probeTeam.barrier 0 0x1f#6 = some (.team 0 15) ∧ (0x1f#16).toNat / 16 ≠ 3 ∧ (tg 0).released = true ∧ ((ts (tg 0)).barrier (.team 0 15)).arrived.contains tk = false ∧ (tg 0).half = .fresh
    ∧ (ts (tg 0)).barWait (tg 0) (.team 0 15) = .met ∧ ({ tg 0 with half := .sent } : Group).half ≠ .fresh
    ∧ (ts (tg 0)).barWait { tg 0 with arrivals := [(.team 0 15, 0)] } (.team 0 15) = .wait 0 ∧ isScalarOrImm 0x81#8 = true := by decide +kernel
theorem test_wit_BarrierAndPathWaits_waitp : (3#16).toNat < 4 ∧ isScalarOrImm 0xe0#8 = true ∧ (tg 0).path 3 ≤ ((tg 0).uniform 0xe0#8).toNat
    ∧ ((tg 0).uniform 0xe0#8).toNat < ({ tg 0 with fd := 1 } : Group).path 3 ∧ headerCnt (tc 0).hdr ≤ 0 + 1 ∧ ({ tg 0 with fd := 1, clause := some { tc 0 with hdr := 0xa4400003#32 } } : Group).pos + 1
      < headerCnt 0xa4400003#32 := by decide +kernel
/-- A phase that is complete, of a team's barrier and of a grid's, and one that is not. -/
theorem test_wit_BarrierPhaseCompletes : ∀ b ∈ [BarKey.team 0 1, .grid 0 0 1], let s := (ts (tg 0)).putBarrier b { Barrier.reset with arrived := [tk] }
    s.members b = [tk] ∧ (s.barrier b).arrived = [tk] ∧ (s.barrier b).e.toNat ≤ (s.barrier b).b.toNat ∧ s.unplaced 0 0 = false ∧ ((ts (tg 0)).barrier b).arrived = [] := by decide +kernel
theorem test_wit_SpecialRegisterAccess_read : (0xbe#8).toNat = 0x80 + 62 ∧ csrInfo 0x000 = some (32, true) ∧ csrInfo 0x005 = some (64, false) ∧ 62 % 2 = 0
    ∧ (tgCode 0).supervisor = true ∧ (tgCode 0).settled = true ∧ csrInfo 0x002 = some (32, true) ∧ csrInfo 0x100 = some (32, true) := by decide +kernel
theorem test_wit_SpecialRegisterAccess_write : isScalarOrImm 0xe0#8 = true ∧ (0xffff#32).toNat < 65536 ∧ (0x3c#32).toNat % 4 = 0 ∧ (0x40#32).toNat % 64 = 0
    ∧ ixwBad 0x00010000#32 = false ∧ ixwBad 0x00010001#32 = true ∧ (tgCode 0).supervisor = true ∧ (∀ w, csrInfo 0x003 ≠ some (w, true)) ∧ csrBad 0x001 0x10000#32 = true :=
  ⟨by decide, by decide, by decide, by decide, by decide, by decide, by decide, fun w h => by simp [csrInfo] at h, by decide⟩
theorem test_wit_RegisterWindowResults : (tg 0).task = none ∧ (tg 0).half ≠ .done ∧ (tg 0).window + 192 ≤ 256 ∧ (192#16).toNat ≤ (ts (tg 0)).freeRegs (penOf tk) ∧ ((ts (tg 0)).pen (penOf tk)).claims = []
    ∧ ((ts (tg 0)).putGroup ⟨0, 0, 1⟩ (tg 0)).freeRegs (penOf tk) < (192#16).toNat ∧ 0 < (56#16).toNat ∧ (56#16).toNat + 8 ≤ (tg 0).window := by decide +kernel
theorem test_wit_RegisterWindowResults_done : let g : Group := { tg 0 with half := .done }
    g.task = none ∧ g.half = .done ∧ (tg 0).half ≠ .done ∧ (0#16).toNat = 0 := by decide +kernel
theorem test_wit_RegisterWindowResults_rest : ((tg 0xe60000ff).fieldP (tc 0xe60000ff)).toNat < 256 ∧ 7 < 8 ∧ 0xff + 1 ≤ 256 ∧ 256 < 0xff + 2
    ∧ ((tg 0xe7384000).fieldP (tc 0xe7384000)).toNat = 65536 * 56 + 256 * 64 + 0 ∧ ((tg 0xe7380800).fieldP (tc 0xe7380800)).toNat = 65536 * 56 + 256 * 8 + 0 ∧ (tg 0).window = 64 := by decide +kernel
theorem test_tg_wellOk : (tg 0).wellOk := ⟨by decide, fun _ h => nomatch h⟩

/-! ## Memory -/

/-- A group with its team's scratchpad, one bank, in g13, and its team. -/
def tgScr (w : Word) : Group := { tg w with seg := [(13, ownSeg 0xfffe 3 true 4096), (15, SegReg.null)] }
def tsScr (g : Group) : State := (ts g).putTeam 0 tTeam
/-- Whether a lane reaches its bytes without a fault, for an access of a group that is no speculative task. -/
def tReaches (k : MKind) (t : State) (x : LaneTry) : Bool := x.fault k == none && match x.reach with | .runs rs => !k.reads || !t.spoiled rs | _ => false
theorem test_accessReaches (s : State) (k : GKey) (g : Group) (a : MArgs) (hs : g.speculative = false)
    (h1 : s.segCheck (s.whoOf k g) (g.segReg a.g) (mKind a.op).need true a.width a.width (g.accessOffsets a) = none)
    (h2 : (let p := s.tryLanes (s.whoOf k g) (s.team? g.team) (g.segReg a.g) (mKind a.op).need a.width (g.accessOffsets a); p.1.all (tReaches (mKind a.op) p.2)) = true) :
    ∃ xs t, s.accessReaches k g a xs t ∧ ∀ x ∈ xs, ∃ rs, x.reach = .runs rs := by
  refine ⟨_, _, ⟨h1, rfl, fun x hx => ?_⟩, fun x hx => ?_⟩ <;> have := List.all_eq_true.mp h2 x hx <;> unfold tReaches at this <;> split at this <;> simp_all ; rcases this with ⟨-, h | h⟩ <;> simp_all
theorem test_wit_AccessIssues_ready : memForm (.ld ⟨5, 13, 0, 0, 1⟩) = some (mShort 0x80 ⟨5, 13, 0, 0, 1⟩) ∧ (tgScr 0).accessReady (mShort 0x80 ⟨5, 13, 0, 0, 1⟩)
    ∧ (tgScr 0).accessReady (mShort 0x82 ⟨5, 13, 0, 0, 1⟩) ∧ (tgScr 0).accessReady (mShort 0x81 ⟨5, 13, 1, 0, 1⟩) ∧ (tgScr 0).mLanes (mShort 0x81 ⟨5, 13, 1, 0, 1⟩) = 0#32
    ∧ (tgScr 0).accessReady (mShort 0x85 ⟨0xe1, 13, 0, 0, 1⟩) ∧ mKind 0x85 = .pref := by
  unfold Group.accessReady; decide +kernel
theorem test_wit_AccessIssues_go : (tgScr 0).mLanes (mShort 0x80 ⟨5, 13, 0, 0, 1⟩) ≠ 0#32 ∧ mKind 0x80 ≠ .pref ∧ (tsScr (tgScr 0)).accessFree tk (tgScr 0) (mShort 0x80 ⟨5, 13, 0, 0, 1⟩)
    ∧ (tsScr (tgScr 0)).accessFree tk (tgScr 0) (mLong 0x81 ⟨5, 13, 0, 0, 1⟩ ⟨0, 2, 6, 3, 0, 0, 0, 0, 0, 0⟩) := by
  unfold State.accessFree; decide +kernel
theorem test_wit_AccessIssues_reach : ∃ xs t, (tsScr (tgScr 0)).accessReaches tk (tgScr 0) (mShort 0x81 ⟨5, 13, 0, 0, 1⟩) xs t ∧ ∀ x ∈ xs, ∃ rs, x.reach = .runs rs :=
  test_accessReaches _ _ _ _ (by decide) (by decide +kernel) (by decide +kernel)
/-- AccessInFlight asks for no more than that and a group that stands. -/
theorem test_wit_AccessInFlight : (tsScr (tgScr 0)).group? tk = some (tgScr 0) := test_ts_group _
theorem test_wit_AccessInFlight_path : ((tsScr (tgScr 0)).pathOf 0 [{ place := .hbm 0 64, len := 4 }]).head? = none ∧ ∃ h, ((tsScr (tgScr 0)).pathOf 0 [{ place := .hbm 1 64, len := 4 }]).head? = some h
    ∧ ((tsScr (tgScr 0)).wall h.link).closed = false := ⟨by decide +kernel, _, rfl, by decide +kernel⟩
/-- An access of one lane to 4 bytes of HBM, its group and nothing else. -/
def tLane : LaneAcc := { lane := 0, lin := 0, ofs := 0, runs := [{ place := .hbm 0 64, len := 4 }], data := [1#8, 0#8, 0#8, 0#8], cmp := [], path := [], done := false, got := none }
def tAccess (k : AccKind) (d : Dst) : Access := { g := tk, team := 0, ctx := 0, kind := k, width := 4, sel := 2, lanes := [tLane], dst := d, mask := 1#32, ord := 0, scope := 1, task := none, told := [] }
def tsAcc (e : Event) (k : AccKind) (d : Dst) : State := ((ts (tg 0)).setSubject e).setAccess [(7, tAccess k d)]
theorem test_wit_LoadReturnLands : ∀ d ∈ [Dst.lanes (List.replicate 32 5), .scalar 6], let s := tsAcc (.loadReturn 7 0) .load d
    s.subject = .loadReturn 7 0 ∧ s.access.find 7 = some (tAccess .load d) ∧ ((tAccess .load d).lanes.find? fun y => y.lane = 0) = some tLane ∧ s.group? tk = some (tg 0)
      ∧ (tg 0).task = none ∧ (tg 0).team = 0 ∧ tLane.path = [] ∧ tLane.done = false ∧ s.backOf 0 tLane.runs = [] ∧ s.mustFollow 7 (tAccess .load d) tLane.runs = false ∧ s.refreshEnd tLane.runs = none ∧ (tLane.runs.all fun r => r.place.plain) = true := by decide +kernel
/-- The same access when its lane has performed with `bs`. -/
def tBack (k : AccKind) (d : Dst) (bs : Option (List Byte)) : Access := { tAccess k d with lanes := [{ tLane with done := true, got := bs }] }
def tsBack (e : Event) (k : AccKind) (d : Dst) (bs : Option (List Byte)) : State := ((ts (tg 0)).setSubject e).setAccess [(7, tBack k d bs)]
theorem test_wit_LoadReturnLands_back : ∀ d ∈ [Dst.lanes (List.replicate 32 5), .scalar 6], ∀ bs ∈ [[1#8, 2#8, 3#8, 4#8], [1#8, 2#8, 3#8, 4#8, 5#8, 6#8, 7#8, 8#8]],
    let s := tsBack (.loadReturn 7 0) .load d (some bs)
    s.subject = .loadReturn 7 0 ∧ s.access.find 7 = some (tBack .load d (some bs)) ∧ ((tBack .load d (some bs)).lanes.find? fun y => y.lane = 0) = some { tLane with done := true, got := some bs }
      ∧ s.group? tk = some (tg 0) ∧ (tg 0).team = 0 ∧ Tbl.sorted s.access = true ∧ (∀ y ∈ (tBack .load d (some bs)).lanes, y = { tLane with done := true, got := some bs }) := by decide +kernel
theorem test_wit_StoreCompletes : let s := tsAcc (.accessComplete 7) .store .none
    s.subject = .accessComplete 7 ∧ s.access.find 7 = some (tAccess .store .none) ∧ s.group? tk = some (tg 0) ∧ (∀ x ∈ (tAccess .store .none).lanes, x.done = false ∧ x.path = [] ∧ s.backOf 0 x.runs = [])
      ∧ s.mustFollow 7 (tAccess .store .none) ((tAccess .store .none).lanes.flatMap fun x => x.runs) = false ∧ (∀ x ∈ (tAccess .store .none).lanes, ∀ r ∈ x.runs, r.place.plain = true)
      ∧ s.domains = [] ∧ s.poison = [] ∧ tLane.runs = [{ place := .hbm 0 64, len := tLane.data.length }] ∧ Memory.wf s.mem = true := by decide +kernel
theorem test_wit_StoreCompletes_back : let s := tsBack (.accessComplete 7) .store .none none
    s.subject = .accessComplete 7 ∧ s.access.find 7 = some (tBack .store .none none) ∧ s.group? tk = some (tg 0) ∧ (∀ x ∈ (tBack .store .none none).lanes, x.done = true ∧ x.got = none) := by decide +kernel
theorem test_wit_AtomicResults : ∀ k ∈ [AccKind.atomic .add, .reduce .max], let s := tsAcc (.accessComplete 7) k (.lanes (List.replicate 32 5))
    s.subject = .accessComplete 7 ∧ s.access.find 7 = some (tAccess k (.lanes (List.replicate 32 5))) ∧ s.group? tk = some (tg 0) ∧ tLane.path = []
      ∧ tLane.runs = [{ place := .hbm 0 64, len := (tAccess k .none).width }] ∧ s.mustFollow 7 (tAccess k (.lanes (List.replicate 32 5))) tLane.runs = false ∧ s.domains = [] ∧ s.poison = []
      ∧ Memory.wf s.mem = true ∧ tLane.done = false ∧ s.backOf 0 tLane.runs = [] := by decide +kernel
theorem test_wit_AtomicResults_back : let s := tsBack (.accessComplete 7) (.atomic .add) (.lanes (List.replicate 32 5)) (some [1#8, 2#8, 3#8, 4#8])
    s.subject = .accessComplete 7 ∧ s.access.find 7 = some (tBack (.atomic .add) (.lanes (List.replicate 32 5)) (some [1#8, 2#8, 3#8, 4#8])) ∧ s.group? tk = some (tg 0)
      ∧ (tg 0).team = 0 ∧ tLane.lane < 32 := by decide +kernel
/-- A store's lane of 4 bytes at linear address 0x40000040 that waits in a side log. -/
def tEntry : LogEntry := { kind := .store, lane := 0, lin := 0x40000040, data := [9#8, 0#8, 0#8, 0#8], width := 4, sel := 2, ofs := 0x40, host := false, away := none }
theorem test_wit_StoreCompletes_replay : let g : Group := { tg 0 with log := [{ tEntry with away := some 7 }] }
    (∀ e ∈ (tg 0).log, e.away ≠ some 7) ∧ g.log.head?.map (·.away) = some (some 7) ∧ (∀ y ∈ g.log.tail, y.away ≠ some 7) ∧ ((tsBack (.accessComplete 7) .store .none none).team? 0).map (·.logs) = some [] := by
  decide +kernel
theorem test_wit_FencesOrder_path : let g : Group := { tg 0 with task := some { tTask false with draft := [{ place := .hbm 0 128, mask := 1#64, bytes := [7#8] }] } }
    (0xf : Nat) % 4 = 0xf / 4 ∧ 1 % 4 ≠ 1 / 4 ∧ (tg 0).drained = true ∧ g.drained = false ∧ g.speculative = false ∧ (tg 0).speculative = false := by decide +kernel
theorem test_wit_FencesOrder : (ts (tg 0)).acquiring tk (tg 0) = false ∧ ((tg 0x0c00001b).fieldP (tc 0x0c00001b)).toNat = 27 ∧ 27 % 4 = 3 ∧ 27 / 4 % 8 = 6 ∧ (tg 0).released = true ∧ (tg 0).scOut = []
    ∧ ({ tg 0 with lsq := [(7, false)] } : Group).released = false ∧ (tg 0).log = [] ∧ (tg 0).speculative = false ∧ ({ tg 0 with task := some (tTask true) } : Group).speculative = true
    ∧ ({ tg 0 with log := [tEntry] } : Group).log ≠ [] ∧ ((tg 0x0e00000f).fieldP (tc 0x0e00000f)).toNat < 16 := by decide +kernel

/-! ## Segments and rubric entries -/

/-- A page that a TLB holds is reached whether or not the TLB still has it (log 15), and what stands after it is one of two states. -/
theorem test_translate_hit (s : State) (w : Who) (lin : Nat) (need : Need) (e : TlbEntry) (p : Place) (l l2 : Leaf) (a : Nat) (h57 : lin < 2 ^ 57)
    (hf : (s.tlb.find? fun e => e.die = w.die ∧ e.ctx = w.ctx ∧ e.page = lin / e.size ∧ (e.core = none ∨ e.core = some w.core)) = some e)
    (ha : (Leaf.allows { pte := e.pte, size := e.size } need) = true)
    (hn : (s.setFreeCtr (s.freeCtr + 1)).nested w false { pte := e.pte, size := e.size } lin need = .ok (l2, a))
    (hs : (s.ctx w.die w.ctx).s2tb.getLsbD 0 = false)
    (hl : (s.setFreeCtr (s.freeCtr + 1)).landing w l2 a need = .ok p) (hw : (s.setFreeCtr (s.freeCtr + 1)).freshWalk w lin need = .ok (p, l)) :
    ∃ u, s.translate w lin need = (.ok p, u) ∧ (u = (s.setFreeCtr (s.freeCtr + 1)).fillNested w false false lin { pte := e.pte, size := e.size }
      ∨ u = ((s.setFreeCtr (s.freeCtr + 1)).fillNested w true true lin l).fillTlb w lin l) := by
  unfold State.translate
  rw [if_neg (by omega), hf]
  have hf2 : (s.setFreeCtr (s.freeCtr + 1)).walkFor w lin need = (.ok p, ((s.setFreeCtr (s.freeCtr + 1)).fillNested w true true lin l).fillTlb w lin l) := by
    unfold State.walkFor
    rw [if_neg (by rw [show (s.setFreeCtr (s.freeCtr + 1)).ctx w.die w.ctx = s.ctx w.die w.ctx from rfl, hs]; decide), hw]
  cases hb : Config.tlbHeld s.freeCtr <;> simp [ha, hn, hl, hf2]
/-- Rubric entry 5 read, and then taken: the page is in the die's TLB by then. -/
theorem test_wit_SegmentAndRubric_link : (5#12).toNat = 5 ∧ isOk tpEntry = true ∧ (entryOf (val tpEntry)).state = 2 ∧ isOk (tpEntry.2.loadSeg (tpEntry.2.whoOf tk (tg 0)) (tg 0) 1#16) = true
    ∧ (entryOf (val ((tp (tg 0)).readLin ((tp (tg 0)).whoOf tk (tg 0)) ((tp (tg 0)).rubricLin ((tp (tg 0)).whoOf tk (tg 0)) 6) 8))).state ≠ 2 ∧ (tg 0).speculative = false := by decide +kernel
theorem test_wit_SegmentAndRubric_gld : (0xbf#8).toNat = 0x80 + 63 ∧ isOk ((tp { tg 0 with sc := [(63, 2#32)] }).loadSeg ((tp (tg 0)).whoOf tk (tg 0)) { tg 0 with sc := [(63, 2#32)] } 2#16) = true
    ∧ isScalarOrImm 0xe2#8 = true ∧ isOk ((tp (tg 0)).loadSeg ((tp (tg 0)).whoOf tk (tg 0)) (tg 0) (((tg 0).uniform 0xe2#8).setWidth 16)) = true
    ∧ (0xf00#12).toNat = 256 * 15 ∧ ((tg 0).segReg 4).sel = 0#16 ∧ 0xfffd ≤ ((tgScr 0).segReg 13).sel.toNat ∧ ((tgCode 0).segReg 3).sel ≠ 0#16
    ∧ isOk ((tp (tgCode 0)).readLin ((tp (tgCode 0)).whoOf tk (tgCode 0)) ((tp (tgCode 0)).descLin ((tp (tgCode 0)).whoOf tk (tgCode 0)) 2) 32) = true := by decide +kernel
theorem test_wit_SegmentAndRubric_refused : (tgCode 0).privileged = true ∧ (tgCode 0).speculative = false ∧ (tgCode 0).pend = [] ∧ 62 % 2 = 0
    ∧ ((tp (tgCode 0)).applyBind ((tp (tgCode 0)).whoOf tk (tgCode 0)) 5 (.bind 1)).1 = .refused := by decide +kernel
def tpWho : Who := { die := 0, core := 0, ctx := 0, gen := 0, copy := false }
def tLeaf : Leaf := { pte := 0x1f#64, size := 1073741824 }
def tHit : TlbEntry := { die := 0, core := some 0, ctx := 0, page := 0, pte := 0x1f#64, size := 1073741824 }
/-- The state after the entry is read, and the two that its page's next use can leave. -/
def tRead5 (s : State) : State := (s.readLin tpWho 0x10050 8).2
def tAgain5 (s : State) : State := (tRead5 s).setFreeCtr ((tRead5 s).freeCtr + 1)
def tUnbound (s : State) (held : Bool) : State :=
  (if held then (tAgain5 s).fillNested tpWho false false 0x10050 tLeaf else ((tAgain5 s).fillNested tpWho true true 0x10050 tLeaf).fillTlb tpWho 0x10050 tLeaf).engineWrite 0
    [{ place := .hbm 0 0x10050, len := 8 }] (entryBytes { state := 0, rgen := 1, sel := 1, evn := 0 })
/-- UNBIND of the BOUND entry 5 is applied. -/
theorem test_unbind (s : State) (hl : s.rubricLin tpWho 5 = 0x10050) (h1 : (s.readLin tpWho 0x10050 8).1 = .ok [2#8, 0#8, 0#8, 0#8, 1#8, 0#8, 0#8, 0#8])
    (hf : ((tRead5 s).tlb.find? fun e => e.die = tpWho.die ∧ e.ctx = tpWho.ctx ∧ e.page = 0x10050 / e.size ∧ (e.core = none ∨ e.core = some tpWho.core)) = some tHit)
    (hn : (tAgain5 s).nested tpWho false tLeaf 0x10050 .write = .ok (tLeaf, 0x10050)) (hs : ((tRead5 s).ctx 0 0).s2tb.getLsbD 0 = false)
    (ha : (tAgain5 s).landing tpWho tLeaf 0x10050 .write = .ok (.hbm 0 0x10050)) (hw : (tAgain5 s).freshWalk tpWho 0x10050 .write = .ok (.hbm 0 0x10050, tLeaf)) :
    ∃ e sig held, s.applyBind tpWho 5 .unbind = (.applied e sig, tUnbound s held) := by
  obtain ⟨u, hu, hv⟩ := test_translate_hit (tRead5 s) tpWho 0x10050 .write tHit (.hbm 0 0x10050) tLeaf tLeaf 0x10050 (by decide) hf (by decide) hn hs ha hw
  have h2 : entryAct .unbind (entryOf [2#8, 0#8, 0#8, 0#8, 1#8, 0#8, 0#8, 0#8]) = some ({ state := 0, rgen := 1, sel := 1, evn := 0 }, false) := by decide +kernel
  have h3 : ¬ (Place.hbm 0 65616).room < 8 := by decide +kernel
  refine ⟨entryOf [2#8, 0#8, 0#8, 0#8, 1#8, 0#8, 0#8, 0#8], false, ?_⟩
  have hx : s.applyBind tpWho 5 .unbind = (.applied (entryOf [2#8, 0#8, 0#8, 0#8, 1#8, 0#8, 0#8, 0#8]) false, u.engineWrite 0 [{ place := .hbm 0 0x10050, len := 8 }]
      (entryBytes { state := 0, rgen := 1, sel := 1, evn := 0 })) := by
    unfold State.applyBind
    simp only [hl]
    unfold tRead5 at hu
    generalize s.readLin tpWho 0x10050 8 = p at h1 hu ⊢
    obtain ⟨q, s1⟩ := p
    dsimp only at h1 hu
    subst h1
    simp [h2, State.translateRange, hu, h3, show tpWho.ctx = 0 from rfl]
  rcases hv with rfl | rfl
  · exact ⟨true, hx⟩
  · exact ⟨false, hx⟩
theorem test_wit_SegmentAndRubric_applied : ∃ e sig u, (tp (tgCode 0)).applyBind tpWho 5 .unbind = (.applied e sig, u) := by
  obtain ⟨e, sig, u, h⟩ := test_unbind (tp (tgCode 0)) (by decide +kernel) (by decide +kernel) (by decide +kernel) (by decide +kernel) (by decide +kernel) (by decide +kernel) (by decide +kernel)
  exact ⟨e, sig, _, h⟩
/-- Entry 5, the descriptors of selectors 1 and 2, and an act on the entry wait where the side log holds their bytes, and not otherwise. -/
def tgLog (lin : Nat) : Group := { tgCode 0 with log := [{ tEntry with lin := lin }] }
theorem test_wit_SegmentAndRubric_holds :
    ∀ b ∈ [true, false], let g := tgLog (if b then 0x10050 else 0x40000040); let s := tp g; let w := s.whoOf tk g
      s.tableHolds tk g w (s.rubricLin w 5) 8 = b ∧ s.bindHolds tk g w 5 .unbind = b := by decide +kernel
theorem test_wit_SegmentAndRubric_holds_desc :
    ∀ b ∈ [true, false], let g := tgLog (if b then 0x40200040 else 0x40000040); let s := tp g; let w := s.whoOf tk g
      s.descLin w 2 = 0x40200040 ∧ s.tableHolds tk g w (s.descLin w 2) 32 = b ∧ s.selHolds tk g w 2#16 = b := by decide +kernel
theorem test_wit_SegmentAndRubric_holds_link : tpEntry.2.selHolds tk (tg 0) (tpEntry.2.whoOf tk (tg 0)) (BitVec.ofNat 16 (entryOf (val tpEntry)).sel) = false
    ∧ (tp (tg 0)).tableHolds tk (tg 0) ((tp (tg 0)).whoOf tk (tg 0)) ((tp (tg 0)).rubricLin ((tp (tg 0)).whoOf tk (tg 0)) 6) 8 = false := by decide +kernel

/-! ## Engines, tiles, the matrix array -/

/-- A group whose s4, s6 and s8 are offsets and sizes within the scratchpad that g13 names. -/
def tgCpy : Group := { tgScr 0 with sc := [(4, 0x100#32), (6, 0x200#32), (8, 64#32), (9, 4#32), (10, 64#32), (11, 64#32)] }
theorem test_wit_CopyCommandsIssue : tgCpy.speculative = false ∧ (tsScr tgCpy).acquiring tk tgCpy = false ∧ pairAt 0x84#8 4 ∧ pairAt 0x86#8 6 ∧ bselOrNone 0#6 = true ∧ isScalarOrImm 0x88#8 = true
    ∧ (0x88#8).toNat = 0x80 + 4 * 2 ∧ tgCpy.pend = []
    ∧ (tsScr tgCpy).segCheck { (tsScr tgCpy).whoOf tk tgCpy with copy := true } (tgCpy.segReg 13) .read false 64 1 [(0, (0x200 : Int)), (1, ((0x200 + (4 - 1) * 64 : Nat) : Int))] = none
    ∧ (tsScr tgCpy).segCheck { (tsScr tgCpy).whoOf tk tgCpy with copy := true } (tgCpy.segReg 13) .write false 64 1 [(0, (0x100 : Int)), (1, ((0x100 + (4 - 1) * 64 : Nat) : Int))] = none
    ∧ (∀ i < 4, (tsScr tgCpy).holeAt { (tsScr tgCpy).whoOf tk tgCpy with copy := true } (tgCpy.segReg 13) (0x100 + i * 64) 64 = false)
    ∧ ((tsScr tgCpy).copies ⟨0, 0⟩).length < 16 ∧ tgCpy.ceq.length < 255 := by unfold pairAt; decide +kernel
def tCopy (id : Nat) : CopyCmd :=
  { id := id, g := tk, team := 0, ctx := 0, node := none, dst := ownSeg 0xfffe 3 true 4096, src := ownSeg 0xfffe 3 true 4096, from_ := 0x200, into := 0x100, bytes := 64, moved := 0, rows := 1, fromPitch := 0, intoPitch := 0,
    total := 64, bar := none, running := true, issued := 0, movedAt := 99, ahead := [], stalled := none, frozen := false }
theorem test_wit_CopyCommandsIssue_full : 16 ≤ (((tsScr tgCpy).updCore 0 0 fun c => { c with copy := (List.range 16).map tCopy }).copies ⟨0, 0⟩).length := by decide +kernel
/-- Slot 5 of core 0 in a state, for team 0. -/
def tTile (st : SlotState) : Tile := { Tile.reset with state := st }
def tsTile (st : SlotState) : State := (tp (tgCode 0)).putTile 0 0 5 (tTile st)
theorem test_wit_TileSlotResults : (tgCode 0).exec ≠ 0#32 ∧ (tgCode 0).speculative = false ∧ (5#7).toNat < 96 ∧ (tsTile .free).follower 0 0 0 = none ∧ (0xbf#8).toNat = 0x80 + 63 ∧ (tgCode 0).pend = []
    ∧ ((tsTile .free).tile 0 0 5).state = .free ∧ ((tsTile .full).tile 0 0 5).state ≠ .free ∧ (tTile .full).trel 0 false = .ok (tTile .empty) ∧ (tTile .filling).trel 0 true = .wait
    ∧ (tTile .free).trel 0 true = .bad ∧ (tTile .full).owner = 0 ∧ (tTile .full).readers = 0 ∧ (tTile .full).ring = false := by decide +kernel
/-- TLD of 16384 bytes from the data segment in g3. -/
def tTld : Reach × State := (tsTile .empty).reachSeg ((tsTile .empty).whoOf tk (tgCode 0)) ((tsTile .empty).team? 0) ((tgCode 0).segReg 3) .image 0x40 16384
theorem test_wit_TileSlotResults_tld : (0x30#8).toNat % 16 = 0 ∧ isScalarOrImm 0x80#8 = true ∧ (tsTile .empty).acquiring tk (tgCode 0) = false ∧ 0x40 % 64 = 0
    ∧ (tsTile .empty).segCheck ((tsTile .empty).whoOf tk (tgCode 0)) ((tgCode 0).segReg 3) .read true 16384 1 [(0, (0x40 : Int))] = none
    ∧ tTld.1 = .runs [{ place := .hbm 0 0x400040, len := 16384 }] ∧ tTld.2.spoiled [{ place := .hbm 0 0x400040, len := 16384 }] = false ∧ tTld.2.refreshEnd [{ place := .hbm 0 0x400040, len := 16384 }] = none
    ∧ tTld.2.cores = (tsTile .empty).cores ∧ tTld.2.mem = (tsTile .empty).mem ∧ ((tsTile .empty).tile 0 0 5).ownedBy 0 = true ∧ ((tsTile .empty).tile 0 0 5).state = .empty
    ∧ ((tsTile .empty).tile 0 0 5).ring = false ∧ (tTld.2.readRuns [{ place := .hbm 0 0x400040, len := 16384 }]).length = 16384 := by decide +kernel
def tWalk (nt : Nat) : Walk := { dbase := 0, pitch := 64, tstep := 64, sbase := 0, spitch := 0, bbase := 0, nt := nt, roleB := false, pair := false, sfmt := 0, bad := nt == 0 }
def tFsub : Reach × State := (tp (tgCode 0)).reachSeg ((tp (tgCode 0)).whoOf tk (tgCode 0)) ((tp (tgCode 0)).team? 0) ((tgCode 0).segReg 3) .read 0 64
def tFeeder (stopped : Bool) : Feeder :=
  { g := tk, team := 0, ctx := 0, base := 5, len := 1, dbase := 0, pitch := 64, tstep := 64, sbase := 0, spitch := 0, bbase := 0, nt := 1, roleB := false, pair := none, sfmt := 0, next := 0, bar := none,
    stopped := stopped, filling := true, faulted := false, lastLand := 0 }
theorem test_wit_FeederInstructionResults : (tgCode 0).speculative = false ∧ (tp (tgCode 0)).acquiring tk (tgCode 0) = false ∧ pairAt 0x84#8 4 ∧ (tgCode 0).pend = [] ∧ (95#8).toNat < 96 ∧ bselOrNone 0x1f#6 = true
    ∧ ((tgCode 0).uniform 0xe1#8).toNat = 1 ∧ (tp (tgCode 0)).segCheck ((tp (tgCode 0)).whoOf tk (tgCode 0)) ((tgCode 0).segReg 3) .read true 64 64 [(0, ((tgCode 0).scalar64 4 : Int))] = none
    ∧ tFsub.1 = .runs [{ place := .hbm 0 0x400000, len := 64 }] ∧ (tgCode 0).scalar64 4 = 0 := by unfold pairAt; decide +kernel
theorem test_wit_FeederInstructionResults_walk : (tWalk 255).pair = false ∧ (tsTile .empty).ringBad 0 0 0 ((List.range 1).map (5 + ·)) = none ∧ (tWalk 0).bad = true ∧ (tWalk 255).bad = false
    ∧ (tgCode 0).fd + (tWalk 255).nt ≤ 255 ∧ 255 < ({ tg 0 with fd := 1 } : Group).fd + (tWalk 255).nt ∧ (tsTile .empty).freeFeeder 0 = some 0 ∧ ((tg 0xab00005f).fieldP (tc 0xab00005f)).toNat < 96
    ∧ ((ts (tg 0)).die 0).feeders = [] ∧ (((ts (tg 0)).updDie 0 fun d => { d with feeders := [(0, tFeeder false)] }).die 0).feeders.find? (fun e => e.2.team == 0 && e.2.g.core == 0 && e.2.base == 5 && feederLive e.1 e.2)
      = some (0, tFeeder false) := by decide +kernel
/-- A walk descriptor at the start of the segment in g3, slot 5 in a state, and the feeders of the die. -/
def tsFsub (q5 : Nat) (st : SlotState) (fs : List (Nat × Feeder)) : State :=
  ((tsTile st).writeBytes (.hbm 0 0x400000) (leBytes 8 0 ++ leBytes 8 0x4000000040 ++ leBytes 24 0 ++ leBytes 8 q5 ++ leBytes 16 0)).updDie 0 fun d => { d with feeders := fs }
def tFsubAt (s : State) : Reach × State := s.reachSeg (s.whoOf tk (tgCode 0)) (s.team? 0) ((tgCode 0).segReg 3) .read 0 64
def tFsubRuns : List Run := [{ place := .hbm 0 0x400000, len := 64 }]
def tFsubV (s : State) : State := ((tFsubAt s).2.loadRuns tFsubRuns).2.tableClk.2
def tFsubD (s : State) : Walk := walkOf ((tFsubAt s).2.loadRuns tFsubRuns).1
theorem test_wit_FeederInstructionResults_holds : (tgCode 0).logOverlaps ((tgCode 0).segReg 3).sel.toNat (((tgCode 0).segReg 3).base.toNat + 0) 64 = false
    ∧ tFsub.2.readHolds tk (tgCode 0) tFsubRuns = false ∧ tFsub.2.spoiled tFsubRuns = false := by decide +kernel
theorem test_wit_FeederInstructionResults_read : ∀ q5 ∈ [255, 0x2ff, 0], (tFsubAt (tsFsub q5 .empty [])).1 = .runs tFsubRuns
    ∧ (tFsubD (tsFsub q5 .empty [])).nt = q5 % 256 ∧ (tFsubD (tsFsub q5 .empty [])).bad = (q5 == 0) ∧ (tFsubD (tsFsub q5 .empty [])).pair = (q5 == 0x2ff) := by decide +kernel
theorem test_wit_FeederInstructionResults_ring : let ring := (List.range 1).map (5 + ·)
    (tFsubV (tsFsub 255 .empty [])).ringBad 0 0 0 ring = none ∧ (tFsubV (tsFsub 255 .full [])).ringBad 0 0 0 ring = some (5, tTile .full) ∧ (tFsubV (tsFsub 255 .empty [])).follower 0 0 0 = none
      ∧ (tFsubV (tsFsub 255 .empty [])).freeFeeder 0 = some 0 ∧ (tFsubV (tsFsub 255 .empty ((List.range 16).map fun f => (f, tFeeder false)))).freeFeeder 0 = none ∧ (tgCode 0).fd + 255 ≤ 255 := by decide +kernel
theorem test_wit_FeederInstructionResults_end : Tbl.sorted (((ts (tg 0)).updDie 0 fun d => { d with feeders := [(0, tFeeder false)] }).die 0).feeders = true ∧ (tFeeder false).g = tk ∧ (tFeeder false).filling = true
    ∧ ((tFeeder false).base = ((tg 0xab000005).fieldP (tc 0xab000005)).toNat) ∧ ((tsTile .filling).tile 0 0 5).owner = (tg 0).team := by decide +kernel
/-- A state in which team 0 owns its core's array and has slots 0 to 2 FULL, and a group with HAND and sizes for an operation. -/
def tsMat (q : List MatOp) (g : Group) : State :=
  (((((ts g).putTeam 0 { tTeam with groups := [(0, 0)] }).putTile 0 0 0 (tTile .full)).putTile 0 0 1 (tTile .full)).putTile 0 0 2 (tTile .full)).updArr 0 0 fun a => { a with owner := some 0, queue := q }
def tgMat : Group := { tgScr 0 with hand := 0x11#32, sc := [(20, 256#32), (21, 512#32), (22, 32#32)], awl := 256 }
def tMatOp : MatOp :=
  { id := 9, g := tk, team := 0, scaled := false, pair := false, clr := false, rel := false, bar := none, hand := 0x11#32, m := 8, n := 8, k := 8, a := 0, b0 := 1, b1 := 2, reads := [], start := none }
theorem test_wit_MatrixOperationsIssue : tgMat.exec ≠ 0#32 ∧ tgMat.speculative = false ∧ ((tsMat [] tgMat).arr 0 0).owner = some tgMat.team ∧ ((tsMat [] tgMat).arr 0 0).zeroUntil ≤ (tsMat [] tgMat).clk
    ∧ handMatOk tgMat.hand = true ∧ tgMat.pend = [] ∧ (2#7).toNat < 96 ∧ specKind 0x94#8 = .scalar 20 ∧ specKind 0x95#8 = .scalar 21 ∧ specKind 0x96#8 = .scalar 22 ∧ (tgMat.scalar 20).toNat ≤ 256
    ∧ (tgMat.scalar 21).toNat ≤ 512 ∧ (tgMat.scalar 22).toNat ≤ kSpan (tgMat.hand.toNat % 16) ∧ (tsMat [] tgMat).follows 0 0 tgMat.team = false
    ∧ (∀ e ∈ matReads 0 none 0 1 2 256 512, ((tsMat [] tgMat).tile 0 e.1 e.2).ownedBy tgMat.team = true ∧ ((tsMat [] tgMat).tile 0 e.1 e.2).state = .full)
    ∧ ((tsMat [] tgMat).arr 0 0).queue.length < 4 ∧ tgMat.me < 255 ∧ 4 ≤ ((tsMat (List.replicate 4 tMatOp) tgMat).arr 0 0).queue.length := by decide +kernel
/-- A cluster of two teams on cores 0 and 1, the group of team 0 in its first lane. -/
def tsPair (e : Event) (g : Group) : State :=
  (((((State.reset.setSubject e).putTeam 0 { tTeam with cluster := 3 }).putTeam 1 { tTeam with core := 1, cluster := 3, member := 1 }).setClusters
    [(3, { die := 0, w := 2, h := 1, launch := 0, node := 0, members := [0, 1], banks := [(0, [0]), (1, [0])], live := 2 })]).setGroups [(keyNum tk, g)]).updArr 0 0 fun a => { a with owner := some 0 }
theorem test_wit_MatrixOperationsIssue_pair : ((tg 0xba000001).fieldP (tc 0xba000001)).toNat < 2 ∧ (tg 0xbb000000).fieldP (tc 0xbb000000) = 0#24 ∧ (tg 0).half = .fresh
    ∧ (tsPair .powerOn (tg 0xba000000)).pairFor 0 0 0 false = some 1 ∧ ((tsPair .powerOn (tg 0)).arr 0 0).owner = some 0 ∧ ((tsPair .powerOn (tg 0)).arr 0 0).zeroUntil ≤ 0 ∧ (tsPair .powerOn (tg 0)).follower 0 0 0 = none
    ∧ ((tsPair .powerOn (tg 0)).updArr 0 0 fun a => { a with pair := some (0, 1) }).follower 0 0 0 = some 1 := by decide +kernel
/-- A drain of 2 rows of 3 columns to the scratchpad. -/
def tgDrn : Group := { tgMat with sc := [(4, 0x100#32), (6, 64#32), (8, 255#32), (9, 1#32), (10, 509#32), (11, 3#32)] }
def tDrn : Except (Option XFault × Nat) (List (List Run)) × State := (tsMat [] tgDrn).reachRows ((tsMat [] tgDrn).whoOf tk tgDrn) ((tsMat [] tgDrn).team? tgDrn.team) (tgDrn.segReg 13) .write [(0x100, 12)]
theorem test_wit_AccumulatorResults : tgMat.num = 0 ∧ isScalarOrImm 0xe0#8 = true ∧ (tsMat [] tgMat).team? tgMat.team = some { tTeam with groups := [(0, 0)] } ∧ (0#7).toNat < tTeam.count ∧ (tgMat.uniform 0xe0#8).toNat = 0
    ∧ (tgMat.uniform 0x94#8).toNat = 256 ∧ tTeam.groups.find? (fun e => e.1 = 0) = some (0, 0) ∧ tgMat.half = .fresh ∧ tgMat.me < 255 ∧ tgMat.outside 0 256 = none ∧ tgMat.outside 256 1 = some 256
    ∧ ((tsMat [] tgMat).arr 0 0).busyRow 0 0 = false := by decide +kernel
theorem test_wit_AccumulatorResults_lanes : (∃ sh, vShape 0xb8 = some sh ∧ tgMat.vTrap (vShort ⟨6, 2, 3⟩) 0xb8 sh = none) ∧ (∃ sh, vShape 0xb9 = some sh ∧ tgMat.vTrap (vShort ⟨6, 2, 3⟩) 0xb9 sh = none)
    ∧ tgMat.accTrap 3 (fun _ => 255) (fun _ => 511) = none ∧ tgMat.accTrap 3 (fun _ => 256) (fun _ => 0) = some (windowTrap 256) :=
  ⟨⟨_, rfl, by decide +kernel⟩, ⟨_, rfl, by decide +kernel⟩, by decide +kernel, by decide +kernel⟩
/-- Rows 0 to 7 are busy with an operation, row 8 is not; the issue checks are made once. -/
theorem test_wit_AccumulatorResults_busy : ((tsMat [tMatOp] tgMat).arr 0 0).busyRow 0 0 = true ∧ ((tsMat [tMatOp] tgMat).arr 0 0).busyRow 0 8 = false
    ∧ (∀ r < 8, ((tsMat [] tgMat).arr 0 0).busyRow 0 r = false) ∧ tgMat.half = .fresh ∧ ({ tgMat with half := .sent } : Group).half ≠ .fresh ∧ tgMat.acted = 0#32 := by decide +kernel
theorem test_wit_AccumulatorResults_drain : pairAt 0x84#8 4 ∧ isScalarOrImm 0x86#8 = true ∧ (0x88#8).toNat = 0x80 + 4 * 2 ∧ tgDrn.hand.toNat / 256 % 4 < 3 ∧ (tsMat [] tgDrn).acquiring tk tgDrn = false
    ∧ tgDrn.outside (tgDrn.scalar 8).toNat (tgDrn.scalar 9).toNat = none ∧ (tgDrn.scalar 10).toNat + (tgDrn.scalar 11).toNat = 512 ∧ ((tsMat [] tgDrn).arr 0 0).busyRow 0 255 = false
    ∧ (tsMat [] tgDrn).drainCheck ((tsMat [] tgDrn).whoOf tk tgDrn) (tgDrn.segReg 13) false (tgDrn.scalar64 4) 64 ((1 - 1) * 64 + 3 * 4) 4 = none
    ∧ (match tDrn.1 with | .ok _ => true | .error _ => false) = true ∧ tDrn.2.arr 0 0 = (tsMat [] tgDrn).arr 0 0 := by unfold pairAt; decide +kernel

/-! ## Tasks, launches, queues and events of groups -/

/-- A record for the task unit: TS 4, one lane, entry 0. -/
def tRecBytes : List Byte := leBytes 8 (4 + 2 ^ 48) ++ leBytes 24 0
def tgTask (spec : Bool) : Group := { tgScr 0 with exec := 1#32, task := some (tTask spec) }
def tsTask : State := (tsScr (tgTask false)).writeScratch tTeam 0 tRecBytes
def tSpawn : List LaneTry × State := tsTask.tryLanes (tsTask.whoOf tk (tgTask false)) (tsTask.team? 0) ((tgTask false).segReg 13) .read 32 [(0, 0)]
def tRuns (x : LaneTry) : List Run := match x.reach with | .runs rs => rs | _ => []
def tGot : List (Nat × RecWords) × State := tSpawn.2.readRecords tk (tgTask false) (tSpawn.1.map fun x => (x.lane, tRuns x))
theorem test_wit_TaskInstructionResults_spawn : (tgTask false).task = some (tTask false) ∧ (tgTask false).exec ≠ 0#32 ∧ (tgTask false).pend = [] ∧ (mShort 0xc0 ⟨6, 13, 0, 0, 2⟩).badSpawn false = false
    ∧ (mLong 0xc0 ⟨6, 13, 0, 0, 2⟩ ⟨0, 5, 0, 0, 0, 0, 0, 0, 0, 0⟩).badSpawn true = false ∧ (mShort 0xc0 ⟨6, 13, 0, 0, 2⟩).offOk = true ∧ isLaneReg 6#8 = true
    ∧ (tgTask false).check128 ({ mShort 0xc0 ⟨6, 13, 0, 0, 2⟩ with wid := 2 } : MArgs).uses = none ∧ tsTask.acquiring tk (tgTask false) = false ∧ (tgTask false).log = []
    ∧ (lanesOf (tgTask false).exec).map (fun l => (l, (tgTask false).offAt { mShort 0xc0 ⟨6, 13, 0, 0, 2⟩ with wid := 2 } l)) = [(0, 0)]
    ∧ tsTask.segCheck (tsTask.whoOf tk (tgTask false)) ((tgTask false).segReg 13) .read true 32 32 [(0, 0)] = none
    ∧ (tSpawn.1.all fun x => (match x.reach with | .runs _ => true | _ => false) && !((tRuns x).any fun q => q.place.outside) && !tSpawn.2.spoiled (tRuns x)) = true
    ∧ tSpawn.2.homeStalls tk (tgTask false) (tSpawn.1.flatMap tRuns) true false = false ∧ tSpawn.2.entryWaits tk 0 (tSpawn.1.flatMap tRuns) = false ∧ tSpawn.2.refreshEnd (tSpawn.1.flatMap tRuns) = none
    ∧ tGot.1 ≠ [] ∧ (∀ e ∈ tGot.1, e.2.valid = true ∧ BitVec.ult e.2.ts (tTask false).key.ts = false) := by decide +kernel
theorem test_wit_TaskInstructionResults_none : (tg 0).task = none ∧ ({ tgTask false with exec := 0#32 } : Group).task = some (tTask false) ∧ ({ tgTask false with exec := 0#32 } : Group).exec = 0#32 := by
  decide +kernel
theorem test_wit_TaskInstructionResults_idle : (tgTask true).lsq = [] ∧ (tgTask true).log = [] ∧ (tgTask true).ceq = [] ∧ (tgTask true).me = 0 ∧ (tgTask true).fd = 0 ∧ ({ tgTask true with me := 1 } : Group).me ≠ 0
    ∧ ({ tgTask true with lsq := [(7, false)] } : Group).lsq ≠ [] := by decide +kernel
theorem test_wit_TaskInstructionResults_end : (tg 0xc1000000).fieldP (tc 0xc1000000) = 0#24 ∧ (tgTask true).task = some (tTask true) ∧ (tgTask true).released = true ∧ (tgTask true).ceq = []
    ∧ (tgTask true).me = 0 ∧ (tgTask true).fd = 0 ∧ ({ tgTask true with fd := 1 } : Group).fd ≠ 0 ∧ (tTask true).spec = true ∧ (tTask false).spec = false := by decide +kernel
/-- A launch descriptor at offset 0 of the data segment in g3: rubric entry 5, one team, arguments from g13. -/
def tLaunchBytes : List Byte :=
  leBytes 4 5 ++ leBytes 2 1 ++ leBytes 2 1 ++ leBytes 2 1 ++ leBytes 2 1 ++ leBytes 2 0x0101 ++ leBytes 2 0 ++ leBytes 4 0 ++ leBytes 2 0xfffe ++ leBytes 2 0 ++ leBytes 8 0 ++ leBytes 2 64 ++ leBytes 30 0
def tgLaunch : Group := { tgCode 0 with seg := (13, ownSeg 0xfffe 3 true 4096) :: (tgCode 0).seg }
def tsLaunch : State := ((tp tgLaunch).putTeam 0 tTeam).writeBytes (.hbm 0 0x400000) tLaunchBytes
def tSegRead (r : SegRead) : Option (List Byte × List Run × State) := match r with | .bytes bs rs s => some (bs, rs, s) | _ => none
def tL1 : List Byte × List Run × State := (tSegRead (tsLaunch.segRead tk tgLaunch (tgLaunch.segReg 3) 0 64 64)).getD ([], [], State.reset)
def tL2 : Except XFault (List Byte) × State := tL1.2.2.readLin (tsLaunch.whoOf tk tgLaunch) (tL1.2.2.rubricLin (tsLaunch.whoOf tk tgLaunch) 5) 8
def tL3 : Except XFault (SegReg × Nat) × State := tL2.2.loadSeg (tsLaunch.whoOf tk tgLaunch) tgLaunch 1#16
def tL4 : Except XFault (List Byte) × State := tL3.2.readLin (tsLaunch.whoOf tk tgLaunch) (segVal tL3).2 64
theorem test_wit_LaunchResults : tgLaunch.speculative = false ∧ tgLaunch.released = true ∧ tsLaunch.acquiring tk tgLaunch = false ∧ (0xbf#8).toNat = 0x80 + 63 ∧ tgLaunch.pend = [] ∧ (tgLaunch.scalar 0).toNat = 0
    ∧ (tSegRead (tsLaunch.segRead tk tgLaunch (tgLaunch.segReg 3) 0 64 64)).isSome = true ∧ (launchDesc tL1.1).krub = 5 ∧ (launchDesc tL1.1).bad = false ∧ isOk tL2 = true ∧ (entryOf (val tL2)).state = 2
    ∧ (entryOf (val tL2)).sel = 1 ∧ isOk tL3 = true ∧ (segVal tL3).1.kind = 1#3 ∧ (segVal tL3).1.bad = false ∧ (segVal tL3).2 ≠ 0 ∧ isOk tL4 = true := by decide +kernel
def tL5 : Except XFault (SegReg × Nat) × State := tsLaunch.loadSeg (tsLaunch.whoOf tk tgLaunch) tgLaunch 0xfffe#16
/-- At a quota of 64 no grid stands (R45); with LQ at 0 the quota is met at once. -/
theorem test_wit_LaunchResults_go : isOk tL5 = true ∧ (tSegRead (tL5.2.segRead tk tgLaunch (segVal tL5).1 0 64 64)).isSome = true ∧ tsLaunch.deviceGrids 1 0 < tsLaunch.launchQuota 0 0
    ∧ (tsLaunch.putCtx 0 0 { Ctx.reset with lqNow := 0#32 }).launchQuota 0 0 ≤ (tsLaunch.putCtx 0 0 { Ctx.reset with lqNow := 0#32 }).deviceGrids 1 0
    ∧ (launchDesc (tLaunchBytes.set 36 2#8)).bad = true := by decide +kernel
def tNode (k : NodeKind) : Node :=
  { kind := k, preds := [], rubric := 5, tx := 1, ty := 1, tz := 1, gpt := 1, cw := 1, ch := 1, budget := 0#32, addr := 0#64, count := 0#64, src := 0#64, name := 0 }
def tLaunch (started : Bool) (r : NodeRun) (k : NodeKind) : Launch :=
  { queue := some (5, 0), parent := none, part := 1, ctx := 0, prio := 0, serial := false, irq := false, first := false, started := started, nodes := [tNode k], runs := [r], seen := [], args := [], recs := [], gen := 0,
    err := 0#8, evn := none, taken := 0, asked := none }
/-- A child grid that has reached the scriptorium, for a group that waits for its answer in s5, and the same in a context without quota. -/
def tsAsked (x : Ctx) : State :=
  (((ts { tg 0 with half := .sent }).setSubject (.nodeStart 9 0)).putCtx 0 0 x).setHost { HostIf.reset with launches := [(9, { tLaunch true .waiting .grid with queue := none, asked := some (tk, 0, 5) })] }
theorem test_wit_LaunchResults_arrives : let s := tsAsked Ctx.reset
    s.subject = .nodeStart 9 0 ∧ (s.host.launches.find 9).map (·.asked) = some (some (tk, 0, 5)) ∧ Tbl.sorted s.host.launches = true ∧ s.group? tk = some { tg 0 with half := .sent }
      ∧ s.deviceGrids 1 0 < s.launchQuota 0 0 ∧ s.fresh ≠ 9 ∧ (tsAsked { Ctx.reset with lqNow := 0#32 }).launchQuota 0 0 ≤ (tsAsked { Ctx.reset with lqNow := 0#32 }).deviceGrids 1 0 := by decide +kernel
theorem test_wit_LaunchResults_half : ({ tg 0 with half := .sent } : Group).half = .sent ∧ ({ tg 0 with half := .done } : Group).half = .done ∧ tgLaunch.half = .fresh := by decide +kernel
/-- Queue 7 of context 0 holds 16 records, the values 3 and 4 among them. -/
def tsQueue (e : Event) (resident : Bool) (g : Group) : State :=
  (((ts g).setSubject e).setAgenda []).putCtx 0 0 { Ctx.reset with qcfg := [(7, 4)] } |>.putWq 0 7 { items := [3#32, 4#32], blocks := [], spoilt := [], resident := resident, loading := !resident, used := 0 }
theorem test_wit_QueueInstructionResults : (tg 0).pend = [] ∧ isLaneReg 5#8 = true ∧ (tg 0).check128 [useOf 5#8 false 1] = none ∧ (tg 0).exec ≠ 0#32 ∧ (tg 0).speculative = false
    ∧ (tsQueue .powerOn true (tg 0)).wqCap 0 (8 * (tsQueue .powerOn true (tg 0)).ctxOf 0 + (7#3).toNat) = 16 ∧ ((tsQueue .powerOn true (tg 0)).wq 0 7).resident = true ∧ ((tsQueue .powerOn true (tg 0)).wq 0 7).spoilt = []
    ∧ (ts (tg 0)).wqCap 0 7 = 0 ∧ isSource 5#8 = true ∧ (tg 0).released = true ∧ (0xbf#8).toNat = 0x80 + 63 ∧ ((tsQueue .powerOn false (tg 0)).wq 0 7).resident = false
    ∧ ((tsQueue .powerOn false (tg 0)).wq 0 7).loading = true ∧ (tsQueue .powerOn false (tg 0)).wqCap 0 7 ≠ 0 := by decide +kernel
theorem test_wit_QueueInstructionResults_load : let s := ((tsQueue .powerOn true (tg 0)).putWq 0 7 { items := [3#32, 4#32], blocks := [], spoilt := [], resident := false, loading := false, used := 0 })
    (s.wq 0 7).resident = false ∧ (s.wq 0 7).loading = false ∧ s.wqCap 0 7 ≠ 0 ∧ (s.wq 0 7).spoilt = [] ∧ ({ tg 0 with lsq := [(7, false)] } : Group).released = false := by decide +kernel
/-- Event 81 of context 0 stands on chip at its home die. -/
def tsEvent (e : Event) (g : Group) : State := (((ts g).setSubject e).setAgenda []).evSet 0 0 81 { evEmpty with c := 3#32, onChip := true }
theorem test_wit_EventInstructionResults : (tg 0).pend = [] ∧ (tg 0).speculative = false ∧ (tg 0).released = true ∧ (tsEvent .powerOn (tg 0)).evProbe tk ((tsEvent .powerOn (tg 0)).ctxOf 0) (81#16).toNat (.signal (some (tk, 0))) = none
    ∧ (tsEvent .powerOn (tg 0)).evProbe tk ((tsEvent .powerOn (tg 0)).ctxOf 0) (81#16).toNat (.test tk 0 63) = none
    ∧ isScalarOrImm 0x89#8 = true ∧ (tg 0).half = .fresh ∧ (0xbf#8).toNat = 0x80 + 63 := by decide +kernel

/-! ## The module and the host interface. Hypotheses on free values of Config (a signature that verifies, a host that answers, a flash write that succeeds)
cannot be shown of any state: the tests show the others. -/

def tr (e : Event) : State := State.reset.setSubject e
def tBoot (e : Event) (n : Nat) : State := (tr e).setBoot { Boot.reset with stage := n, columns := 4 }
theorem test_wit_StartAndResetEvents : (tr .powerOn).subject = .powerOn ∧ (tr .moduleReset).subject = .moduleReset ∧ (tBoot (.stageAdvance .ok) 0).subject = .stageAdvance .ok ∧ (tBoot (.stageAdvance .ok) 0).boot.tripped = false
    ∧ (tBoot (.stageAdvance .ok) 1).boot.stage = 1 ∧ (tBoot (.stageAdvance .ok) 2).boot.stage = 2 ∧ 4 ≤ (tBoot (.stageAdvance .ok) 2).boot.columns ∧ (tBoot (.stageAdvance .ok) 3).boot.stage = 3
    ∧ (tBoot (.stageAdvance (.bad 3 7)) 1).subject = .stageAdvance (.bad 3 7) ∧ (tr (.thermalWarning 3)).subject = .thermalWarning 3 ∧ (tr (.thermalTrip 3)).subject = .thermalTrip 3
    ∧ (tr .marginCheck).subject = .marginCheck ∧ ((tr (.stageAdvance .ok)).setBoot { Boot.reset with stage := 2, columns := 3 }).boot.columns < 4 := by decide +kernel
/-- No image is accepted under a minimum above its version. -/
theorem test_wit_StartAndResetEvents_refused (img : List Byte) : ((tr (.stageAdvance .ok)).setBoot { Boot.reset with stage := 1, minVersion := Config.imageVersion img + 1 }).imageOk img = false := by
  simp [State.imageOk]
theorem test_wit_MailboxResults : (tr .stage).subject = .stage ∧ (tr .margin).subject = .margin ∧ (tr (.unknownMailboxCommand 9)).subject = .unknownMailboxCommand 9 ∧ (tr .stagebits).subject = .stagebits
    ∧ ((tr .stagebits).boot.mbArg.get 0#32 2).toNat = 0 ∧ 0 < (((tr .stagebits).setBoot { Boot.reset with mbArg := [(2, 1#32)] }).boot.mbArg.get 0#32 2).toNat ∧ (tr .enrol).subject = .enrol
    ∧ (tr .revoke).subject = .revoke ∧ (tr .enrol).requestErr ((tr .enrol).hostBytes noPasid (tr .enrol).mailAddr 128) true ≠ 0#8 := by decide +kernel
/-- A context enabled on die 0, the others disabled. -/
def tEn (e : Event) : State := (tr e).putCtx 0 0 { Ctx.reset with en := true }
/-- Link 0 with a flit on its way, or in the buffer of its end, of an access whose lane still has `path` to cross. -/
def tHop (l : Nat) : Hop := { link := l, up := false, cls := .req }
def tCargo : Flit := { cls := .req, cargo := .request 7 0, old := false }
def tFlit (in_ : Bool) (path : List Hop) : State :=
  ((ts (tg 0)).setAccess [(7, { tAccess .store .none with lanes := [{ tLane with path := path }] })]).setFabric
    { Fabric.reset with flits := if in_ then [] else [(0, [tCargo])], bufs := if in_ then [(0, [tCargo])] else [] }
def tMaster : Master := { die := 0, core := 0, kind := .group, slot := 0 }
theorem test_wit_PartitionAndLinkEvents : (tr .apply).subject = .apply ∧ (tr .apply).applyErr = none
    ∧ ((tEn .apply).setFabric { Fabric.reset with pslot := [(0, 2#5)] }).applyErr = some (1#8, 0) ∧ (tr (.retire 19)).subject = .retire 19 ∧ (tEn (.retire 0)).dieEnabled 0 = true ∧ (tr (.retire 19)).dieEnabled 19 = false
    ∧ (tr (.fwctlWrite 0 0)).subject = .fwctlWrite 0 0 ∧ (((tEn (.fwctlWrite 0 0)).putWall 0 { Firewall.reset with closed := true }).wall 0).closed = true ∧ (0#32 : Word).getLsbD 0 = false
    ∧ (tEn (.fwctlWrite 0 0)).dieEnabled (linkEnds 0).1 = true ∧ ((tr (.fwctlWrite 0 1)).wall 0).closed = false := by decide +kernel
theorem test_wit_PartitionAndLinkEvents_flit : takeFlit .req ((tFlit false [tHop 0]).fabric.flits.get [] (2 * 0 + bitOf false)) = some (tCargo, []) ∧ takeFlit .rsp ((tFlit false [tHop 0]).fabric.flits.get [] 0) = none
    ∧ (20 : Nat) ≤ 31 ∧ (tr (.retire 0)).dieEnabled 0 = false ∧ ((tr (.linkStopSignal 0 false .req)).fabric.raised.contains (0, .req)) = false
    ∧ ((tr (.linkStopSignal 0 false .req)).fabric.held.get [] 0) = [] ∧ [((0 : Nat), FlitClass.req)].contains (0, .req) = true := by decide +kernel
theorem test_wit_PartitionAndLinkEvents_hop : ∀ path ∈ [[tHop 0], [tHop 0, tHop 4]], let s := tFlit true path
    takeFlit .req (s.fabric.bufs.get [] (2 * 0 + bitOf false)) = some (tCargo, []) ∧ s.mayHop tCargo.cargo = true ∧ (s.access.find 7).isSome = true
      ∧ (({ tAccess .store .none with lanes := [{ tLane with path := path }] } : Access).lanes.find? fun y => y.lane = 0) = some { tLane with path := path }
      ∧ (s.wall 4).closed = false ∧ ((s.putWall 4 { Firewall.reset with closed := true }).wall 4).closed = true ∧ s.group? tk = some (tg 0) ∧ (tg 0).team = 0 ∧ (tg 0).speculative = false := by decide +kernel
/-- The buffer of link 0's end with room, and full. -/
theorem test_wit_PartitionAndLinkEvents_room : 64 ≤ Fabric.reset.free 0 .req ∧ ({ Fabric.reset with bufs := [(0, List.replicate 2048 tCargo)] } : Fabric).free 0 .req < 64
    ∧ (tFlit true [tHop 0, tHop 4]).linkHolds (tHop 4) = false ∧ ((tFlit true [tHop 0]).setFabric { (tFlit true [tHop 0, tHop 4]).fabric with stops := [(8, .req)] }).mayHop tCargo.cargo = true
    ∧ (tFlit true [tHop 0, tHop 4]).mayHop tCargo.cargo = true ∧ ((tFlit true [tHop 0, tHop 4]).setFabric { (tFlit true [tHop 0, tHop 4]).fabric with stops := [((tHop 4).input, .req)] }).mayHop tCargo.cargo = false := by
  decide +kernel
theorem test_wit_PartitionAndLinkEvents_unfreeze : tMaster.kind = .group
    ∧ ((ts { tg 0 with run := .parked .frozen }).setSubject (.unfreezeKill tMaster)).group? ⟨tMaster.die, tMaster.core, tMaster.slot⟩ = some { tg 0 with run := .parked .frozen }
    ∧ (ts (tg 0)).access = [] ∧ ((ts (tg 0)).setSubject (.unfreezeResume tMaster)).subject = .unfreezeResume tMaster := by decide +kernel
def tPort (e : Event) : State := (tr e).putPort 3 { Port.reset with up := true, ien := true, win := 0x10000#64, lim := 0x10000#64 }
theorem test_wit_PortAndErrorEvents : (tPort (.fabricRequestArrive 3 true 65528 8 (leBytes 8 5))).subject = .fabricRequestArrive 3 true 65528 8 (leBytes 8 5) ∧ ((tPort .powerOn).port 3).ien = true
    ∧ 65528 + 8 ≤ pteBits ((tPort .powerOn).port 3).lim 16 32 * 65536 ∧ pteBits ((tPort .powerOn).port 3).win 16 43 * 65536 + 65528 + 8 ≤ hbmSize ∧ (tPort .powerOn).domains = [] ∧ (leBytes 8 5).length = 8
    ∧ Memory.wf (tPort .powerOn).mem = true ∧ pteBits ((tPort .powerOn).port 3).lim 16 32 * 65536 < 65529 + 8 ∧ ((tPort .powerOn).port 3).refused ≠ 0xffff#16
    ∧ (tPort (.fpctlWrite 3 3)).subject = .fpctlWrite 3 3 ∧ (tPort .powerOn).boot.retired.contains (portDie 3) = false ∧ (tr (.fabricPortLinkTraining 3 true)).subject = .fabricPortLinkTraining 3 true
    ∧ (tsAcc (.fabricRefusalReceive 7 0) .store .none).subject = .fabricRefusalReceive 7 0 ∧ (tAccess .store .none).kind = .store ∧ tLane.done = false
    ∧ (tr (.uncorrectableError (.hbm 0 65))).subject = .uncorrectableError (.hbm 0 65) ∧ ((ts (tg 0)).setSubject (.uncorrectableError (.group tk))).team? (tg 0).team = some probeTeam
    ∧ (tr (.folioRefresh 0)).subject = .folioRefresh 0 ∧ (tr (.faultRetry (.sideLog tk))).subject = .faultRetry (.sideLog tk) := by decide +kernel
/-- A request of 8 bytes in the buffer of port 3, whose window is on the port's own die, and an answer at the port's end. -/
def tWin (ien : Bool) (c : Cargo) : State :=
  ((tr .powerOn).putPort 3 { Port.reset with up := true, ien := ien, win := BitVec.ofNat 64 (portDie 3 * 2 ^ 59 + 0x10000), lim := 0x10000#64 }) |> fun s =>
    s.setFabric { s.fabric with bufs := [(2 * portLink 3, [{ cls := .req, cargo := c, old := false }]), (2 * portLink 3 + 1, [{ cls := .rsp, cargo := .outbound 3 (some []) [], old := false }])] }
theorem test_wit_PortAndErrorEvents_flit : ∀ wr ∈ [true, false], let c : Cargo := .inbound 3 wr 64 8 (leBytes 8 5); let s := tWin true c
    takeFlit .req (s.fabric.bufs.get [] (2 * portLink 3)) = some ({ cls := .req, cargo := c, old := false }, []) ∧ s.mayHop c = true ∧ (s.wall (portLink 3)).closed = false ∧ s.linkHolds (portOut 3) = false
      ∧ (s.port 3).ien = true ∧ 64 + 8 ≤ pteBits (s.port 3).lim 16 32 * 65536 ∧ pteBits (s.port 3).win 16 43 * 65536 + 64 + 8 ≤ hbmSize ∧ pteBits (s.port 3).win 59 5 = portDie 3 ∧ s.domains = []
      ∧ (leBytes 8 5).length = 8 ∧ Memory.wf s.mem = true ∧ ((tWin false c).port 3).ien = false ∧ pteBits (s.port 3).lim 16 32 * 65536 < 65529 + 8
      ∧ takeFlit .rsp (s.fabric.bufs.get [] (2 * portLink 3 + 1)) = some ({ cls := .rsp, cargo := .outbound 3 (some []) [], old := false }, []) := by decide +kernel
/-- A refused lane: with room in the side log, with none, with its page told of already; and the replay of an entry. -/
theorem test_wit_PortAndErrorEvents_store : (tg 0).log.length < 16 ∧ 16 ≤ ({ tg 0 with log := List.replicate 16 tEntry } : Group).log.length ∧ (∀ e ∈ List.replicate 16 tEntry, e.away ≠ some 7)
    ∧ tLane.lin / 65536 ∉ (tAccess .store .none).told ∧ tLane.lin / 65536 ∈ ({ tAccess .store .none with told := [0] } : Access).told
    ∧ (∀ h ∈ ((tsAcc (.fabricRefusalReceive 7 0) .store .none).pathOf 0 tLane.runs).head?, ((tsAcc (.fabricRefusalReceive 7 0) .store .none).wall h.link).closed = false)
    ∧ ({ tEntry with away := some 7 } : LogEntry).away = some 7 ∧ tEntry.away ≠ some 7 ∧ tLane.got = none := by decide +kernel
theorem test_wit_PortAndErrorEvents_inside : (tPort (.fpctlWrite 3 3)).slotOf (portDie 3) ≠ 0 ∧ (tPort (.fpctlWrite 3 3)).slotOf 0 = (tPort (.fpctlWrite 3 3)).slotOf (portDie 3) ∧ pteBits ((tPort .powerOn).port 3).win 59 5 < 20 := by
  decide +kernel
theorem test_wit_PortAndErrorEvents_port : (((tPort (.fpctlWrite 3 3)).setBoot { Boot.reset with retired := [portDie 3] }).boot.retired.contains (portDie 3)) = true ∧ (3#32 : Word).getLsbD 1 = true ∧ (1#32 : Word).getLsbD 1 = false
    ∧ (let s := (tr (.fpctlWrite 3 3)).putPort 3 { Port.reset with win := BitVec.ofNat 64 (7 * 2 ^ 59) }; (s.port 3).ien = false ∧ pteBits (s.port 3).win 59 5 = 7 ∧ s.slotOf 7 = s.slotOf (portDie 3)
      ∧ (s.setFabric { s.fabric with cslot := [(7, 0#5)] }).slotOf 7 ≠ (s.setFabric { s.fabric with cslot := [(7, 0#5)] }).slotOf (portDie 3)) := by decide +kernel
theorem test_wit_PortAndErrorEvents_load : (tsAcc (.fabricRefusalReceive 7 0) .load (.scalar 6)).access.find 7 = some (tAccess .load (.scalar 6)) ∧ (tAccess .load .none).kind.isLoad = true
    ∧ ((tAccess .load .none).lanes.find? fun y => y.lane = 0) = some tLane ∧ (tsAcc (.fabricRefusalReceive 7 0) .load (.scalar 6)).group? tk = some (tg 0) ∧ (tg 0).team = 0 := by decide +kernel
theorem test_wit_PortAndErrorEvents_retry : let g := { tgCode 0 with log := [tEntry] }; let s := (tp g).setSubject (.faultRetry (.sideLog tk))
    s.group? tk = some g ∧ g.task = none ∧ g.log = [tEntry] ∧ tEntry.kind = .store ∧ tEntry.data.length = tEntry.width ∧ g.run ≠ .parked .frozen
      ∧ (match s.freshWalk (s.whoOf tk g) tEntry.lin .write with | .ok (.hbm 0 0x40, _) => true | _ => false) = true ∧ s.access = [] ∧ s.domains = [] ∧ s.poison = [] ∧ (∀ m ∈ s.teams, m.2.logs = [])
      ∧ Memory.wf s.mem = true := by decide +kernel
theorem test_wit_PortAndErrorEvents_errors : (((ts (tg 0)).updCore 0 0 fun c => { c with banks := [(0, 0)] }).core 0 0).banks.find 0 = some 0
    ∧ (ts { tg 0 with task := some { tTask true with draft := [{ place := .hbm 0 128, mask := 1#64, bytes := [7#8] }] } }).taskOf 1 0 9
        = some ({ tTask true with draft := [{ place := .hbm 0 128, mask := 1#64, bytes := [7#8] }] }, 0) := by decide +kernel
theorem test_wit_PortAndErrorEvents_promoted : let t : Task := { tTask false with draft := [{ place := .hbm 0 128, mask := 1#64, bytes := [7#8] }] }
    (ts { tg 0 with task := some t }).taskOf 1 0 9 = some (t, 0) ∧ t.spec = false ∧ 0 < t.draft.length ∧ t.draft[0]?.map (·.place) = some (.hbm 0 128) := by decide +kernel
theorem test_wit_RegisterAccessEvents : (tBoot (.registerWrite 0 0 0 8 1) 3).boot.stage ≠ 4 ∧ (tBoot (.registerWrite 0 2 0x5000 8 1) 4).subject = .registerWrite 0 2 0x5000 8 1 ∧ (tBoot .powerOn 4).boot.stage = 4
    ∧ 0x5000 = 4096 * 5 + 0 ∧ regAt 0 0 0x140008 = some (.ctx 0 0 0x08, 8) ∧ ¬(0 = 2 ∧ 0x140008 % 4096 < 8 ∧ 0x140008 / 4096 < 4096) ∧ (tBoot (.registerReadClear 0 0 0x140050 8) 4).subject = .registerReadClear 0 0 0x140050 8
    ∧ regAt 0 0 0x140050 = some (.ctx 0 0 0x50, 8) ∧ ((tEn .powerOn).ctx 0 0).en = true := by decide +kernel
theorem test_wit_RegisterAccessEvents_atomic : ∀ op ∈ [HostAtomic.swap, .fetchAdd, .cas 1], let s := tBoot (.registerAtomic 0 0 0x140008 8 op 1) 4
    s.subject = .registerAtomic 0 0 0x140008 8 op 1 ∧ s.barsOpen 0 0 = true ∧ regAt 0 0 0x140008 = some (.ctx 0 0 0x08, 8) := by decide +kernel
def tQd : QDesc := { QDesc.reset with slotSz := 64, slots := 2 }
/-- Queue 5 of function 1 enabled, one graph with handle 1, one launch. -/
def tQ (e : Event) (held : List Nat) (draining : Bool) (l : List (Nat × Launch)) : State :=
  (tr e).setHost { HostIf.reset with queues := [(5, { Queue.reset with en := true, fn := 1, pslot := 1#5, desc := tQd, held := held, draining := draining })],
                                     graphs := [{ part := 1, ctx := 0, handle := 1#32, nodes := [tNode .grid] }], launches := l }
theorem test_wit_QueueAndLaunchEvents : (tr (.queueEnable 1 5)).subject = .queueEnable 1 5 ∧ ((tr .powerOn).queue 5).en = false ∧ (tr .powerOn).slotHolds (pslotOf 1 0#5) = true
    ∧ (((List.range 20).foldl (fun t d => t.putCtx d 0 { Ctx.reset with en := true }) (tr .powerOn)).writeBytes (.host noPasid 0) (leBytes 2 1 ++ leBytes 2 256 ++ leBytes 20 0 ++ leBytes 2 64 ++ leBytes 2 0 ++ leBytes 3 2)).descCheck 1 1
      (leBytes 2 1 ++ leBytes 2 256 ++ leBytes 20 0 ++ leBytes 2 64 ++ leBytes 2 0 ++ leBytes 3 2 ++ leBytes 225 0) = none
    ∧ (tQ (.drain 1 5) [] false []).subject = .drain 1 5 ∧ ((tQ (.queueDisable 1 5) [] false []).queue 5).en = true ∧ ((tQ (.drain 1 5) [] false []).queue 5).fn = 1
    ∧ ((tQ (.queueDrainDone 5) [] true []).queue 5).draining = true ∧ (tQ (.queueDrainDone 5) [] true []).queueIdle 5 = true ∧ (tQ (.statusWrite 5) [] false []).subject = .statusWrite 5
    ∧ (tQ .powerOn [] false []).fnLive 1 = true ∧ ((tr .powerOn).setBoot { Boot.reset with retired := [19] }).fnLive 33 = false ∧ ({ Queue.reset with taken := 5#16 } : Queue).word0 ≠ 0 := by decide +kernel
theorem test_wit_QueueAndLaunchEvents_kick : (tQ (.kick 1 5 0 8 0x0000000100000001) [] false []).subject = .kick 1 5 0 8 0x0000000100000001 ∧ ((tQ .powerOn [] false []).queue 5).held.length < 64
    ∧ pteBits 0x0000000100000001#64 59 5 = 0 ∧ (tQ .powerOn [] false []).graph? 1 0 ((0x0000000100000001#64).setWidth 32) = some { part := 1, ctx := 0, handle := 1#32, nodes := [tNode .grid] }
    ∧ pteBits 0x0000000100000001#64 32 24 < tQd.slots ∧ (tNode .grid).kind ≠ .evwait ∧ ((tr (.kick 1 5 0 8 0)).queue 5).en = false := by decide +kernel
theorem test_wit_QueueAndLaunchEvents_launch : (tQ (.launchStart 9) [9] false [(9, tLaunch false .waiting .grid)]).subject = .launchStart 9
    ∧ (tQ (.launchStart 9) [9] false [(9, tLaunch false .waiting .grid)]).host.launches.find 9 = some (tLaunch false .waiting .grid) ∧ (tLaunch false .waiting .grid).queue = some (5, 0)
    ∧ (tQ (.launchStart 9) [9] false [(9, tLaunch false .waiting .grid)]).mayStart 5 9 (tLaunch false .waiting .grid) = true
    ∧ (tQ (.launchRetire 9) [] false [(9, tLaunch true .finished .grid)]).subject = .launchRetire 9 ∧ (tLaunch true .finished .grid).runs.all NodeRun.over = true
    ∧ Tbl.sorted (tQ (.launchRetire 9) [] false [(9, tLaunch true .finished .grid)]).host.launches = true ∧ ((tQ .powerOn [] false []).queue 5).done = BitVec.ofNat 32 0 ∧ ((tQ .powerOn [] false []).queue 5).retired = []
  := by decide +kernel
/-- All 20 dies of partition 1 with context 0 enabled, and a graph image of one node at 0x100 of the host's memory. -/
def tIn (e : Event) : State := (List.range 20).foldl (fun t d => t.putCtx d 0 { Ctx.reset with en := true }) (tr e)
def tImage (e : Event) : State := (tIn e).writeBytes (.host 0 0x100) (leBytes 2 1 ++ leBytes 2 0 ++ leBytes 2 1 ++ leBytes 58 0 ++ leBytes 1 3)
theorem test_wit_GraphAndNodeEvents_graph : (tImage (.gcmd 1 0x101)).subject = .gcmd 1 0x101 ∧ (match (tImage (.gcmd 1 0x101)).parseGraph 1 (pteBits 0x101#64 4 4) (pteBits 0x101#64 8 56 * 256) with | .ok _ => true | .error _ => false) = true
    ∧ (match (tIn (.gcmd 1 0x101)).parseGraph 1 (pteBits 0x101#64 4 4) (pteBits 0x101#64 8 56 * 256) with | .ok _ => false | .error _ => true) = true ∧ (tr (.gunreg 1 1)).subject = .gunreg 1 1
    ∧ pslotOf 1 ((tImage (.gcmd 1 0x101)).greg 1).pslot = 1 ∧ (tImage (.gcmd 1 0x101)).host.graphs.length < 2 ^ 31 ∧ ((tImage (.gcmd 1 0x101)).part 1).next ≠ 0#32 := by decide +kernel
theorem test_wit_GraphAndNodeEvents_node : ∀ k ∈ [NodeKind.evsig, .evwait, .copy, .grid, .ordered, .loadw], let s := tQ (.nodeStart 9 0) [] false [(9, tLaunch true .waiting k)]
    s.subject = .nodeStart 9 0 ∧ s.host.launches.find 9 = some (tLaunch true .waiting k) ∧ (tLaunch true .waiting k).nodes[0]? = some (tNode k) ∧ (tLaunch true .waiting k).runs[0]? = some .waiting
      ∧ (tLaunch true .waiting k).started = true ∧ (tNode k).preds = [] ∧ (tNode k).kind = k := by decide +kernel
theorem test_wit_GraphAndNodeEvents_finish : (tQ (.nodeFinish 9 0) [] false [(9, tLaunch true (.running 0 false) .grid)]).subject = .nodeFinish 9 0
    ∧ (tQ (.nodeFinish 9 0) [] false [(9, tLaunch true (.running 0 false) .grid)]).host.launches.find 9 = some (tLaunch true (.running 0 false) .grid)
    ∧ (tLaunch true (.running 0 false) .grid).runs[0]? = some (.running 0 false) ∧ 0 < (tLaunch true (.running 0 false) .grid).nodes.length := by decide +kernel
def tShard : Shard := { src := 0, len := 64, nvme := false, folio := true, addr := 0, dies := 1, digest := Config.sha512 (List.replicate 64 0#8), tries := 0 }
def tLoad : Load := { launch := 9, node := 0, shards := [tShard], got := 0, cast := true, spare := [] }
theorem test_wit_GraphAndNodeEvents_load : (((tr (.shardReceive 1 0 (.bytes (List.replicate 64 0#8)))).putPart 1 { Part.reset with load := some tLoad }).part 1).load = some tLoad ∧ tLoad.shards[0]? = some tShard
    ∧ tLoad.got = 0 ∧ ((tr (.shardReceive 1 0 (.bytes (List.replicate 64 0#8)))).putPart 1 { Part.reset with load := some tLoad }).shardFlies 1 0 = false ∧ Config.sha512 (List.replicate 64 0#8) = tShard.digest ∧ tLoad.shards[0 + 1]? = none
    ∧ (((tr (.generationPublish 1)).putPart 1 { Part.reset with load := some tLoad }).bindsOlder 1 0) = false
    ∧ ((tQ (.generationPublish 1) [] false [(9, tLaunch true .waiting .loadw)]).bindsOlder 1 1) = true := ⟨rfl, rfl, rfl, by decide, rfl, rfl, by decide, by decide⟩
/-- A shard that has not yet been broadcast, every firewall open. -/
theorem test_wit_GraphAndNodeEvents_cast : ({ tLoad with cast := false } : Load).cast = false ∧ tLoad.cast = true ∧ ∀ l, ((tr (.shardReceive 1 0 (.bytes []))).wall l).closed = false := ⟨rfl, rfl, fun _ => rfl⟩
def tCtx (e : Event) (x : Ctx) : State := (tr e).putCtx 0 0 x
theorem test_wit_ContextEvents_enable : (tCtx (.contextEnable 0 0) Ctx.reset).subject = .contextEnable 0 0 ∧ Ctx.reset.en = false ∧ Ctx.reset.sdtb = 0#64
    ∧ (let x := { Ctx.reset with sdtb := 1#64, rbtb := 1#64, ptb := 1#64 }; x.sdtb ≠ 0#64 ∧ x.rbtb ≠ 0#64 ∧ x.ptb ≠ 0#64 ∧ x.evtb = 0#64)
    ∧ (let x := { Ctx.reset with sdtb := 1#64, rbtb := 1#64, ptb := 1#64, evtb := 1#64, saveb := 1#64, fqb := 0x1000#64 }; x.evtb ≠ 0#64 ∧ x.saveb ≠ 0#64 ∧ pteBits x.fqb 12 52 ≠ 0) ∧ (tr .powerOn).slotOf 0 ≠ 0 := by decide +kernel
theorem test_wit_ContextEvents_enable_order : let x := { Ctx.reset with sdtb := 1#64, rbtb := 1#64, ptb := 1#64, evtb := 1#64, saveb := 1#64 }
    x.evtb ≠ 0#64 ∧ x.saveb ≠ 0#64 ∧ pteBits x.fqb 12 52 = 0 ∧ (tCtx .powerOn x).fabric.unjoined = false ∧ ((tCtx .powerOn x).setFabric { Fabric.reset with unjoined := true }).fabric.unjoined = true := by decide +kernel
theorem test_wit_ContextEvents_disable : (tEn (.contextDisable 0 0)).subject = .contextDisable 0 0 ∧ ((tEn .powerOn).ctx 0 0).en = true ∧ (tEn .powerOn).ctxIdle 0 0 = true
    ∧ ((tEn (.contextDisable 0 0)).putTeam 0 probeTeam).ctxIdle 0 0 = false ∧ ((tCtx (.contextIdle 0 0) { Ctx.reset with en := true, killing := true }).ctx 0 0).killing = true
    ∧ (tCtx (.contextIdle 0 0) { Ctx.reset with en := true, killing := true }).ctxIdle 0 0 = true ∧ (tEn (.contextKill 0 0 true)).subject = .contextKill 0 0 true := by decide +kernel
theorem test_wit_ContextEvents_fault : (tCtx (.fqciWrite 0 0 4) { Ctx.reset with fqb := 2#64, fqpi := 5#32 }).subject = .fqciWrite 0 0 4 ∧ (5#32 - 4#32).toNat ≤ ringSize 2#64 ∧ ringSize 2#64 < (5#32 - 0#32).toNat
    ∧ (tCtx (.tlbinv 0 0 1) Ctx.reset).subject = .tlbinv 0 0 1 ∧ Ctx.reset.tlbBusy = [] ∧ ((tCtx (.tlbinvDone 0 0) { Ctx.reset with tlbBusy := [1#64] }).ctx 0 0).tlbBusy = [1#64] := by decide +kernel
theorem test_wit_DescriptorAndHostEvents : (tr (.segsync 0 0 0x80000000)).subject = .segsync 0 0 0x80000000 ∧ (tr (.descriptorSyncDone 1 0 none (.rbres 0 0 0))).subject = .descriptorSyncDone 1 0 none (.rbres 0 0 0)
    ∧ ((ts (tg 0)).setSubject (.descriptorSyncDone 1 0 none (.scalar tk 0 5))).group? tk = some (tg 0) ∧ (tg 0).team = 0 ∧ ((tp (tg 0)).setSubject (.rbcmdBind 0 0 5 1)).subject = .rbcmdBind 0 0 5 1
    ∧ ((tp (tg 0)).applyBind (dieWho 0 0) 5 (.bind 1)).1 = .refused ∧ (tr (.priResponse 0 0 7 true)).subject = .priResponse 0 0 7 true ∧ (tr (.priResponse 0 0 7 false)).groups = []
    ∧ (tr (.priResponse 0 0 7 false)).teams = [] ∧ (tr (.priResponse 0 0 7 false)).cores = [] ∧ ((tr (.priResponse 0 0 7 false)).die 0).saved = []
    ∧ (tr (.atsTranslationCompletion 0 0 7 false)).subject = .atsTranslationCompletion 0 0 7 false ∧ (tr (.atsInvalidate 0 7 7)).subject = .atsInvalidate 0 7 7 := by decide +kernel
/-- The act of the host on entry 5 is that of the group in test_wit_SegmentAndRubric_applied: the same master, so it is applied. -/
theorem test_wit_DescriptorAndHostEvents_applied : tpWho = dieWho 0 0 := by decide
theorem test_wit_DescriptorAndHostEvents_resume : ∀ e ∈ [Event.pkctlResume 0 0 0 none, .pkctlResume 0 0 0 (some 3), .pkctlKill 0 0 0 (some 0)],
    ((ts { tg 0 with run := .parked (.page .pageLoad) }).setSubject e).group? ⟨0, 0, 0⟩ = some { tg 0 with run := .parked (.page .pageLoad) }
      ∧ ((ts { tg 0 with run := .parked (.page .pageLoad) }).setSubject e).ctxOf 0 = 0 ∧ (3 : Nat) ≠ 0 := by decide +kernel
/-- A group parked with an act that faulted at its home die. -/
theorem test_wit_DescriptorAndHostEvents_act : let g : Group := { tg 0 with run := .parked (.act .pageLoad 0x40 0 81 (.signal (some (tk, 0)))) }
    ((ts g).setSubject (.pkctlResume 0 0 0 none)).group? ⟨0, 0, 0⟩ = some g ∧ g.speculative = false := by decide +kernel
/-- RBCMD of UNBIND on entry 5: it is applied, and RBRES still answers for it. -/
def tRbcmd : State := let s := (tp (tg 0)).setSubject (.rbcmdUnbind 0 0 5); s.newId.2.putCtx 0 0 { s.ctx 0 0 with resDone := false, resAct := s.fresh }
theorem test_wit_DescriptorAndHostEvents_done : ∃ e sig t, tRbcmd.applyBind (dieWho 0 0) 5 .unbind = (.applied e sig, t) ∧ (t.ctx 0 0).resAct = ((tp (tg 0)).setSubject (.rbcmdUnbind 0 0 5)).fresh := by
  obtain ⟨e, sig, held, h⟩ := test_unbind tRbcmd (by decide +kernel) (by decide +kernel) (by decide +kernel) (by decide +kernel) (by decide +kernel) (by decide +kernel) (by decide +kernel)
  have h2 : ∀ b : Bool, ((tUnbound tRbcmd b).ctx 0 0).resAct = ((tp (tg 0)).setSubject (.rbcmdUnbind 0 0 5)).fresh := by decide +kernel
  exact ⟨e, sig, _, h, h2 held⟩
theorem test_wit_DescriptorAndHostEvents_last : ((tCtx .powerOn { Ctx.reset with resAct := 4 }).ctx 0 0).resAct = 4 ∧ (4 : Nat) ≠ 3 := by decide +kernel
/-- A group that waits for the host's page 7, and nothing else. -/
def tHost (e : Event) : Group × State := ({ tg 0 with run := .parked (.host 7 (trapOf .pageLoad 0#32)) }, (ts { tg 0 with run := .parked (.host 7 (trapOf .pageLoad 0#32)) }).setSubject e)
theorem test_wit_DescriptorAndHostEvents_page : let s := (tHost (.priResponse 0 0 7 true)).2; let g := (tHost .powerOn).1
    s.groups = [(keyNum tk, g)] ∧ tk.core < 16 ∧ tk.slot < 512 ∧ tk.die = 0 ∧ s.ctxOf g.team = 0 ∧ g.budgetDue = false ∧ s.access = [] ∧ s.barriers = [] ∧ Tbl.sorted s.groups = true ∧ g.task = none := by decide +kernel
theorem test_wit_DescriptorAndHostEvents_refused : let s := (tHost (.priResponse 0 0 7 false)).2; let g := (tHost .powerOn).1; let u := (s.priAnswered 0 0 7).refuseGroup tk g
    (s.priAnswered 0 0 7).hostWaiters 0 0 7 = [(tk, g)] ∧ u.groupsOn 0 0 = [] ∧ (∀ e ∈ u.teams, e.2.logs = []) ∧ (∀ e ∈ u.cores, e.2.copy = []) ∧ (u.die 0).saved = [] := by decide +kernel
/-- Die 0 runs context 0, whose launch 9 has a cluster to place; context 3 is enabled, and has one too where `two`. -/
def tRange : Range := { launch := 9, node := 0, next := 0, last := 1, waited := 4096, since := some 0, blocking := false, again := false }
def tDie (e : Event) (run : Option Nat) (rs : List Range) (c : Nat) : State :=
  ((tQ e [] false [(9, { tLaunch true .waiting .grid with ctx := c, recs := [(0, probeKernel, SegReg.null)] })]).putCtx 0 c { Ctx.reset with en := true }).updDie 0 fun d => { d with run := run, ranges := rs }
theorem test_wit_SchedulingEvents_slice : (tDie (.contextStart 0 0) none [tRange] 0).firstWork 0 (List.range 16) = some 0 ∧ (tDie (.contextStart 0 0) none [] 0).firstWork 0 (List.range 16) = none
    ∧ ((tDie (.sliceEnd 0 0) (some 0) [] 0).die 0).run = some 0 ∧ ((tDie (.sliceEnd 0 0) (some 0) [] 0).die 0).slice = 0 ∧ ((tDie (.sliceEnd 0 0) (some 0) [] 0).die 0).switching = false
    ∧ (tDie (.sliceEnd 0 0) (some 0) [] 0).firstWork 0 (ctxsAfter 0) = none ∧ (tDie (.sliceEnd 0 0) (some 0) [tRange] 3).firstWork 0 (ctxsAfter 0) = some 3
    ∧ (tDie (.sliceEnd 0 0) (some 0) [tRange] 3).holdsMatrix 0 0 = false ∧ (tDie (.sliceEnd 0 0) (some 0) [tRange] 3).groups = [] ∧ (tDie (.sliceEnd 0 0) (some 0) [tRange] 3).domains = []
    ∧ (((tDie (.sliceEnd 0 0) (some 0) [tRange] 3).putTeam 0 probeTeam).putTile 0 0 5 (tTile .full)).holdsMatrix 0 0 = true := by decide +kernel
def tSaved : Saved := { id := 4, ctx := 0, core := 0, slot := 2, full := true, group := tg 0, lost := true }
theorem test_wit_SchedulingEvents_save : ((ts { tg 0 with flash := .forward }).setSubject (.flashbackTimeout tk 0)).group? tk = some { tg 0 with flash := .forward }
    ∧ (let g := { tg 0 with flash := .saving true 0 }; ((ts g).setSubject (.groupSave tk 0)).team? 0 = some probeTeam ∧ (ts g).idleSlot g = false ∧ g.quiet = true)
    ∧ ({ tg 0 with flash := .saving true 0, me := 1 } : Group).quiet = false ∧ ((ts (tg 0)).setClk 9).clk = 8 + 1
    ∧ (((tDie (.groupRestore 0 4) (some 0) [] 0).updDie 0 fun d => { d with saved := [tSaved] }).die 0).saved.find? (fun y => y.id = 4) = some tSaved
    ∧ ((tDie (.groupRestore 0 4) (some 0) [] 0).penFor 0 0 64).isSome = true ∧ tSaved.group.regs = []
    ∧ ((tDie (.groupRestore 0 4) (some 0) [] 0).setGroups ((List.range 128).map fun p => (keyNum ⟨0, 0, 4 * p⟩, { tg 0 with window := 256 }))).penFor 0 0 64 = none := by decide +kernel
theorem test_wit_SchedulingEvents_place : ((tDie (.clusterPlace 0 9 0) (some 0) [tRange] 0).die 0).switching = false
    ∧ ((tDie (.clusterPlace 0 9 0) (some 0) [tRange] 0).tryRanges 0 none ((tDie (.clusterPlace 0 9 0) (some 0) [tRange] 0).rangesFor 0)).isSome = true
    ∧ (tDie (.clusterPlace 0 9 0) (some 0) [] 0).tryRanges 0 none ((tDie (.clusterPlace 0 9 0) (some 0) [] 0).rangesFor 0) = none
    ∧ ((tDie (.headBlocking 0 9 0 0) (some 0) [tRange] 0).die 0).ranges.find? (fun r => r.launch = 9 ∧ r.node = 0 ∧ r.next = 0) = some tRange ∧ tRange.since = some 0 ∧ 4096 ≤ tRange.waited + (0 - 0) := by decide +kernel
theorem test_wit_SchedulingEvents_switch : ((tDie (.contextStart 0 3) (some 0) [tRange] 3).updDie 0 fun d => { d with switching := true }).firstWork 0 (ctxsAfter 0) = some 3
    ∧ (((tDie (.contextStart 0 3) (some 0) [tRange] 3).updDie 0 fun d => { d with switching := true }).die 0).run = some 0 ∧ window8 (tg 0).window = 64
    ∧ (tDie (.groupRestore 0 4) (some 0) [] 0).penFor 0 0 (window8 tSaved.group.window) ≠ none := by decide +kernel
/-- The context to come is fixed; it is enabled or not; and a group saved for the running context keeps new clusters from its places. -/
def tComing (en : Bool) : State := ((tDie (.contextStart 0 3) (some 0) [tRange] 3).putCtx 0 3 { Ctx.reset with en := en }).updDie 0 fun d => { d with switching := true, coming := some 3 }
theorem test_wit_SchedulingEvents_coming : ((tComing true).die 0).coming = some 3 ∧ ((tComing true).ctx 0 3).en = true ∧ ((tComing false).ctx 0 3).en = false ∧ ((tComing true).die 0).switching = true
    ∧ ((tDie (.contextStart 0 3) (some 0) [tRange] 3).die 0).coming ≠ some 3
    ∧ (((tDie (.clusterPlace 0 9 0) (some 0) [] 0).updDie 0 fun d => { d with saved := [tSaved] })).savedWaits 0 = true ∧ (tDie (.clusterPlace 0 9 0) (some 0) [tRange] 0).savedWaits 0 = false
    ∧ (ts (tg 0)).readFlies (.clause tk) = false := by decide +kernel
def tObject : EmuObject := { part := 1, ctx := 0, sels := [3#16], size := 100, minLevel := 0, builtLevel := 3, note := [] }
theorem test_wit_SchedulingEvents_object : (tr (.objectLoad tObject)).subject = .objectLoad tObject ∧ (3#16 : BitVec 16) ∈ tObject.sels := by decide +kernel
/-- Objects of each status: a minimum level above the hardware's, above a context's CLEV, above the built level; one that this hardware refuses; and one that loads. -/
def tObj (min built : Nat) (note : List NoteEntry) : EmuObject := { tObject with minLevel := min, builtLevel := built, note := note }
theorem test_wit_SchedulingEvents_levels : 3 < (tObj 4 5 []).minLevel ∧ (tObj 3 3 []).minLevel ≤ 3 ∧ (0 ∈ (tr .powerOn).diesOf 1) ∧ (((tr .powerOn).putCtx 0 0 { Ctx.reset with clev := 2#8 }).ctx 0 0).clev.toNat < (tObj 3 3 []).minLevel
    ∧ (∀ d ∈ (tr .powerOn).diesOf 1, ¬ ((tr .powerOn).ctx d 0).clev.toNat < 3) ∧ (tObj 3 2 []).builtLevel < 3 ∧ 3 < (tObj 3 4 []).builtLevel
    ∧ (∃ e ∈ (tObj 3 4 [{ opc := 0x20#8, lvl := 4, refuse := true, mask := 0#32, val := 0#32 }]).note, e.refuse = true) ∧ (∀ e ∈ (tObj 3 4 []).note, e.refuse = false) := by decide +kernel
def tReady : Group := { tg 0 with run := .ready }
theorem test_wit_SchedulingEvents_clause : ((ts tReady).pen ⟨0, 0, 0⟩).holder = none ∧ (ts tReady).oldestOn ⟨0, 0, 0⟩ none = some (tk, tReady) := by decide +kernel
/-- A group whose clause lies across pages 2 and 3: its header ends page 2, and the NOP it has begins page 3. -/
def tgFetch : Group :=
  { tgCode 0 with run := .waiting .fetch, clause := none, seg := [(15, { SegReg.null with sel := 1#16, kind := 1#3, x := true, base := 0xbffffffc#57, limit := 0x1000#48 })] }
theorem test_wit_SchedulingEvents_fetch : (match (((tp tgFetch).writeBytes (.hbm 0 0x3ffffffc) (leBytes 4 (soleHeader 0 false).toNat)).fetchClause tk tgFetch .memory).1 with | .clause _ => true | _ => false) = true
    ∧ tgFetch.run = .waiting .fetch := by decide +kernel
theorem test_wit_SchedulingEvents_budget : (((tDie (.budgetTick (.team 0)) (some 0) [] 0).putTeam 0 { probeTeam with budget := some (0 + 2) }).team? 0) = some { probeTeam with budget := some (0 + 2) }
    ∧ ((tDie (.budgetTick (.team 0)) (some 0) [] 0).die 0).run = some probeTeam.ctx ∧ (tr (.budgetGraceExpire 0)).team? 0 = none ∧ probeTeam.keys = [tk]
    ∧ (((ts (tg 0)).killGroup tk (tg 0)).die 0).saved = [] ∧ probeTeam.groups ≠ [] ∧ ({ probeTeam with groups := [] } : Team).groups = []
    ∧ (((tr (.teamRetire 0)).putTeam 0 { probeTeam with groups := [] }).teamBusy 0 { probeTeam with groups := [] }) = false ∧ probeTeam.redo = false := by decide +kernel
theorem test_wit_SchedulingEvents_due : let tm : Team := { probeTeam with budget := some (0 + 1) }; let s := (((ts (tg 0)).putTeam 0 tm).setSubject (.budgetTick (.team 0))).setClk 64
    let u := s.updDie 0 fun d => { d with run := some 0 }
    u.team? 0 = some tm ∧ 64 ≤ u.ranClk tm.die tm.ctx - tm.ranAt ∧ s.ranClk tm.die tm.ctx - tm.ranAt < 64 ∧ tm.keys = [tk] ∧ u.group? tk = some (tg 0) ∧ (tg 0).task = none := by decide +kernel
/-- The two lines in which that clause lies, held already. -/
def tLines : List Line := [0xbfffffc0, 0xc0000000].map fun a => { ctx := 0, lin := a, bytes := [] }
theorem test_wit_SchedulingEvents_busy : (((tsMat [tMatOp] (tg 0)).putTeam 0 { tTeam with groups := [] }).teamBusy 0 { tTeam with groups := [] }) = true
    ∧ ((((tp tgFetch).writeBytes (.hbm 0 0x3ffffffc) (leBytes 4 (soleHeader 0 false).toNat)).updCore 0 0 fun c => { c with lines := tLines }).fetchClause tk tgFetch .memory).2.fetchRefresh tk tgFetch 8 = none := by decide +kernel
def tClaim (n : Nat) : State := (ts { tg 0 with run := .waiting (.claim n) }).putPen ⟨0, 0, 0⟩ { Pen.reset with claims := [(0, n)] }
theorem test_wit_SchedulingEvents_deadlock : (tk.slot, 193) ∈ ((tClaim 193).pen ⟨0, 0, 0⟩).claims := by decide +kernel
theorem test_wit_SchedulingEvents_claim : ((tClaim 192).pen ⟨0, 0, 0⟩).claims = [(tk.slot, 192)] ∧ penOf tk = ⟨0, 0, 0⟩ ∧ (tClaim 192).group? tk = some { tg 0 with run := .waiting (.claim 192) }
    ∧ 192 ≤ (tClaim 192).freeRegs ⟨0, 0, 0⟩ ∧ (tg 0).well = [] ∧ tk ∈ penSlots ⟨0, 0, 0⟩ ∧ (tClaim 193).deadlocked ⟨0, 0, 0⟩ 0 = true ∧ (tClaim 192).deadlocked ⟨0, 0, 0⟩ 0 = false := by decide +kernel

/-! ## Arrivals, task events, engine events -/

theorem test_wit_ArrivalEvents_barrier : ((ts (tg 0)).setSubject (.barrierArrive (.team 0 1) (.arrive tk 0))).subject = .barrierArrive (.team 0 1) (.arrive tk 0) ∧ (tg 0).team = 0
    ∧ (tr (.barrierArrive (.team 0 1) (.expect 4))).subject = .barrierArrive (.team 0 1) (.expect 4) ∧ (tr (.barrierArrive (.team 0 1) (.post 4))).subject = .barrierArrive (.team 0 1) (.post 4) := by decide +kernel
theorem test_wit_ArrivalEvents_mma : (((ts (tg 0)).putBarrier (.team 0 1) { Barrier.reset with arrived := [tk] }).barrier (.team 0 1)).arrived.contains tk = true := by decide +kernel
theorem test_wit_ArrivalEvents_event : (tsEvent (.eventActArrive 1 0 81 (.signal none)) (tg 0)).agenda = [] ∧ (tsEvent .powerOn (tg 0)).homeDie 1 = 0
    ∧ (tsEvent .powerOn (tg 0)).evFind 0 0 81 = some { evEmpty with c := 3#32, onChip := true } ∧ evEmpty.waiters = [] ∧ evEmpty.nodes = [] ∧ evEmpty.head = 0 ∧ evEmpty.dies = []
    ∧ (tsEvent .powerOn (tg 0)).evHeld 0 0 81 = false ∧ (let g := { tg 0 with run := .waiting (.event 81 3), half := .done }; (ts g).group? tk = some g ∧ g.team = 0) := by decide +kernel
def tgPend : Group := { tg 0 with pend := [{ id := 7, on := .reg 5, lanes := 3#32 }] }
theorem test_wit_ArrivalEvents_queue : (tsQueue (.queueActArrive tk (.count 7 7 5)) true tgPend).agenda = [] ∧ (tsQueue .powerOn true tgPend).group? tk = some tgPend ∧ (tgPend.pend.any fun p => p.id = 7) = true
    ∧ ((tsQueue .powerOn true tgPend).wq 0 7).spoilt = [] ∧ ((tsQueue .powerOn true tgPend).wq 0 7).items.length + (lanesOf 0x3fff#32).length ≤ (tsQueue .powerOn true tgPend).wqCap 0 7
    ∧ (tsQueue .powerOn true tgPend).usedBlocks 0 + wqBlocks (2 + 14) ≤ storeBlocks + wqBlocks 2 := by decide +kernel
def tSwap : Except (XFault × Nat) (List Run) × State :=
  let s := (tp (tg 0)).putWq 0 7 { items := [3#32, 4#32], blocks := [], spoilt := [], resident := false, loading := true, used := 0 }
  s.translateRange (dieWho 0 0) .read (2 / 16384 + 2) (s.qsaveLin 0 7) (4 * 2)
theorem test_wit_ArrivalEvents_swap : (match tSwap.1 with | .ok _ => true | .error _ => false) = true ∧ (tp (tg 0)).usedBlocks 0 + wqBlocks 2 ≤ storeBlocks := by decide +kernel
/-- A pop that meets a record with an uncorrectable error, of 2 lanes and of 2 records. -/
theorem test_wit_ArrivalEvents_spoilt : let q : WorkQueue := { items := [3#32, 4#32], blocks := [], spoilt := [1], resident := true, loading := false, used := 0 }
    (1 : Nat) ∈ q.spoilt ∧ 1 < (lanesOf 3#32).length ∧ 1 < q.items.length := by decide +kernel
/-- A domain of launch 9 on die 0 with a record queued, and an idle task slot of team 0. -/
def tDom (x : DomDie) : Domain := { dom := 2, launch := 9, node := 0, dies := [0], args := [], onDie := [(0, x)], tracks := [], failed := false }
def tsDom (e : Event) (run : Option Nat) (x : DomDie) : State :=
  ((((ts ({ tg 0 with run := .stopped } : Group)).setSubject e).putTeam 0 { probeTeam with launch := 9, krec := { probeKernel with ord := true } }).updDie 0 fun d => { d with run := run }).putDomain 1 0 (tDom x)
def tDomQ : DomDie := { DomDie.empty with queued := [(tTask true).record] }
theorem test_wit_TaskEvents_dispatch : (tTask true).record.args.length = 4 ∧ (tTask true).record.nl ≤ 32 ∧ (tTask true).record.ek = false ∧ (tr (.taskDispatch 0 1 0)).domains = []
    ∧ (tsDom (.taskDispatch 0 1 0) (some 0) tDomQ).domains = [((1, 0), tDom tDomQ)] ∧ (tsDom .powerOn (some 0) tDomQ).slotOf 0 = 1 ∧ ((tDom tDomQ).at 0).spilled = []
    ∧ ((tDom tDomQ).at 0).queued.length ≤ Config.taskStore ∧ (tsDom .powerOn (some 0) tDomQ).groups = [(keyNum tk, { tg 0 with run := .stopped })] ∧ (tsDom .powerOn (some 0) tDomQ).ctxOf 0 = 0
    ∧ (((tsDom .powerOn (some 0) tDomQ).team? 0).any fun t => t.die == 0 && t.ctx == 0 && t.launch == 9 && t.node == 0 && !t.noTask) = true ∧ (tg 0).task = none
    ∧ ((tsDom .powerOn none tDomQ).die 0).run ≠ some 0 ∧ ((tsDom .powerOn (some 0) tDomQ).die 0).run = some 0 ∧ ((tsDom .powerOn (some 0) tDomQ).die 0).switching = false := by decide +kernel
theorem test_wit_TaskEvents_clk : ((tsDom .powerOn (some 0) tDomQ).die 0).nextDispatch ≤ (tsDom .powerOn (some 0) tDomQ).clk ∧ (((tsDom .powerOn (some 0) tDomQ).updDie 0 fun d => { d with nextDispatch := 9 }).die 0).nextDispatch = 9
    ∧ (tsDom .powerOn (some 0) tDomQ).clk < 9 ∧ ((tDom DomDie.empty).at 0).remains = [] := by decide +kernel
/-- The quota of a context is at least one record, and one is queued. -/
theorem test_wit_TaskInstructionResults_quota : let s := (tsDom .powerOn (some 0) tDomQ).putCtx 0 0 { Ctx.reset with tqNow := 0#16 }
    s.partCtx tk (tg 0) = (1, 0) ∧ s.domain? 1 0 = some (tDom tDomQ) ∧ s.taskQuota 0 0 ≤ (s.recordsOn 1 0 0 (tDom tDomQ)).length := by decide +kernel
/-- A task that has finished, with one grain of which byte 0 is written. -/
def tFinished : Finished := { task := { tTask true with draft := [{ place := .hbm 0 128, mask := 1#64, bytes := [7#8] }] }, core := 0 }
theorem test_wit_TaskEvents_commit : ((tDom DomDie.empty).at 0).committing = none ∧ (tDom DomDie.empty).tracks = [] ∧ (tsDom (.taskCommit 1 0 0) (some 0) DomDie.empty).domainEmpty 1 0 (tDom DomDie.empty) = true
    ∧ (∀ e ∈ (tsDom (.taskCommit 1 0 0) (some 0) DomDie.empty).groups, e.2.task = none) ∧ ((tsDom (.taskCommit 1 0 0) (some 0) DomDie.empty).die 0).saved = [] ∧ (tDom DomDie.empty).failed = false
    ∧ (tr (.taskCommit 1 0 0)).domain? 1 0 = none ∧ (tr .powerOn).domains = [] ∧ Memory.wf (tr .powerOn).mem = true ∧ (1#64 : BitVec 64).getLsbD 0 = true := by decide +kernel
theorem test_wit_TaskEvents_due : let x : DomDie := { DomDie.empty with committing := some (9, 0), finished := [tFinished] }; let s := (tr (.taskCommit 1 0 0)).putDomain 1 0 (tDom x)
    s.groups = [] ∧ s.teams = [] ∧ (s.die 0).saved = [] ∧ s.domains = [((1, 0), tDom x)] ∧ ((tDom x).at 0).committing = some (9, 0) ∧ 0 ≤ s.clk ∧ ((tDom x).at 0).finished = [tFinished] ∧ tFinished.task.record.id = 9
      ∧ Memory.wf s.mem = true := by decide +kernel
theorem test_wit_TaskEvents_refill : let x : DomDie := { DomDie.empty with spilled := [(tTask true).record], refilling := true }
    (tsDom (.spillRefill 0 1 0) (some 0) x).domains = [((1, 0), tDom x)] ∧ (tsDom (.spillRefill 0 1 0) (some 0) x).slotOf 0 = 1 ∧ ((tDom x).at 0).refilling = true ∧ ((tDom x).at 0).spilled.length ≤ 64
      ∧ ((tDom x).at 0).queued.length + ((tDom x).at 0).spilled.length ≤ Config.taskStore := by decide +kernel
theorem test_wit_TaskEvents_frontier : (tsDom (.frontierSample 1 0 2) (some 0) DomDie.empty).subject = .frontierSample 1 0 2 ∧ (tsDom (.frontierSample 1 0 2) (some 0) DomDie.empty).domain? 1 0 = some (tDom DomDie.empty)
    ∧ (tDom DomDie.empty).dom = 2 ∧ (tDom DomDie.empty).dom ≠ 1 ∧ ((tr (.frontierUpdate 1 0 2 0 1)).putDomain 1 0 (tDom DomDie.empty)).groups = [] ∧ ((tDom DomDie.empty).at 0).finished = []
    ∧ ((tr (.frontierUpdate 1 0 2 0 1)).putDomain 1 0 (tDom DomDie.empty)).domain? 1 0 = some (tDom DomDie.empty) := by decide +kernel
/-- Copies in the engine of core 0, whose group stands. -/
def tsCopy (e : Event) (l : List CopyCmd) : State := ((tsScr { tg 0 with ceq := [(5, false)] }).setSubject e).updCore 0 0 fun c => { c with copy := l }
def tRead : Except (XFault × Nat) (List Run) × State := (tsCopy (.copyBeat ⟨0, 0⟩ 5) [tCopy 5]).copyReach ⟨0, 0⟩ (tCopy 5) false 0x200 64
theorem test_wit_EngineEvents_copy : 4 ≤ (((tsCopy (.copyStart ⟨0, 0⟩) (List.replicate 4 (tCopy 5))).copies ⟨0, 0⟩).filter (·.running)).length
    ∧ (((tsCopy (.copyStart ⟨0, 0⟩) [{ tCopy 5 with running := false }]).copies ⟨0, 0⟩).find? fun y => !y.running) = some { tCopy 5 with running := false }
    ∧ ((tsCopy (.copyBeat ⟨0, 0⟩ 5) [{ tCopy 5 with rows := 0 }]).copies ⟨0, 0⟩) = [{ tCopy 5 with rows := 0 }] ∧ (tCopy 5).running = true ∧ (tCopy 5).frozen = false ∧ (tCopy 5).rows = 1 ∧ (tCopy 5).issued + 64 ≤ 64
    ∧ (tsCopy (.copyBeat ⟨0, 0⟩ 5) [tCopy 5]).copyFlies 5 = false ∧ (tsCopy (.copyBeat ⟨0, 0⟩ 5) [tCopy 5]).domains = [] ∧ (tCopy 5).ahead = [] ∧ (tCopy 5).bytes = (tCopy 5).moved + 64 ∧ (match tRead.1 with | .ok rs => rs.all fun r => r.place.plain | .error _ => false) = true
    ∧ (match (tRead.2.copyReach ⟨0, 0⟩ (tCopy 5) true 0x100 64).1 with | .ok _ => true | .error _ => false) = true ∧ (tCopy 5).node = none ∧ (tCopy 5).bar = none
    ∧ (tsCopy (.copyComplete ⟨0, 0⟩ 5) [tCopy 5]).group? (tCopy 5).g = some { tg 0 with ceq := [(5, false)] } := by decide +kernel
theorem test_wit_EngineEvents_flies : (tsTile .filling).tileFlies ⟨0, 0⟩ 5 = false ∧ (((tsTile .filling).setFabric { Fabric.reset with flits := [(0, [{ cls := .rsp, cargo := .read (.tile tk ⟨0, 0⟩ 5) 0 0 [], old := false }])] }).tileFlies ⟨0, 0⟩ 5) = true
    ∧ (tsCopy (.copyBeat ⟨0, 0⟩ 5) [tCopy 5]).beatsMade ⟨0, 0⟩ < 4 := by decide +kernel
/-- A refusal of a copy's write and of a drain's. -/
theorem test_wit_PortAndErrorEvents_engines : (tsCopy (.fabricRefusalReceive 5 0) [tCopy 5]).access.find 5 = none ∧ (tsCopy (.fabricRefusalReceive 5 0) [tCopy 5]).findCopy 5 = some (⟨0, 0⟩, tCopy 5) := by decide +kernel
theorem test_wit_EngineEvents_tiles : (((tsTile .filling).updDie 0 fun d => { d with feeders := [(0, tFeeder false)] }).die 0).feeders.find 0 = some (tFeeder false) ∧ (tFeeder false).filling = true ∧ (tFeeder false).stopped = false
    ∧ (tFeeder false).nt = (tFeeder false).next + 1 ∧ (tFeeder false).cores = [(tFeeder false).g.core] ∧ (tFeeder false).bar = none ∧ ((tsTile .filling).tile 0 0 (tFeeder false).slot).freeing = false
    ∧ ((tsTile .filling).tile 0 0 5).state = .filling ∧ ((tsTile .filling).tile 0 0 5).freeing = false := by decide +kernel
theorem test_wit_EngineEvents_matrix : (((tsMat [tMatOp] (tg 0)).arr 0 0).queue.find? fun p => p.start.isNone) = some tMatOp ∧ ((tsMat [tMatOp] (tg 0)).arr 0 0).frozen = false ∧ ((tsMat [tMatOp] (tg 0)).arr 0 0).pair = none
    ∧ ((tsMat [tMatOp] (tg 0)).arr 0 0).queue = [tMatOp] ∧ tMatOp.pair = false ∧ tMatOp.reads = [] ∧ tMatOp.bar = none ∧ (tsMat [tMatOp] (tg 0)).group? tMatOp.g = some (tg 0) ∧ (tg 0).team = tMatOp.team
    ∧ ((tsMat [tMatOp] (tg 0)).die 0).feeders = [] ∧ ((ts (tg 0)).die 0).mgate ≠ 0#16 ∧ (((tsMat [] (tg 0)).updArr 0 0 fun a => { a with gated := [(3, false)] }).arr 0 0).gated.get true 3 = false
    ∧ ((tsMat [] (tg 0)).arr 0 0).lastUse.get 0 3 + 64 * ((ts (tg 0)).die 0).mgate.toNat ≤ 4096 := by decide +kernel
def tDrain : Drain :=
  { id := 6, g := tk, team := 0, ctx := 0, clear := false, add := false, hand := 0#32, row := 0, rows := 1, col := 0, cols := 3, ofs := 0x100, pitch := 64, seg := ownSeg 0xfffe 3 true 4096,
    values := [1#32, 2#32, 3#32], readEnd := 0, leave := 0, faulted := false, told := [], frozen := false, sent := false, away := false }
def tsDrain : State := (tsMat [] (tg 0)).updArr 0 0 fun a => { a with drains := [tDrain] }
theorem test_wit_EngineEvents_drain : (tsDrain.arr 0 0).drains = [tDrain] ∧ tDrain.frozen = false ∧ tDrain.clear = false ∧ tDrain.add = false
    ∧ (match (tsDrain.reachRows { die := 0, core := 0, ctx := 0, copy := false, gen := tsDrain.teamGen 0 } (tsDrain.team? 0) tDrain.seg .write tDrain.pieces).1 with | .ok _ => true | .error _ => false) = true := by decide +kernel
theorem test_wit_PortAndErrorEvents_drain : let d := { tDrain with away := true, sent := true }; let s := tsDrain.updArr 0 0 fun a => { a with drains := [d] }
    s.access.find 6 = none ∧ s.findCopy 6 = none ∧ s.findDrain 6 = some (⟨0, 0⟩, d) ∧ d.away = true := by decide +kernel
/-- A copy of 64 bytes between two pages of HBM. -/
def tHbmCopy : CopyCmd := { tCopy 5 with src := { ownSeg 2 0 true 0x10000 with base := 0x80400000#57 }, dst := { ownSeg 2 0 true 0x10000 with base := 0x40400000#57 } }
def tsHbm : State := (((tp (tg 0)).updCore 0 0 fun c => { c with copy := [tHbmCopy] }).setClk 64).setSubject (.copyBeat ⟨0, 0⟩ 5)
def tHbmRead : Except (XFault × Nat) (List Run) × State := tsHbm.copyReach ⟨0, 0⟩ tHbmCopy false (0x200 + 0) 64
theorem test_wit_EngineEvents_beat : tsHbm.copies ⟨0, 0⟩ = [tHbmCopy] ∧ tHbmCopy.running = true ∧ tHbmCopy.frozen = false ∧ tHbmCopy.rows = 1 ∧ tHbmCopy.ahead = [] ∧ tHbmCopy.bytes = tHbmCopy.moved + 64
    ∧ tHbmCopy.issued + 64 ≤ tsHbm.clk ∧ tsHbm.copyFlies 5 = false ∧ tsHbm.beatsMade ⟨0, 0⟩ < 4 ∧ tsHbm.domains = []
    ∧ (match tHbmRead.1 with | .ok rs => (rs.all fun r => r.place.plain) && (tHbmRead.2.refreshEnd rs).isNone && rs.head?.all (fun q => q.place.onDie 0 == 0 && !q.place.isFar) | .error _ => false) = true
    ∧ (match (tHbmRead.2.copyReach ⟨0, 0⟩ tHbmCopy true (0x100 + 0) 64).1 with | .ok [r] => decide (r.place.onDie 0 = 0 ∧ r.place.isFar = false ∧ r.len = 64) | _ => false) = true
    ∧ ((tsCopy (.copyComplete ⟨0, 0⟩ 5) [tCopy 5]).setFabric { Fabric.reset with flits := [(0, [{ cls := .rsp, cargo := .write 5 tk 0 0 ⟨0, 0⟩ [] [] [], old := false }])] }).copyFlies 5 = true := by decide +kernel
theorem test_wit_EngineEvents_gate : (((ts (tg 0)).die 0).mgate ≠ 0#16) ∧ ((tsMat [] (tg 0)).arr 0 0).gated.get true 3 = true ∧ (tsMat [] (tg 0)).clk < ((tsMat [] (tg 0)).arr 0 0).lastUse.get 0 3 + 64 * ((ts (tg 0)).die 0).mgate.toNat
    ∧ (((ts (tg 0)).updDie 0 fun d => { d with mgate := 0#16 }).die 0).mgate = 0#16 := by decide +kernel
theorem test_wit_EngineEvents_drained : tsDrain.drainFlies ⟨0, 0⟩ 6 = false ∧ (tsDrain.arr 0 0).frozen = false ∧ tsDrain.group? tDrain.g = some (tg 0) ∧ (tg 0).team = tDrain.team
    ∧ (match (tsDrain.reachRows { die := 0, core := 0, ctx := 0, copy := false, gen := tsDrain.teamGen 0 } (tsDrain.team? 0) tDrain.seg .write tDrain.pieces).1 with
      | .ok rss => rss.all fun rs => rs.all fun r => decide (r.place.onDie 0 = 0) && !r.place.isFar && r.place.addable | .error _ => false) = true
    ∧ (tsDrain.updArr 0 0 fun a => { a with frozen := true }).arr 0 0 ≠ tsDrain.arr 0 0 := by decide +kernel
def tgBind (r : RunState) : Group := { tg 0xba000000 with run := r }
theorem test_wit_EngineEvents_pair : (tsPair (.pairBind ⟨0, 0⟩) (tgBind (.waiting .pairBind))).groups = [(keyNum tk, tgBind (.waiting .pairBind))] ∧ tk.core < 16 ∧ tk.slot < 512 ∧ (tgBind .ready).clause = some (tc 0xba000000)
    ∧ (tsPair (.pairBind ⟨0, 0⟩) (tgBind (.waiting .pairBind))).pairFor 0 0 0 (((tgBind .ready).fieldP (tc 0xba000000)).getLsbD 0) = some 1 ∧ (1 : Nat) ≠ tk.core
    ∧ ((tsPair .powerOn (tg 0)).arr 0 0).idle = true ∧ ((tsPair .powerOn (tg 0)).arr 0 1).idle = true ∧ (∀ e ∈ (tsPair .powerOn (tg 0)).groups, e.2.run ≠ .waiting .pairBind)
    ∧ ((tsPair .powerOn (tg 0)).updArr 0 0 fun a => { a with pair := some (0, 1), queue := [{ tMatOp with pair := true }] }).pairBusy 0 0 = true
    ∧ (let s := (tsPair (.pairEnd ⟨0, 0⟩) (tgBind (.waiting .pairEnd))).updArr 0 0 fun a => { a with pair := some (0, 1) }; s.pairBusy 0 0 = false ∧ (s.arr 0 0).pair = some (0, 1)) := by decide +kernel

/-! ## The whole machine -/

theorem test_wit_DecodeInvertsEncode : (Instr.iadd ⟨3, 1, 2⟩).hasWords = true ∧ decodeInstr 0x20030102#32 none = .ok (.iadd ⟨3, 1, 2⟩) := by decide
/-- A pen's turn to issue, with words that are an instruction and with words that are none; a clause boundary; an event that is due; nothing due. -/
def tTurn (s : State) (issues : Bool) : Bool := match s.settle.next with | .turn t => t.issues == issues | _ => false
def tWords (s : State) : Option (Word × Option Word) := (s.settle.group? tk).bind fun g => g.clause.map fun c => c.wordsAt g.pos
theorem test_wit_StepRunsDecodedInstruction : tTurn (State.reset.withFetchWord 32 0x20030102) true = true ∧ tWords (State.reset.withFetchWord 32 0x20030102) = some (0x20030102#32, none)
    ∧ decodeInstr 0x20030102#32 none = .ok (.iadd ⟨3, 1, 2⟩) ∧ tWords (State.reset.withFetchWord 32 0x1a000000) = some (0x1a000000#32, some 0#32)
    ∧ tTurn (((ts { tReady with clause := none }).setAgenda []).putPen ⟨0, 0, 0⟩ Pen.reset) false = true := by decide +kernel
theorem test_wit_StepRuns_other : (∃ t e rest, State.reset.settle.next = .event t e rest) ∧ ∃ t, (State.reset.setAgenda []).settle.next = .pass t := ⟨⟨_, _, _, rfl⟩, _, rfl⟩
theorem test_wit_StepRuns_no_instruction : decodeInstr 0x1a000000#32 (some 0#32) = .error .opc ∧ decodeInstr 0xa6d38486#32 none = .error .form := by decide
theorem test_wit_MemoryStaysCanonical : Memory.wf State.reset.mem = true ∧ ∃ t, step State.reset = .next t := ⟨by decide, _, rfl⟩

/-! ## Steps whose results the spec works out -/

/-- The group after an instruction of its own, where the instruction answers a next state. -/
def tRun (i : Instr) (g : Group) : Option Group := match exec i (ts g) with | .next t => t.group? tk | .fault _ => none | .refused _ => none
/-- The lanes `ls` of register `n` after an instruction. -/
def tReg (i : Instr) (g : Group) (n : Nat) (ls : List Nat) : Option (List Word) := (tRun i g).map fun h => ls.map fun l => h.regLane n l
def tSc (i : Instr) (g : Group) (n : Nat) : Option Word := (tRun i g).map fun h => h.scalar n
/-- A group whose registers hold the given values in every lane. -/
def tgV (rs : List (Nat × Word)) : Group := { tg 0 with regs := rs.map fun e => (e.1, Lanes.ofFn fun _ => e.2) }

/-- R274, worked case: the low word of a 64-bit add, and its carry. -/
theorem test_step_iadd : tReg (.iadd ⟨20, 2, 4⟩) (tgV [(2, 0xfffffff0#32), (4, 0x20#32)]) 20 [0, 31] = some [0x10#32, 0x10#32] := by decide +kernel
theorem test_step_iaddc : tReg (.iaddc ⟨20, 2, 4⟩) (tgV [(2, 0xfffffff0#32), (4, 0x20#32)]) 20 [0] = some [1#32] := by decide +kernel
/-- R277: tt 0xac is c ? a : b, bit by bit. -/
theorem test_step_bfn3 : tReg (.bfn3 ⟨7, 1, 2⟩ ⟨3, 5, 12, 0, 0, 0, 0, 0, 0, 0, 0⟩) (tgV [(1, 0x12345678#32), (2, 0x9abcdef0#32), (3, 0xffff0000#32)]) 7 [5] = some [0x1234def0#32] := by decide +kernel
/-- R286, worked case: two more E4M3 values above n0, rounded half away at level 3, with NX. -/
theorem test_step_f2q : let g := { tgV [(1, 0x3f880000#32), (2, 0x40200000#32)] with n0 := some (Lanes.ofFn fun _ => 0xb04a#32) }
    tReg (.f2qLong ⟨10, 1, 2⟩ ⟨0xc0, 0, 0, 0, 0, 0, 0, 0, 0, 0, 0⟩) g 10 [0] = some [0xb04a4239#32] := by decide +kernel
/-- R289, worked case: sums in lane order, in the order of mirror(2), and a scan. -/
def tgSum : Group := { tg 0 with exec := 0xf#32, regs := [(2, Lanes.ofFn fun l => if l = 0 then 0x4b800000#32 else if l = 3 then 0x40000000#32 else 0x3f800000#32)] }
theorem test_step_fred : tReg (.fred ⟨5, 2, 0xe0⟩) tgSum 5 [0, 3] = some [0x4b800001#32, 0x4b800001#32] := by decide +kernel
theorem test_step_fred_mirror : tReg (.fredLong ⟨5, 2, 0xe0⟩ ⟨0xe0, 4, 2, 0, 0, 0, 0, 0, 0, 0, 0⟩) tgSum 5 [0, 3] = some [0x4b800002#32, 0x4b800002#32] := by decide +kernel
theorem test_step_fscan : tReg (.fscan ⟨6, 2, 0xe0⟩) tgSum 6 [0, 1, 2, 3] = some [0x4b800000#32, 0x4b800000#32, 0x4b800000#32, 0x4b800001#32] := by decide +kernel
/-- R293: SSEL s8, s1, 7, s9. -/
theorem test_step_ssel : tSc (.ssel ⟨0x88, 0x81, 0xe7⟩ ⟨0x89, 0, 0, 0, 0, 0, 0, 0, 0, 0, 0⟩) { tg 0 with sc := [(1, 5#32)], exec := 0#32 } 8 = some 7#32
    ∧ tSc (.ssel ⟨0x88, 0x81, 0xe7⟩ ⟨0x89, 0, 0, 0, 0, 0, 0, 0, 0, 0, 0⟩) { tg 0 with sc := [(1, 5#32), (9, 2#32)] } 8 = some 5#32 := by decide +kernel
/-- R134, worked case: NLANES 20, EXEC 0x0000ffff, v3 holds 100 + l in lanes 0 to 19. -/
def tgXbar : Group := { tg 0 with nlanes := 20, exec := 0xffff#32, regs := [(3, Lanes.ofFn fun l => if l < 20 then BitVec.ofNat 32 (100 + l) else 0#32)] }
def tXbar (pat : BitVec 3) (par : BitVec 5) : Option (List Word) := tReg (.movLong ⟨9, 3, 0xe0⟩ ⟨0xe0, pat, par, 0, 0, 0, 0, 0, 0, 0, 0⟩) tgXbar 9 [0, 2, 5, 9, 10, 14]
theorem test_step_shd : tXbar 5 6 = some [106#32, 108#32, 111#32, 115#32, 116#32, 0#32] := by decide +kernel
theorem test_step_mirror : tXbar 4 3 = some [107#32, 105#32, 102#32, 114#32, 113#32, 109#32] := by decide +kernel
/-- R203, worked case: narrowings at level 3 and at level 2. -/
theorem test_step_narrow : ((narrowTo 3 false e4m3 (f32 0x3f880000#32)).1, (narrowTo 2 false e4m3 (f32 0x3f880000#32)).1, (narrowTo 3 false e4m3 (f32 0x43e80000#32)).1,
    (narrowTo 3 true e4m3 (f32 0x43e80000#32)).1, (narrowTo 2 false e4m3 (f32 0x43e80000#32)).1, (narrowTo 3 false e2m1 (f32 0x40a00000#32)).1) = (0x39, 0x38, 0x7f, 0x7e, 0x7e, 7) := by decide +kernel
/-- R342, worked case: PMASK in its four modes, and ELECT. -/
def tgPmask : Group := { tg 0 with exec := 0xf0f#32, pr := [(2, 0xa15#32)] }
theorem test_step_pmask : ([0x02#16, 0x0a#16, 0x12#16, 0x1a#16].map fun n => tSc (.pmask ⟨0x85, n⟩) tgPmask 5) = [some 0xa05#32, some 1#32, some 0#32, some 4#32] := by decide +kernel
theorem test_step_elect : (tRun (.elect ⟨1, 0⟩) tgPmask).map (·.pred 1) = some 1#32 := by decide +kernel
/-- R328, R331, worked case: DIV, (f2) BRA and the two JOINs, each from the group that the one before left. -/
def tgDiv (pc : BitVec 48) (i : Nat) : Group := { tg 0 with pc := pc, pos := i, clause := some { ofs := pc, hdr := 0xa5000000#32, words := [0x06000008#32, 0x01200004#32], begun := true, skipWait := false }, pr := [(2, 0x3ff#32)] }
theorem test_step_div : (tRun (.div ⟨0, 0, 8⟩) (tgDiv 0x100 0)).map (fun h => (h.stack.map fun e => e.pc, h.pos)) = some ([0x124#48], 1) := by decide +kernel
theorem test_step_bra : (tRun (.bra ⟨0, 2, 4⟩) { tgDiv 0x100 1 with stack := [{ tRecon false 0 with pc := 0x124#48, m := 0xffffffff#32 }] }).map
    (fun h => (h.pc, h.exec, h.stack.map fun e => (e.ppc, e.pmask))) = some (0x118#48, 0x3ff#32, [(0x10c#48, 0xfffffc00#32)]) := by decide +kernel
theorem test_step_join : (tRun .join { tg 0x07000000 with exec := 0x3ff#32, stack := [{ tRecon true 0xfffffc00 with pc := 0x124#48, m := 0xffffffff#32, ppc := 0x10c#48 }] }).map (fun h => (h.pc, h.exec)) = some (0x10c#48, 0xfffffc00#32)
    ∧ (tRun .join { tg 0x07000000 with exec := 0xfffffc00#32, stack := [{ tRecon true 0 with pc := 0x124#48, m := 0xffffffff#32 }] }).map (fun h => (h.pc, h.exec, h.stack)) = some (0x124#48, 0xffffffff#32, []) := by decide +kernel
/-- R329, worked case: a call from the clause at 0x240 of segment 0x0100. -/
theorem test_step_call : (tRun (.call ⟨0, 0, 4⟩) { tgDiv 0x240 0 with clause := some { ofs := 0x240#48, hdr := 0xa3000000#32, words := [0x03000004#32], begun := true, skipWait := false }, seg := [(15, { SegReg.null with sel := 0x100#16 })] }).map
    (fun h => (h.scalar 60, h.scalar 61)) = some (0x248#32, 0x1000000#32) := by decide +kernel
/-- R359, worked case: after IXSET i1, 40, 8 and CSRW IXL1 of 0x00010000, lane l addresses v(40 + l). -/
theorem test_step_ixset : (tRun (.ixset ⟨1, 0x0828⟩) (tg 0)).map (·.ixw.get 0#32 1) = some 0x0828#32 := by decide +kernel
theorem test_step_ixl : (tRun (.csrw ⟨0x80, 0x29⟩) { tg 0 with sc := [(0, 0x10000#32)], ixw := [(1, 0x0828#32)] }).map (fun h => (h.ixReg 1 0, h.ixReg 1 7)) = some (40, 47) := by decide +kernel
/-- R348, worked case: QPOP of a queue that holds 0xa, 0xb and 0xc, with EXEC = 0xf5. -/
def tsPop : State :=
  (tsQueue (.queueActArrive tk (.pop 7 7 (List.replicate 32 4) 3 0xf5)) true { tg 0 with exec := 0xf5#32, pr := [(3, 0xffffffff#32)], pend := [{ id := 7, on := .reg 4, lanes := 0xf5#32 }] }).putWq 0 7
    { items := [0xa#32, 0xb#32, 0xc#32], blocks := [], spoilt := [], resident := true, loading := false, used := 0 }
def tNext (o : Host.Outcome State Fault Refusal) : State := match o with | .next t => t | .fault _ => State.reset | .refused _ => State.reset
def tGroup (o : Host.Outcome State Fault Refusal) : Group := ((tNext o).group? tk).getD (tg 0)
theorem test_step_qpop : ([0, 2, 4, 5, 7].map fun l => (tGroup (exec .queueActArrive tsPop)).regLane 4 l) = [0xa#32, 0xb#32, 0xc#32, 0#32, 0#32]
    ∧ (tGroup (exec .queueActArrive tsPop)).pred 3 &&& 0xf5#32 = 0x15#32 ∧ ((tNext (exec .queueActArrive tsPop)).wq 0 7).items = [] := by decide +kernel
/-- R309, worked case: an AFADD of 1.0 to 16777216.0 leaves the even word, and delivers the old one. -/
theorem test_step_afadd : faddWord 3 0x4b800000#32 0x3f800000#32 = 0x4b800000#32 := by decide +kernel
/-- R333, R257, R269: TRAP 7 with a handler enters it, and the frame names the cause and its code. -/
def tsTrap : State := (ts { tg 0x09000007 with trapv := 0x40#32 }).putTeam 0 tTeam
theorem test_step_trap : (tGroup (exec .trap tsTrap)).pc = 0x40#48 ∧ (tGroup (exec .trap tsTrap)).handler.map (·.cause) = some .trapi := by decide +kernel
/-- R297, R299: a store to the scratchpad changes no byte until it completes, and LS is 1. -/
theorem test_step_store : (tGroup (exec (.st ⟨5, 13, 0, 0, 1⟩) (tsScr { tgScr 0 with regs := [(5, Lanes.ofFn fun _ => 7#32)] }))).ls = 1
    ∧ (tNext (exec (.st ⟨5, 13, 0, 0, 1⟩) (tsScr { tgScr 0 with regs := [(5, Lanes.ofFn fun _ => 7#32)] }))).mem = [] := by decide +kernel
/-- R304: the four bytes of a store, little-endian. -/
theorem test_step_store_complete : (tNext (exec .accessComplete (tsAcc (.accessComplete 7) .store .none))).readBytes (.hbm 0 64) 4 = [1#8, 0#8, 0#8, 0#8]
    ∧ (tNext (exec .accessComplete (tsBack (.accessComplete 7) .store .none none))).access = [] := by decide +kernel
/-- R16: power-on leaves stage 0. -/
theorem test_step_power_on : (tNext (step State.reset)).boot.stage = 0 ∧ (tNext (step State.reset)).agenda ≠ [] := by decide +kernel
/-- The words of withFetchWord run as the first instruction: IADDI v3, -1. -/
theorem test_step_first : (tGroup (step (State.reset.withFetchWord 32 0x2f03ffff))).regLane 3 9 = 0xffffffff#32 := by decide +kernel

end
end

section
/-! SUPPORT. Branches of a group that issues: what BRA does in each row of R107's table, and what BRU does with and without a lane that takes it
(R328). -/

namespace Sys2Proof.Machine

theorem exec_bra (f : CFmt) (s : State) : exec (.bra f) s = s.braOp f := rfl

theorem exec_bru (f : CFmt) (s : State) : exec (.bru f) s = s.bruOp f := rfl

/-- The target counts words of four bytes (R262). -/
theorem Clause.target_eq (c : Clause) (pos : Nat) (f : CFmt) : c.target pos f = c.ofsAt pos + 4 * f.offs.signExtend 48 := by
  have hshift (x : BitVec 48) : x <<< 2 = 4 * x := by
    apply BitVec.eq_of_toNat_eq
    simp [Nat.shiftLeft_eq, Nat.mul_comm]
  rw [Clause.target, hshift]

section
variable {f : CFmt} {s : State} {k : GKey} {g : Group} {c : Clause}

/-! ## BRA (R107) -/

theorem State.braOp_of_all_taking (hi : s.issues k g c) (hp : g.pending (touchPred f.gp.toNat) = false)
    (hall : g.guarded (f.neg = 1#1) f.gp.toNat = g.exec) :
    s.braOp f = .next (s.jump k g (c.target g.pos f) 1) := by
  rw [State.braOp, State.withIssuer_of _ hi]
  simp [hp, hall]

theorem State.braOp_of_none_taking (hi : s.issues k g c) (hp : g.pending (touchPred f.gp.toNat) = false)
    (hpart : g.guarded (f.neg = 1#1) f.gp.toNat ≠ g.exec) (hnone : g.guarded (f.neg = 1#1) f.gp.toNat = 0#32) :
    s.braOp f = .next (s.advance k g c 1 none) := by
  rw [State.braOp, State.withIssuer_of _ hi]
  simp only [hp, hpart, Bool.false_eq_true, if_false, if_pos hnone]

theorem State.braOp_of_split {e : Recon} {rest : List Recon} (hi : s.issues k g c)
    (hp : g.pending (touchPred f.gp.toNat) = false) (hpart : g.guarded (f.neg = 1#1) f.gp.toNat ≠ g.exec)
    (hsome : g.guarded (f.neg = 1#1) f.gp.toNat ≠ 0#32) (hstack : g.stack = e :: rest) (hclear : e.split = false) :
    s.braOp f = .next (s.jump k { g with
      stack := { e with split := true, ppc := c.next, psel := (g.segReg 15).sel,
                        pmask := g.exec &&& ~~~(g.guarded (f.neg = 1#1) f.gp.toNat) } :: rest,
      exec := g.guarded (f.neg = 1#1) f.gp.toNat, hand := e.h } (c.target g.pos f) 1) := by
  rw [State.braOp, State.withIssuer_of _ hi]
  simp only [hp, hpart, hsome, hstack, hclear, Bool.false_eq_true, if_false]

theorem State.braOp_of_no_entry_to_split (hi : s.issues k g c) (hp : g.pending (touchPred f.gp.toNat) = false)
    (hpart : g.guarded (f.neg = 1#1) f.gp.toNat ≠ g.exec) (hsome : g.guarded (f.neg = 1#1) f.gp.toNat ≠ 0#32)
    (hsplit : ∀ e rest, g.stack = e :: rest → e.split = true) :
    s.braOp f = .next (s.raise k g (trapOf .illOperand (auxSpec g 0#8))) := by
  rw [State.braOp, State.withIssuer_of _ hi]
  cases hstack : g.stack with
  | nil => simp only [hp, hpart, hsome, Bool.false_eq_true, if_false]
  | cons e rest => simp only [hp, hpart, hsome, hsplit e rest hstack, Bool.false_eq_true, if_false, if_true]

/-! ## BRU (R328) -/

theorem State.bruOp_of_some_taking (hi : s.issues k g c) (hp : g.pending (touchPred f.gp.toNat) = false)
    (hsome : g.guarded (f.neg = 1#1) f.gp.toNat ≠ 0#32) :
    s.bruOp f = .next (s.jump k g (c.target g.pos f) 1) := by
  rw [State.bruOp, State.withIssuer_of _ hi]
  simp [hp, hsome]

theorem State.bruOp_of_none_taking (hi : s.issues k g c) (hp : g.pending (touchPred f.gp.toNat) = false)
    (hnone : g.guarded (f.neg = 1#1) f.gp.toNat = 0#32) :
    s.bruOp f = .next (s.advance k g c 1 none) := by
  rw [State.bruOp, State.withIssuer_of _ hi]
  simp [hp, hnone]

end

/-- Settles O14: one lemma for each row of R107's table, and one for each outcome of BRU. -/
theorem branchesTakeTheirTarget : Obligations.BranchesTakeTheirTarget := by
  intro f s k g c hi hp
  simp only [exec_bra, exec_bru, ← Clause.target_eq]
  refine ⟨?all, ?none, ?split, ?noEntry, ?bruSome, ?bruNone⟩
  case all => exact State.braOp_of_all_taking hi hp
  case none => exact State.braOp_of_none_taking hi hp
  case split => exact fun hpart hsome e rest hstack hclear => State.braOp_of_split hi hp hpart hsome hstack hclear
  case noEntry => exact State.braOp_of_no_entry_to_split hi hp
  case bruSome => exact State.bruOp_of_some_taking hi hp
  case bruNone => exact State.bruOp_of_none_taking hi hp

end Sys2Proof.Machine
end

section
/-! SUPPORT. Scans and reductions (R289): the partial results over the active lanes, and the effect that ISCAN, FSCAN, IRED and FRED make of
them in both forms. -/

namespace Sys2Proof.Machine

/-- The partial results of R289 over the active lanes of source A, with the OR of the flags of the steps. -/
def State.partials (op : Nat) (fp : Bool) (v : VArgs) (s : State) (k : GKey) (g : Group) : List (Nat × Word) × Flags :=
  scanLanes (fun a x => if fp then combineFp (s.level k g) (modeOf v.b) a x else (combineInt (modeOf v.b) a x, 0#32))
    ((lanesOf g.exec).map fun l => (l, s.laneA k g op v l))

/-- A scan: each active lane receives the partial result that ends at it. -/
def State.scanEffect (op : Nat) (fp : Bool) (v : VArgs) (s : State) (k : GKey) (g : Group) : VEffect :=
  .lanes (Lanes.ofFn fun l => (assocGet (s.partials op fp v k g).1 l).getD 0#32) (s.partials op fp v k g).2

/-- A reduction: a scalar D, or every active lane of a register, receives the last partial result. -/
def State.reduceEffect (op : Nat) (fp : Bool) (v : VArgs) (s : State) (k : GKey) (g : Group) : VEffect :=
  let last := (s.partials op fp v k g).1.getLast?.map (·.2)
  if isScalar v.d then .scalar last (s.partials op fp v k g).2
  else .lanes (Lanes.ofFn fun _ => last.getD 0#32) (s.partials op fp v k g).2

section
variable {op : Nat} {fp : Bool} {short : VFmt → Instr} {long : VFmt → VLong → Instr}

theorem effects_scanEffect (hs : ∀ f s, exec (short f) s = s.scanOp op (vShort f) true fp)
    (hl : ∀ f x s, exec (long f x) s = s.scanOp op (vLong f x) true fp) :
    effects op short long (State.scanEffect op fp) :=
  ⟨fun f => effects_pt' (hs f) fun _ _ _ => rfl, fun f x => effects_pt' (hl f x) fun _ _ _ => rfl⟩

theorem effects_reduceEffect (hs : ∀ f s, exec (short f) s = s.scanOp op (vShort f) false fp)
    (hl : ∀ f x s, exec (long f x) s = s.scanOp op (vLong f x) false fp) :
    effects op short long (State.reduceEffect op fp) :=
  ⟨fun f => effects_pt' (hs f) fun _ _ _ => rfl, fun f x => effects_pt' (hl f x) fun _ _ _ => rfl⟩

end

/-- Settles O7: the model's combinations are those of R289's table mode by mode, so the partial results agree, and with them the effects of
the four instructions. -/
theorem scanAndReductionResults : Obligations.ScanAndReductionResults := by
  unfold Obligations.ScanAndReductionResults
  intro run scan reduce
  have hrun : run = State.partials := by
    funext op fp v s k g
    unfold run State.partials modeOf
    generalize v.b.toNat - 0xe0 = m
    congr 1
    funext a x
    cases fp with
    | false =>
      match m with
      | 0 | 5 | 6 | _ + 7 => rfl
      | 1 => exact congrArg (·, 0#32) (resMin_eq a x 0#32).symm
      | 2 => exact congrArg (·, 0#32) (resMax_eq a x 0#32).symm
      | 3 => exact congrArg (·, 0#32) (resMinu_eq a x 0#32).symm
      | 4 => exact congrArg (·, 0#32) (resMaxu_eq a x 0#32).symm
    | true =>
      match m with
      | 0 | 1 | _ + 2 => rfl
  have hscan : scan = State.scanEffect := by simp only [scan, hrun]; rfl
  have hreduce : reduce = State.reduceEffect := by simp only [reduce, hrun]; rfl
  rw [hscan, hreduce]
  refine ⟨?iscan, ?fscan, ?ired, ?fred⟩
  case iscan => exact effects_scanEffect (fun _ _ => rfl) fun _ _ _ => rfl
  case fscan => exact effects_scanEffect (fun _ _ => rfl) fun _ _ _ => rfl
  case ired => exact effects_reduceEffect (fun _ _ => rfl) fun _ _ _ => rfl
  case fred => exact effects_reduceEffect (fun _ _ => rfl) fun _ _ _ => rfl

end Sys2Proof.Machine
end

section
/-! SUPPORT. Fields of an operand word as numbers: a run of bits read as division and remainder, and a reserved field that is zero. -/

namespace Sys2Proof.Machine

theorem toNat_extractLsb'_eq_div_mod {w : Nat} (x : BitVec w) (i n : Nat) :
    (x.extractLsb' i n).toNat = x.toNat / 2 ^ i % 2 ^ n := by
  rw [BitVec.extractLsb'_toNat, Nat.shiftRight_eq_div_pow]

/-- A field that runs to the top of its word is zero exactly where the word is below the field. -/
theorem extractLsb'_eq_zero_iff_lt {w : Nat} (x : BitVec w) {i n : Nat} (h : w = i + n) :
    x.extractLsb' i n = 0#n ↔ x.toNat < 2 ^ i := by
  subst h
  have hx : x.toNat / 2 ^ i < 2 ^ n := Nat.div_lt_of_lt_mul (by rw [← Nat.pow_add]; exact x.isLt)
  rw [← BitVec.toNat_inj, toNat_extractLsb'_eq_div_mod, Nat.mod_eq_of_lt hx]
  simp [Nat.div_eq_zero_iff]

end Sys2Proof.Machine
end

section
/-! SUPPORT. NOP, YIELD, ELECT and PMASK of a group that issues, one lemma for each outcome (R332, R341, R342). -/

namespace Sys2Proof.Machine

theorem exec_nop (s : State) : exec .nop s = s.nopOp := rfl
theorem exec_yield (s : State) : exec .yield s = s.yieldOp := rfl
theorem exec_elect (f : BFmt) (s : State) : exec (.elect f) s = s.electOp f := rfl
theorem exec_pmask (f : BFmt) (s : State) : exec (.pmask f) s = s.pmaskOp f := rfl

theorem Group.pred_setPred_same (g : Group) (w : Word) (n : Nat) :
    (g.setPred n w).pred n = if n = 0 then 0xffffffff#32 else w := by
  unfold Group.setPred Group.pred
  split <;> simp

theorem Group.pending_of_no_pend {g : Group} (h : g.pend = []) (t : Touch) : g.pending t = false := by
  simp [Group.pending, h]

/-- The lowest lane of `m` alone, which ELECT leaves set (R341). -/
def electedLane (m : Word) : Word := match lowest m with | some l => 1#32 <<< l | none => 0#32

/-- A scalar named by its specifier byte (R259) is the only place its use touches. -/
theorem useScalars_of_scalar {d : BitVec 8} {n : Nat} (hd : d.toNat = 0x80 + n) (hn : n < 64) (read : Bool) :
    useScalars [useOf d read 1] = [n] := by
  have hkind : specKind d = .scalar n := by
    unfold specKind
    simp only [hd]
    rw [if_neg (by omega), if_pos (by omega), Nat.add_sub_cancel_left]
  simp [useScalars, useOf, hkind]

theorem isScalar_of_toNat {d : BitVec 8} {n : Nat} (hd : d.toNat = 0x80 + n) (hn : n < 64) : isScalar d = true := by
  simp only [isScalar, hd, Bool.and_eq_true, decide_eq_true_eq]
  omega

section
variable {s : State} {k : GKey} {g : Group} {c : Clause}

theorem State.nopOp_of_zero_field (hi : s.issues k g c) (hp : g.fieldP c = 0#24) :
    s.nopOp = .next (s.advance k g c 1 none) := by
  rw [State.nopOp, State.withIssuer_of _ hi]
  simp [hp]

theorem State.yieldOp_of_zero_field (hi : s.issues k g c) (hp : g.fieldP c = 0#24) :
    s.yieldOp = .next (s.advance k { g with tenure := s.tenq k.die (s.ctxOf g.team) } c 1 none) := by
  rw [State.yieldOp, State.withIssuer_of _ hi]
  simp [hp]

/-! ## ELECT (R341) -/

theorem State.electOp_of_fields_valid {f : BFmt} (hi : s.issues k g c) (hn : f.n = 0#16) (hs : f.s.toNat < 8)
    (hp : g.pending (touchPred f.s.toNat) = false) :
    s.electOp f = .next (s.advance k (g.setPred f.s.toNat (electedLane g.exec)) c 1 none) := by
  rw [State.electOp, State.withIssuer_of _ hi]
  simp only [Nat.mod_eq_of_lt hs, hp, hn, bne_self_eq_false, decide_eq_false (Nat.not_le.mpr hs), Bool.or_self,
    Bool.false_eq_true, if_false]
  rfl

theorem State.electOp_of_field_refused {f : BFmt} (hi : s.issues k g c) (hf : f.n ≠ 0#16 ∨ 8 ≤ f.s.toNat)
    (hp : g.pending (touchPred (f.s.toNat % 8)) = false) :
    s.electOp f = .next (s.raise k g (trapOf .illField 0#32)) := by
  rw [State.electOp, State.withIssuer_of _ hi]
  simp [hp, hf]

/-! ## PMASK (R342) -/

/-- What the reserved bits of PMASK's N leave of its mode. -/
theorem pmask_mode_eq {n : BitVec 16} (h : n.toNat < 32) : (n.extractLsb' 3 2).toNat = n.toNat / 8 := by
  rw [toNat_extractLsb'_eq_div_mod]
  omega

theorem State.pmaskOp_of_fields_valid {f : BFmt} {n : Nat} (hi : s.issues k g c) (hs : f.s.toNat = 0x80 + n) (hn : n < 64)
    (hf : f.n.toNat < 32) (hp : g.pending { regs := [], scalars := [n], preds := [f.n.toNat % 8] } = false) :
    s.pmaskOp f = .next (s.advance k
      (g.setScalar n (pmaskValue (f.n.toNat / 8) (g.pred (f.n.toNat % 8) &&& g.exec) g.exec)) c 1 none) := by
  have hpred : (f.n.extractLsb' 0 3).toNat = f.n.toNat % 8 := by simp
  have hreserved : f.n.extractLsb' 5 11 = 0#11 := (extractLsb'_eq_zero_iff_lt f.n rfl).mpr hf
  rw [State.pmaskOp, State.withIssuer_of _ hi]
  simp only [hpred, useScalars_of_scalar hs hn, hp, hreserved, isScalar_of_toNat hs hn, pmask_mode_eq hf, hs,
    Nat.add_sub_cancel_left, bne_self_eq_false, Bool.not_true, Bool.false_eq_true, if_false]

theorem State.pmaskOp_of_reserved {f : BFmt} (hi : s.issues k g c) (hp : g.pend = []) (hf : 32 ≤ f.n.toNat) :
    s.pmaskOp f = .next (s.raise k g (trapOf .illField 0#32)) := by
  have hreserved : f.n.extractLsb' 5 11 ≠ 0#11 := fun h =>
    absurd ((extractLsb'_eq_zero_iff_lt f.n rfl).mp h) (Nat.not_lt.mpr hf)
  rw [State.pmaskOp, State.withIssuer_of _ hi]
  simp [Group.pending_of_no_pend hp, hreserved]

theorem State.pmaskOp_of_no_scalar {f : BFmt} (hi : s.issues k g c) (hp : g.pend = []) (hf : f.n.toNat < 32)
    (hs : isScalar f.s = false) : s.pmaskOp f = .next (s.raise k g (trapOf .illOperand (auxSpec g f.s))) := by
  have hreserved : f.n.extractLsb' 5 11 = 0#11 := (extractLsb'_eq_zero_iff_lt f.n rfl).mpr hf
  rw [State.pmaskOp, State.withIssuer_of _ hi]
  simp [Group.pending_of_no_pend hp, hreserved, hs]

end

/-- Settles O18: one lemma for each outcome of the four instructions. -/
theorem smallControlResults : Obligations.SmallControlResults := by
  unfold Obligations.SmallControlResults
  simp only [exec_nop, exec_yield, exec_elect, exec_pmask]
  refine ⟨?go, ?elect, ?electRefused, Group.pred_setPred_same, ?pmask, ?pmaskRefused, by decide, by decide⟩
  case go => exact fun s k g c hi hp => ⟨State.nopOp_of_zero_field hi hp, State.yieldOp_of_zero_field hi hp⟩
  case elect => exact fun f s k g c hi hn hs hp => State.electOp_of_fields_valid hi hn hs hp
  case electRefused => exact fun f s k g c hi hf hp => State.electOp_of_field_refused hi hf hp
  case pmask =>
    intro f s k g c n p hi hs hn hf hpred hp
    subst hpred
    exact State.pmaskOp_of_fields_valid hi hs hn hf hp
  case pmaskRefused =>
    exact fun f s k g c hi hp => ⟨State.pmaskOp_of_reserved hi hp, State.pmaskOp_of_no_scalar hi hp⟩

end Sys2Proof.Machine
end

section
/-! SUPPORT. Filtered tables: the entries that a sorted table lists are those it finds, and a filter keeps both. -/

namespace Sys2Proof.Machine

section
variable {α : Type} {t : Tbl α}

theorem Tbl.sorted_iff_pairwise : Tbl.sorted t = true ↔ t.Pairwise fun a b => a.1 < b.1 := by
  induction t with
  | nil => simp [Tbl.sorted]
  | cons e r ih =>
    obtain ⟨j, w⟩ := e
    rw [Tbl.sorted_cons, List.pairwise_cons, ih]

theorem Tbl.sorted_filter (p : Nat × α → Bool) (h : Tbl.sorted t = true) : Tbl.sorted (t.filter p) = true :=
  Tbl.sorted_iff_pairwise.mpr ((Tbl.sorted_iff_pairwise.mp h).filter p)

theorem Tbl.find_eq_some_iff_mem (h : Tbl.sorted t = true) {k : Nat} {v : α} : t.find k = some v ↔ (k, v) ∈ t := by
  induction t with
  | nil => simp [Tbl.find]
  | cons e r ih =>
    obtain ⟨j, w⟩ := e
    obtain ⟨hj, hr⟩ := Tbl.sorted_cons.mp h
    by_cases hk : j = k
    · subst hk
      have hnot : (j, v) ∉ r := fun hmem => Nat.lt_irrefl _ (hj _ hmem)
      simp [Tbl.find, hnot, eq_comm]
    · simp [Tbl.find, hk, Ne.symm hk, ih hr]

theorem Tbl.find_filter_key (t : Tbl α) (q : Nat → Bool) (k : Nat) :
    Tbl.find (t.filter fun e => q e.1) k = if q k = true then t.find k else none := by
  induction t with
  | nil => simp [Tbl.find]
  | cons e r ih =>
    obtain ⟨j, w⟩ := e
    by_cases hk : j = k
    · subst hk
      cases hq : q j <;> simp [Tbl.find, ih, hq]
    · cases hq : q j <;> simp [Tbl.find, ih, hq, hk]

theorem Tbl.find_filter (h : Tbl.sorted t = true) (p : Nat × α → Bool) (k : Nat) :
    Tbl.find (t.filter p) k = (t.find k).filter fun v => p (k, v) := by
  ext v
  rw [Tbl.find_eq_some_iff_mem (Tbl.sorted_filter p h), List.mem_filter, Option.filter_eq_some_iff,
    Tbl.find_eq_some_iff_mem h]

theorem Tbl.mem_del_iff (h : Tbl.sorted t = true) {k : Nat} {e : Nat × α} : e ∈ Tbl.del t k ↔ e ∈ t ∧ e.1 ≠ k := by
  obtain ⟨j, v⟩ := e
  rw [← Tbl.find_eq_some_iff_mem (Tbl.sorted_del k h), ← Tbl.find_eq_some_iff_mem h]
  by_cases hk : j = k
  · subst hk
    simp [Tbl.find_del_self j h]
  · simp [Tbl.find_del_ne t hk, hk]

end

end Sys2Proof.Machine
end

section
/-! SUPPORT. Write-backs of the well, and registers that are marked dead: what each leaves in the well and in every register (R122 to R126). -/

namespace Sys2Proof.Machine

/-- The group once the well entries that `q` names are written back and empty (R124, R125). -/
def Group.writeBackWhere (g : Group) (q : Nat → Bool) : Group :=
  { g with regs := (g.well.filter fun e => q e.1).foldl (fun r e => writeBack r e.2) g.regs,
           well := g.well.filter fun e => !q e.1 }

/-- R125 writes back the whole well. -/
theorem Group.flushWell_fst (g : Group) : g.flushWell.1 = g.writeBackWhere fun _ => true := by
  simp [Group.flushWell, Group.writeBackWhere]

/-- What the reservoir holds once the entries of a well are written back: an entry's valid lanes in its own register. -/
theorem get_foldl_writeBack {w : Tbl WellEntry} (h : wellTbl w) (regs : Tbl Lanes) (m : Nat) :
    (w.foldl (fun r e => writeBack r e.2) regs).get zeroLanes m = match w.find (m % 8) with
      | some e => if e.reg = m then mergeLanes e.valid e.vals (regs.get zeroLanes m) else regs.get zeroLanes m
      | none => regs.get zeroLanes m := by
  induction w generalizing regs with
  | nil => rfl
  | cons x r ih =>
    obtain ⟨j, e⟩ := x
    obtain ⟨hsorted, hentries⟩ := h
    obtain ⟨hj, hr⟩ := Tbl.sorted_cons.mp hsorted
    obtain ⟨hreg, hdirty⟩ := hentries (j, e) List.mem_cons_self
    have hrest := ih ⟨hr, fun y hy => hentries y (List.mem_cons_of_mem _ hy)⟩
    have hwrite : writeBack regs e = regs.put e.reg (mergeLanes e.valid e.vals (regs.get zeroLanes e.reg)) := if_pos hdirty
    rw [List.foldl_cons, hrest, hwrite]
    by_cases hk : j = m % 8
    · have hnone : Tbl.find r (m % 8) = none := Tbl.find_none_of_lt fun y hy => hk ▸ hj y hy
      simp only [Tbl.find, hk, hnone, if_true]
      split
      · next he => rw [he, Tbl.get_put_self]
      · next he => rw [Tbl.get_put_ne _ _ _ (Ne.symm he)]
    · have hne : m ≠ e.reg := fun he => hk (he ▸ hreg.symm)
      simp only [Tbl.find, hk, if_false, Tbl.get_put_ne _ _ _ hne]

/-- A write-back leaves every value as it was. -/
theorem Group.regLane_writeBackWhere {g : Group} (h : g.wellOk) (q : Nat → Bool) (m : Nat) {l : Nat} (hl : l < 32) :
    (g.writeBackWhere q).regLane m l = g.regLane m l := by
  have hsel : wellTbl (g.well.filter fun e => q e.1) :=
    ⟨Tbl.sorted_filter _ h.1, fun e he => h.2 e (List.mem_of_mem_filter he)⟩
  unfold Group.regLane Group.writeBackWhere
  dsimp only
  rw [get_foldl_writeBack hsel, Tbl.find_filter_key, Tbl.find_filter_key _ fun i => !q i]
  cases hq : q (m % 8) with
  | false => simp
  | true =>
    cases g.well.find (m % 8) with
    | none => simp
    | some e =>
      by_cases he : e.reg = m
      · simp [he, mergeLanes_at, hl]
      · simp [he]

/-! ## Marks -/

theorem Group.mem_markDead_dead (g : Group) (n r : Nat) : r ∈ (g.markDead n).dead ↔ r = n ∨ r ∈ g.dead := by
  unfold Group.markDead
  dsimp only
  split
  · next h => exact ⟨.inr, fun hr => hr.elim (fun e => e ▸ by simpa using h) id⟩
  · exact List.mem_cons

theorem Group.mem_markDead_well {g : Group} (h : g.wellOk) (n : Nat) (e : Nat × WellEntry) :
    e ∈ (g.markDead n).well ↔ e ∈ g.well ∧ e.2.reg ≠ n := by
  obtain ⟨hsorted, hentries⟩ := h
  have hfound (he : e ∈ g.well) (hn : e.2.reg = n) : g.well.find (n % 8) = some e.2 := by
    rw [← hn, (hentries e he).1]
    exact (Tbl.find_eq_some_iff_mem hsorted).mpr he
  rw [Group.markDead_well]
  cases hf : g.well.find (n % 8) with
  | none => exact ⟨fun he => ⟨he, fun hn => by simp [hfound he hn] at hf⟩, And.left⟩
  | some x =>
    dsimp only
    split
    · next hx =>
      rw [Tbl.mem_del_iff hsorted]
      refine and_congr_right fun he => not_congr ⟨fun hk => ?_, fun hn => ?_⟩
      · have : g.well.find (n % 8) = some e.2 := hk ▸ (Tbl.find_eq_some_iff_mem hsorted).mpr he
        rw [hf, Option.some.injEq] at this
        rw [← this, hx]
      · rw [← (hentries e he).1, hn]
    · next hx =>
      refine ⟨fun he => ⟨he, fun hn => hx ?_⟩, And.left⟩
      have := hfound he hn
      rw [hf, Option.some.injEq] at this
      rw [this, hn]

/-- The group once the `n` registers from `f` on are marked dead (R126). -/
def Group.markDeadRange (g : Group) (f n : Nat) : Group := (List.range n).foldl (fun (h : Group) i => h.markDead (f + i)) g

theorem Group.markDeadRange_succ (g : Group) (f n : Nat) :
    g.markDeadRange f (n + 1) = (g.markDeadRange f n).markDead (f + n) := by
  simp [Group.markDeadRange, List.range_succ]

theorem Group.wellOk_markDeadRange {g : Group} (h : g.wellOk) (f n : Nat) : (g.markDeadRange f n).wellOk := by
  induction n with
  | zero => exact h
  | succ n ih => exact g.markDeadRange_succ f n ▸ Group.wellOk_markDead ih _

theorem Group.mem_markDeadRange_dead (g : Group) (f n r : Nat) :
    r ∈ (g.markDeadRange f n).dead ↔ f ≤ r ∧ r < f + n ∨ r ∈ g.dead := by
  induction n with
  | zero => simp [Group.markDeadRange]
  | succ n ih =>
    rw [Group.markDeadRange_succ, Group.mem_markDead_dead, ih, ← or_assoc]
    exact or_congr_left (by omega)

theorem Group.mem_markDeadRange_well {g : Group} (h : g.wellOk) (f n : Nat) (e : Nat × WellEntry) :
    e ∈ (g.markDeadRange f n).well ↔ e ∈ g.well ∧ (e.2.reg < f ∨ f + n ≤ e.2.reg) := by
  induction n with
  | zero => simp [Group.markDeadRange, Nat.lt_or_ge]
  | succ n ih =>
    rw [Group.markDeadRange_succ, Group.mem_markDead_well (Group.wellOk_markDeadRange h f n), ih, and_assoc]
    exact and_congr_right fun _ => by omega

theorem Group.markDeadRange_eq (g : Group) (f n : Nat) :
    g.markDeadRange f n = { g with dead := (g.markDeadRange f n).dead, well := (g.markDeadRange f n).well } := by
  induction n with
  | zero => rfl
  | succ n ih =>
    rw [Group.markDeadRange_succ]
    generalize g.markDeadRange f n = x at ih ⊢
    rw [ih]
    rfl

end Sys2Proof.Machine
end

section
/-! SUPPORT. RCLAIM, RGIVE, IXSET, WELLFL and KILL of a group that issues, one lemma for each outcome, and what a claim in line, registers given
back and a step leave of the group (R136, R137, R357, R358, R360, R361). -/

namespace Sys2Proof.Machine

theorem exec_rclaim (f : VIFmt) (s : State) : exec (.rclaim f) s = s.rclaimOp f := rfl
theorem exec_rgive (f : VIFmt) (s : State) : exec (.rgive f) s = s.rgiveOp f := rfl
theorem exec_ixset (f : VIFmt) (s : State) : exec (.ixset f) s = s.ixsetOp f := rfl
theorem exec_wellfl (s : State) : exec .wellfl s = s.wellflOp := rfl
theorem exec_kill (s : State) : exec .kill s = s.killOp := rfl

/-! ## What a step, a claim in line and registers given back leave -/

@[simp] theorem Group.stepped_window (g : Group) (c : Clause) (nib : Option Lanes) : (g.stepped c nib).window = g.window := by
  rw [Group.stepped_eq]

@[simp] theorem Group.stepped_regs (g : Group) (c : Clause) (nib : Option Lanes) : (g.stepped c nib).regs = g.regs := by
  rw [Group.stepped_eq]

@[simp] theorem Group.stepped_regLane (g : Group) (c : Clause) (nib : Option Lanes) (n l : Nat) :
    (g.stepped c nib).regLane n l = g.regLane n l := by
  rw [Group.stepped_eq]
  rfl

theorem State.leavePen_mem (s : State) (k : GKey) (g : Group) (r : RunState) : (s.leavePen k g r).mem = s.mem := by
  unfold State.leavePen
  dsimp only
  split <;> simp

theorem State.desched_group? (s : State) (k : GKey) (g : Group) (w : Wait) :
    (s.desched k g w).group? k = some { g.flushWell.1 with run := .waiting w } := State.leavePen_group? s k g _

theorem State.putPen_pen_self (s : State) (p : PenKey) (x : Pen) : (s.putPen p x).pen p = x := by
  simp [State.putPen, State.pen, State.updCore, State.putCore, State.core]

/-- The state once a claim of `n` registers stands in line at the group's pen (R137). -/
def State.claimInLine (s : State) (k : GKey) (g : Group) (n : Nat) : State :=
  let left := s.desched k { g with irrev := true } (.claim n)
  (left.putPen (penOf k) { left.pen (penOf k) with claims := (left.pen (penOf k)).claims ++ [(k.slot, n)] }).post
    (s.clk + 64) (.deadlockCheck (penOf k))

theorem State.claimInLine_group? (s : State) (k : GKey) (g : Group) (n : Nat) :
    (s.claimInLine k g n).group? k = some { Group.writeBackWhere { g with irrev := true } (fun _ => true) with
      run := .waiting (.claim n) } := by
  simp [State.claimInLine, State.desched_group?, Group.flushWell_fst]

theorem State.claimInLine_mem (s : State) (k : GKey) (g : Group) (n : Nat) : (s.claimInLine k g n).mem = s.mem := by
  simp [State.claimInLine, State.desched, State.leavePen_mem]

theorem State.mem_claimInLine_claims (s : State) (k : GKey) (g : Group) (n : Nat) :
    (k.slot, n) ∈ ((s.claimInLine k g n).pen (penOf k)).claims := by
  have hpost (t : State) (due : Nat) (e : Event) : (t.post due e).pen (penOf k) = t.pen (penOf k) := rfl
  simp [State.claimInLine, hpost, State.putPen_pen_self]

/-- The group once it has given back its `n` highest registers: what they held is forgotten (R136). -/
def Group.give (g : Group) (n : Nat) : Group :=
  { g with window := g.window - n, regs := g.regs.filter fun e => e.1 < g.window - n,
           well := g.well.filter fun e => e.2.reg < g.window - n, dead := g.dead.filter (· < g.window - n), irrev := true }

theorem Group.lt_window_of_mem_give_regs {g : Group} {n : Nat} {e : Nat × Lanes} (he : e ∈ (g.give n).regs) :
    e.1 < (g.give n).window := by simpa [Group.give] using List.of_mem_filter he

theorem Group.regLane_give {g : Group} (h : g.wellOk) {n m : Nat} (hm : m < (g.give n).window) (l : Nat) :
    (g.give n).regLane m l = g.regLane m l := by
  have hw : m < g.window - n := hm
  have hregs : Tbl.find (g.give n).regs m = g.regs.find m :=
    (Tbl.find_filter_key g.regs (fun i => decide (i < g.window - n)) m).trans (if_pos (decide_eq_true hw))
  have hwell : Tbl.find (g.give n).well (m % 8) = (g.well.find (m % 8)).filter fun e => e.reg < g.window - n :=
    Tbl.find_filter h.1 _ _
  unfold Group.regLane Tbl.get
  rw [hregs, hwell]
  cases g.well.find (m % 8) with
  | none => rfl
  | some e =>
    by_cases he : e.reg < g.window - n
    · simp [Option.filter, he]
    · have hne : e.reg ≠ m := fun q => he (q ▸ hw)
      simp [Option.filter, he, hne]

section
variable {s : State} {k : GKey} {g : Group} {c : Clause}

/-! ## RCLAIM (R137, R357) -/

theorem State.rclaimOp_of_granted {f : VIFmt} (hi : s.issues k g c) (hd : f.d = 0#8) (ht : g.task = none) (hh : g.half ≠ .done)
    (hpos : 0 < f.imm.toNat) (hmax : g.window + f.imm.toNat ≤ 256) (hfree : f.imm.toNat ≤ s.freeRegs (penOf k))
    (hline : (s.pen (penOf k)).claims = []) :
    s.rclaimOp f = .next (s.advance k { g.grant f.imm.toNat with irrev := true } c 1 none) := by
  have htask : g.task.isSome = false := by simp [ht]
  have hcount : ¬(f.imm.toNat = 0 ∨ 256 < g.window + f.imm.toNat) := by omega
  rw [State.rclaimOp, State.withIssuer_of _ hi]
  simp only [hd, htask, hh, hcount, hfree, hline, bne_self_eq_false, List.isEmpty_nil, Bool.false_eq_true,
    and_self, if_true, if_false]

theorem State.rclaimOp_of_waiting {f : VIFmt} (hi : s.issues k g c) (hd : f.d = 0#8) (ht : g.task = none) (hh : g.half ≠ .done)
    (hpos : 0 < f.imm.toNat) (hmax : g.window + f.imm.toNat ≤ 256)
    (hwait : s.freeRegs (penOf k) < f.imm.toNat ∨ (s.pen (penOf k)).claims ≠ []) :
    s.rclaimOp f = .next (s.claimInLine k g f.imm.toNat) := by
  have htask : g.task.isSome = false := by simp [ht]
  have hcount : ¬(f.imm.toNat = 0 ∨ 256 < g.window + f.imm.toNat) := by omega
  have hnow : ¬(f.imm.toNat ≤ s.freeRegs (penOf k) ∧ (s.pen (penOf k)).claims.isEmpty = true) := fun ⟨hfree, hline⟩ =>
    hwait.elim (Nat.not_lt.mpr hfree) fun h => h (List.isEmpty_iff.mp hline)
  rw [State.rclaimOp, State.withIssuer_of _ hi]
  simp only [hd, htask, hh, hcount, hnow, bne_self_eq_false, Bool.false_eq_true, if_false]
  rfl

theorem State.rclaimOp_of_done {f : VIFmt} (hi : s.issues k g c) (hd : f.d = 0#8) (ht : g.task = none) (hh : g.half = .done) :
    s.rclaimOp f = .next (s.advance k { g with irrev := true } c 1 none) := by
  rw [State.rclaimOp, State.withIssuer_of _ hi]
  simp [hd, ht, hh]

/-! ## RGIVE (R136, R357) -/

theorem State.rgiveOp_of_zero {f : VIFmt} (hi : s.issues k g c) (hd : f.d = 0#8) (ht : g.task = none) (hn : f.imm = 0#16) :
    s.rgiveOp f = .next (s.advance k { g with irrev := true } c 1 none) := by
  rw [State.rgiveOp, State.withIssuer_of _ hi]
  simp [hd, ht, hn]

/-- Registers given back change the group, and post what may now be granted or placed. -/
theorem State.rgiveOp_of_given {f : VIFmt} (hi : s.issues k g c) (hd : f.d = 0#8) (ht : g.task = none) (hpos : 0 < f.imm.toNat)
    (hmax : f.imm.toNat + 8 ≤ g.window) (hp : ∀ l, g.pending { regs := l, scalars := [], preds := [] } = false) :
    ∃ t, s.rgiveOp f = .next t ∧ t.group? k = some ((g.give f.imm.toNat).stepped c none) ∧ t.mem = s.mem := by
  have htask : g.task.isSome = false := by simp [ht]
  have hzero : f.imm.toNat ≠ 0 := by omega
  have hfew : ¬ g.window < f.imm.toNat + 8 := by omega
  rw [State.rgiveOp, State.withIssuer_of _ hi]
  simp only [hd, htask, hzero, hfew, hp, bne_self_eq_false, Bool.false_eq_true, if_false]
  cases s.team? g.team with
  | none => exact ⟨_, rfl, by simp [Group.give], by simp⟩
  | some t => exact ⟨_, rfl, by simp [Group.give], by simp⟩

/-! ## IXSET (R131, R358) -/

/-- The index window that IXSET's fields name: its base, and its length in D[2] and IMM[15:8]. -/
theorem ixset_value_eq {f : VIFmt} (hd : f.d.toNat < 8) :
    (f.imm.extractLsb' 0 8).toNat + 256 * (f.imm.extractLsb' 8 8).toNat + 65536 * (f.d.extractLsb' 2 1).toNat
      = f.imm.toNat % 256 + 256 * (f.imm.toNat / 256 + 256 * (f.d.toNat / 4)) := by
  have := f.imm.isLt
  simp only [toNat_extractLsb'_eq_div_mod]
  omega

/-- An index window is refused where it ends above 256 (R131). -/
theorem ixwBad_ofNat {base len : Nat} (hb : base < 256) (hl : len < 512) :
    ixwBad (BitVec.ofNat 32 (base + 256 * len)) = decide (256 < base + len) := by
  have hval : (BitVec.ofNat 32 (base + 256 * len)).toNat = base + 256 * len := by
    rw [BitVec.toNat_ofNat]
    omega
  have htop : bits (BitVec.ofNat 32 (base + 256 * len)) 17 15 = 0#15 := (extractLsb'_eq_zero_iff_lt _ rfl).mpr (by omega)
  have hbase : (bits (BitVec.ofNat 32 (base + 256 * len)) 0 8).toNat = base := by
    rw [toNat_extractLsb'_eq_div_mod, hval]
    omega
  have hlen : (bits (BitVec.ofNat 32 (base + 256 * len)) 8 9).toNat = len := by
    rw [toNat_extractLsb'_eq_div_mod, hval]
    omega
  rw [ixwBad, htop, hbase, hlen]
  simp

theorem State.ixsetOp_of_reserved {f : VIFmt} (hi : s.issues k g c) (hd : 8 ≤ f.d.toNat) :
    s.ixsetOp f = .next (s.raise k g (trapOf .illField 0#32)) := by
  have hreserved : f.d.extractLsb' 3 5 ≠ 0#5 := fun h =>
    absurd ((extractLsb'_eq_zero_iff_lt f.d rfl).mp h) (Nat.not_lt.mpr hd)
  rw [State.ixsetOp, State.withIssuer_of _ hi]
  simp [hreserved]

theorem State.ixsetOp_of_fields_valid {f : VIFmt} {base len : Nat} (hi : s.issues k g c) (hd : f.d.toNat < 8)
    (hbase : base = f.imm.toNat % 256) (hlen : len = f.imm.toNat / 256 + 256 * (f.d.toNat / 4)) :
    s.ixsetOp f = .next
      (if 256 < base + len then s.raise k g (trapOf .illOperand (auxSpec g 0#8))
       else s.advance k { g with ixw := g.ixw.put (f.d.toNat % 4) (BitVec.ofNat 32 (base + 256 * len)) } c 1 none) := by
  have := f.imm.isLt
  have hreserved : f.d.extractLsb' 3 5 = 0#5 := (extractLsb'_eq_zero_iff_lt f.d rfl).mpr hd
  have hindex : (f.d.extractLsb' 0 2).toNat = f.d.toNat % 4 := by simp
  have hbad : ixwBad (BitVec.ofNat 32 (base + 256 * len)) = decide (256 < base + len) := ixwBad_ofNat (by omega) (by omega)
  rw [State.ixsetOp, State.withIssuer_of _ hi]
  simp only [hreserved, hindex, ixset_value_eq hd, ← hbase, ← hlen, hbad, decide_eq_true_eq, bne_self_eq_false,
    Bool.false_eq_true, if_false]

/-! ## WELLFL (R360) -/

theorem State.wellflOp_of_field_valid (hi : s.issues k g c) (hp : (g.fieldP c).toNat < 256) :
    s.wellflOp = .next (s.advance k (g.writeBackWhere (g.fieldP c).getLsbD) c
      (1 + 32 * dirtyMax (g.well.filter fun e => (g.fieldP c).getLsbD e.1)) none) := by
  have hreserved : (g.fieldP c).extractLsb' 8 16 = 0#16 := (extractLsb'_eq_zero_iff_lt _ rfl).mpr hp
  rw [State.wellflOp, State.withIssuer_of _ hi]
  simp only [hreserved, bne_self_eq_false, Bool.false_eq_true, if_false]
  rfl

/-! ## KILL (R361) -/

theorem auxReg_toNat_mod (r lane : Nat) : (auxReg r lane).toNat % 256 = r % 256 := by
  rw [auxReg, BitVec.toNat_ofNat]
  omega

/-- KILL by its fields: the first register, the count and the reserved byte. -/
theorem State.killOp_of_fields {f n z : Nat} (hi : s.issues k g c) (hP : (g.fieldP c).toNat = 65536 * f + 256 * n + z)
    (hn : n < 256) (hz : z < 256) :
    s.killOp = .next (
      if z ≠ 0 ∨ n = 0 ∨ 128 < f + n then s.raise k g (trapOf .illField 0#32)
      else if g.window < f + n then s.raise k g (trapOf .illOperand (auxReg (max f g.window) ((lowest g.exec).getD 0)))
      else if g.pending { regs := (List.range n).map (f + ·), scalars := [], preds := [] } = true then s.hold k g
      else s.advance k (g.markDeadRange f n) c 1 none) := by
  have := (g.fieldP c).isLt
  have hfirst : ((g.fieldP c).extractLsb' 16 8).toNat = f := by
    rw [toNat_extractLsb'_eq_div_mod, hP]
    omega
  have hcount : ((g.fieldP c).extractLsb' 8 8).toNat = n := by
    rw [toNat_extractLsb'_eq_div_mod, hP]
    omega
  have hlow : (g.fieldP c).extractLsb' 0 8 = 0#8 ↔ z = 0 := by
    rw [← BitVec.toNat_inj, toNat_extractLsb'_eq_div_mod, hP]
    simp only [BitVec.toNat_ofNat]
    omega
  rw [State.killOp, State.withIssuer_of _ hi]
  simp only [hfirst, hcount, Bool.or_eq_true, bne_iff_ne, ne_eq, hlow, decide_eq_true_eq, or_assoc]
  rfl

end

end Sys2Proof.Machine
end

section
/-! SUPPORT. The register window: the statement, from the outcomes of RCLAIM, RGIVE, IXSET, WELLFL and KILL. -/

namespace Sys2Proof.Machine

/-- Settles O26: each instruction by its outcomes, and every value and entry by what a claim in line, registers given back, a write-back and a
mark leave of it. -/
theorem registerWindowResults : Obligations.RegisterWindowResults := by
  unfold Obligations.RegisterWindowResults
  simp only [exec_rclaim, exec_rgive, exec_ixset, exec_wellfl, exec_kill]
  refine ⟨?claim, ?noWait, ?give, ?ixset, by decide, ?wellfl, ?kill⟩
  case claim =>
    intro f s k g c hi hd ht hh hpos hmax
    refine ⟨State.rclaimOp_of_granted hi hd ht hh hpos hmax, fun hwait => ?_⟩
    exact ⟨_, _, State.rclaimOp_of_waiting hi hd ht hh hpos hmax hwait, State.claimInLine_group? .., rfl, rfl, rfl,
      State.claimInLine_mem .., fun h m l hl => Group.regLane_writeBackWhere (g := { g with irrev := true }) h (fun _ => true) m hl,
      State.mem_claimInLine_claims ..⟩
  case noWait => exact fun f s k g c hi hd ht => ⟨State.rclaimOp_of_done hi hd ht, State.rgiveOp_of_zero hi hd ht⟩
  case give =>
    intro f s k g c hi hd ht hpos hmax hp
    obtain ⟨t, hgive, hgroup, hmem⟩ := State.rgiveOp_of_given hi hd ht hpos hmax hp
    refine ⟨t, _, hgive, hgroup, Group.stepped_window .., hmem, fun h m l hm => ?_, fun e he => ?_⟩
    · rw [Group.stepped_regLane, Group.regLane_give h (by simpa using hm)]
    · rw [Group.stepped_window]
      exact Group.lt_window_of_mem_give_regs (by simpa using he)
  case ixset =>
    intro f s k g c hi
    refine ⟨fun hd hfits => ?_, fun hd hbad => ?_, State.ixsetOp_of_reserved hi⟩
    · rw [State.ixsetOp_of_fields_valid hi hd rfl rfl, if_neg (Nat.not_lt.mpr hfits)]
    · rw [State.ixsetOp_of_fields_valid hi hd rfl rfl, if_pos hbad]
  case wellfl =>
    intro s k g c hi hp
    refine ⟨_, _, State.wellflOp_of_field_valid hi hp, fun e he => ?_, fun e he => ?_, fun h m l hl =>
      Group.regLane_writeBackWhere h _ m hl, rfl⟩
    · simpa using List.of_mem_filter he
    · simp [Group.writeBackWhere, he]
  case kill =>
    intro s k g c f n z hi hP hn hz
    rw [State.killOp_of_fields hi hP hn hz]
    refine ⟨fun hbad => by rw [if_pos hbad], fun hz0 hn0 hmax hout => ?_, fun hz0 hn0 hmax hin hp hw => ?_⟩
    · rw [if_neg (by omega), if_pos hout]
      exact ⟨_, by rw [auxReg_toNat_mod]; omega, rfl⟩
    · rw [if_neg (by omega), if_neg (Nat.not_lt.mpr hin), hp, if_neg Bool.false_ne_true]
      refine ⟨_, rfl, fun r hlo hhi => ?_, fun r hr => ?_, ?_, fun e he => ?_, fun e he hr => ?_, Group.markDeadRange_eq g f n⟩
      · exact (Group.mem_markDeadRange_dead g f n r).mpr (.inl ⟨hlo, hhi⟩)
      · rw [Group.mem_markDeadRange_dead]
        exact or_iff_right (by omega)
      · rw [Group.markDeadRange_eq]
      · exact (Group.mem_markDeadRange_well hw f n e).mp he
      · exact (Group.mem_markDeadRange_well hw f n e).mpr ⟨he, hr⟩

end Sys2Proof.Machine
end

section
/-! SUPPORT. Decoding and encoding (R258, R265): the words of each format read back as their fields, a word is what its opcode and its fields pack
to, and so the decoder and the encoder invert each other. -/

namespace Sys2Proof

theorem bits_append_bits (w : Word) {lo hi n m : Nat} (h : hi = lo + m) : bits w hi n ++ bits w lo m = bits w lo (n + m) :=
  BitVec.extractLsb'_append_extractLsb'_eq_extractLsb' h

theorem bits_all (w : Word) : bits w 0 32 = w := BitVec.extractLsb'_eq_self

/-! ## What a packed word reads as at each of its bits -/

theorem bits_packV (op : BitVec 8) (f : VFmt) (lo n : Nat) : bits (packV op f) lo n = (op ++ f.d ++ f.a ++ f.b).extractLsb' lo n := rfl
theorem bits_packVI (op : BitVec 8) (f : VIFmt) (lo n : Nat) : bits (packVI op f) lo n = (op ++ f.d ++ f.imm).extractLsb' lo n := rfl
theorem bits_packM (op : BitVec 8) (f : MFmt) (lo n : Nat) : bits (packM op f) lo n = (op ++ f.data ++ f.g ++ f.neg ++ f.gp ++ f.off).extractLsb' lo n := rfl
theorem bits_packC (op : BitVec 8) (f : CFmt) (lo n : Nat) : bits (packC op f) lo n = (op ++ f.neg ++ f.gp ++ f.offs).extractLsb' lo n := rfl
theorem bits_packK (op : BitVec 8) (f : KFmt) (lo n : Nat) : bits (packK op f) lo n = (op ++ f.p).extractLsb' lo n := rfl
theorem bits_packB (op : BitVec 8) (f : BFmt) (lo n : Nat) : bits (packB op f) lo n = (op ++ f.s ++ f.n).extractLsb' lo n := rfl
theorem bits_packG (op : BitVec 8) (f : GFmt) (lo n : Nat) : bits (packG op f) lo n = (op ++ f.s ++ f.g ++ f.idx).extractLsb' lo n := rfl
theorem bits_packQ (op : BitVec 8) (f : QFmt) (lo n : Nat) : bits (packQ op f) lo n = (op ++ f.d ++ f.z1 ++ f.f ++ f.z2 ++ f.qn).extractLsb' lo n := rfl
theorem bits_packT (op : BitVec 8) (f : TFmt) (lo n : Nat) : bits (packT op f) lo n = (op ++ f.s ++ f.u ++ f.fl ++ f.slot).extractLsb' lo n := rfl
theorem bits_packE (op : BitVec 8) (f : EFmt) (lo n : Nat) : bits (packE op f) lo n = (op ++ f.gd ++ f.gs ++ f.p ++ f.q).extractLsb' lo n := rfl
theorem bits_packX (op : BitVec 8) (f : XFmt) (lo n : Nat) : bits (packX op f) lo n = (op ++ f.a ++ f.b0 ++ f.b1 ++ f.pair ++ f.hint).extractLsb' lo n := rfl
theorem bits_packXD (op : BitVec 8) (f : XDFmt) (lo n : Nat) : bits (packXD op f) lo n = (op ++ f.g ++ f.z ++ f.o ++ f.pt).extractLsb' lo n := rfl
theorem bits_packVLong (f : VLong) (lo n : Nat) : bits (packVLong f) lo n =
    (f.c ++ f.pata ++ f.para ++ f.patb ++ f.parb ++ f.deadA ++ f.deadB ++ f.deadC ++ f.keep ++ f.hint ++ f.rsvd).extractLsb' lo n := rfl
theorem bits_packMLong (f : MLong) (lo n : Nat) : bits (packMLong f) lo n =
    (f.disp ++ f.wid ++ f.scope ++ f.ord ++ f.deadD ++ f.deadO ++ f.keep ++ f.o64 ++ f.hint ++ f.rsvd).extractLsb' lo n := rfl
theorem bits_packALong (f : ALong) (lo n : Nat) : bits (packALong f) lo n =
    (f.val ++ f.cmp ++ f.wid ++ f.scope ++ f.ord ++ f.deadD ++ f.deadO ++ f.keep ++ f.o64 ++ f.hint ++ f.rsvd).extractLsb' lo n := rfl
theorem bits_packELong (f : ELong) (lo n : Nat) : bits (packELong f) lo n =
    (f.x ++ f.bsel ++ f.z1 ++ f.y ++ f.z2 ++ f.rsvd).extractLsb' lo n := rfl
theorem bits_packXLong (f : XLong) (lo n : Nat) : bits (packXLong f) lo n =
    (f.m ++ f.n ++ f.k ++ f.clr ++ f.bar ++ f.rel ++ f.rsvd).extractLsb' lo n := rfl
theorem bits_packXDLong (f : XDLong) (lo n : Nat) : bits (packXDLong f) lo n =
    (f.rq ++ f.z ++ f.add ++ f.rsvd).extractLsb' lo n := rfl

/-! ## Unpacking what was packed -/

@[simp] theorem opcodeOf_packV (op : BitVec 8) (f : VFmt) : opcodeOf (packV op f) = op := by
  simp (disch := omega) only [opcodeOf, bits_packV, BitVec.extractLsb'_append_eq_of_le, BitVec.extractLsb'_eq_self, Nat.reduceSub]
@[simp] theorem unpackV_packV (op : BitVec 8) (f : VFmt) : unpackV (packV op f) = f := by
  simp (disch := omega) only [unpackV, bits_packV, BitVec.extractLsb'_append_eq_of_add_le, BitVec.extractLsb'_append_eq_of_le, BitVec.extractLsb'_eq_self,
    Nat.reduceSub]
@[simp] theorem opcodeOf_packVI (op : BitVec 8) (f : VIFmt) : opcodeOf (packVI op f) = op := by
  simp (disch := omega) only [opcodeOf, bits_packVI, BitVec.extractLsb'_append_eq_of_le, BitVec.extractLsb'_eq_self, Nat.reduceSub]
@[simp] theorem unpackVI_packVI (op : BitVec 8) (f : VIFmt) : unpackVI (packVI op f) = f := by
  simp (disch := omega) only [unpackVI, bits_packVI, BitVec.extractLsb'_append_eq_of_add_le, BitVec.extractLsb'_append_eq_of_le, BitVec.extractLsb'_eq_self,
    Nat.reduceSub]
@[simp] theorem opcodeOf_packM (op : BitVec 8) (f : MFmt) : opcodeOf (packM op f) = op := by
  simp (disch := omega) only [opcodeOf, bits_packM, BitVec.extractLsb'_append_eq_of_le, BitVec.extractLsb'_eq_self, Nat.reduceSub]
@[simp] theorem unpackM_packM (op : BitVec 8) (f : MFmt) : unpackM (packM op f) = f := by
  simp (disch := omega) only [unpackM, bits_packM, BitVec.extractLsb'_append_eq_of_add_le, BitVec.extractLsb'_append_eq_of_le, BitVec.extractLsb'_eq_self,
    Nat.reduceSub]
@[simp] theorem opcodeOf_packC (op : BitVec 8) (f : CFmt) : opcodeOf (packC op f) = op := by
  simp (disch := omega) only [opcodeOf, bits_packC, BitVec.extractLsb'_append_eq_of_le, BitVec.extractLsb'_eq_self, Nat.reduceSub]
@[simp] theorem unpackC_packC (op : BitVec 8) (f : CFmt) : unpackC (packC op f) = f := by
  simp (disch := omega) only [unpackC, bits_packC, BitVec.extractLsb'_append_eq_of_add_le, BitVec.extractLsb'_append_eq_of_le, BitVec.extractLsb'_eq_self,
    Nat.reduceSub]
@[simp] theorem opcodeOf_packK (op : BitVec 8) (f : KFmt) : opcodeOf (packK op f) = op := by
  simp (disch := omega) only [opcodeOf, bits_packK, BitVec.extractLsb'_append_eq_of_le, BitVec.extractLsb'_eq_self, Nat.reduceSub]
@[simp] theorem unpackK_packK (op : BitVec 8) (f : KFmt) : unpackK (packK op f) = f := by
  simp (disch := omega) only [unpackK, bits_packK, BitVec.extractLsb'_append_eq_of_add_le, BitVec.extractLsb'_eq_self]
@[simp] theorem opcodeOf_packB (op : BitVec 8) (f : BFmt) : opcodeOf (packB op f) = op := by
  simp (disch := omega) only [opcodeOf, bits_packB, BitVec.extractLsb'_append_eq_of_le, BitVec.extractLsb'_eq_self, Nat.reduceSub]
@[simp] theorem unpackB_packB (op : BitVec 8) (f : BFmt) : unpackB (packB op f) = f := by
  simp (disch := omega) only [unpackB, bits_packB, BitVec.extractLsb'_append_eq_of_add_le, BitVec.extractLsb'_append_eq_of_le, BitVec.extractLsb'_eq_self,
    Nat.reduceSub]
@[simp] theorem opcodeOf_packG (op : BitVec 8) (f : GFmt) : opcodeOf (packG op f) = op := by
  simp (disch := omega) only [opcodeOf, bits_packG, BitVec.extractLsb'_append_eq_of_le, BitVec.extractLsb'_eq_self, Nat.reduceSub]
@[simp] theorem unpackG_packG (op : BitVec 8) (f : GFmt) : unpackG (packG op f) = f := by
  simp (disch := omega) only [unpackG, bits_packG, BitVec.extractLsb'_append_eq_of_add_le, BitVec.extractLsb'_append_eq_of_le, BitVec.extractLsb'_eq_self,
    Nat.reduceSub]
@[simp] theorem opcodeOf_packQ (op : BitVec 8) (f : QFmt) : opcodeOf (packQ op f) = op := by
  simp (disch := omega) only [opcodeOf, bits_packQ, BitVec.extractLsb'_append_eq_of_le, BitVec.extractLsb'_eq_self, Nat.reduceSub]
@[simp] theorem unpackQ_packQ (op : BitVec 8) (f : QFmt) : unpackQ (packQ op f) = f := by
  simp (disch := omega) only [unpackQ, bits_packQ, BitVec.extractLsb'_append_eq_of_add_le, BitVec.extractLsb'_append_eq_of_le, BitVec.extractLsb'_eq_self,
    Nat.reduceSub]
@[simp] theorem opcodeOf_packT (op : BitVec 8) (f : TFmt) : opcodeOf (packT op f) = op := by
  simp (disch := omega) only [opcodeOf, bits_packT, BitVec.extractLsb'_append_eq_of_le, BitVec.extractLsb'_eq_self, Nat.reduceSub]
@[simp] theorem unpackT_packT (op : BitVec 8) (f : TFmt) : unpackT (packT op f) = f := by
  simp (disch := omega) only [unpackT, bits_packT, BitVec.extractLsb'_append_eq_of_add_le, BitVec.extractLsb'_append_eq_of_le, BitVec.extractLsb'_eq_self,
    Nat.reduceSub]
@[simp] theorem opcodeOf_packE (op : BitVec 8) (f : EFmt) : opcodeOf (packE op f) = op := by
  simp (disch := omega) only [opcodeOf, bits_packE, BitVec.extractLsb'_append_eq_of_le, BitVec.extractLsb'_eq_self, Nat.reduceSub]
@[simp] theorem unpackE_packE (op : BitVec 8) (f : EFmt) : unpackE (packE op f) = f := by
  simp (disch := omega) only [unpackE, bits_packE, BitVec.extractLsb'_append_eq_of_add_le, BitVec.extractLsb'_append_eq_of_le, BitVec.extractLsb'_eq_self,
    Nat.reduceSub]
@[simp] theorem opcodeOf_packX (op : BitVec 8) (f : XFmt) : opcodeOf (packX op f) = op := by
  simp (disch := omega) only [opcodeOf, bits_packX, BitVec.extractLsb'_append_eq_of_le, BitVec.extractLsb'_eq_self, Nat.reduceSub]
@[simp] theorem unpackX_packX (op : BitVec 8) (f : XFmt) : unpackX (packX op f) = f := by
  simp (disch := omega) only [unpackX, bits_packX, BitVec.extractLsb'_append_eq_of_add_le, BitVec.extractLsb'_append_eq_of_le, BitVec.extractLsb'_eq_self,
    Nat.reduceSub]
@[simp] theorem opcodeOf_packXD (op : BitVec 8) (f : XDFmt) : opcodeOf (packXD op f) = op := by
  simp (disch := omega) only [opcodeOf, bits_packXD, BitVec.extractLsb'_append_eq_of_le, BitVec.extractLsb'_eq_self, Nat.reduceSub]
@[simp] theorem unpackXD_packXD (op : BitVec 8) (f : XDFmt) : unpackXD (packXD op f) = f := by
  simp (disch := omega) only [unpackXD, bits_packXD, BitVec.extractLsb'_append_eq_of_add_le, BitVec.extractLsb'_append_eq_of_le, BitVec.extractLsb'_eq_self,
    Nat.reduceSub]
@[simp] theorem unpackVLong_packVLong (f : VLong) : unpackVLong (packVLong f) = f := by
  simp (disch := omega) only [unpackVLong, bits_packVLong, BitVec.extractLsb'_append_eq_of_add_le, BitVec.extractLsb'_append_eq_of_le, BitVec.extractLsb'_eq_self,
    Nat.reduceSub]
@[simp] theorem unpackMLong_packMLong (f : MLong) : unpackMLong (packMLong f) = f := by
  simp (disch := omega) only [unpackMLong, bits_packMLong, BitVec.extractLsb'_append_eq_of_add_le, BitVec.extractLsb'_append_eq_of_le, BitVec.extractLsb'_eq_self,
    Nat.reduceSub]
@[simp] theorem unpackALong_packALong (f : ALong) : unpackALong (packALong f) = f := by
  simp (disch := omega) only [unpackALong, bits_packALong, BitVec.extractLsb'_append_eq_of_add_le, BitVec.extractLsb'_append_eq_of_le, BitVec.extractLsb'_eq_self,
    Nat.reduceSub]
@[simp] theorem unpackELong_packELong (f : ELong) : unpackELong (packELong f) = f := by
  simp (disch := omega) only [unpackELong, bits_packELong, BitVec.extractLsb'_append_eq_of_add_le, BitVec.extractLsb'_append_eq_of_le, BitVec.extractLsb'_eq_self,
    Nat.reduceSub]
@[simp] theorem unpackXLong_packXLong (f : XLong) : unpackXLong (packXLong f) = f := by
  simp (disch := omega) only [unpackXLong, bits_packXLong, BitVec.extractLsb'_append_eq_of_add_le, BitVec.extractLsb'_append_eq_of_le, BitVec.extractLsb'_eq_self,
    Nat.reduceSub]
@[simp] theorem unpackXDLong_packXDLong (f : XDLong) : unpackXDLong (packXDLong f) = f := by
  simp (disch := omega) only [unpackXDLong, bits_packXDLong, BitVec.extractLsb'_append_eq_of_add_le, BitVec.extractLsb'_append_eq_of_le, BitVec.extractLsb'_eq_self,
    Nat.reduceSub]

/-! ## Packing what was unpacked -/

@[simp] theorem packV_unpackV (w : Word) : packV (opcodeOf w) (unpackV w) = w := by
  simp only [packV, opcodeOf, unpackV, bits_append_bits]; exact bits_all w
@[simp] theorem packVI_unpackVI (w : Word) : packVI (opcodeOf w) (unpackVI w) = w := by
  simp only [packVI, opcodeOf, unpackVI, bits_append_bits]; exact bits_all w
@[simp] theorem packM_unpackM (w : Word) : packM (opcodeOf w) (unpackM w) = w := by
  simp only [packM, opcodeOf, unpackM, bits_append_bits]; exact bits_all w
@[simp] theorem packC_unpackC (w : Word) : packC (opcodeOf w) (unpackC w) = w := by
  simp only [packC, opcodeOf, unpackC, bits_append_bits]; exact bits_all w
@[simp] theorem packK_unpackK (w : Word) : packK (opcodeOf w) (unpackK w) = w := by
  simp only [packK, opcodeOf, unpackK, bits_append_bits]; exact bits_all w
@[simp] theorem packB_unpackB (w : Word) : packB (opcodeOf w) (unpackB w) = w := by
  simp only [packB, opcodeOf, unpackB, bits_append_bits]; exact bits_all w
@[simp] theorem packG_unpackG (w : Word) : packG (opcodeOf w) (unpackG w) = w := by
  simp only [packG, opcodeOf, unpackG, bits_append_bits]; exact bits_all w
@[simp] theorem packQ_unpackQ (w : Word) : packQ (opcodeOf w) (unpackQ w) = w := by
  simp only [packQ, opcodeOf, unpackQ, bits_append_bits]; exact bits_all w
@[simp] theorem packT_unpackT (w : Word) : packT (opcodeOf w) (unpackT w) = w := by
  simp only [packT, opcodeOf, unpackT, bits_append_bits]; exact bits_all w
@[simp] theorem packE_unpackE (w : Word) : packE (opcodeOf w) (unpackE w) = w := by
  simp only [packE, opcodeOf, unpackE, bits_append_bits]; exact bits_all w
@[simp] theorem packX_unpackX (w : Word) : packX (opcodeOf w) (unpackX w) = w := by
  simp only [packX, opcodeOf, unpackX, bits_append_bits]; exact bits_all w
@[simp] theorem packXD_unpackXD (w : Word) : packXD (opcodeOf w) (unpackXD w) = w := by
  simp only [packXD, opcodeOf, unpackXD, bits_append_bits]; exact bits_all w
@[simp] theorem packVLong_unpackVLong (w : Word) : packVLong (unpackVLong w) = w := by
  simp only [packVLong, unpackVLong, bits_append_bits]; exact bits_all w
@[simp] theorem packMLong_unpackMLong (w : Word) : packMLong (unpackMLong w) = w := by
  simp only [packMLong, unpackMLong, bits_append_bits]; exact bits_all w
@[simp] theorem packALong_unpackALong (w : Word) : packALong (unpackALong w) = w := by
  simp only [packALong, unpackALong, bits_append_bits]; exact bits_all w
@[simp] theorem packELong_unpackELong (w : Word) : packELong (unpackELong w) = w := by
  simp only [packELong, unpackELong, bits_append_bits]; exact bits_all w
@[simp] theorem packXLong_unpackXLong (w : Word) : packXLong (unpackXLong w) = w := by
  simp only [packXLong, unpackXLong, bits_append_bits]; exact bits_all w
@[simp] theorem packXDLong_unpackXDLong (w : Word) : packXDLong (unpackXDLong w) = w := by
  simp only [packXDLong, unpackXDLong, bits_append_bits]; exact bits_all w

/-! ## A word is what its opcode and its fields pack to -/

theorem packV_eq_iff {op : BitVec 8} {f : VFmt} {w : Word} : packV op f = w ↔ op = opcodeOf w ∧ f = unpackV w :=
  ⟨fun h => by simp [← h], fun ⟨ho, hf⟩ => by simp [ho, hf]⟩
theorem packVI_eq_iff {op : BitVec 8} {f : VIFmt} {w : Word} : packVI op f = w ↔ op = opcodeOf w ∧ f = unpackVI w :=
  ⟨fun h => by simp [← h], fun ⟨ho, hf⟩ => by simp [ho, hf]⟩
theorem packM_eq_iff {op : BitVec 8} {f : MFmt} {w : Word} : packM op f = w ↔ op = opcodeOf w ∧ f = unpackM w :=
  ⟨fun h => by simp [← h], fun ⟨ho, hf⟩ => by simp [ho, hf]⟩
theorem packC_eq_iff {op : BitVec 8} {f : CFmt} {w : Word} : packC op f = w ↔ op = opcodeOf w ∧ f = unpackC w :=
  ⟨fun h => by simp [← h], fun ⟨ho, hf⟩ => by simp [ho, hf]⟩
theorem packK_eq_iff {op : BitVec 8} {f : KFmt} {w : Word} : packK op f = w ↔ op = opcodeOf w ∧ f = unpackK w :=
  ⟨fun h => by simp [← h], fun ⟨ho, hf⟩ => by simp [ho, hf]⟩
theorem packB_eq_iff {op : BitVec 8} {f : BFmt} {w : Word} : packB op f = w ↔ op = opcodeOf w ∧ f = unpackB w :=
  ⟨fun h => by simp [← h], fun ⟨ho, hf⟩ => by simp [ho, hf]⟩
theorem packG_eq_iff {op : BitVec 8} {f : GFmt} {w : Word} : packG op f = w ↔ op = opcodeOf w ∧ f = unpackG w :=
  ⟨fun h => by simp [← h], fun ⟨ho, hf⟩ => by simp [ho, hf]⟩
theorem packQ_eq_iff {op : BitVec 8} {f : QFmt} {w : Word} : packQ op f = w ↔ op = opcodeOf w ∧ f = unpackQ w :=
  ⟨fun h => by simp [← h], fun ⟨ho, hf⟩ => by simp [ho, hf]⟩
theorem packT_eq_iff {op : BitVec 8} {f : TFmt} {w : Word} : packT op f = w ↔ op = opcodeOf w ∧ f = unpackT w :=
  ⟨fun h => by simp [← h], fun ⟨ho, hf⟩ => by simp [ho, hf]⟩
theorem packE_eq_iff {op : BitVec 8} {f : EFmt} {w : Word} : packE op f = w ↔ op = opcodeOf w ∧ f = unpackE w :=
  ⟨fun h => by simp [← h], fun ⟨ho, hf⟩ => by simp [ho, hf]⟩
theorem packX_eq_iff {op : BitVec 8} {f : XFmt} {w : Word} : packX op f = w ↔ op = opcodeOf w ∧ f = unpackX w :=
  ⟨fun h => by simp [← h], fun ⟨ho, hf⟩ => by simp [ho, hf]⟩
theorem packXD_eq_iff {op : BitVec 8} {f : XDFmt} {w : Word} : packXD op f = w ↔ op = opcodeOf w ∧ f = unpackXD w :=
  ⟨fun h => by simp [← h], fun ⟨ho, hf⟩ => by simp [ho, hf]⟩
theorem packVLong_eq_iff {f : VLong} {w : Word} : packVLong f = w ↔ f = unpackVLong w := ⟨fun h => by simp [← h], fun h => by simp [h]⟩
theorem packMLong_eq_iff {f : MLong} {w : Word} : packMLong f = w ↔ f = unpackMLong w := ⟨fun h => by simp [← h], fun h => by simp [h]⟩
theorem packALong_eq_iff {f : ALong} {w : Word} : packALong f = w ↔ f = unpackALong w := ⟨fun h => by simp [← h], fun h => by simp [h]⟩
theorem packELong_eq_iff {f : ELong} {w : Word} : packELong f = w ↔ f = unpackELong w := ⟨fun h => by simp [← h], fun h => by simp [h]⟩
theorem packXLong_eq_iff {f : XLong} {w : Word} : packXLong f = w ↔ f = unpackXLong w := ⟨fun h => by simp [← h], fun h => by simp [h]⟩
theorem packXDLong_eq_iff {f : XDLong} {w : Word} : packXDLong f = w ↔ f = unpackXDLong w := ⟨fun h => by simp [← h], fun h => by simp [h]⟩

/-! ## The opcode map: one instruction at a time -/

set_option maxRecDepth 20000 in
theorem decodeShort_of_encode {i : Instr} {k : KFmt} {w : Word} (h : encode i k = [w]) : decodeShort w = .ok i := by
  cases i
  all_goals simp only [encode, List.cons.injEq, reduceCtorEq, and_false, and_true, packV_eq_iff, packVI_eq_iff, packM_eq_iff, packC_eq_iff, packK_eq_iff, packB_eq_iff, packG_eq_iff,
    packQ_eq_iff, packT_eq_iff, packE_eq_iff, packX_eq_iff, packXD_eq_iff] at h
  all_goals
    obtain ⟨ho, rfl⟩ := h
    unfold decodeShort
    rw [← ho]; rfl

set_option maxRecDepth 20000 in
theorem decodeLong_of_encode {i : Instr} {k : KFmt} {w x : Word} (h : encode i k = [w, x]) : decodeLong w x = .ok i := by
  cases i
  all_goals simp only [encode, List.cons.injEq, reduceCtorEq, and_false, and_true, packV_eq_iff, packM_eq_iff, packE_eq_iff, packX_eq_iff, packXD_eq_iff, packVLong_eq_iff, packMLong_eq_iff, packALong_eq_iff, packELong_eq_iff, packXLong_eq_iff, packXDLong_eq_iff] at h
  all_goals
    obtain ⟨⟨ho, rfl⟩, rfl⟩ := h
    unfold decodeLong
    rw [← ho]; rfl

theorem ofNat_eq_opcodeOf {w : Word} {n : Nat} (h : (opcodeOf w).toNat = n) : BitVec.ofNat 8 n = opcodeOf w := by
  rw [← h, BitVec.ofNat_toNat, BitVec.setWidth_eq]

set_option maxRecDepth 20000 in
theorem encode_of_decodeShort {w : Word} {i : Instr} (h : decodeShort w = .ok i) : encode i (unpackK w) = [w] := by
  unfold decodeShort at h
  split at h
  all_goals cases h
  all_goals
    rename_i h
    simpa only [encode, List.cons.injEq, and_true, packV_eq_iff, packVI_eq_iff, packM_eq_iff, packC_eq_iff, packK_eq_iff, packB_eq_iff, packG_eq_iff,
    packQ_eq_iff, packT_eq_iff, packE_eq_iff, packX_eq_iff, packXD_eq_iff] using ofNat_eq_opcodeOf h

set_option maxRecDepth 20000 in
theorem encode_of_decodeLong {w x : Word} {i : Instr} (h : decodeLong w x = .ok i) : encode i (unpackK w) = [w, x] := by
  unfold decodeLong at h
  split at h
  all_goals cases h
  all_goals
    rename_i h
    simpa only [encode, List.cons.injEq, and_true, packV_eq_iff, packM_eq_iff, packE_eq_iff, packX_eq_iff, packXD_eq_iff, packVLong_eq_iff, packMLong_eq_iff, packALong_eq_iff, packELong_eq_iff, packXLong_eq_iff, packXDLong_eq_iff] using ofNat_eq_opcodeOf h

/-- An instruction with words has one or two. -/
theorem encode_length_of_hasWords {i : Instr} (k : KFmt) (h : i.hasWords = true) :
    (∃ w, encode i k = [w]) ∨ ∃ w x, encode i k = [w, x] := by
  cases i
  all_goals simp only [Instr.hasWords, Bool.false_eq_true] at h
  all_goals first
    | exact .inl ⟨_, rfl⟩
    | exact .inr ⟨_, _, rfl⟩

/-- Settles O57: an instruction's words decode to it, and the words of a decoded instruction are its encoding. -/
theorem decodeInvertsEncode : Obligations.DecodeInvertsEncode := by
  refine ⟨fun i k h => ?_, fun k i hi => ?_, fun w x i h => ?_⟩
  · obtain ⟨w, hw⟩ | ⟨w, x, hw⟩ := encode_length_of_hasWords k h
    · rw [hw]; exact decodeShort_of_encode hw
    · rw [hw]; exact decodeLong_of_encode hw
  · simp only [List.mem_cons, List.not_mem_nil, or_false] at hi
    rcases hi with rfl | rfl | rfl | rfl | rfl | rfl | rfl | rfl | rfl | rfl | rfl | rfl | rfl | rfl | rfl | rfl | rfl | rfl
    all_goals exact ⟨_, rfl, unpackK_packK _ k⟩
  · cases x with
    | none => exact encode_of_decodeShort h
    | some x => exact encode_of_decodeLong h


end Sys2Proof
end

section
/-! SUPPORT. Instructions of format V that give a lane, a predicate or a scalar a function of their sources: both forms at once (R274 to R294). -/

namespace Sys2Proof.Machine

section
variable {op : Nat} {short : VFmt → Instr} {long : VFmt → VLong → Instr}

theorem computes_of_laneOp {h r : Word → Word → Word → Word} (hs : ∀ f s, exec (short f) s = s.laneOp op (vShort f) (plain h))
    (hl : ∀ f x s, exec (long f x) s = s.laneOp op (vLong f x) (plain h)) (hr : ∀ a b c, h a b c = r a b c) : computes op short long r :=
  ⟨fun f => plain_pt (hs f) hr, fun f x => plain_pt (hl f x) hr⟩

theorem rounds_of_laneOp {r : VFmt → Nat → Word → Word → Word → Word → Word × Flags}
    (hs : ∀ f s, exec (short f) s = s.laneOp op (vShort f) (r f)) (hl : ∀ f x s, exec (long f x) s = s.laneOp op (vLong f x) (r f)) :
    rounds op short long r :=
  ⟨fun f => rounds_pt (hs f) fun _ _ _ _ _ => rfl, fun f x => rounds_pt (hl f x) fun _ _ _ _ _ => rfl⟩

theorem tests_of_lanePredOp {h r : VFmt → Nat → Word → Word → Word → Bool × Flags}
    (hs : ∀ f s, exec (short f) s = s.lanePredOp op (vShort f) (h f)) (hl : ∀ f x s, exec (long f x) s = s.lanePredOp op (vLong f x) (h f))
    (hr : ∀ f lv hand a b, h f lv hand a b = r f lv hand a b) : tests op short long r :=
  ⟨fun f => tests_pt (hs f) (hr f), fun f x => tests_pt (hl f x) (hr f)⟩

theorem effects_of_runV {e : VArgs → State → GKey → Group → VEffect} (o : State → VArgs → Host.Outcome State Fault Refusal)
    (h : VArgs → State → GKey → Group → VShape → VEffect) (ho : ∀ s v, o s v = s.runV op v (h v s))
    (hs : ∀ f s, exec (short f) s = o s (vShort f)) (hl : ∀ f x s, exec (long f x) s = o s (vLong f x))
    (hr : ∀ v s k g, h v s k g (shapeOf op) = e v s k g) : effects op short long e :=
  ⟨fun f => effects_pt' (fun s => (hs f s).trans (ho s _)) (hr _), fun f x => effects_pt' (fun s => (hl f x s).trans (ho s _)) (hr _)⟩

theorem uniformly_of_scalarOp {h : Word → Word → Word → Word} {r : Word → Word → Word}
    (hs : ∀ f s, exec (short f) s = s.scalarOp op (vShort f) h) (hl : ∀ f x s, exec (long f x) s = s.scalarOp op (vLong f x) h)
    (hr : ∀ a b, h a b 0#32 = r a b) : uniformly op short long r :=
  effects_of_runV (fun s v => s.scalarOp op v h) (fun v _ _ g _ => .scalar (some (h (g.uniform v.a) (g.uniform v.b) 0#32)) 0#32)
    (fun _ _ => rfl) hs hl fun v _ _ g => by simp only [hr]

end

theorem resMulhs_eq (a b c : Word) : resMulhs a b c = BitVec.ofInt 32 (a.toInt * b.toInt / 2 ^ 32) := rfl
theorem resMulhu_eq (a b c : Word) : resMulhu a b c = BitVec.ofNat 32 (a.toNat * b.toNat / 2 ^ 32) := rfl

/-- Settles O1: the result function of each row of R274, both forms. -/
theorem integerArithmeticResults : Obligations.IntegerArithmeticResults := by
  refine ⟨?add, ?sub, ?mul, ?mulhs, ?mulhu, ?mad, ?addc, ?abs, ?min, ?max, ?minu, ?maxu, ?adds⟩
  case add | sub | mul | mad => exact computes_of_laneOp (fun _ _ => rfl) (fun _ _ _ => rfl) fun _ _ _ => rfl
  case mulhs => exact computes_of_laneOp (fun _ _ => rfl) (fun _ _ _ => rfl) resMulhs_eq
  case mulhu => exact computes_of_laneOp (fun _ _ => rfl) (fun _ _ _ => rfl) resMulhu_eq
  case addc => exact computes_of_laneOp (fun _ _ => rfl) (fun _ _ _ => rfl) resAddc_eq
  case abs => exact computes_of_laneOp (fun _ _ => rfl) (fun _ _ _ => rfl) resAbs_eq
  case min => exact computes_of_laneOp (fun _ _ => rfl) (fun _ _ _ => rfl) resMin_eq
  case max => exact computes_of_laneOp (fun _ _ => rfl) (fun _ _ _ => rfl) resMax_eq
  case minu => exact computes_of_laneOp (fun _ _ => rfl) (fun _ _ _ => rfl) resMinu_eq
  case maxu => exact computes_of_laneOp (fun _ _ => rfl) (fun _ _ _ => rfl) resMaxu_eq
  case adds => exact ⟨fun _ => rounds_pt (fun _ => rfl) resAdds_eq, fun _ _ => rounds_pt (fun _ => rfl) resAdds_eq⟩

/-- Settles O2: the result function of each row of R276 and R277, both forms. -/
theorem bitwiseAndShiftResults : Obligations.BitwiseAndShiftResults := by
  refine ⟨?and, ?or, ?xor, ?andn, ?shl, ?shr, ?sar, ?rot, ?popc, ?clz, ?brev, ?bfx, ?bfi, ?bfn3⟩
  case and | or | xor | andn | clz | brev => exact computes_of_laneOp (fun _ _ => rfl) (fun _ _ _ => rfl) fun _ _ _ => rfl
  case shl => exact computes_of_laneOp (fun _ _ => rfl) (fun _ _ _ => rfl) resShl_eq
  case shr => exact computes_of_laneOp (fun _ _ => rfl) (fun _ _ _ => rfl) resShr_eq
  case sar => exact computes_of_laneOp (fun _ _ => rfl) (fun _ _ _ => rfl) resSar_eq
  case rot => exact computes_of_laneOp (fun _ _ => rfl) (fun _ _ _ => rfl) resRot_eq
  case popc => exact computes_of_laneOp (fun _ _ => rfl) (fun _ _ _ => rfl) resPopc_eq
  case bfx => exact computes_of_laneOp (fun _ _ => rfl) (fun _ _ _ => rfl) resBfx_eq
  case bfi => exact computes_of_laneOp (fun _ _ => rfl) (fun _ _ _ => rfl) resBfi_eq
  case bfn3 => exact fun _ x => plain_pt (fun _ => rfl) (resBfn3_eq (bfn3Table x))


/-- An FP32 word by its fields (R197). -/
theorem f32_eq (a : Word) : f32 a =
    (let neg := a.getLsbD 31
      let e : Nat := a.toNat / 2 ^ 23 % 256
      let m : Nat := a.toNat % 2 ^ 23
      if e = 255 then (if m = 0 then .inf neg else .nan neg (decide (2 ^ 22 ≤ m)) m)
      else if e = 0 then .fin neg m (-149) else .fin neg (2 ^ 23 + m) ((e : Int) - 127 - 23)) := by
  have hneg : decide (a.toNat / 2 ^ 31 % 2 = 1) = a.getLsbD 31 := by rw [BitVec.getLsbD, Nat.testBit_eq_decide_div_mod_eq]
  rw [← hneg]
  simp [f32, decodeF, fp32]
  rfl

/-- FCLASS by the fields of the word: sign, exponent and significand (R282). -/
theorem resClass_eq (a b c : Word) : resClass a b c =
    (let neg := a.getLsbD 31
      let e := a.toNat / 2 ^ 23 % 256
      let m := a.toNat % 2 ^ 23
      1#32 <<< (if e = 255 then (if m = 0 then (if neg then 0 else 7) else if 2 ^ 22 ≤ m then 9 else 8)
        else if e = 0 then (if m = 0 then (if neg then 3 else 4) else if neg then 2 else 5)
        else if neg then 1 else 6)) := by
  have hm : a.toNat % 2 ^ 23 < 2 ^ 23 := Nat.mod_lt _ (by decide)
  rw [resClass, f32_eq]
  dsimp only
  generalize a.getLsbD 31 = neg
  generalize a.toNat / 2 ^ 23 % 256 = e
  revert hm
  generalize a.toNat % 2 ^ 23 = m
  intro (hm : m < 8388608)
  by_cases he : e = 255
  · by_cases h0 : m = 0
    · cases neg <;> simp [he, h0, classF]
    · by_cases hq : 4194304 ≤ m <;> simp [he, h0, hq, classF]
  · by_cases hz : e = 0
    · by_cases h0 : m = 0 <;> cases neg <;> simp [hz, h0, hm, classF]
    · cases neg <;> simp [he, hz, classF]

/-- Settles O3: the exact operation and its rounding of each row, both forms; FCLASS by the fields of its word. -/
theorem floatResults : Obligations.FloatResults := by
  refine ⟨?add, ?sub, ?mul, ?fma, ?min, ?max, ?rcp, ?rsq, ?sqrt, ?exp2, ?log2, ?sin, ?cos, ?tanh, ?fclass⟩
  case fclass => exact computes_of_laneOp (fun _ _ => rfl) (fun _ _ _ => rfl) resClass_eq
  all_goals exact rounds_of_laneOp (fun _ _ => rfl) fun _ _ _ => rfl

/-- Settles O4: the packed operation of each row in HAND's format, both forms. -/
theorem packedResults : Obligations.PackedResults := by
  refine ⟨?add, ?mul, ?fma, ?max, ?min, ?dot⟩
  all_goals exact rounds_of_laneOp (fun _ _ => rfl) fun _ _ _ => rfl

/-- Settles O5: the conversion of each row with the mode that B's code gives, both forms. -/
theorem conversionResults : Obligations.ConversionResults := by
  refine ⟨?f2i, ?i2f, ?f2h, ?h2f, ?f2q, ?q2f, ?f2n, ?n2f, ?bscl, ?frnd⟩
  all_goals exact rounds_of_laneOp (fun _ _ => rfl) fun _ _ _ => rfl

theorem exec_sel (f : VFmt) (x : VLong) (s : State) : exec (.sel f x) s = s.runV 0x71 (vLong f x) fun k g sh =>
    .lanes (Lanes.ofFn fun l => if (g.pred (x.c.toNat % 8)).getLsbD l != x.c.getLsbD 3
      then s.deliver k g ((vLong f x).srcA sh) l else s.deliver k g ((vLong f x).srcB sh) l) 0#32 := by
  show s.selOp (vLong f x) = _
  rfl

theorem exec_ssel (f : VFmt) (x : VLong) (s : State) : exec (.ssel f x) s = s.runV 0xdb (vLong f x) fun _ g _ =>
    .scalar (some (if g.uniform x.c = 0#32 then g.uniform f.b else g.uniform f.a)) 0#32 := by
  show s.sselOp (vLong f x) = _
  rfl

theorem toNat_bits_low5 (w : Word) : (bits w 0 5).toNat = w.toNat % 32 := by simp [bits]

/-- Settles O6: MOV as a result function, SEL, PERM and MOVS as their effects. -/
theorem laneMoveResults : Obligations.LaneMoveResults := by
  refine ⟨?mov, ?sel, ?perm, ?movs⟩
  case mov => exact computes_of_laneOp (fun _ _ => rfl) (fun _ _ _ => rfl) fun _ _ _ => rfl
  case sel => exact fun f x => effects_pt' (exec_sel f x) fun _ _ _ => rfl
  case perm =>
    refine effects_of_runV State.permOp _ (fun _ _ => rfl) (fun _ _ => rfl) (fun _ _ _ => rfl) fun v s k g => ?_
    simp only [toNat_bits_low5]; rfl
  case movs =>
    refine effects_of_runV State.movsOp _ (fun _ _ => rfl) (fun _ _ => rfl) (fun _ _ _ => rfl) fun v s k g => ?_
    simp only [toNat_bits_low5]

/-- Settles O8: the condition of each row's function code in every active lane, both forms. -/
theorem laneTestResults : Obligations.LaneTestResults := by
  unfold Obligations.LaneTestResults
  intro ord
  refine ⟨?icmp, ?icmpu, ?fcmp, ?hcmp2, ?pmov⟩
  case icmp =>
    exact tests_of_lanePredOp (h := fun f => tstI condSigned (fnOf f.d)) (fun _ _ => rfl) (fun _ _ _ => rfl)
      fun f _ _ a b => congrArg (·, 0#32) (condSigned_eq (f.d.toNat / 8) a b)
  case icmpu =>
    exact tests_of_lanePredOp (h := fun f => tstI condUnsigned (fnOf f.d)) (fun _ _ => rfl) (fun _ _ _ => rfl)
      fun f _ _ a b => congrArg (·, 0#32) (condUnsigned_eq (f.d.toNat / 8) a b)
  case fcmp => exact tests_of_lanePredOp (h := fun f => tstF (fnOf f.d)) (fun _ _ => rfl) (fun _ _ _ => rfl) fun _ _ _ _ _ => rfl
  case hcmp2 => exact tests_of_lanePredOp (h := fun f => tstH (fnOf f.d)) (fun _ _ => rfl) (fun _ _ _ => rfl) fun _ _ _ _ _ => rfl
  case pmov => exact tests_of_lanePredOp (h := fun f => tstP (fnOf f.d)) (fun _ _ => rfl) (fun _ _ _ => rfl) fun _ _ _ _ _ => rfl

/-- Settles O9: each row of R292 to R294 as a uniform effect. -/
theorem scalarAndPredicateResults : Obligations.ScalarAndPredicateResults := by
  refine ⟨?add, ?sub, ?mul, ?and, ?or, ?xor, ?shl, ?shr, ?min, ?max, ?sel, ?cmp, ?plog⟩
  case add | sub | mul | and | or | xor => exact uniformly_of_scalarOp (fun _ _ => rfl) (fun _ _ _ => rfl) fun _ _ => rfl
  case shl => exact uniformly_of_scalarOp (fun _ _ => rfl) (fun _ _ _ => rfl) (resShl_eq · · 0#32)
  case shr => exact uniformly_of_scalarOp (fun _ _ => rfl) (fun _ _ _ => rfl) (resShr_eq · · 0#32)
  case min => exact uniformly_of_scalarOp (fun _ _ => rfl) (fun _ _ _ => rfl) (resMin_eq · · 0#32)
  case max => exact uniformly_of_scalarOp (fun _ _ => rfl) (fun _ _ _ => rfl) (resMax_eq · · 0#32)
  case sel =>
    refine fun f x => effects_pt' (exec_ssel f x) fun s k g => ?_
    simp only [ne_eq, ite_not]
  case cmp =>
    refine effects_of_runV State.scmpOp _ (fun _ _ => rfl) (fun _ _ => rfl) (fun _ _ _ => rfl) fun v _ _ g => ?_
    simp only [condScalar_eq, Bool.cond_eq_ite]; rfl
  case plog => exact effects_of_runV State.plogOp _ (fun _ _ => rfl) (fun _ _ => rfl) (fun _ _ _ => rfl) fun _ _ _ _ => rfl

end Sys2Proof.Machine
end

section
/-! SUPPORT. What an instruction of format V does to its group: where its result is read, and what it leaves (R119, R123, R126, R270). -/

namespace Sys2Proof.Machine

/-! ## The group after the effect -/

@[simp] theorem Group.stepped_pred (g : Group) (c : Clause) (nib : Option Lanes) (n : Nat) : (g.stepped c nib).pred n = g.pred n := by
  rw [Group.stepped_eq]; rfl

@[simp] theorem Group.stepped_scalar (g : Group) (c : Clause) (nib : Option Lanes) (n : Nat) : (g.stepped c nib).scalar n = g.scalar n := by
  rw [Group.stepped_eq]; rfl

@[simp] theorem Group.stepped_xout (g : Group) (c : Clause) (nib : Option Lanes) : (g.stepped c nib).xout = g.xout := by
  rw [Group.stepped_eq]

theorem Group.wellOk_stepped {g : Group} (h : g.wellOk) (c : Clause) (nib : Option Lanes) : (g.stepped c nib).wellOk := by
  rw [Group.stepped_eq]; exact h

theorem Group.useReg_applyDead (g : Group) (v : VArgs) (u : RegUse) (l : Nat) : (g.applyDead v).useReg u l = g.useReg u l := by
  rw [Group.applyDead_eq]; rfl

theorem State.afterV_group? (s : State) (k : GKey) (g : Group) (c : Clause) (op : Nat) (v : VArgs) (e : VEffect) :
    (s.afterV k g c op v e).group? k = some ((g.applyV v (shapeOf op) e).1.stepped c (g.applyV v (shapeOf op) e).2.1) :=
  State.advance_group? ..

theorem or_or_and_self (a b c : Word) : (a ||| (b ||| c)) &&& b = b := by
  ext i hi; simp; grind

theorem or_and_self (a b : Word) : (a ||| b) &&& a = a := by
  ext i hi; simp; grind

/-- Settles O10: a lane result is the well's and the reservoir's at its registers; a scalar and a predicate read as written. -/
theorem resultsReachTheirDestination : Obligations.ResultsReachTheirDestination := by
  refine ⟨fun s k g c op v r fl hw => ?_, fun s k g c op v w fl => ⟨?_, ?_⟩⟩
  · refine ⟨_, State.afterV_group? .., Group.wellOk_stepped ?_ _ _, fun l hl => ?_⟩
    · exact Group.wellOk_writeDst (Group.wellOk_applyDead hw v) v.d v.keep g.exec r
    · have hread (m : Nat) : (((g.applyDead v).writeDst v.d v.keep g.exec r).1).regLane m l =
          if g.exec.getLsbD l = true ∧ g.useReg (useOf v.d false 1) l = some m then r.at l else (g.applyDead v).regLane m l := by
        rw [Group.regLane_writeDst (Group.wellOk_applyDead hw v) _ _ _ _ _ hl, Group.useReg_applyDead]
      have hafter (m : Nat) : ((g.applyV v (shapeOf op) (.lanes r fl)).1.stepped c (g.applyV v (shapeOf op) (.lanes r fl)).2.1).regLane m l =
          (((g.applyDead v).writeDst v.d v.keep g.exec r).1).regLane m l := Group.stepped_regLane ..
      simp only [hafter, hread]
      refine ⟨fun n hn ha => if_pos ⟨ha, hn⟩, fun n _ hm ha => ?_⟩
      rw [if_neg (by simp [ha]), Group.regLane_applyDead hw hm]
  · refine ⟨_, State.afterV_group? .., ?_, ?_⟩
    · rw [Group.stepped_scalar]
      exact Tbl.get_put_self ..
    · simp only [Group.stepped_xout]
      exact or_or_and_self ..
  · refine ⟨_, State.afterV_group? .., ?_, fun hd => ?_, ?_⟩
    · simp [Group.pred]
    · rw [Group.stepped_pred]
      exact (Group.pred_setPred_same ..).trans (if_neg hd)
    · simp only [Group.stepped_xout]
      exact or_or_and_self ..

/-! ## The frame -/

/-- What an effect of format V changes of its group (R270). -/
theorem Group.applyV_eq (g : Group) (v : VArgs) (sh : VShape) (e : VEffect) :
    (g.applyV v sh e).1 = { g with regs := (g.applyV v sh e).1.regs, dead := (g.applyV v sh e).1.dead, well := (g.applyV v sh e).1.well,
                                   sc := (g.applyV v sh e).1.sc, pr := (g.applyV v sh e).1.pr, xout := (g.applyV v sh e).1.xout } := by
  have hd := Group.applyDead_eq g v
  cases e with
  | lanes r fl =>
    have hw := Group.writeDst_eq (g.applyDead v) v.d v.keep g.exec r
    simp only [Group.applyV, Group.raiseFlags]
    rw [hw, hd]
  | scalar r fl =>
    cases r with
    | none => simp only [Group.applyV, Group.raiseFlags]; rw [hd]
    | some w => simp only [Group.applyV, Group.raiseFlags, Group.setScalar]; rw [hd]
  | pred b fl =>
    simp only [Group.applyV, Group.raiseFlags, Group.setPred]
    split
    · rw [hd]
    · rw [hd]

/-- The sticky flags only grow. -/
theorem Group.applyV_xout (g : Group) (v : VArgs) (sh : VShape) (e : VEffect) : ∃ fl, (g.applyV v sh e).1.xout = g.xout ||| fl := by
  have hd : (g.applyDead v).xout = g.xout := by rw [Group.applyDead_eq]
  cases e with
  | lanes r fl =>
    refine ⟨fl ||| g.vXbc v sh, ?_⟩
    rw [← hd]
    show ((g.applyDead v).writeDst v.d v.keep g.exec r).1.xout ||| _ = _
    rw [Group.writeDst_eq]
  | scalar r fl =>
    refine ⟨fl ||| g.vXbc v sh, ?_⟩
    rw [← hd]
    cases r <;> rfl
  | pred b fl =>
    refine ⟨fl ||| g.vXbc v sh, ?_⟩
    rw [← hd]
    simp only [Group.applyV, Group.raiseFlags, Group.setPred]
    split <;> rfl

/-- An effect is of the kind that the destination takes: a scalar result goes to a scalar, a predicate result to a predicate. -/
def VEffect.fits (e : VEffect) (p : DPos) (d : BitVec 8) : Prop :=
  match e with
  | .lanes _ _ => True
  | .scalar _ _ => p = .scalar ∨ p = .lanesOrScalar ∧ isScalar d = true
  | .pred _ _ => ∃ m, p = .pred m

/-! ## Every row of format V is a run of its checks and its effect -/

/-- The row `i` is the checks, the wait and the effect of format V, with an effect of the kind its destination takes (R270). -/
def runsV (i : Instr) (op : Nat) (v : VArgs) : Prop :=
  ∃ f : State → GKey → Group → VShape → VEffect, (∀ s, exec i s = s.runV op v (f s)) ∧ ∀ s k g, (f s k g (shapeOf op)).fits (shapeOf op).d v.d

section
variable {i : Instr} {op : Nat} {v : VArgs}

theorem runsV_of_laneOp {h} (e : ∀ s, exec i s = State.laneOp s op v h) : runsV i op v := ⟨_, e, fun _ _ _ => trivial⟩
theorem runsV_of_lanePredOp (m : Nat) {h} (hd : (shapeOf op).d = .pred m) (e : ∀ s, exec i s = State.lanePredOp s op v h) : runsV i op v :=
  ⟨_, e, fun _ _ _ => ⟨m, hd⟩⟩
theorem runsV_of_scalarOp {h} (hd : (shapeOf op).d = .scalar) (e : ∀ s, exec i s = State.scalarOp s op v h) : runsV i op v :=
  ⟨_, e, fun _ _ _ => .inl hd⟩
theorem runsV_of_permOp (e : ∀ s, exec i s = State.permOp s v) : runsV i 0x72 v := ⟨_, e, fun _ _ _ => trivial⟩
theorem runsV_of_movsOp (e : ∀ s, exec i s = State.movsOp s v) : runsV i 0x77 v := ⟨_, e, fun _ _ _ => .inl rfl⟩
theorem runsV_of_plogOp (e : ∀ s, exec i s = State.plogOp s v) : runsV i 0x79 v := ⟨_, e, fun _ _ _ => ⟨6, rfl⟩⟩
theorem runsV_of_scmpOp (e : ∀ s, exec i s = State.scmpOp s v) : runsV i 0xd8 v := ⟨_, e, fun _ _ _ => ⟨10, rfl⟩⟩
theorem runsV_of_selOp (e : ∀ s, exec i s = State.selOp s v) : runsV i 0x71 v := ⟨_, e, fun _ _ _ => trivial⟩
theorem runsV_of_sselOp (e : ∀ s, exec i s = State.sselOp s v) : runsV i 0xdb v := ⟨_, e, fun _ _ _ => .inl rfl⟩
theorem runsV_of_scan (fp : Bool) (e : ∀ s, exec i s = State.scanOp s op v true fp) : runsV i op v := ⟨_, e, fun _ _ _ => trivial⟩
theorem runsV_of_reduction (fp : Bool) (hd : (shapeOf op).d = .lanesOrScalar) (e : ∀ s, exec i s = State.scanOp s op v false fp) : runsV i op v := by
  refine ⟨_, e, fun s k g => ?_⟩
  by_cases h : isScalar v.d = true
  · simp only [h, if_true, Bool.false_eq_true, if_false]; exact .inr ⟨hd, h⟩
  · simp only [h, if_false, Bool.false_eq_true]; exact trivial

end

theorem runsV_of_vForm {i : Instr} {op : Nat} {v : VArgs} (h : vForm i = some (op, v)) : runsV i op v := by
  cases i
  all_goals cases h
  case iadd | iaddLong | isub | isubLong | imul | imulLong | imulhs | imulhsLong | imulhu | imulhuLong | imad | imadLong | iaddc | iaddcLong
    | iabs | iabsLong | imin | iminLong | imax | imaxLong | iminu | iminuLong | imaxu | imaxuLong | iadds | iaddsLong | and | andLong | or |
    orLong | xor | xorLong | andn | andnLong | shl | shlLong | shr | shrLong | sar | sarLong | rot | rotLong | popc | popcLong | clz | clzLong |
    brev | brevLong | bfx | bfxLong | bfi | bfiLong | fadd | faddLong | fsub | fsubLong | fmul | fmulLong | ffma | ffmaLong | fmin | fminLong |
    fmax | fmaxLong | frcp | frcpLong | frsq | frsqLong | fsqrt | fsqrtLong | fexp2 | fexp2Long | flog2 | flog2Long | fsin | fsinLong | fcos |
    fcosLong | ftanh | ftanhLong | fclass | fclassLong | hadd2 | hadd2Long | hmul2 | hmul2Long | hfma2 | hfma2Long | hmax2 | hmax2Long | hmin2 |
    hmin2Long | qdot4 | qdot4Long | f2i | f2iLong | i2f | i2fLong | f2h | f2hLong | h2f | h2fLong | f2q | f2qLong | q2f | q2fLong | f2n |
    f2nLong | n2f | n2fLong | bscl | bsclLong | frnd | frndLong | mov | movLong | bfn3 => exact runsV_of_laneOp fun _ => rfl
  case icmp | icmpLong | icmpu | icmpuLong | fcmp | fcmpLong | hcmp2 | hcmp2Long | pmov | pmovLong => exact runsV_of_lanePredOp _ rfl fun _ => rfl
  case perm | permLong => exact runsV_of_permOp fun _ => rfl
  case iscan | iscanLong => exact runsV_of_scan false fun _ => rfl
  case fscan | fscanLong => exact runsV_of_scan true fun _ => rfl
  case ired | iredLong => exact runsV_of_reduction false rfl fun _ => rfl
  case fred | fredLong => exact runsV_of_reduction true rfl fun _ => rfl
  case movs | movsLong => exact runsV_of_movsOp fun _ => rfl
  case plog | plogLong => exact runsV_of_plogOp fun _ => rfl
  case sadd | saddLong | ssub | ssubLong | smul | smulLong | sand | sandLong | sor | sorLong | sxor | sxorLong | sshl | sshlLong | sshr |
    sshrLong | smin | sminLong | smax | smaxLong => exact runsV_of_scalarOp rfl fun _ => rfl
  case scmp | scmpLong => exact runsV_of_scmpOp fun _ => rfl
  case sel => exact runsV_of_selOp fun _ => rfl
  case ssel => exact runsV_of_sselOp fun _ => rfl

theorem VArgs.badOperand_of_static {v : VArgs} {op : Nat} {sh : VShape} (h : v.static op sh = none) : sh.d.badOperand v.d = false := by
  unfold VArgs.static at h
  by_contra hb
  rw [Bool.not_eq_false] at hb
  simp only [hb, if_true] at h
  repeat (rw [ite_eq_iff] at h; simp only [reduceCtorEq, and_false, false_or] at h)

theorem Group.static_of_clearV {g : Group} {op : Nat} {v : VArgs} (h : g.clearV op v) : v.static op (shapeOf op) = none := by
  obtain ⟨_, ht, _⟩ := h
  unfold Group.vTrap at ht
  split at ht
  · cases ht
  · assumption

/-- The scalar that a fitting effect writes is the one that D names, where D names no predicate. -/
theorem Group.scalar_applyV {g : Group} {v : VArgs} {op : Nat} {e : VEffect} (hc : g.clearV op v) (he : e.fits (shapeOf op).d v.d) {n : Nat}
    (hn : n + 0x80 = v.d.toNat → ∃ m, (shapeOf op).d = .pred m) : (g.applyV v (shapeOf op) e).1.scalar n = g.scalar n := by
  have hd : (g.applyDead v).sc = g.sc := by rw [Group.applyDead_eq]
  have hb := VArgs.badOperand_of_static (Group.static_of_clearV hc)
  cases e with
  | lanes r fl =>
    show ((g.applyDead v).writeDst v.d v.keep g.exec r).1.sc.get 0#32 n = _
    rw [Group.writeDst_eq]
    exact congrArg (·.get 0#32 n) hd
  | pred b fl =>
    show ((g.applyDead v).setPred (v.d.toNat % 8) b).sc.get 0#32 n = _
    unfold Group.setPred
    split <;> exact congrArg (·.get 0#32 n) hd
  | scalar r fl =>
    cases r with
    | none => exact congrArg (·.get 0#32 n) hd
    | some w =>
      have hs : isScalar v.d = true := by
        rcases he with h | ⟨_, h⟩
        · simpa [h, DPos.badOperand] using hb
        · exact h
      have hne : n ≠ v.d.toNat - 0x80 := by
        intro h
        simp only [isScalar, Bool.and_eq_true, decide_eq_true_eq] at hs
        obtain ⟨m, hm⟩ := hn (by omega)
        rcases he with he | ⟨he, _⟩ <;> rw [he] at hm <;> cases hm
      show ((g.applyDead v).sc.put (v.d.toNat - 0x80) w).get 0#32 n = _
      rw [Tbl.get_put_ne _ _ _ hne]
      exact congrArg (·.get 0#32 n) hd

/-- The predicate that a fitting effect writes is the one that D names. -/
theorem Group.pred_applyV {g : Group} {v : VArgs} {op : Nat} {e : VEffect} (he : e.fits (shapeOf op).d v.d) {f : Nat}
    (hf : f = v.d.toNat % 8 → ∀ m, (shapeOf op).d ≠ .pred m) : (g.applyV v (shapeOf op) e).1.pred f = g.pred f := by
  have hd : (g.applyDead v).pr = g.pr := by rw [Group.applyDead_eq]
  have hp (h : Group) (hh : h.pr = g.pr) : h.pred f = g.pred f := by unfold Group.pred; rw [hh]
  cases e with
  | lanes r fl =>
    refine hp _ ?_
    show ((g.applyDead v).writeDst v.d v.keep g.exec r).1.pr = _
    rw [Group.writeDst_eq]
    exact hd
  | scalar r fl => cases r <;> exact hp _ hd
  | pred b fl =>
    obtain ⟨m, hm⟩ := he
    have hne : f ≠ v.d.toNat % 8 := fun h => hf h m hm
    show ((g.applyDead v).setPred (v.d.toNat % 8) b).pred f = _
    unfold Group.setPred
    split
    · exact hp _ hd
    · show (if f = 0 then _ else ((g.applyDead v).pr.put _ b).get 0#32 f) = _
      rw [Tbl.get_put_ne _ _ _ hne, hd]; rfl

theorem Group.regLane_applyV {g : Group} (hw : g.wellOk) {v : VArgs} {sh : VShape} {e : VEffect} {m l : Nat} (hr : specKind v.d ≠ .reg m)
    (hi : ∀ j l, specKind v.d = .index j → g.exec.getLsbD l = true → g.ixReg j l ≠ m) (hm : ¬ v.marks m) (hl : l < 32) :
    (g.applyV v sh e).1.regLane m l = g.regLane m l := by
  have hd := Group.regLane_applyDead hw hm l
  cases e with
  | lanes r fl =>
    show ((g.applyDead v).writeDst v.d v.keep g.exec r).1.regLane m l = _
    rw [Group.regLane_writeDst (Group.wellOk_applyDead hw v) _ _ _ _ _ hl, Group.useReg_applyDead, if_neg ?_, hd]
    rintro ⟨ha, hu⟩
    unfold Group.useReg useOf at hu
    split at hu
    · next h => exact hr (h.trans (congrArg _ (Option.some.inj hu)))
    · next j h => exact hi j l h ha (Option.some.inj hu)
    · cases hu
  | scalar r fl => cases r <;> exact hd
  | pred b fl =>
    show ((g.applyDead v).setPred (v.d.toNat % 8) b).regLane m l = _
    unfold Group.setPred
    split <;> exact hd

/-- Settles O11: the row is a run of format V, and what its effect and the step change of the group is said by their frames. -/
theorem vectorFrame : Obligations.VectorFrame := by
  intro i op v s k g c hf hi hc hw
  obtain ⟨f, hrun, hfit⟩ := runsV_of_vForm hf
  have hfit := hfit s k g
  refine ⟨_, _, (hrun s).trans (runV_next (f s) hi hc), State.onlyGroup_advance .., State.afterV_group? .., ?frame, ?flags, ?scalars, ?preds, ?regs⟩
  case frame => rw [Group.stepped_eq, Group.applyV_eq]
  case flags =>
    obtain ⟨fl, hfl⟩ := Group.applyV_xout g v (shapeOf op) (f s k g (shapeOf op))
    rw [Group.stepped_xout, hfl]
    exact or_and_self ..
  case scalars => exact fun n hn => (Group.stepped_scalar ..).trans (Group.scalar_applyV hc hfit hn)
  case preds => exact fun p hp => (Group.stepped_pred ..).trans (Group.pred_applyV hfit hp)
  case regs => exact fun m hr hix hm l hl => (Group.stepped_regLane ..).trans (Group.regLane_applyV hw hr hix hm hl)

/-! ## A source outside the window -/

/-- R128 of operands whose first names a register past the window. -/
theorem Group.check128_of_outside {g : Group} {u : RegUse} {us : List RegUse} {n : Nat} (hu : specKind u.spec = .reg n) (hn : g.window < n + u.span) :
    ∃ r, g.check128 (u :: us) = some (trapOf .illOperand r) := by
  refine ⟨auxReg (max n g.window) ((lanesOf g.exec).headD 0), ?_⟩
  simp only [Group.check128, List.findSome?_cons, hu, if_pos hn]

theorem vShape_isSome_of_src {op : Nat} {q : OpKind} (h : (shapeOf op).a = .src q) : vShape op = some (shapeOf op) := by
  unfold shapeOf at h ⊢
  cases hs : vShape op with
  | none => rw [hs] at h; cases h
  | some sh => rfl

theorem VArgs.uses_of_src {v : VArgs} {sh : VShape} {q : OpKind} (h : sh.a = .src q) : ∃ us, v.uses sh = (v.srcA sh).use :: us := by
  simp only [VArgs.uses, h, List.cons_append, List.nil_append]
  exact ⟨_, rfl⟩

theorem Group.vTrap_of_outside {g : Group} {v : VArgs} {op n : Nat} {sh : VShape} {q : OpKind} (hst : v.static op sh = none) (ha : sh.a = .src q)
    (hr : specKind v.a = .reg n) (hn : g.window ≤ n) : ∃ r, g.vTrap v op sh = some (trapOf .illOperand r) := by
  obtain ⟨us, hus⟩ := VArgs.uses_of_src (v := v) ha
  have hw : g.window < n + 1 := by omega
  by_cases hm : op = 0x77
  · obtain ⟨r, h⟩ := Group.check128_of_outside (g := g) (u := { (v.srcA sh).use with read := false })
      (us := us.map fun u => if u.spec = v.a then { u with read := false } else u) hr hw
    refine ⟨r, ?_⟩
    have hmovs : g.movs128 v sh = some (trapOf .illOperand r) := by
      rw [Group.movs128, hus, List.map_cons, if_pos (show (v.srcA sh).use.spec = v.a from rfl), h]
    simp only [Group.vTrap, hst, if_pos hm, hmovs]
  · obtain ⟨r, h⟩ := Group.check128_of_outside (g := g) (u := (v.srcA sh).use) (us := us) hr hw
    exact ⟨r, by simp only [Group.vTrap, hst, hm, if_false, hus, h]⟩

/-- Settles O12: R128 looks at source A first, and a check that fails raises its cause before any effect. -/
theorem registerOutsideWindowTraps : Obligations.RegisterOutsideWindowTraps := by
  rintro i op v s k g c n hf ⟨rfl, hg, hcl⟩ hst hp ⟨q, ha⟩ hr hn
  obtain ⟨f, hrun, _⟩ := runsV_of_vForm hf
  obtain ⟨r, ht⟩ := Group.vTrap_of_outside hst ha hr hn
  refine ⟨r, ?_⟩
  rw [hrun]
  simp [State.runV, State.withIssuer, hg, hcl, vShape_isSome_of_src ha, ht, hp, trapOf]

/-! ## Format VI -/

theorem State.laneImm_of_clear {s : State} {k : GKey} {g : Group} {c : Clause} {f : VIFmt} {reads : Bool} (h : Word → Word) (hi : s.issues k g c)
    (hd : isLaneDst f.d = true) (hp : g.pending { regs := g.useRegs [useOf f.d true 1], scalars := [], preds := [] } = false)
    (hc : g.check128 [useOf f.d reads 1] = none) :
    s.laneImm f reads h =
      (let old (l : Nat) : Word := s.deliver k g { spec := f.d, pat := 0, par := 0, dead := false, kind := .int } l
       let x := g.applyV (vShort { d := f.d, a := 0xe0#8, b := 0xe0#8 }) (lane1 .int) (.lanes (Lanes.ofFn fun l => h (old l)) 0#32)
       .next (s.advance k x.1 c (g.occupancy [useOf f.d reads 1] 0 + x.2.2) x.2.1)) := by
  have hp' : g.pending { regs := g.useRegs [useOf f.d reads 1], scalars := [], preds := [] } = false := hp
  rw [State.laneImm, State.withIssuer_of _ hi]
  simp [hd, hp', hc]

theorem State.scalarImm_of_clear {s : State} {k : GKey} {g : Group} {c : Clause} {f : VIFmt} {n : Nat} (h : Word → Word) (hi : s.issues k g c)
    (hd : f.d.toNat = 0x80 + n) (hn : n < 64) (hp : g.pending { regs := [], scalars := [n], preds := [] } = false) :
    s.scalarImm f h = .next (s.advance k (g.setScalar n (h (g.scalar n))) c 1 none) := by
  rw [State.scalarImm, State.withIssuer_of _ hi]
  simp [isScalar_of_toNat hd hn, hd, hp]

/-- Settles O13: the lane form and the scalar form of format VI with each row's function. -/
theorem immediateFormResults : Obligations.ImmediateFormResults := by
  refine ⟨fun f s k g c hi hd => ?_, fun f s k g c n hi hd hn hp => ⟨?_, ?_⟩⟩
  · intro old after hp
    exact ⟨fun hc => ⟨State.laneImm_of_clear (fun d => d + f.imm.signExtend 32) hi hd hp hc, State.laneImm_of_clear (highImm f.imm) hi hd hp hc⟩,
      fun hc => State.laneImm_of_clear (fun _ => f.imm.signExtend 32) hi hd hp hc⟩
  · exact State.scalarImm_of_clear (fun _ => f.imm.signExtend 32) hi hd hn hp
  · exact State.scalarImm_of_clear (highImm f.imm) hi hd hn hp

end Sys2Proof.Machine
end

section
/-! SUPPORT. Calls, reconvergence and exits of a group that issues (R106 to R110, R329, R331). -/

namespace Sys2Proof.Machine

section
variable {s : State} {k : GKey} {g : Group} {c : Clause}

theorem exec_call (f : CFmt) (s : State) : exec (.call f) s = s.callOp f := rfl
theorem exec_callr (f : GFmt) (s : State) : exec (.callr f) s = s.callrOp f := rfl
theorem exec_ret (s : State) : exec .ret s = s.retOp := rfl
theorem exec_div (f : CFmt) (s : State) : exec (.div f) s = s.divOp f := rfl
theorem exec_join (s : State) : exec .join s = s.joinOp := rfl
theorem exec_exit (s : State) : exec .exit s = s.exitOp := rfl

theorem State.enter_same {old : Group} {sel : BitVec 16} {ofs : BitVec 48} {occ : Nat} {guard : Bool} (h : sel = (g.segReg 15).sel) :
    s.enter k old g sel ofs occ guard = s.jump k g ofs occ := by
  rw [State.enter, if_pos h]

/-! ## Calls -/

theorem Group.scalar_saveReturn_60 (g : Group) (c : Clause) : (g.saveReturn c).scalar 60 = c.next.extractLsb' 0 32 := by
  simp only [Group.saveReturn, Group.setScalar, Group.scalar]
  rw [Tbl.get_put_ne _ _ _ (by decide), Tbl.get_put_self]

theorem Group.scalar_saveReturn_61 (g : Group) (c : Clause) : (g.saveReturn c).scalar 61 =
    (c.next.extractLsb' 32 16).setWidth 32 ||| ((g.segReg 15).sel.setWidth 32 <<< 16) := by
  simp only [Group.saveReturn, Group.setScalar, Group.scalar]
  exact Tbl.get_put_self ..

theorem low_half_or_shift (x y : BitVec 16) : (x.setWidth 32 ||| (y.setWidth 32 <<< 16)).extractLsb' 0 16 = x := by
  ext i hi
  simp [hi]; intros; omega

theorem high_half_or_shift (x y : BitVec 16) : (x.setWidth 32 ||| (y.setWidth 32 <<< 16)).extractLsb' 16 16 = y := by
  ext i hi
  simp [hi, show 16 + i < 32 by omega]

theorem State.callOp_of_fields {f : CFmt} (hi : s.issues k g c) (hp : g.pending (touchScalars [60, 61]) = false) (hn : f.neg = 0#1)
    (hg : f.gp = 0#3) : s.callOp f = .next (s.jump k (g.saveReturn c) (c.target g.pos f) 1) := by
  rw [State.callOp, State.withIssuer_of _ hi]
  simp [hp, hn, hg]

theorem State.retOp_of_same_segment (hi : s.issues k g c) (hp : g.pending (touchScalars [60, 61]) = false) (hf : g.fieldP c = 0#24)
    (hq : (g.scalar 61).extractLsb' 16 16 = (g.segReg 15).sel) (hnull : (g.segReg 15).sel ≠ 0#16)
    (halign : (g.scalar 60).extractLsb' 0 2 = 0#2) :
    s.retOp = .next (s.jump k g ((g.scalar 61).extractLsb' 0 16 ++ g.scalar 60) 1) := by
  have ho : ((g.scalar 61).extractLsb' 0 16 ++ g.scalar 60).extractLsb' 0 2 = 0#2 := by
    rw [BitVec.extractLsb'_append_eq_of_add_le (by decide), halign]
  rw [State.retOp, State.withIssuer_of _ hi]
  simp only [hp, hf, hq, hnull, bne_self_eq_false, Bool.false_and, if_false, Bool.false_eq_true]
  rw [ho, State.enter_same rfl]
  simp

/-- Settles O15: the saved pair reads back as the return place, and each call goes where R329 says. -/
theorem callsSaveAndReturn : Obligations.CallsSaveAndReturn := by
  refine ⟨?call, ?callr, ?ret, ?saved⟩
  case call =>
    intro f s k g c hi hp hn hg
    rw [exec_call, State.callOp_of_fields hi hp hn hg, Clause.target_eq]
  case callr =>
    intro f s k g c bs s1 r n s2 hi hp hs hg hacq hhold hread hbound hsel hload hkind hsup
    have hpriv : (r.s && !g.supervisor) = false := by
      cases hr : r.s
      · rfl
      · simp [hsup hr]
    rw [exec_callr, State.callrOp, State.withIssuer_of _ hi]
    simp [hp, hs, hg, hacq, hhold, hread, hbound, hsel, hload, hkind, hpriv]
  case ret => exact fun s k g c hi hp hf hq hnull halign => (exec_ret s).trans (State.retOp_of_same_segment hi hp hf hq hnull halign)
  case saved =>
    intro g c
    rw [Group.scalar_saveReturn_61]
    exact ⟨g.scalar_saveReturn_60 c, low_half_or_shift .., high_half_or_shift ..⟩

/-! ## Divergence -/

theorem State.divOp_of_room {f : CFmt} (hi : s.issues k g c) (hn : f.neg = 0#1) (hg : f.gp = 0#3) (hl : g.stack.length < 16)
    (ht : g.stack.length + g.spilled < 80) :
    s.divOp f = .next (s.advance k { g with
      stack := { pc := c.target g.pos f, sel := (g.segReg 15).sel, m := g.exec, h := g.hand, split := false,
                 ppc := 0#48, psel := 0#16, pmask := 0#32 } :: g.stack } c 1 none) := by
  rw [State.divOp, State.withIssuer_of _ hi]
  simp [hn, hg, hl, Nat.not_le.mpr ht]

theorem State.joinStep_of_pending {tm : Option Team} {e : Recon} {rest : List Recon} (hst : g.stack = e :: rest) (hs : e.split = true)
    (hm : e.pmask ≠ 0#32) : s.joinStep tm g = some
      { g := { g with exec := e.pmask &&& g.population, hand := e.h, stack := { e with pmask := 0#32 } :: rest }, pc := e.ppc,
        sel := e.psel, clk := 0 } := by
  simp [State.joinStep, hst, hs, hm]

theorem State.joinStep_of_whole {tm : Option Team} {e : Recon} {rest : List Recon} (hst : g.stack = e :: rest)
    (hs : e.split = false ∨ e.pmask = 0#32) (hsp : g.spilled = 0) : s.joinStep tm g = some
      { g := { g with exec := e.m &&& g.population, hand := e.h, stack := rest }, pc := e.pc, sel := e.sel, clk := 0 } := by
  have hw : (e.split && e.pmask != 0#32) = false := by rcases hs with h | h <;> simp [h]
  simp [State.joinStep, hst, hw, hsp]

theorem Group.spillFits_zero (g : Group) (t : Team) : g.spillFits t 0 = true := rfl

/-- JOIN goes on as its step says where no spilled entry is wanted. -/
theorem State.joinOp_of_step {j : JoinOut} (hi : s.issues k g c) (hf : g.fieldP c = 0#24)
    (hfit : ∀ t, s.team? g.team = some t → (g.spillFits t g.spilled = true ∨ ∃ e rest, g.stack = e :: rest ∧ e.split = true ∧ e.pmask ≠ 0#32))
    (hj : s.joinStep (s.team? g.team) g = some j) (hsel : j.sel = (j.g.segReg 15).sel) :
    s.joinOp = .next (s.jump k j.g j.pc (1 + j.clk)) := by
  rw [State.joinOp, State.withIssuer_of _ hi]
  have hno : ((match s.team? g.team with | some t => !g.spillFits t g.spilled | none => false) && decide (g.stack.length = 16)
      && !(match g.stack with | e :: _ => e.split && e.pmask != 0#32 | [] => false)) = false := by
    cases ht : s.team? g.team with
    | none => rfl
    | some t =>
      rcases hfit t ht with h | ⟨e, rest, hst, hsplit, hm⟩
      · simp [h]
      · simp [hst, hsplit, hm]
  simp only [hf, bne_self_eq_false, Bool.false_eq_true, if_false, hj]
  rw [if_neg, State.enter_same hsel]
  rw [Bool.not_eq_true]
  exact hno

/-- Settles O16: DIV's push, JOIN's two ways and its refusal. -/
theorem divergenceAndReconvergence : Obligations.DivergenceAndReconvergence := by
  refine ⟨?push, ?pending, ?pop, ?empty⟩
  case push =>
    intro f s k g c hi hn hg hl ht
    rw [exec_div, State.divOp_of_room hi hn hg hl ht, Clause.target_eq]
  case pending =>
    intro s k g c e rest hi hf hst hs hm hsel
    exact (exec_join s).trans (State.joinOp_of_step hi hf (fun _ _ => .inr ⟨e, rest, hst, hs, hm⟩) (State.joinStep_of_pending hst hs hm) hsel)
  case pop =>
    intro s k g c e rest hi hf hst hs hsp hsel
    exact (exec_join s).trans
      (State.joinOp_of_step hi hf (fun _ _ => .inl (by rw [hsp, Group.spillFits_zero])) (State.joinStep_of_whole hst hs hsp) hsel)
  case empty =>
    intro s k g c hi hf hst
    rw [exec_join, State.joinOp, State.withIssuer_of _ hi]
    simp [hf, hst, State.joinStep]

/-! ## Exit -/

/-- Whether the lanes `p` appear in an OR over a stack. -/
theorem foldl_recon_and_eq_zero (l : List Recon) (a p : Word) :
    (l.foldl (fun (w : Word) e => w ||| e.m ||| e.pmask) a) &&& p = 0#32 ↔ a &&& p = 0#32 ∧ ∀ e ∈ l, (e.m ||| e.pmask) &&& p = 0#32 := by
  induction l generalizing a with
  | nil => simp
  | cons e r ih =>
    simp only [List.foldl_cons, ih, List.forall_mem_cons, BitVec.and_or_distrib_right, BitVec.or_eq_zero_iff]
    tauto

/-- The lanes that stay in the stack once those of EXEC have left (R109). -/
def Group.lanesLeft (g : Group) : Word := (g.stack.map fun e => e.without g.exec).foldl (fun (w : Word) e => w ||| e.m ||| e.pmask) 0#32

theorem Group.lanesLeft_and_population_eq_zero (g : Group) :
    g.lanesLeft &&& g.population = 0#32 ↔ ∀ e ∈ g.stack, (e.m ||| e.pmask) &&& ~~~g.exec &&& g.population = 0#32 := by
  rw [Group.lanesLeft, foldl_recon_and_eq_zero]
  simp [Recon.without, BitVec.and_or_distrib_right]

theorem State.exitOp_of_no_spill {tm : Team} (hi : s.issues k g c) (hf : g.fieldP c = 0#24) (ht : g.task = none) (hsp : g.spilled = 0)
    (htm : s.team? g.team = some tm) : s.exitOp = .next (
      if g.lanesLeft &&& g.population = 0#32 then s.exitGroup k g
      else match s.joinRepeat (some tm) 200 { g with exec := 0#32, stack := g.stack.map fun e => e.without g.exec } with
        | some j =>
          if j.sel = (g.segReg 15).sel then s.jump k j.g j.pc (1 + j.clk)
          else if s.selHolds k g (s.whoOf k g) j.sel then s.hold k g
          else match s.loadSeg (s.whoOf k g) g j.sel with
            | (.error f, s2) => s2.tableFault k g f (s.descLin (s.whoOf k g) j.sel.toNat)
            | (.ok _, _) => s.enter k g j.g j.sel j.pc (1 + j.clk) false
        | none => s.exitGroup k g) := by
  rw [State.exitOp, State.withIssuer_of _ hi]
  simp only [hf, bne_self_eq_false, Bool.false_eq_true, if_false, ht, State.exitLanes, htm, hsp, Group.spillFits_zero, Bool.not_true,
    State.exitSpilled]
  rfl

/-- Settles O17: what stays of the stack decides between the end of the group and the entry that goes on. -/
theorem exitEndsLanes : Obligations.ExitEndsLanes := by
  refine ⟨?ends, ?goesOn, ?task⟩
  case ends =>
    intro s k g c tm hi hf ht hsp htm hall
    rw [exec_exit, State.exitOp_of_no_spill hi hf ht hsp htm, if_pos (g.lanesLeft_and_population_eq_zero.mpr hall)]
  case goesOn =>
    intro s k g c tm e rest hi hf ht hsp htm hst hs hm hsel
    have hleft : ¬ g.lanesLeft &&& g.population = 0#32 := by
      rw [Group.lanesLeft_and_population_eq_zero]
      intro h
      have := h e (by simp [hst])
      simp only [BitVec.and_or_distrib_right, BitVec.or_eq_zero_iff] at this
      exact hm this.1
    have hstep : s.joinStep (some tm) { g with exec := 0#32, stack := g.stack.map fun e => e.without g.exec } = some
        { g := { g with exec := e.m &&& ~~~g.exec &&& g.population, hand := e.h, stack := rest.map (Recon.without · g.exec) }, pc := e.pc,
          sel := e.sel, clk := 0 } :=
      State.joinStep_of_whole (e := e.without g.exec) (rest := rest.map (Recon.without · g.exec)) (by simp [hst]) (.inl hs) hsp
    rw [exec_exit, State.exitOp_of_no_spill hi hf ht hsp htm, if_neg hleft]
    simp [State.joinRepeat, hstep, hm, hsel]
  case task =>
    intro s k g c t hi hf ht
    rw [exec_exit, State.exitOp, State.withIssuer_of _ hi]
    simp [hf, ht]

/-! ## Instructions that raise -/

theorem exec_trap (s : State) : exec .trap s = s.trapOp := rfl
theorem exec_brk (s : State) : exec .brk s = s.brkOp := rfl
theorem exec_rtt (s : State) : exec .rtt s = s.rttOp := rfl
theorem exec_bind (f : GFmt) (s : State) : exec (.bind f) s = s.bindInstr f := rfl
theorem exec_unbind (f : GFmt) (s : State) : exec (.unbind f) s = s.unbindInstr f := rfl
theorem exec_csrr (f : VIFmt) (s : State) : exec (.csrr f) s = s.csrrOp f := rfl
theorem exec_csrw (f : VIFmt) (s : State) : exec (.csrw f) s = s.csrwOp f := rfl

/-- A code in the low bits of a word is the word where the bits above it are 0. -/
theorem setWidth_extractLsb'_of_lt {w n m : Nat} (p : BitVec w) (h : p.toNat < 2 ^ n) (hn : n ≤ m) :
    (p.extractLsb' 0 n).setWidth m = p.setWidth m := by
  apply BitVec.eq_of_toNat_eq
  have hm : p.toNat < 2 ^ m := Nat.lt_of_lt_of_le h (Nat.pow_le_pow_right (by decide) hn)
  simp [Nat.mod_eq_of_lt h, Nat.mod_eq_of_lt hm]

theorem State.trapOp_of_code (hi : s.issues k g c) (hp : (g.fieldP c).toNat < 256) :
    s.trapOp = .next (s.raise k g (trapOf .trapi ((g.fieldP c).setWidth 32))) := by
  rw [State.trapOp, State.withIssuer_of _ hi]
  simp only [(extractLsb'_eq_zero_iff_lt (g.fieldP c) (i := 8) (n := 16) rfl).mpr hp, bne_self_eq_false, Bool.false_eq_true, if_false,
    setWidth_extractLsb'_of_lt (g.fieldP c) (n := 8) (m := 32) hp (by decide)]

theorem State.brkOp_of_code (hi : s.issues k g c) (hp : (g.fieldP c).toNat < 65536) :
    s.brkOp = .next (s.raise k g (trapOf .brk ((g.fieldP c).setWidth 32))) := by
  rw [State.brkOp, State.withIssuer_of _ hi]
  simp only [(extractLsb'_eq_zero_iff_lt (g.fieldP c) (i := 16) (n := 8) rfl).mpr hp, bne_self_eq_false, Bool.false_eq_true, if_false,
    setWidth_extractLsb'_of_lt (g.fieldP c) (n := 16) (m := 32) hp (by decide)]

theorem csrSupervisor_of_range {n : Nat} (hl : 0x100 ≤ n) (hu : n < 0x200) : csrSupervisor n = true := by
  simp [csrSupervisor, hl, hu]

/-- Settles O19: each instruction's first checks. -/
theorem raisingInstructionsTrap : Obligations.RaisingInstructionsTrap := by
  refine ⟨fun s k g c hi => ⟨State.trapOp_of_code hi, State.brkOp_of_code hi⟩, fun s k g c hi => ⟨?rtt, ?binds, ?csrs⟩⟩
  case rtt =>
    intro hp
    rw [exec_rtt, State.rttOp, State.withIssuer_of _ hi]
    simp [hp]
  case binds =>
    intro f hp hn
    rw [exec_bind, exec_unbind, State.bindInstr, State.unbindInstr, State.withIssuer_of _ hi, State.withIssuer_of _ hi]
    simp [hp, hn]
  case csrs =>
    intro f hs hl hu hn
    rw [exec_csrr, exec_csrw, State.csrrOp, State.csrwOp, State.withIssuer_of _ hi, State.withIssuer_of _ hi]
    simp [hs, csrSupervisor_of_range hl hu, touchScalars, hn]

end

end Sys2Proof.Machine
end

section
/-! SUPPORT. Words of each format, and the state after reset (R258, R265, R20, R144). -/

namespace Sys2Proof.Machine

/-- Settles O56: every word is decoded in turn. -/
theorem wordsDecode : Obligations.WordsDecode := by
  unfold Obligations.WordsDecode
  refine ⟨?_, ?_, ?_, ?_, ?_, ?_, ?_, ?_, ?_, ?_, ?_, ?_, ?_, ?_, ?_, ?_, ?_, ?_, ?_, ?_⟩
  all_goals rfl

/-- Settles O59: the state at power-on is written out, and every table of it is empty. -/
theorem resetLeaves : Obligations.ResetLeaves :=
  ⟨fun _ => ⟨rfl, rfl, rfl⟩, fun _ _ => ⟨rfl, rfl, rfl, rfl, rfl, rfl⟩, fun _ => rfl, fun _ => rfl, fun _ => rfl, rfl⟩

end Sys2Proof.Machine
end

section
/-! SUPPORT. Taking an exception and returning from one (R257, R269, R334). -/

namespace Sys2Proof.Machine

/-! ## The trap frame -/

@[simp] theorem length_leBytes (n v : Nat) : (leBytes n v).length = n := by
  induction n generalizing v with
  | zero => rfl
  | succ n ih => simp [leBytes, ih]

@[simp] theorem take_leBytes_self (n v : Nat) : (leBytes n v).take n = leBytes n v := List.take_of_length_le (by simp)

@[simp] theorem drop_leBytes_of_le {n m : Nat} (v : Nat) (h : n ≤ m) : (leBytes n v).drop m = [] := List.drop_of_length_le (by simp [h])

theorem ofNat_byte_add (a : Nat) {m : Nat} (h : m % 256 = 0) : BitVec.ofNat 8 (a + m) = BitVec.ofNat 8 a := by
  apply BitVec.eq_of_toNat_eq
  simp only [BitVec.toNat_ofNat]
  omega

theorem ofNat_byte_add_if (a : Nat) {p : Prop} [Decidable p] {m : Nat} (h : m % 256 = 0) :
    BitVec.ofNat 8 (a + if p then m else 0) = BitVec.ofNat 8 a := by
  apply ofNat_byte_add
  split
  · exact h
  · rfl

section
variable (g : Group) (x : Trap) (pos : Nat) (kind : ResumeKind) (dfr : Bool)

theorem frameHead_pc : (frameHead g x pos kind dfr).take 6 = leBytes 6
    (if pos = 15 then (g.clause.map (·.ofs)).getD g.pc else (g.clause.map (·.ofsAt pos)).getD g.pc).toNat := by
  simp [frameHead]

theorem frameHead_selector : ((frameHead g x pos kind dfr).drop 6).take 2 = leBytes 2 (g.segReg 15).sel.toNat := by
  simp [frameHead]

theorem frameHead_cause : ((frameHead g x pos kind dfr).drop 8).take 1 = [BitVec.ofNat 8 x.cause.ec] := by
  simp [frameHead, leBytes, ofNat_byte_add, ofNat_byte_add_if]

theorem frameHead_aux : ((frameHead g x pos kind dfr).drop 0x2c).take 4 = leBytes 4 x.aux.toNat := by
  simp [frameHead, List.drop_append]

end

/-! ## Entry -/

theorem Group.regLane_flushWell {g : Group} (h : g.wellOk) (n : Nat) {l : Nat} (hl : l < 32) : g.flushWell.1.regLane n l = g.regLane n l := by
  rw [Group.flushWell_fst]
  exact Group.regLane_writeBackWhere h _ n hl

/-- The group in its handler: the place it left recorded, its well written back, and PC at TRAPV (R257). -/
def Group.inHandler (g : Group) (x : Trap) (pos : Nat) (kind : ResumeKind) : Group :=
  { g.flushWell.1 with
    handler := some { sel := (g.segReg 15).sel, ofs := (g.clause.map (·.ofs)).getD g.pc, pos := pos, clause := g.clause, kind := kind,
                      sup := (g.segReg 15).s, half := g.half, cause := x.cause, frame := g.tframe, found := none },
    pc := BitVec.ofNat 48 g.trapv.toNat, clause := none, pos := 0, n0 := none, n1 := none, half := .fresh, acted := 0#32 }

/-- The state with the trap frame written (R269). -/
def State.withFrame (s : State) (g : Group) (tm : Team) (x : Trap) (pos : Nat) (kind : ResumeKind) (dfr : Bool) : State :=
  (s.writeScratch tm g.tframe.toNat (frameHead g x pos kind dfr)).writeScratch tm (g.tframe.toNat + 0x100) (nibBytes g.n0 ++ nibBytes g.n1)

theorem State.withFrame_eq (s : State) (g : Group) (tm : Team) (x : Trap) (pos : Nat) (kind : ResumeKind) (dfr : Bool) :
    s.withFrame g tm x pos kind dfr = s.setMem (s.withFrame g tm x pos kind dfr).mem := by
  unfold State.withFrame
  generalize frameHead g x pos kind dfr = head
  generalize nibBytes g.n0 ++ nibBytes g.n1 = nibs
  rw [State.writeScratch_eq s, State.writeScratch_eq (s.setMem _)]
  rfl

theorem State.busy_putGroup_setMem_eq (s : State) (m : List Host.Cell) (k : GKey) (g : Group) (n : Nat) :
    ((s.setMem m).putGroup k g).busy k n =
      { s with groups := (((s.setMem m).putGroup k g).busy k n).groups, cores := (((s.setMem m).putGroup k g).busy k n).cores,
               mem := (((s.setMem m).putGroup k g).busy k n).mem } := rfl

section
variable {s : State} {k : GKey} {g : Group} {x : Trap} {tm : Team} {pos : Nat} {kind : ResumeKind} {dfr : Bool}

theorem State.trapEnter_of_handler (ht : s.team? g.team = some tm) (hn : g.noHandler tm = false) :
    s.trapEnter k g x pos kind dfr =
      ((s.withFrame g tm x pos kind dfr).putGroup k (g.inHandler x pos kind)).busy k (g.flushWell.2 + 64) := by
  unfold State.trapEnter
  rw [ht]
  dsimp only
  rw [if_neg (by simp [hn])]
  rfl

theorem State.trapEnter_of_noHandler (ht : s.team? g.team = some tm) (hn : g.noHandler tm = true) :
    s.trapEnter k g x pos kind dfr = s.killGroup k g := by
  simp [State.trapEnter, ht, hn]

theorem State.raise_of_not_speculative (h : ∀ t, g.task = some t → t.spec = false) : s.raise k g x = s.trapEnter k g x g.pos .instr false := by
  unfold State.raise State.raiseAt
  split
  next t ht => simp [h t ht]
  · rfl

theorem State.raise_of_speculative {t : Task} (ht : g.task = some t) (hs : t.spec = true) :
    s.raise k g x = s.leavePen k g (.parked (.deferred x g.pos .instr false)) := by
  simp [State.raise, State.raiseAt, ht, hs]

theorem Group.noHandler_iff : g.noHandler tm = true ↔ g.trapv = 0xffffffff#32 ∨ g.handler ≠ none ∨ tm.scratchLimit < g.tframe.toNat + 512 := by
  simp [Group.noHandler, Option.isSome_iff_ne_none, or_assoc]

end

/-- Settles O20: the group enters its handler, and the frame is the only memory that entry writes. -/
theorem trapEntersHandler : Obligations.TrapEntersHandler := by
  intro s k g c x tm hc hspec htm htv hh hlim
  have hn : g.noHandler tm = false := by
    rw [← Bool.not_eq_true, Group.noHandler_iff]
    simp [htv, hh, Nat.not_lt.mpr hlim]
  rw [State.raise_of_not_speculative hspec, State.trapEnter_of_handler htm hn]
  refine ⟨_, g.inHandler x g.pos .instr, rfl, State.putGroup_group?_self .., BitVec.ofNat_toNat .., rfl, rfl, rfl, rfl, ?record, rfl, rfl, rfl,
    rfl, rfl, rfl, rfl, fun hw n l hl => Group.regLane_flushWell hw n hl, ?frame, ?pc, frameHead_selector .., frameHead_cause ..,
    frameHead_aux .., by simp [State.withFrame]⟩
  case record => simp [Group.inHandler, hc]
  case frame =>
    rw [State.withFrame_eq]
    exact State.busy_putGroup_setMem_eq ..
  case pc => rw [frameHead_pc]; simp [hc]

/-- Settles O21: without a handler the group is killed; a speculative task parks with its cause. -/
theorem trapWithoutEntry : Obligations.TrapWithoutEntry := by
  refine ⟨fun s k g x tm hspec htm hno => ?killed, fun s k g x t ht hs => ?deferred⟩
  case killed => rw [State.raise_of_not_speculative hspec, State.trapEnter_of_noHandler htm (Group.noHandler_iff.mpr hno)]
  case deferred =>
    rw [State.raise_of_speculative ht hs]
    exact ⟨_, State.leavePen_group? .., rfl, State.leavePen_mem .., rfl, rfl, rfl, rfl⟩

/-! ## Return -/

/-- The group out of its handler, before its place is set: the recorded privilege is in force again (R334). -/
def Group.leaveHandler (g : Group) (h : Handler) (seg : SegReg) (skip : Bool) : Group :=
  { g.flushWell.1 with handler := none, exec := h.found.getD g.exec, seg := g.seg.put 15 { seg with s := h.sup }, n0 := none, n1 := none,
                       half := if skip then .fresh else h.half }

/-- The group at a clause's boundary. -/
def Group.atBoundary (g : Group) (pc : BitVec 48) : Group := { g with clause := none, pos := 0, pc := pc }

/-- The place where a group resumes, by what the entry recorded (R257, R334). -/
def Group.resume (g : Group) (h : Handler) (nibs : List Byte) (skip : Bool) : Group :=
  match h.kind with
  | .instr =>
    match h.clause with
    | some c =>
      if headerCnt c.hdr ≤ (if skip then h.pos + 1 else h.pos) then g.atBoundary c.next
      else { g with clause := some c, pos := if skip then h.pos + 1 else h.pos, pc := c.ofs, n0 := some (lanesOfBytes nibs),
                    n1 := some (lanesOfBytes (nibs.drop 128)) }
    | none => g.atBoundary h.ofs
  | .decode => g.atBoundary (if skip then (match h.clause with | some c => c.next | none => h.ofs + 4) else h.ofs)
  | .word => g.atBoundary (if skip then h.ofs + 4 else h.ofs)
  | .boundary => g.atBoundary h.ofs
  | .headerWait =>
    if skip then { g.atBoundary h.ofs with clause := h.clause.map fun c => { c with begun := false, skipWait := true } } else g.atBoundary h.ofs

/-- Resuming changes the group's place and nibs only. -/
theorem Group.resume_eq (g : Group) (h : Handler) (nibs : List Byte) (skip : Bool) :
    g.resume h nibs skip = { g with clause := (g.resume h nibs skip).clause, pos := (g.resume h nibs skip).pos, pc := (g.resume h nibs skip).pc,
                                    n0 := (g.resume h nibs skip).n0, n1 := (g.resume h nibs skip).n1 } := by
  unfold Group.resume
  split
  · split
    next cl _ =>
      by_cases hp : headerCnt cl.hdr ≤ (if skip then h.pos + 1 else h.pos)
      · simp only [if_pos hp]
        rfl
      · simp only [if_neg hp]
    · rfl
  · rfl
  · rfl
  · rfl
  · split <;> rfl

section
variable {g : Group} {h : Handler} {nibs : List Byte} {skip : Bool} {cl : Clause}

theorem Group.resume_at_instruction {p : Nat} (hk : h.kind = .instr) (hc : h.clause = some cl) (hp : (if skip then h.pos + 1 else h.pos) = p)
    (hlt : p < headerCnt cl.hdr) :
    g.resume h nibs skip = { g with clause := some cl, pos := p, pc := cl.ofs, n0 := some (lanesOfBytes nibs),
                                    n1 := some (lanesOfBytes (nibs.drop 128)) } := by
  simp only [Group.resume, hk, hc, hp, if_neg (Nat.not_le.mpr hlt)]

theorem Group.resume_past_last (hk : h.kind = .instr) (hc : h.clause = some cl) (hp : headerCnt cl.hdr = h.pos + 1) :
    g.resume h nibs true = g.atBoundary cl.next := by
  simp [Group.resume, hk, hc, hp]

theorem Group.resume_retry (hk : h.kind ≠ .instr) : g.resume h nibs false = g.atBoundary h.ofs := by
  cases h' : h.kind <;> simp_all [Group.resume]

theorem Group.resume_boundary (hk : h.kind = .boundary) : g.resume h nibs skip = g.atBoundary h.ofs := by
  simp only [Group.resume, hk]

theorem Group.resume_skip_undecoded (hk : h.kind = .decode) (hc : h.clause = some cl) : g.resume h nibs true = g.atBoundary cl.next := by
  simp [Group.resume, hk, hc]

theorem Group.resume_skip_word (hk : h.kind = .word) : g.resume h nibs true = g.atBoundary (h.ofs + 4) := by
  simp [Group.resume, hk]

end

section
variable {s : State} {k : GKey} {g : Group} {c : Clause} {h : Handler} {tm : Team}

theorem State.trapReturn_eq (s : State) (k : GKey) (g : Group) (h : Handler) (tm : Team) (seg : SegReg) (skip : Bool) :
    s.trapReturn k g h tm seg skip =
      (s.putGroup k ((g.leaveHandler h seg skip).resume h (s.readScratch tm (h.frame.toNat + 0x100) 256) skip)).busy k (g.flushWell.2 + 32) := rfl

theorem State.rttOp_of_handler (hi : s.issues k g c) (hp : g.privileged = true) (hf : (g.fieldP c).toNat < 2) (hh : g.handler = some h)
    (ht : s.team? g.team = some tm) (hsel : h.sel = (g.segReg 15).sel) :
    s.rttOp = .next (s.trapReturn k g h tm (g.segReg 15) ((g.fieldP c).getLsbD 0)) := by
  have hz : (g.fieldP c).extractLsb' 1 23 = 0#23 := by
    apply BitVec.eq_of_toNat_eq
    rw [toNat_extractLsb'_eq_div_mod]
    simp
    omega
  rw [State.rttOp, State.withIssuer_of _ hi]
  simp [hp, hz, hh, ht, hsel]

end

/-- Settles O22: the group leaves its handler and stands where the record says. -/
theorem trapReturnRestores : Obligations.TrapReturnRestores := by
  intro s k g c hd tm cl hi hp hf hh ht hsel hcl
  rw [exec_rtt, State.rttOp_of_handler hi hp hf hh ht hsel, State.trapReturn_eq]
  generalize hskip : (g.fieldP c).getLsbD 0 = skip
  have hretry : g.fieldP c = 0#24 → skip = false := fun h0 => by simp [← hskip, h0]
  have hpass : g.fieldP c = 1#24 → skip = true := fun h1 => by simp [← hskip, h1]
  refine ⟨_, _, rfl, State.putGroup_group?_self .., ?_⟩
  refine ⟨?handler, ?sup, ?exec, ?sc, ?pr, fun hw n l hl => ?regs, fun n hn => ?segments, rfl, fun hk h0 hlt => ?retry, fun hk h1 hlt => ?next,
    fun hk h1 hlast => ?last, fun hk h0 => ?other, fun hk => ?boundary, fun hk h1 => ?decode, fun hk h1 => ?word⟩
  case handler => rw [Group.resume_eq]; rfl
  case sup => rw [Group.resume_eq]; simp [Group.segReg, Group.leaveHandler]
  case exec => rw [Group.resume_eq]; rfl
  case sc => rw [Group.resume_eq]; rfl
  case pr => rw [Group.resume_eq]; rfl
  case regs => rw [Group.resume_eq]; exact Group.regLane_flushWell hw n hl
  case segments => rw [Group.resume_eq]; exact Tbl.get_put_ne _ _ _ hn
  case retry =>
    rw [Group.resume_at_instruction hk hcl (by simp [hretry h0]) hlt]
    exact ⟨rfl, rfl, rfl, rfl⟩
  case next =>
    rw [Group.resume_at_instruction hk hcl (by simp [hpass h1]) hlt]
    exact ⟨rfl, rfl⟩
  case last =>
    rw [hpass h1, Group.resume_past_last hk hcl hlast]
    exact ⟨rfl, rfl⟩
  case other =>
    rw [hretry h0, Group.resume_retry hk]
    exact ⟨rfl, rfl⟩
  case boundary =>
    rw [Group.resume_boundary hk]
    exact ⟨rfl, rfl⟩
  case decode =>
    rw [hpass h1, Group.resume_skip_undecoded hk hcl]
    exact ⟨rfl, rfl⟩
  case word =>
    rw [hpass h1, Group.resume_skip_word hk]
    exact ⟨rfl, rfl⟩

end Sys2Proof.Machine
end

section
/-! SUPPORT. Barriers, path waits and the special registers (R113, R335 to R340, R352 to R356). -/

namespace Sys2Proof.Machine

/-! ## Association lists -/

@[simp] theorem assocGet_assocPut_self {κ α : Type} [DecidableEq κ] (l : List (κ × α)) (k : κ) (v : α) : assocGet (assocPut l k v) k = some v := by
  induction l with
  | nil => simp [assocPut, assocGet]
  | cons e r ih =>
    unfold assocPut
    split
    · simp [assocGet]
    next h => simp [assocGet, h, ih]

theorem assocGet_assocPut_ne {κ α : Type} [DecidableEq κ] (l : List (κ × α)) {k j : κ} (v : α) (h : j ≠ k) :
    assocGet (assocPut l k v) j = assocGet l j := by
  induction l with
  | nil => simp [assocPut, assocGet, h.symm]
  | cons e r ih =>
    unfold assocPut
    split
    next he => simp [assocGet, he, h.symm]
    · simp [assocGet, ih]

/-- What no step of a fold changes, the fold does not change. -/
theorem foldl_keeps {σ β α : Type} (p : σ → α) {f : σ → β → σ} (h : ∀ t b, p (f t b) = p t) (l : List β) (s : σ) : p (l.foldl f s) = p s := by
  induction l generalizing s with
  | nil => rfl
  | cons b r ih => rw [List.foldl_cons, ih, h]

/-! ## A phase that completes -/

@[simp] theorem State.makeReady_barriers (s : State) (k : GKey) (n : Nat) : (s.makeReady k n).barriers = s.barriers := by
  unfold State.makeReady State.updGroup
  split <;> rfl

@[simp] theorem State.makeReady_mem (s : State) (k : GKey) (n : Nat) : (s.makeReady k n).mem = s.mem := by
  unfold State.makeReady State.updGroup
  split <;> rfl

@[simp] theorem State.barrier_putBarrier_self (s : State) (b : BarKey) (x : Barrier) : (s.putBarrier b x).barrier b = x := by
  simp [State.barrier, State.putBarrier]

theorem State.barrier_putBarrier_ne (s : State) {b j : BarKey} (x : Barrier) (h : j ≠ b) : (s.putBarrier b x).barrier j = s.barrier j := by
  simp [State.barrier, State.putBarrier, assocGet_assocPut_ne _ _ h]

theorem State.phaseDone_iff (s : State) (b : BarKey) : s.phaseDone b = true ↔
    s.members b ≠ [] ∧ (∀ k ∈ s.members b, k ∈ (s.barrier b).arrived) ∧ (s.barrier b).e.toNat ≤ (s.barrier b).b.toNat
      ∧ ∀ l n i, b = .grid l n i → s.unplaced l n = false := by
  unfold State.phaseDone
  cases b <;> simp [BitVec.ule] <;> tauto

/-- The state in which the phase of a barrier has ended (R113), its members not yet woken. -/
def State.nextPhase (s : State) (b : BarKey) : State :=
  s.putBarrier b { phase := (s.barrier b).phase + 1, arrived := [], e := 0#32, b := 0#32,
                   late := if BitVec.ult (s.barrier b).e (s.barrier b).b then (s.barrier b).phase :: (s.barrier b).late else (s.barrier b).late }

/-- Waking the members moves groups only. -/
theorem State.tryPhase_barriers_mem {s : State} {b : BarKey} (h : s.phaseDone b = true) :
    (s.tryPhase b).barriers = (s.nextPhase b).barriers ∧ (s.tryPhase b).mem = s.mem := by
  unfold State.tryPhase
  rw [if_pos h]
  refine ⟨foldl_keeps State.barriers (fun t k => ?_) .., foldl_keeps State.mem (fun t k => ?_) ..⟩
  · split
    · split <;> simp
    · rfl
  · split
    · split <;> simp
    · rfl

theorem State.barrier_congr {s t : State} (h : t.barriers = s.barriers) (b : BarKey) : t.barrier b = s.barrier b := by simp [State.barrier, h]

/-- Settles O24: a phase that is done is replaced by the next, and one that is not stays. -/
theorem barrierPhaseCompletes : Obligations.BarrierPhaseCompletes := by
  intro s b
  dsimp only
  rw [← State.phaseDone_iff]
  refine ⟨fun hdone => ?complete, fun hnot => if_neg hnot⟩
  case complete =>
    obtain ⟨hbar, hmem⟩ := State.tryPhase_barriers_mem hdone
    refine ⟨?_, fun x hx => ?_, hmem⟩
    · rw [State.barrier_congr hbar, State.nextPhase, State.barrier_putBarrier_self]
      simp [BitVec.ult, BitVec.lt_def]
    · rw [State.barrier_congr hbar, State.nextPhase, State.barrier_putBarrier_ne _ _ hx]

/-! ## The barrier instructions -/

theorem exec_bara (f : BFmt) (s : State) : exec (.bara f) s = s.baraOp f := rfl
theorem exec_barw (f : BFmt) (s : State) : exec (.barw f) s = s.barwOp f := rfl
theorem exec_bar (f : BFmt) (s : State) : exec (.bar f) s = s.barOp f := rfl
theorem exec_barexp (f : BFmt) (s : State) : exec (.barexp f) s = s.barexpOp f := rfl
theorem exec_waitp (f : BFmt) (s : State) : exec (.waitp f) s = s.waitpOp f := rfl
theorem exec_sethand (f : VIFmt) (s : State) : exec (.sethand f) s = s.sethandOp f := rfl

section
variable {s : State} {k : GKey} {g : Group} {c : Clause}

theorem State.barChecked_of_fields {f : BFmt} (operand : Bool) {tm : Team} {b : BarKey} (hn : f.n.toNat < 64)
    (hb : bselOk (f.n.extractLsb' 0 6) = true) (ho : match operand with | true => isScalarOrImm f.s = true | false => f.s = 0#8) (ht : g.task = none)
    (htm : s.team? g.team = some tm) (hres : f.n.toNat / 16 = 3 → tm.krec.gres = true) (hbar : tm.barrier g.team (f.n.extractLsb' 0 6) = some b)
    (go : Team → BarKey → BitVec 6 → State) : s.barChecked k g f operand go = go tm b (f.n.extractLsb' 0 6) := by
  have hz : f.n.extractLsb' 6 10 = 0#10 := (extractLsb'_eq_zero_iff_lt f.n rfl).mpr hn
  have hgrid : ¬ ((f.n.extractLsb' 0 6).extractLsb' 4 2 = 3#2 ∧ (!tm.krec.gres) = true) := by
    rintro ⟨h3, hg⟩
    have h16 : f.n.toNat / 16 = 3 := by
      have := congrArg BitVec.toNat h3
      simp only [toNat_extractLsb'_eq_div_mod] at this
      simp at this
      omega
    simp [hres h16] at hg
  unfold State.barChecked
  cases operand <;> simp_all

theorem State.arriveOp_of_released {b : BarKey} (sel : BitVec 6) (go : State → Group → State) (hr : g.released = true)
    (ha : (s.barrier b).arrived.contains k = false) :
    s.arriveOp k g b sel go = go (s.post s.clk (.barrierArrive b (.arrive k g.team))) { g with irrev := true } := by
  unfold State.arriveOp
  rw [if_neg (by simp [hr]), if_neg (by rw [ha]; decide)]

theorem State.barWaitOp_of_met {b : BarKey} (sel : BitVec 6) (h : s.barWait g b = .met) :
    s.barWaitOp k g c b sel = s.advance k (g.acquire s.clk (barScope b)) c 1 none := by
  rw [State.barWaitOp, h]

theorem State.barWaitOp_of_wait {b : BarKey} (sel : BitVec 6) {p : Nat} (h : s.barWait g b = .wait p) :
    s.barWaitOp k g c b sel = s.desched k g (.barrier b p) := by
  rw [State.barWaitOp, h]

theorem State.waitpOp_of_operand {f : BFmt} (hi : s.issues k g c) (hn : f.n.toNat < 4) (hs : isScalarOrImm f.s = true)
    (hp : g.pending (touchScalars (useScalars [useOf f.s true 1])) = false) :
    s.waitpOp f = .next (
      if 255 ≤ (g.uniform f.s).toNat ∨ g.path f.n.toNat ≤ (g.uniform f.s).toNat then s.advance k g c 1 none
      else if headerCnt c.hdr ≤ g.pos + 1 then s.desched k g (.path f.n.toNat (g.uniform f.s).toNat) else s.hold k g) := by
  have hz : f.n.extractLsb' 2 14 = 0#14 := (extractLsb'_eq_zero_iff_lt f.n rfl).mpr hn
  have hp2 : (f.n.extractLsb' 0 2).toNat = f.n.toNat := by
    rw [toNat_extractLsb'_eq_div_mod]
    omega
  rw [State.waitpOp, State.withIssuer_of _ hi]
  simp only [hp, hz, hs, hp2, bne_self_eq_false, Bool.not_true, Bool.false_eq_true, if_false]

end

/-- Settles O23: past the checks of the fields, each instruction is its arrival or its wait. -/
theorem barrierAndPathWaits : Obligations.BarrierAndPathWaits := by
  refine ⟨fun f s k g c tm b hi hn hb ht htm hres hbar => ⟨fun hs hr ha => ⟨?bara, fun hfresh => ?bar⟩, fun hs hmet => ⟨?barw, fun hsent => ?barMet⟩,
    fun hs p hwait => ?barwWaits, fun hs hp => ?barexp⟩, fun f s k g c hi hn hs hp => ?waitp⟩
  case bara =>
    rw [exec_bara, State.baraOp, State.withIssuer_of _ hi, State.barChecked_of_fields false hn hb hs ht htm hres hbar, State.arriveOp_of_released _ _ hr ha]
  case bar =>
    rw [exec_bar, State.barOp, State.withIssuer_of _ hi, State.barChecked_of_fields false hn hb hs ht htm hres hbar, if_pos hfresh,
      State.arriveOp_of_released _ _ hr ha]
  case barw =>
    rw [exec_barw, State.barwOp, State.withIssuer_of _ hi, State.barChecked_of_fields false hn hb hs ht htm hres hbar, State.barWaitOp_of_met _ hmet]
  case barMet =>
    rw [exec_bar, State.barOp, State.withIssuer_of _ hi, State.barChecked_of_fields false hn hb hs ht htm hres hbar, if_neg hsent,
      State.barWaitOp_of_met _ hmet]
  case barwWaits =>
    rw [exec_barw, State.barwOp, State.withIssuer_of _ hi, State.barChecked_of_fields false hn hb hs ht htm hres hbar, State.barWaitOp_of_wait _ hwait]
  case barexp =>
    rw [exec_barexp, State.barexpOp, State.withIssuer_of _ hi, if_neg (by simp [hp]), State.barChecked_of_fields true hn hb hs ht htm hres hbar]
  case waitp =>
    rw [exec_waitp, State.waitpOp_of_operand hi hn hs hp]
    refine ⟨fun hmet => by rw [if_pos hmet], fun hlt hpath hlast => ?_, fun hlt hpath hmore => ?_⟩
    · rw [if_neg (by omega), if_pos hlast]
    · rw [if_neg (by omega), if_neg (by omega)]

/-! ## The special registers -/

theorem Group.pending_of_subset {g : Group} {l m : List Nat} (h : l ⊆ m) (hp : g.pending (touchScalars m) = false) :
    g.pending (touchScalars l) = false := by
  simp only [Group.pending, touchScalars, List.any_eq_false] at hp ⊢
  intro p hmem hon
  apply hp p hmem
  split at hon
  · exact hon
  next n _ => simp_all [h (List.contains_iff_mem.mp hon)]
  · exact hon

section
variable {s : State} {k : GKey} {g : Group} {c : Clause} {f : VIFmt}

theorem csr_address_of_lt (h : f.imm.toNat < 4096) : (f.imm.extractLsb' 0 12).toNat = f.imm.toNat ∧ f.imm.extractLsb' 12 4 = 0#4 := by
  refine ⟨?_, (extractLsb'_eq_zero_iff_lt f.imm rfl).mpr h⟩
  rw [toNat_extractLsb'_eq_div_mod]
  omega

theorem csrSupervisor_allowed {a : Nat} (h : 0x100 ≤ a → a < 0x200 → g.supervisor = true) : (csrSupervisor a && !g.supervisor) = false := by
  by_cases hr : 0x100 ≤ a ∧ a < 0x200
  · simp [h hr.1 hr.2]
  · simp [csrSupervisor]
    omega

/-- CSRR past its checks. -/
theorem State.csrrOp_of_register {n w : Nat} {b : Bool} (hi : s.issues k g c) (hd : f.d.toNat = 0x80 + n) (hn : n < 64) (ha : f.imm.toNat < 4096)
    (hsup : 0x100 ≤ f.imm.toNat → f.imm.toNat < 0x200 → g.supervisor = true) (hp : g.pending (touchScalars [n, n + 1]) = false)
    (hset : f.imm.toNat = 2 → g.settled = true) (hinfo : csrInfo f.imm.toNat = some (w, b)) (hw : w = 32 ∨ w = 64) :
    s.csrrOp f = .next (
      if w = 32 then s.advance k (g.setScalar n (BitVec.ofNat 32 (s.csrRead k g f.imm.toNat))) c 1 none
      else if n % 2 = 1 then s.raise k g (trapOf .illOperand (auxSpec g f.d))
      else s.advance k ((g.setScalar n (BitVec.ofNat 32 (s.csrRead k g f.imm.toNat))).setScalar (n + 1)
        (BitVec.ofNat 32 (s.csrRead k g f.imm.toNat / 4294967296))) c 1 none) := by
  obtain ⟨haddr, hhigh⟩ := csr_address_of_lt ha
  have hone : g.pending (touchScalars [n]) = false := Group.pending_of_subset (by simp) hp
  have hsettled : ¬ (decide (f.imm.toNat = 2) && !g.settled) = true := by
    by_cases h2 : f.imm.toNat = 2
    · simp [hset h2]
    · simp [h2]
  rw [State.csrrOp, State.withIssuer_of _ hi]
  rcases hw with rfl | rfl
  all_goals simp only [haddr, hhigh, hinfo, hd, Nat.add_sub_cancel_left, isScalar_of_toNat hd hn, csrSupervisor_allowed hsup, if_neg hsettled,
    hone, hp, bne_self_eq_false, Bool.not_true, Bool.false_eq_true, if_false, if_true]

/-- CSRW past its checks. -/
theorem State.csrwOp_of_address (hi : s.issues k g c) (hs : isScalarOrImm f.d = true) (hp : g.pending (touchScalars (useScalars [useOf f.d true 1])) = false)
    (ha : f.imm.toNat < 4096) (hsup : 0x100 ≤ f.imm.toNat → f.imm.toNat < 0x200 → g.supervisor = true) :
    s.csrwOp f = .next (match csrInfo f.imm.toNat with
      | some (_, true) =>
        if csrBad f.imm.toNat (g.uniform f.d) then s.raise k g (trapOf .illOperand (auxSpec g 0#8))
        else if f.imm.toNat = 0x100 then (s.putTenq k.die (s.ctxOf g.team) (g.uniform f.d)).advance k g c 1 none
        else s.advance k (g.csrPut f.imm.toNat (g.uniform f.d)) c 1 none
      | _ => s.raise k g (trapOf .illOperand (auxSpec g 0#8))) := by
  obtain ⟨haddr, hhigh⟩ := csr_address_of_lt ha
  rw [State.csrwOp, State.withIssuer_of _ hi]
  simp only [haddr, hhigh, hp, hs, csrSupervisor_allowed hsup, bne_self_eq_false, Bool.not_true, Bool.false_eq_true, if_false] <;> rfl

theorem State.csrwOp_of_writable {a w : Nat} (hi : s.issues k g c) (hs : isScalarOrImm f.d = true)
    (hp : g.pending (touchScalars (useScalars [useOf f.d true 1])) = false) (ha : f.imm.toNat = a) (hlt : a < 0x100)
    (hinfo : csrInfo a = some (w, true)) (hok : csrBad a (g.uniform f.d) = false) :
    s.csrwOp f = .next (s.advance k (g.csrPut a (g.uniform f.d)) c 1 none) := by
  subst ha
  rw [State.csrwOp_of_address hi hs hp (by omega) (by omega), hinfo]
  simp only [hok, Bool.false_eq_true, if_false, if_neg (Nat.ne_of_lt hlt)]

theorem State.csrwOp_of_refused (hi : s.issues k g c) (hs : isScalarOrImm f.d = true) (hp : g.pending (touchScalars (useScalars [useOf f.d true 1])) = false)
    (ha : f.imm.toNat < 4096) (hsup : 0x100 ≤ f.imm.toNat → f.imm.toNat < 0x200 → g.supervisor = true)
    (hno : (∀ w, csrInfo f.imm.toNat ≠ some (w, true)) ∨ csrBad f.imm.toNat (g.uniform f.d) = true) :
    s.csrwOp f = .next (s.raise k g (trapOf .illOperand (auxSpec g 0#8))) := by
  rw [State.csrwOp_of_address hi hs hp ha hsup]
  split
  next w hinfo =>
    obtain hro | hbad := hno
    · exact absurd hinfo (hro w)
    · rw [if_pos hbad]
  · rfl

end

/-! ### The values that a register takes (R355) -/

theorem bits_eq_zero_iff (v : Word) (i n : Nat) : bits v i n = 0 ↔ v.toNat / 2 ^ i % 2 ^ n = 0 := by
  rw [← BitVec.toNat_inj, bits, toNat_extractLsb'_eq_div_mod]
  rfl

theorem csrBad_hand {v : Word} (h : v.toNat < 65536) : csrBad 0x001 v = false := by
  have hz : bits v 16 16 = 0 := (bits_eq_zero_iff ..).mpr (by omega)
  simp [csrBad, hz]

theorem csrBad_trapv {v : Word} (h : v = 0xffffffff#32 ∨ v.toNat % 4 = 0) : csrBad 0x010 v = false := by
  rcases h with rfl | h
  · rfl
  · have hz : bits v 0 2 = 0 := (bits_eq_zero_iff ..).mpr (by omega)
    simp [csrBad, hz]

theorem csrBad_tframe {v : Word} (h : v.toNat % 64 = 0) : csrBad 0x011 v = false := by
  have hz : bits v 0 6 = 0 := (bits_eq_zero_iff ..).mpr (by omega)
  simp [csrBad, hz]

theorem csr_indexWindow (g : Group) (v : Word) {j : Nat} (hj : j < 4) : csrInfo (0x020 + j) = some (32, true) ∧ csrBad (0x020 + j) v = ixwBad v
    ∧ g.csrPut (0x020 + j) v = { g with ixw := g.ixw.put j v } := by
  interval_cases j <;> exact ⟨rfl, rfl, rfl⟩

theorem csr_indexRegister (g : Group) (v : Word) {j : Nat} (hj : j < 4) : csrInfo (0x028 + j) = some (32, true) ∧ csrBad (0x028 + j) v = false
    ∧ g.csrPut (0x028 + j) v = { g with ix := g.ix.put j (ixlLanes v) } := by
  interval_cases j <;> exact ⟨rfl, rfl, rfl⟩


/-- Settles O25: each address by the lemma of its check, read or write. -/
theorem specialRegisterAccess : Obligations.SpecialRegisterAccess := by
  refine ⟨⟨fun f s k g c n w hi hd hn ha hsup hp hset => ⟨fun h32 => ?narrow, fun h64 heven => ?wide⟩, fun f s k g c hi hs hp => ?writes,
    fun f s k g c hi hd => ?sethand⟩, fun f s k g c hi hs ha hsup hp hno => ?refused⟩
  case narrow => rw [exec_csrr, State.csrrOp_of_register hi hd hn ha hsup hp hset h32 (.inl rfl), if_pos rfl]
  case wide =>
    rw [exec_csrr, State.csrrOp_of_register hi hd hn ha hsup hp hset h64 (.inr rfl), if_neg (by decide), if_neg (by omega)]
    rfl
  case sethand =>
    rw [exec_sethand, State.sethandOp, State.withIssuer_of _ hi, if_neg (by simp [hd])]
  case refused => rw [exec_csrw, State.csrwOp_of_refused hi hs hp ha hsup hno]
  case writes =>
    refine ⟨fun h => ?exec, fun h hv => ?hand, fun h => ?xout, fun h hv => ?trapv, fun h hv => ?tframe, fun j hj h hv => ?window, fun j hj h => ?index,
      fun h hsup => ?tenq⟩
    all_goals rw [exec_csrw]
    case exec => exact State.csrwOp_of_writable (a := 0x000) hi hs hp (by rw [h]; rfl) (by decide) rfl rfl
    case hand => exact State.csrwOp_of_writable (a := 0x001) hi hs hp (by rw [h]; rfl) (by decide) rfl (csrBad_hand hv)
    case xout => exact State.csrwOp_of_writable (a := 0x002) hi hs hp (by rw [h]; rfl) (by decide) rfl rfl
    case trapv => exact State.csrwOp_of_writable (a := 0x010) hi hs hp (by rw [h]; rfl) (by decide) rfl (csrBad_trapv hv)
    case tframe => exact State.csrwOp_of_writable (a := 0x011) hi hs hp (by rw [h]; rfl) (by decide) rfl (csrBad_tframe hv)
    case window =>
      obtain ⟨hinfo, hbad, hput⟩ := csr_indexWindow g (g.uniform f.d) hj
      rw [State.csrwOp_of_writable hi hs hp h (by omega) hinfo (hbad.trans hv), hput]
    case index =>
      obtain ⟨hinfo, hbad, hput⟩ := csr_indexRegister g (g.uniform f.d) hj
      rw [State.csrwOp_of_writable hi hs hp h (by omega) hinfo hbad, hput]
    case tenq =>
      rw [State.csrwOp_of_address hi hs hp (by rw [h]; decide) fun _ _ => hsup, h]
      rfl

end Sys2Proof.Machine
end

section
namespace Sys2Proof.Machine

/-! ## Memory's canonical form (O60)

`writeByte` is the only function that changes memory, and it keeps the form. Each function of the model that answers a state has one lemma here,
in the order of the model: `…_mem` where it leaves memory as it is, `wf_…` where it may write. -/

theorem foldl_wf {β : Type} {f : State → β → State} (hf : ∀ p : State × β, Memory.wf p.1.mem = true → Memory.wf (f p.1 p.2).mem = true)
    (l : List β) {s : State}
    (hm : Memory.wf s.mem = true) : Memory.wf (l.foldl f s).mem = true := by
  induction l generalizing s with
  | nil => exact hm
  | cons b r ih => exact ih (hf (s, b) hm)

theorem foldl_mem {β : Type} {f : State → β → State} (hf : ∀ p : State × β, (f p.1 p.2).mem = p.1.mem) (l : List β) (s : State) :
    (l.foldl f s).mem = s.mem := foldl_keeps State.mem (fun t b => hf (t, b)) l s

/-- A fold that carries a value beside the state. -/
theorem foldl_snd_wf {α β : Type} {f : α × State → β → α × State}
    (hf : ∀ p b, Memory.wf p.2.mem = true → Memory.wf (f p b).2.mem = true) (l : List β) {p : α × State}
    (hm : Memory.wf p.2.mem = true) : Memory.wf (l.foldl f p).2.mem = true := by
  induction l generalizing p with
  | nil => exact hm
  | cons b r ih => exact ih (hf p b hm)

/-- What is known of the state of a pair holds of it under its own name. -/
theorem mem_of_snd {α : Type} {p : α × State} {a : α} {t : State} {m : List Host.Cell} (h : p = (a, t)) (hp : p.2.mem = m) : t.mem = m := by
  rw [h] at hp
  exact hp

/-- A state that an act maps keeps what the map keeps. -/
theorem wf_of_map {x : Except EvFault State} {f : State → State} {y : State} (h : x.map f = .ok y)
    (hf : ∀ t, Memory.wf t.mem = true → Memory.wf (f t).mem = true) (hx : ∀ t, x = .ok t → Memory.wf t.mem = true) : Memory.wf y.mem = true := by
  cases x with
  | error e => exact nomatch h
  | ok t => exact Except.ok.inj h ▸ hf t (hx t rfl)

theorem wf_getD {o : Option State} {t : State} (ho : ∀ y, o = some y → Memory.wf y.mem = true) (ht : Memory.wf t.mem = true) :
    Memory.wf (o.getD t).mem = true := by
  cases o with
  | none => exact ht
  | some y => exact ho y rfl

@[simp] theorem State.updGroup_mem (s : State) (k : GKey) (f : Group → Group) : (State.updGroup s k f).mem = s.mem := by
  unfold State.updGroup
  (repeat' split) <;> simp

@[simp] theorem State.updTeam_mem (s : State) (t : Nat) (f : Team → Team) : (State.updTeam s t f).mem = s.mem := by
  unfold State.updTeam
  (repeat' split) <;> simp

@[simp] theorem State.updSaved_mem (s : State) (k : GKey) (f : Group → Group) : (State.updSaved s k f).mem = s.mem := by
  unfold State.updSaved
  simp

@[simp] theorem State.putAny_mem (s : State) (k : GKey) (g : Group) : (State.putAny s k g).mem = s.mem := by
  unfold State.putAny
  (repeat' split) <;> simp

@[simp] theorem State.within_mem (s : State) (base limit : Nat) (e : Event) : (State.within s base limit e).mem = s.mem := by
  unfold State.within
  grind [State.setFreeCtr_mem, State.post_mem]

@[simp] theorem State.newId_mem (s : State) : (State.newId s).2.mem = s.mem := by
  unfold State.newId
  simp

@[simp] theorem State.desched_mem (s : State) (k : GKey) (g : Group) (w : Wait) : (State.desched s k g w).mem = s.mem := by
  unfold State.desched
  grind [State.leavePen_mem]

@[simp] theorem State.tryPhase_mem (s : State) (b : BarKey) : (State.tryPhase s b).mem = s.mem := by
  unfold State.tryPhase
  grind [State.makeReady_mem, State.putBarrier_mem, foldl_mem]

@[simp] theorem State.leaveBarriers_mem (s : State) (k : GKey) (g : Group) : (State.leaveBarriers s k g).mem = s.mem := by
  unfold State.leaveBarriers
  grind [State.setBarriers_mem, State.tryPhase_mem, foldl_mem]

@[simp] theorem State.wf_forgetWait (s : State) (t : Team) (g : Group) (hm : Memory.wf s.mem = true) : Memory.wf
    (State.forgetWait s t g).mem = true := by
  unfold State.forgetWait
  (repeat' split) <;> simp [hm]

@[simp] theorem State.wf_dieClears (s : State) (die : Nat) (hm : Memory.wf s.mem = true) : Memory.wf (State.dieClears s die).mem = true := by
  unfold State.dieClears
  grind [State.post_mem]

@[simp] theorem State.wf_exitGroup (s : State) (k : GKey) (g : Group) (hm : Memory.wf s.mem = true) : Memory.wf
    (State.exitGroup s k g).mem = true := by
  unfold State.exitGroup
  grind [State.dropGroup_mem, State.updTeam_mem, State.putPen_mem, State.post_mem, State.leaveBarriers_mem, State.wf_forgetWait, State.wf_dieClears]

@[simp] theorem State.failDomain_mem (s : State) (part ctx : Nat) : (State.failDomain s part ctx).mem = s.mem := by
  unfold State.failDomain
  (repeat' split) <;> simp

@[simp] theorem State.keepDraft_mem (s : State) (part ctx die : Nat) (t : Task) : (State.keepDraft s part ctx die t).mem = s.mem := by
  unfold State.keepDraft
  (repeat' split) <;> simp

@[simp] theorem State.wf_killGroup (s : State) (k : GKey) (g : Group) (hm : Memory.wf s.mem = true) : Memory.wf
    (State.killGroup s k g).mem = true := by
  unfold State.killGroup
  grind [State.updTeam_mem, State.post_mem, State.wf_exitGroup, State.failDomain_mem, State.keepDraft_mem]

@[simp] theorem State.wf_trapEnter (s : State) (k : GKey) (g : Group) (t : Trap) (pos : Nat) (kind : ResumeKind) (dfr : Bool)
    (hm : Memory.wf s.mem = true) : Memory.wf (State.trapEnter s k g t pos kind dfr).mem = true := by
  unfold State.trapEnter
  grind [State.putGroup_mem, State.busy_mem, State.wf_writeScratch, State.wf_killGroup]

@[simp] theorem State.wf_trapReturn (s : State) (k : GKey) (g : Group) (h : Handler) (tm : Team) (seg : SegReg) (skip : Bool)
    (hm : Memory.wf s.mem = true) : Memory.wf (State.trapReturn s k g h tm seg skip).mem = true := by
  unfold State.trapReturn
  grind [State.putGroup_mem, State.busy_mem]

@[simp] theorem State.wf_raiseAt (s : State) (k : GKey) (g : Group) (t : Trap) (pos : Nat) (kind : ResumeKind) (hm : Memory.wf s.mem = true)
    : Memory.wf (State.raiseAt s k g t pos kind).mem = true := by
  unfold State.raiseAt
  grind [State.leavePen_mem, State.wf_trapEnter]

@[simp] theorem State.wf_raise (s : State) (k : GKey) (g : Group) (t : Trap) (hm : Memory.wf s.mem = true) : Memory.wf
    (State.raise s k g t).mem = true := by
  unfold State.raise
  simp [hm]

@[simp] theorem State.putWall_mem (s : State) (l : Nat) (w : Firewall) : (State.putWall s l w).mem = s.mem := by
  unfold State.putWall
  simp

@[simp] theorem State.putPort_mem (s : State) (p : Nat) (x : Port) : (State.putPort s p x).mem = s.mem := by
  unfold State.putPort
  simp

@[simp] theorem State.fillTlb_mem (s : State) (w : Who) (lin : Nat) (l : Leaf) : (State.fillTlb s w lin l).mem = s.mem := by
  unfold State.fillTlb
  simp

@[simp] theorem State.keepNested_mem (s : State) (die ctx : Nat) (fresh : Bool) (gpa : Nat) :
    (State.keepNested s die ctx fresh gpa).mem = s.mem := by
  unfold State.keepNested
  (repeat' split) <;> simp

@[simp] theorem State.fillNested_mem (s : State) (w : Who) (walked fresh : Bool) (lin : Nat) (l : Leaf) :
    (State.fillNested s w walked fresh lin l).mem = s.mem := by
  unfold State.fillNested
  grind [State.setFreeCtr_mem, State.keepNested_mem, foldl_mem]

@[simp] theorem State.walkFor_mem (s : State) (w : Who) (lin : Nat) (need : Need) : (State.walkFor s w lin need).2.mem = s.mem := by
  unfold State.walkFor
  (repeat' split) <;> simp

@[simp] theorem State.translate_mem (s : State) (w : Who) (lin : Nat) (need : Need) : (State.translate s w lin need).2.mem = s.mem := by
  unfold State.translate
  grind [State.setFreeCtr_mem, State.fillNested_mem, State.walkFor_mem]

@[simp] theorem State.translateRange_mem (s : State) (w : Who) (need : Need) (n lin len : Nat) :
    (s.translateRange w need n lin len).2.mem = s.mem := by
  induction n generalizing s lin len with
  | zero => rfl
  | succ n ih =>
    rw [State.translateRange]
    grind [State.translate_mem]

@[simp] theorem State.readLin_mem (s : State) (w : Who) (lin n : Nat) : (State.readLin s w lin n).2.mem = s.mem := by
  unfold State.readLin
  grind [State.translateRange_mem]

@[simp] theorem State.loadSeg_mem (s : State) (w : Who) (g : Group) (sel : BitVec 16) : (s.loadSeg w g sel).2.mem = s.mem := by
  unfold State.loadSeg
  split
  · rfl
  · split
    · rfl
    · split
      next h => exact mem_of_snd h (State.readLin_mem ..)
      next h =>
        have hread := mem_of_snd h (State.readLin_mem ..)
        exact hread

@[simp] theorem State.reachSeg_mem (s : State) (w : Who) (t : Option Team) (r : SegReg) (need : Need) (o len : Nat) :
    (State.reachSeg s w t r need o len).2.mem = s.mem := by
  unfold State.reachSeg
  grind [State.translateRange_mem]

@[simp] theorem State.putQueue_mem (s : State) (q : Nat) (x : Queue) : (State.putQueue s q x).mem = s.mem := by
  unfold State.putQueue
  simp

@[simp] theorem State.putPart_mem (s : State) (p : Nat) (x : Part) : (State.putPart s p x).mem = s.mem := by
  unfold State.putPart
  simp

@[simp] theorem State.putGreg_mem (s : State) (fn : Nat) (x : GReg) : (State.putGreg s fn x).mem = s.mem := by
  unfold State.putGreg
  simp

@[simp] theorem State.wf_statusSoon (s : State) (q : Nat) (hm : Memory.wf s.mem = true) : Memory.wf (State.statusSoon s q).mem = true := by
  unfold State.statusSoon
  (repeat' split) <;> simp [hm]

@[simp] theorem State.wf_recordErrFrom (code : Byte) (n l : Nat) (s : State) (hm : Memory.wf s.mem = true) :
    Memory.wf (State.recordErrFrom code n l s).mem = true := by
  induction n generalizing code l s with
  | zero => exact hm
  | succ n ih =>
    rw [State.recordErrFrom]
    grind [State.setHost_mem, State.wf_statusSoon, State.putQueue_mem]

@[simp] theorem State.wf_recordErr (s : State) (l : Nat) (code : Byte) (hm : Memory.wf s.mem = true) : Memory.wf
    (State.recordErr s l code).mem = true := by
  unfold State.recordErr
  simp [hm]

@[simp] theorem State.regClear_mem (s : State) (fn : Nat) (r : Reg) : (State.regClear s fn r).mem = s.mem := by
  unfold State.regClear
  (repeat' split) <;> simp

@[simp] theorem State.postAll_mem (s : State) (es : List Event) : (State.postAll s es).mem = s.mem := by
  unfold State.postAll
  grind [State.post_mem, foldl_mem]

@[simp] theorem ctxRegWrite_wf (s : State) (d c off : Nat) (v : BitVec 64) (hm : Memory.wf s.mem = true) : Memory.wf
    (ctxRegWrite s d c off v).mem = true := by
  unfold ctxRegWrite
  grind [State.updCtx_mem, State.post_mem, State.postAll_mem]

@[simp] theorem State.regate_mem (s : State) (d : Nat) : (State.regate s d).mem = s.mem := by
  unfold State.regate
  grind [State.setAgenda_mem, State.post_mem, foldl_mem]

@[simp] theorem State.postOpt_mem (s : State) (e : Option Event) : (State.postOpt s e).mem = s.mem := by
  unfold State.postOpt
  grind [State.post_mem]

theorem State.wf_writeHyper (s : State) (die ctx : Nat) (r : FaultRec) {y : State} (he : State.writeHyper s die ctx r = some y)
    (hm : Memory.wf s.mem = true) : Memory.wf y.mem = true := by
  unfold State.writeHyper at he
  grind [State.wf_writeBytes, State.updDie_mem, State.send_mem]

@[simp] theorem State.wf_drainHyper (s : State) (die : Nat) (rs : List (Nat × FaultRec)) (hm : Memory.wf s.mem = true) :
    Memory.wf (s.drainHyper die rs).mem = true := by
  induction rs generalizing s with
  | nil => exact hm
  | cons r rest ih =>
    rw [State.drainHyper]
    grind [State.wf_writeHyper, State.updDie_mem]

@[simp] theorem State.wf_regPut (s : State) (fn : Nat) (by_ : Option Nat) (r : Reg) (v : BitVec 64) (hm : Memory.wf s.mem = true) : Memory.wf
    (State.regPut s fn by_ r v).mem = true := by
  unfold State.regPut
  (repeat' split) <;> simp [hm]

@[simp] theorem State.regReadClear_mem (s : State) (fn bar off width : Nat) : (State.regReadClear s fn bar off width).mem = s.mem := by
  unfold State.regReadClear
  (repeat' split) <;> simp

@[simp] theorem State.wf_regWrite (s : State) (fn bar off width : Nat) (v : BitVec 64) (by_ : Option Nat) (hm : Memory.wf s.mem = true)
    : Memory.wf (State.regWrite s fn bar off width v by_).mem = true := by
  unfold State.regWrite
  (repeat' split) <;> simp [hm]

@[simp] theorem State.wf_registerWrite (s : State) (fn bar off width : Nat) (v : BitVec 64) (hm : Memory.wf s.mem = true) : Memory.wf
    (State.registerWrite s fn bar off width v).mem = true := by
  unfold State.registerWrite
  simp [hm]

@[simp] theorem State.wf_registerAtomic (s : State) (fn bar off width : Nat) (op : HostAtomic) (v : BitVec 64) (hm : Memory.wf s.mem = true)
    : Memory.wf (State.registerAtomic s fn bar off width op v).mem = true := by
  unfold State.registerAtomic
  grind [State.send_mem, State.regReadClear_mem, State.wf_registerWrite]

@[simp] theorem State.setRun_mem (s : State) (die : Nat) (r : Option Nat) : (State.setRun s die r).mem = s.mem := by
  unfold State.setRun
  (repeat' split) <;> simp

@[simp] theorem State.putDomain_mem (s : State) (part ctx : Nat) (d : Domain) : (State.putDomain s part ctx d).mem = s.mem := by
  unfold State.putDomain
  simp

@[simp] theorem State.updDomain_mem (s : State) (part ctx : Nat) (f : Domain → Domain) : (State.updDomain s part ctx f).mem = s.mem := by
  unfold State.updDomain
  (repeat' split) <;> simp

@[simp] theorem State.wf_freeSlot (s : State) (part ctx : Nat) (k : GKey) (g : Group) (hm : Memory.wf s.mem = true) : Memory.wf
    (State.freeSlot s part ctx k g).mem = true := by
  unfold State.freeSlot
  grind [State.setAccess_mem, State.putGroup_mem, State.putPen_mem, State.post_mem]

@[simp] theorem State.wf_abortOne (s : State) (part ctx id : Nat) (requeue : Bool) (hm : Memory.wf s.mem = true) : Memory.wf
    (State.abortOne s part ctx id requeue).mem = true := by
  unfold State.abortOne
  grind [State.post_mem, State.updDomain_mem, State.wf_freeSlot]

@[simp] theorem State.dropChildren_mem (s : State) (part ctx id : Nat) : (State.dropChildren s part ctx id).mem = s.mem := by
  unfold State.dropChildren
  simp

@[simp] theorem State.wf_abortTask (part ctx n : Nat) (s : State) (id : Nat) (requeue : Bool) (hm : Memory.wf s.mem = true) :
    Memory.wf (State.abortTask part ctx n s id requeue).mem = true := by
  induction n generalizing s id requeue with
  | zero => exact hm
  | succ n ih =>
    rw [State.abortTask]
    exact foldl_wf (fun p hp => ih p.1 p.2 false hp) _ (by simp [hm])

@[simp] theorem State.wf_abort (s : State) (part ctx id : Nat) (requeue : Bool) (hm : Memory.wf s.mem = true) : Memory.wf
    (State.abort s part ctx id requeue).mem = true := by
  unfold State.abort
  simp [hm]

@[simp] theorem State.wf_hitReaders (s : State) (part ctx : Nat) (me : Option Task) (ps : List Place) (hm : Memory.wf s.mem = true) : Memory.wf
    (State.hitReaders s part ctx me ps).mem = true := by
  unfold State.hitReaders
  grind [State.wf_abort, foldl_wf, foldl_mem]

@[simp] theorem State.wf_setQueueByte (s : State) (d o : Nat) (b : Byte) (hm : Memory.wf s.mem = true) : Memory.wf
    (State.setQueueByte s d o b).mem = true := by
  unfold State.setQueueByte
  grind [State.wf_writeByte, State.updDie_mem]

@[simp] theorem State.loadRun_mem (s : State) (r : Run) : (State.loadRun s r).2.mem = s.mem := by
  unfold State.loadRun
  (repeat' split) <;> simp

@[simp] theorem State.loadRuns_mem (s : State) (rs : List Run) : (s.loadRuns rs).2.mem = s.mem := by
  induction rs generalizing s with
  | nil => rfl
  | cons r rest ih => simp [State.loadRuns, ih]

@[simp] theorem State.wf_storeRun (s : State) (ctx : Nat) (r : Run) (bs : List Byte) (hm : Memory.wf s.mem = true) : Memory.wf
    (State.storeRun s ctx r bs).mem = true := by
  unfold State.storeRun
  grind [State.wf_writeBytes, State.wf_regWrite, State.wf_setQueueByte, foldl_wf, foldl_mem]

@[simp] theorem State.wf_storeRuns (s : State) (ctx : Nat) (rs : List Run) (bs : List Byte) (hm : Memory.wf s.mem = true) :
    Memory.wf (s.storeRuns ctx rs bs).mem = true := by
  induction rs generalizing s bs with
  | nil => exact hm
  | cons r rest ih => exact ih _ _ (State.wf_storeRun _ _ _ _ hm)

@[simp] theorem State.unpoison_mem (s : State) (rs : List Run) : (State.unpoison s rs).mem = s.mem := by
  unfold State.unpoison
  (repeat' split) <;> simp

@[simp] theorem State.wf_outsideHit (s : State) (rs : List Run) (hm : Memory.wf s.mem = true) : Memory.wf (State.outsideHit s rs).mem = true := by
  unfold State.outsideHit
  grind [State.wf_hitReaders, foldl_wf, foldl_mem]

@[simp] theorem State.wf_engineWrite (s : State) (ctx : Nat) (rs : List Run) (bs : List Byte) (hm : Memory.wf s.mem = true) : Memory.wf
    (State.engineWrite s ctx rs bs).mem = true := by
  unfold State.engineWrite
  simp [hm]

@[simp] theorem State.wf_storePast (ctx : Nat) (t : Task) (rs : List Run) (bs : List Byte) (s : State) (hm : Memory.wf s.mem = true) :
    Memory.wf (State.storePast ctx t rs bs s).mem = true := by
  induction rs generalizing s bs with
  | nil => exact hm
  | cons r rest ih =>
    apply ih
    split
    · exact foldl_wf (fun p hp => State.wf_writeByte p.2.1 p.2.2 hp) _ hm
    · simp [hm]

@[simp] theorem State.wf_groupWrite (s : State) (k : GKey) (g : Group) (rs : List Run) (bs : List Byte) (hm : Memory.wf s.mem = true) : Memory.wf
    (State.groupWrite s k g rs bs).mem = true := by
  unfold State.groupWrite
  grind [State.updGroup_mem, State.updDomain_mem, State.wf_hitReaders, State.wf_storeRuns, State.unpoison_mem, State.wf_engineWrite,
    State.wf_storePast, foldl_wf, foldl_mem]

@[simp] theorem State.groupRead_mem (s : State) (k : GKey) (g : Group) (rs : List Run) : (State.groupRead s k g rs).2.mem = s.mem := by
  unfold State.groupRead
  grind [State.updDomain_mem, State.loadRuns_mem]

@[simp] theorem State.wf_eventAct (s : State) (die ctx name : Nat) (a : EventAct) (hm : Memory.wf s.mem = true) : Memory.wf
    (State.eventAct s die ctx name a).mem = true := by
  unfold State.eventAct
  simp [hm]

@[simp] theorem State.wf_signal (s : State) (die ctx name : Nat) (hm : Memory.wf s.mem = true) : Memory.wf
    (State.signal s die ctx name).mem = true := by
  unfold State.signal
  simp [hm]

@[simp] theorem State.wf_writeLin (s : State) (w : Who) (lin : Nat) (bs : List Byte) (hm : Memory.wf s.mem = true) : Memory.wf
    (State.writeLin s w lin bs).2.mem = true := by
  unfold State.writeLin
  grind [State.translateRange_mem, State.wf_engineWrite]

theorem State.wf_writeFault (s : State) (die ctx : Nat) (r : FaultRec) {y : State} (he : State.writeFault s die ctx r = some y)
    (hm : Memory.wf s.mem = true) : Memory.wf y.mem = true := by
  unfold State.writeFault at he
  grind [State.updCtx_mem, State.wf_signal, State.wf_writeLin]

@[simp] theorem State.wf_report (s : State) (die ctx : Nat) (r : FaultRec) (hm : Memory.wf s.mem = true) :
    Memory.wf (s.report die ctx r).mem = true := by
  unfold State.report
  split
  · cases h : s.writeFault die ctx r with
    | none => exact hm
    | some t => exact State.wf_writeFault _ _ _ _ h hm
  · exact hm

@[simp] theorem State.wf_drainFaults (s : State) (die ctx : Nat) (rs : List FaultRec) (hm : Memory.wf s.mem = true) :
    Memory.wf (s.drainFaults die ctx rs).mem = true := by
  induction rs generalizing s with
  | nil => exact hm
  | cons r rest ih =>
    rw [State.drainFaults]
    grind [State.wf_writeFault, State.updCtx_mem]

@[simp] theorem State.wf_hyperFault (s : State) (die ctx : Nat) (r : FaultRec) (hm : Memory.wf s.mem = true) :
    Memory.wf (s.hyperFault die ctx r).mem = true := by
  unfold State.hyperFault
  split
  · cases h : s.writeHyper die ctx r with
    | none => exact hm
    | some t => exact State.wf_writeHyper _ _ _ _ h hm
  · exact hm

@[simp] theorem State.violate_mem (s : State) (set : Nat) (cls : FlitClass) (m : Master) (ctx : Nat) :
    (State.violate s set cls m ctx).mem = s.mem := by
  unfold State.violate
  simp

@[simp] theorem State.stray_mem (s : State) (set : Nat) (cls : FlitClass) : (State.stray s set cls).mem = s.mem := by
  unfold State.stray
  simp

@[simp] theorem State.wf_pageFault (s : State) (k : GKey) (g : Group) (f : XFault) (t : Trap) (fetch : Bool) (pos : Nat) (rk : ResumeKind)
    (hm : Memory.wf s.mem = true) : Memory.wf (State.pageFault s k g f t fetch pos rk).mem = true := by
  unfold State.pageFault
  grind [State.send_mem, State.leavePen_mem, State.desched_mem, State.wf_report, State.wf_hyperFault, State.violate_mem]

@[simp] theorem State.wf_deliverDeferred (s : State) (k : GKey) (g : Group) (t : Trap) (pos : Nat) (rk : ResumeKind) (hyper : Bool)
    (hm : Memory.wf s.mem = true) : Memory.wf (State.deliverDeferred s k g t pos rk hyper).mem = true := by
  unfold State.deliverDeferred
  grind [State.leavePen_mem, State.wf_trapEnter, State.wf_report, State.wf_hyperFault]

@[simp] theorem State.waitAcquire_mem (s : State) (k : GKey) (g : Group) : (State.waitAcquire s k g).mem = s.mem := by
  unfold State.waitAcquire
  (repeat' split) <;> simp

@[simp] theorem State.tryLanes_mem (s : State) (w : Who) (t : Option Team) (r : SegReg) (need : Need) (width : Nat) (los : List (Nat × Int)) :
    (s.tryLanes w t r need width los).2.mem = s.mem := by
  induction los generalizing s with
  | nil => rfl
  | cons lo rest ih => exact (ih _).trans (State.reachSeg_mem ..)

@[simp] theorem State.wf_sendFlit (s : State) (h : Hop) (cargo : Cargo) (base : Nat) (hm : Memory.wf s.mem = true) : Memory.wf
    (State.sendFlit s h cargo base).mem = true := by
  unfold State.sendFlit
  grind [State.setFabric_mem, State.post_mem, State.after_mem]

@[simp] theorem State.wf_cutGroup (s : State) (h : Hop) (k : GKey) (team ctx : Nat) (hm : Memory.wf s.mem = true) : Memory.wf
    (State.cutGroup s h k team ctx).mem = true := by
  unfold State.cutGroup
  grind [State.leavePen_mem, State.violate_mem, State.stray_mem]

@[simp] theorem State.wf_entryEnds (s : State) (id : Nat) (a : Access) (hm : Memory.wf s.mem = true) : Memory.wf
    (State.entryEnds s id a).mem = true := by
  unfold State.entryEnds
  grind [State.putGroup_mem, State.putTeam_mem, State.post_mem]

@[simp] theorem State.wf_laneCut (s : State) (h : Hop) (id : Nat) (a : Access) (hm : Memory.wf s.mem = true) : Memory.wf
    (State.laneCut s h id a).mem = true := by
  unfold State.laneCut
  grind [State.setAccess_mem, State.wf_cutGroup, State.wf_entryEnds]

@[simp] theorem State.wf_readHop (s : State) (r : ReadFor) (team ctx : Nat) (hops : List Hop) (hm : Memory.wf s.mem = true) :
    Memory.wf (s.readHop r team ctx hops).mem = true := by
  cases hops with
  | nil => grind [State.readHop, State.post_mem]
  | cons hop rest => grind [State.readHop, State.setFabric_mem, State.wf_cutGroup, State.wf_sendFlit]

@[simp] theorem State.wf_sendReads (s : State) (die : Nat) (r : ReadFor) (team ctx : Nat) (rs : List Run) (hm : Memory.wf s.mem = true)
    : Memory.wf (State.sendReads s die r team ctx rs).mem = true := by
  unfold State.sendReads
  grind [State.wf_readHop, foldl_wf, foldl_mem]

@[simp] theorem State.wf_laneHop (s : State) (id : Nat) (a : Access) (x : LaneAcc) (h : Hop) (base : Nat) (hm : Memory.wf s.mem = true)
    : Memory.wf (State.laneHop s id a x h base).mem = true := by
  unfold State.laneHop
  grind [State.wf_sendFlit, State.wf_laneCut]

@[simp] theorem State.wf_sendLane (s : State) (id : Nat) (w : Who) (a : Access) (x : LaneAcc) (base : Nat) (hm : Memory.wf s.mem = true)
    : Memory.wf (State.sendLane s id w a x base).mem = true := by
  unfold State.sendLane
  grind [State.after_mem, State.wf_laneHop]

@[simp] theorem State.wf_sendBack (s : State) (id : Nat) (w : Who) (a : Access) (x : LaneAcc) (hm : Memory.wf s.mem = true) : Memory.wf
    (State.sendBack s id w a x).mem = true := by
  unfold State.sendBack
  grind [State.after_mem, State.wf_laneHop]

@[simp] theorem State.wf_reportLogged (s : State) (k : GKey) (ctx sel : Nat) (mk : MKind) (xs : List LaneTry) (hm : Memory.wf s.mem = true) :
    Memory.wf (s.reportLogged k ctx sel mk xs).mem = true := by
  refine foldl_snd_wf (fun p x hp => ?_) xs hm
  grind [State.send_mem, State.wf_hyperFault, State.wf_report]

@[simp] theorem State.wf_launchAccess (s : State) (k : GKey) (g : Group) (c : Clause) (a : MArgs) (w : Who) (sel : Nat) (mask : Word)
    (xs logged : List LaneTry) (hm : Memory.wf s.mem = true) : Memory.wf (State.launchAccess s k g c a w sel mask xs logged).mem = true := by
  unfold State.launchAccess
  grind [State.setAccess_mem, State.after_mem, State.newId_mem, State.advance_mem, State.wf_sendLane, State.wf_reportLogged, foldl_wf, foldl_mem]

@[simp] theorem State.wf_issueAccess (s : State) (k : GKey) (g : Group) (c : Clause) (a : MArgs) (hm : Memory.wf s.mem = true) : Memory.wf
    (s.issueAccess k g c a).mem = true := by
  unfold State.issueAccess
  dsimp only
  have htry := State.tryLanes_mem s (s.whoOf k g) (s.team? g.team) (g.segReg a.g) (mKind a.op).need a.width
    ((lanesOf (g.mLanes a)).map fun l => (l, g.laneOfs a ((lowest (g.mLanes a)).getD 0) l))
  generalize s.tryLanes (s.whoOf k g) (s.team? g.team) (g.segReg a.g) (mKind a.op).need a.width
    ((lanesOf (g.mLanes a)).map fun l => (l, g.laneOfs a ((lowest (g.mLanes a)).getD 0) l)) = p at htry ⊢
  obtain ⟨xs, s1⟩ := p
  have hm1 : Memory.wf s1.mem = true := by rw [show s1.mem = s.mem from htry]; exact hm
  clear htry
  split
  · simp [hm]
  · by_cases h : g.mLanes a = 0#32
    · rw [if_pos h]; simp [hm]
    · rw [if_neg h]
      by_cases h : mKind a.op = .pref
      · rw [if_pos h]; simp [hm]
      · rw [if_neg h]
        by_cases h : s.acquiring k g
        · rw [if_pos h]; simp [hm]
        · rw [if_neg h]
          dsimp only
          repeat' split
          all_goals simp [hm, hm1, State.leavePen_mem]

@[simp] theorem State.loadLands_mem (s : State) (id : Nat) (a : Access) (x : LaneAcc) : (State.loadLands s id a x).mem = s.mem := by
  unfold State.loadLands
  (repeat' split) <;> simp

@[simp] theorem State.wf_loadReturn (s : State) (id lane : Nat) (hm : Memory.wf s.mem = true) : Memory.wf
    (State.loadReturn s id lane).mem = true := by
  unfold State.loadReturn
  grind [State.setAccess_mem, State.post_mem, State.groupRead_mem, State.wf_sendBack, State.loadLands_mem]

@[simp] theorem State.wf_performLane (s : State) (k : GKey) (g : Group) (a : Access) (x : LaneAcc) (hm : Memory.wf s.mem = true) : Memory.wf
    (State.performLane s k g a x).2.mem = true := by
  unfold State.performLane
  grind [State.wf_groupWrite, State.groupRead_mem]

@[simp] theorem State.wf_performLanes (s : State) (a : Access) (g0 : Group) (xs : List LaneAcc) (hm : Memory.wf s.mem = true) :
    Memory.wf (s.performLanes a g0 xs).2.mem = true := by
  induction xs generalizing s with
  | nil => exact hm
  | cons x rest ih => exact ih _ (State.wf_performLane _ _ _ _ _ hm)

@[simp] theorem State.wf_accessEnds (s : State) (id : Nat) (a : Access) (hm : Memory.wf s.mem = true) : Memory.wf
    (State.accessEnds s id a).mem = true := by
  unfold State.accessEnds
  (repeat' split) <;> simp [hm]

@[simp] theorem State.wf_accessComplete (s : State) (id : Nat) (hm : Memory.wf s.mem = true) : Memory.wf
    (State.accessComplete s id).mem = true := by
  unfold State.accessComplete
  grind [State.setAccess_mem, State.post_mem, State.after_mem, State.unpoison_mem, State.wf_sendBack, State.wf_performLanes, State.wf_accessEnds,
    foldl_wf, foldl_mem]

@[simp] theorem State.wf_sendEntry (s : State) (w : Who) (k : GKey) (team : Nat) (e : LogEntry) (rs : List Run) (hm : Memory.wf s.mem = true)
    : Memory.wf (State.sendEntry s w k team e rs).2.mem = true := by
  unfold State.sendEntry
  grind [State.setAccess_mem, State.after_mem, State.newId_mem, State.wf_sendLane, State.wf_accessComplete]

theorem State.wf_retryEntry_performed (s : State) (w : Who) (k : GKey) (g : Group) (team : Nat) (e : LogEntry) {y : State}
    (he : State.retryEntry s w k g team e = .performed y) (hm : Memory.wf s.mem = true) : Memory.wf y.mem = true := by
  unfold State.retryEntry at he
  grind [State.post_mem, State.unpoison_mem, State.wf_performLane, State.wf_sendEntry]

theorem State.wf_retryEntry_waits (s : State) (w : Who) (k : GKey) (g : Group) (team : Nat) (e : LogEntry) {y : State}
    (he : State.retryEntry s w k g team e = .waits y) (hm : Memory.wf s.mem = true) : Memory.wf y.mem = true := by
  unfold State.retryEntry at he
  grind [State.post_mem, State.unpoison_mem, State.wf_performLane, State.wf_sendEntry]

theorem State.wf_retryEntry_sent (s : State) (w : Who) (k : GKey) (g : Group) (team : Nat) (e : LogEntry) {id : Nat} {y : State}
    (he : State.retryEntry s w k g team e = .sent id y) (hm : Memory.wf s.mem = true) : Memory.wf y.mem = true := by
  unfold State.retryEntry at he
  grind [State.post_mem, State.unpoison_mem, State.wf_performLane, State.wf_sendEntry]

@[simp] theorem State.wf_retryLog (k : GKey) (n : Nat) (s : State) (hm : Memory.wf s.mem = true) : Memory.wf (State.retryLog k n s).mem = true := by
  induction n generalizing s with
  | zero => exact hm
  | succ n ih =>
    rw [State.retryLog]
    split
    · exact hm
    · split
      · exact hm
      · split
        · exact hm
        · dsimp only
          split
          next h => exact ih _ (by simpa using State.wf_retryEntry_performed _ _ _ _ _ _ h hm)
          next h => exact State.wf_retryEntry_waits _ _ _ _ _ _ h hm
          next h => simpa using State.wf_retryEntry_sent _ _ _ _ _ _ h hm
          · repeat' split
            all_goals simp [hm, State.leavePen_mem]

@[simp] theorem State.wf_retryTeam (t n : Nat) (s : State) (hm : Memory.wf s.mem = true) : Memory.wf (State.retryTeam t n s).mem = true := by
  induction n generalizing s with
  | zero => exact hm
  | succ n ih =>
    rw [State.retryTeam]
    split
    · exact hm
    · split
      · exact hm
      · dsimp only
        split
        next h => exact ih _ (by simpa using State.wf_retryEntry_performed _ _ _ _ _ _ h hm)
        next h => exact State.wf_retryEntry_waits _ _ _ _ _ _ h hm
        next h => simpa using State.wf_retryEntry_sent _ _ _ _ _ _ h hm
        · split
          · exact ih _ (by simp [hm])
          all_goals repeat' split
          all_goals simp [hm, State.leavePen_mem]

@[simp] theorem State.wf_sideLogRetry (s : State) (k : GKey) (hm : Memory.wf s.mem = true) : Memory.wf (State.sideLogRetry s k).mem = true := by
  unfold State.sideLogRetry
  grind [State.setAgenda_mem, State.wf_retryLog, State.wf_retryTeam, foldl_wf, foldl_mem]

@[simp] theorem State.wf_tableFault (s : State) (k : GKey) (g : Group) (f : XFault) (lin : Nat) (hm : Memory.wf s.mem = true) : Memory.wf
    (State.tableFault s k g f lin).mem = true := by
  unfold State.tableFault
  simp [hm]

@[simp] theorem State.wf_linkTrapOp (s : State) (k : GKey) (g : Group) (idx : Nat) (e : Entry) (lin : Nat) (hm : Memory.wf s.mem = true)
    : Memory.wf (State.linkTrapOp s k g idx e lin).mem = true := by
  unfold State.linkTrapOp
  grind [State.leavePen_mem, State.wf_raise, State.wf_report]

@[simp] theorem State.tableClk_mem (s : State) : (State.tableClk s).2.mem = s.mem := by
  unfold State.tableClk
  simp

@[simp] theorem State.wf_segLoadOp (s : State) (k : GKey) (g : Group) (c : Clause) (gd : Nat) (sel : BitVec 16) (hm : Memory.wf s.mem = true)
    : Memory.wf (State.segLoadOp s k g c gd sel).mem = true := by
  unfold State.segLoadOp
  grind [State.advance_mem, State.hold_mem, State.loadSeg_mem, State.wf_tableFault, State.tableClk_mem]

@[simp] theorem State.wf_applyBind (s : State) (w : Who) (idx : Nat) (a : BindAct) (hm : Memory.wf s.mem = true) :
    Memory.wf (s.applyBind w idx a).2.mem = true := by
  unfold State.applyBind
  dsimp only
  split
  next s1 h1 => rw [mem_of_snd h1 (State.readLin_mem ..)]; exact hm
  next s1 h1 =>
    have hm1 : Memory.wf s1.mem = true := by rw [mem_of_snd h1 (State.readLin_mem ..)]; exact hm
    split
    · exact hm1
    · split
      next s2 h2 => rw [mem_of_snd h2 (State.translateRange_mem ..)]; exact hm1
      next s2 h2 =>
        have hm2 : Memory.wf s2.mem = true := by rw [mem_of_snd h2 (State.translateRange_mem ..)]; exact hm1
        split
        · exact State.wf_engineWrite _ _ _ _ hm2
        · split
          next s3 h3 => rw [mem_of_snd h3 (State.translateRange_mem ..)]; exact hm2
          next s3 h3 =>
            apply State.wf_engineWrite
            apply State.wf_engineWrite
            rw [mem_of_snd h3 (State.translateRange_mem ..)]
            exact hm2

@[simp] theorem State.wf_signalBy (s : State) (die ctx name : Nat) (hm : Memory.wf s.mem = true) : Memory.wf
    (State.signalBy s die ctx name).mem = true := by
  unfold State.signalBy
  simp [hm]

@[simp] theorem State.wf_bindOp (s : State) (k : GKey) (g : Group) (c : Clause) (status idx : Nat) (a : BindAct) (hm : Memory.wf s.mem = true)
    : Memory.wf (State.bindOp s k g c status idx a).mem = true := by
  unfold State.bindOp
  grind [State.updGroup_mem, State.within_mem, State.advance_mem, State.hold_mem, State.wf_tableFault, State.wf_applyBind, State.wf_signalBy]

@[simp] theorem State.wf_enter (s : State) (k : GKey) (old g : Group) (sel : BitVec 16) (ofs : BitVec 48) (occ : Nat) (guard : Bool)
    (hm : Memory.wf s.mem = true) : Memory.wf (State.enter s k old g sel ofs occ guard).mem = true := by
  unfold State.enter
  grind [State.hold_mem, State.jump_mem, State.wf_raise, State.loadSeg_mem, State.wf_tableFault, State.tableClk_mem]

@[simp] theorem State.wf_stackWrite (s : State) (k : GKey) (g : Group) (t : Team) (bs : List Byte) (hm : Memory.wf s.mem = true) : Memory.wf
    (State.stackWrite s k g t bs).mem = true := by
  unfold State.stackWrite
  grind [State.wf_writeScratch, State.wf_groupWrite]

@[simp] theorem State.wf_exitSpilled (tm : Team) (g : Group) (l : Word) (n : Nat) (s : State) (hm : Memory.wf s.mem = true) :
    Memory.wf (State.exitSpilled tm g l n s).1.mem = true := by
  induction n generalizing s with
  | zero => exact hm
  | succ n ih => exact ih _ (State.wf_writeScratch _ _ _ hm)

@[simp] theorem State.wf_exitLanes (s : State) (k : GKey) (g : Group) (hm : Memory.wf s.mem = true) : Memory.wf
    (State.exitLanes s k g).mem = true := by
  unfold State.exitLanes
  grind [State.hold_mem, State.jump_mem, State.wf_exitGroup, State.wf_raise, State.loadSeg_mem, State.wf_tableFault, State.wf_enter,
    State.wf_exitSpilled, foldl_wf, foldl_mem]

@[simp] theorem State.wf_taskDone (s : State) (k : GKey) (g : Group) (hm : Memory.wf s.mem = true) : Memory.wf
    (State.taskDone s k g).mem = true := by
  unfold State.taskDone
  (repeat' split) <;> simp [hm]

@[simp] theorem State.wf_barChecked (s : State) (k : GKey) (g : Group) (f : BFmt) (operand : Bool) (go : Team → BarKey → BitVec 6 → State)
    (hm : Memory.wf s.mem = true) (hgo : ∀ t b sel, Memory.wf (go t b sel).mem = true) : Memory.wf (s.barChecked k g f operand go).mem = true := by
  unfold State.barChecked
  grind [State.wf_raise]

@[simp] theorem State.wf_barWaitOp (s : State) (k : GKey) (g : Group) (c : Clause) (b : BarKey) (sel : BitVec 6) (hm : Memory.wf s.mem = true)
    : Memory.wf (State.barWaitOp s k g c b sel).mem = true := by
  unfold State.barWaitOp
  (repeat' split) <;> simp [hm]

@[simp] theorem State.wf_arriveOp (s : State) (k : GKey) (g : Group) (b : BarKey) (sel : BitVec 6) (go : State → Group → State)
    (hm : Memory.wf s.mem = true) (hgo : ∀ t h, Memory.wf t.mem = true → Memory.wf (go t h).mem = true) :
    Memory.wf (s.arriveOp k g b sel go).mem = true := by
  unfold State.arriveOp
  grind [State.wf_raise, State.hold_mem, State.post_mem]

@[simp] theorem State.arriveAt_mem (s : State) (b : BarKey) (k : GKey) (g : Group) : (State.arriveAt s b k g).mem = s.mem := by
  unfold State.arriveAt
  simp

@[simp] theorem State.barrierArrive_mem (s : State) (b : BarKey) (a : BarAct) : (State.barrierArrive s b a).mem = s.mem := by
  unfold State.barrierArrive
  (repeat' split) <;> simp

@[simp] theorem State.putTenq_mem (s : State) (die ctx : Nat) (v : Word) : (State.putTenq s die ctx v).mem = s.mem := by
  unfold State.putTenq
  simp

@[simp] theorem State.grantClaims_mem (p : PenKey) (cs : List (Nat × Nat)) (s : State) : (State.grantClaims p cs s).mem = s.mem := by
  induction cs generalizing s with
  | nil => rfl
  | cons c rest ih =>
    rw [State.grantClaims, ih]
    grind [State.putGroup_mem, State.putPen_mem, State.makeReady_mem]

@[simp] theorem State.claimGrant_mem (s : State) (p : PenKey) : (State.claimGrant s p).mem = s.mem := by
  unfold State.claimGrant
  grind [State.post_mem, State.grantClaims_mem]

@[simp] theorem State.deadlockCheck_mem (s : State) (p : PenKey) : (State.deadlockCheck s p).mem = s.mem := by
  unfold State.deadlockCheck
  grind [State.updGroup_mem, State.putPen_mem, State.makeReady_mem, foldl_mem]

theorem State.evRead_mem (s : State) (d ctx o n : Nat) {r : Nat} {y : State} (he : State.evRead s d ctx o n = .ok (r, y)) : y.mem = s.mem := by
  unfold State.evRead at he
  grind [State.readLin_mem]

theorem State.wf_evWrite (s : State) (d ctx o n v : Nat) {y : State} (he : State.evWrite s d ctx o n v = .ok y) (hm : Memory.wf s.mem = true)
    : Memory.wf y.mem = true := by
  unfold State.evWrite at he
  grind [State.wf_writeLin]

@[simp] theorem State.evSet_mem (s : State) (d ctx name : Nat) (e : EvEntry) : (State.evSet s d ctx name e).mem = s.mem := by
  unfold State.evSet
  grind [State.updDie_mem]

@[simp] theorem State.evDel_mem (s : State) (d ctx name : Nat) : (State.evDel s d ctx name).mem = s.mem := by
  unfold State.evDel
  simp

theorem State.wf_evStore (s : State) (d ctx name : Nat) (e : EvEntry) (hw : Nat) {y : State} (he : State.evStore s d ctx name e hw = .ok y)
    (hm : Memory.wf s.mem = true) : Memory.wf y.mem = true := by
  unfold State.evStore at he
  grind [State.wf_evWrite]

@[simp] theorem State.evKeep_mem (s : State) (d ctx name : Nat) (e : EvEntry) : (State.evKeep s d ctx name e).mem = s.mem := by
  unfold State.evKeep
  grind [State.evSet_mem, State.evDel_mem]

theorem State.wf_evRoom (s : State) (d : Nat) {y : State} (he : s.evRoom d = .ok (some y)) (hm : Memory.wf s.mem = true) :
    Memory.wf y.mem = true := by
  have hstore := @State.wf_evStore
  unfold State.evRoom at he
  obtain ⟨store, hs⟩ : ∃ f, f = State.evStore := ⟨_, rfl⟩
  rw [← hs] at he hstore
  clear hs
  grind [State.evKeep_mem]

theorem State.wf_evTake (s : State) (d ctx name : Nat) {r : EvEntry} {y : State} (he : s.evTake d ctx name = .ok (r, y))
    (hm : Memory.wf s.mem = true) : Memory.wf y.mem = true := by
  have hread := @State.evRead_mem
  have hstore := @State.wf_evStore
  unfold State.evTake at he
  obtain ⟨read, hr⟩ : ∃ f, f = State.evRead := ⟨_, rfl⟩
  obtain ⟨store, hs⟩ : ∃ f, f = State.evStore := ⟨_, rfl⟩
  rw [← hr] at he hread
  rw [← hs] at he hstore
  clear hr hs
  dsimp only at he
  split at he
  · split at he
    · grind
    · grind [State.wf_evRoom]
  · grind [State.wf_evRoom]

theorem State.wf_evPut (s : State) (d ctx name : Nat) (e : EvEntry) {y : State} (he : State.evPut s d ctx name e = .ok y)
    (hm : Memory.wf s.mem = true) : Memory.wf y.mem = true := by
  unfold State.evPut at he
  grind [State.evSet_mem, State.wf_evStore, State.evKeep_mem]

theorem State.evChain_mem (s : State) (d ctx n r : Nat) {l : List OvWaiter} {x : State} (he : s.evChain d ctx n r = .ok (l, x)) :
    x.mem = s.mem := by
  have hread := @State.evRead_mem
  delta State.evChain State.evChain._f at he
  obtain ⟨read, hr⟩ : ∃ f, f = State.evRead := ⟨_, rfl⟩
  rw [← hr] at he hread
  clear hr
  induction n generalizing s r l with
  | zero => cases he; rfl
  | succ n ih =>
    dsimp only [Nat.brecOn, Nat.brecOn.go] at he ih
    grind

theorem State.wf_evRelink (d ctx : Nat) (rs : List Nat) (s : State) {x : State} (he : State.evRelink d ctx rs s = .ok x)
    (hm : Memory.wf s.mem = true) : Memory.wf x.mem = true := by
  have hwrite := @State.wf_evWrite
  delta State.evRelink State.evRelink._f at he
  obtain ⟨write, hw⟩ : ∃ f, f = State.evWrite := ⟨_, rfl⟩
  rw [← hw] at he hwrite
  clear hw
  induction rs generalizing s with
  | nil => cases he; exact hm
  | cons r rest ih =>
    dsimp only [List.brecOn, List.brecOn.go] at he ih
    cases rest with
    | nil => exact hwrite _ _ _ _ _ _ he hm
    | cons q rest => grind

theorem State.wf_evFree (d ctx : Nat) (rs : List Nat) (s : State) {x : State} (he : State.evFree d ctx rs s = .ok x)
    (hm : Memory.wf s.mem = true) : Memory.wf x.mem = true := by
  have hread := @State.evRead_mem
  have hwrite := @State.wf_evWrite
  delta State.evFree State.evFree._f at he
  obtain ⟨read, hr⟩ : ∃ f, f = State.evRead := ⟨_, rfl⟩
  obtain ⟨write, hw⟩ : ∃ f, f = State.evWrite := ⟨_, rfl⟩
  rw [← hr] at he hread
  rw [← hw] at he hwrite
  clear hr hw
  induction rs generalizing s with
  | nil => cases he; exact hm
  | cons r rest ih =>
    dsimp only [List.brecOn, List.brecOn.go] at he ih
    grind

theorem State.wf_evAppend (s : State) (d ctx : Nat) (e : EvEntry) (w : Waiter) {r : EvEntry} {y : State} (he : s.evAppend d ctx e w = .ok (r, y))
    (hm : Memory.wf s.mem = true) : Memory.wf y.mem = true := by
  have hread := @State.evRead_mem
  have hwrite := @State.wf_evWrite
  obtain ⟨append, ha⟩ : ∃ f, f = State.evAppend := ⟨_, rfl⟩
  obtain ⟨read, hr⟩ : ∃ f, f = State.evRead := ⟨_, rfl⟩
  obtain ⟨write, hw⟩ : ∃ f, f = State.evWrite := ⟨_, rfl⟩
  rw [← ha] at he
  delta State.evAppend at ha
  rw [← hr] at ha hread
  rw [← hw] at ha hwrite
  clear hr hw
  subst ha
  dsimp only at he
  split at he
  · grind
  · split at he
    · grind
    · split at he
      · grind
      · grind

@[simp] theorem State.wakeMark_mem (s : State) (k : GKey) (name : Nat) (v : Word) (after : Nat) :
    (State.wakeMark s k name v after).mem = s.mem := by
  unfold State.wakeMark
  (repeat' split) <;> simp

@[simp] theorem State.eventWake_mem (s : State) (k : GKey) (team : Nat) : (State.eventWake s k team).mem = s.mem := by
  unfold State.eventWake
  (repeat' split) <;> simp

theorem State.wf_evWakeAll (s : State) (d ctx name : Nat) (e : EvEntry) {r : EvEntry} {y : State}
    (he : State.evWakeAll s d ctx name e = .ok (r, y)) (hm : Memory.wf s.mem = true) : Memory.wf y.mem = true := by
  unfold State.evWakeAll at he
  grind [State.post_mem, State.evChain_mem, State.wf_evRelink, State.wf_evFree, State.wakeMark_mem, foldl_wf, foldl_mem]

@[simp] theorem State.landScalar_mem (s : State) (k : GKey) (id n : Nat) (v : Word) : (State.landScalar s k id n v).mem = s.mem := by
  unfold State.landScalar
  simp

@[simp] theorem State.waitMet_mem (s : State) (k : GKey) (g : Group) : (State.waitMet s k g).mem = s.mem := by
  unfold State.waitMet
  (repeat' split) <;> simp

@[simp] theorem State.wf_evSend (s : State) (home ctx name : Nat) (e : EvEntry) (hm : Memory.wf s.mem = true) : Memory.wf
    (State.evSend s home ctx name e).mem = true := by
  unfold State.evSend
  grind [State.post_mem, foldl_wf, foldl_mem]

@[simp] theorem State.setSeen_mem (s : State) (l n : Nat) (v : Word) : (State.setSeen s l n v).mem = s.mem := by
  unfold State.setSeen
  (repeat' split) <;> simp

theorem State.wf_evWaitOn (s : State) (home ctx name : Nat) (e : EvEntry) (k : GKey) (g : Group) (v : Word) {y : State}
    (he : s.evWaitOn home ctx name e k g v = .ok y) (hm : Memory.wf s.mem = true) : Memory.wf y.mem = true := by
  unfold State.evWaitOn at he
  dsimp only at he
  split at he
  · split at he
    · exact nomatch he
    next h =>
      have h1 := State.wf_evAppend _ _ _ _ _ h hm
      exact wf_of_map he (fun t ht => by split <;> simp [State.leavePen_mem, ht]) fun t ht => State.wf_evPut _ _ _ _ _ ht h1
  · split at he
    · exact nomatch he
    next h =>
      have h1 := State.wf_evPut _ _ _ _ _ h hm
      split at he
      · exact nomatch he
      next h =>
        have h2 := State.wf_evTake _ _ _ _ h h1
        split at he
        · exact nomatch he
        next h =>
          have h3 := State.wf_evAppend _ _ _ _ _ h h2
          exact wf_of_map he (fun t ht => by split <;> simp [State.leavePen_mem, ht]) fun t ht => State.wf_evPut _ _ _ _ _ ht h3

theorem State.wf_evAct (s : State) (home ctx name : Nat) (a : EventAct) {y : State}
    (he : s.evAct home ctx name a = .ok y) (hm : Memory.wf s.mem = true) : Memory.wf y.mem = true := by
  unfold State.evAct at he
  split at he
  · exact nomatch he
  next h =>
    have h1 := State.wf_evTake _ _ _ _ h hm
    clear h
    grind [wf_of_map, State.post_mem, State.wf_evPut, State.wf_evWakeAll, State.wf_evSend, State.landScalar_mem, State.setSeen_mem,
      State.waitMet_mem, State.wf_evWaitOn]

theorem State.wf_evCount (s : State) (d ctx name : Nat) (c : Word) {y : State} (he : State.evCount s d ctx name c = .ok y)
    (hm : Memory.wf s.mem = true) : Memory.wf y.mem = true := by
  unfold State.evCount at he
  grind [State.wf_evTake, State.wf_evPut, State.wf_evWakeAll]

@[simp] theorem State.wf_evPark (s : State) (k : GKey) (g : Group) (ctx : Nat) (f : EvFault) (hm : Memory.wf s.mem = true) : Memory.wf
    (State.evPark s k g ctx f).mem = true := by
  unfold State.evPark
  grind [State.putAny_mem, State.leavePen_mem, State.wf_report]

@[simp] theorem State.wf_evHold (s : State) (part ctx name : Nat) (w : HeldWhat) (f : EvFault) (at_ : Nat) (hm : Memory.wf s.mem = true)
    : Memory.wf (State.evHold s part ctx name w f at_).mem = true := by
  unfold State.evHold
  simp [hm]

theorem State.wf_actPark (s : State) (ctx name : Nat) (a : EventAct) (f : EvFault) {y : State} (he : s.actPark ctx name a f = some y)
    (hm : Memory.wf s.mem = true) : Memory.wf y.mem = true := by
  unfold State.actPark at he
  split at he
  · exact absurd he (by simp)
  · obtain ⟨e, -, rfl⟩ := Option.map_eq_some_iff.mp he
    grind [State.leavePen_mem, State.wf_report]

@[simp] theorem State.wf_firstAct (s : State) (part ctx name : Nat) (a : EventAct) (hm : Memory.wf s.mem = true) : Memory.wf
    (State.firstAct s part ctx name a).2.mem = true := by
  unfold State.firstAct
  grind [State.setAgenda_mem, foldl_wf, foldl_mem]

@[simp] theorem State.wf_eventActArrive (s : State) (part ctx name : Nat) (a0 : EventAct) (hm : Memory.wf s.mem = true) :
    Memory.wf (s.eventActArrive part ctx name a0).mem = true := by
  unfold State.eventActArrive
  have hpark := @State.wf_actPark
  grind [wf_getD, State.wf_evAct, State.wf_firstAct, State.updDie_mem, State.wf_evHold, State.wf_evPark]

@[simp] theorem State.wf_eventCountUpdate (s : State) (d ctx name : Nat) (c : Word) (hm : Memory.wf s.mem = true) : Memory.wf
    (State.eventCountUpdate s d ctx name c).mem = true := by
  unfold State.eventCountUpdate
  grind [State.wf_evCount, State.wf_evHold]

@[simp] theorem State.wf_freeRecords (p : Place) (base n : Nat) (s : State) (hm : Memory.wf s.mem = true) :
    Memory.wf (State.freeRecords p base n s).mem = true := by
  induction n generalizing s with
  | zero => exact hm
  | succ n ih => exact ih _ (State.wf_writeByte _ _ (State.wf_writeByte _ _ hm))

theorem State.wf_freePage (s : State) (d ctx n : Nat) {y : State} (he : s.freePage d ctx n = .ok y) (hm : Memory.wf s.mem = true) :
    Memory.wf y.mem = true := by
  have hwalk := @State.translate_mem
  have hfree := @State.wf_freeRecords
  obtain ⟨page, hp⟩ : ∃ f, f = State.freePage := ⟨_, rfl⟩
  obtain ⟨translate, ht⟩ : ∃ f, f = State.translate := ⟨_, rfl⟩
  obtain ⟨free, hf⟩ : ∃ f, f = State.freeRecords := ⟨_, rfl⟩
  rw [← hp] at he
  delta State.freePage at hp
  rw [← ht] at hp hwalk
  rw [← hf] at hp hfree
  clear ht hf
  subst hp
  grind

@[simp] theorem State.wf_freePages (d ctx n : Nat) (s : State) (hm : Memory.wf s.mem = true) : Memory.wf
    (State.freePages d ctx n s).mem = true := by
  have hfree := @State.wf_freePage
  delta State.freePages State.freePages._f
  obtain ⟨free, hf⟩ : ∃ f, f = State.freePage := ⟨_, rfl⟩
  rw [← hf] at hfree ⊢
  clear hf
  induction n generalizing s with
  | zero => exact hm
  | succ n ih =>
    dsimp only [Nat.brecOn, Nat.brecOn.go] at ih ⊢
    grind [State.wf_evHold]

@[simp] theorem State.wf_evDrain (d ctx name : Nat) (hs : List HeldAct) (s : State) (hm : Memory.wf s.mem = true) :
    Memory.wf (State.evDrain d ctx name hs s).2.mem = true := by
  induction hs generalizing s with
  | nil => exact hm
  | cons a rest ih =>
    rw [State.evDrain]
    grind [State.wf_evAct, State.wf_evCount, State.wf_actPark, State.wf_freePage]

@[simp] theorem State.wf_evSweep (s : State) (d ctx name : Nat) (hm : Memory.wf s.mem = true) : Memory.wf (s.evSweep d ctx name).mem = true := by
  unfold State.evSweep
  split
  · exact hm
  · split
    · exact hm
    · split
      · exact hm
      next h =>
        have h1 := State.wf_evTake _ _ _ _ h hm
        split
        · exact hm
        next h =>
          have h2 := (congrArg Memory.wf (State.evChain_mem _ _ _ _ _ h)).trans h1
          dsimp only
          split
          · exact hm
          next h =>
            have h3 := State.wf_evRelink _ _ _ _ h h2
            split
            · exact hm
            next h =>
              have h4 := State.wf_evFree _ _ _ _ h h3
              split
              next h => exact State.wf_evPut _ _ _ _ _ h h4
              · exact hm

@[simp] theorem State.wf_evRetry (s : State) (part ctx name : Nat) (hm : Memory.wf s.mem = true) : Memory.wf
    (State.evRetry s part ctx name).mem = true := by
  unfold State.evRetry
  grind [State.updDie_mem, State.post_mem, State.wf_evDrain, State.wf_evSweep, foldl_wf, foldl_mem]

@[simp] theorem State.putWq_mem (s : State) (d cq : Nat) (x : WorkQueue) : (State.putWq s d cq x).mem = s.mem := by
  unfold State.putWq
  simp

@[simp] theorem State.fitWq_mem (s : State) (d cq : Nat) (x : WorkQueue) : (State.fitWq s d cq x).mem = s.mem := by
  unfold State.fitWq
  (repeat' split) <;> simp

@[simp] theorem State.wf_evictQueues (d keep need n : Nat) (s : State) (hm : Memory.wf s.mem = true) :
    Memory.wf (State.evictQueues d keep need n s).mem = true := by
  induction n generalizing s with
  | zero => exact hm
  | succ n ih =>
    rw [State.evictQueues]
    grind [State.wf_writeLin, State.putWq_mem]

@[simp] theorem State.wf_queueSwapInDone (s : State) (d ctx q : Nat) (hm : Memory.wf s.mem = true) : Memory.wf
    (State.queueSwapInDone s d ctx q).mem = true := by
  unfold State.queueSwapInDone
  grind [State.post_mem, State.makeReady_mem, State.translateRange_mem, State.fitWq_mem, State.wf_evictQueues, foldl_wf, foldl_mem]

@[simp] theorem State.wf_firstQueueAct (s : State) (k : GKey) (a : QueueAct) (hm : Memory.wf s.mem = true) : Memory.wf
    (State.firstQueueAct s k a).2.mem = true := by
  unfold State.firstQueueAct
  grind [State.setAgenda_mem, foldl_wf, foldl_mem]

@[simp] theorem State.wf_queueActArrive (s : State) (k0 : GKey) (a0 : QueueAct) (hm : Memory.wf s.mem = true) : Memory.wf
    (State.queueActArrive s k0 a0).mem = true := by
  unfold State.queueActArrive
  grind [State.updGroup_mem, State.landScalar_mem, State.putWq_mem, State.fitWq_mem, State.wf_evictQueues, State.wf_firstQueueAct]

@[simp] theorem State.wf_withQueue (s : State) (k : GKey) (g : Group) (cq : Nat) (go : Nat → State → State)
    (hm : Memory.wf s.mem = true) (hgo : ∀ id t, Memory.wf t.mem = true → Memory.wf (go id t).mem = true) :
    Memory.wf (s.withQueue k g cq go).mem = true := by
  unfold State.withQueue
  grind [State.wf_raise, State.desched_mem, State.post_mem, State.putWq_mem, State.newId_mem]

@[simp] theorem State.putTile_mem (s : State) (die core n : Nat) (x : Tile) : (State.putTile s die core n x).mem = s.mem := by
  unfold State.putTile
  simp

@[simp] theorem State.putTiles_mem (s : State) (die n : Nat) (xs : List (Nat × Tile)) : (State.putTiles s die n xs).mem = s.mem := by
  unfold State.putTiles
  grind [State.putTile_mem, foldl_mem]

@[simp] theorem State.feedRead_mem (s : State) (w : Who) (lin n : Nat) : (State.feedRead s w lin n).2.mem = s.mem := by
  unfold State.feedRead
  grind [State.translateRange_mem]

@[simp] theorem State.feedReads_mem (s : State) (w : Who) (rs : List (Nat × Nat)) : (s.feedReads w rs).2.mem = s.mem := by
  induction rs generalizing s with
  | nil => rfl
  | cons r rest ih =>
    rw [State.feedReads]
    grind [State.feedRead_mem]

@[simp] theorem State.feedImage_mem (s : State) (w : Who) (x : Feeder) (t first : Nat) : (State.feedImage s w x t first).2.mem = s.mem := by
  unfold State.feedImage
  grind [State.feedReads_mem]

@[simp] theorem State.feedImages_mem (s : State) (w : Who) (x : Feeder) (t : Nat) : (State.feedImages s w x t).2.mem = s.mem := by
  unfold State.feedImages
  grind [State.feedImage_mem]

@[simp] theorem State.putFeeder_mem (s : State) (d f : Nat) (x : Feeder) : (State.putFeeder s d f x).mem = s.mem := by
  unfold State.putFeeder
  simp

@[simp] theorem State.dropFeeder_mem (s : State) (d f : Nat) : (State.dropFeeder s d f).mem = s.mem := by
  unfold State.dropFeeder
  simp

@[simp] theorem State.unpost_mem (s : State) (e : Event) : (State.unpost s e).mem = s.mem := by
  unfold State.unpost
  grind [State.setAgenda_mem]

@[simp] theorem State.wf_feedWait (s : State) (d f : Nat) (x : Feeder) (e : XFault) (lin : Nat) (hm : Memory.wf s.mem = true) : Memory.wf
    (State.feedWait s d f x e lin).mem = true := by
  unfold State.feedWait
  grind [State.post_mem, State.wf_report, State.wf_hyperFault, State.putFeeder_mem, State.unpost_mem]

@[simp] theorem State.wf_feedStop (s : State) (d f : Nat) (x : Feeder) (lin : Nat) (hm : Memory.wf s.mem = true) : Memory.wf
    (State.feedStop s d f x lin).mem = true := by
  unfold State.feedStop
  grind [State.newId_mem, State.wf_report, State.putFeeder_mem, State.dropFeeder_mem]

@[simp] theorem State.wf_feederTry (s : State) (d f : Nat) (retry : Bool) (hm : Memory.wf s.mem = true) : Memory.wf
    (State.feederTry s d f retry).mem = true := by
  unfold State.feederTry
  grind [State.setFreeCtr_mem, State.post_mem, State.putTile_mem, State.feedImages_mem, State.putFeeder_mem, State.unpost_mem, State.wf_feedWait,
    State.wf_feedStop, foldl_wf, foldl_mem]

@[simp] theorem State.wf_feederPoke (s : State) (d : Nat) (hm : Memory.wf s.mem = true) : Memory.wf (State.feederPoke s d).mem = true := by
  unfold State.feederPoke
  grind [State.wf_feederTry, foldl_wf, foldl_mem]

@[simp] theorem State.fdFall_mem (s : State) (x : Feeder) (n : Nat) : (State.fdFall s x n).mem = s.mem := by
  unfold State.fdFall
  simp

@[simp] theorem State.ringEnds_mem (s : State) (d : Nat) (x : Feeder) : (State.ringEnds s d x).mem = s.mem := by
  unfold State.ringEnds
  grind [State.putTile_mem, foldl_mem]

@[simp] theorem State.wf_feederTileLand (s : State) (d f : Nat) (hm : Memory.wf s.mem = true) : Memory.wf
    (State.feederTileLand s d f).mem = true := by
  unfold State.feederTileLand
  grind [State.post_mem, State.barrierArrive_mem, State.putTile_mem, State.putFeeder_mem, State.dropFeeder_mem, State.wf_feederTry,
    State.fdFall_mem, State.ringEnds_mem, foldl_wf, foldl_mem]

@[simp] theorem State.wf_feederEnd (s : State) (d f : Nat) (x : Feeder) (hm : Memory.wf s.mem = true) : Memory.wf
    (State.feederEnd s d f x).mem = true := by
  unfold State.feederEnd
  grind [State.putTile_mem, State.putFeeder_mem, State.dropFeeder_mem, State.unpost_mem, State.fdFall_mem, foldl_wf, foldl_mem]

@[simp] theorem State.wf_releaseTiles (s : State) (die team : Nat) (hm : Memory.wf s.mem = true) : Memory.wf
    (State.releaseTiles s die team).mem = true := by
  unfold State.releaseTiles
  grind [State.putTile_mem, State.wf_feederEnd, foldl_wf, foldl_mem]

@[simp] theorem State.wf_matGo (s : State) (k : GKey) (g : Group) (c : Clause) (first later : Option Trap) (go : State)
    (hm : Memory.wf s.mem = true)
    (hgo : Memory.wf go.mem = true) : Memory.wf (s.matGo k g c first later go).mem = true := by
  unfold State.matGo
  grind [State.advance_mem, State.desched_mem, State.wf_raise]

@[simp] theorem State.wf_matIssue (s : State) (k : GKey) (g : Group) (c : Clause) (t : Touch) (field : Bool) (spec : Option (BitVec 8))
    (first later : Option Trap) (go : State) (hm : Memory.wf s.mem = true) (hgo : Memory.wf go.mem = true) :
    Memory.wf (s.matIssue k g c t field spec first later go).mem = true := by
  unfold State.matIssue
  grind [State.hold_mem, State.wf_raise, State.wf_matGo]

@[simp] theorem State.wf_tileLoadLand (s : State) (c : CoreKey) (n : Nat) (hm : Memory.wf s.mem = true) : Memory.wf
    (State.tileLoadLand s c n).mem = true := by
  unfold State.tileLoadLand
  grind [State.putTile_mem]

@[simp] theorem State.wf_subscribe (s : State) (k : GKey) (g : Group) (c : Clause) (base n : Nat) (bar : Option BarKey) (d : Walk) (occ : Nat)
    (hm : Memory.wf s.mem = true) : Memory.wf (s.subscribe k g c base n bar d occ).mem = true := by
  unfold State.subscribe
  dsimp only
  split
  · simp [hm]
  · split
    · simp [hm]
    · split
      · simp [hm]
      · split
        · simp [hm]
        · refine State.wf_feederTry _ _ _ _ ?_
          simp only [State.putFeeder_mem, State.advance_mem]
          refine foldl_wf (fun p hp => ?_) _ hm
          refine foldl_wf (fun q hq => ?_) _ hp
          simpa using hq

@[simp] theorem State.putArr_mem (s : State) (die core : Nat) (x : Arr) : (State.putArr s die core x).mem = s.mem := by
  unfold State.putArr
  simp

@[simp] theorem State.updArr_mem (s : State) (die core : Nat) (f : Arr → Arr) : (State.updArr s die core f).mem = s.mem := by
  unfold State.updArr
  simp

@[simp] theorem State.wf_owning (s : State) (k : GKey) (g : Group) (go : State) (hm : Memory.wf s.mem = true) (hgo : Memory.wf go.mem = true) :
    Memory.wf (s.owning k g go).mem = true := by
  unfold State.owning
  grind [State.hold_mem, State.desched_mem, State.putArr_mem]

@[simp] theorem State.wf_matrixLook (s : State) (die : Nat) (hm : Memory.wf s.mem = true) : Memory.wf (State.matrixLook s die).mem = true := by
  unfold State.matrixLook
  grind [State.post_mem, foldl_wf, foldl_mem]

@[simp] theorem State.meFall_mem (s : State) (k : GKey) (team : Nat) : (State.meFall s k team).mem = s.mem := by
  unfold State.meFall
  simp

@[simp] theorem State.matEffect_mem (s : State) (die core rows : Nat) (o : MatOp) : (State.matEffect s die core rows o).mem = s.mem := by
  unfold State.matEffect
  (repeat' split) <;> simp

@[simp] theorem State.wf_armMatrix (s : State) (die core : Nat) (hm : Memory.wf s.mem = true) : Memory.wf
    (State.armMatrix s die core).mem = true := by
  unfold State.armMatrix
  (repeat' split) <;> simp [hm]

@[simp] theorem State.wf_matLaunch (s : State) (k : GKey) (g : Group) (c : Clause) (o : MatOp) (hm : Memory.wf s.mem = true) : Memory.wf
    (State.matLaunch s k g c o).mem = true := by
  unfold State.matLaunch
  grind [State.newId_mem, State.advance_mem, State.hold_mem, State.putTile_mem, State.updArr_mem, State.wf_owning, State.wf_armMatrix, foldl_wf,
    foldl_mem]

@[simp] theorem State.updOp_mem (s : State) (die : Nat) (cores : List Nat) (id : Nat) (f : MatOp → MatOp) :
    (State.updOp s die cores id f).mem = s.mem := by
  unfold State.updOp
  grind [State.updArr_mem, foldl_mem]

@[simp] theorem State.wf_matrixOpStart (s : State) (ck : CoreKey) (id : Nat) (hm : Memory.wf s.mem = true) : Memory.wf
    (State.matrixOpStart s ck id).mem = true := by
  unfold State.matrixOpStart
  grind [State.post_mem, State.updArr_mem, State.wf_armMatrix, State.updOp_mem, foldl_wf, foldl_mem]

@[simp] theorem State.subarrayGate_mem (s : State) (ck : CoreKey) (q : Nat) : (State.subarrayGate s ck q).mem = s.mem := by
  unfold State.subarrayGate
  grind [State.post_mem, State.updArr_mem]

@[simp] theorem State.wf_matrixOpRetire (s : State) (ck : CoreKey) (id : Nat) (hm : Memory.wf s.mem = true) : Memory.wf
    (State.matrixOpRetire s ck id).mem = true := by
  unfold State.matrixOpRetire
  grind [State.post_mem, State.barrierArrive_mem, State.putTile_mem, State.wf_feederPoke, State.updArr_mem, State.wf_matrixLook, State.meFall_mem,
    State.matEffect_mem, foldl_wf, foldl_mem]

@[simp] theorem State.wf_meStart (s : State) (k : GKey) (g : Group) (row rows : Nat) (go : Group → State) (hm : Memory.wf s.mem = true)
    (hgo : ∀ h, Memory.wf (go h).mem = true) : Memory.wf (s.meStart k g row rows go).mem = true := by
  unfold State.meStart
  grind [State.hold_mem]

@[simp] theorem State.addDrain_mem (s : State) (k : GKey) (d : Drain) : (State.addDrain s k d).mem = s.mem := by
  unfold State.addDrain
  simp

@[simp] theorem State.reachRows_mem (s : State) (w : Who) (tm : Option Team) (r : SegReg) (need : Need) (ps : List (Nat × Nat)) :
    (s.reachRows w tm r need ps).2.mem = s.mem := by
  induction ps generalizing s with
  | nil => rfl
  | cons p rest ih =>
    rw [State.reachRows]
    grind [State.reachSeg_mem]

@[simp] theorem State.wf_masterWrite (s : State) (k : GKey) (team ctx : Nat) (rs : List Run) (bs : List Byte) (hm : Memory.wf s.mem = true)
    : Memory.wf (State.masterWrite s k team ctx rs bs).mem = true := by
  unfold State.masterWrite
  (repeat' split) <;> simp [hm]

@[simp] theorem State.wf_drainRows (s : State) (d : Drain) (level : Nat) (rss : List (List Run)) (vs : List Word) (hm : Memory.wf s.mem = true) :
    Memory.wf (s.drainRows d level rss vs).mem = true := by
  induction rss generalizing s vs with
  | nil => exact hm
  | cons rs rest ih => exact ih _ _ (State.wf_masterWrite _ _ _ _ _ _ hm)

@[simp] theorem State.wf_drainIssue (s : State) (k : GKey) (g : Group) (c : Clause) (d : Drain) (w : Who) (place : Option Place)
    (hm : Memory.wf s.mem = true) : Memory.wf (s.drainIssue k g c d w place).mem = true :=
  State.wf_meStart _ _ _ _ _ _ hm fun h => by simp [hm]

@[simp] theorem State.wf_drainDone (s : State) (ck : CoreKey) (d : Drain) (hm : Memory.wf s.mem = true) : Memory.wf
    (State.drainDone s ck d).mem = true := by
  unfold State.drainDone
  simp [hm]

@[simp] theorem State.updDrain_mem (s : State) (ck : CoreKey) (id : Nat) (f : Drain → Drain) : (State.updDrain s ck id f).mem = s.mem := by
  unfold State.updDrain
  simp

@[simp] theorem State.wf_drainFault (s : State) (ck : CoreKey) (d : Drain) (f : XFault) (lin : Nat) (hm : Memory.wf s.mem = true) : Memory.wf
    (State.drainFault s ck d f lin).mem = true := by
  unfold State.drainFault
  grind [State.post_mem, State.send_mem, State.wf_report, State.wf_hyperFault, State.violate_mem, State.unpost_mem, State.updArr_mem,
    State.updDrain_mem]

@[simp] theorem State.drainCut_mem (s : State) (h : Hop) (ck : CoreKey) (id ctx : Nat) : (State.drainCut s h ck id ctx).mem = s.mem := by
  unfold State.drainCut
  simp

@[simp] theorem State.wf_drainHop (s : State) (ck : CoreKey) (id ctx : Nat) (hops : List Hop) (hm : Memory.wf s.mem = true) :
    Memory.wf (s.drainHop ck id ctx hops).mem = true := by
  cases hops with
  | nil => exact hm
  | cons hop rest => grind [State.drainHop, State.wf_sendFlit, State.drainCut_mem]

@[simp] theorem State.wf_drainComplete (s : State) (ck : CoreKey) (id : Nat) (hm : Memory.wf s.mem = true) :
    Memory.wf (s.drainComplete ck id).mem = true := by
  have hrows := @State.reachRows_mem
  have hhop := @State.wf_drainHop
  unfold State.drainComplete
  grind [State.wf_drainDone, State.wf_drainFault, State.wf_drainRows, State.updDrain_mem, foldl_wf, State.after_mem]

@[simp] theorem State.pairBind_mem (s : State) (ck : CoreKey) : (State.pairBind s ck).mem = s.mem := by
  unfold State.pairBind
  grind [State.putGroup_mem, State.makeReady_mem, State.updArr_mem, foldl_mem]

@[simp] theorem State.unpair_mem (s : State) (die core : Nat) : (State.unpair s die core).mem = s.mem := by
  unfold State.unpair
  (repeat' split) <;> simp

@[simp] theorem State.pairEnd_mem (s : State) (ck : CoreKey) : (State.pairEnd s ck).mem = s.mem := by
  unfold State.pairEnd
  grind [State.putGroup_mem, State.makeReady_mem, State.unpair_mem, foldl_mem]

@[simp] theorem State.putCopies_mem (s : State) (ck : CoreKey) (l : List CopyCmd) : (State.putCopies s ck l).mem = s.mem := by
  unfold State.putCopies
  simp

@[simp] theorem State.updCopy_mem (s : State) (ck : CoreKey) (id : Nat) (f : CopyCmd → CopyCmd) : (State.updCopy s ck id f).mem = s.mem := by
  unfold State.updCopy
  simp

@[simp] theorem State.wf_addCopy (s : State) (ck : CoreKey) (x : CopyCmd) (hm : Memory.wf s.mem = true) : Memory.wf
    (State.addCopy s ck x).mem = true := by
  unfold State.addCopy
  simp [hm]

@[simp] theorem State.wf_copyStart (s : State) (ck : CoreKey) (hm : Memory.wf s.mem = true) : Memory.wf (State.copyStart s ck).mem = true := by
  unfold State.copyStart
  grind [State.post_mem, State.updCopy_mem]

@[simp] theorem State.ceFall_mem (s : State) (x : CopyCmd) : (State.ceFall s x).mem = s.mem := by
  unfold State.ceFall
  simp

@[simp] theorem State.wf_copyGone (s : State) (ck : CoreKey) (x : CopyCmd) (hm : Memory.wf s.mem = true) : Memory.wf
    (State.copyGone s ck x).mem = true := by
  unfold State.copyGone
  simp [hm]

@[simp] theorem State.wf_failNodeWith (s : State) (l n : Nat) (code : Byte) (hm : Memory.wf s.mem = true) : Memory.wf
    (State.failNodeWith s l n code).mem = true := by
  unfold State.failNodeWith
  (repeat' split) <;> simp [hm]

@[simp] theorem State.wf_failNode (s : State) (l n : Nat) (hm : Memory.wf s.mem = true) : Memory.wf (State.failNode s l n).mem = true := by
  unfold State.failNode
  simp [hm]

@[simp] theorem State.wf_copyLost (s : State) (x : CopyCmd) (hm : Memory.wf s.mem = true) : Memory.wf (State.copyLost s x).mem = true := by
  unfold State.copyLost
  (repeat' split) <;> simp [hm]

@[simp] theorem State.wf_copyCancel (s : State) (ck : CoreKey) (x : CopyCmd) (write : Bool) (lin : Nat) (hm : Memory.wf s.mem = true) : Memory.wf
    (State.copyCancel s ck x write lin).mem = true := by
  unfold State.copyCancel
  grind [State.wf_report, State.wf_copyGone, State.wf_copyLost]

@[simp] theorem State.wf_copyFault (s : State) (ck : CoreKey) (x : CopyCmd) (f : XFault) (write : Bool) (lin : Nat) (hm : Memory.wf s.mem = true)
    : Memory.wf (State.copyFault s ck x f write lin).mem = true := by
  unfold State.copyFault
  grind [State.post_mem, State.send_mem, State.wf_report, State.wf_hyperFault, State.violate_mem, State.unpost_mem, State.updCopy_mem,
    State.wf_copyGone, State.wf_copyLost, State.wf_copyCancel]

@[simp] theorem State.copyReach_mem (s : State) (ck : CoreKey) (x : CopyCmd) (write : Bool) (o n : Nat) :
    (State.copyReach s ck x write o n).2.mem = s.mem := by
  unfold State.copyReach
  grind [State.reachSeg_mem]

@[simp] theorem State.sourceMeets_mem (s : State) (ck : CoreKey) (x : CopyCmd) (rs : List Run) (ps : List (Nat × Nat)) :
    (s.sourceMeets ck x rs ps).2.2.mem = s.mem := by
  induction ps generalizing s with
  | nil => rfl
  | cons p rest ih =>
    rw [State.sourceMeets]
    grind [State.copyReach_mem]

@[simp] theorem State.copyAhead_mem (s : State) (ck : CoreKey) (x : CopyCmd) (o d len rest : Nat) (rs : List Run) :
    (s.copyAhead ck x o d len rest rs).2.mem = s.mem := by
  unfold State.copyAhead
  grind [State.sourceMeets_mem, State.copyReach_mem, State.loadRuns_mem]

@[simp] theorem State.writeCut_mem (s : State) (h : Hop) (f : Flit) (cmd ctx : Nat) (ck : CoreKey) :
    (State.writeCut s h f cmd ctx ck).mem = s.mem := by
  unfold State.writeCut
  simp

@[simp] theorem State.wf_writeHop (s : State) (cmd : Nat) (g : GKey) (team ctx : Nat) (ck : CoreKey) (rs : List Run) (bs : List Byte)
    (hops : List Hop)
    (hm : Memory.wf s.mem = true) : Memory.wf (s.writeHop cmd g team ctx ck rs bs hops).mem = true := by
  cases hops with
  | nil => exact State.wf_masterWrite _ _ _ _ _ _ hm
  | cons hop rest => grind [State.writeHop, State.wf_sendFlit, State.wf_masterWrite, State.writeCut_mem]

@[simp] theorem State.wf_sendPieces (s : State) (ck : CoreKey) (x : CopyCmd) (src : Option Place) (rs : List Run) (bs : List Byte)
    (hm : Memory.wf s.mem = true) : Memory.wf (s.sendPieces ck x src rs bs).mem = true := by
  induction rs generalizing s bs with
  | nil => exact hm
  | cons r rest ih => exact ih _ _ (State.wf_writeHop _ _ _ _ _ _ _ _ _ hm)

theorem State.wf_moveBeat_more (s : State) (ck : CoreKey) (x : CopyCmd) {x1 : CopyCmd} {at_ : Option Place} {y : State}
    (he : State.moveBeat s ck x = .more x1 at_ y) (hm : Memory.wf s.mem = true) : Memory.wf y.mem = true := by
  unfold State.moveBeat at he
  grind [State.post_mem, State.loadRuns_mem, State.updCopy_mem, State.wf_copyFault, State.copyReach_mem, State.copyAhead_mem, State.wf_sendPieces]

theorem State.wf_moveBeat_stop (s : State) (ck : CoreKey) (x : CopyCmd) {y : State} (he : State.moveBeat s ck x = .stop y)
    (hm : Memory.wf s.mem = true) : Memory.wf y.mem = true := by
  unfold State.moveBeat at he
  grind [State.post_mem, State.loadRuns_mem, State.updCopy_mem, State.wf_copyFault, State.copyReach_mem, State.copyAhead_mem, State.wf_sendPieces]

@[simp] theorem State.countBeat_mem (s : State) (ck : CoreKey) : (State.countBeat s ck).mem = s.mem := by
  unfold State.countBeat
  simp

@[simp] theorem State.wf_copyEnds (s : State) (ck : CoreKey) (x : CopyCmd) (p : Option Place) (hm : Memory.wf s.mem = true) : Memory.wf
    (State.copyEnds s ck x p).mem = true := by
  unfold State.copyEnds
  (repeat' split) <;> simp [hm]

@[simp] theorem State.wf_moveBeats (ck : CoreKey) (n : Nat) (x : CopyCmd) (p : Option Place) (s : State) (hm : Memory.wf s.mem = true) :
    Memory.wf (State.moveBeats ck n x p s).mem = true := by
  induction n generalizing x p s with
  | zero =>
    rw [State.moveBeats]
    grind [State.post_mem, State.updCopy_mem, State.wf_moveBeat_more, State.wf_moveBeat_stop, State.countBeat_mem, State.wf_copyEnds]
  | succ n ih =>
    rw [State.moveBeats]
    grind [State.post_mem, State.updCopy_mem, State.wf_moveBeat_more, State.wf_moveBeat_stop, State.countBeat_mem, State.wf_copyEnds]

@[simp] theorem State.wf_copyBeat (s : State) (ck : CoreKey) (id : Nat) (hm : Memory.wf s.mem = true) : Memory.wf
    (State.copyBeat s ck id).mem = true := by
  unfold State.copyBeat
  grind [State.post_mem, State.wf_moveBeats]

@[simp] theorem State.wf_copyComplete (s : State) (ck : CoreKey) (id : Nat) (hm : Memory.wf s.mem = true) : Memory.wf
    (State.copyComplete s ck id).mem = true := by
  unfold State.copyComplete
  (repeat' split) <;> simp [hm]

@[simp] theorem State.wf_copyIssue (s : State) (k : GKey) (g : Group) (c : Clause) (f : EFmt) (bar : Option BarKey) (o d bytes rows sp dp : Nat)
    (hm : Memory.wf s.mem = true) : Memory.wf (State.copyIssue s k g c f bar o d bytes rows sp dp).mem = true := by
  unfold State.copyIssue
  grind [State.newId_mem, State.advance_mem, State.hold_mem, State.desched_mem, State.wf_raise, State.waitAcquire_mem, State.wf_addCopy]

@[simp] theorem State.wf_spillWrite (s : State) (die ctx i : Nat) (r : Rec) (hm : Memory.wf s.mem = true) : Memory.wf
    (State.spillWrite s die ctx i r).mem = true := by
  unfold State.spillWrite
  (repeat' split) <;> simp [hm]

@[simp] theorem State.wf_spillOver (s : State) (die : Nat) (hm : Memory.wf s.mem = true) : Memory.wf (State.spillOver s die).mem = true := by
  unfold State.spillOver
  (repeat' split) <;> simp [hm]

@[simp] theorem State.wf_spillAll (s : State) (die : Nat) (hm : Memory.wf s.mem = true) : Memory.wf (State.spillAll s die).mem = true := by
  unfold State.spillAll
  grind [State.wf_spillOver, foldl_wf, foldl_mem]

@[simp] theorem State.trimCounts_mem (s : State) (part ctx die : Nat) : (State.trimCounts s part ctx die).mem = s.mem := by
  unfold State.trimCounts
  simp

@[simp] theorem State.wf_enqueueRec (s : State) (part ctx die : Nat) (r : Rec) (hm : Memory.wf s.mem = true) : Memory.wf
    (State.enqueueRec s part ctx die r).mem = true := by
  unfold State.enqueueRec
  simp [hm]

@[simp] theorem State.wf_refillLook (s : State) (die part ctx : Nat) (hm : Memory.wf s.mem = true) : Memory.wf
    (State.refillLook s die part ctx).mem = true := by
  unfold State.refillLook
  (repeat' split) <;> simp [hm]

@[simp] theorem State.wf_refillAll (s : State) (die : Nat) (hm : Memory.wf s.mem = true) : Memory.wf (State.refillAll s die).mem = true := by
  unfold State.refillAll
  grind [State.wf_refillLook, foldl_wf, foldl_mem]

@[simp] theorem State.wf_spillRefill (s : State) (die part ctx : Nat) (hm : Memory.wf s.mem = true) : Memory.wf
    (State.spillRefill s die part ctx).mem = true := by
  unfold State.spillRefill
  grind [State.post_mem, State.updDomain_mem, State.wf_spillAll, State.wf_refillLook, foldl_wf, foldl_mem]

@[simp] theorem State.wf_drainGrain (part ctx : Nat) (s : State) (g : Grain) (hm : Memory.wf s.mem = true) : Memory.wf
    (State.drainGrain part ctx s g).mem = true := by
  unfold State.drainGrain
  grind [State.setPoison_mem, State.wf_writeByte, State.wf_hitReaders, foldl_wf, foldl_mem]

@[simp] theorem State.wf_promote (s : State) (part ctx : Nat) (k : GKey) (g : Group) (t : Task) (hm : Memory.wf s.mem = true) : Memory.wf
    (State.promote s part ctx k g t).mem = true := by
  unfold State.promote
  (repeat' split) <;> simp [hm]

@[simp] theorem State.wf_drainPromoted (s : State) (part ctx die : Nat) (hm : Memory.wf s.mem = true) : Memory.wf
    (State.drainPromoted s part ctx die).mem = true := by
  unfold State.drainPromoted
  grind [State.updGroup_mem, State.updDie_mem, State.post_mem, State.wf_drainGrain, foldl_wf, foldl_mem]

@[simp] theorem State.wf_drainRemains (s : State) (part ctx die : Nat) (hm : Memory.wf s.mem = true) : Memory.wf
    (State.drainRemains s part ctx die).mem = true := by
  unfold State.drainRemains
  grind [State.updDomain_mem, State.wf_drainGrain, foldl_wf, foldl_mem]

@[simp] theorem State.wf_refront (s : State) (part ctx die : Nat) (hm : Memory.wf s.mem = true) : Memory.wf
    (State.refront s part ctx die).mem = true := by
  unfold State.refront
  grind [State.post_mem, State.updDomain_mem, State.wf_promote]

@[simp] theorem State.wf_frontierSample (s : State) (part ctx dom : Nat) (hm : Memory.wf s.mem = true) : Memory.wf
    (State.frontierSample s part ctx dom).mem = true := by
  unfold State.frontierSample
  grind [State.post_mem, State.updDomain_mem, foldl_wf, foldl_mem]

@[simp] theorem State.wf_frontierUpdate (s : State) (part ctx dom die other : Nat) (hm : Memory.wf s.mem = true) : Memory.wf
    (State.frontierUpdate s part ctx dom die other).mem = true := by
  unfold State.frontierUpdate
  (repeat' split) <;> simp [hm]

@[simp] theorem State.setNodeRun_mem (s : State) (l n : Nat) (r : NodeRun) : (State.setNodeRun s l n r).mem = s.mem := by
  unfold State.setNodeRun
  (repeat' split) <;> simp

@[simp] theorem State.wf_dropSlots (s : State) (t : Nat) (tm : Team) (hm : Memory.wf s.mem = true) : Memory.wf
    (State.dropSlots s t tm).mem = true := by
  unfold State.dropSlots
  grind [State.post_mem, State.wf_exitGroup, foldl_wf, foldl_mem]

@[simp] theorem State.wf_endDomain (s : State) (part ctx : Nat) (d : Domain) (hm : Memory.wf s.mem = true) : Memory.wf
    (State.endDomain s part ctx d).mem = true := by
  unfold State.endDomain
  grind [State.setDomains_mem, State.updDie_mem, State.post_mem, State.unpost_mem, State.wf_failNode, State.wf_spillRefill, State.setNodeRun_mem,
    State.wf_dropSlots, foldl_wf, foldl_mem]

@[simp] theorem State.sweepTracks_mem (s : State) (part ctx : Nat) : (State.sweepTracks s part ctx).mem = s.mem := by
  unfold State.sweepTracks
  (repeat' split) <;> simp

@[simp] theorem State.wf_taskCommit (s0 : State) (part ctx die : Nat) (hm : Memory.wf s0.mem = true) : Memory.wf
    (State.taskCommit s0 part ctx die).mem = true := by
  unfold State.taskCommit
  grind [State.updDomain_mem, State.wf_drainGrain, State.wf_drainPromoted, State.wf_drainRemains, State.wf_refront, State.wf_endDomain,
    State.sweepTracks_mem, foldl_wf, foldl_mem]

@[simp] theorem State.wf_domainLost (s : State) (part ctx die : Nat) (hm : Memory.wf s.mem = true) : Memory.wf
    (State.domainLost s part ctx die).mem = true := by
  unfold State.domainLost
  grind [State.post_mem, State.updDomain_mem, State.wf_taskCommit]

@[simp] theorem State.wf_postDispatch (s : State) (t die part ctx : Nat) (hm : Memory.wf s.mem = true) : Memory.wf
    (State.postDispatch s t die part ctx).mem = true := by
  unfold State.postDispatch
  simp [hm]

@[simp] theorem State.wf_taskDispatch (s0 : State) (die part ctx : Nat) (hm : Memory.wf s0.mem = true) :
    Memory.wf (s0.taskDispatch die part ctx).mem = true := by
  have hrefill := @State.wf_refillAll
  obtain ⟨dispatch, hd⟩ : ∃ f, f = State.taskDispatch := ⟨_, rfl⟩
  obtain ⟨refill, hr⟩ : ∃ f, f = State.refillAll := ⟨_, rfl⟩
  rw [← hd]
  delta State.taskDispatch at hd
  rw [← hr] at hd hrefill
  clear hr
  subst hd
  have hs := hrefill _ die (State.wf_spillAll _ die (State.wf_domainLost s0 part ctx die hm))
  dsimp only
  generalize refill ((s0.domainLost part ctx die).spillAll die) die = s at hs ⊢
  split
  · exact hs
  · split
    · simp [hs]
    · split
      · simp [hs]
      · split
        · split
          · simp [hs]
          · refine State.wf_postDispatch _ _ _ _ _ (State.wf_refront _ _ _ _ (hrefill _ _ ?_))
            simp only [State.updDie_mem]
            split <;> simp [hs]
        · simp [hs]

@[simp] theorem State.wf_spawnOne (s : State) (k : GKey) (g : Group) (t : Task) (w : RecWords) (full : Bool) (hm : Memory.wf s.mem = true)
    : Memory.wf (State.spawnOne s k g t w full).2.mem = true := by
  unfold State.spawnOne
  grind [State.newId_mem, State.trimCounts_mem, State.wf_enqueueRec]

@[simp] theorem State.wf_spawnLanes (k : GKey) (g : Group) (t : Task) (ls : List (Nat × RecWords)) (full : Bool) (s : State)
    (hm : Memory.wf s.mem = true) : Memory.wf (State.spawnLanes k g t ls full s).2.mem = true := by
  induction ls generalizing full s with
  | nil => exact hm
  | cons l rest ih => exact ih _ _ (State.wf_spawnOne _ _ _ _ _ _ hm)

@[simp] theorem State.readRecords_mem (s : State) (k : GKey) (g : Group) (ls : List (Nat × List Run)) : (s.readRecords k g ls).2.mem = s.mem := by
  induction ls generalizing s g with
  | nil => rfl
  | cons l rest ih => exact (ih _ _).trans (State.groupRead_mem _ _ _ _)

@[simp] theorem State.wf_spawnIssue (s : State) (k : GKey) (g : Group) (c : Clause) (a : MArgs) (hm : Memory.wf s.mem = true) :
    Memory.wf (s.spawnIssue k g c a).mem = true := by
  unfold State.spawnIssue
  dsimp only
  split
  · simp [hm]
  next t _ =>
    have htry := State.tryLanes_mem s (s.whoOf k g) (s.team? g.team) (g.segReg a.g) .read 32 ((lanesOf g.exec).map fun l => (l, g.offAt a l))
    generalize s.tryLanes (s.whoOf k g) (s.team? g.team) (g.segReg a.g) .read 32 ((lanesOf g.exec).map fun l => (l, g.offAt a l)) = p at htry ⊢
    obtain ⟨xs, s1⟩ := p
    have hm1 : Memory.wf s1.mem = true := by rw [show s1.mem = s.mem from htry]; exact hm
    clear htry
    by_cases h : g.exec = 0#32
    · rw [if_pos h]; simp [hm]
    · rw [if_neg h]
      repeat' split
      all_goals simp [hm, hm1]

theorem State.segRead_mem_bytes (s : State) (k : GKey) (g : Group) (r : SegReg) (o n align : Nat) {bs : List Byte} {rs : List Run} {y : State}
    (he : State.segRead s k g r o n align = .bytes bs rs y) : y.mem = s.mem := by
  unfold State.segRead at he
  grind [State.reachSeg_mem, State.loadRuns_mem]

theorem State.segRead_mem_fault (s : State) (k : GKey) (g : Group) (r : SegReg) (o n align : Nat) {f : XFault} {t : Trap} {y : State}
    (he : State.segRead s k g r o n align = .fault f t y) : y.mem = s.mem := by
  unfold State.segRead at he
  grind [State.reachSeg_mem, State.loadRuns_mem]

@[simp] theorem State.wf_launchGo (s : State) (k : GKey) (g : Group) (c : Clause) (st : Nat) (x : LaunchDesc) (kr : KRec) (code : SegReg)
    (occ : Nat) (hm : Memory.wf s.mem = true) : Memory.wf (State.launchGo s k g c st x kr code occ).mem = true := by
  unfold State.launchGo
  grind [State.setHost_mem, State.within_mem, State.newId_mem, State.advance_mem, State.hold_mem, State.wf_raise, State.loadSeg_mem,
    State.wf_pageFault, State.wf_tableFault, State.segRead_mem_bytes, State.segRead_mem_fault]

@[simp] theorem State.codeBytes_mem (s : State) (k : GKey) (w : Who) (from_ : CodeFrom) (lin n : Nat) :
    (State.codeBytes s k w from_ lin n).2.mem = s.mem := by
  unfold State.codeBytes
  grind [State.translateRange_mem]

@[simp] theorem State.fetchClause_mem (s : State) (k : GKey) (g : Group) (from_ : CodeFrom) : (State.fetchClause s k g from_).2.mem = s.mem := by
  unfold State.fetchClause
  grind [State.codeBytes_mem]

@[simp] theorem State.wf_fetchStale (s : State) (k : GKey) (g : Group) (hm : Memory.wf s.mem = true) : Memory.wf
    (State.fetchStale s k g).mem = true := by
  unfold State.fetchStale
  grind [State.leavePen_mem, State.wf_report]

@[simp] theorem State.wf_fetchFault (s : State) (k : GKey) (g : Group) (f : XFault) (lin ofs : Nat) (hm : Memory.wf s.mem = true) : Memory.wf
    (State.fetchFault s k g f lin ofs).mem = true := by
  unfold State.fetchFault
  simp [hm]

@[simp] theorem State.fetchLatency_mem (s : State) (k : GKey) (g : Group) : (State.fetchLatency s k g).2.mem = s.mem := by
  unfold State.fetchLatency
  grind [State.translate_mem]

@[simp] theorem State.keepLines_mem (s : State) (k : GKey) (g : Group) (n : Nat) : (State.keepLines s k g n).mem = s.mem := by
  unfold State.keepLines
  grind [State.updCore_mem, State.translateRange_mem, foldl_mem]

@[simp] theorem State.idleOn_mem (s : State) (k : GKey) (g : Group) : (State.idleOn s k g).mem = s.mem := by
  unfold State.idleOn
  simp

@[simp] theorem State.wf_clauseFetchArrive (s : State) (k : GKey) (hm : Memory.wf s.mem = true) : Memory.wf
    (State.clauseFetchArrive s k).mem = true := by
  unfold State.clauseFetchArrive
  grind [State.putGroup_mem, State.post_mem, State.fetchClause_mem, State.wf_fetchStale, State.wf_fetchFault, State.keepLines_mem, State.idleOn_mem]

theorem State.wf_headerLook_start (s : State) (k : GKey) (g : Group) (c : Clause) {g1 : Group} {c1 : Clause} {y : State}
    (he : State.headerLook s k g c = .start g1 c1 y) (hm : Memory.wf s.mem = true) : Memory.wf y.mem = true := by
  unfold State.headerLook at he
  grind [State.desched_mem, State.wf_raiseAt, State.wf_eventAct]

theorem State.wf_headerLook_wait (s : State) (k : GKey) (g : Group) (c : Clause) {g1 : Group} {w : Wait} {y : State}
    (he : State.headerLook s k g c = .wait g1 w y) (hm : Memory.wf s.mem = true) : Memory.wf y.mem = true := by
  unfold State.headerLook at he
  grind [State.desched_mem, State.wf_raiseAt, State.wf_eventAct]

theorem State.wf_headerLook_gone (s : State) (k : GKey) (g : Group) (c : Clause) {y : State} (he : State.headerLook s k g c = .gone y)
    (hm : Memory.wf s.mem = true) : Memory.wf y.mem = true := by
  unfold State.headerLook at he
  grind [State.desched_mem, State.wf_raiseAt, State.wf_eventAct]

theorem State.wf_taskEntry (s : State) (k : GKey) (g : Group) (idx : Nat) {r : Group} {y : State} (he : State.taskEntry s k g idx = .ok (r, y))
    (hm : Memory.wf s.mem = true) : Memory.wf y.mem = true := by
  unfold State.taskEntry at he
  grind [State.wf_raiseAt, State.readLin_mem, State.loadSeg_mem, State.wf_pageFault, State.wf_linkTrapOp]

@[simp] theorem State.wf_fetchFlits (s : State) (k : GKey) (g : Group) (hm : Memory.wf s.mem = true) : Memory.wf
    (State.fetchFlits s k g).mem = true := by
  unfold State.fetchFlits
  grind [State.translate_mem, State.translateRange_mem, State.wf_sendReads, foldl_wf, foldl_mem]

theorem State.wf_fetchLook_start (s : State) (k : GKey) (g : Group) {g1 : Group} {c1 : Clause} {y : State}
    (he : State.fetchLook s k g = .start g1 c1 y) (hm : Memory.wf s.mem = true) : Memory.wf y.mem = true := by
  unfold State.fetchLook at he
  grind [State.after_mem, State.wf_raiseAt, State.fetchClause_mem, State.wf_fetchStale, State.wf_fetchFault, State.fetchLatency_mem,
    State.wf_clauseFetchArrive, State.wf_headerLook_start, State.wf_headerLook_wait, State.wf_headerLook_gone, State.wf_fetchFlits]

theorem State.wf_fetchLook_wait (s : State) (k : GKey) (g : Group) {g1 : Group} {w : Wait} {y : State} (he : State.fetchLook s k g = .wait g1 w y)
    (hm : Memory.wf s.mem = true) : Memory.wf y.mem = true := by
  unfold State.fetchLook at he
  grind [State.after_mem, State.wf_raiseAt, State.fetchClause_mem, State.wf_fetchStale, State.wf_fetchFault, State.fetchLatency_mem,
    State.wf_clauseFetchArrive, State.wf_headerLook_start, State.wf_headerLook_wait, State.wf_headerLook_gone, State.wf_fetchFlits]

theorem State.wf_fetchLook_gone (s : State) (k : GKey) (g : Group) {y : State} (he : State.fetchLook s k g = .gone y)
    (hm : Memory.wf s.mem = true) : Memory.wf y.mem = true := by
  unfold State.fetchLook at he
  grind [State.after_mem, State.wf_raiseAt, State.fetchClause_mem, State.wf_fetchStale, State.wf_fetchFault, State.fetchLatency_mem,
    State.wf_clauseFetchArrive, State.wf_headerLook_start, State.wf_headerLook_wait, State.wf_headerLook_gone, State.wf_fetchFlits]

@[simp] theorem State.wf_handlerKeeps (s : State) (tm : Team) (h : Handler) (hm : Memory.wf s.mem = true) : Memory.wf
    (State.handlerKeeps s tm h).mem = true := by
  unfold State.handlerKeeps
  grind [State.setFreeCtr_mem, State.wf_writeScratch]

@[simp] theorem State.wf_emulate (s : State) (k : GKey) (g : Group) (h : Handler) (tm : Team) (o : EmuObject) (hm : Memory.wf s.mem = true)
    : Memory.wf (State.emulate s k g h tm o).mem = true := by
  unfold State.emulate
  grind [State.putGroup_mem, State.send_mem, State.busy_mem, State.jump_mem, State.wf_killGroup, State.wf_handlerKeeps]

theorem State.wf_look_start (s : State) (k : GKey) (g0 : Group) {g1 : Group} {c1 : Clause} {y : State} (he : State.look s k g0 = .start g1 c1 y)
    (hm : Memory.wf s.mem = true) : Memory.wf y.mem = true := by
  unfold State.look at he
  grind [State.wf_headerLook_start, State.wf_headerLook_wait, State.wf_headerLook_gone, State.wf_taskEntry, State.wf_fetchLook_start,
    State.wf_fetchLook_wait, State.wf_fetchLook_gone, State.wf_emulate]

theorem State.wf_look_wait (s : State) (k : GKey) (g0 : Group) {g1 : Group} {w : Wait} {y : State} (he : State.look s k g0 = .wait g1 w y)
    (hm : Memory.wf s.mem = true) : Memory.wf y.mem = true := by
  unfold State.look at he
  grind [State.wf_headerLook_start, State.wf_headerLook_wait, State.wf_headerLook_gone, State.wf_taskEntry, State.wf_fetchLook_start,
    State.wf_fetchLook_wait, State.wf_fetchLook_gone, State.wf_emulate]

theorem State.wf_taskEntry_error (s : State) (k : GKey) (g : Group) (idx : Nat) {y : State} (he : s.taskEntry k g idx = .error y)
    (hm : Memory.wf s.mem = true) : Memory.wf y.mem = true := by
  unfold State.taskEntry at he
  grind [State.wf_raiseAt, State.readLin_mem, State.loadSeg_mem, State.wf_pageFault, State.wf_linkTrapOp]

theorem State.wf_look_gone (s : State) (k : GKey) (g0 : Group) {y : State} (he : State.look s k g0 = .gone y) (hm : Memory.wf s.mem = true)
    : Memory.wf y.mem = true := by
  unfold State.look at he
  have herror := @State.wf_taskEntry_error
  grind [State.wf_emulate, State.wf_taskEntry, State.wf_headerLook_gone, State.wf_fetchLook_gone]

@[simp] theorem State.takePen_mem (s : State) (p : PenKey) (but : Option Nat) : (State.takePen s p but).mem = s.mem := by
  unfold State.takePen
  (repeat' split) <;> simp

@[simp] theorem State.quitPen_mem (s : State) (p : PenKey) (k : GKey) (g : Group) (r : RunState) : (State.quitPen s p k g r).mem = s.mem := by
  unfold State.quitPen
  simp

@[simp] theorem State.wf_beginClause (s : State) (k : GKey) (g : Group) (c : Clause) (again : Bool) (hm : Memory.wf s.mem = true) : Memory.wf
    (State.beginClause s k g c again).mem = true := by
  unfold State.beginClause
  (repeat' split) <;> simp [hm]

theorem State.wf_deliverDue (s : State) (k : GKey) (g : Group) {y : State} (he : State.deliverDue s k g = some y) (hm : Memory.wf s.mem = true)
    : Memory.wf y.mem = true := by
  unfold State.deliverDue at he
  grind [State.leavePen_mem, State.wf_raiseAt, State.wf_deliverDeferred]

@[simp] theorem State.wf_stopToSave (s : State) (k : GKey) (g : Group) (full : Bool) (hm : Memory.wf s.mem = true) : Memory.wf
    (State.stopToSave s k g full).mem = true := by
  unfold State.stopToSave
  grind [State.putGroup_mem, State.putPen_mem, State.post_mem, State.claimGrant_mem, State.pairBind_mem, State.pairEnd_mem]

@[simp] theorem State.wf_boundary (s : State) (p : PenKey) (k : GKey) (g0 : Group) (hm : Memory.wf s.mem = true) : Memory.wf
    (State.boundary s p k g0).mem = true := by
  unfold State.boundary
  grind [State.putGroup_mem, State.wf_look_start, State.wf_look_wait, State.wf_look_gone, State.takePen_mem, State.quitPen_mem,
    State.wf_beginClause, State.wf_deliverDue, State.wf_stopToSave]

@[simp] theorem State.wf_clauseStart (s : State) (p : PenKey) (hm : Memory.wf s.mem = true) : Memory.wf (State.clauseStart s p).mem = true := by
  unfold State.clauseStart
  grind [State.putPen_mem, State.takePen_mem, State.quitPen_mem, State.wf_boundary]

@[simp] theorem State.wf_resend (s : State) (k : GKey) (team : Nat) (hm : Memory.wf s.mem = true) : Memory.wf
    (State.resend s k team).mem = true := by
  unfold State.resend
  grind [State.wf_sendLane, State.wf_sendBack, State.wf_loadReturn, foldl_wf, foldl_mem]

@[simp] theorem State.wf_resumeParked (s : State) (k : GKey) (g : Group) (hm : Memory.wf s.mem = true) : Memory.wf
    (State.resumeParked s k g).mem = true := by
  unfold State.resumeParked
  (repeat' split) <;> simp [hm]

@[simp] theorem State.wf_sweep (s : State) (hm : Memory.wf s.mem = true) : Memory.wf (State.sweep s).mem = true := by
  unfold State.sweep
  grind [State.putGroup_mem, State.unpost_mem, State.idleOn_mem, State.wf_clauseFetchArrive, State.wf_resumeParked, foldl_wf, foldl_mem]

@[simp] theorem State.wf_teamBudgetOut (s : State) (t : Nat) (tm : Team) (hm : Memory.wf s.mem = true) : Memory.wf
    (State.teamBudgetOut s t tm).mem = true := by
  unfold State.teamBudgetOut
  grind [State.putGroup_mem, State.updDie_mem, State.putTeam_mem, State.post_mem, State.wf_abort, foldl_wf, foldl_mem]

@[simp] theorem State.wf_budgetTick (s : State) (w : BudgetOf) (hm : Memory.wf s.mem = true) : Memory.wf (State.budgetTick s w).mem = true := by
  unfold State.budgetTick
  grind [State.putGroup_mem, State.putTeam_mem, State.post_mem, State.wf_teamBudgetOut]

@[simp] theorem State.wf_killSaved (s : State) (die : Nat) (x : Saved) (hm : Memory.wf s.mem = true) : Memory.wf
    (State.killSaved s die x).mem = true := by
  unfold State.killSaved
  grind [State.updDie_mem, State.putTeam_mem, State.post_mem, State.leaveBarriers_mem, State.wf_forgetWait, State.failDomain_mem,
    State.keepDraft_mem, State.wf_taskCommit]

@[simp] theorem State.wf_budgetGraceExpire (s : State) (t : Nat) (hm : Memory.wf s.mem = true) : Memory.wf
    (State.budgetGraceExpire s t).mem = true := by
  unfold State.budgetGraceExpire
  grind [State.wf_killGroup, State.wf_killSaved, foldl_wf, foldl_mem]

@[simp] theorem State.wf_killAny (s : State) (k : GKey) (g : Group) (hm : Memory.wf s.mem = true) : Memory.wf (State.killAny s k g).mem = true := by
  unfold State.killAny
  (repeat' split) <;> simp [hm]

@[simp] theorem State.wf_pkctlResume (s : State) (die core slot : Nat) (by_ : Option Nat) (hm : Memory.wf s.mem = true) : Memory.wf
    (State.pkctlResume s die core slot by_).mem = true := by
  unfold State.pkctlResume
  grind [State.loadSeg_mem, State.wf_eventAct, State.wf_pageFault, State.wf_boundary, State.wf_resumeParked]

@[simp] theorem State.wf_pkctlKill (s : State) (die core slot : Nat) (by_ : Option Nat) (hm : Memory.wf s.mem = true) : Memory.wf
    (State.pkctlKill s die core slot by_).mem = true := by
  unfold State.pkctlKill
  grind [State.wf_killAny]

theorem State.placeGroups_mem (team die core : Nat) (kr : KRec) (trapv : Word) (code : SegReg) (segs : Tbl SegReg) (args : List Byte) (n i : Nat)
    (s : State) {l : List (Nat × Nat)} {y : State} (he : State.placeGroups team die core kr trapv code segs args n i s = some (l, y)) :
    y.mem = s.mem := by
  induction n generalizing i s l with
  | zero => grind [State.placeGroups]
  | succ n ih =>
    rw [State.placeGroups] at he
    split at he
    · exact absurd he (by simp)
    · obtain ⟨⟨l1, y1⟩, hr, hy⟩ := Option.map_eq_some_iff.mp he
      obtain ⟨-, rfl⟩ := Prod.mk.inj hy
      rw [ih _ _ hr]
      simp

theorem State.wf_placeTeam (s : State) (x : Launch) (nd : Node) (kr : KRec) (code : SegReg) (w : PlaceOf) (core m number : Nat)
    {id : Nat} {banks : List Nat} {y : State} (he : s.placeTeam x nd kr code w core m number = some (id, banks, y)) (hm : Memory.wf s.mem = true) :
    Memory.wf y.mem = true := by
  unfold State.placeTeam at he
  grind [State.placeGroups_mem, State.newId_mem, State.putCore_mem, State.wf_writeBytes, State.wf_writeScratch, State.putTeam_mem]

theorem State.wf_placeMembers (x : Launch) (nd : Node) (kr : KRec) (code : SegReg) (w : PlaceOf) (nw cn n m : Nat) (s : State)
    {l : List (Nat × Nat × List Nat)} {y : State} (he : State.placeMembers x nd kr code w nw cn n m s = some (l, y)) (hm : Memory.wf s.mem = true) :
    Memory.wf y.mem = true := by
  induction n generalizing m s l with
  | zero => grind [State.placeMembers]
  | succ n ih =>
    rw [State.placeMembers] at he
    split at he
    · exact absurd he (by simp)
    next h =>
      obtain ⟨⟨l1, y1⟩, hr, hy⟩ := Option.map_eq_some_iff.mp he
      obtain ⟨-, rfl⟩ := Prod.mk.inj hy
      exact ih _ _ hr (State.wf_placeTeam _ _ _ _ _ _ _ _ _ h hm)

theorem State.wf_placeCluster (s : State) (x : Launch) (l n : Nat) (nd : Node) (kr : KRec) (code : SegReg) (die cn : Nat) (again : Bool) {y : State}
    (he : s.placeCluster x l n nd kr code die cn again = some y) (hm : Memory.wf s.mem = true) : Memory.wf y.mem = true := by
  unfold State.placeCluster at he
  obtain ⟨nw, -, hnw⟩ := List.exists_of_findSome?_eq_some he
  split at hnw
  · exact absurd hnw (by simp)
  · split at hnw
    · exact absurd hnw (by simp)
    next h =>
      have hms := State.wf_placeMembers _ _ _ _ _ _ _ _ _ _ h hm
      clear h he
      grind [State.setClusters_mem, State.post_mem, foldl_mem]

theorem State.wf_placeShare (x : Launch) (l n : Nat) (nd : Node) (kr : KRec) (code : SegReg) (die : Nat) (cs : List Nat) (s : State) {y : State}
    (he : State.placeShare x l n nd kr code die cs s = some y) (hm : Memory.wf s.mem = true) : Memory.wf y.mem = true := by
  induction cs generalizing s with
  | nil => grind [State.placeShare]
  | cons c rest ih =>
    rw [State.placeShare] at he
    grind [State.wf_placeCluster]

@[simp] theorem State.putRange_mem (s : State) (die : Nat) (r : Range) : (State.putRange s die r).mem = s.mem := by
  unfold State.putRange
  simp

theorem State.wf_tryHead (s : State) (die : Nat) (r : Range) {y : State} (he : s.tryHead die r = some y) (hm : Memory.wf s.mem = true) :
    Memory.wf y.mem = true := by
  unfold State.tryHead at he
  split at he
  · exact absurd he (by simp)
  · split at he
    · split at he
      · obtain ⟨t, ht, rfl⟩ := Option.map_eq_some_iff.mp he
        simp [State.wf_placeShare _ _ _ _ _ _ _ _ _ ht hm]
      · obtain ⟨t, ht, rfl⟩ := Option.map_eq_some_iff.mp he
        simp [State.wf_placeCluster _ _ _ _ _ _ _ _ _ _ ht hm]
    · exact absurd he (by simp)

theorem State.wf_tryRanges (s : State) (die : Nat) (only : Option Nat) (rs : List Range) {y : State} (he : s.tryRanges die only rs = some y)
    (hm : Memory.wf s.mem = true) : Memory.wf y.mem = true := by
  induction rs generalizing only with
  | nil => grind [State.tryRanges]
  | cons r rest ih =>
    rw [State.tryRanges] at he
    grind [State.wf_tryHead]

@[simp] theorem State.headsWait_mem (s : State) (die : Nat) : (State.headsWait s die).mem = s.mem := by
  unfold State.headsWait
  grind [State.post_mem, State.putRange_mem, foldl_mem]

@[simp] theorem State.wf_clusterPlace (s : State) (die l n : Nat) (hm : Memory.wf s.mem = true) : Memory.wf
    (State.clusterPlace s die l n).mem = true := by
  unfold State.clusterPlace
  grind [State.post_mem, State.wf_tryRanges, State.headsWait_mem]

@[simp] theorem State.wf_loaderWrite (s : State) (w : Who) (lin : Nat) (bs : List Byte) (hm : Memory.wf s.mem = true) : Memory.wf
    (State.loaderWrite s w lin bs).mem = true := by
  unfold State.loaderWrite
  grind [State.translateRange_mem, State.wf_engineWrite]

@[simp] theorem State.wf_appendHandler (s : State) (w : Who) (o : EmuObject) (code : List Byte) (sel : BitVec 16) (hm : Memory.wf s.mem = true) :
    Memory.wf (s.appendHandler w o code sel).mem = true := by
  have hread := @State.readLin_mem
  obtain ⟨append, ha⟩ : ∃ f, f = State.appendHandler := ⟨_, rfl⟩
  obtain ⟨read, hr⟩ : ∃ f, f = State.readLin := ⟨_, rfl⟩
  rw [← ha]
  delta State.appendHandler at ha
  rw [← hr] at ha hread
  clear hr
  subst ha
  grind [State.wf_loaderWrite]

@[simp] theorem State.wf_objectAccept (s : State) (o : EmuObject) (hm : Memory.wf s.mem = true) : Memory.wf (s.objectAccept o).mem = true := by
  have happend := @State.wf_appendHandler
  unfold State.objectAccept
  obtain ⟨append, ha⟩ : ∃ f, f = State.appendHandler := ⟨_, rfl⟩
  obtain ⟨code, hc⟩ : ∃ f, f = handlerCode := ⟨_, rfl⟩
  obtain ⟨size, hs⟩ : ∃ f, f = handlerSize := ⟨_, rfl⟩
  rw [← ha] at happend ⊢
  rw [← hc, ← hs]
  clear ha hc hs
  grind [foldl_wf, State.setHost_mem, State.setFreeCtr_mem]

@[simp] theorem State.wf_objectLoad (s : State) (o : EmuObject) (hm : Memory.wf s.mem = true) : Memory.wf (State.objectLoad s o).mem = true := by
  unfold State.objectLoad
  grind [State.send_mem, State.wf_objectAccept]

@[simp] theorem State.headBlocking_mem (s : State) (die l n cn : Nat) : (State.headBlocking s die l n cn).mem = s.mem := by
  unfold State.headBlocking
  (repeat' split) <;> simp

@[simp] theorem State.wf_releaseTeam (s : State) (t : Nat) (tm : Team) (hm : Memory.wf s.mem = true) : Memory.wf
    (State.releaseTeam s t tm).mem = true := by
  unfold State.releaseTeam
  grind [State.setTeams_mem, State.setClusters_mem, State.setBarriers_mem, State.updCore_mem, State.wf_releaseTiles, State.updArr_mem,
    State.unpair_mem, foldl_wf, foldl_mem]

@[simp] theorem State.wf_reportTeam (s : State) (tm : Team) (hm : Memory.wf s.mem = true) : Memory.wf (State.reportTeam s tm).mem = true := by
  unfold State.reportTeam
  grind [State.post_mem, State.wf_recordErr, State.setNodeRun_mem, State.wf_domainLost]

@[simp] theorem State.wf_teamRetire (s : State) (t : Nat) (hm : Memory.wf s.mem = true) : Memory.wf (State.teamRetire s t).mem = true := by
  unfold State.teamRetire
  grind [State.updDie_mem, State.post_mem, State.unpost_mem, State.wf_matrixLook, State.wf_clusterPlace, State.wf_releaseTeam, State.wf_reportTeam]

@[simp] theorem State.wf_beginSlice (s : State) (die ctx : Nat) (hm : Memory.wf s.mem = true) : Memory.wf
    (State.beginSlice s die ctx).mem = true := by
  unfold State.beginSlice
  grind [State.updDie_mem, State.updCtx_mem, State.post_mem, State.setRun_mem]

@[simp] theorem State.stopHeads_mem (s : State) (die ctx : Nat) : (State.stopHeads s die ctx).mem = s.mem := by
  unfold State.stopHeads
  simp

@[simp] theorem State.wf_takeDie (s : State) (die ctx : Nat) (hm : Memory.wf s.mem = true) : Memory.wf (State.takeDie s die ctx).mem = true := by
  unfold State.takeDie
  grind [State.post_mem, State.after_mem, State.wf_postDispatch, State.wf_clusterPlace, State.wf_beginSlice, State.stopHeads_mem, foldl_wf,
    foldl_mem]

@[simp] theorem State.wf_contextStart (s : State) (die ctx : Nat) (hm : Memory.wf s.mem = true) : Memory.wf
    (State.contextStart s die ctx).mem = true := by
  unfold State.contextStart
  grind [State.wf_takeDie]

@[simp] theorem State.wf_gainWork (s : State) (die ctx : Nat) (hm : Memory.wf s.mem = true) : Memory.wf (State.gainWork s die ctx).mem = true := by
  unfold State.gainWork
  (repeat' split) <;> simp [hm]

@[simp] theorem State.wf_flashGroup (s : State) (k : GKey) (g : Group) (hm : Memory.wf s.mem = true) : Memory.wf
    (State.flashGroup s k g).mem = true := by
  unfold State.flashGroup
  grind [State.putGroup_mem, State.putPen_mem, State.post_mem, State.wf_forgetWait, State.claimGrant_mem, State.unpost_mem, State.wf_stopToSave]

@[simp] theorem State.wf_sliceEnd (s : State) (die seq : Nat) (hm : Memory.wf s.mem = true) : Memory.wf (State.sliceEnd s die seq).mem = true := by
  unfold State.sliceEnd
  grind [State.updDie_mem, State.post_mem, State.wf_abort, State.wf_beginSlice, State.wf_contextStart, State.wf_flashGroup, foldl_wf, foldl_mem]

@[simp] theorem State.wf_flashbackTimeout (s : State) (k : GKey) (team : Nat) (hm : Memory.wf s.mem = true) : Memory.wf
    (State.flashbackTimeout s k team).mem = true := by
  unfold State.flashbackTimeout
  (repeat' split) <;> simp [hm]

@[simp] theorem State.recipeOf_mem (w : Who) (kr : KRec) (point n i : Nat) (s : State) : (State.recipeOf w kr point n i s).2.mem = s.mem := by
  induction n generalizing i s with
  | zero => rfl
  | succ n ih =>
    rw [State.recipeOf]
    grind [State.readLin_mem]

@[simp] theorem State.wf_writeSave (s : State) (k : GKey) (g : Group) (full : Bool) (hm : Memory.wf s.mem = true) : Memory.wf
    (State.writeSave s k g full).mem = true := by
  unfold State.writeSave
  grind [State.wf_writeLin, foldl_wf, foldl_mem]

@[simp] theorem State.wf_moveWaits (s : State) (old new : GKey) (team : Nat) (hm : Memory.wf s.mem = true) : Memory.wf
    (State.moveWaits s old new team).mem = true := by
  unfold State.moveWaits
  simp [hm]

@[simp] theorem State.wf_beginSave (s : State) (k : GKey) (g : Group) (full : Bool) (tm : Team) (hm : Memory.wf s.mem = true) : Memory.wf
    (State.beginSave s k g full tm).mem = true := by
  unfold State.beginSave
  grind [State.putGroup_mem, State.post_mem, State.recipeOf_mem]

@[simp] theorem State.wf_endSave (s : State) (k : GKey) (g : Group) (full : Bool) (tm : Team) (hm : Memory.wf s.mem = true) : Memory.wf
    (State.endSave s k g full tm).mem = true := by
  unfold State.endSave
  grind [State.setBarriers_mem, State.dropGroup_mem, State.updDie_mem, State.updTeam_mem, State.putPen_mem, State.post_mem, State.newId_mem,
    State.wf_dieClears, State.claimGrant_mem, State.wf_writeSave, State.wf_moveWaits]

@[simp] theorem State.wf_groupSave (s : State) (k : GKey) (team : Nat) (hm : Memory.wf s.mem = true) : Memory.wf
    (State.groupSave s k team).mem = true := by
  unfold State.groupSave
  (repeat' split) <;> simp [hm]

@[simp] theorem State.readSave_mem (s : State) (w : Who) (a : Nat) (g : Group) (full : Bool) : (s.readSave w a g full).2.mem = s.mem := by
  have hread := @State.readLin_mem
  obtain ⟨save, hs⟩ : ∃ f, f = State.readSave := ⟨_, rfl⟩
  obtain ⟨read, hr⟩ : ∃ f, f = State.readLin := ⟨_, rfl⟩
  rw [← hs]
  delta State.readSave at hs
  rw [← hr] at hs hread
  clear hr
  subst hs
  have hone : ∀ (x : Group × State) (o n : Nat) (f : Group → List Byte → Group), (match read x.2 w (a + o) n with
    | (.ok bs, t) => (f x.1 bs, t)
    | (.error _, t) => (x.1, t)).2.mem = x.2.mem := by
    intro x o n f
    split
    next h => exact mem_of_snd h (hread ..)
    next h => exact mem_of_snd h (hread ..)
  have hfold : ∀ (l : List (Nat × Lanes)) (p : Group × State),
    (l.foldl (fun (x : Group × State) e => (match read x.2 w (a + (0x1000 + 128 * e.1)) 128 with
    | (.ok bs, t) => ({ x.1 with regs := x.1.regs.put e.1 (lanesOfBytes bs) }, t)
    | (.error _, t) => (x.1, t))) p).2.mem = p.2.mem := by
    intro l p
    induction l generalizing p with
    | nil => rfl
    | cons e l ih => rw [List.foldl_cons, ih]; exact hone _ _ _ fun h bs => { h with regs := h.regs.put e.1 (lanesOfBytes bs) }
  refine (hfold _ _).trans ?_
  split
  · exact (hone _ 0xe80 128 fun h bs => { h with n1 := h.n1.map fun _ => lanesOfBytes bs }).trans
      ((hone _ 0xe00 128 fun h bs => { h with n0 := h.n0.map fun _ => lanesOfBytes bs }).trans (hone (g, s) 0 0x900 Group.ofBlock))
  · exact hone (g, s) 0 0x900 Group.ofBlock

@[simp] theorem State.wf_restoreWork (s : State) (k : GKey) (g : Group) (ctx : Nat) (hm : Memory.wf s.mem = true) : Memory.wf
    (State.restoreWork s k g ctx).mem = true := by
  unfold State.restoreWork
  (repeat' split) <;> simp [hm]

@[simp] theorem State.wf_groupRestore (s : State) (die id : Nat) (hm : Memory.wf s.mem = true) : Memory.wf
    (State.groupRestore s die id).mem = true := by
  unfold State.groupRestore
  grind [State.setBarriers_mem, State.putGroup_mem, State.updDie_mem, State.updTeam_mem, State.post_mem, State.deadlockCheck_mem,
    State.wf_postDispatch, State.wf_clusterPlace, State.wf_moveWaits, State.readSave_mem, State.wf_restoreWork]

@[simp] theorem State.wf_dropRange (s : State) (r : Range) (hm : Memory.wf s.mem = true) : Memory.wf (State.dropRange s r).mem = true := by
  unfold State.dropRange
  grind [State.post_mem, State.wf_recordErr, State.setNodeRun_mem]

@[simp] theorem State.gridPhases_mem (s : State) (l n : Nat) : (State.gridPhases s l n).mem = s.mem := by
  unfold State.gridPhases
  grind [State.tryPhase_mem, foldl_mem]

@[simp] theorem State.wf_killRanges (s : State) (ctx die : Nat) (hm : Memory.wf s.mem = true) : Memory.wf
    (State.killRanges s ctx die).mem = true := by
  unfold State.killRanges
  grind [State.updDie_mem, State.post_mem, State.wf_clusterPlace, State.wf_dropRange, State.gridPhases_mem, foldl_wf, foldl_mem]

@[simp] theorem State.wf_contextEnable (s : State) (d c : Nat) (hm : Memory.wf s.mem = true) : Memory.wf
    (State.contextEnable s d c).mem = true := by
  unfold State.contextEnable
  grind [State.updCtx_mem, State.wf_freePages, State.wf_gainWork]

@[simp] theorem State.forgetObjects_mem (s : State) (part ctx : Nat) : (State.forgetObjects s part ctx).mem = s.mem := by
  unfold State.forgetObjects
  (repeat' split) <;> simp

@[simp] theorem State.wf_contextOff (s : State) (d c : Nat) (hm : Memory.wf s.mem = true) : Memory.wf (State.contextOff s d c).mem = true := by
  unfold State.contextOff
  grind [State.updDie_mem, State.updCtx_mem, State.post_mem, State.setRun_mem, State.wf_contextStart, State.wf_killRanges, State.forgetObjects_mem,
    foldl_wf, foldl_mem]

@[simp] theorem State.wf_contextDisable (s : State) (d c : Nat) (hm : Memory.wf s.mem = true) : Memory.wf
    (State.contextDisable s d c).mem = true := by
  unfold State.contextDisable
  (repeat' split) <;> simp [hm]

@[simp] theorem State.wf_contextIdle (s : State) (d c : Nat) (hm : Memory.wf s.mem = true) : Memory.wf (State.contextIdle s d c).mem = true := by
  unfold State.contextIdle
  (repeat' split) <;> simp [hm]

@[simp] theorem State.wf_killTasks (s : State) (part ctx die : Nat) (hm : Memory.wf s.mem = true) : Memory.wf
    (State.killTasks s part ctx die).mem = true := by
  unfold State.killTasks
  grind [State.post_mem, State.updDomain_mem, State.wf_abort, State.wf_refillAll, State.wf_taskCommit, foldl_wf, foldl_mem]

@[simp] theorem State.wf_killKick (s : State) (l : Nat) (x : Launch) (hm : Memory.wf s.mem = true) : Memory.wf
    (State.killKick s l x).mem = true := by
  unfold State.killKick
  (repeat' split) <;> simp [hm]

@[simp] theorem State.wf_killKicks (s : State) (part ctx : Nat) (hm : Memory.wf s.mem = true) : Memory.wf
    (State.killKicks s part ctx).mem = true := by
  unfold State.killKicks
  grind [State.wf_killKick, foldl_wf, foldl_mem]

@[simp] theorem State.wf_killWaits (s : State) (part ctx : Nat) (hm : Memory.wf s.mem = true) : Memory.wf
    (State.killWaits s part ctx).mem = true := by
  unfold State.killWaits
  grind [State.wf_failNode, foldl_wf, foldl_mem]

@[simp] theorem State.wf_killCopies (s : State) (ctx die : Nat) (hm : Memory.wf s.mem = true) : Memory.wf
    (State.killCopies s ctx die).mem = true := by
  unfold State.killCopies
  grind [State.post_mem, State.wf_copyGone, State.wf_failNode, State.wf_copyBeat, foldl_wf, foldl_mem]

@[simp] theorem State.wf_killDrains (s : State) (ctx die : Nat) (hm : Memory.wf s.mem = true) : Memory.wf
    (State.killDrains s ctx die).mem = true := by
  unfold State.killDrains
  grind [State.updArr_mem, State.wf_armMatrix, State.wf_drainDone, foldl_wf, foldl_mem]

@[simp] theorem State.killTables_mem (s : State) (ctx die : Nat) : (State.killTables s ctx die).mem = s.mem := by
  unfold State.killTables
  simp

@[simp] theorem State.wf_contextKill (s : State) (die ctx : Nat) (hold : Bool) (hm : Memory.wf s.mem = true) : Memory.wf
    (State.contextKill s die ctx hold).mem = true := by
  unfold State.contextKill
  grind [State.setTeams_mem, State.updCtx_mem, State.post_mem, State.wf_killGroup, State.wf_killSaved, State.wf_killRanges, State.wf_contextIdle,
    State.wf_killTasks, State.wf_killKicks, State.wf_killWaits, State.wf_killCopies, State.wf_killDrains, State.killTables_mem, foldl_wf, foldl_mem]

@[simp] theorem State.wf_fqciWrite (s : State) (die ctx : Nat) (v : Word) (hm : Memory.wf s.mem = true) : Memory.wf
    (State.fqciWrite s die ctx v).mem = true := by
  unfold State.fqciWrite
  grind [State.updCtx_mem, State.wf_drainFaults]

@[simp] theorem State.wf_retryNow (s : State) (die : Nat) (hm : Memory.wf s.mem = true) : Memory.wf (State.retryNow s die).mem = true := by
  unfold State.retryNow
  grind [State.setAgenda_mem, State.post_mem, foldl_wf, foldl_mem]

@[simp] theorem State.wf_tlbinvPost (s : State) (d c : Nat) (hm : Memory.wf s.mem = true) : Memory.wf (State.tlbinvPost s d c).mem = true := by
  unfold State.tlbinvPost
  simp [hm]

@[simp] theorem State.wf_tlbinv (s : State) (d c : Nat) (v : BitVec 64) (hm : Memory.wf s.mem = true) : Memory.wf
    (State.tlbinv s d c v).mem = true := by
  unfold State.tlbinv
  grind [State.updCtx_mem, State.wf_tlbinvPost]

@[simp] theorem State.wf_tlbinvDone (s : State) (d c : Nat) (hm : Memory.wf s.mem = true) : Memory.wf (State.tlbinvDone s d c).mem = true := by
  unfold State.tlbinvDone
  grind [State.setCores_mem, State.setTlb_mem, State.updDie_mem, State.updCtx_mem, State.wf_retryNow, State.wf_tlbinvPost, foldl_wf, foldl_mem]

@[simp] theorem State.syncSel_mem (s : State) (part ctx sel : Nat) : (s.syncSel part ctx sel).mem = s.mem := by
  have hread := @State.readLin_mem
  unfold State.syncSel
  obtain ⟨read, hr⟩ : ∃ f, f = State.readLin := ⟨_, rfl⟩
  rw [← hr] at hread ⊢
  clear hr
  grind [foldl_mem, State.updDie_mem]

@[simp] theorem State.segsync_mem (s : State) (d c : Nat) (v : Word) : (State.segsync s d c v).mem = s.mem := by
  unfold State.segsync
  grind [State.updCtx_mem, State.within_mem, State.newId_mem]

@[simp] theorem State.descriptorSyncDone_mem (s : State) (part ctx : Nat) (sel : Option Nat) (ans : SyncAnswer) :
    (State.descriptorSyncDone s part ctx sel ans).mem = s.mem := by
  unfold State.descriptorSyncDone
  grind [State.updGroup_mem, State.updCtx_mem, State.syncSel_mem, foldl_mem]

@[simp] theorem State.wf_rbcmdAct (s : State) (d c idx op sel act : Nat) (a : BindAct) (first : Bool) (hm : Memory.wf s.mem = true) : Memory.wf
    (State.rbcmdAct s d c idx op sel act a first).mem = true := by
  unfold State.rbcmdAct
  grind [State.updCtx_mem, State.post_mem, State.within_mem, State.send_mem, State.wf_report, State.wf_hyperFault, State.stray_mem,
    State.wf_applyBind, State.wf_signalBy, State.descriptorSyncDone_mem]

@[simp] theorem State.wf_rbcmd (s : State) (d c idx op sel : Nat) (a : BindAct) (hm : Memory.wf s.mem = true) : Memory.wf
    (State.rbcmd s d c idx op sel a).mem = true := by
  unfold State.rbcmd
  grind [State.newId_mem, State.wf_rbcmdAct]

@[simp] theorem State.wakeSaved_mem (s : State) (die ctx page : Nat) : (State.wakeSaved s die ctx page).mem = s.mem := by
  unfold State.wakeSaved
  simp

@[simp] theorem State.wf_hostPageIn (s : State) (die ctx page : Nat) (hm : Memory.wf s.mem = true) : Memory.wf
    (State.hostPageIn s die ctx page).mem = true := by
  unfold State.hostPageIn
  grind [State.setTlb_mem, State.wf_resumeParked, State.wf_retryNow, State.wakeSaved_mem, foldl_wf, foldl_mem]

@[simp] theorem State.priSend_mem (fn n : Nat) (s : State) : (State.priSend fn n s).mem = s.mem := by
  induction n generalizing s with
  | zero => rfl
  | succ n ih =>
    rw [State.priSend]
    grind [State.setHost_mem, State.send_mem]

@[simp] theorem State.priAsk_mem (s : State) (die ctx page : Nat) (write : Bool) : (State.priAsk s die ctx page write).mem = s.mem := by
  unfold State.priAsk
  grind [State.setHost_mem, State.priSend_mem]

@[simp] theorem State.priAnswered_mem (s : State) (die ctx page : Nat) : (State.priAnswered s die ctx page).mem = s.mem := by
  unfold State.priAnswered
  grind [State.setHost_mem, State.priSend_mem, foldl_mem]

@[simp] theorem State.wf_atsDone (s : State) (die ctx page : Nat) (ok : Bool) (hm : Memory.wf s.mem = true) : Memory.wf
    (State.atsDone s die ctx page ok).mem = true := by
  unfold State.atsDone
  (repeat' split) <;> simp [hm]

@[simp] theorem State.wf_refuseGroup (s : State) (k : GKey) (g : Group) (hm : Memory.wf s.mem = true) : Memory.wf
    (State.refuseGroup s k g).mem = true := by
  unfold State.refuseGroup
  (repeat' split) <;> simp [hm]

@[simp] theorem State.wf_refuseLogs (s : State) (die ctx page : Nat) (hm : Memory.wf s.mem = true) : Memory.wf
    (State.refuseLogs s die ctx page).mem = true := by
  unfold State.refuseLogs
  grind [State.updGroup_mem, State.updTeam_mem, State.wf_report, foldl_wf, foldl_mem]

@[simp] theorem State.wf_refuseTeamLogs (s : State) (die ctx page : Nat) (hm : Memory.wf s.mem = true) : Memory.wf
    (State.refuseTeamLogs s die ctx page).mem = true := by
  unfold State.refuseTeamLogs
  grind [State.updTeam_mem, State.wf_report, foldl_wf, foldl_mem]

@[simp] theorem State.wf_refuseCopies (s : State) (die ctx page : Nat) (hm : Memory.wf s.mem = true) : Memory.wf
    (State.refuseCopies s die ctx page).mem = true := by
  unfold State.refuseCopies
  grind [State.updTeam_mem, State.wf_report, State.wf_copyGone, State.wf_failNode, State.copyReach_mem, foldl_wf, foldl_mem]

@[simp] theorem State.wf_priResponse (s0 : State) (die ctx page : Nat) (ok : Bool) (hm : Memory.wf s0.mem = true) : Memory.wf
    (State.priResponse s0 die ctx page ok).mem = true := by
  unfold State.priResponse
  grind [State.wf_report, State.wf_killSaved, State.wf_retryNow, State.wf_hostPageIn, State.priAnswered_mem, State.wf_refuseGroup,
    State.wf_refuseLogs, State.wf_refuseTeamLogs, State.wf_refuseCopies, foldl_wf, foldl_mem]

@[simp] theorem State.atsInvalidate_mem (s : State) (pasid lo hi : Nat) : (State.atsInvalidate s pasid lo hi).mem = s.mem := by
  unfold State.atsInvalidate
  simp

@[simp] theorem State.wf_queueEnable (s : State) (fn q : Nat) (hm : Memory.wf s.mem = true) : Memory.wf (State.queueEnable s fn q).mem = true := by
  unfold State.queueEnable
  grind [State.setFreeCtr_mem, State.putQueue_mem, State.wf_statusSoon]

@[simp] theorem State.drain_mem (s : State) (_fn q : Nat) : (State.drain s _fn q).mem = s.mem := by
  unfold State.drain
  grind [State.post_mem, State.putQueue_mem]

@[simp] theorem State.queueDisable_mem (s : State) (fn q : Nat) : (State.queueDisable s fn q).mem = s.mem := by
  unfold State.queueDisable
  simp

@[simp] theorem State.queueDrainDone_mem (s : State) (q : Nat) : (State.queueDrainDone s q).mem = s.mem := by
  unfold State.queueDrainDone
  grind [State.putQueue_mem]

@[simp] theorem State.wf_queueRetire (s : State) (q : Nat) (seq : Word) (irq : Bool) (hm : Memory.wf s.mem = true) : Memory.wf
    (State.queueRetire s q seq irq).mem = true := by
  unfold State.queueRetire
  simp [hm]

@[simp] theorem State.wf_statusWrite (s : State) (q : Nat) (hm : Memory.wf s.mem = true) : Memory.wf (State.statusWrite s q).mem = true := by
  unfold State.statusWrite
  grind [State.wf_writeBytes, State.send_mem, State.putQueue_mem, foldl_wf, foldl_mem]

@[simp] theorem State.wf_peekEvents (s : State) (part ctx l : Nat) (nodes : List Node) (hm : Memory.wf s.mem = true) : Memory.wf
    (State.peekEvents s part ctx l nodes).mem = true := by
  unfold State.peekEvents
  grind [State.post_mem, State.wf_evTake, State.wf_evPut, State.setSeen_mem, State.wf_eventActArrive, foldl_wf, foldl_mem]

@[simp] theorem State.wf_kick (s : State) (fn q off width : Nat) (v : BitVec 64) (hm : Memory.wf s.mem = true) : Memory.wf
    (State.kick s fn q off width v).mem = true := by
  unfold State.kick
  grind [State.setHost_mem, State.after_mem, State.newId_mem, State.putQueue_mem, State.wf_statusSoon, State.wf_queueRetire, State.wf_peekEvents]

@[simp] theorem State.wf_startHeld (s : State) (q : Nat) (hm : Memory.wf s.mem = true) : Memory.wf (State.startHeld s q).mem = true := by
  unfold State.startHeld
  grind [State.post_mem, foldl_wf, foldl_mem]

@[simp] theorem State.wf_startNodes (s : State) (l : Nat) (x : Launch) (hm : Memory.wf s.mem = true) : Memory.wf
    (State.startNodes s l x).mem = true := by
  unfold State.startNodes
  grind [State.after_mem, foldl_wf, foldl_mem]

@[simp] theorem State.wf_launchStart (s : State) (l : Nat) (hm : Memory.wf s.mem = true) : Memory.wf (State.launchStart s l).mem = true := by
  unfold State.launchStart
  (repeat' split) <;> simp [hm]

@[simp] theorem State.wf_launchRetire (s : State) (l : Nat) (hm : Memory.wf s.mem = true) : Memory.wf (State.launchRetire s l).mem = true := by
  unfold State.launchRetire
  grind [State.setHost_mem, State.post_mem, State.after_mem, State.wf_signal, State.wf_eventActArrive, State.queueDrainDone_mem,
    State.wf_queueRetire, State.wf_startHeld]

@[simp] theorem State.wf_wakeOrdered (s : State) (part ctx : Nat) (hm : Memory.wf s.mem = true) : Memory.wf
    (State.wakeOrdered s part ctx).mem = true := by
  unfold State.wakeOrdered
  grind [State.post_mem, foldl_wf, foldl_mem]

@[simp] theorem State.wf_nodeFinish (s : State) (l n : Nat) (hm : Memory.wf s.mem = true) : Memory.wf (State.nodeFinish s l n).mem = true := by
  unfold State.nodeFinish
  grind [State.setHost_mem, State.post_mem, State.wf_recordErr, State.wf_startNodes, State.wf_launchRetire, State.wf_wakeOrdered]

theorem State.readKernel_mem_kernel (s : State) (w : Who) (idx : Nat) {kr : KRec} {code : SegReg} {y : State}
    (he : s.readKernel w idx = .kernel kr code y) :
    y.mem = s.mem := by
  have hread := @State.readLin_mem
  unfold State.readKernel at he
  obtain ⟨read, hr⟩ : ∃ f, f = State.readLin := ⟨_, rfl⟩
  rw [← hr] at hread he
  clear hr
  grind [State.updDie_mem]

theorem State.readKernel_mem_unbound (s : State) (w : Who) (idx : Nat) {state lin : Nat} {y : State}
    (he : s.readKernel w idx = .unbound state lin y) :
    y.mem = s.mem := by
  have hread := @State.readLin_mem
  unfold State.readKernel at he
  obtain ⟨read, hr⟩ : ∃ f, f = State.readLin := ⟨_, rfl⟩
  rw [← hr] at hread he
  clear hr
  grind [State.updDie_mem]

theorem State.readKernel_mem_fails (s : State) (w : Who) (idx : Nat) {y : State} (he : s.readKernel w idx = .fails y) :
    y.mem = s.mem := by
  have hread := @State.readLin_mem
  unfold State.readKernel at he
  obtain ⟨read, hr⟩ : ∃ f, f = State.readLin := ⟨_, rfl⟩
  rw [← hr] at hread he
  clear hr
  grind [State.updDie_mem]

theorem State.readKernel_mem_fault (s : State) (w : Who) (idx : Nat) {f : XFault} {lin : Nat} {y : State}
    (he : s.readKernel w idx = .fault f lin y) :
    y.mem = s.mem := by
  have hread := @State.readLin_mem
  unfold State.readKernel at he
  obtain ⟨read, hr⟩ : ∃ f, f = State.readLin := ⟨_, rfl⟩
  rw [← hr] at hread he
  clear hr
  grind [State.updDie_mem]

@[simp] theorem State.emptied_mem (s : State) (die : Nat) : (State.emptied s die).mem = s.mem := by
  unfold State.emptied
  simp

@[simp] theorem State.wf_mgmt (s : State) (die : Nat) (e : Event) (hm : Memory.wf s.mem = true) : Memory.wf (State.mgmt s die e).mem = true := by
  unfold State.mgmt
  grind [State.post_mem, State.wf_sendFlit]

@[simp] theorem State.wf_giveRanges (s : State) (l n ctx : Nat) (shares : List (Nat × Nat × Nat)) (hm : Memory.wf s.mem = true) : Memory.wf
    (State.giveRanges s l n ctx shares).mem = true := by
  unfold State.giveRanges
  grind [State.updDie_mem, State.wf_clusterPlace, State.wf_gainWork, State.wf_mgmt, foldl_wf, foldl_mem]

@[simp] theorem State.wf_openDomain (s : State) (l n : Nat) (x : Launch) (code : SegReg) (ds : List Nat) (recs : List RecWords)
    (hm : Memory.wf s.mem = true) : Memory.wf (State.openDomain s l n x code ds recs).mem = true := by
  unfold State.openDomain
  grind [State.post_mem, State.newId_mem, State.putDomain_mem, State.wf_enqueueRec, State.wf_frontierSample, foldl_wf, foldl_mem]

@[simp] theorem State.wf_gridGo (s : State) (l n : Nat) (x : Launch) (nd : Node) (kr : KRec) (code : SegReg) (hm : Memory.wf s.mem = true)
    : Memory.wf (State.gridGo s l n x nd kr code).mem = true := by
  unfold State.gridGo
  grind [State.setHost_mem, State.wf_failNodeWith, State.wf_failNode, State.wf_giveRanges, State.wf_openDomain]

@[simp] theorem State.wf_gridStart (s : State) (l n : Nat) (x : Launch) (nd : Node) (r : NodeRun) (hm : Memory.wf s.mem = true) : Memory.wf
    (State.gridStart s l n x nd r).mem = true := by
  unfold State.gridStart
  grind [State.post_mem, State.send_mem, State.wf_report, State.wf_hyperFault, State.stray_mem, State.wf_failNode, State.setNodeRun_mem,
    State.readKernel_mem_kernel, State.readKernel_mem_unbound, State.readKernel_mem_fails, State.readKernel_mem_fault, State.wf_gridGo]

@[simp] theorem State.wf_copyNode (s : State) (l n : Nat) (x : Launch) (nd : Node) (hm : Memory.wf s.mem = true) : Memory.wf
    (State.copyNode s l n x nd).mem = true := by
  unfold State.copyNode
  grind [State.post_mem, State.newId_mem, State.wf_addCopy, State.setNodeRun_mem]

@[simp] theorem State.wf_shardCut (s : State) (h : Hop) (part i : Nat) (hm : Memory.wf s.mem = true) : Memory.wf
    (State.shardCut s h part i).mem = true := by
  unfold State.shardCut
  grind [State.setAgenda_mem, State.post_mem, State.stray_mem]

@[simp] theorem State.wf_shardHop (s : State) (part i d : Nat) (hops : List Hop) (hm : Memory.wf s.mem = true) :
    Memory.wf (s.shardHop part i d hops).mem = true := by
  cases hops with
  | nil => exact hm
  | cons hop rest => grind [State.shardHop, State.wf_sendFlit, State.wf_shardCut]

@[simp] theorem State.wf_transitHop (s : State) (part i : Nat) (hops : List Hop) (hm : Memory.wf s.mem = true) :
    Memory.wf (s.transitHop part i hops).mem = true := by
  cases hops with
  | nil => exact hm
  | cons hop rest => grind [State.transitHop, State.wf_sendFlit, State.wf_shardCut]

@[simp] theorem State.wf_sendShard (s : State) (part i len : Nat) (ds : List Nat) (hm : Memory.wf s.mem = true) : Memory.wf
    (State.sendShard s part i len ds).mem = true := by
  unfold State.sendShard
  grind [State.wf_shardHop, foldl_wf, foldl_mem]

@[simp] theorem State.wf_fetchShard (s : State) (part i : Nat) (x : Shard) (pasid : Nat) (hm : Memory.wf s.mem = true) : Memory.wf
    (State.fetchShard s part i x pasid).mem = true := by
  unfold State.fetchShard
  grind [State.setFreeCtr_mem, State.after_mem, State.putPart_mem, State.wf_transitHop, foldl_wf, foldl_mem]

@[simp] theorem State.wf_loadFrom (part n : Nat) (s : State) (hm : Memory.wf s.mem = true) : Memory.wf (State.loadFrom part n s).mem = true := by
  induction n generalizing s with
  | zero => exact hm
  | succ n ih =>
    rw [State.loadFrom]
    dsimp only
    split
    · split
      · exact ih _ (by simp [hm])
      · split
        · exact ih _ (by simp [hm])
        · split
          · exact ih _ (by simp [hm])
          · split
            · simp [hm]
            · simp [hm]
    · exact hm

@[simp] theorem State.wf_loadNext (s : State) (part : Nat) (hm : Memory.wf s.mem = true) : Memory.wf (State.loadNext s part).mem = true := by
  unfold State.loadNext
  simp [hm]

@[simp] theorem State.wf_loadEnd (s : State) (part : Nat) (ld : Load) (st i : Nat) (hm : Memory.wf s.mem = true) : Memory.wf
    (State.loadEnd s part ld st i).mem = true := by
  unfold State.loadEnd
  grind [State.post_mem, State.putPart_mem, State.wf_failNodeWith, State.wf_nodeFinish]

@[simp] theorem State.wf_storeShard (s : State) (part ctx : Nat) (ld : Load) (x : Shard) (bs : List Byte) (hm : Memory.wf s.mem = true)
    : Memory.wf (State.storeShard s part ctx ld x bs).mem = true := by
  unfold State.storeShard
  grind [State.wf_writeBytes, State.updDie_mem, State.wf_engineWrite, foldl_wf, foldl_mem]

@[simp] theorem State.wf_shardReceive (s : State) (part i : Nat) (got : ShardGot) (hm : Memory.wf s.mem = true) : Memory.wf
    (State.shardReceive s part i got).mem = true := by
  unfold State.shardReceive
  (repeat' split) <;> simp [hm]

@[simp] theorem State.wf_generationPublish (s : State) (part : Nat) (hm : Memory.wf s.mem = true) : Memory.wf
    (State.generationPublish s part).mem = true := by
  unfold State.generationPublish
  grind [State.updDie_mem, State.post_mem, State.putPart_mem, State.wf_loadEnd, foldl_wf, foldl_mem]

@[simp] theorem State.wf_launchArrives (s : State) (l : Nat) (x : Launch) (k : GKey) (team st : Nat) (hm : Memory.wf s.mem = true) : Memory.wf
    (State.launchArrives s l x k team st).mem = true := by
  unfold State.launchArrives
  grind [State.setHost_mem, State.putAny_mem, State.post_mem, State.newId_mem]

@[simp] theorem State.wf_nodeStart (s : State) (l n : Nat) (hm : Memory.wf s.mem = true) : Memory.wf (State.nodeStart s l n).mem = true := by
  unfold State.nodeStart
  grind [State.post_mem, State.after_mem, State.putPart_mem, State.wf_signal, State.wf_eventActArrive, State.setNodeRun_mem, State.wf_nodeFinish,
    State.wf_gridStart, State.wf_copyNode, State.wf_loadNext, State.wf_launchArrives]

@[simp] theorem State.wf_sweepNodes (s : State) (hm : Memory.wf s.mem = true) : Memory.wf s.sweepNodes.mem = true := by
  have hpost := @State.post_mem
  unfold State.sweepNodes
  refine foldl_wf (fun p hp => ?_) _ hm
  refine foldl_wf (fun q hq => ?_) _ hp
  dsimp only
  grind [State.setNodeRun_mem]

@[simp] theorem State.gcmd_mem (s : State) (fn : Nat) (v : BitVec 64) : (State.gcmd s fn v).mem = s.mem := by
  unfold State.gcmd
  grind [State.setHost_mem, State.putPart_mem, State.putGreg_mem]

@[simp] theorem State.gunreg_mem (s : State) (fn : Nat) (h : Word) : (State.gunreg s fn h).mem = s.mem := by
  unfold State.gunreg
  simp

@[simp] theorem State.wf_stagePost (s : State) (hm : Memory.wf s.mem = true) : Memory.wf (State.stagePost s).mem = true := by
  unfold State.stagePost
  (repeat' split) <;> simp [hm]

@[simp] theorem State.wf_cleared (s : State) (hm : Memory.wf s.mem = true) : Memory.wf s.cleared.mem = true := by
  simp only [Memory.wf, Bool.and_eq_true, List.all_eq_true] at hm ⊢
  exact ⟨Tbl.sorted_filter _ hm.1, fun e he => hm.2 e (List.mem_of_mem_filter he)⟩

@[simp] theorem State.wf_startUp (s : State) (hm : Memory.wf s.mem = true) : Memory.wf (State.startUp s).mem = true := by
  unfold State.startUp
  (repeat' split) <;> simp [hm]

theorem State.loadCopy_mem (s : State) {y : State} (he : State.loadCopy s = some y) : y.mem = s.mem := by
  unfold State.loadCopy at he
  grind [State.setBoot_mem]

@[simp] theorem State.setWall_mem (s : State) (l : Nat) (closed transit : Bool) : (State.setWall s l closed transit).mem = s.mem := by
  unfold State.setWall
  simp

@[simp] theorem State.wf_retireDie (s : State) (d : Nat) (hm : Memory.wf s.mem = true) : Memory.wf (State.retireDie s d).mem = true := by
  unfold State.retireDie
  grind [State.setBoot_mem, State.setFabric_mem, State.putPort_mem, State.wf_cleared, State.setWall_mem, foldl_wf, foldl_mem]

@[simp] theorem State.wf_dieMargin (s : State) (d : Nat) (hm : Memory.wf s.mem = true) : Memory.wf (State.dieMargin s d).mem = true := by
  unfold State.dieMargin
  grind [State.updDie_mem, State.send_mem, State.wf_retireDie]

@[simp] theorem State.wf_marginCheck (s : State) (hm : Memory.wf s.mem = true) : Memory.wf (State.marginCheck s).mem = true := by
  unfold State.marginCheck
  grind [State.setFreeCtr_mem, State.post_mem, State.wf_dieMargin, foldl_wf, foldl_mem]

@[simp] theorem State.wf_stageAdvance (s : State) (out : StageOut) (hm : Memory.wf s.mem = true) : Memory.wf
    (State.stageAdvance s out).mem = true := by
  unfold State.stageAdvance
  grind [State.setBoot_mem, State.post_mem, State.wf_stagePost, State.loadCopy_mem, State.wf_marginCheck]

@[simp] theorem State.thermalWarning_mem (s : State) (d : Nat) : (State.thermalWarning s d).mem = s.mem := by
  unfold State.thermalWarning
  simp

@[simp] theorem State.wf_thermalTrip (s : State) (d : Nat) (hm : Memory.wf s.mem = true) : Memory.wf (State.thermalTrip s d).mem = true := by
  unfold State.thermalTrip
  simp [hm]

@[simp] theorem State.mailDone_mem (s : State) (merr : Byte) : (State.mailDone s merr).mem = s.mem := by
  unfold State.mailDone
  simp

@[simp] theorem State.mailStage_mem (s : State) : (State.mailStage s).mem = s.mem := by
  unfold State.mailStage
  simp

@[simp] theorem State.mailMargin_mem (s : State) : (State.mailMargin s).mem = s.mem := by
  unfold State.mailMargin
  simp

@[simp] theorem State.mailRead_mem (s : State) (n : Nat) : (State.mailRead s n).2.mem = s.mem := by
  unfold State.mailRead
  (repeat' split) <;> simp

@[simp] theorem State.mailStagebits_mem (s : State) : (State.mailStagebits s).mem = s.mem := by
  unfold State.mailStagebits
  grind [State.setFreeCtr_mem, State.setBoot_mem, State.mailDone_mem, State.mailRead_mem]

@[simp] theorem State.mailKey_mem (s : State) (enrol : Bool) : (State.mailKey s enrol).mem = s.mem := by
  unfold State.mailKey
  grind [State.setFreeCtr_mem, State.setBoot_mem, State.mailDone_mem, State.mailRead_mem]

@[simp] theorem State.pcmdDone_mem (s : State) (e : Byte × Nat) : (State.pcmdDone s e).mem = s.mem := by
  unfold State.pcmdDone
  grind [State.setFabric_mem]

@[simp] theorem State.apply_mem (s : State) : (State.apply s).mem = s.mem := by
  unfold State.apply
  (repeat' split) <;> simp

@[simp] theorem State.wf_retire (s : State) (d : Nat) (hm : Memory.wf s.mem = true) : Memory.wf (State.retire s d).mem = true := by
  unfold State.retire
  (repeat' split) <;> simp [hm]

@[simp] theorem State.fwctlWrite_mem (s : State) (l : Nat) (v : Word) : (State.fwctlWrite s l v).mem = s.mem := by
  unfold State.fwctlWrite
  grind [State.putWall_mem, State.setWall_mem]

@[simp] theorem State.wf_laneCrossed (s : State) (id lane : Nat) (hm : Memory.wf s.mem = true) : Memory.wf
    (State.laneCrossed s id lane).mem = true := by
  unfold State.laneCrossed
  grind [State.setAccess_mem, State.wf_sendLane, State.wf_sendBack]

@[simp] theorem State.wf_outboundHop (s : State) (p : Nat) (data : Option (List Byte)) (hops : List Hop) (hm : Memory.wf s.mem = true) :
    Memory.wf (s.outboundHop p data hops).mem = true := by
  cases hops with
  | nil => exact hm
  | cons hop rest => grind [State.outboundHop, State.send_mem, State.stray_mem, State.wf_sendFlit]

@[simp] theorem State.wf_insideHop (s : State) (p : Nat) (wr : Bool) (run : Run) (data : List Byte) (hops : List Hop)
    (hm : Memory.wf s.mem = true) :
    Memory.wf (s.insideHop p wr run data hops).mem = true := by
  cases hops with
  | nil => grind [State.insideHop, State.wf_engineWrite, State.stray_mem, State.wf_sendFlit, State.wf_outboundHop]
  | cons hop rest => grind [State.insideHop, State.wf_engineWrite, State.stray_mem, State.wf_sendFlit, State.wf_outboundHop]

@[simp] theorem State.wf_inboundLook (s : State) (p : Nat) (wr : Bool) (off width : Nat) (data : List Byte) (hm : Memory.wf s.mem = true)
    : Memory.wf (State.inboundLook s p wr off width data).mem = true := by
  unfold State.inboundLook
  (repeat' split) <;> simp [hm]

@[simp] theorem State.wf_cargoMoves (s : State) (c : Cargo) (hm : Memory.wf s.mem = true) : Memory.wf (State.cargoMoves s c).mem = true := by
  unfold State.cargoMoves
  grind [State.post_mem, State.wf_sendFlit, State.wf_readHop, State.wf_drainHop, State.wf_drainComplete, State.wf_writeHop, State.drain_mem,
    State.wf_mgmt, State.wf_shardHop, State.wf_transitHop, State.wf_laneCrossed, State.wf_outboundHop, State.wf_insideHop, State.wf_inboundLook]

@[simp] theorem State.wf_stopLook (s : State) (l : Nat) (up : Bool) (c : FlitClass) (hm : Memory.wf s.mem = true) : Memory.wf
    (State.stopLook s l up c).mem = true := by
  unfold State.stopLook
  grind [State.setFreeCtr_mem, State.setFabric_mem, State.post_mem]

@[simp] theorem State.wf_againOn (s : State) (h : Hop) (c : Cargo) (hm : Memory.wf s.mem = true) : Memory.wf (State.againOn s h c).mem = true := by
  unfold State.againOn
  grind [State.wf_laneHop, State.drain_mem, State.wf_mgmt, State.wf_cargoMoves]

@[simp] theorem State.wf_linkFlitArrive (s : State) (l : Nat) (up : Bool) (c : FlitClass) (leaves : Bool) (hm : Memory.wf s.mem = true)
    : Memory.wf (State.linkFlitArrive s l up c leaves).mem = true := by
  unfold State.linkFlitArrive
  grind [State.setFabric_mem, State.post_mem, State.after_mem, State.putWall_mem, State.wf_cargoMoves, State.wf_stopLook]

@[simp] theorem State.wf_linkStopSignal (s : State) (l : Nat) (up : Bool) (c : FlitClass) (hm : Memory.wf s.mem = true) : Memory.wf
    (State.linkStopSignal s l up c).mem = true := by
  unfold State.linkStopSignal
  grind [State.setFabric_mem, State.post_mem, State.wf_againOn, foldl_wf, foldl_mem]

@[simp] theorem State.wf_copiesGoOn (s : State) (ck : CoreKey) (hm : Memory.wf s.mem = true) : Memory.wf (State.copiesGoOn s ck).mem = true := by
  unfold State.copiesGoOn
  grind [State.post_mem, State.wf_copyBeat, State.wf_copyComplete, foldl_wf, foldl_mem]

@[simp] theorem State.wf_drainsGoOn (s : State) (ck : CoreKey) (hm : Memory.wf s.mem = true) : Memory.wf (State.drainsGoOn s ck).mem = true := by
  unfold State.drainsGoOn
  grind [State.post_mem, State.wf_drainComplete, State.drain_mem, foldl_wf, foldl_mem]

@[simp] theorem State.wf_readsGoOn (s : State) (k : GKey) (team : Nat) (hm : Memory.wf s.mem = true) : Memory.wf
    (State.readsGoOn s k team).mem = true := by
  unfold State.readsGoOn
  grind [State.setFabric_mem, State.wf_cargoMoves, foldl_wf, foldl_mem]

@[simp] theorem State.wf_readsEnd (s : State) (k : GKey) (team : Nat) (hm : Memory.wf s.mem = true) : Memory.wf
    (State.readsEnd s k team).mem = true := by
  unfold State.readsEnd
  grind [State.setFabric_mem, State.post_mem, State.wf_tileLoadLand, foldl_wf, foldl_mem]

@[simp] theorem State.wf_unfreezeResume (s : State) (m : Master) (hm : Memory.wf s.mem = true) : Memory.wf
    (State.unfreezeResume s m).mem = true := by
  unfold State.unfreezeResume
  grind [State.setFabric_mem, State.updDie_mem, State.post_mem, State.unpost_mem, State.putArr_mem, State.wf_armMatrix, State.putCopies_mem,
    State.wf_resumeParked, State.wf_cargoMoves, State.wf_copiesGoOn, State.wf_drainsGoOn, State.wf_readsGoOn, foldl_wf, foldl_mem]

@[simp] theorem State.wf_unfreezeKill (s : State) (m : Master) (hm : Memory.wf s.mem = true) : Memory.wf (State.unfreezeKill s m).mem = true := by
  unfold State.unfreezeKill
  grind [State.setFabric_mem, State.setAccess_mem, State.wf_killGroup, State.updArr_mem, State.wf_armMatrix, State.wf_drainDone, State.wf_copyGone,
    State.wf_failNode, State.wf_killSaved, State.wf_copiesGoOn, State.wf_drainsGoOn, State.wf_readsEnd, foldl_wf, foldl_mem]

@[simp] theorem State.fpctlWrite_mem (s : State) (p : Nat) (v : Word) : (State.fpctlWrite s p v).mem = s.mem := by
  unfold State.fpctlWrite
  simp

@[simp] theorem State.portTraining_mem (s : State) (p : Nat) (up : Bool) : (State.portTraining s p up).mem = s.mem := by
  unfold State.portTraining
  simp

@[simp] theorem State.wf_fabricRequest (s : State) (p : Nat) (wr : Bool) (off width : Nat) (data : List Byte) (hm : Memory.wf s.mem = true)
    : Memory.wf (State.fabricRequest s p wr off width data).mem = true := by
  unfold State.fabricRequest
  grind [State.setFabric_mem, State.after_mem, State.wf_stopLook, State.wf_linkFlitArrive, foldl_wf, foldl_mem]

theorem State.wf_refusedEntry (s : State) (id : Nat) (a : Access) {y : State} (he : State.refusedEntry s id a = some y)
    (hm : Memory.wf s.mem = true) : Memory.wf y.mem = true := by
  unfold State.refusedEntry at he
  grind [State.setAccess_mem, State.putGroup_mem, State.putTeam_mem, State.after_mem, State.wf_accessComplete, State.unpost_mem]

@[simp] theorem State.wf_refusedLoad (s : State) (id : Nat) (a : Access) (x : LaneAcc) (hm : Memory.wf s.mem = true) : Memory.wf
    (State.refusedLoad s id a x).mem = true := by
  unfold State.refusedLoad
  grind [State.setAccess_mem, State.leavePen_mem, State.wf_report, State.wf_loadReturn, State.unpost_mem]

@[simp] theorem State.wf_refusedStore (s : State) (id : Nat) (a : Access) (x : LaneAcc) (hm : Memory.wf s.mem = true) : Memory.wf
    (State.refusedStore s id a x).mem = true := by
  unfold State.refusedStore
  grind [State.setAccess_mem, State.putGroup_mem, State.updTeam_mem, State.after_mem, State.wf_report, State.wf_sendLane]

@[simp] theorem State.wf_fabricRefused (s : State) (id lane : Nat) (hm : Memory.wf s.mem = true) : Memory.wf
    (s.fabricRefused id lane).mem = true := by
  unfold State.fabricRefused
  split
  · split
    · exact hm
    · split
      · split
        · exact hm
        · simp [hm]
      · cases h : s.refusedEntry id _ with
        | none => simp [hm]
        | some t => exact State.wf_refusedEntry _ _ _ h hm
  · split
    · split
      · split
        · simp [hm]
        · exact hm
      · exact hm
    · simp [hm]

@[simp] theorem State.wf_eccTeam (s : State) (t : Nat) (hm : Memory.wf s.mem = true) : Memory.wf (State.eccTeam s t).mem = true := by
  unfold State.eccTeam
  grind [State.updTeam_mem, State.wf_killGroup, State.wf_abort, State.wf_killSaved, foldl_wf, foldl_mem]

@[simp] theorem State.wf_grainLost (s : State) (k : Nat) (g : Grain) (hm : Memory.wf s.mem = true) : Memory.wf
    (State.grainLost s k g).mem = true := by
  unfold State.grainLost
  grind [State.setFreeCtr_mem, State.setPoison_mem, State.wf_writeByte, foldl_wf, foldl_mem]

@[simp] theorem State.wf_draftError (s : State) (part ctx id grain : Nat) (hm : Memory.wf s.mem = true) : Memory.wf
    (State.draftError s part ctx id grain).mem = true := by
  unfold State.draftError
  grind [State.setGroups_mem, State.updDie_mem, State.updDomain_mem, State.wf_abort, State.wf_grainLost, foldl_wf, foldl_mem]

@[simp] theorem State.wf_uncorrectable (s : State) (e : ErrorAt) (hm : Memory.wf s.mem = true) : Memory.wf
    (State.uncorrectable s e).mem = true := by
  unfold State.uncorrectable
  grind [State.setPoison_mem, State.updDie_mem, State.putWq_mem, State.wf_eccTeam, State.wf_draftError]

@[simp] theorem State.wf_faultRetry (s : State) (w : RetryOf) (hm : Memory.wf s.mem = true) : Memory.wf (State.faultRetry s w).mem = true := by
  unfold State.faultRetry
  (repeat' split) <;> simp [hm]

@[simp] theorem State.wf_settle (s : State) (hm : Memory.wf s.mem = true) : Memory.wf (State.settle s).mem = true := by
  unfold State.settle
  simp [hm]

@[simp] theorem State.grant_mem (s : State) (p : PenKey) : (State.grant s p).mem = s.mem := by
  unfold State.grant
  (repeat' split) <;> simp

@[simp] theorem State.wf_placeWords (s : State) (w : Word) (x : Option Word) (hm : Memory.wf s.mem = true) : Memory.wf
    (State.placeWords s w x).mem = true := by
  unfold State.placeWords
  simp [hm]

@[simp] theorem State.wf_withFetchWord (s : State) (nbits w : Nat) (hm : Memory.wf s.mem = true) : Memory.wf
    (State.withFetchWord s nbits w).mem = true := by
  unfold State.withFetchWord
  simp [hm]

end Sys2Proof.Machine
end

section
namespace Sys2Proof.Machine

/-! ### What the instructions answer: each acts through `withIssuer` -/

theorem State.wf_withIssuer {s t : State} {f : GKey → Group → Clause → State} (he : s.withIssuer f = .next t)
    (hf : ∀ k g c, Memory.wf (f k g c).mem = true) : Memory.wf t.mem = true := by
  unfold State.withIssuer at he
  grind
theorem wf_ite {p : Prop} [Decidable p] {a b : State} (ha : Memory.wf a.mem = true) (hb : Memory.wf b.mem = true) :
    Memory.wf (if p then a else b).mem = true := by
  split
  · exact ha
  · exact hb
theorem State.wf_runV (s : State) (op : Nat) (v : VArgs) (f : GKey → Group → VShape → VEffect) {t : State} (he : State.runV s op v f = .next t)
    (hm : Memory.wf s.mem = true) : Memory.wf t.mem = true := by
  unfold State.runV at he
  refine State.wf_withIssuer he fun k g c => ?_
  clear he
  grind [State.advance_mem, State.hold_mem, State.wf_raise]

theorem State.wf_laneImm (s : State) (f : VIFmt) (reads : Bool) (h : Word → Word) {t : State} (he : State.laneImm s f reads h = .next t)
    (hm : Memory.wf s.mem = true) : Memory.wf t.mem = true := by
  unfold State.laneImm at he
  refine State.wf_withIssuer he fun k g c => ?_
  clear he
  grind [State.advance_mem, State.hold_mem, State.wf_raise]

theorem State.wf_scalarImm (s : State) (f : VIFmt) (h : Word → Word) {t : State} (he : State.scalarImm s f h = .next t)
    (hm : Memory.wf s.mem = true) : Memory.wf t.mem = true := by
  unfold State.scalarImm at he
  refine State.wf_withIssuer he fun k g c => ?_
  clear he
  grind [State.advance_mem, State.hold_mem, State.wf_raise]

theorem State.wf_memOp (s : State) (a : MArgs) {t : State} (he : State.memOp s a = .next t) (hm : Memory.wf s.mem = true)
    : Memory.wf t.mem = true := by
  unfold State.memOp at he
  refine State.wf_withIssuer he fun k g c => ?_
  clear he
  grind [State.hold_mem, State.wf_raise, State.wf_issueAccess]

theorem State.wf_fenceOp (s : State) {t : State} (he : State.fenceOp s = .next t) (hm : Memory.wf s.mem = true) : Memory.wf t.mem = true := by
  unfold State.fenceOp at he
  refine State.wf_withIssuer he fun k g c => ?_
  clear he
  grind [State.advance_mem, State.hold_mem, State.wf_raise, State.waitAcquire_mem]

theorem State.wf_fencexOp (s : State) {t : State} (he : State.fencexOp s = .next t) (hm : Memory.wf s.mem = true) : Memory.wf t.mem = true := by
  unfold State.fencexOp at he
  refine State.wf_withIssuer he fun k g c => ?_
  clear he
  grind [State.advance_mem, State.hold_mem, State.wf_raise, State.waitAcquire_mem]

theorem State.wf_linkOp (s : State) (f : GFmt) {t : State} (he : State.linkOp s f = .next t) (hm : Memory.wf s.mem = true)
    : Memory.wf t.mem = true := by
  unfold State.linkOp at he
  refine State.wf_withIssuer he fun k g c => ?_
  clear he
  grind [State.hold_mem, State.wf_raise, State.readLin_mem, State.waitAcquire_mem, State.wf_tableFault, State.wf_linkTrapOp, State.wf_segLoadOp]

theorem State.wf_gldOp (s : State) (f : GFmt) {t : State} (he : State.gldOp s f = .next t) (hm : Memory.wf s.mem = true)
    : Memory.wf t.mem = true := by
  unfold State.gldOp at he
  refine State.wf_withIssuer he fun k g c => ?_
  clear he
  grind [State.hold_mem, State.wf_raise, State.waitAcquire_mem, State.wf_segLoadOp]

theorem State.wf_gmovOp (s : State) (f : GFmt) {t : State} (he : State.gmovOp s f = .next t) (hm : Memory.wf s.mem = true)
    : Memory.wf t.mem = true := by
  unfold State.gmovOp at he
  refine State.wf_withIssuer he fun k g c => ?_
  clear he
  grind [State.advance_mem, State.wf_raise, State.waitAcquire_mem]

theorem State.wf_segqOp (s : State) (f : GFmt) {t : State} (he : State.segqOp s f = .next t) (hm : Memory.wf s.mem = true)
    : Memory.wf t.mem = true := by
  have hread := @State.readLin_mem
  obtain ⟨read, hr⟩ : ∃ r, r = State.readLin := ⟨_, rfl⟩
  obtain ⟨op, ho⟩ : ∃ r, r = State.segqOp := ⟨_, rfl⟩
  rw [← ho] at he
  delta State.segqOp at ho
  rw [← hr] at ho hread
  clear hr
  subst ho
  refine State.wf_withIssuer he fun k g c => ?_
  clear he
  dsimp only
  generalize g.pending _ = b1
  cases b1
  case true => simpa using hm
  rw [if_neg (by simp)]
  split
  · exact State.wf_raise _ _ _ _ hm
  split
  · exact State.wf_raise _ _ _ _ hm
  split
  · simpa using hm
  split
  · simpa using hm
  split
  · simpa using hm
  split
  · simpa using hm
  generalize hr : read s _ _ _ = p
  have hp : p.2.mem = s.mem := hr ▸ hread ..
  clear hr
  split
  next e s1 => simp [show s1.mem = s.mem from hp, hm]
  next bs s1 => simp [show s1.mem = s.mem from hp, hm]

theorem State.wf_bindInstr (s : State) (f : GFmt) {t : State} (he : State.bindInstr s f = .next t) (hm : Memory.wf s.mem = true)
    : Memory.wf t.mem = true := by
  unfold State.bindInstr at he
  refine State.wf_withIssuer he fun k g c => ?_
  clear he
  grind [State.hold_mem, State.wf_raise, State.wf_bindOp]

theorem State.wf_unbindInstr (s : State) (f : GFmt) {t : State} (he : State.unbindInstr s f = .next t) (hm : Memory.wf s.mem = true)
    : Memory.wf t.mem = true := by
  unfold State.unbindInstr at he
  refine State.wf_withIssuer he fun k g c => ?_
  clear he
  grind [State.hold_mem, State.wf_raise, State.wf_bindOp, State.wf_retire]

theorem State.wf_braOp (s : State) (f : CFmt) {t : State} (he : State.braOp s f = .next t) (hm : Memory.wf s.mem = true)
    : Memory.wf t.mem = true := by
  refine State.wf_withIssuer he fun k g c => ?_
  dsimp only
  (repeat' split) <;> simp [hm]

theorem State.wf_bruOp (s : State) (f : CFmt) {t : State} (he : State.bruOp s f = .next t) (hm : Memory.wf s.mem = true)
    : Memory.wf t.mem = true := by
  refine State.wf_withIssuer he fun k g c => ?_
  (repeat' split) <;> simp [hm]

theorem State.wf_callOp (s : State) (f : CFmt) {t : State} (he : State.callOp s f = .next t) (hm : Memory.wf s.mem = true)
    : Memory.wf t.mem = true := by
  unfold State.callOp at he
  refine State.wf_withIssuer he fun k g c => ?_
  clear he
  grind [State.hold_mem, State.jump_mem, State.wf_raise]

theorem State.wf_callrOp (s : State) (f : GFmt) {t : State} (he : State.callrOp s f = .next t) (hm : Memory.wf s.mem = true)
    : Memory.wf t.mem = true := by
  refine State.wf_withIssuer he fun k g c => ?_
  clear he
  dsimp only
  by_cases h1 : g.pending (touchScalars [60, 61])
  · rw [if_pos h1]
    simpa using hm
  rw [if_neg h1]
  split
  · simp [hm]
  split
  · simp [hm]
  split
  · simp [hm]
  split
  next e s1 hr => 
    have hs1 : s1.mem = s.mem := mem_of_snd hr (State.readLin_mem ..)
    simp [hs1, hm]
  next bs s1 hr =>
    have hs1 : Memory.wf s1.mem = true := by rw [mem_of_snd hr (State.readLin_mem ..)]; exact hm
    split
    · simp [hs1]
    split
    · simp [hs1]
    split
    next e s2 hr =>
      have hs2 : Memory.wf s2.mem = true := by rw [mem_of_snd hr (State.loadSeg_mem ..)]; exact hs1
      simp [hs2]
    next r x s2 hr =>
      have hs2 : Memory.wf s2.mem = true := by rw [mem_of_snd hr (State.loadSeg_mem ..)]; exact hs1
      (repeat' split) <;> simp [hs2]

theorem State.wf_retOp (s : State) {t : State} (he : State.retOp s = .next t) (hm : Memory.wf s.mem = true) : Memory.wf t.mem = true := by
  unfold State.retOp at he
  refine State.wf_withIssuer he fun k g c => ?_
  clear he
  grind [State.hold_mem, State.wf_raise, State.waitAcquire_mem, State.wf_enter]

theorem State.wf_divOp (s : State) (f : CFmt) {t : State} (he : State.divOp s f = .next t) (hm : Memory.wf s.mem = true)
    : Memory.wf t.mem = true := by
  unfold State.divOp at he
  refine State.wf_withIssuer he fun k g c => ?_
  clear he
  grind [State.advance_mem, State.hold_mem, State.wf_raise, State.wf_stackWrite]

theorem State.wf_joinOp (s : State) {t : State} (he : State.joinOp s = .next t) (hm : Memory.wf s.mem = true) : Memory.wf t.mem = true := by
  unfold State.joinOp at he
  refine State.wf_withIssuer he fun k g c => ?_
  clear he
  grind [State.wf_raise, State.wf_enter]

theorem State.wf_exitOp (s : State) {t : State} (he : State.exitOp s = .next t) (hm : Memory.wf s.mem = true) : Memory.wf t.mem = true := by
  unfold State.exitOp at he
  refine State.wf_withIssuer he fun k g c => ?_
  clear he
  grind [State.wf_raise, State.wf_exitLanes, State.wf_taskDone]

theorem State.wf_nopOp (s : State) {t : State} (he : State.nopOp s = .next t) (hm : Memory.wf s.mem = true) : Memory.wf t.mem = true := by
  unfold State.nopOp at he
  refine State.wf_withIssuer he fun k g c => ?_
  clear he
  grind [State.advance_mem, State.wf_raise]

theorem State.wf_yieldOp (s : State) {t : State} (he : State.yieldOp s = .next t) (hm : Memory.wf s.mem = true) : Memory.wf t.mem = true := by
  unfold State.yieldOp at he
  refine State.wf_withIssuer he fun k g c => ?_
  clear he
  grind [State.advance_mem, State.wf_raise]

theorem State.wf_trapOp (s : State) {t : State} (he : State.trapOp s = .next t) (hm : Memory.wf s.mem = true) : Memory.wf t.mem = true := by
  unfold State.trapOp at he
  refine State.wf_withIssuer he fun k g c => ?_
  clear he
  grind [State.wf_raise]

theorem State.wf_brkOp (s : State) {t : State} (he : State.brkOp s = .next t) (hm : Memory.wf s.mem = true) : Memory.wf t.mem = true := by
  unfold State.brkOp at he
  refine State.wf_withIssuer he fun k g c => ?_
  clear he
  grind [State.wf_raise]

theorem State.wf_rttOp (s : State) {t : State} (he : State.rttOp s = .next t) (hm : Memory.wf s.mem = true) : Memory.wf t.mem = true := by
  unfold State.rttOp at he
  refine State.wf_withIssuer he fun k g c => ?_
  clear he
  grind [State.hold_mem, State.wf_trapReturn, State.wf_raise, State.loadSeg_mem, State.waitAcquire_mem, State.wf_tableFault]

theorem State.wf_baraOp (s : State) (f : BFmt) {t : State} (he : State.baraOp s f = .next t) (hm : Memory.wf s.mem = true)
    : Memory.wf t.mem = true := by
  unfold State.baraOp at he
  refine State.wf_withIssuer he fun k g c => ?_
  clear he
  grind [State.advance_mem, State.wf_barChecked, State.wf_arriveOp]

theorem State.wf_barwOp (s : State) (f : BFmt) {t : State} (he : State.barwOp s f = .next t) (hm : Memory.wf s.mem = true)
    : Memory.wf t.mem = true := by
  unfold State.barwOp at he
  refine State.wf_withIssuer he fun k g c => ?_
  clear he
  grind [State.wf_barChecked, State.wf_barWaitOp]

theorem State.wf_barOp (s : State) (f : BFmt) {t : State} (he : State.barOp s f = .next t) (hm : Memory.wf s.mem = true)
    : Memory.wf t.mem = true := by
  unfold State.barOp at he
  refine State.wf_withIssuer he fun k g c => ?_
  clear he
  grind [State.hold_mem, State.wf_barChecked, State.wf_barWaitOp, State.wf_arriveOp]

theorem State.wf_barexpOp (s : State) (f : BFmt) {t : State} (he : State.barexpOp s f = .next t) (hm : Memory.wf s.mem = true)
    : Memory.wf t.mem = true := by
  unfold State.barexpOp at he
  refine State.wf_withIssuer he fun k g c => ?_
  clear he
  grind [State.post_mem, State.advance_mem, State.hold_mem, State.wf_barChecked, State.barrierArrive_mem]

theorem State.wf_waitpOp (s : State) (f : BFmt) {t : State} (he : State.waitpOp s f = .next t) (hm : Memory.wf s.mem = true)
    : Memory.wf t.mem = true := by
  unfold State.waitpOp at he
  refine State.wf_withIssuer he fun k g c => ?_
  clear he
  grind [State.advance_mem, State.hold_mem, State.desched_mem, State.wf_raise]

theorem State.wf_electOp (s : State) (f : BFmt) {t : State} (he : State.electOp s f = .next t) (hm : Memory.wf s.mem = true)
    : Memory.wf t.mem = true := by
  unfold State.electOp at he
  refine State.wf_withIssuer he fun k g c => ?_
  clear he
  grind [State.advance_mem, State.hold_mem, State.wf_raise]

theorem State.wf_pmaskOp (s : State) (f : BFmt) {t : State} (he : State.pmaskOp s f = .next t) (hm : Memory.wf s.mem = true)
    : Memory.wf t.mem = true := by
  unfold State.pmaskOp at he
  refine State.wf_withIssuer he fun k g c => ?_
  clear he
  grind [State.advance_mem, State.hold_mem, State.wf_raise]

theorem State.wf_csrrOp (s : State) (f : VIFmt) {t : State} (he : State.csrrOp s f = .next t) (hm : Memory.wf s.mem = true)
    : Memory.wf t.mem = true := by
  refine State.wf_withIssuer he fun k g c => ?_
  dsimp only
  generalize csrInfo _ = info
  (repeat' split) <;> simp [hm]

theorem State.wf_csrwOp (s : State) (f : VIFmt) {t : State} (he : State.csrwOp s f = .next t) (hm : Memory.wf s.mem = true)
    : Memory.wf t.mem = true := by
  unfold State.csrwOp at he
  refine State.wf_withIssuer he fun k g c => ?_
  clear he
  grind [State.advance_mem, State.hold_mem, State.wf_raise, State.putTenq_mem]

theorem State.wf_sethandOp (s : State) (f : VIFmt) {t : State} (he : State.sethandOp s f = .next t) (hm : Memory.wf s.mem = true)
    : Memory.wf t.mem = true := by
  unfold State.sethandOp at he
  refine State.wf_withIssuer he fun k g c => ?_
  clear he
  grind [State.advance_mem, State.wf_raise]

theorem State.wf_rclaimOp (s : State) (f : VIFmt) {t : State} (he : State.rclaimOp s f = .next t) (hm : Memory.wf s.mem = true)
    : Memory.wf t.mem = true := by
  unfold State.rclaimOp at he
  refine State.wf_withIssuer he fun k g c => ?_
  clear he
  grind [State.putPen_mem, State.post_mem, State.advance_mem, State.desched_mem, State.wf_raise, State.deadlockCheck_mem, State.grant_mem]

theorem State.wf_rgiveOp (s : State) (f : VIFmt) {t : State} (he : State.rgiveOp s f = .next t) (hm : Memory.wf s.mem = true)
    : Memory.wf t.mem = true := by
  unfold State.rgiveOp at he
  refine State.wf_withIssuer he fun k g c => ?_
  clear he
  grind [State.post_mem, State.advance_mem, State.hold_mem, State.wf_raise, State.claimGrant_mem, State.wf_clusterPlace]

theorem State.wf_ixsetOp (s : State) (f : VIFmt) {t : State} (he : State.ixsetOp s f = .next t) (hm : Memory.wf s.mem = true)
    : Memory.wf t.mem = true := by
  unfold State.ixsetOp at he
  refine State.wf_withIssuer he fun k g c => ?_
  clear he
  grind [State.advance_mem, State.wf_raise]

theorem State.wf_wellflOp (s : State) {t : State} (he : State.wellflOp s = .next t) (hm : Memory.wf s.mem = true) : Memory.wf t.mem = true := by
  unfold State.wellflOp at he
  refine State.wf_withIssuer he fun k g c => ?_
  clear he
  grind [State.advance_mem, State.wf_raise]

theorem State.wf_killOp (s : State) {t : State} (he : State.killOp s = .next t) (hm : Memory.wf s.mem = true) : Memory.wf t.mem = true := by
  unfold State.killOp at he
  refine State.wf_withIssuer he fun k g c => ?_
  clear he
  grind [State.advance_mem, State.hold_mem, State.wf_raise]

theorem State.wf_evsigOp (s : State) (f : BFmt) {t : State} (he : State.evsigOp s f = .next t) (hm : Memory.wf s.mem = true)
    : Memory.wf t.mem = true := by
  unfold State.evsigOp at he
  refine State.wf_withIssuer he fun k g c => ?_
  clear he
  grind [State.advance_mem, State.hold_mem, State.desched_mem, State.wf_raise, State.wf_eventAct, State.wf_signal, State.wf_evPark]

theorem State.wf_evwaitOp (s : State) (f : BFmt) {t : State} (he : State.evwaitOp s f = .next t) (hm : Memory.wf s.mem = true)
    : Memory.wf t.mem = true := by
  unfold State.evwaitOp at he
  refine State.wf_withIssuer he fun k g c => ?_
  clear he
  grind [State.advance_mem, State.hold_mem, State.desched_mem, State.wf_raise, State.wf_eventAct]

theorem State.wf_evtestOp (s : State) (f : BFmt) {t : State} (he : State.evtestOp s f = .next t) (hm : Memory.wf s.mem = true)
    : Memory.wf t.mem = true := by
  unfold State.evtestOp at he
  refine State.wf_withIssuer he fun k g c => ?_
  clear he
  grind [State.newId_mem, State.advance_mem, State.hold_mem, State.wf_raise, State.wf_eventAct, State.wf_evPark]

theorem State.wf_qpopOp (s : State) (f : QFmt) {t : State} (he : State.qpopOp s f = .next t) (hm : Memory.wf s.mem = true)
    : Memory.wf t.mem = true := by
  unfold State.qpopOp at he
  refine State.wf_withIssuer he fun k g c => ?_
  clear he
  grind [State.after_mem, State.advance_mem, State.hold_mem, State.desched_mem, State.wf_raise, State.wf_queueActArrive, State.wf_withQueue]

theorem State.wf_qpushOp (s : State) (f : QFmt) {t : State} (he : State.qpushOp s f = .next t) (hm : Memory.wf s.mem = true)
    : Memory.wf t.mem = true := by
  unfold State.qpushOp at he
  refine State.wf_withIssuer he fun k g c => ?_
  clear he
  grind [State.after_mem, State.advance_mem, State.hold_mem, State.desched_mem, State.wf_raise, State.wf_queueActArrive, State.wf_withQueue]

theorem State.wf_qcntOp (s : State) (f : QFmt) {t : State} (he : State.qcntOp s f = .next t) (hm : Memory.wf s.mem = true)
    : Memory.wf t.mem = true := by
  unfold State.qcntOp at he
  refine State.wf_withIssuer he fun k g c => ?_
  clear he
  grind [State.after_mem, State.advance_mem, State.hold_mem, State.wf_raise, State.wf_queueActArrive, State.wf_withQueue]

theorem State.wf_tclmOp (s : State) (f : TFmt) {t : State} (he : State.tclmOp s f = .next t) (hm : Memory.wf s.mem = true)
    : Memory.wf t.mem = true := by
  unfold State.tclmOp at he
  refine State.wf_withIssuer he fun k g c => ?_
  clear he
  grind [State.newId_mem, State.advance_mem, State.putTiles_mem, State.wf_matIssue]

theorem State.wf_trelOp (s : State) (f : TFmt) {t : State} (he : State.trelOp s f = .next t) (hm : Memory.wf s.mem = true)
    : Memory.wf t.mem = true := by
  unfold State.trelOp at he
  refine State.wf_withIssuer he fun k g c => ?_
  clear he
  grind [State.advance_mem, State.hold_mem, State.wf_raise, State.putTiles_mem, State.wf_feederPoke, State.wf_matIssue]

theorem State.wf_tldOp (s : State) (f : TFmt) {t : State} (he : State.tldOp s f = .next t) (hm : Memory.wf s.mem = true)
    : Memory.wf t.mem = true := by
  refine State.wf_withIssuer he fun k g c => ?_
  clear he
  refine State.wf_matIssue _ _ _ _ _ _ _ _ _ _ hm ?_
  split
  · simp [hm]
  generalize hr : s.reachSeg _ _ _ _ _ _ = p
  have hp : p.2.mem = s.mem := hr ▸ State.reachSeg_mem ..
  clear hr
  split
  next s1 => simp [show s1.mem = s.mem from hp, hm]
  next e l s1 => simp [show s1.mem = s.mem from hp, hm]
  next rs s1 =>
    have hs1 : Memory.wf s1.mem = true := by rw [show s1.mem = s.mem from hp]; exact hm
    split
    · simp [hs1]
    split
    · simp [hs1]
    split
    · simp [hs1]
    · simp [hs1]
    next xs _ =>
      refine foldl_wf (fun p h => ?_) _ ?_
      · simp [h]
      · simp [hs1]

theorem State.wf_fsubOp (s : State) (f : EFmt) (x : ELong) {t : State} (he : State.fsubOp s f x = .next t) (hm : Memory.wf s.mem = true) :
    Memory.wf t.mem = true := by
  refine State.wf_withIssuer he fun k g c => ?_
  clear he
  dsimp only
  split
  · simp [hm]
  split
  · simp [hm]
  split
  · simp [hm]
  split
  · simp [hm]
  split
  · simp [hm]
  split
  · simp [hm]
  split
  · simp [hm]
  grind [State.hold_mem, State.desched_mem, State.wf_raise, State.reachSeg_mem, State.loadRuns_mem, State.wf_pageFault, State.waitAcquire_mem,
    State.tableClk_mem, State.wf_subscribe]

theorem State.wf_fendOp (s : State) {t : State} (he : State.fendOp s = .next t) (hm : Memory.wf s.mem = true) : Memory.wf t.mem = true := by
  unfold State.fendOp at he
  refine State.wf_withIssuer he fun k g c => ?_
  clear he
  grind [State.advance_mem, State.wf_raise, State.waitAcquire_mem, State.wf_feederEnd]

theorem State.wf_mmaOp (s : State) (scaled : Bool) (f : XFmt) (x : XLong) {t : State} (he : State.mmaOp s scaled f x = .next t)
    (hm : Memory.wf s.mem = true) : Memory.wf t.mem = true := by
  refine State.wf_withIssuer he fun k g c => ?_
  clear he
  dsimp only
  (repeat' split) <;> simp [hm]

theorem State.wf_awinOp (s : State) (f : TFmt) {t : State} (he : State.awinOp s f = .next t) (hm : Memory.wf s.mem = true)
    : Memory.wf t.mem = true := by
  unfold State.awinOp at he
  refine State.wf_withIssuer he fun k g c => ?_
  clear he
  grind [State.updGroup_mem, State.advance_mem, State.wf_raise, State.wf_matIssue, State.wf_owning]

theorem State.wf_aclrOp (s : State) (f : TFmt) {t : State} (he : State.aclrOp s f = .next t) (hm : Memory.wf s.mem = true)
    : Memory.wf t.mem = true := by
  unfold State.aclrOp at he
  refine State.wf_withIssuer he fun k g c => ?_
  clear he
  grind [State.post_mem, State.newId_mem, State.advance_mem, State.wf_matIssue, State.updArr_mem, State.wf_meStart, State.addDrain_mem,
    State.wf_drainComplete]

theorem State.wf_accOp (s : State) (op : Nat) (v : VArgs)
    (go : GKey → Group → Clause → VShape → (Nat → Nat) → (Nat → Nat) → List Nat → Bool → State)
    (hgo : ∀ k g c sh rows cols now all, Memory.wf (go k g c sh rows cols now all).mem = true)
    {t : State} (he : State.accOp s op v go = .next t) (hm : Memory.wf s.mem = true) : Memory.wf t.mem = true := by
  refine State.wf_withIssuer he fun k g c => ?_
  clear he
  dsimp only
  grind [State.hold_mem, State.wf_raise, State.wf_matGo]

theorem State.wf_aldOp (s : State) (v : VArgs) {t : State} (he : State.aldOp s v = .next t) (hm : Memory.wf s.mem = true)
    : Memory.wf t.mem = true := by
  refine State.wf_accOp s _ v _ (fun k g c sh rows cols now all => ?_) he hm
  clear he
  dsimp only
  split <;> simp [hm]

theorem State.wf_astOp (s : State) (v : VArgs) {t : State} (he : State.astOp s v = .next t) (hm : Memory.wf s.mem = true)
    : Memory.wf t.mem = true := by
  refine State.wf_accOp s _ v _ (fun k g c sh rows cols now all => ?_) he hm
  clear he
  dsimp only
  split <;> simp [hm]

theorem State.wf_adrnOp (s : State) (f : XDFmt) (x : XDLong) {t : State} (he : State.adrnOp s f x = .next t) (hm : Memory.wf s.mem = true) :
    Memory.wf t.mem = true := by
  refine State.wf_withIssuer he fun k g c => ?_
  clear he
  dsimp only
  refine wf_ite (by simp [hm]) ?_
  refine wf_ite (by simp [hm]) ?_
  refine wf_ite (by simp [hm]) ?_
  refine wf_ite (by simp [hm]) ?_
  refine wf_ite (by simp [hm]) ?_
  refine wf_ite (by simp [hm]) ?_
  refine State.wf_matGo _ _ _ _ _ _ _ hm ?_
  refine wf_ite (by simp [hm]) ?_
  refine wf_ite (by simp [hm]) ?_
  generalize hr : s.reachRows _ _ _ _ _ = p
  have hp : Memory.wf p.2.mem = true := by rw [← hr, State.reachRows_mem]; exact hm
  clear hr
  (repeat' split) <;> simp only [State.wf_raise, State.wf_pageFault, State.wf_drainIssue, hp]

theorem State.wf_mpairOp (s : State) {t : State} (he : State.mpairOp s = .next t) (hm : Memory.wf s.mem = true) : Memory.wf t.mem = true := by
  unfold State.mpairOp at he
  refine State.wf_withIssuer he fun k g c => ?_
  clear he
  grind [State.post_mem, State.advance_mem, State.desched_mem, State.wf_raise, State.wf_matIssue, State.wf_owning, State.pairBind_mem]

theorem State.wf_munpairOp (s : State) {t : State} (he : State.munpairOp s = .next t) (hm : Memory.wf s.mem = true) : Memory.wf t.mem = true := by
  unfold State.munpairOp at he
  refine State.wf_withIssuer he fun k g c => ?_
  clear he
  grind [State.post_mem, State.advance_mem, State.desched_mem, State.wf_matIssue, State.pairEnd_mem]

theorem State.wf_copyWords (s : State) (f : EFmt) (x : ELong) (two : Bool) (go : GKey → Group → Clause → Option BarKey → State)
    (hgo : ∀ k g c b, Memory.wf (go k g c b).mem = true) {t : State} (he : State.copyWords s f x two go = .next t)
    (hm : Memory.wf s.mem = true) : Memory.wf t.mem = true := by
  refine State.wf_withIssuer he fun k g c => ?_
  clear he
  dsimp only
  grind [State.hold_mem, State.wf_raise]

theorem State.wf_cpyOp (s : State) (f : EFmt) (x : ELong) {t : State} (he : State.cpyOp s f x = .next t) (hm : Memory.wf s.mem = true) :
    Memory.wf t.mem = true :=
  State.wf_copyWords s f x _ _ (fun _ _ _ _ => State.wf_copyIssue _ _ _ _ _ _ _ _ _ _ _ _ hm) he hm

theorem State.wf_cpy2dOp (s : State) (f : EFmt) (x : ELong) {t : State} (he : State.cpy2dOp s f x = .next t) (hm : Memory.wf s.mem = true) :
    Memory.wf t.mem = true :=
  State.wf_copyWords s f x _ _ (fun _ _ _ _ => State.wf_copyIssue _ _ _ _ _ _ _ _ _ _ _ _ hm) he hm

theorem State.wf_spawnOp (s : State) (a : MArgs) (long : Bool) {t : State} (he : State.spawnOp s a long = .next t) (hm : Memory.wf s.mem = true)
    : Memory.wf t.mem = true := by
  unfold State.spawnOp at he
  refine State.wf_withIssuer he fun k g c => ?_
  clear he
  grind [State.hold_mem, State.wf_raise, State.wf_spawnIssue]

theorem State.wf_tdoneOp (s : State) {t : State} (he : State.tdoneOp s = .next t) (hm : Memory.wf s.mem = true) : Memory.wf t.mem = true := by
  unfold State.tdoneOp at he
  refine State.wf_withIssuer he fun k g c => ?_
  clear he
  grind [State.wf_raise, State.wf_taskDone]

theorem State.wf_tabortOp (s : State) {t : State} (he : State.tabortOp s = .next t) (hm : Memory.wf s.mem = true) : Memory.wf t.mem = true := by
  unfold State.tabortOp at he
  refine State.wf_withIssuer he fun k g c => ?_
  clear he
  grind [State.wf_raise, State.wf_abort]

theorem State.wf_tserialOp (s : State) {t : State} (he : State.tserialOp s = .next t) (hm : Memory.wf s.mem = true) : Memory.wf t.mem = true := by
  unfold State.tserialOp at he
  refine State.wf_withIssuer he fun k g c => ?_
  clear he
  grind [State.advance_mem, State.desched_mem, State.wf_raise]

theorem State.wf_launchOp (s : State) (f : GFmt) {t : State} (he : State.launchOp s f = .next t) (hm : Memory.wf s.mem = true)
    : Memory.wf t.mem = true := by
  refine State.wf_withIssuer he fun k g c => ?_
  clear he
  dsimp only
  refine wf_ite (by simp [hm]) ?_
  refine wf_ite (by simp [hm]) ?_
  refine wf_ite (by simp [hm]) ?_
  refine wf_ite (by simp [hm]) ?_
  refine wf_ite (by simp [hm]) ?_
  refine wf_ite (by simp [hm]) ?_
  refine wf_ite (by simp [hm]) ?_
  refine wf_ite (by simp [hm]) ?_
  refine wf_ite (by simp [hm]) ?_
  split
  next x _ => exact State.wf_raise _ _ _ _ hm
  next _ => simp [hm]
  next x tr s1 h1 =>
    exact State.wf_pageFault _ _ _ _ _ _ _ _ (by rw [State.segRead_mem_fault _ _ _ _ _ _ _ h1]; exact hm)
  next bs rs s1 h1 =>
    have hs1 : Memory.wf s1.mem = true := by rw [State.segRead_mem_bytes _ _ _ _ _ _ _ h1]; exact hm
    grind [State.hold_mem, State.wf_raise, State.readLin_mem, State.wf_tableFault, State.wf_linkTrapOp, State.loadSeg_mem, State.tableClk_mem,
      State.wf_launchGo]

theorem State.wf_rejected (s : State) (r : Reject) {t : State} (he : State.rejected s r = .next t) (hm : Memory.wf s.mem = true)
    : Memory.wf t.mem = true := by
  unfold State.rejected at he
  refine State.wf_withIssuer he fun k g c => ?_
  clear he
  grind [State.wf_raise]

end Sys2Proof.Machine
end

section
namespace Sys2Proof.Machine

/-! ### The events and the step -/

/-- What an event does to the state: the state its row of the table answers. -/
def State.effect (s : State) : Event → State
  | .loadReturn a l => s.loadReturn a l
  | .accessComplete a => s.accessComplete a
  | .barrierArrive b a => s.barrierArrive b a
  | .claimGrant p => s.claimGrant p
  | .deadlockCheck p => s.deadlockCheck p
  | .eventActArrive p c n a => s.eventActArrive p c n a
  | .eventCountUpdate d c n v => s.eventCountUpdate d c n v
  | .eventWake k t => s.eventWake k t
  | .queueActArrive k a => s.queueActArrive k a
  | .queueSwapInDone d c q => s.queueSwapInDone d c q
  | .tileLoadLand c n => s.tileLoadLand c n
  | .feederTileLand d f => s.feederTileLand d f
  | .matrixOpStart c o => s.matrixOpStart c o
  | .matrixOpRetire c o => s.matrixOpRetire c o
  | .subarrayGate c q => s.subarrayGate c q
  | .drainComplete c d => s.drainComplete c d
  | .pairBind c => s.pairBind c
  | .pairEnd c => s.pairEnd c
  | .copyStart c => s.copyStart c
  | .copyBeat c x => s.copyBeat c x
  | .copyComplete c x => s.copyComplete c x
  | .taskDispatch d p c => s.taskDispatch d p c
  | .frontierSample p c i => s.frontierSample p c i
  | .frontierUpdate p c i d o => s.frontierUpdate p c i d o
  | .taskCommit p c d => s.taskCommit p c d
  | .spillRefill d p c => s.spillRefill d p c
  | .clauseStart p => s.clauseStart p
  | .clauseFetchArrive k => s.clauseFetchArrive k
  | .budgetTick w => s.budgetTick w
  | .budgetGraceExpire t => s.budgetGraceExpire t
  | .pkctlResume d c n b => s.pkctlResume d c n b
  | .pkctlKill d c n b => s.pkctlKill d c n b
  | .clusterPlace d l n => s.clusterPlace d l n
  | .objectLoad o => s.objectLoad o
  | .headBlocking d l n c => s.headBlocking d l n c
  | .teamRetire t => s.teamRetire t
  | .contextStart d c => s.contextStart d c
  | .sliceEnd d n => s.sliceEnd d n
  | .flashbackTimeout k t => s.flashbackTimeout k t
  | .groupSave k t => s.groupSave k t
  | .groupRestore d i => s.groupRestore d i
  | .contextEnable d c => s.contextEnable d c
  | .contextDisable d c => s.contextDisable d c
  | .contextKill d c h => s.contextKill d c h
  | .contextIdle d c => s.contextIdle d c
  | .fqciWrite d c v => s.fqciWrite d c v
  | .tlbinv d c v => s.tlbinv d c v
  | .tlbinvDone d c => s.tlbinvDone d c
  | .segsync d c v => s.segsync d c v
  | .descriptorSyncDone p c n a => s.descriptorSyncDone p c n a
  | .rbcmdBind d c i n => s.rbcmd d c i 1 n (.bind n)
  | .rbcmdUnbind d c i => s.rbcmd d c i 2 0 .unbind
  | .rbcmdUnbindRevoke d c i => s.rbcmd d c i 3 0 .revoke
  | .rbcmdRetire d c i => s.rbcmd d c i 4 0 .retire
  | .priResponse d c p ok => s.priResponse d c p ok
  | .atsTranslationCompletion d c p ok => s.atsDone d c p ok
  | .atsInvalidate p lo hi => s.atsInvalidate p lo hi
  | .queueEnable f q => s.queueEnable f q
  | .drain f q => s.drain f q
  | .queueDisable f q => s.queueDisable f q
  | .queueDrainDone q => s.queueDrainDone q
  | .kick f q o w v => s.kick f q o w v
  | .launchStart l => s.launchStart l
  | .launchRetire l => s.launchRetire l
  | .statusWrite q => s.statusWrite q
  | .gcmd f v => s.gcmd f v
  | .gunreg f h => s.gunreg f h
  | .nodeStart l n => s.nodeStart l n
  | .nodeFinish l n => s.nodeFinish l n
  | .shardReceive p i g => s.shardReceive p i g
  | .generationPublish p => s.generationPublish p
  | .powerOn => s.startUp
  | .moduleReset => s.startUp
  | .stageAdvance o => s.stageAdvance o
  | .thermalWarning d => s.thermalWarning d
  | .thermalTrip d => s.thermalTrip d
  | .marginCheck => s.marginCheck
  | .stage => s.mailStage
  | .margin => s.mailMargin
  | .stagebits => s.mailStagebits
  | .enrol => s.mailKey true
  | .revoke => s.mailKey false
  | .unknownMailboxCommand _ => s.mailDone 1#8
  | .apply => s.apply
  | .retire d => s.retire d
  | .fwctlWrite l v => s.fwctlWrite l v
  | .linkFlitArrive l u c b => s.linkFlitArrive l u c b
  | .linkStopSignal l u c => s.linkStopSignal l u c
  | .unfreezeResume m => s.unfreezeResume m
  | .unfreezeKill m => s.unfreezeKill m
  | .fabricRequestArrive p w o n d => s.fabricRequest p w o n d
  | .fpctlWrite p v => s.fpctlWrite p v
  | .fabricPortLinkTraining p u => s.portTraining p u
  | .fabricRefusalReceive a l => s.fabricRefused a l
  | .folioRefresh _ => s
  | .uncorrectableError e => s.uncorrectable e
  | .faultRetry w => s.faultRetry w
  | .registerWrite f b o w v => s.registerWrite f b o w v
  | .registerAtomic f b o w op v => s.registerAtomic f b o w op v
  | .registerReadClear f b o w => s.regReadClear f b o w

theorem takeEvent_eq (e : Event) (s : State) : takeEvent e s = .next ((s.setSubject e).effect e) := by
  cases e <;> rfl

theorem exec_rowOf_subject (s : State) : exec (rowOf s.subject) s = .next (s.effect s.subject) := takeEvent_eq s.subject s

theorem wf_of_mem_eq {s t : State} (h : t.mem = s.mem) (hm : Memory.wf s.mem = true) : Memory.wf t.mem = true := h ▸ hm

theorem State.wf_effect (s : State) (e : Event) (hm : Memory.wf s.mem = true) : Memory.wf (s.effect e).mem = true := by
  cases e
  case loadReturn a l => exact State.wf_loadReturn s a l hm
  case accessComplete a => exact State.wf_accessComplete s a hm
  case barrierArrive b a => exact wf_of_mem_eq (State.barrierArrive_mem s b a) hm
  case claimGrant p => exact wf_of_mem_eq (State.claimGrant_mem s p) hm
  case deadlockCheck p => exact wf_of_mem_eq (State.deadlockCheck_mem s p) hm
  case eventActArrive p c n a => exact State.wf_eventActArrive s p c n a hm
  case eventCountUpdate d c n v => exact State.wf_eventCountUpdate s d c n v hm
  case eventWake k t => exact wf_of_mem_eq (State.eventWake_mem s k t) hm
  case queueActArrive k a => exact State.wf_queueActArrive s k a hm
  case queueSwapInDone d c q => exact State.wf_queueSwapInDone s d c q hm
  case tileLoadLand c n => exact State.wf_tileLoadLand s c n hm
  case feederTileLand d f => exact State.wf_feederTileLand s d f hm
  case matrixOpStart c o => exact State.wf_matrixOpStart s c o hm
  case matrixOpRetire c o => exact State.wf_matrixOpRetire s c o hm
  case subarrayGate c q => exact wf_of_mem_eq (State.subarrayGate_mem s c q) hm
  case drainComplete c d => exact State.wf_drainComplete s c d hm
  case pairBind c => exact wf_of_mem_eq (State.pairBind_mem s c) hm
  case pairEnd c => exact wf_of_mem_eq (State.pairEnd_mem s c) hm
  case copyStart c => exact State.wf_copyStart s c hm
  case copyBeat c x => exact State.wf_copyBeat s c x hm
  case copyComplete c x => exact State.wf_copyComplete s c x hm
  case taskDispatch d p c => exact State.wf_taskDispatch s d p c hm
  case frontierSample p c i => exact State.wf_frontierSample s p c i hm
  case frontierUpdate p c i d o => exact State.wf_frontierUpdate s p c i d o hm
  case taskCommit p c d => exact State.wf_taskCommit s p c d hm
  case spillRefill d p c => exact State.wf_spillRefill s d p c hm
  case clauseStart p => exact State.wf_clauseStart s p hm
  case clauseFetchArrive k => exact State.wf_clauseFetchArrive s k hm
  case budgetTick w => exact State.wf_budgetTick s w hm
  case budgetGraceExpire t => exact State.wf_budgetGraceExpire s t hm
  case pkctlResume d c n b => exact State.wf_pkctlResume s d c n b hm
  case pkctlKill d c n b => exact State.wf_pkctlKill s d c n b hm
  case clusterPlace d l n => exact State.wf_clusterPlace s d l n hm
  case objectLoad o => exact State.wf_objectLoad s o hm
  case headBlocking d l n c => exact wf_of_mem_eq (State.headBlocking_mem s d l n c) hm
  case teamRetire t => exact State.wf_teamRetire s t hm
  case contextStart d c => exact State.wf_contextStart s d c hm
  case sliceEnd d n => exact State.wf_sliceEnd s d n hm
  case flashbackTimeout k t => exact State.wf_flashbackTimeout s k t hm
  case groupSave k t => exact State.wf_groupSave s k t hm
  case groupRestore d i => exact State.wf_groupRestore s d i hm
  case contextEnable d c => exact State.wf_contextEnable s d c hm
  case contextDisable d c => exact State.wf_contextDisable s d c hm
  case contextKill d c h => exact State.wf_contextKill s d c h hm
  case contextIdle d c => exact State.wf_contextIdle s d c hm
  case fqciWrite d c v => exact State.wf_fqciWrite s d c v hm
  case tlbinv d c v => exact State.wf_tlbinv s d c v hm
  case tlbinvDone d c => exact State.wf_tlbinvDone s d c hm
  case segsync d c v => exact wf_of_mem_eq (State.segsync_mem s d c v) hm
  case descriptorSyncDone p c n a => exact wf_of_mem_eq (State.descriptorSyncDone_mem s p c n a) hm
  case rbcmdBind d c i n => exact State.wf_rbcmd s d c i 1 n (.bind n) hm
  case rbcmdUnbind d c i => exact State.wf_rbcmd s d c i 2 0 .unbind hm
  case rbcmdUnbindRevoke d c i => exact State.wf_rbcmd s d c i 3 0 .revoke hm
  case rbcmdRetire d c i => exact State.wf_rbcmd s d c i 4 0 .retire hm
  case priResponse d c p ok => exact State.wf_priResponse s d c p ok hm
  case atsTranslationCompletion d c p ok => exact State.wf_atsDone s d c p ok hm
  case atsInvalidate p lo hi => exact wf_of_mem_eq (State.atsInvalidate_mem s p lo hi) hm
  case queueEnable f q => exact State.wf_queueEnable s f q hm
  case drain f q => exact wf_of_mem_eq (State.drain_mem s f q) hm
  case queueDisable f q => exact wf_of_mem_eq (State.queueDisable_mem s f q) hm
  case queueDrainDone q => exact wf_of_mem_eq (State.queueDrainDone_mem s q) hm
  case kick f q o w v => exact State.wf_kick s f q o w v hm
  case launchStart l => exact State.wf_launchStart s l hm
  case launchRetire l => exact State.wf_launchRetire s l hm
  case statusWrite q => exact State.wf_statusWrite s q hm
  case gcmd f v => exact wf_of_mem_eq (State.gcmd_mem s f v) hm
  case gunreg f h => exact wf_of_mem_eq (State.gunreg_mem s f h) hm
  case nodeStart l n => exact State.wf_nodeStart s l n hm
  case nodeFinish l n => exact State.wf_nodeFinish s l n hm
  case shardReceive p i g => exact State.wf_shardReceive s p i g hm
  case generationPublish p => exact State.wf_generationPublish s p hm
  case powerOn => exact State.wf_startUp s hm
  case moduleReset => exact State.wf_startUp s hm
  case stageAdvance o => exact State.wf_stageAdvance s o hm
  case thermalWarning d => exact wf_of_mem_eq (State.thermalWarning_mem s d) hm
  case thermalTrip d => exact State.wf_thermalTrip s d hm
  case marginCheck => exact State.wf_marginCheck s hm
  case stage => exact wf_of_mem_eq (State.mailStage_mem s) hm
  case margin => exact wf_of_mem_eq (State.mailMargin_mem s) hm
  case stagebits => exact wf_of_mem_eq (State.mailStagebits_mem s) hm
  case enrol => exact wf_of_mem_eq (State.mailKey_mem s true) hm
  case revoke => exact wf_of_mem_eq (State.mailKey_mem s false) hm
  case unknownMailboxCommand _x => exact wf_of_mem_eq (State.mailDone_mem s 1#8) hm
  case apply => exact wf_of_mem_eq (State.apply_mem s) hm
  case retire d => exact State.wf_retire s d hm
  case fwctlWrite l v => exact wf_of_mem_eq (State.fwctlWrite_mem s l v) hm
  case linkFlitArrive l u c b => exact State.wf_linkFlitArrive s l u c b hm
  case linkStopSignal l u c => exact State.wf_linkStopSignal s l u c hm
  case unfreezeResume m => exact State.wf_unfreezeResume s m hm
  case unfreezeKill m => exact State.wf_unfreezeKill s m hm
  case fabricRequestArrive p w o n d => exact State.wf_fabricRequest s p w o n d hm
  case fpctlWrite p v => exact wf_of_mem_eq (State.fpctlWrite_mem s p v) hm
  case fabricPortLinkTraining p u => exact wf_of_mem_eq (State.portTraining_mem s p u) hm
  case fabricRefusalReceive a l => exact State.wf_fabricRefused s a l hm
  case folioRefresh _x => exact hm
  case uncorrectableError e => exact State.wf_uncorrectable s e hm
  case faultRetry w => exact State.wf_faultRetry s w hm
  case registerWrite f b o w v => exact State.wf_registerWrite s f b o w v hm
  case registerAtomic f b o w op v => exact State.wf_registerAtomic s f b o w op v hm
  case registerReadClear f b o w => exact wf_of_mem_eq (State.regReadClear_mem s f b o w) hm

theorem exec_of_memForm {i : Instr} {a : MArgs} (h : memForm i = some a) (s : State) : exec i s = s.memOp a := by
  cases i
  all_goals cases h
  all_goals rfl

/-- The instruction has words and is neither of format V nor an access. -/
def plainForm (i : Instr) : Bool := i.hasWords && (vForm i).isNone && (memForm i).isNone

theorem exec_eq_withIssuer_of_plain {i : Instr} (h : plainForm i = true) (s : State) : ∃ f, exec i s = s.withIssuer f := by
  cases i
  all_goals cases h
  case bra => exact ⟨_, show State.braOp s _ = _ from rfl⟩
  case bru => exact ⟨_, show State.bruOp s _ = _ from rfl⟩
  case call => exact ⟨_, show State.callOp s _ = _ from rfl⟩
  case callr => exact ⟨_, show State.callrOp s _ = _ from rfl⟩
  case div => exact ⟨_, show State.divOp s _ = _ from rfl⟩
  case bar => exact ⟨_, show State.barOp s _ = _ from rfl⟩
  case bara => exact ⟨_, show State.baraOp s _ = _ from rfl⟩
  case barw => exact ⟨_, show State.barwOp s _ = _ from rfl⟩
  case barexp => exact ⟨_, show State.barexpOp s _ = _ from rfl⟩
  case evsig => exact ⟨_, show State.evsigOp s _ = _ from rfl⟩
  case evwait => exact ⟨_, show State.evwaitOp s _ = _ from rfl⟩
  case evtest => exact ⟨_, show State.evtestOp s _ = _ from rfl⟩
  case waitp => exact ⟨_, show State.waitpOp s _ = _ from rfl⟩
  case elect => exact ⟨_, show State.electOp s _ = _ from rfl⟩
  case pmask => exact ⟨_, show State.pmaskOp s _ = _ from rfl⟩
  case iaddi f => exact ⟨_, show State.laneImm s f true (fun d => d + f.imm.signExtend 32) = _ from rfl⟩
  case movi f => exact ⟨_, show State.laneImm s f false (fun _ => f.imm.signExtend 32) = _ from rfl⟩
  case movhi f => exact ⟨_, show State.laneImm s f true (highImm f.imm) = _ from rfl⟩
  case link => exact ⟨_, show State.linkOp s _ = _ from rfl⟩
  case gld => exact ⟨_, show State.gldOp s _ = _ from rfl⟩
  case gmov => exact ⟨_, show State.gmovOp s _ = _ from rfl⟩
  case segq => exact ⟨_, show State.segqOp s _ = _ from rfl⟩
  case cpy => exact ⟨_, show State.cpyOp s _ _ = _ by unfold State.cpyOp State.copyWords; rfl⟩
  case cpy2d => exact ⟨_, show State.cpy2dOp s _ _ = _ by unfold State.cpy2dOp State.copyWords; rfl⟩
  case fsubFeeder => exact ⟨_, show State.fsubOp s _ _ = _ from rfl⟩
  case unbind => exact ⟨_, show State.unbindInstr s _ = _ from rfl⟩
  case bind => exact ⟨_, show State.bindInstr s _ = _ from rfl⟩
  case tclm => exact ⟨_, show State.tclmOp s _ = _ from rfl⟩
  case trel => exact ⟨_, show State.trelOp s _ = _ from rfl⟩
  case tld => exact ⟨_, show State.tldOp s _ = _ from rfl⟩
  case mma | mmas => exact ⟨_, show State.mmaOp s _ _ _ = _ from rfl⟩
  case awin => exact ⟨_, show State.awinOp s _ = _ from rfl⟩
  case aclr => exact ⟨_, show State.aclrOp s _ = _ from rfl⟩
  case adrn => exact ⟨_, show State.adrnOp s _ _ = _ from rfl⟩
  case ald | aldLong => exact ⟨_, show State.aldOp s _ = _ by unfold State.aldOp State.accOp; rfl⟩
  case ast | astLong => exact ⟨_, show State.astOp s _ = _ by unfold State.astOp State.accOp; rfl⟩
  case tspawn | tspawnLong => exact ⟨_, show State.spawnOp s _ _ = _ from rfl⟩
  case qpop => exact ⟨_, show State.qpopOp s _ = _ from rfl⟩
  case qpush => exact ⟨_, show State.qpushOp s _ = _ from rfl⟩
  case qcnt => exact ⟨_, show State.qcntOp s _ = _ from rfl⟩
  case launch => exact ⟨_, show State.launchOp s _ = _ from rfl⟩
  case smovi f => exact ⟨_, show State.scalarImm s f (fun _ => f.imm.signExtend 32) = _ from rfl⟩
  case smovhi f => exact ⟨_, show State.scalarImm s f (highImm f.imm) = _ from rfl⟩
  case csrr => exact ⟨_, show State.csrrOp s _ = _ from rfl⟩
  case csrw => exact ⟨_, show State.csrwOp s _ = _ from rfl⟩
  case sethand => exact ⟨_, show State.sethandOp s _ = _ from rfl⟩
  case rclaim => exact ⟨_, show State.rclaimOp s _ = _ from rfl⟩
  case rgive => exact ⟨_, show State.rgiveOp s _ = _ from rfl⟩
  case ixset => exact ⟨_, show State.ixsetOp s _ = _ from rfl⟩
  case nop => exact ⟨_, show State.nopOp s = _ from rfl⟩
  case ret => exact ⟨_, show State.retOp s = _ from rfl⟩
  case join => exact ⟨_, show State.joinOp s = _ from rfl⟩
  case exit => exact ⟨_, show State.exitOp s = _ from rfl⟩
  case trap => exact ⟨_, show State.trapOp s = _ from rfl⟩
  case rtt => exact ⟨_, show State.rttOp s = _ from rfl⟩
  case brk => exact ⟨_, show State.brkOp s = _ from rfl⟩
  case yield => exact ⟨_, show State.yieldOp s = _ from rfl⟩
  case fence => exact ⟨_, show State.fenceOp s = _ from rfl⟩
  case fencex => exact ⟨_, show State.fencexOp s = _ from rfl⟩
  case fend => exact ⟨_, show State.fendOp s = _ from rfl⟩
  case mpair => exact ⟨_, show State.mpairOp s = _ from rfl⟩
  case munpair => exact ⟨_, show State.munpairOp s = _ from rfl⟩
  case tdone => exact ⟨_, show State.tdoneOp s = _ from rfl⟩
  case tabort => exact ⟨_, show State.tabortOp s = _ from rfl⟩
  case tserial => exact ⟨_, show State.tserialOp s = _ from rfl⟩
  case wellfl => exact ⟨_, show State.wellflOp s = _ from rfl⟩
  case kill => exact ⟨_, show State.killOp s = _ from rfl⟩

/-- An instruction that has words acts for a group that issues it. -/
theorem exec_eq_withIssuer {i : Instr} (h : i.hasWords = true) (s : State) : ∃ f, exec i s = s.withIssuer f := by
  cases hv : vForm i with
  | some p =>
    obtain ⟨f, hr, _⟩ := runsV_of_vForm hv
    exact ⟨_, (hr s).trans rfl⟩
  | none =>
    cases ha : memForm i with
    | some a => exact ⟨_, (exec_of_memForm ha s).trans rfl⟩
    | none => exact exec_eq_withIssuer_of_plain (by simp [plainForm, h, hv, ha]) s

theorem hasWords_of_encode_ne_nil {i : Instr} {k : KFmt} (h : encode i k ≠ []) : i.hasWords = true := by
  refine Bool.of_not_eq_false fun hw => h ?_
  cases i
  all_goals cases hw
  all_goals rfl

theorem hasWords_of_decode {w : Word} {x : Option Word} {i : Instr} (h : decodeInstr w x = .ok i) : i.hasWords = true :=
  hasWords_of_encode_ne_nil (k := unpackK w) (by rw [decodeInvertsEncode.2.2 w x i h]; simp)

theorem wf_exec_of_plain {i : Instr} (h : plainForm i = true) {s t : State} (he : exec i s = .next t) (hm : Memory.wf s.mem = true) :
    Memory.wf t.mem = true := by
  cases i
  all_goals cases h
  case bra => exact State.wf_braOp _ _ he hm
  case bru => exact State.wf_bruOp _ _ he hm
  case call => exact State.wf_callOp _ _ he hm
  case callr => exact State.wf_callrOp _ _ he hm
  case div => exact State.wf_divOp _ _ he hm
  case bar => exact State.wf_barOp _ _ he hm
  case bara => exact State.wf_baraOp _ _ he hm
  case barw => exact State.wf_barwOp _ _ he hm
  case barexp => exact State.wf_barexpOp _ _ he hm
  case evsig => exact State.wf_evsigOp _ _ he hm
  case evwait => exact State.wf_evwaitOp _ _ he hm
  case evtest => exact State.wf_evtestOp _ _ he hm
  case waitp => exact State.wf_waitpOp _ _ he hm
  case elect => exact State.wf_electOp _ _ he hm
  case pmask => exact State.wf_pmaskOp _ _ he hm
  case iaddi f => exact State.wf_laneImm s f true (fun d => d + f.imm.signExtend 32) he hm
  case movi f => exact State.wf_laneImm s f false (fun _ => f.imm.signExtend 32) he hm
  case movhi f => exact State.wf_laneImm s f true (highImm f.imm) he hm
  case link => exact State.wf_linkOp _ _ he hm
  case gld => exact State.wf_gldOp _ _ he hm
  case gmov => exact State.wf_gmovOp _ _ he hm
  case segq => exact State.wf_segqOp _ _ he hm
  case cpy => exact State.wf_cpyOp _ _ _ he hm
  case cpy2d => exact State.wf_cpy2dOp _ _ _ he hm
  case fsubFeeder => exact State.wf_fsubOp _ _ _ he hm
  case unbind => exact State.wf_unbindInstr _ _ he hm
  case bind => exact State.wf_bindInstr _ _ he hm
  case tclm => exact State.wf_tclmOp _ _ he hm
  case trel => exact State.wf_trelOp _ _ he hm
  case tld => exact State.wf_tldOp _ _ he hm
  case mma | mmas => exact State.wf_mmaOp _ _ _ _ he hm
  case awin => exact State.wf_awinOp _ _ he hm
  case aclr => exact State.wf_aclrOp _ _ he hm
  case adrn => exact State.wf_adrnOp _ _ _ he hm
  case ald | aldLong => exact State.wf_aldOp _ _ he hm
  case ast | astLong => exact State.wf_astOp _ _ he hm
  case tspawn | tspawnLong => exact State.wf_spawnOp _ _ _ he hm
  case qpop => exact State.wf_qpopOp _ _ he hm
  case qpush => exact State.wf_qpushOp _ _ he hm
  case qcnt => exact State.wf_qcntOp _ _ he hm
  case launch => exact State.wf_launchOp _ _ he hm
  case smovi f => exact State.wf_scalarImm s f (fun _ => f.imm.signExtend 32) he hm
  case smovhi f => exact State.wf_scalarImm s f (highImm f.imm) he hm
  case csrr => exact State.wf_csrrOp _ _ he hm
  case csrw => exact State.wf_csrwOp _ _ he hm
  case sethand => exact State.wf_sethandOp _ _ he hm
  case rclaim => exact State.wf_rclaimOp _ _ he hm
  case rgive => exact State.wf_rgiveOp _ _ he hm
  case ixset => exact State.wf_ixsetOp _ _ he hm
  case nop => exact State.wf_nopOp _ he hm
  case ret => exact State.wf_retOp _ he hm
  case join => exact State.wf_joinOp _ he hm
  case exit => exact State.wf_exitOp _ he hm
  case trap => exact State.wf_trapOp _ he hm
  case rtt => exact State.wf_rttOp _ he hm
  case brk => exact State.wf_brkOp _ he hm
  case yield => exact State.wf_yieldOp _ he hm
  case fence => exact State.wf_fenceOp _ he hm
  case fencex => exact State.wf_fencexOp _ he hm
  case fend => exact State.wf_fendOp _ he hm
  case mpair => exact State.wf_mpairOp _ he hm
  case munpair => exact State.wf_munpairOp _ he hm
  case tdone => exact State.wf_tdoneOp _ he hm
  case tabort => exact State.wf_tabortOp _ he hm
  case tserial => exact State.wf_tserialOp _ he hm
  case wellfl => exact State.wf_wellflOp _ he hm
  case kill => exact State.wf_killOp _ he hm

theorem wf_exec_of_hasWords {i : Instr} (hw : i.hasWords = true) {s t : State} (he : exec i s = .next t) (hm : Memory.wf s.mem = true) :
    Memory.wf t.mem = true := by
  cases hv : vForm i with
  | some p =>
    obtain ⟨f, hr, _⟩ := runsV_of_vForm hv
    exact State.wf_runV _ _ _ _ ((hr s).symm.trans he) hm
  | none =>
    cases ha : memForm i with
    | some a => exact State.wf_memOp _ _ ((exec_of_memForm ha s).symm.trans he) hm
    | none => exact wf_exec_of_plain (by simp [plainForm, hw, hv, ha]) he hm

theorem hasWords_of_fetched {s : State} {i : Instr} (h : s.fetched = some (.ok i)) : i.hasWords = true := by
  unfold State.fetched at h
  split at h
  · cases h
  · obtain ⟨c, _, hc⟩ := Option.map_eq_some_iff.1 h
    exact hasWords_of_decode hc

theorem wf_takeEvent (e : Event) {s t : State} (he : takeEvent e s = .next t) (hm : Memory.wf s.mem = true) : Memory.wf t.mem = true := by
  rw [takeEvent_eq] at he
  cases he
  exact State.wf_effect _ e hm

theorem wf_issue {s t : State} (he : issue s = .next t) (hm : Memory.wf s.mem = true) : Memory.wf t.mem = true := by
  unfold issue at he
  split at he
  · cases he
  next i hf => exact wf_exec_of_hasWords (hasWords_of_fetched hf) he hm
  · exact State.wf_rejected _ _ he hm

theorem wf_takeTurn (p : PenTurn) {s t : State} (he : takeTurn p s = .next t) (hm : Memory.wf s.mem = true) : Memory.wf t.mem = true := by
  unfold takeTurn at he
  split at he
  · exact wf_issue he (by simpa using hm)
  · exact wf_takeEvent _ he hm

/-- Settles O60: every function that writes memory does so by `writeByte`, which keeps its canonical form, and every other one leaves memory as
it was. -/
theorem memoryStaysCanonical : Obligations.MemoryStaysCanonical := by
  intro s t hm he
  have hs : Memory.wf s.settle.mem = true := State.wf_settle s hm
  unfold step at he
  dsimp only at he
  split at he
  · exact wf_takeEvent _ he hs
  · exact wf_takeTurn _ he hs
  · cases he
    exact hs

end Sys2Proof.Machine
end

section
namespace Sys2Proof.Machine

/-! ## Every step completes (O58) -/

theorem exec_next {s : State} {k : GKey} {g : Group} {c : Clause} {i : Instr} (hi : s.issues k g c) (h : i.hasWords = true) :
    ∃ t, exec i s = .next t := by
  obtain ⟨f, hf⟩ := exec_eq_withIssuer h s
  exact ⟨_, hf.trans (State.withIssuer_of f hi)⟩

theorem State.fetched_of_issues {s : State} {k : GKey} {g : Group} {c : Clause} (hi : s.issues k g c) :
    s.fetched = some (decodeInstr (c.wordsAt g.pos).1 (c.wordsAt g.pos).2) := by
  obtain ⟨hk, hg, hc⟩ := hi
  simp [State.fetched, hk, hg, hc]

theorem issue_of_ok {s : State} {k : GKey} {g : Group} {c : Clause} {i : Instr} (hi : s.issues k g c)
    (h : decodeInstr (c.wordsAt g.pos).1 (c.wordsAt g.pos).2 = .ok i) : issue s = exec i s := by
  simp [issue, State.fetched_of_issues hi, h]

theorem issue_of_error {s : State} {k : GKey} {g : Group} {c : Clause} {r : Reject} {cs : Cause} (hi : s.issues k g c)
    (h : decodeInstr (c.wordsAt g.pos).1 (c.wordsAt g.pos).2 = .error r) (hc : rejectCause r = cs) :
    issue s = .next (s.raise k g (trapOf cs 0#32)) := by
  simp [issue, State.fetched_of_issues hi, h, hc, State.rejected, State.withIssuer_of _ hi]

theorem issue_next {s : State} {k : GKey} {g : Group} {c : Clause} (hi : s.issues k g c) : ∃ t, issue s = .next t := by
  cases h : decodeInstr (c.wordsAt g.pos).1 (c.wordsAt g.pos).2 with
  | ok i =>
    rw [issue_of_ok hi h]
    exact exec_next hi (hasWords_of_decode h)
  | error r => exact ⟨_, issue_of_error hi h rfl⟩

@[simp] theorem State.grant_issuer (s : State) (p : PenKey) : (s.grant p).issuer = s.issuer := by
  unfold State.grant
  split <;> simp

@[simp] theorem State.grant_group? (s : State) (p : PenKey) (k : GKey) : (s.grant p).group? k = s.group? k := by
  unfold State.grant
  split <;> simp

/-- A turn that issues is the turn of a group inside a clause. -/
def PenTurn.backed (s : State) (t : PenTurn) : Prop :=
  t.issues = true → ∃ g c, s.group? ⟨t.pen.die, t.pen.core, t.slot⟩ = some g ∧ g.clause = some c

theorem Group.clause_of_issuing {g : Group} (h : g.issuing = true) : ∃ c, g.clause = some c := by
  unfold Group.issuing at h
  cases hc : g.clause with
  | none => simp [hc] at h
  | some c => exact ⟨c, rfl⟩

theorem PenTurn.backed_of_not_issues {s : State} {t : PenTurn} (h : t.issues = false) : t.backed s := fun hi => by simp [h] at hi

theorem State.penTurn_backed {s : State} {p : PenKey} {t : PenTurn} (h : s.penTurn p = some t) : t.backed s := by
  unfold State.penTurn at h
  dsimp only at h
  split at h
  · obtain ⟨_, _, rfl⟩ := Option.map_eq_some_iff.1 h
    exact PenTurn.backed_of_not_issues rfl
  next slot _ =>
    split at h
    · cases h
      exact PenTurn.backed_of_not_issues rfl
    next g hg =>
      split at h
      · split at h
        next hi =>
          cases h
          obtain ⟨c, hc⟩ := Group.clause_of_issuing hi
          exact fun _ => ⟨g, c, hg, hc⟩
        · cases h
          exact PenTurn.backed_of_not_issues rfl
      · obtain ⟨_, _, rfl⟩ := Option.map_eq_some_iff.1 h
        exact PenTurn.backed_of_not_issues rfl
      · cases h
        exact PenTurn.backed_of_not_issues rfl

theorem State.nextTurn_backed {s : State} {t : PenTurn} (h : s.nextTurn = some t) : t.backed s := by
  refine List.foldlRecOn (motive := fun b : Option PenTurn => ∀ t, b = some t → t.backed s) _ _ ?_ ?_ t h
  · intro t h
    cases h
  · intro b hb p _ t ht
    split at ht
    next x y _ hy =>
      split at ht
      · exact State.penTurn_backed (hy.trans ht)
      · exact hb _ ht
    next _ hn => exact State.penTurn_backed ht
    next => exact hb _ ht

theorem State.next_turn_backed {s : State} {t : PenTurn} (h : s.next = .turn t) : t.backed s := by
  have deed : ∀ n, s.nextDeed = some n → n = .turn t → t.backed s := by
    intro n hn ht
    unfold State.nextDeed at hn
    grind [State.nextTurn_backed]
  unfold State.next at h
  grind

/-- The state in which a pen's turn comes to issue. -/
theorem State.issues_of_turn {s : State} {t : PenTurn} {g : Group} {c : Clause} (hg : s.group? ⟨t.pen.die, t.pen.core, t.slot⟩ = some g)
    (hc : g.clause = some c) :
    State.issues (((s.setClk t.at_).setIssuer ⟨t.pen.die, t.pen.core, t.slot⟩).grant t.pen) ⟨t.pen.die, t.pen.core, t.slot⟩ g c :=
  ⟨by simp, (State.grant_group? ..).trans hg, hc⟩

theorem step_of_turn {s : State} {t : PenTurn} (h : s.settle.next = .turn t) (hi : t.issues = true) :
    step s = issue (((s.settle.setClk t.at_).setIssuer ⟨t.pen.die, t.pen.core, t.slot⟩).grant t.pen) := by
  simp [step, h, takeTurn, hi]

theorem step_of_bound {s : State} {t : PenTurn} (h : s.settle.next = .turn t) (hi : t.issues = false) :
    step s = takeEvent (.clauseStart t.pen) (s.settle.setClk t.at_) := by
  simp [step, h, takeTurn, hi]

theorem takeEvent_clauseStart (p : PenKey) (s : State) :
    takeEvent (.clauseStart p) s = exec .clauseStart (s.setSubject (.clauseStart p)) := rfl

theorem step_of_event {s : State} {t : Nat} {e : Event} {rest : List (Nat × Event)} (h : s.settle.next = .event t e rest) :
    step s = takeEvent e ((s.settle.setClk t).setAgenda rest) := by
  simp [step, h]

theorem step_of_pass {s : State} {t : Nat} (h : s.settle.next = .pass t) : step s = .next (s.settle.setClk t) := by
  simp [step, h]

theorem takeEvent_next (e : Event) (s : State) : ∃ t, takeEvent e s = .next t := ⟨_, takeEvent_eq e s⟩

theorem step_turn_next {s : State} {t : PenTurn} (h : s.settle.next = .turn t) : ∃ u, step s = .next u := by
  cases hi : t.issues with
  | false => exact (takeEvent_next _ _).imp fun _ hu => (step_of_bound h hi).trans hu
  | true =>
    obtain ⟨g, c, hg, hc⟩ := State.next_turn_backed h hi
    exact (issue_next (State.issues_of_turn hg hc)).imp fun _ hu => (step_of_turn h hi).trans hu

theorem step_next (s : State) : ∃ t, step s = .next t := by
  generalize h : s.settle.next = n
  cases n with
  | event t e rest =>
    obtain ⟨u, hu⟩ := takeEvent_next e ((s.settle.setClk t).setAgenda rest)
    exact ⟨u, (step_of_event h).trans hu⟩
  | pass t => exact ⟨_, step_of_pass h⟩
  | turn t => exact step_turn_next h

/-- Settles O58: a step is `issue`, `takeEvent` or the passing of time, by what `next` answers; an instruction that has words acts through
`withIssuer`, which completes for the issuer, and the row of every event answers its effect. -/
theorem stepRunsDecodedInstruction : Obligations.StepRunsDecodedInstruction := by
  intro s
  refine ⟨?_, fun t h hi => ?_, fun t e rest h => step_of_event h, fun t h => step_of_pass h, ⟨_, exec_rowOf_subject s⟩,
    fun k g c i hi hw => exec_next hi hw, step_next s⟩
  · intro t g c h hi k u hg hc
    have hiss : State.issues u k g c := State.issues_of_turn hg hc
    exact ⟨fun i hd => ⟨(step_of_turn h hi).trans (issue_of_ok hiss hd), hiss⟩,
      fun hd => (step_of_turn h hi).trans (issue_of_error hiss hd rfl),
      fun hd => (step_of_turn h hi).trans (issue_of_error hiss hd rfl)⟩
  · exact (step_of_bound h hi).trans (takeEvent_clauseStart _ _)

end Sys2Proof.Machine
end

section
namespace Sys2Proof.Machine

/-! ## Accesses (O27, O28) -/

theorem State.memOp_of_ready {s : State} {k : GKey} {g : Group} {c : Clause} {a : MArgs} (hi : s.issues k g c) (hr : g.accessReady a) :
    s.memOp a = .next (s.issueAccess k g c a) := by
  obtain ⟨hp, hf, hs, -, -⟩ := hr
  rw [State.memOp, State.withIssuer_of _ hi]
  simp [hp, hf, hs]

theorem Group.check128_of_ready {g : Group} {a : MArgs} (hr : g.accessReady a) :
    (if mKind a.op = MKind.ldu then g.check128 (a.usesAt (g.mLanes a)) else ({ g with exec := g.mLanes a }).check128 a.uses) = none := by
  obtain ⟨-, -, -, hn, hl⟩ := hr
  split
  next h => exact hl h
  next h => exact hn h

theorem State.issueAccess_of_idle {s : State} {k : GKey} {g : Group} {c : Clause} {a : MArgs} (hr : g.accessReady a)
    (h : g.mLanes a = 0#32 ∨ mKind a.op = .pref) : s.issueAccess k g c a = s.advance k (g.mDead a) c (g.occupancy a.uses 0) none := by
  unfold State.issueAccess
  simp only [Group.check128_of_ready hr]
  by_cases hm : g.mLanes a = 0#32
  · rw [if_pos hm]
  · rw [if_neg hm, if_pos (h.resolve_left hm)]

/-- What `accessReaches` says of one lane. -/
def LaneTry.reached (x : LaneTry) (g : Group) (mk : MKind) (t : State) : Prop :=
  x.fault mk = none ∧ ∃ rs, x.reach = .runs rs ∧ (g.speculative = true → (rs.any fun q => q.place.outside) = false)
    ∧ (mk.reads = true → t.spoiled rs = false)

theorem Group.logOverlaps_of_empty {g : Group} (h : g.log = []) (sel lin width : Nat) : g.logOverlaps sel lin width = false := by
  simp [Group.logOverlaps, h]

theorem Group.logged_of_reached {g : Group} {a : MArgs} {t : State} {xs : List LaneTry} (hlog : g.log = [])
    (h : ∀ x ∈ xs, x.reached g (mKind a.op) t) (sel : Nat) : g.logged a sel xs = [] := by
  unfold Group.logged
  dsimp only
  split
  · refine List.filter_eq_nil_iff.2 fun x hx => ?_
    simp [(h x hx).1, Group.logOverlaps_of_empty hlog]
  · rfl

theorem firstFault_of_reached {g : Group} {mk : MKind} {t : State} {xs : List LaneTry} (h : ∀ x ∈ xs, x.reached g mk t)
    : firstFault mk xs = none := by
  refine List.findSome?_eq_none_iff.2 fun n _ => List.findSome?_eq_none_iff.2 fun x hx => ?_
  rw [(h x hx).1]

section
variable {s t : State} {k : GKey} {g : Group} {c : Clause} {a : MArgs} {xs : List LaneTry}

theorem State.issueAccess_of_reaches (hr : g.accessReady a) (hm : g.mLanes a ≠ 0#32) (hp : mKind a.op ≠ .pref) (hfree : s.accessFree k g a)
    (hreach : s.accessReaches k g a xs t) :
    s.issueAccess k g c a = t.launchAccess k g c a (s.whoOf k g) (g.segReg a.g).sel.toNat (g.mLanes a) xs [] := by
  obtain ⟨hacq, hls, hsc, hrel, hlog⟩ := hfree
  obtain ⟨hseg, htry, hx⟩ := hreach
  have hx : ∀ x ∈ xs, x.reached g (mKind a.op) t := fun x hin => ⟨(hx x hin).1, (hx x hin).2⟩
  unfold Group.accessOffsets at hseg htry
  have horder : ∀ b : Bool, ((if b then 0 else a.ord) = 3 && (!g.scOut.isEmpty || !g.log.isEmpty)) = false := by
    intro b
    cases b <;> simp_all
  have hwrites : ∀ b : Bool, ((mKind a.op).writes && decide (2 ≤ if b then 0 else a.ord) && !g.released) = false := by
    intro b
    cases b <;> simp_all
  have hno : ∀ {p : LaneTry → Bool} {x}, xs.find? p = some x → ∃ rs, x.reach = .runs rs ∧ p x = true ∧
    ((mKind a.op).reads = true → t.spoiled rs = false) :=
    fun hf => let ⟨_, rs, hrs, _, hsp⟩ := hx _ (List.mem_of_find?_eq_some hf); ⟨rs, hrs, List.find?_some hf, hsp⟩
  unfold State.issueAccess
  simp only [Group.check128_of_ready hr, if_neg hm, if_neg hp, hacq, hseg, htry, horder, hwrites, Group.logOverlaps_of_empty hlog,
    Group.logged_of_reached hlog hx, firstFault_of_reached hx, if_neg (Nat.not_le.2 hls), Bool.false_eq_true, ↓reduceIte]
  split
  next h => simp at h
  split
  next x hf =>
    obtain ⟨rs, hrs, hpx, -⟩ := hno hf
    simp [LaneTry.intoFolio, hrs] at hpx
  split
  next x hf =>
    obtain ⟨rs, hrs, hpx, -⟩ := hno hf
    simp [hrs] at hpx
  split
  next hout =>
    rw [Bool.and_eq_true, List.any_eq_true] at hout
    obtain ⟨hspec, x, hin, ho⟩ := hout
    obtain ⟨-, rs, hrs, hplace, -⟩ := hx x hin
    simp [hrs, hplace hspec] at ho
  split
  next f x hv =>
    split at hv
    · cases hv
    · obtain ⟨y, hin, hy⟩ := List.exists_of_findSome?_eq_some hv
      simp [(hx y hin).1] at hy
  rw [if_neg (by simp [hlog]), if_neg (by simp [recordPages])]
  simp only [List.any_nil, Bool.not_false, List.filter_true]
  split
  next x hf =>
    obtain ⟨rs, hrs, hpx, hsp⟩ := hno hf
    simp only [hrs, Bool.and_eq_true] at hpx
    simp [hsp hpx.1] at hpx
  · rfl
end

/-- Settles O27: each check of `issueAccess` is passed by what `accessReady`, `accessFree` and `accessReaches` say. -/
theorem accessIssues : Obligations.AccessIssues := by
  intro i a s k g c hf hi hr
  rw [exec_of_memForm hf, State.memOp_of_ready hi hr]
  exact ⟨fun h => congrArg _ (State.issueAccess_of_idle hr h),
    fun xs t hm hp hfree hreach => congrArg _ (State.issueAccess_of_reaches hr hm hp hfree hreach)⟩

end Sys2Proof.Machine
end

section
namespace Sys2Proof.Machine

/-! ### Evictions and marks keep what a live register reads as -/

theorem Group.regLane_evict {g : Group} (h : g.wellOk) (n m : Nat) {l : Nat} (hl : l < 32) : (g.evict n).1.regLane m l = g.regLane m l := by
  unfold Group.evict
  cases he : g.well.find (n % 8) with
  | none => rfl
  | some e =>
    obtain ⟨-, hd⟩ := Group.wellOk_find h he
    by_cases hn : e.reg = n
    · simp only [hn, if_true, Group.regLane, writeBack, if_pos hd]
      by_cases hk : m % 8 = n % 8
      · rw [hk, Tbl.find_del_self _ h.1, he]
        by_cases hm : m = n
        · subst hm
          simp [Tbl.get_put_self, mergeLanes_at, hl, hn]
        · simp [Tbl.get_put_ne _ _ _ hm, hn, Ne.symm hm]
      · have hm : m ≠ n := fun q => hk (q ▸ rfl)
        rw [Tbl.find_del_ne _ hk, Tbl.get_put_ne _ _ _ hm]
    · simp only [if_neg hn]

theorem Group.wellOk_evict {g : Group} (h : g.wellOk) (n : Nat) : (g.evict n).1.wellOk := by
  unfold Group.evict
  split
  · split
    · exact wellTbl_del h _
    · exact h
  · exact h

/-- The second group is the first after marks and evictions: a register that is not dead in it reads as before. -/
def Group.regsMoved (g h : Group) : Prop :=
  (∃ r w d, h = { g with regs := r, well := w, dead := d })
  ∧ (g.wellOk → h.wellOk ∧ ∀ n l, l < 32 → n ∉ h.dead → n ∉ g.dead ∧ h.regLane n l = g.regLane n l)

theorem Group.regsMoved_refl (g : Group) : g.regsMoved g := ⟨⟨_, _, _, rfl⟩, fun hw => ⟨hw, fun _ _ _ hn => ⟨hn, rfl⟩⟩⟩

theorem Group.regsMoved_trans {g h i : Group} (a : g.regsMoved h) (b : h.regsMoved i) : g.regsMoved i := by
  obtain ⟨⟨r, w, d, rfl⟩, ha⟩ := a
  obtain ⟨⟨r', w', d', rfl⟩, hb⟩ := b
  refine ⟨⟨r', w', d', rfl⟩, fun hw => ?_⟩
  obtain ⟨hw1, h1⟩ := ha hw
  obtain ⟨hw2, h2⟩ := hb hw1
  refine ⟨hw2, fun n l hl hn => ?_⟩
  obtain ⟨hn2, e2⟩ := h2 n l hl hn
  obtain ⟨hn1, e1⟩ := h1 n l hl hn2
  exact ⟨hn1, e2.trans e1⟩

theorem Group.regsMoved_foldl {α : Type} {f : Group → α → Group} (hf : ∀ g x, Group.regsMoved g (f g x)) (l : List α) (g : Group) :
    g.regsMoved (l.foldl f g) := by
  induction l generalizing g with
  | nil => exact g.regsMoved_refl
  | cons x r ih => exact Group.regsMoved_trans (hf g x) (ih _)

theorem Group.markDead_moves (g : Group) (n : Nat) : g.regsMoved (g.markDead n) := by
  refine ⟨⟨_, _, _, rfl⟩, fun hw => ⟨Group.wellOk_markDead hw n, fun m l _ hm => ?_⟩⟩
  rw [Group.mem_markDead_dead, not_or] at hm
  exact ⟨hm.2, Group.regLane_markDead hw hm.1 l⟩

theorem Group.evict_moves (g : Group) (n : Nat) : g.regsMoved (g.evict n).1 := by
  have hd : (g.evict n).1.dead = g.dead := by
    unfold Group.evict
    grind
  refine ⟨?_, fun hw => ⟨Group.wellOk_evict hw n, fun m l hl hm => ⟨hd ▸ hm, Group.regLane_evict hw n m hl⟩⟩⟩
  unfold Group.evict
  split
  · split
    · exact ⟨_, _, _, rfl⟩
    · exact ⟨_, _, _, rfl⟩
  · exact ⟨_, _, _, rfl⟩

theorem Group.evictAll_moves (g : Group) (ps : List Pend) : g.regsMoved (g.evictAll ps).1 := by
  unfold Group.evictAll
  generalize (0 : Nat) = t
  induction ps generalizing g t with
  | nil => exact g.regsMoved_refl
  | cons p r ih =>
    rw [List.foldl_cons]
    split
    next n _ => exact Group.regsMoved_trans (g.evict_moves n) (ih _ _)
    · exact ih _ _

theorem Group.mDead_moves (g : Group) (a : MArgs) : g.regsMoved (g.mDead a) := by
  have mark (h : Group) (d : Bool) (b : BitVec 8) (n : Nat) : h.regsMoved (match specKind b with
      | .reg r => if d then (List.range n).foldl (fun (x : Group) i => x.markDead (r + i)) h else h
      | _ => h) := by
    split
    next r _ =>
      split
      · exact Group.regsMoved_foldl (fun g i => g.markDead_moves (r + i)) _ _
      · exact h.regsMoved_refl
    · exact h.regsMoved_refl
  unfold Group.mDead
  dsimp only
  split
  · exact g.regsMoved_refl
  · exact Group.regsMoved_trans (mark g _ _ _) (mark _ _ _ _)

/-! ### What `launchAccess` puts in flight -/

/-- A lane of an access as it sets out. -/
def State.laneOut (s : State) (k : GKey) (g : Group) (a : MArgs) (w : Who) (x : LaneTry) : LaneAcc :=
  let mk := mKind a.op
  let rs := match x.reach with
    | .runs rs => rs
    | _ => []
  { lane := x.lane, lin := x.lin, ofs := ofs48 x.ofs, runs := rs,
    data := if mk.writes then
        s.dataOf k g (if mk.isStore then a.data else a.val) (if mk = .reduce .fadd ∨ mk = .atomic .fadd then .fp else .int) a.width x.lane else [],
    cmp := if mk = .atomic .cas then s.dataOf k g a.cmp .int a.width x.lane else [],
    path := s.pathOf w.die rs, done := false, got := none }

/-- The access that `launchAccess` puts in flight where nothing goes to the side log. -/
def State.accessOut (s : State) (k : GKey) (g : Group) (a : MArgs) (w : Who) (sel : Nat) (mask : Word) (xs : List LaneTry) : Access :=
  { g := k, team := g.team, ctx := s.ctxOf g.team, kind := (mKind a.op).accKind, width := a.width, sel := sel,
    lanes := xs.map (s.laneOut k g a w), dst := g.mDst a, mask := if mKind a.op = .ldu then g.exec else mask,
    ord := if g.speculative && ((mKind a.op).isAtomic || (mKind a.op).isReduce) then 0 else a.ord, scope := a.scope,
    task := g.task.map (·.record.id), told := [] }

/-- The group with the access in flight. -/
def Group.withAccess (g : Group) (a : MArgs) (id : Nat) (acc : Access) : Group :=
  let ps := pendsOf id a (g.mDst a) acc.mask
  let g1 := ((g.mDead a).evictAll ps).1
  { g1 with lsq := g1.lsq ++ [(id, false)], pend := ps ++ g1.pend, scOut := if acc.ord = 3 then id :: g1.scOut else g1.scOut,
            irrev := g1.irrev || (mKind a.op).isAtomic || (mKind a.op).isReduce || acc.lanes.any fun x => x.runs.any fun r => r.place.outside }

/-- The state in which the group has gone on with its access registered and no lane sent. -/
def State.registered (s : State) (k : GKey) (g : Group) (c : Clause) (a : MArgs) (acc : Access) : State :=
  let t := ((g.mDead a).evictAll (pendsOf s.fresh a (g.mDst a) acc.mask)).2
  let u := (s.setFresh (s.fresh + 1)).advance k (g.withAccess a s.fresh acc) c (g.occupancy a.uses 0 + t) none
  u.setAccess (u.access.put s.fresh acc)

theorem State.dataOf_setFresh (s : State) (n : Nat) : (s.setFresh n).dataOf = s.dataOf := rfl

theorem State.launchAccess_eq (s : State) (k : GKey) (g : Group) (c : Clause) (a : MArgs) (w : Who) (sel : Nat) (mask : Word) (xs : List LaneTry) :
    ∃ n, s.launchAccess k g c a w sel mask xs [] =
      let acc := s.accessOut k g a w sel mask xs
      let u := acc.lanes.foldl (fun u x => u.sendLane s.fresh w acc x (g.lastOctet a.uses)) (s.registered k g c a acc)
      if (mKind a.op).isLoad then u else u.after n (.accessComplete s.fresh) := by
  refine ⟨g.lastOctet a.uses + (s.accessOut k g a w sel mask xs).lanes.foldl (fun m x => max m (figureOf w x.runs / 2)) 0, ?_⟩
  unfold State.launchAccess State.reportLogged State.newId State.registered Group.withAccess State.accessOut State.laneOut
  simp only [List.map_nil, List.isEmpty_nil, if_true, List.any_nil, Bool.or_false, List.append_nil, List.foldl_nil, State.dataOf_setFresh,
    State.pathOf_congr (t := s.setFresh (s.fresh + 1)) (s := s) rfl] <;> (generalize (g.mDead a).evictAll _ = E; rfl)

theorem State.foldl_sendLane_moves (s : State) (id : Nat) (w : Who) (acc : Access) (b : Nat) (ls : List LaneAcc)
    (h : ∀ x ∈ ls, ∀ h ∈ x.path.head?, (s.wall h.link).closed = false) :
    s.flitsMoved (ls.foldl (fun u x => u.sendLane id w acc x b) s) :=
  State.foldl_moves _ (fun s x => State.sendLane_moves s id w acc x b) ls s h

theorem State.laneOut_runs {s : State} {k : GKey} {g : Group} {a : MArgs} {w : Who} {x : LaneTry} {rs : List Run} (h : x.reach = .runs rs) :
    (s.laneOut k g a w x).runs = rs := by
  simp [State.laneOut, h]

theorem State.laneOut_path (s : State) (k : GKey) (g : Group) (a : MArgs) (w : Who) (x : LaneTry) :
    (s.laneOut k g a w x).path = s.pathOf w.die (s.laneOut k g a w x).runs := rfl

/-- The state after a launch is the one in which the access is registered, but for flits, the agenda and the counter of delays. -/
theorem State.launchAccess_moves {s : State} {k : GKey} {g : Group} {a : MArgs} {w : Who} {xs : List LaneTry} (c : Clause) (sel : Nat) (mask : Word)
    (hx : ∀ x ∈ xs, ∃ rs, x.reach = .runs rs ∧ ∀ h ∈ (s.pathOf w.die rs).head?, (s.wall h.link).closed = false) :
    (s.registered k g c a (s.accessOut k g a w sel mask xs)).flitsMoved (s.launchAccess k g c a w sel mask xs []) := by
  obtain ⟨n, hn⟩ := s.launchAccess_eq k g c a w sel mask xs
  rw [hn]
  have hsend := (s.registered k g c a (s.accessOut k g a w sel mask xs)).foldl_sendLane_moves s.fresh w (s.accessOut k g a w sel mask xs)
    (g.lastOctet a.uses) (s.accessOut k g a w sel mask xs).lanes fun y hy h hh => by
      obtain ⟨x, hin, rfl⟩ := List.mem_map.1 hy
      obtain ⟨rs, hrs, hopen⟩ := hx x hin
      rw [State.laneOut_path, State.laneOut_runs hrs] at hh
      exact hopen h hh
  dsimp only
  split
  · exact hsend
  · exact State.flitsMoved_trans hsend ⟨_, _, _, rfl, rfl⟩

theorem Group.withAccess_spec (g : Group) (a : MArgs) (id : Nat) (acc : Access) :
    (g.withAccess a id acc).lsq = g.lsq ++ [(id, false)] ∧ (g.withAccess a id acc).pend = pendsOf id a (g.mDst a) acc.mask ++ g.pend
    ∧ (∃ r w d o i, g.withAccess a id acc =
        { g with regs := r, well := w, dead := d, lsq := g.lsq ++ [(id, false)],
                 pend := pendsOf id a (g.mDst a) acc.mask ++ g.pend, scOut := o, irrev := i })
    ∧ (g.wellOk → ∀ n l, l < 32 → n ∉ (g.withAccess a id acc).dead → (g.withAccess a id acc).regLane n l = g.regLane n l) := by
  have hmv := Group.regsMoved_trans (g.mDead_moves a) (Group.evictAll_moves _ (pendsOf id a (g.mDst a) acc.mask))
  obtain ⟨⟨r, w, d, he⟩, hlane⟩ := hmv
  unfold Group.withAccess
  dsimp only
  rw [he] at hlane ⊢
  exact ⟨rfl, rfl, ⟨_, _, _, _, _, rfl⟩, fun hw n l hl hn => (hlane hw).2 n l hl hn |>.2⟩

/-- Settles O28: the lanes' requests move flits and the agenda only, so that what `launchAccess` registers is what stands afterwards. -/
theorem accessInFlight : Obligations.AccessInFlight := by
  intro s k g c a w sel mask xs hx hg t
  have hmv := State.launchAccess_moves (a := a) (g := g) (k := k) c sel mask hx
  obtain ⟨hlsq, hpend, ⟨r, w', d, o, i, hgroup⟩, hlive⟩ := g.withAccess_spec a s.fresh (s.accessOut k g a w sel mask xs)
  obtain ⟨hmem, hgroups, -, haccess, -⟩ := State.flitsMoved_keeps hmv
  refine ⟨hmem, ?_, fun n hn => ?_, ⟨s.accessOut k g a w sel mask xs, ?_, rfl, rfl, rfl, rfl, ?_, rfl, fun x hin => ?_⟩,
    ((g.withAccess a s.fresh (s.accessOut k g a w sel mask xs)).stepped c none), ?_, ?_⟩
  · obtain ⟨f, ag, fc, ht, -⟩ := hmv
    show s.launchAccess k g c a w sel mask xs [] = _
    rw [show t = _ from ht, ht]
    rfl
  · rw [hgroups]
    exact Tbl.find_put_ne _ _ hn
  · rw [haccess]
    exact Tbl.find_put_self _ _ _
  · simp [State.accessOut]
  · obtain ⟨rs, hrs, -⟩ := hx x hin
    refine ⟨s.laneOut k g a w x, List.mem_map_of_mem hin, rfl, by rw [State.laneOut_runs hrs, hrs], rfl, rfl, fun hst => ?_, fun hcas => ?_⟩
    · cases hk : mKind a.op <;> simp_all [State.laneOut, MKind.isStore, MKind.writes]
    · simp [State.laneOut, hcas, MKind.isStore, MKind.writes, MKind.isAtomic]
  · rw [State.group?_eq _ _ _ hgroups]
    exact Tbl.find_put_self _ _ _
  · rw [Group.stepped_eq]
    refine ⟨hlsq, hpend, ?_, ?_, ?_, ?_, ?_, ?_, ?_, ?_, ?_, hlive⟩
    all_goals rw [hgroup]

end Sys2Proof.Machine
end

section
namespace Sys2Proof.Machine

/-! ## A load's return (O29) -/

theorem mem_insertDue (due : Nat) (e : Event) (l : List (Nat × Event)) : (due, e) ∈ insertDue due e l := by
  induction l with
  | nil => simp [insertDue]
  | cons x r ih =>
    obtain ⟨d, y⟩ := x
    unfold insertDue
    split <;> simp [ih]

theorem State.mem_after_agenda (s : State) (n : Nat) (e : Event) : ∃ due, s.clk + n ≤ due ∧ (due, e) ∈ (s.after n e).agenda :=
  ⟨_, Nat.le_add_right _ _, mem_insertDue _ e s.agenda⟩

theorem State.loadRun_of_plain (s : State) {r : Run} (h : r.place.plain = true) : s.loadRun r = (s.readBytes r.place r.len, s) := by
  unfold State.loadRun
  cases hp : r.place <;> simp_all [Place.plain]

theorem State.loadRuns_of_plain (s : State) {rs : List Run} (h : (rs.all fun r => r.place.plain) = true) : s.loadRuns rs = (s.readRuns rs, s) := by
  induction rs with
  | nil => rfl
  | cons r rest ih =>
    rw [List.all_cons, Bool.and_eq_true] at h
    simp [State.loadRuns, s.loadRun_of_plain h.1, ih h.2, State.readRuns]

theorem State.groupRead_of_plain (s : State) (k : GKey) {g : Group} {rs : List Run} (ht : g.task = none)
    (h : (rs.all fun r => r.place.plain) = true) :
    s.groupRead k g rs = (s.readRuns rs, s) := by
  simp [State.groupRead, ht, s.loadRuns_of_plain h]

theorem State.homeStalls_of_no_task (s : State) (k : GKey) {g : Group} (rs : List Run) (r w : Bool) (ht : g.task = none) :
    s.homeStalls k g rs r w = false := by
  simp [State.homeStalls, ht]

theorem exec_loadReturn {s : State} {id l : Nat} (h : s.subject = .loadReturn id l) : exec .loadReturn s = .next (s.loadReturn id l) := by
  have := exec_rowOf_subject s
  rw [h] at this
  exact this

theorem exec_accessComplete {s : State} {id : Nat} (h : s.subject = .accessComplete id) : exec .accessComplete s = .next (s.accessComplete id) := by
  have := exec_rowOf_subject s
  rw [h] at this
  exact this

/-- The lane as it stands once it has performed: what it read is on its way back. -/
def State.laneRead (s : State) (a : Access) (x : LaneAcc) : LaneAcc :=
  { x with done := true, got := some (s.readRuns x.runs), path := s.backOf a.g.die x.runs }

/-- The access with lane `x.lane` replaced. -/
def Access.putLane (a : Access) (x : LaneAcc) : Access := { a with lanes := a.lanes.map fun y => if y.lane = x.lane then x else y }

theorem State.loadReturn_of_performs {s : State} {id l : Nat} {a : Access} {x : LaneAcc} {g : Group} (ha : s.access.find id = some a)
    (hx : (a.lanes.find? fun y => y.lane = l) = some x) (hg : s.group? a.g = some g) (ht : g.task = none) (hteam : g.team = a.team)
    (hd : x.done = false) (hp : x.path = []) (hlow : ∀ y ∈ a.lanes, y.lane < l → y.done = true) (hf : s.mustFollow id a x.runs = false)
    (hr : s.refreshEnd x.runs = none) (hplain : (x.runs.all fun r => r.place.plain) = true) :
    s.loadReturn id l = (s.setAccess (s.access.put id (a.putLane (s.laneRead a x)))).sendBack id (s.whoOf a.g g) (a.putLane (s.laneRead a x))
      (s.laneRead a x) := by
  have hl : x.lane = l := by simpa using List.find?_some hx
  have hany : (a.lanes.any fun y => decide (y.lane < l) && !y.done) = false := by
    rw [List.any_eq_false]
    intro y hy
    by_cases hlt : y.lane < l
    · simp [hlow y hy hlt]
    · simp [hlt]
  unfold State.loadReturn
  simp only [ha, hx, hg, hteam, hp, hd, hany, hf, hr, s.homeStalls_of_no_task a.g x.runs true false ht, s.groupRead_of_plain a.g ht hplain,
    List.isEmpty_nil, bne_self_eq_false, Bool.not_true, Bool.or_self, Bool.false_eq_true, if_false]
  simp only [State.laneRead, Access.putLane, hl]

theorem State.setAccess_flitsMoved_access {s t : State} {A : Tbl Access} (h : (s.setAccess A).flitsMoved t) :
    t.mem = s.mem ∧ t.groups = s.groups ∧ t.access = A := by
  obtain ⟨hm, hg, -, ha, -⟩ := State.flitsMoved_keeps h
  exact ⟨hm, hg, ha⟩

theorem State.sendBack_posts (s : State) (id : Nat) (w : Who) (a : Access) (x : LaneAcc) (hk : a.kind = .load ∨ a.kind = .ldu) (hp : x.path = []) :
    ∃ due, s.clk + backLeg w x.runs ≤ due ∧ (due, Event.loadReturn id x.lane) ∈ (s.sendBack id w a x).agenda := by
  rcases hk with hk | hk
  all_goals
    simp only [State.sendBack, hp, hk]
    exact s.mem_after_agenda _ _

/-! ### Landing in registers -/

/-- One word lands in one lane of register `n`. -/
def Group.landWord (g : Group) (n l : Nat) (v : Word) : Group :=
  let h := g.enliven n
  { h with regs := h.regs.put n (mergeLanes (1#32 <<< l) (Lanes.ofFn fun _ => v) (h.regs.get zeroLanes n)),
           well := match h.well.find (n % 8) with
             | some e => if e.reg = n then h.well.del (n % 8) else h.well
             | none => h.well }

theorem Group.landWord_well (g : Group) (n l : Nat) (v : Word) : (g.landWord n l v).well = (g.markDead n).well := rfl

theorem Group.landWord_dead (g : Group) (n l : Nat) (v : Word) : (g.landWord n l v).dead = g.dead.filter (· ≠ n) := rfl

theorem Group.landWord_regs (g : Group) (n l : Nat) (v : Word) :
    (g.landWord n l v).regs = g.regs.put n (mergeLanes (1#32 <<< l) (Lanes.ofFn fun _ => v) (g.regs.get zeroLanes n)) := rfl

theorem Group.wellOk_landWord {g : Group} (h : g.wellOk) (n l : Nat) (v : Word) : (g.landWord n l v).wellOk := Group.wellOk_markDead h n

/-- The well holds nothing of register `n`. -/
def Group.unheld (g : Group) (n : Nat) : Prop := ∀ e, g.well.find (n % 8) = some e → e.reg ≠ n

theorem Group.regLane_of_unheld {g : Group} {n : Nat} (h : g.unheld n) (j : Nat) : g.regLane n j = (g.regs.get zeroLanes n).at j := by
  unfold Group.regLane
  split
  next e he => rw [if_neg fun q => h e he q.1]
  · rfl

theorem Group.unheld_landWord_self {g : Group} (h : g.wellOk) (n l : Nat) (v : Word) : (g.landWord n l v).unheld n := by
  intro e he
  rw [Group.landWord_well, Group.markDead_well] at he
  split at he
  · split at he
    · rw [Tbl.find_del_self _ h.1] at he
      cases he
    next hf hne => rw [hf] at he; cases he; exact hne
  next hf => rw [hf] at he; cases he

theorem Group.unheld_landWord {g : Group} (h : g.wellOk) {m : Nat} (hm : g.unheld m) (n l : Nat) (v : Word) : (g.landWord n l v).unheld m := by
  by_cases hmn : m = n
  · exact hmn ▸ Group.unheld_landWord_self h n l v
  intro e he
  rw [Group.landWord_well, Group.markDead_well] at he
  split at he
  · split at he
    · by_cases hk : m % 8 = n % 8
      · rw [hk, Tbl.find_del_self _ h.1] at he
        cases he
      · rw [Tbl.find_del_ne _ hk] at he
        exact hm e he
    · exact hm e he
  · exact hm e he

theorem getLsbD_one_shiftLeft {l j : Nat} (hj : j < 32) : (1#32 <<< l).getLsbD j = decide (j = l) := by
  simp only [BitVec.getLsbD_shiftLeft, hj, decide_true, Bool.true_and, BitVec.getLsbD_one]
  by_cases h : j < l
  · simp [h, Nat.ne_of_lt h]
  · simp [h]
    omega

theorem Group.regLane_landWord_self {g : Group} (h : g.wellOk) (n : Nat) {l : Nat} (hl : l < 32) (v : Word) :
    (g.landWord n l v).regLane n l = v := by
  rw [Group.regLane_of_unheld (Group.unheld_landWord_self h n l v), Group.landWord_regs, Tbl.get_put_self, mergeLanes_at _ _ _ hl,
    getLsbD_one_shiftLeft hl]
  simp [hl]

theorem Group.regLane_landWord_ne {g : Group} (h : g.wellOk) {n m : Nat} (hm : m ≠ n) (l j : Nat) (v : Word) :
    (g.landWord n l v).regLane m j = g.regLane m j := by
  have hd := Group.regLane_markDead h hm j
  unfold Group.regLane at hd ⊢
  rw [Group.landWord_well, Group.landWord_regs, Tbl.get_put_ne _ _ _ hm]
  exact hd

/-- `v` has landed in lane `j` of register `n`. -/
def Group.landedIn (g : Group) (n j : Nat) (v : Word) : Prop := g.regLane n j = v ∧ g.unheld n ∧ n ∉ g.dead

theorem Group.landedIn_landWord_self {g : Group} (h : g.wellOk) (n : Nat) {l : Nat} (hl : l < 32) (v : Word) : (g.landWord n l v).landedIn n l v :=
  ⟨Group.regLane_landWord_self h n hl v, Group.unheld_landWord_self h n l v, by simp [Group.landWord_dead]⟩

theorem Group.landedIn_landWord {g : Group} (h : g.wellOk) {m j : Nat} {u : Word} (hj : j < 32) (hm : g.landedIn m j u) {n l : Nat}
    (hne : ¬ (m = n ∧ j = l)) (v : Word) : (g.landWord n l v).landedIn m j u := by
  obtain ⟨hval, hheld, hdead⟩ := hm
  refine ⟨?_, Group.unheld_landWord h hheld n l v, fun hin => hdead (List.mem_filter.1 (Group.landWord_dead g n l v ▸ hin)).1⟩
  by_cases hmn : m = n
  · subst hmn
    have hjl : j ≠ l := fun q => hne ⟨rfl, q⟩
    rw [Group.regLane_of_unheld (Group.unheld_landWord_self h m l v), Group.landWord_regs, Tbl.get_put_self, mergeLanes_at _ _ _ hj,
      getLsbD_one_shiftLeft hj, ← hval, Group.regLane_of_unheld hheld]
    simp [hjl]
  · rw [Group.regLane_landWord_ne h hmn, hval]

/-- Words that land one after the other, each a register, a lane and a value. -/
def Group.landWords (g : Group) (ws : List (Nat × Nat × Word)) : Group := ws.foldl (fun h w => h.landWord w.1 w.2.1 w.2.2) g

theorem Group.wellOk_landWords {g : Group} (h : g.wellOk) (ws : List (Nat × Nat × Word)) : (g.landWords ws).wellOk := by
  induction ws generalizing g with
  | nil => exact h
  | cons w r ih => exact ih (Group.wellOk_landWord h _ _ _)

theorem Group.landWords_eq (g : Group) (ws : List (Nat × Nat × Word)) : ∃ r w d, g.landWords ws = { g with regs := r, well := w, dead := d } := by
  induction ws generalizing g with
  | nil => exact ⟨_, _, _, rfl⟩
  | cons x rest ih =>
    obtain ⟨r, w, d, he⟩ := ih (g.landWord x.1 x.2.1 x.2.2)
    exact ⟨r, w, d, he⟩

theorem Group.landedIn_landWords_of_notMem {g : Group} (h : g.wellOk) {m j : Nat} {u : Word} (hj : j < 32) (hm : g.landedIn m j u)
    {ws : List (Nat × Nat × Word)} (hne : ∀ w ∈ ws, ¬ (m = w.1 ∧ j = w.2.1)) : (g.landWords ws).landedIn m j u := by
  induction ws generalizing g with
  | nil => exact hm
  | cons w r ih =>
    exact ih (Group.wellOk_landWord h _ _ _) (Group.landedIn_landWord h hj hm (hne w (by simp)) _) fun y hy => hne y (by simp [hy])

/-- Where no place is written twice, each word stands where it landed. -/
theorem Group.landedIn_landWords {g : Group} (h : g.wellOk) {ws : List (Nat × Nat × Word)} (hl : ∀ w ∈ ws, w.2.1 < 32)
    (hn : ws.Pairwise fun a b => ¬ (a.1 = b.1 ∧ a.2.1 = b.2.1)) {w : Nat × Nat × Word} (hw : w ∈ ws) :
      (g.landWords ws).landedIn w.1 w.2.1 w.2.2 := by
  induction ws generalizing g with
  | nil => cases hw
  | cons x r ih =>
    obtain ⟨hx, hr⟩ := List.pairwise_cons.1 hn
    rcases List.mem_cons.1 hw with rfl | hin
    · exact Group.landedIn_landWords_of_notMem (Group.wellOk_landWord h _ _ _) (hl w (by simp))
        (Group.landedIn_landWord_self h _ (hl w (by simp)) _) hx
    · exact ih (Group.wellOk_landWord h _ _ _) (fun y hy => hl y (by simp [hy])) hr hin

theorem Group.regLane_landWords {g : Group} (h : g.wellOk) {m : Nat} {ws : List (Nat × Nat × Word)} (hm : ∀ w ∈ ws, m ≠ w.1) (j : Nat) :
    (g.landWords ws).regLane m j = g.regLane m j := by
  induction ws generalizing g with
  | nil => rfl
  | cons w r ih =>
    exact (ih (Group.wellOk_landWord h _ _ _) fun y hy => hm y (by simp [hy])).trans (Group.regLane_landWord_ne h (hm w (by simp)) _ _ _)

/-- Word `i` of the bytes that came back. -/
def wordAt (bs : List Byte) (i : Nat) : Word := BitVec.ofNat 32 (leNat ((bs.drop (4 * i)).take 4))

/-- The words that land in the registers `regs` for the lanes of `mask`. -/
def landList (regs : List Nat) (mask : Word) (bs : List Byte) : List (Nat × Nat × Word) :=
  (lanesOf mask).flatMap fun j => (List.range (max 1 (bs.length / 4))).map fun i => (regs.getD j 0 + i, j, wordAt bs i)

theorem mem_landList {regs : List Nat} {mask : Word} {bs : List Byte} {w : Nat × Nat × Word} :
    w ∈ landList regs mask bs ↔ ∃ j i, j < 32 ∧ mask.getLsbD j = true ∧ i < max 1 (bs.length / 4) ∧ w = (regs.getD j 0 + i, j, wordAt bs i) := by
  simp only [landList, List.mem_flatMap, mem_lanesOf, List.mem_map, List.mem_range]
  grind

theorem landList_pairwise (regs : List Nat) (mask : Word) (bs : List Byte) :
    (landList regs mask bs).Pairwise fun a b => ¬ (a.1 = b.1 ∧ a.2.1 = b.2.1) := by
  refine List.pairwise_flatMap.2 ⟨fun j _ => ?_, ?_⟩
  · rw [List.pairwise_map]
    exact (List.nodup_range (n := max 1 (bs.length / 4))).imp fun hne h => hne (Nat.add_left_cancel h.1)
  · refine ((List.nodup_range (n := 32)).filter _).imp fun hne a ha b hb h => hne ?_
    obtain ⟨_, _, rfl⟩ := List.mem_map.1 ha
    obtain ⟨_, _, rfl⟩ := List.mem_map.1 hb
    exact h.2

theorem Group.landReg_eq (g : Group) (r l : Nat) (bs : List Byte) :
    g.landReg r l bs = g.landWords ((List.range (max 1 (bs.length / 4))).map fun i => (r + i, l, wordAt bs i)) := by
  rw [Group.landWords, List.foldl_map]
  rfl

theorem Group.landRegs_eq (g : Group) (regs : List Nat) (mask : Word) (bs : List Byte) :
    (lanesOf mask).foldl (fun (h : Group) j => h.landReg (regs.getD j 0) j bs) g = g.landWords (landList regs mask bs) := by
  unfold Group.landWords landList
  rw [List.foldl_flatMap]
  simp only [Group.landReg_eq, Group.landWords]

/-- A group whose access is complete, or not yet: LS and acquire work only. -/
theorem Group.lsEnds_eq (h : Group) (b : Bool) (id clk : Nat) (a : Access) :
    ∃ q o u, (if b then (let h2 := h.lsDone id; if 2 ≤ a.ord then h2.acquire clk a.scope else h2) else h) =
      { h with lsq := q, scOut := o, acqUntil := u } := by
  cases b
  · exact ⟨_, _, _, rfl⟩
  · by_cases ho : 2 ≤ a.ord
    · exact ⟨_, _, _, by simp only [if_true, if_pos ho]; rfl⟩
    · exact ⟨_, _, _, by simp only [if_true, if_neg ho]; rfl⟩

theorem Group.arrived_pend (g : Group) (id : Nat) (mask : Word) : ∀ p ∈ (g.arrived id mask).pend, p.id = id → p.lanes &&& mask = 0#32 := by
  intro p hp hid
  obtain ⟨hin, -⟩ := List.mem_filter.1 hp
  obtain ⟨q, -, rfl⟩ := List.mem_map.1 hin
  by_cases hq : q.id = id
  · simp only [if_pos hq]
    simp [BitVec.and_assoc]
  · simp only [if_neg hq] at hid
    exact absurd hid hq

theorem State.loadLands_spec {s : State} {id : Nat} {a : Access} {x : LaneAcc} {g : Group} {bs : List Byte} (hg : s.group? a.g = some g)
    (hb : x.got = some bs) : (s.loadLands id a x).mem = s.mem
    ∧ ∃ q o u, (s.loadLands id a x).group? a.g = some { g.landValue id a x.lane bs with lsq := q, scOut := o, acqUntil := u } := by
  refine ⟨State.loadLands_mem .., ?_⟩
  obtain ⟨q, o, u, he⟩ := (g.landValue id a x.lane bs).lsEnds_eq
    ((a.lanes.map fun y => if y.lane = x.lane then { y with got := none } else y).all fun y => y.done && y.got.isNone) id s.clk a
  refine ⟨q, o, u, ?_⟩
  unfold State.loadLands
  simp only [hb]
  exact (State.updGroup_group?_self _ hg).trans (congrArg some he)

theorem State.loadLands_last {s : State} {id : Nat} {a : Access} {x : LaneAcc} {bs : List Byte} (hb : x.got = some bs) (hd : x.done = true)
    (hs : Tbl.sorted s.access = true) (hlast : ∀ y ∈ a.lanes, y = x ∨ (y.done = true ∧ y.got = none)) :
    (s.loadLands id a x).access.find id = none := by
  have hall : ((a.lanes.map fun y => if y.lane = x.lane then { y with got := none } else y).all fun y => y.done && y.got.isNone) = true := by
    rw [List.all_map, List.all_eq_true]
    intro y hy
    rcases hlast y hy with rfl | ⟨hd', hn⟩
    · simp [hd]
    · by_cases h : y.lane = x.lane <;> simp [h, hd', hn]
  have hacc : ∀ f, (s.updGroup a.g f).access = s.access := fun f => by
    unfold State.updGroup
    split <;> rfl
  unfold State.loadLands
  simp only [hb, hall, if_true, State.setAccess_access, hacc]
  exact Tbl.find_del_self _ hs

section
variable {g : Group} {id l : Nat} {a : Access} {bs : List Byte} {q : List (Nat × Bool)} {o : List Nat} {u : Nat}

theorem Group.landValue_lanes {regs : List Nat} (h : a.dst = .lanes regs) : g.landValue id a l bs =
    (g.landWords (landList regs (if a.kind = .ldu then a.mask else 1#32 <<< l) bs)).arrived id (if a.kind = .ldu then a.mask else 1#32 <<< l) := by
  unfold Group.landValue
  simp only [h, Group.landRegs_eq]

/-- Landing leaves everything but registers, scalars and pending destinations. -/
theorem Group.landValue_eq (g : Group) (id l : Nat) (a : Access) (bs : List Byte) : ∃ r w d sc p,
    g.landValue id a l bs = { g with regs := r, well := w, dead := d, sc := sc, pend := p } := by
  unfold Group.landValue
  split
  · exact ⟨_, _, _, _, _, rfl⟩
  · dsimp only
    split
    · exact ⟨_, _, _, _, _, rfl⟩
    · exact ⟨_, _, _, _, _, rfl⟩
  · dsimp only
    rw [Group.landRegs_eq]
    obtain ⟨r, w, d, he⟩ := Group.landWords_eq g (landList _ (if a.kind = .ldu then a.mask else 1#32 <<< l) bs)
    exact ⟨_, _, _, _, _, by rw [he]; rfl⟩

theorem Group.landValue_scalar {m : Nat} (h : a.dst = .scalar m) :
    (g.landValue id a l bs).regs = g.regs ∧ (g.landValue id a l bs).well = g.well
    ∧ (∀ j, j ≠ m → j ≠ m + 1 → (g.landValue id a l bs).scalar j = g.scalar j)
    ∧ (bs.length ≤ 4 → (g.landValue id a l bs).scalar m = wordAt bs 0 ∧ (g.landValue id a l bs).scalar (m + 1) = g.scalar (m + 1))
    ∧ (bs.length = 8 → (g.landValue id a l bs).scalar m = wordAt bs 0 ∧ (g.landValue id a l bs).scalar (m + 1) = wordAt bs 1) := by
  have h1 : m + 1 ≠ m := by omega
  unfold Group.landValue
  simp only [h]
  by_cases hl : 4 < bs.length
  · simp only [if_pos hl]
    refine ⟨rfl, rfl, fun j hj hj1 => ?_, fun hle => absurd hl (by omega), fun h8 => ⟨?_, ?_⟩⟩
    · simp only [Group.scalar, Group.arrived, Group.setScalar, Tbl.get_put_ne _ _ _ hj1, Tbl.get_put_ne _ _ _ hj]
    · simp only [Group.scalar, Group.arrived, Group.setScalar, Tbl.get_put_ne _ _ _ h1.symm, Tbl.get_put_self]
      rfl
    · have hd : (bs.drop (4 * 1)).take 4 = bs.drop 4 := List.take_of_length_le (by simp [h8])
      simp only [Group.scalar, Group.arrived, Group.setScalar, Tbl.get_put_self, wordAt, hd]
  · simp only [if_neg hl]
    refine ⟨rfl, rfl, fun j hj _ => ?_, fun _ => ⟨?_, ?_⟩, fun h8 => absurd h8 (by omega)⟩
    · simp only [Group.scalar, Group.arrived, Group.setScalar, Tbl.get_put_ne _ _ _ hj]
    · simp only [Group.scalar, Group.arrived, Group.setScalar, Tbl.get_put_self]
      rfl
    · simp only [Group.scalar, Group.arrived, Group.setScalar, Tbl.get_put_ne _ _ _ h1]

theorem Group.landWords_sc (g : Group) (ws : List (Nat × Nat × Word)) : (g.landWords ws).sc = g.sc := by
  obtain ⟨r, w, d, he⟩ := Group.landWords_eq g ws
  rw [he]
end

theorem State.loadReturn_of_landing {s : State} {id l : Nat} {a : Access} {x : LaneAcc} {g : Group} (ha : s.access.find id = some a)
    (hx : (a.lanes.find? fun y => y.lane = l) = some x) (hg : s.group? a.g = some g) (hteam : g.team = a.team)
    (hd : x.done = true) (hp : x.path = []) : s.loadReturn id l = s.loadLands id a x := by
  unfold State.loadReturn
  simp only [ha, hx, hg, hteam, hp, hd, List.isEmpty_nil, bne_self_eq_false, Bool.not_true, Bool.or_self, Bool.false_eq_true, if_false, if_true]

/-- Settles O29: the first return reads the lane's places and sends the bytes back; the second is a run of words landing, no two in one place. -/
theorem loadReturnLands : Obligations.LoadReturnLands := by
  refine ⟨fun s id l a x g hs ha hx hg ht hteam hd hp hlow hopen hf hr hplain => ?_, ?_⟩
  · obtain rfl : x.lane = l := by simpa using List.find?_some hx
    have hmv := State.sendBack_moves (s.setAccess (s.access.put id (a.putLane (s.laneRead a x)))) id (s.whoOf a.g g) (a.putLane (s.laneRead a x))
      (s.laneRead a x) hopen
    obtain ⟨hmem, hgroups, haccess⟩ := State.setAccess_flitsMoved_access hmv
    refine ⟨_, (exec_loadReturn hs).trans (congrArg _ (State.loadReturn_of_performs ha hx hg ht hteam hd hp hlow hf hr hplain)), hmem, hgroups, ?_,
      fun hk hback => State.sendBack_posts (s.setAccess (s.access.put id (a.putLane (s.laneRead a x)))) id (s.whoOf a.g g)
        (a.putLane (s.laneRead a x)) (s.laneRead a x) hk hback⟩
    rw [haccess, Tbl.find_put_self]
    rfl
  · intro s id l a x g bs hs ha hx hg hw hteam hd hp hb hl word n to_
    have hlane : x.lane = l := by simpa using List.find?_some hx
    obtain ⟨hmem, q, o, u, hgrp⟩ := State.loadLands_spec (id := id) hg hb
    obtain ⟨r, w, d, sc, p, he⟩ := g.landValue_eq id x.lane a bs
    refine ⟨_, _, (exec_loadReturn hs).trans (congrArg _ (State.loadReturn_of_landing ha hx hg hteam hd hp)), hgrp, hmem, fun regs hdst => ?_,
      fun m hdst => Group.landValue_scalar hdst, ?_, ?_, ?_, ?_, ?_, ?_, fun hsort hlast => State.loadLands_last hb hd hsort hlast⟩
    · rw [Group.landValue_lanes hdst, hlane]
      refine ⟨Group.landWords_sc g _, fun j i hj hto hi => ?_, fun m hm j hj => ?_, Group.arrived_pend _ id _⟩
      · have hin := Group.landedIn_landWords hw (ws := landList regs to_ bs) (w := (regs.getD j 0 + i, j, wordAt bs i)) ?_
          (landList_pairwise _ _ _) (mem_landList.2 ⟨j, i, hj, hto, hi, rfl⟩)
        · exact ⟨hin.1, hin.2.2⟩
        · intro y hy
          obtain ⟨j, i, hj, -, -, rfl⟩ := mem_landList.1 hy
          exact hj
      · refine Group.regLane_landWords hw (fun y hy hmy => ?_) j
        obtain ⟨j, i, hj, hto, hi, rfl⟩ := mem_landList.1 hy
        have := hm j hj hto
        omega
    all_goals rw [he]

end Sys2Proof.Machine
end

section
namespace Sys2Proof.Machine

/-! ## Stores and atomics complete (O30, O31) -/

/-! ### What a write of runs changes: memory alone -/

theorem State.writeBytes_eq (s : State) (p : Place) (bs : List Byte) : ∃ m, s.writeBytes p bs = s.setMem m := by
  induction bs generalizing s p with
  | nil => exact ⟨s.mem, rfl⟩
  | cons b r ih =>
    obtain ⟨m, hm⟩ := ih (s.writeByte p b) (p.shift 1)
    exact ⟨m, hm⟩

theorem State.writeRuns_eq (s : State) (rs : List Run) (bs : List Byte) : ∃ m, s.writeRuns rs bs = s.setMem m := by
  induction rs generalizing s bs with
  | nil => exact ⟨s.mem, rfl⟩
  | cons r rest ih =>
    obtain ⟨m, hm⟩ := s.writeBytes_eq r.place (bs.take r.len)
    obtain ⟨m', hm'⟩ := ih (s.writeBytes r.place (bs.take r.len)) (bs.drop r.len)
    exact ⟨m', by rw [State.writeRuns, hm', hm]; rfl⟩

theorem Place.shift_shift_one (p : Place) (i : Nat) : (p.shift i).shift 1 = p.shift (i + 1) := by
  cases p <;> simp [Place.shift, Nat.add_assoc]

theorem State.readByte_writeByte_ne (s : State) {p q : Place} (b : Byte) (h : p.key ≠ q.key) : (s.writeByte p b).readByte q = s.readByte q :=
  memGet_memPut_ne _ _ (Ne.symm h)

theorem State.readByte_writeBytes_shift (s : State) (p q : Place) (n : Nat) (bs : List Byte) (h : ∀ i < bs.length, (p.shift (n + i)).key ≠ q.key) :
    (s.writeBytes (p.shift n) bs).readByte q = s.readByte q := by
  induction bs generalizing s n with
  | nil => rfl
  | cons b r ih =>
    rw [State.writeBytes, Place.shift_shift_one, ih _ _ fun i hi => ?_]
    · exact s.readByte_writeByte_ne b (h 0 (by simp))
    · have := h (i + 1) (by simp [hi])
      rwa [show n + 1 + i = n + (i + 1) by omega]

/-- A write of bytes leaves what is not at its places. -/
theorem State.readByte_writeBytes_of_ne (s : State) (p q : Place) (bs : List Byte) (h : ∀ i < bs.length, p.key ≠ q.key ∧ (p.shift i).key ≠ q.key) :
    (s.writeBytes p bs).readByte q = s.readByte q := by
  cases bs with
  | nil => rfl
  | cons b r =>
    rw [State.writeBytes, State.readByte_writeBytes_shift _ _ _ 1 _ fun i hi => ?_]
    · exact s.readByte_writeByte_ne b (h 0 (by simp)).1
    · rw [Nat.add_comm]
      exact (h (i + 1) (by simp [hi])).2

theorem State.readByte_writeRuns_of_ne (s : State) (q : Place) (rs : List Run) (bs : List Byte)
    (h : ∀ r ∈ rs, ∀ i < r.len, r.place.key ≠ q.key ∧ (r.place.shift i).key ≠ q.key) : (s.writeRuns rs bs).readByte q = s.readByte q := by
  induction rs generalizing s bs with
  | nil => rfl
  | cons r rest ih =>
    rw [State.writeRuns, ih _ _ fun x hx => h x (by simp [hx])]
    exact s.readByte_writeBytes_of_ne _ _ _ fun i hi => h r (by simp) i (by rw [List.length_take] at hi; omega)

theorem Place.key_hbm_ne {d o j : Nat} (h : o ≠ j) : (Place.hbm d o).key ≠ (Place.hbm d j).key := by
  simp only [Place.key]
  omega

theorem State.readByte_writeBytes_hbm {s : State} (hw : Memory.wf s.mem = true) (d o : Nat) (bs : List Byte) {j : Nat} (hj : j < bs.length) :
    (s.writeBytes (.hbm d o) bs).readByte (.hbm d (o + j)) = bs[j] := by
  induction bs generalizing s o j with
  | nil => simp at hj
  | cons b r ih =>
    have hw1 : Memory.wf (s.writeByte (.hbm d o) b).mem = true := State.wf_writeByte _ _ hw
    rw [State.writeBytes]
    cases j with
    | zero =>
      rw [State.readByte_writeBytes_shift _ (.hbm d o) (.hbm d (o + 0)) 1 _ fun i _ => Place.key_hbm_ne (d := d) (o := o + (1 + i)) (by omega)]
      exact memGet_memPut_self _ _ hw
    | succ j =>
      have := ih hw1 (o + 1) (j := j) (by simpa using hj)
      rw [show o + 1 + j = o + (j + 1) by omega] at this
      exact this

theorem State.readBytes_writeBytes_hbm {s : State} (hw : Memory.wf s.mem = true) (d o : Nat) (bs : List Byte) :
    (s.writeBytes (.hbm d o) bs).readBytes (.hbm d o) bs.length = bs := by
  refine List.ext_getElem (by simp [State.readBytes]) fun j h1 h2 => ?_
  simp only [State.readBytes, List.getElem_map, List.getElem_range]
  exact State.readByte_writeBytes_hbm hw d o bs h2

/-! ### A lane performs -/

theorem State.storeRun_of_plain (s : State) (ctx : Nat) {r : Run} (bs : List Byte) (h : r.place.plain = true) :
    s.storeRun ctx r bs = s.writeBytes r.place bs := by
  unfold State.storeRun
  cases hp : r.place <;> simp_all [Place.plain]

theorem State.storeRuns_of_plain (s : State) (ctx : Nat) {rs : List Run} (bs : List Byte) (h : ∀ r ∈ rs, r.place.plain = true) :
    s.storeRuns ctx rs bs = s.writeRuns rs bs := by
  induction rs generalizing s bs with
  | nil => rfl
  | cons r rest ih =>
    rw [State.storeRuns, State.writeRuns, s.storeRun_of_plain ctx _ (h r (by simp)), ih _ _ fun x hx => h x (by simp [hx])]

theorem State.outsideHit_of_no_domains (s : State) (rs : List Run) (h : s.domains = []) : s.outsideHit rs = s := by
  simp [State.outsideHit, h]

theorem State.unpoison_of_empty (s : State) (rs : List Run) (h : s.poison = []) : s.unpoison rs = s := by
  simp [State.unpoison, h]

theorem State.groupWrite_of_plain {s : State} (k : GKey) {g : Group} {rs : List Run} (bs : List Byte) (hd : s.domains = []) (hp : s.poison = [])
    (ht : g.task = none) (h : ∀ r ∈ rs, r.place.plain = true) : s.groupWrite k g rs bs = s.writeRuns rs bs := by
  obtain ⟨m, hm⟩ := s.writeRuns_eq rs bs
  simp only [State.groupWrite, ht, State.engineWrite, s.storeRuns_of_plain _ bs h]
  rw [State.unpoison_of_empty _ _ (by rw [hm]; exact hp), State.outsideHit_of_no_domains _ _ (by rw [hm]; exact hd)]

theorem State.performLane_store {s : State} {k : GKey} {g : Group} {a : Access} {x : LaneAcc} (hk : a.kind = .store) (hd : s.domains = [])
    (hp : s.poison = []) (ht : g.task = none) (h : ∀ r ∈ x.runs, r.place.plain = true) : s.performLane k g a x = ([],
      s.writeRuns x.runs x.data) := by
  simp only [State.performLane, hk, State.groupWrite_of_plain k x.data hd hp ht h]

theorem State.performLanes_store {s : State} {a : Access} {g g0 : Group} (hk : a.kind = .store) (hd : s.domains = []) (hp : s.poison = [])
    (hg : s.group? a.g = some g) (ht : g.task = none) {xs : List LaneAcc} (h : ∀ x ∈ xs, ∀ r ∈ x.runs, r.place.plain = true) :
    s.performLanes a g0 xs = (xs.map fun x => { x with done := true, got := none }, xs.foldl (fun u x => u.writeRuns x.runs x.data) s) := by
  induction xs generalizing s with
  | nil => rfl
  | cons x rest ih =>
    obtain ⟨m, hm⟩ := s.writeRuns_eq x.runs x.data
    have hrest := ih (s := s.writeRuns x.runs x.data) (by rw [hm]; exact hd) (by rw [hm]; exact hp) (by rw [hm]; exact hg)
      fun y hy => h y (by simp [hy])
    simp only [State.performLanes, hg, Option.getD_some, State.performLane_store hk hd hp ht (h x (by simp)), hrest, hk, List.map_cons,
      List.foldl_cons]

/-- The lanes once they have performed, each on its way back. -/
def State.lanesBack (s : State) (a : Access) (xs : List LaneAcc) : List LaneAcc := xs.map fun x => { x with path := s.backOf a.g.die x.runs }

/-- What an access sends its answers as. -/
def Access.who (a : Access) : Who := { die := a.g.die, core := a.g.core, ctx := a.ctx, gen := 0, copy := false }

/-- The first ACCESS_COMPLETE, in a state where nothing makes it wait: the lanes perform and their answers set out. -/
theorem State.accessComplete_of_performs {s u : State} {id : Nat} {a : Access} {g : Group} {xs : List LaneAcc} (ha : s.access.find id = some a)
    (hg : s.group? a.g = some g) (ht : g.task = none) (hteam : g.team = a.team) (hne : a.lanes ≠ [])
    (hlanes : ∀ x ∈ a.lanes, x.done = false ∧ x.path = []) (hf : s.mustFollow id a (a.lanes.flatMap fun x => x.runs) = false)
    (hperf : s.performLanes a g a.lanes = (xs, u)) (hu : u.poison = []) :
    ∃ n, s.accessComplete id =
      ((s.lanesBack a xs).foldl (fun t x => t.sendBack id a.who { a with lanes := s.lanesBack a xs } x)
        (u.setAccess (u.access.put id { a with lanes := s.lanesBack a xs }))).after n (.accessComplete id) := by
  have hdone : (a.lanes.all fun x => x.done) = false := by
    obtain ⟨x, hx⟩ := List.exists_mem_of_ne_nil _ hne
    rw [List.all_eq_false]
    exact ⟨x, hx, by simp [(hlanes x hx).1]⟩
  have hpath : (a.lanes.any fun x => !x.path.isEmpty) = false := by
    rw [List.any_eq_false]
    exact fun x hx => by simp [(hlanes x hx).2]
  refine ⟨xs.foldl (fun m x => max m (wayBack a.who x.runs)) 0, ?_⟩
  unfold State.accessComplete
  simp only [ha, hg, hteam, if_true, hdone, hpath, hf, s.homeStalls_of_no_task a.g _ _ true ht, hperf, State.unpoison_of_empty _ _ hu,
    Bool.or_self, Bool.false_eq_true, if_false]
  rfl

/-- What stands after that first ACCESS_COMPLETE: `u` but for flits, the agenda and the access, which comes back to complete. -/
theorem State.accessComplete_performed {s u : State} {id : Nat} {a : Access} {g : Group} {xs : List LaneAcc} (ha : s.access.find id = some a)
    (hg : s.group? a.g = some g) (ht : g.task = none) (hteam : g.team = a.team) (hne : a.lanes ≠ [])
    (hlanes : ∀ x ∈ a.lanes, x.done = false ∧ x.path = []) (hf : s.mustFollow id a (a.lanes.flatMap fun x => x.runs) = false)
    (hperf : s.performLanes a g a.lanes = (xs, u)) (hu : u.poison = []) (hum : ∃ m, u = s.setMem m)
    (hopen : ∀ x ∈ xs, ∀ h ∈ (s.backOf a.g.die x.runs).head?, (s.wall h.link).closed = false) :
    (s.accessComplete id).mem = u.mem ∧ (s.accessComplete id).groups = s.groups
    ∧ (s.accessComplete id).access.find id = some { a with lanes := s.lanesBack a xs }
    ∧ ∃ due, s.clk ≤ due ∧ (due, Event.accessComplete id) ∈ (s.accessComplete id).agenda := by
  obtain ⟨n, hn⟩ := State.accessComplete_of_performs ha hg ht hteam hne hlanes hf hperf hu
  obtain ⟨m, rfl⟩ := hum
  have hmv := State.foldl_moves (fun t x => t.sendBack id a.who { a with lanes := s.lanesBack a xs } x)
    (fun t x => State.sendBack_moves t id a.who { a with lanes := s.lanesBack a xs } x) (s.lanesBack a xs)
    ((s.setMem m).setAccess ((s.setMem m).access.put id { a with lanes := s.lanesBack a xs })) fun y hy h hh => by
      obtain ⟨x, hx, rfl⟩ := List.mem_map.1 hy
      exact hopen x hx h hh
  obtain ⟨hmem, hgroups, -, haccess, hclk⟩ := State.flitsMoved_keeps hmv
  rw [hn]
  refine ⟨hmem, hgroups, ?_, ?_⟩
  · exact (congrArg (fun A : Tbl Access => A.find id) haccess).trans (Tbl.find_put_self _ _ _)
  · obtain ⟨due, hdue, hin⟩ := State.mem_after_agenda
      ((s.lanesBack a xs).foldl (fun t x => t.sendBack id a.who { a with lanes := s.lanesBack a xs } x)
        ((s.setMem m).setAccess ((s.setMem m).access.put id { a with lanes := s.lanesBack a xs }))) n (.accessComplete id)
    rw [hclk] at hdue
    exact ⟨due, le_trans (Nat.le_add_right _ _) hdue, hin⟩

/-! ### LS learns of it -/

theorem State.accessComplete_of_done {s : State} {id : Nat} {a : Access} (ha : s.access.find id = some a)
    (h : ∀ x ∈ a.lanes, x.done = true ∧ x.path = []) : s.accessComplete id = s.accessEnds id a := by
  have hdone : (a.lanes.all fun x => x.done) = true := List.all_eq_true.2 fun x hx => (h x hx).1
  have hpath : (a.lanes.any fun x => !x.path.isEmpty) = false := by
    rw [List.any_eq_false]
    exact fun x hx => by simp [(h x hx).2]
  unfold State.accessComplete
  simp only [ha, hdone, hpath, if_true, Bool.false_eq_true, if_false]

/-- The team's own logs hold no replay of the access. -/
def State.teamFree (s : State) (a : Access) (id : Nat) : Prop := ∀ tm, s.team? a.team = some tm → ∀ e ∈ tm.logs, e.2.away ≠ some id

theorem State.entryEnds_of_none {s : State} {id : Nat} {a : Access} {g : Group} (hg : s.group? a.g = some g) (hteam : s.teamFree a id)
    (hlog : ∀ e ∈ g.log, e.away ≠ some id) : s.entryEnds id a = s := by
  have hany : (g.log.any fun e => e.away == some id) = false := by
    rw [List.any_eq_false]
    exact fun e he => by simpa using hlog e he
  unfold State.entryEnds
  simp only [hg, hany, Bool.false_eq_true, if_false]
  split
  next tm htm =>
    have : (tm.logs.any fun e => e.2.away == some id) = false := by
      rw [List.any_eq_false]
      exact fun e he => by simpa using hteam tm htm e he
    simp only [this, Bool.false_eq_true, if_false]
  · rfl

theorem State.entryEnds_of_replay {s : State} {id : Nat} {a : Access} {g : Group} {e : LogEntry} {rest : List LogEntry} (hg : s.group? a.g = some g)
    (hteam : s.teamFree a id) (hlog : g.log = e :: rest) (he : e.away = some id) (hrest : ∀ y ∈ rest, y.away ≠ some id) :
    s.entryEnds id a = (s.putGroup a.g { g with log := rest }).post s.clk (.faultRetry (.sideLog a.g)) := by
  have hany : (g.log.any fun e => e.away == some id) = true := by simp [hlog, he]
  have hfilter : (g.log.filter fun e => !(e.away == some id)) = rest := by
    rw [hlog, List.filter_cons_of_neg (by simp [he]), List.filter_eq_self]
    exact fun y hy => by simpa using hrest y hy
  unfold State.entryEnds
  simp only [hg, hany, hfilter, if_true]
  split
  next tm htm =>
    have : (tm.logs.any fun e => e.2.away == some id) = false := by
      rw [List.any_eq_false]
      exact fun e he => by simpa using hteam tm htm e he
    simp only [this, Bool.false_eq_true, if_false]
  · rfl

/-- What a lane brings back lands. -/
def Group.landLane (id : Nat) (a : Access) (u : Group) (x : LaneAcc) : Group :=
  match x.got with
  | some old => u.landValue id a x.lane old
  | none => u

theorem foldl_landLane_of_none {id : Nat} {a : Access} {xs : List LaneAcc} (h : ∀ x ∈ xs, x.got = none) (g : Group) :
    xs.foldl (Group.landLane id a) g = g := by
  induction xs generalizing g with
  | nil => rfl
  | cons x r ih =>
    rw [List.foldl_cons, Group.landLane, h x (by simp)]
    exact ih (fun y hy => h y (by simp [hy])) g

/-- An access with acquire semantics begins acquire work where it is an atomic. -/
def Access.acquires (a : Access) (clk : Nat) (h : Group) : Group :=
  match a.kind with
  | .atomic _ => if 2 ≤ a.ord then h.acquire clk a.scope else h
  | _ => h

theorem State.accessEnds_eq (s : State) (id : Nat) (a : Access) :
    s.accessEnds id a = ((s.setAccess (s.access.del id)).entryEnds id a).updGroup a.g fun h =>
      if h.team = a.team then a.acquires s.clk ((a.lanes.foldl (Group.landLane id a) h).lsDone id) else h := rfl

theorem State.accessEnds_of_group {s t : State} {id : Nat} {a : Access} {g : Group}
    (he : (s.setAccess (s.access.del id)).entryEnds id a = t) (hg : t.group? a.g = some g) (hteam : g.team = a.team) :
    s.accessEnds id a = t.putGroup a.g (a.acquires s.clk ((a.lanes.foldl (Group.landLane id a) g).lsDone id)) := by
  rw [State.accessEnds_eq, he, State.updGroup, hg]
  simp only [hteam, if_true]

/-- The group once its store is complete. -/
theorem State.accessEnds_store {s t : State} {id : Nat} {a : Access} {g : Group} (hk : a.kind = .store) (hgot : ∀ x ∈ a.lanes, x.got = none)
    (he : (s.setAccess (s.access.del id)).entryEnds id a = t) (hg : t.group? a.g = some g) (hteam : g.team = a.team) :
    s.accessEnds id a = t.putGroup a.g (g.lsDone id) := by
  rw [State.accessEnds_of_group he hg hteam, foldl_landLane_of_none hgot, Access.acquires, hk]

theorem State.foldl_writeRuns_eq (xs : List LaneAcc) (s : State) : ∃ m, xs.foldl (fun u x => u.writeRuns x.runs x.data) s = s.setMem m := by
  induction xs generalizing s with
  | nil => exact ⟨s.mem, rfl⟩
  | cons x r ih =>
    obtain ⟨m, hm⟩ := s.writeRuns_eq x.runs x.data
    obtain ⟨m', hm'⟩ := ih (s.writeRuns x.runs x.data)
    exact ⟨m', by rw [List.foldl_cons, hm', hm]; rfl⟩

theorem State.readByte_foldl_writeRuns (q : Place) (xs : List LaneAcc) (s : State)
    (h : ∀ x ∈ xs, ∀ r ∈ x.runs, ∀ i < r.len, r.place.key ≠ q.key ∧ (r.place.shift i).key ≠ q.key) :
    (xs.foldl (fun u x => u.writeRuns x.runs x.data) s).readByte q = s.readByte q := by
  induction xs generalizing s with
  | nil => rfl
  | cons x r ih =>
    rw [List.foldl_cons, ih _ fun y hy => h y (by simp [hy])]
    exact s.readByte_writeRuns_of_ne q _ _ (h x (by simp))

theorem State.readByte_congr {s t : State} (h : t.mem = s.mem) (p : Place) : t.readByte p = s.readByte p := by simp [State.readByte, h]

theorem State.readBytes_congr {s t : State} (h : t.mem = s.mem) (p : Place) (n : Nat) : t.readBytes p n = s.readBytes p n := by
  simp [State.readBytes, State.readByte_congr h]

/-- Settles O30: the first ACCESS_COMPLETE writes the runs of the lanes in order, the second ends the access at LS and in the side log. -/
theorem storeCompletes : Obligations.StoreCompletes := by
  refine ⟨fun s id a g hs ha hg ht hteam hk hne hlanes hopen hf hplain hd hp => ?_,
    fun s id a g hs ha hg hteam hk hlanes hlogs => ⟨fun hlog => ?_, fun e rest hlog he hrest => ?_⟩⟩
  · have hperf := State.performLanes_store (g0 := g) hk hd hp hg ht hplain
    obtain ⟨m, hm⟩ := State.foldl_writeRuns_eq a.lanes s
    obtain ⟨hmem, hgroups, hacc, due, hdue, hin⟩ := State.accessComplete_performed ha hg ht hteam hne hlanes hf hperf (by rw [hm]; exact hp) ⟨m, hm⟩
      fun y hy => by
        obtain ⟨x, hx, rfl⟩ := List.mem_map.1 hy
        exact hopen x hx
    refine ⟨_, due, exec_accessComplete hs, hmem, (State.group?_eq _ _ _ hgroups).trans hg, fun p hfar => ?_, fun x d o hx hr hw => ?_,
      ⟨_, hacc, fun y hy => ?_⟩,
      hdue, hin⟩
    · rw [State.readByte_congr hmem]
      exact State.readByte_foldl_writeRuns p a.lanes s hfar
    · rw [State.readBytes_congr hmem, hx, List.foldl_cons, List.foldl_nil, hr, State.writeRuns, State.writeRuns, List.take_length]
      exact State.readBytes_writeBytes_hbm hw d o x.data
    · obtain ⟨z, hz, rfl⟩ := List.mem_map.1 hy
      obtain ⟨x, -, rfl⟩ := List.mem_map.1 hz
      exact ⟨rfl, rfl⟩
  · refine (exec_accessComplete hs).trans (congrArg _ ?_)
    rw [State.accessComplete_of_done ha fun x hx => ⟨(hlanes x hx).1, (hlanes x hx).2.2⟩]
    exact State.accessEnds_store hk (fun x hx => (hlanes x hx).2.1)
      (State.entryEnds_of_none (s := s.setAccess (s.access.del id)) hg hlogs hlog) hg hteam
  · have hends := State.entryEnds_of_replay (s := s.setAccess (s.access.del id)) (a := a) hg hlogs hlog he hrest
    refine ⟨_, _,
      (exec_accessComplete hs).trans (congrArg _ ((State.accessComplete_of_done ha fun x hx => ⟨(hlanes x hx).1, (hlanes x hx).2.2⟩).trans
      (State.accessEnds_store hk (fun x hx => (hlanes x hx).2.1) hends (State.putGroup_group?_self _ _ _) hteam))),
      State.putGroup_group?_self _ _ _, rfl, rfl, rfl, mem_insertDue _ _ _⟩

end Sys2Proof.Machine
end

section
namespace Sys2Proof.Machine

/-! ### Atomics (O31) -/

section
variable {s : State} {a : Access} {x : LaneAcc} {g : Group} {d o : Nat} {op : AOp}

/-- The bytes an atomic of one lane of HBM leaves at its place. -/
def State.atomicBytes (s : State) (a : Access) (x : LaneAcc) (d o : Nat) (op : AOp) : List Byte :=
  leBytes a.width (atomicNew (((s.ctx a.g.die a.ctx).clev).toNat % 4) op (8 * a.width)
    (leNat (s.readBytes (.hbm d o) a.width)) (leNat x.data) (leNat x.cmp))

theorem State.performLane_atomic (hk : a.kind = .atomic op ∨ a.kind = .reduce op) (hd : s.domains = []) (hp : s.poison = [])
    (hg : s.group? a.g = some g) (ht : g.task = none) (hr : x.runs = [{ place := .hbm d o, len := a.width }]) :
    s.performLane a.g g a x = (s.readBytes (.hbm d o) a.width, s.writeBytes (.hbm d o) (s.atomicBytes a x d o op)) := by
  have hread : s.groupRead a.g g x.runs = (s.readBytes (.hbm d o) a.width, s) := by
    rw [s.groupRead_of_plain a.g ht (by simp [hr, Place.plain]), hr]
    simp [State.readRuns]
  have hwrite : ∀ bs, s.groupWrite a.g g x.runs bs = s.writeRuns x.runs bs := fun bs =>
    State.groupWrite_of_plain a.g bs hd hp ht (by simp [hr, Place.plain])
  have htake : (s.atomicBytes a x d o op).take a.width = s.atomicBytes a x d o op := List.take_of_length_le (by simp [State.atomicBytes])
  unfold State.performLane
  rcases hk with hk | hk
  all_goals
    simp only [hk, hread, hg, Option.getD_some, hwrite]
    rw [hr, State.writeRuns, State.writeRuns]
    exact congrArg (fun bs => (_, s.writeBytes (.hbm d o) bs)) htake

/-- The lane once it has performed. -/
def State.laneActed (s : State) (a : Access) (x : LaneAcc) (d o : Nat) (op : AOp) : LaneAcc :=
  { x with done := true, got := if a.kind = .atomic op then some (s.readBytes (.hbm d o) a.width) else none }

theorem State.performLanes_atomic {g0 : Group} (hk : a.kind = .atomic op ∨ a.kind = .reduce op) (hd : s.domains = []) (hp : s.poison = [])
    (hg : s.group? a.g = some g) (ht : g.task = none) (hr : x.runs = [{ place := .hbm d o, len := a.width }]) :
    s.performLanes a g0 [x] = ([s.laneActed a x d o op], s.writeBytes (.hbm d o) (s.atomicBytes a x d o op)) := by
  simp only [State.performLanes, hg, Option.getD_some, State.performLane_atomic hk hd hp hg ht hr, State.laneActed]
  rcases hk with hk | hk <;> simp [hk]

end

theorem State.entryEnds_spec {s : State} {id : Nat} {a : Access} {g : Group} (hg : s.group? a.g = some g) :
    (s.entryEnds id a).mem = s.mem ∧ ∃ l, (s.entryEnds id a).group? a.g = some { g with log := l } := by
  have hteam : ∀ s1 : State, ∀ t : Team, (s1.putTeam a.team t).group? a.g = s1.group? a.g := fun _ _ => rfl
  unfold State.entryEnds
  simp only [hg]
  by_cases h : (g.log.any fun e => e.away == some id) = true
  · simp only [h, if_true]
    split
    · split
      · exact ⟨rfl, _, State.putGroup_group?_self _ _ _⟩
      · exact ⟨rfl, _, State.putGroup_group?_self _ _ _⟩
    · exact ⟨rfl, _, State.putGroup_group?_self _ _ _⟩
  · simp only [h, if_false, Bool.false_eq_true]
    split
    · split
      · exact ⟨rfl, _, hg⟩
      · exact ⟨rfl, _, hg⟩
    · exact ⟨rfl, _, hg⟩

theorem Access.acquires_eq (a : Access) (clk : Nat) (h : Group) : ∃ u, a.acquires clk h = { h with acqUntil := u } := by
  unfold Access.acquires
  split
  · split
    · exact ⟨_, rfl⟩
    · exact ⟨_, rfl⟩
  · exact ⟨_, rfl⟩

/-- Settled accesses of one lane: what the lane brings back lands in its register, with the side log, LS and acquire work besides. -/
theorem State.accessEnds_lane {s : State} {id : Nat} {a : Access} {x : LaneAcc} {g : Group} {old : List Byte} (hg : s.group? a.g = some g)
    (hteam : g.team = a.team) (hl : a.lanes = [x]) (hgot : x.got = some old) :
    (s.accessEnds id a).mem = s.mem
    ∧ ∃ lg q o u, (s.accessEnds id a).group? a.g =
        some { ({ g with log := lg } : Group).landValue id a x.lane old with lsq := q, scOut := o, acqUntil := u } := by
  obtain ⟨hmem, lg, hgrp⟩ := State.entryEnds_spec (s := s.setAccess (s.access.del id)) (id := id) (a := a) hg
  obtain ⟨u, hu⟩ := a.acquires_eq s.clk ((Group.landLane id a { g with log := lg } x).lsDone id)
  rw [State.accessEnds_of_group rfl hgrp hteam, hl, List.foldl_cons, List.foldl_nil, hu, Group.landLane, hgot]
  exact ⟨hmem, lg, _, _, _, State.putGroup_group?_self _ _ _⟩

theorem landList_single {regs : List Nat} {l : Nat} (hl : l < 32) {old : List Byte} (h4 : old.length = 4) :
    landList regs (1#32 <<< l) old = [(regs.getD l 0, l, BitVec.ofNat 32 (leNat old))] := by
  have hlanes : lanesOf (1#32 <<< l) = [l] := by
    have : ∀ l < 32, lanesOf (1#32 <<< l) = [l] := by decide
    exact this l hl
  have hword : wordAt old 0 = BitVec.ofNat 32 (leNat old) := by
    rw [wordAt, List.take_of_length_le (by simp [h4])]
    rfl
  simp [landList, hlanes, h4, hword]

/-! ### What the operations compute -/

theorem signedOf_eq_toInt {w n : Nat} (hw : 0 < w) (h : n < 2 ^ w) : signedOf n w = (BitVec.ofNat w n).toInt := by
  have hp : 2 ^ w = 2 * 2 ^ (w - 1) := by rw [← Nat.pow_succ']; congr 1; omega
  rw [signedOf, BitVec.toInt_eq_toNat_cond, BitVec.toNat_ofNat, Nat.mod_eq_of_lt h]
  by_cases hn : n < 2 ^ (w - 1)
  · rw [if_pos hn, if_pos (by omega)]
  · rw [if_neg hn, if_neg (by omega)]

section
variable {l w old val cmp : Nat}

theorem toInt_atomicNew_min (hw : 0 < w) (ho : old < 2 ^ w) (hv : val < 2 ^ w) :
    (BitVec.ofNat w (atomicNew l .min w old val cmp)).toInt = min (BitVec.ofNat w old).toInt (BitVec.ofNat w val).toInt := by
  rw [atomicNew, signedOf_eq_toInt hw ho, signedOf_eq_toInt hw hv]
  split
  · rw [min_eq_right (by omega)]
  · rw [min_eq_left (by omega)]

theorem toInt_atomicNew_max (hw : 0 < w) (ho : old < 2 ^ w) (hv : val < 2 ^ w) :
    (BitVec.ofNat w (atomicNew l .max w old val cmp)).toInt = max (BitVec.ofNat w old).toInt (BitVec.ofNat w val).toInt := by
  rw [atomicNew, signedOf_eq_toInt hw ho, signedOf_eq_toInt hw hv]
  split
  · rw [max_eq_right (by omega)]
  · rw [max_eq_left (by omega)]

theorem atomicNew_add (ho : old < 2 ^ w) (hv : val < 2 ^ w) :
    atomicNew l .add w old val cmp = (BitVec.ofNat w old + BitVec.ofNat w val).toNat := by
  rw [atomicNew, BitVec.toNat_add, BitVec.toNat_ofNat, BitVec.toNat_ofNat, Nat.mod_eq_of_lt ho, Nat.mod_eq_of_lt hv]
end

/-- Settles O31: the first ACCESS_COMPLETE reads and writes the lane's place, the second lands the old value; the operations are arithmetic. -/
theorem atomicResults : Obligations.AtomicResults := by
  refine ⟨fun s id a g x d o hs ha hg ht hteam hl hdone hpath hr hopen hf hd hp hw op hk => ?_,
    fun s id a g x old hs ha hg hteam hwell hl hdone hpath hgot h4 op regs hk hdst hlane => ?_, fun l w old val cmp ho hv hwidth => ?_⟩
  · have hperf := State.performLanes_atomic (x := x) (g0 := g) hk hd hp hg ht hr
    obtain ⟨m, hm⟩ := s.writeBytes_eq (.hbm d o) (s.atomicBytes a x d o op)
    obtain ⟨hmem, -, hacc, hdue⟩ := State.accessComplete_performed ha hg ht hteam (by simp [hl]) (by simp [hl, hdone, hpath])
      (by simpa [hl] using hf) (hl ▸ hperf) (by rw [hm]; exact hp) ⟨m, hm⟩ fun y hy => by
        obtain rfl := List.mem_singleton.1 hy
        exact hopen
    refine ⟨_, exec_accessComplete hs, ?_, fun p hfar => ?_, hdue, hacc⟩
    · have hlen : (s.atomicBytes a x d o op).length = a.width := by simp [State.atomicBytes]
      have hbytes := State.readBytes_writeBytes_hbm hw d o (s.atomicBytes a x d o op)
      rw [hlen] at hbytes
      exact (State.readBytes_congr hmem _ _).trans hbytes
    · rw [State.readByte_congr hmem]
      refine s.readByte_writeBytes_of_ne _ _ _ fun i hi => ⟨?_, hfar i (by simpa [State.atomicBytes] using hi)⟩
      exact hfar 0 (Nat.lt_of_le_of_lt (Nat.zero_le i) (by simpa [State.atomicBytes] using hi))
  · have hends := State.accessComplete_of_done ha (by simp [hl, hdone, hpath])
    obtain ⟨hmem, lg, q, o, u, hgrp⟩ := State.accessEnds_lane (id := id) hg hteam hl hgot
    have hmask : (if a.kind = .ldu then a.mask else 1#32 <<< x.lane) = 1#32 <<< x.lane := if_neg (by simp [hk])
    refine ⟨_, _, (exec_accessComplete hs).trans (congrArg _ hends), hgrp, hmem, ?_⟩
    rw [Group.landValue_lanes hdst, hmask, landList_single hlane h4]
    refine ⟨rfl, Group.regLane_landWord_self (g := { g with log := lg }) hwell _ hlane _, fun m hm l _ =>
      Group.regLane_landWord_ne (g := { g with log := lg }) hwell hm _ _ _⟩
  · have hpos : 0 < w := by omega
    exact ⟨rfl, rfl, atomicNew_add ho hv, toInt_atomicNew_min hpos ho hv, toInt_atomicNew_max hpos ho hv, rfl, rfl, rfl, fun _ => rfl⟩

end Sys2Proof.Machine
end

section
namespace Sys2Proof.Machine

/-! ## Fences (O32) -/

theorem exec_fence (s : State) : exec .fence s = s.fenceOp := rfl
theorem exec_fencex (s : State) : exec .fencex s = s.fencexOp := rfl

theorem extractLsb'_bne_zero {w i n : Nat} (p : BitVec w) : (p.extractLsb' i n != 0) = decide (p.toNat / 2 ^ i % 2 ^ n ≠ 0) := by
  rw [Bool.eq_iff_iff, bne_iff_ne, decide_eq_true_eq, ne_eq, ← BitVec.toNat_inj, toNat_extractLsb'_eq_div_mod]
  simp

section
variable {p : BitVec 24}

theorem fence_rest : (p.extractLsb' 5 19 != 0) = decide (32 ≤ p.toNat) := by
  have := p.isLt
  rw [extractLsb'_bne_zero, decide_eq_decide]
  omega

theorem fencex_rest : (p.extractLsb' 4 20 != 0) = decide (16 ≤ p.toNat) := by
  have := p.isLt
  rw [extractLsb'_bne_zero, decide_eq_decide]
  omega

theorem fencex_same (hp : p.toNat < 16) : (p.extractLsb' 0 2 == p.extractLsb' 2 2) = decide (p.toNat % 4 = p.toNat / 4) := by
  rw [Bool.eq_iff_iff, beq_iff_eq, decide_eq_true_eq, ← BitVec.toNat_inj, toNat_extractLsb'_eq_div_mod, toNat_extractLsb'_eq_div_mod]
  omega
end

section
variable {s : State} {k : GKey} {g : Group} {c : Clause}

/-- FENCE's outcome in the numbers of its field P. -/
theorem State.fenceOp_eq (hi : s.issues k g c) (ha : s.acquiring k g = false) :
    s.fenceOp = .next (
      let p := (g.fieldP c).toNat
      if 32 ≤ p ∨ p % 4 = 0 ∨ p / 4 % 8 = 0 ∨ p / 4 % 8 = 7 then s.raise k g (trapOf .illField 0#32)
      else if g.log ≠ [] ∨ (2 ≤ p % 4 ∧ g.released = false) ∨ (p % 4 = 3 ∧ g.scOut ≠ []) then s.hold k g
      else s.advance k (if p % 4 = 2 then g else g.acquire s.clk (p / 4 % 8)) c 1 none) := by
  rw [State.fenceOp, State.withIssuer_of _ hi]
  simp only [fence_rest, toNat_extractLsb'_eq_div_mod, ha, Bool.false_eq_true, if_false]
  congr 1
  grind

/-- FENCEX's outcome in the numbers of its field P. -/
theorem State.fencexOp_eq (hi : s.issues k g c) (ha : s.acquiring k g = false) :
    s.fencexOp = .next (
      let p := (g.fieldP c).toNat
      if 16 ≤ p then s.raise k g (trapOf .illField 0#32)
      else if g.speculative = true ∨ p % 4 = p / 4 then s.advance k g c 1 none
      else if g.log ≠ [] ∨ g.drained = false then s.hold k g
      else s.advance k g c 16 none) := by
  rw [State.fencexOp, State.withIssuer_of _ hi]
  by_cases hp : 16 ≤ (g.fieldP c).toNat
  · simp only [fencex_rest, hp, decide_true, if_true]
  · simp only [fencex_rest, fencex_same (Nat.not_le.1 hp), hp, ha, decide_false, Bool.false_eq_true, if_false]
    congr 1
    grind
end

/-- Settles O32: each clause names one branch of the two instructions' outcomes. -/
theorem fencesOrder : Obligations.FencesOrder := by
  intro s k g c hi ha
  rw [exec_fence, exec_fencex, State.fenceOp_eq hi ha, State.fencexOp_eq hi ha]
  dsimp only
  generalize g.fieldP c = p
  refine ⟨fun hp h1 h2 h3 hlog hrel hsc => ?_, fun hp h1 h2 h3 hw => ?_, fun hb => by rw [if_pos (show _ from hb)], fun hp hs => ?_,
    fun hp hs hne => ⟨fun hlog hd => ?_, fun hw => ?_⟩, fun hp => by rw [if_pos (show _ from hp)]⟩
  · rw [if_neg (by omega), if_neg]
    rintro (h | ⟨h, hr⟩ | ⟨h, hr⟩)
    · exact h hlog
    · simp [hrel h] at hr
    · exact hr (hsc h)
  · rw [if_neg (by omega), if_pos (by tauto)]
  · rw [if_neg (by omega), if_pos hs]
  · rw [if_neg (by omega), if_neg (by simp [hs, hne]), if_neg (by simp [hlog, hd])]
  · rw [if_neg (by omega), if_neg (by simp [hs, hne]), if_pos hw]

end Sys2Proof.Machine
end

section
namespace Sys2Proof.Machine

/-! ## Segment registers and rubric entries (O33) -/

theorem exec_link (f : GFmt) (s : State) : exec (.link f) s = s.linkOp f := rfl
theorem exec_gld (f : GFmt) (s : State) : exec (.gld f) s = s.gldOp f := rfl
theorem exec_gmov (f : GFmt) (s : State) : exec (.gmov f) s = s.gmovOp f := rfl
theorem exec_segq (f : GFmt) (s : State) : exec (.segq f) s = s.segqOp f := rfl

/-- The state goes on with segment register `gd` replaced, as LINK, GLD and GMOV leave it. -/
theorem Group.stepped_seg_spec (g : Group) (c : Clause) (gd : Nat) (r : SegReg) (u : Nat) :
    let h := ({ g with seg := g.seg.put gd r, acqUntil := u } : Group).stepped c none
    h.segReg gd = r ∧ (∀ m,
      m ≠ gd → h.segReg m = g.segReg m) ∧ h.sc = g.sc ∧ h.regs = g.regs ∧ h.well = g.well ∧ h.pr = g.pr ∧ h.exec = g.exec := by
  dsimp only
  rw [Group.stepped_eq]
  exact ⟨Tbl.get_put_self _ _ _ _, fun m hm => Tbl.get_put_ne _ _ _ hm, rfl, rfl, rfl, rfl, rfl⟩

/-- What LINK, GLD and GMOV leave: segment register `gd` holds `r`, the rest of the group's values stand, and memory is that of `u`. -/
def State.segLoaded (o : Host.Outcome State Fault Refusal) (u : State) (k : GKey) (g : Group) (gd : Nat) (r : SegReg) : Prop :=
  ∃ t h, o = .next t ∧ t.group? k = some h ∧ h.segReg gd = r ∧ (∀ m, m ≠ gd → h.segReg m = g.segReg m)
    ∧ h.sc = g.sc ∧ h.regs = g.regs ∧ h.well = g.well ∧ h.pr = g.pr ∧ h.exec = g.exec ∧ t.mem = u.mem

theorem State.segLoaded_advance (u v : State) (k : GKey) (g : Group) (c : Clause) (gd : Nat) (r : SegReg) (n occ : Nat) (hm : v.mem = u.mem) :
    State.segLoaded (.next (v.advance k { g with seg := g.seg.put gd r, acqUntil := n } c occ none)) u k g gd r := by
  obtain ⟨h1, h2, h3, h4, h5, h6, h7⟩ := g.stepped_seg_spec c gd r n
  exact ⟨_, _, rfl, State.advance_group? .., h1, h2, h3, h4, h5, h6, h7, hm⟩

theorem State.segLoadOp_of_loads {s v : State} {k : GKey} {g : Group} (c : Clause) (gd : Nat) {sel : BitVec 16} {r : SegReg} {kr : Nat}
    (hh : s.selHolds k g (s.whoOf k g) sel = false) (hl : s.loadSeg (s.whoOf k g) g sel = (.ok (r, kr), v)) :
    State.segLoaded (.next (s.segLoadOp k g c gd sel)) v k g gd r := by
  unfold State.segLoadOp
  simp only [hh, hl, Bool.false_eq_true, if_false]
  exact State.segLoaded_advance v _ k g c gd r _ _ (State.tableClk_mem v)

theorem State.segLoadOp_of_holds {s : State} {k : GKey} {g : Group} (c : Clause) (gd : Nat) {sel : BitVec 16}
    (hh : s.selHolds k g (s.whoOf k g) sel = true) : s.segLoadOp k g c gd sel = s.hold k g := by
  simp only [State.segLoadOp, hh, if_true]

section
variable {s : State} {k : GKey} {g : Group} {c : Clause} {f : GFmt}

theorem ne_zero_eq_false {w : Nat} {x : BitVec w} (h : x = 0#w) : (x != 0#w) = false := by simp [h]

theorem State.linkOp_eq (hi : s.issues k g c) (ha : s.acquiring k g = false) (hs : f.s = 0#8) (hf : f.g ≠ 15#4) :
    s.linkOp f = .next (if s.tableHolds k g (s.whoOf k g) (s.rubricLin (s.whoOf k g) f.idx.toNat) 8 then s.hold k g
      else match s.readLin (s.whoOf k g) (s.rubricLin (s.whoOf k g) f.idx.toNat) 8 with
      | (.error x, s1) => s1.tableFault k g x (s.rubricLin (s.whoOf k g) f.idx.toNat)
      | (.ok bs, s1) => if (entryOf bs).state = 2 then s1.segLoadOp k g c f.g.toNat (BitVec.ofNat 16 (entryOf bs).sel)
          else s1.linkTrapOp k g f.idx.toNat (entryOf bs) (s.rubricLin (s.whoOf k g) f.idx.toNat)) := by
  rw [State.linkOp, State.withIssuer_of _ hi]
  simp only [hs, hf, ha, bne_self_eq_false, Bool.false_eq_true, if_false] <;> rfl

theorem State.gldOp_eq (hi : s.issues k g c) (ha : s.acquiring k g = false) (hx : f.idx = 0#12) (hf : f.g ≠ 15#4)
    (hs : isScalarOrImm f.s = true) (hp : g.pending (touchScalars (useScalars [useOf f.s true 1])) = false) :
    s.gldOp f = .next (s.segLoadOp k g c f.g.toNat ((g.uniform f.s).setWidth 16)) := by
  have hb : bits (g.uniform f.s) 0 16 = (g.uniform f.s).setWidth 16 := by
    rw [bits, ← BitVec.toNat_inj, toNat_extractLsb'_eq_div_mod, BitVec.toNat_setWidth, Nat.pow_zero, Nat.div_one]
  rw [State.gldOp, State.withIssuer_of _ hi]
  simp only [hx, hf, ha, hs, hp, hb, bne_self_eq_false, Bool.not_true, Bool.false_eq_true, if_false]

theorem State.gmovOp_eq {src : Nat} (hi : s.issues k g c) (ha : s.acquiring k g = false) (hs : f.s = 0#8) (hf : f.g ≠ 15#4)
    (hx : f.idx.toNat = 256 * src) :
    s.gmovOp f = .next (s.advance k { g with seg := g.seg.put f.g.toNat (g.segReg src) } c 1 none) := by
  have hlt := f.idx.isLt
  have hlow : (f.idx.extractLsb' 0 8 != 0) = false := by
    rw [extractLsb'_bne_zero, decide_eq_false_iff_not]
    omega
  have hsrc : (f.idx.extractLsb' 8 4).toNat = src := by
    rw [toNat_extractLsb'_eq_div_mod]
    omega
  rw [State.gmovOp, State.withIssuer_of _ hi]
  simp only [hs, hf, ha, hlow, hsrc, bne_self_eq_false, Bool.or_self, Bool.false_eq_true, if_false]

/-- SEGQ past its checks. -/
theorem State.segqOp_eq {n q : Nat} (hi : s.issues k g c) (ha : s.acquiring k g = false) (hn : f.s.toNat = 0x80 + n) (hn64 : n < 64)
    (hp : g.pending { regs := [], scalars := [n], preds := [] } = false) (hq : f.idx.toNat = q) (hq3 : q < 3) :
    s.segqOp f = .next (
      let r := g.segReg f.g.toNat
      let lin := s.descLin (s.whoOf k g) r.sel.toNat
      if r.sel = 0#16 then s.advance k (g.setScalar n 0#32) c 1 none
      else if 0xfffd ≤ r.sel.toNat ∨ q ≠ 2 then s.advance k (g.setScalar n (segAnswer r q false)) c 1 none
      else if s.tableHolds k g (s.whoOf k g) lin 32 then s.hold k g
      else match s.readLin (s.whoOf k g) lin 32 with
      | (.error x, s1) => s1.tableFault k g x lin
      | (.ok bs, s1) =>
        s1.tableClk.2.advance k ((g.setScalar n (segAnswer r q ((decodeDesc r.sel bs).1.gen != r.gen))).acquire s.clk 5) c
          (1 + s1.tableClk.1) none) := by
  have hhigh : (f.idx.extractLsb' 2 10 != 0) = false := by
    rw [extractLsb'_bne_zero, decide_eq_false_iff_not]
    omega
  have hqv : (f.idx.extractLsb' 0 2).toNat = q := by
    rw [toNat_extractLsb'_eq_div_mod]
    omega
  have hsub : f.s.toNat - 0x80 = n := by omega
  rw [State.segqOp, State.withIssuer_of _ hi]
  simp only [hhigh, hqv, hsub, hp, ha, isScalar_of_toNat hn hn64, Nat.ne_of_lt hq3, decide_false, Bool.or_self, Bool.not_true, Bool.false_eq_true,
    if_false, Bool.or_eq_true, decide_eq_true_eq, bne_iff_ne] <;> rfl

theorem State.bindInstr_eq {n : Nat} (hi : s.issues k g c) (hpriv : g.privileged = true) (hspec : g.speculative = false)
    (hn : f.s.toNat = 0x80 + n) (hn64 : n < 64) (hp : g.pending { regs := [], scalars := [n, n + 1], preds := [] } = false) (hf : f.g = 0#4)
    (h2 : n % 2 = 0) : s.bindInstr f = .next (s.bindOp k g c (n + 1) f.idx.toNat (.bind ((g.scalar n).toNat % 65536))) := by
  have hsub : f.s.toNat - 0x80 = n := by omega
  have heven : isEvenScalar f.s = true := by
    simp only [isEvenScalar, isScalar_of_toNat hn hn64, Bool.true_and, beq_iff_eq]
    omega
  rw [State.bindInstr, State.withIssuer_of _ hi]
  simp only [hsub, hp, hpriv, hspec, hf, heven, bne_self_eq_false, Bool.not_true, Bool.false_eq_true, if_false]

theorem State.unbindInstr_eq {n : Nat} {act : BindAct} (hi : s.issues k g c) (hpriv : g.privileged = true) (hspec : g.speculative = false)
    (hn : f.s.toNat = 0x80 + n) (hn64 : n < 64) (hp : g.pending { regs := [], scalars := [n], preds := [] } = false)
    (hact : (f.g = 0#4 ∧ act = .unbind) ∨ (f.g = 1#4 ∧ act = .revoke) ∨ (f.g = 2#4 ∧ act = .retire)) :
    s.unbindInstr f = .next (s.bindOp k g c n f.idx.toNat act) := by
  have hsub : f.s.toNat - 0x80 = n := by omega
  rw [State.unbindInstr, State.withIssuer_of _ hi]
  rcases hact with ⟨hf, rfl⟩ | ⟨hf, rfl⟩ | ⟨hf, rfl⟩
  all_goals
    simp only [hf, hsub, hp, hpriv, hspec, isScalar_of_toNat hn hn64, Bool.not_true, Bool.false_eq_true, if_false]
    rfl

/-- The status scalar of a rubric act: its value stands, and it is pending until the act is complete. -/
def State.statusLeft (t u : State) (k : GKey) (g : Group) (m : Nat) (v : Word) : Prop :=
  ∃ h, t.group? k = some h ∧ h.scalar m = v ∧ h.pending { regs := [], scalars := [m], preds := [] } = true ∧ t.mem = u.mem
    ∧ h.regs = g.regs ∧ h.seg = g.seg ∧ h.pr = g.pr

/-- The group once its act is on its way: status scalar `m` holds `v` and is pending. -/
theorem Group.status_spec (g : Group) (c : Clause) (m : Nat) (v : Word) (p : List Pend) (hp : ∃ q ∈ p, q.on = .scalar m) :
    let h := ({ g with sc := g.sc.put m v, pend := p } : Group).stepped c none
    h.scalar m = v ∧ h.pending { regs := [], scalars := [m], preds := [] } = true ∧ h.regs = g.regs ∧ h.seg = g.seg ∧ h.pr = g.pr := by
  dsimp only
  rw [Group.stepped_eq]
  obtain ⟨q, hq, hon⟩ := hp
  exact ⟨Tbl.get_put_self _ _ _ _, List.any_eq_true.2 ⟨q, hq, by simp [hon]⟩, rfl, rfl, rfl⟩

theorem State.bindOp_of_applied {m idx : Nat} {act : BindAct} {e : Entry} {sig : Bool} {u : State} (c : Clause)
    (hh : s.bindHolds k g (s.whoOf k g) idx act = false) (hb : s.applyBind (s.whoOf k g) idx act = (.applied e sig, u)) :
    (s.bindOp k g c m idx act).statusLeft u k g m 0#32 := by
  obtain ⟨h1, h2, h3, h4, h5⟩ := g.status_spec c m 0#32 ({ id := 0, on := .scalar m, lanes := 1#32 } :: g.pend) ⟨_, List.mem_cons_self, rfl⟩
  unfold State.bindOp
  simp only [hh, hb, Bool.false_eq_true, if_false]
  cases sig
  · exact ⟨_, State.advance_group? u k _ c 1 none, h1, h2, rfl, h3, h4, h5⟩
  · exact ⟨_, State.advance_group? u k _ c 1 none, h1, h2, rfl, h3, h4, h5⟩

theorem State.bindOp_of_refused {m idx : Nat} {act : BindAct} {u : State} (c : Clause)
    (hh : s.bindHolds k g (s.whoOf k g) idx act = false) (hb : s.applyBind (s.whoOf k g) idx act = (.refused, u)) :
    (s.bindOp k g c m idx act).statusLeft u k g m 1#32 := by
  unfold State.bindOp
  simp only [hh, hb, Bool.false_eq_true, if_false]
  refine ⟨(((g.awaitScalar m 0).stepped c none).setScalar m 1#32), ?_, ?_⟩
  · exact State.updGroup_group?_self _ (State.advance_group? ..)
  · rw [Group.stepped_eq]
    exact ⟨Tbl.get_put_self _ _ _ _, List.any_eq_true.2 ⟨_, List.mem_cons_self, by simp⟩, State.updGroup_mem .., rfl, rfl, rfl⟩

theorem State.bindOp_of_holds {m idx : Nat} {act : BindAct} (c : Clause) (hh : s.bindHolds k g (s.whoOf k g) idx act = true) :
    s.bindOp k g c m idx act = s.hold k g := by
  simp only [State.bindOp, hh, if_true]

/-- BIND and UNBIND past their checks are one rubric act. -/
theorem State.exec_rubricAct {n m : Nat} {i : Instr} {act : BindAct} (hi : s.issues k g c) (hpriv : g.privileged = true)
    (hspec : g.speculative = false)
    (hn : f.s.toNat = 0x80 + n) (hn64 : n < 64) (hp2 : g.pending { regs := [], scalars := [n, n + 1], preds := [] } = false)
    (hp : g.pending { regs := [], scalars := [n], preds := [] } = false)
    (h : (i = .bind f ∧ f.g = 0#4 ∧ n % 2 = 0 ∧ m = n + 1 ∧ act = .bind ((g.scalar n).toNat % 65536))
      ∨ (i = .unbind f ∧ m = n ∧ ((f.g = 0#4 ∧ act = .unbind) ∨ (f.g = 1#4 ∧ act = .revoke) ∨ (f.g = 2#4 ∧ act = .retire)))) :
    exec i s = .next (s.bindOp k g c m f.idx.toNat act) := by
  rcases h with ⟨rfl, hf, h2, rfl, rfl⟩ | ⟨rfl, rfl, hact⟩
  · rw [exec_bind, State.bindInstr_eq hi hpriv hspec hn hn64 hp2 hf h2]
  · rw [exec_unbind, State.unbindInstr_eq hi hpriv hspec hn hn64 hp hact]
end

theorem entryAct_spec (e : Entry) (sel : Nat) :
    (entryAct (.bind sel) e = if e.state = 0 ∨ e.state = 1 then some ({ e with state := 2, sel := sel }, true) else none)
    ∧ (entryAct .unbind e = if e.state = 2 then some ({ e with state := 0, rgen := e.rgen + 1 }, false) else none)
    ∧ entryAct .revoke e = entryAct .unbind e
    ∧ (e.state < 3 → ∃ b, entryAct .retire e = some ({ e with state := 3, rgen := e.rgen + 1 }, b)) ∧ (e.state = 3 → entryAct .retire e = none) :=
  ⟨rfl, rfl, rfl, fun h => ⟨decide (e.state < 2), if_neg (Nat.ne_of_lt h)⟩, fun h => if_pos h⟩

/-- Settles O33: each instruction's outcome past its checks, then what the load, the answer or the rubric act leaves. -/
theorem segmentAndRubricResults : Obligations.SegmentAndRubricResults := by
  refine ⟨?_, entryAct_spec, fun f s k g c n m i act hi hpriv hspec hn hn64 hp2 hp h => ?_⟩
  · intro f s k g c n hi ha w lin loads
    refine ⟨fun bs u r kr v hs hf hh hr hst hsh hl => ?_, fun hs hf hh => ?_, fun bs u hs hf hh hr hst hspec => ?_,
      fun hx hf hs hp => ⟨fun r kr v hh hl => ?_, fun hh => ?_⟩, fun src hs hf hx => ?_, fun q hn hn64 hp hq hq3 => ⟨fun hsel => ?_,
        fun hsel hor => ?_, fun hsel hlt h2 hh => ?_, fun bs u hsel hlt h2 hh hr => ?_⟩⟩
    · have he := (exec_link f s).trans (State.linkOp_eq hi ha hs hf)
      simp only [show s.tableHolds k g (s.whoOf k g) (s.rubricLin (s.whoOf k g) f.idx.toNat) 8 = false from hh,
        show s.readLin (s.whoOf k g) (s.rubricLin (s.whoOf k g) f.idx.toNat) 8 = (.ok bs, u) from hr, hst, Bool.false_eq_true, if_false,
        if_true] at he
      show State.segLoaded (exec (.link f) s) v k g f.g.toNat r
      rw [he]
      exact State.segLoadOp_of_loads c f.g.toNat hsh hl
    · rw [exec_link, State.linkOp_eq hi ha hs hf, if_pos hh]
    · have he := (exec_link f s).trans (State.linkOp_eq hi ha hs hf)
      simp only [show s.tableHolds k g (s.whoOf k g) (s.rubricLin (s.whoOf k g) f.idx.toNat) 8 = false from hh,
        show s.readLin (s.whoOf k g) (s.rubricLin (s.whoOf k g) f.idx.toNat) 8 = (.ok bs, u) from hr, hst, State.linkTrapOp, hspec,
        Bool.false_eq_true, if_false] at he
      exact he
    · show State.segLoaded (exec (.gld f) s) v k g f.g.toNat r
      rw [exec_gld, State.gldOp_eq hi ha hx hf hs hp]
      exact State.segLoadOp_of_loads c f.g.toNat hh hl
    · rw [exec_gld, State.gldOp_eq hi ha hx hf hs hp, State.segLoadOp_of_holds c f.g.toNat hh]
    · show State.segLoaded (exec (.gmov f) s) s k g f.g.toNat (g.segReg src)
      rw [exec_gmov, State.gmovOp_eq hi ha hs hf hx]
      exact State.segLoaded_advance s s k g c f.g.toNat _ g.acqUntil 1 rfl
    all_goals have he := (exec_segq f s).trans (State.segqOp_eq hi ha hn hn64 hp hq hq3)
    · rw [he]
      simp only [hsel, if_true]
    · rw [he]
      dsimp only
      rw [if_neg hsel, if_pos (by omega)]
    · rw [he]
      dsimp only
      rw [if_neg hsel, if_neg (by omega), if_pos hh]
    · dsimp only at he
      rw [if_neg hsel, if_neg (by omega), if_neg (by simpa using hh)] at he
      rw [show s.readLin (s.whoOf k g) (s.descLin (s.whoOf k g) (g.segReg f.g.toNat).sel.toNat) 32 = (.ok bs, u) from hr] at he
      refine ⟨_, _, he, State.advance_group? .., State.tableClk_mem u, ?_⟩
      rw [Group.stepped_eq]
      exact Tbl.get_put_self _ _ _ _
  · have he := State.exec_rubricAct hi hpriv hspec hn hn64 hp2 hp h
    refine ⟨fun hh => by rw [he, State.bindOp_of_holds c hh], fun hh => ⟨fun e sig u hb => ?_, fun u hb => ?_⟩⟩
    · obtain ⟨h, hl⟩ := State.bindOp_of_applied (m := m) c hh hb
      exact ⟨_, h, he, hl⟩
    · obtain ⟨h, hl⟩ := State.bindOp_of_refused (m := m) c hh hb
      exact ⟨_, h, he, hl⟩

end Sys2Proof.Machine
end

section
namespace Sys2Proof.Machine

/-! ## Cores: what a change of one leaves in each (rules for O34 to O38 and the engines' events) -/

theorem State.updCore_core (s : State) (d c : Nat) (f : Core → Core) (d' c' : Nat) :
    (s.updCore d c f).core d' c' = if coreNum d' c' = coreNum d c then f (s.core d' c') else s.core d' c' := by
  unfold State.updCore State.putCore State.core
  by_cases h : coreNum d' c' = coreNum d c
  · rw [if_pos h, h]
    exact Tbl.get_put_self _ _ _ _
  · rw [if_neg h]
    exact Tbl.get_put_ne _ _ _ h

@[simp] theorem State.updCore_core_self (s : State) (d c : Nat) (f : Core → Core) : (s.updCore d c f).core d c = f (s.core d c) := by
  rw [State.updCore_core, if_pos rfl]

/-- A field of a core that `f` leaves is left in every core. -/
theorem State.updCore_field {α : Type} (p : Core → α) (s : State) (d c : Nat) {f : Core → Core} (hf : ∀ x, p (f x) = p x) (d' c' : Nat) :
    p ((s.updCore d c f).core d' c') = p (s.core d' c') := by
  rw [State.updCore_core]
  split
  · exact hf _
  · rfl

/-- The time a pen is taken for is all that `busy` changes in a core. -/
theorem State.busy_field {α : Type} (p : Core → α) (hp : ∀ (x : Core) (l : Tbl Pen), p { x with pens := l } = p x) (s : State) (k : GKey)
    (n d c : Nat) :
    p ((s.busy k n).core d c) = p (s.core d c) := by
  unfold State.busy State.putPen
  exact State.updCore_field p s _ _ (fun x => hp x _) d c

@[simp] theorem State.busy_copies (s : State) (k : GKey) (n : Nat) (ck : CoreKey) : (s.busy k n).copies ck = s.copies ck :=
  State.busy_field Core.copy (fun _ _ => rfl) s k n _ _
@[simp] theorem State.busy_tile (s : State) (k : GKey) (n : Nat) (d c m : Nat) : (s.busy k n).tile d c m = s.tile d c m :=
  congrArg (fun t : Tbl Tile => t.get Tile.reset m) (State.busy_field Core.tiles (fun _ _ => rfl) s k n d c)
@[simp] theorem State.busy_arr (s : State) (k : GKey) (n : Nat) (d c : Nat) : (s.busy k n).arr d c = s.arr d c :=
  State.busy_field Core.arr (fun _ _ => rfl) s k n d c

@[simp] theorem State.advance_copies (s : State) (k : GKey) (g : Group) (c : Clause) (n : Nat) (nib : Option Lanes) (ck : CoreKey) :
    (s.advance k g c n nib).copies ck = s.copies ck := State.busy_copies ..
@[simp] theorem State.advance_tile (s : State) (k : GKey) (g : Group) (c : Clause) (n : Nat) (nib : Option Lanes) (d x m : Nat) :
    (s.advance k g c n nib).tile d x m = s.tile d x m := State.busy_tile ..
@[simp] theorem State.advance_arr (s : State) (k : GKey) (g : Group) (c : Clause) (n : Nat) (nib : Option Lanes) (d x : Nat) :
    (s.advance k g c n nib).arr d x = s.arr d x := State.busy_arr ..

@[simp] theorem State.putCopies_copies (s : State) (ck : CoreKey) (l : List CopyCmd) : (s.putCopies ck l).copies ck = l := by
  simp [State.putCopies, State.copies]

@[simp] theorem State.addCopy_copies (s : State) (ck : CoreKey) (x : CopyCmd) : (s.addCopy ck x).copies ck = s.copies ck ++ [x] :=
  State.putCopies_copies ..

/-! ## CPY and CPY2D (O34) -/

theorem exec_cpy (f : EFmt) (x : ELong) (s : State) : exec (.cpy f x) s = s.cpyOp f x := rfl
theorem exec_cpy2d (f : EFmt) (x : ELong) (s : State) : exec (.cpy2d f x) s = s.cpy2dOp f x := rfl

theorem pairAt_spec {b : BitVec 8} {n : Nat} (h : pairAt b n) : isEvenScalar b = true ∧ b.toNat - 0x80 = n := by
  obtain ⟨hb, h2, hn⟩ := h
  refine ⟨?_, by omega⟩
  simp only [isEvenScalar, isScalar_of_toNat hb hn, Bool.true_and, beq_iff_eq]
  omega

section
variable {s : State} {k : GKey} {g : Group} {c : Clause} {f : EFmt} {x : ELong}

/-- No check of a copy's words stops it. -/
def copyFields (x : ELong) : Prop := x.y = 0#8 ∧ x.z1 = 0#2 ∧ x.z2 = 0#6 ∧ x.rsvd = 0#2 ∧ bselOrNone x.bsel = true

theorem State.copyWords_of_fields {two : Bool} {p q n : Nat} (go : GKey → Group → Clause → Option BarKey → State) (hi : s.issues k g c)
    (hp : pairAt f.p p) (hq : pairAt f.q q) (hf : copyFields x)
    (hn : (if two then 4 else 1) = n) (ht : g.pending (touchScalars (useScalars [useOf f.p true 2, useOf f.q true 2, useOf x.x true n])) = false)
    (hx : (if two then !isScalar x.x || x.x.toNat % 4 != 0 else !isScalarOrImm x.x) = false) :
    s.copyWords f x two go = .next (go k g c ((s.team? g.team).bind fun tm => tm.barrier g.team x.bsel)) := by
  obtain ⟨hy, hz1, hz2, hr, hb⟩ := hf
  unfold State.copyWords
  rw [State.withIssuer_of _ hi]
  simp only [hn, ht, hy, hz1, hz2, hr, hb, hx, (pairAt_spec hp).1, (pairAt_spec hq).1, bne_self_eq_false, Bool.not_true, Bool.or_self,
    Bool.false_eq_true,
    if_false]

theorem State.exec_cpy_of_fields {p q : Nat} (hi : s.issues k g c) (hp : pairAt f.p p) (hq : pairAt f.q q) (hf : copyFields x)
    (hx : isScalarOrImm x.x = true) (ht : g.pending (touchScalars (useScalars [useOf f.p true 2, useOf f.q true 2, useOf x.x true 1])) = false) :
    exec (.cpy f x) s = .next (s.copyIssue k g c f ((s.team? g.team).bind fun tm => tm.barrier g.team x.bsel) (g.scalar64 q) (g.scalar64 p)
      (g.uniform x.x).toNat 1 0 0) := by
  rw [exec_cpy, State.cpyOp, State.copyWords_of_fields (two := false) _ hi hp hq hf rfl ht (by simp [hx]), (pairAt_spec hp).2, (pairAt_spec hq).2]

theorem State.exec_cpy2d_of_fields {p q n : Nat} (hi : s.issues k g c) (hp : pairAt f.p p) (hq : pairAt f.q q) (hf : copyFields x)
    (hx : x.x.toNat = 0x80 + 4 * n) (hn : n < 16)
    (ht : g.pending (touchScalars (useScalars [useOf f.p true 2, useOf f.q true 2, useOf x.x true 4])) = false) :
    exec (.cpy2d f x) s = .next (s.copyIssue k g c f ((s.team? g.team).bind fun tm => tm.barrier g.team x.bsel) (g.scalar64 q) (g.scalar64 p)
      (g.scalar (4 * n)).toNat (g.scalar (4 * n + 1)).toNat (g.scalar (4 * n + 3)).toNat (g.scalar (4 * n + 2)).toNat) := by
  have hsc : isScalar x.x = true := isScalar_of_toNat hx (by omega)
  have hsub : x.x.toNat - 0x80 = 4 * n := by omega
  rw [exec_cpy2d, State.cpy2dOp, State.copyWords_of_fields (two := true) _ hi hp hq hf rfl ht (by simp [hsc, hx]), (pairAt_spec hp).2,
    (pairAt_spec hq).2]
  simp only [hsub, Nat.add_zero]

/-- Both segments of a copy let all of its rows pass. -/
def State.copyPasses (s : State) (k : GKey) (g : Group) (f : EFmt) (o d bytes rows sp dp : Nat) : Prop :=
  ∀ r need at_ pitch, (r = g.segReg f.gs.toNat ∧ need = .read ∧ at_ = o ∧ pitch = sp)
      ∨ (r = g.segReg f.gd.toNat ∧ need = .write ∧ at_ = d ∧ pitch = dp) → rows ≠ 0 →
    s.segCheck { s.whoOf k g with copy := true } r need false bytes 1 [(0, (at_ : Int)), (1, ((at_ + (rows - 1) * pitch : Nat) : Int))] = none
    ∧ ∀ i < rows, s.holeAt { s.whoOf k g with copy := true } r (at_ + i * pitch) bytes = false

/-- The command that a copy puts into the engine. -/
def State.copyCmd (s : State) (k : GKey) (g : Group) (f : EFmt) (bar : Option BarKey) (o d bytes rows sp dp : Nat) : CopyCmd :=
  { id := s.fresh, g := k, team := g.team, ctx := s.ctxOf g.team, node := none, dst := g.segReg f.gd.toNat, src := g.segReg f.gs.toNat,
    from_ := o, into := d, bytes := bytes, moved := 0, rows := if bytes = 0 then 0 else rows, fromPitch := sp, intoPitch := dp,
    total := bytes * rows, bar := bar, running := false, issued := s.clk, movedAt := 0, ahead := [], stalled := none, frozen := false }

theorem State.copyIssue_of_passes {bar : Option BarKey} {o d bytes rows sp dp : Nat} (hs : g.speculative = false) (ha : s.acquiring k g = false)
    (hp : s.copyPasses k g f o d bytes rows sp dp) :
    s.copyIssue k g c f bar o d bytes rows sp dp =
      if 16 ≤ (s.copies ⟨k.die, k.core⟩).length ∨ 255 ≤ g.ceq.length then s.hold k g
      else ((s.setFresh (s.fresh + 1)).advance k { g with ceq := g.ceq ++ [(s.fresh, false)], irrev := true } c 1 none).addCopy ⟨k.die, k.core⟩
        (s.copyCmd k g f bar o d bytes rows sp dp) := by
  have hpass : ∀ r need at_ pitch, (r = g.segReg f.gs.toNat ∧ need = .read ∧ at_ = o ∧ pitch = sp)
      ∨ (r = g.segReg f.gd.toNat ∧ need = .write ∧ at_ = d ∧ pitch = dp) → rows ≠ 0 →
      s.segCheck { s.whoOf k g with copy := true } r need false bytes 1 [(0, (at_ : Int)), (1, ((at_ + (rows - 1) * pitch : Nat) : Int))] = none
      ∧ (List.range rows).find?
        (fun i => s.holeAt { s.whoOf k g with copy := true } r (at_ + i * pitch) bytes) = none := fun r need at_ pitch h h0 =>
    ⟨(hp r need at_ pitch h h0).1, List.find?_eq_none.2 fun i hi => by simp [(hp r need at_ pitch h h0).2 i (List.mem_range.1 hi)]⟩
  unfold State.copyIssue
  simp only [hs, ha, Bool.false_eq_true, if_false]
  by_cases h0 : rows = 0
  · simp only [h0, if_true, Option.orElse_none]
    rfl
  · obtain ⟨h1, h2⟩ := hpass _ _ _ _ (.inl ⟨rfl, rfl, rfl, rfl⟩) h0
    obtain ⟨h3, h4⟩ := hpass _ _ _ _ (.inr ⟨rfl, rfl, rfl, rfl⟩) h0
    simp only [h0, if_false, h1, h2, h3, h4, Option.map_none, Option.orElse_none]
    rfl
end

/-- Settles O34: past its words and segments a copy waits for a place in the engine or takes the next. -/
theorem copyCommandsIssue : Obligations.CopyCommandsIssue := by
  intro f x s k g c i p q bytes rows sp dp hi hs ha hp hq hy hz1 hz2 hr hb hforms hpass
  have hx : copyFields x := ⟨hy, hz1, hz2, hr, hb⟩
  obtain ⟨bar, he⟩ : ∃ bar, exec i s = .next (s.copyIssue k g c f bar (g.scalar64 q) (g.scalar64 p) bytes rows sp dp) := by
    rcases hforms with ⟨rfl, hsrc, rfl, rfl, rfl, rfl, ht⟩ | ⟨n, rfl, hn, hn16, rfl, rfl, rfl, rfl, ht⟩
    · exact ⟨_, State.exec_cpy_of_fields hi hp hq hx hsrc ht⟩
    · exact ⟨_, State.exec_cpy2d_of_fields hi hp hq hx hn hn16 ht⟩
  rw [he, State.copyIssue_of_passes hs ha hpass]
  refine ⟨fun hroom hce => ?_, fun hfull => by rw [if_pos (.inl hfull)]⟩
  rw [if_neg (by omega)]
  refine ⟨_, _, s.copyCmd k g f bar (g.scalar64 q) (g.scalar64 p) bytes rows sp dp, rfl, State.advance_group? _ k _ c 1 none, ?_, rfl,
    ?_, rfl, rfl, rfl, rfl, rfl, rfl, rfl, rfl, rfl, rfl, rfl, rfl, ?_⟩
  · rw [Group.stepped_eq]
  · rw [State.addCopy_copies, State.advance_copies]
    rfl
  · rw [Group.stepped_eq]
    exact ⟨rfl, rfl, rfl, rfl, rfl, rfl, rfl, rfl⟩

end Sys2Proof.Machine
end

section
namespace Sys2Proof.Machine

/-! ## Tile slots (O35) -/

theorem exec_tclm (f : TFmt) (s : State) : exec (.tclm f) s = s.tclmOp f := rfl
theorem exec_trel (f : TFmt) (s : State) : exec (.trel f) s = s.trelOp f := rfl
theorem exec_tld (f : TFmt) (s : State) : exec (.tld f) s = s.tldOp f := rfl

/-! ### Flits that set out, whatever their links: memory and the cores stand, and what was due is due -/

/-- Of memory, the cores and the agenda, `t` differs from `s` in the pens and in events that have been added. -/
def State.onlyPosts (s t : State) : Prop :=
  t.mem = s.mem ∧ (∀ d c, ∃ pens, t.core d c = { s.core d c with pens := pens }) ∧ ∀ e ∈ s.agenda, e ∈ t.agenda

theorem State.onlyPosts_refl (s : State) : s.onlyPosts s := ⟨rfl, fun _ _ => ⟨_, rfl⟩, fun _ h => h⟩

theorem State.onlyPosts_trans {s t u : State} (a : s.onlyPosts t) (b : t.onlyPosts u) : s.onlyPosts u := by
  obtain ⟨ha, hca, hea⟩ := a
  obtain ⟨hb, hcb, heb⟩ := b
  refine ⟨hb.trans ha, fun d c => ?_, fun e h => heb e (hea e h)⟩
  obtain ⟨p, hp⟩ := hca d c
  obtain ⟨q, hq⟩ := hcb d c
  exact ⟨q, by rw [hq, hp]⟩

theorem State.onlyPosts_foldl {α : Type} {f : State → α → State} (hf : ∀ s x, State.onlyPosts s (f s x)) (l : List α) (s : State) :
    s.onlyPosts (l.foldl f s) := by
  induction l generalizing s with
  | nil => exact s.onlyPosts_refl
  | cons x r ih => exact State.onlyPosts_trans (hf s x) (ih _)

theorem State.onlyPosts_tile {s t : State} (h : s.onlyPosts t) (d c n : Nat) : t.tile d c n = s.tile d c n := by
  obtain ⟨p, hp⟩ := h.2.1 d c
  simp only [State.tile, hp]

theorem State.onlyPosts_of_eq {s t : State} (hm : t.mem = s.mem) (hc : t.cores = s.cores) (ha : ∀ e ∈ s.agenda, e ∈ t.agenda) : s.onlyPosts t :=
  ⟨hm, fun d c => ⟨(s.core d c).pens, by simp [State.core, hc]⟩, ha⟩

theorem mem_insertDue_of_mem {x : Nat × Event} {l : List (Nat × Event)} (due : Nat) (e : Event) (h : x ∈ l) : x ∈ insertDue due e l := by
  induction l with
  | nil => cases h
  | cons y r ih =>
    obtain ⟨d, z⟩ := y
    unfold insertDue
    rcases List.mem_cons.1 h with rfl | hr
    · split <;> simp
    · split
      · exact List.mem_cons_of_mem _ (ih hr)
      · exact List.mem_cons_of_mem _ (List.mem_cons_of_mem _ hr)

theorem State.post_onlyPosts (s : State) (n : Nat) (e : Event) : s.onlyPosts (s.post n e) :=
  State.onlyPosts_of_eq rfl rfl fun _ h => mem_insertDue_of_mem n e h

theorem State.after_onlyPosts (s : State) (n : Nat) (e : Event) : s.onlyPosts (s.after n e) :=
  State.onlyPosts_of_eq rfl rfl fun _ h => mem_insertDue_of_mem _ e h

theorem State.sendFlit_onlyPosts (s : State) (h : Hop) (c : Cargo) (b : Nat) : s.onlyPosts (s.sendFlit h c b) := by
  unfold State.sendFlit
  dsimp only
  split
  · split
    · exact State.onlyPosts_of_eq rfl rfl fun _ h => h
    · exact State.onlyPosts_of_eq rfl rfl fun _ h => mem_insertDue_of_mem _ _ h
  · exact State.onlyPosts_of_eq rfl rfl fun _ h => mem_insertDue_of_mem _ _ h

theorem State.leavePen_onlyPosts (s : State) (k : GKey) (g : Group) (r : RunState) : s.onlyPosts (s.leavePen k g r) := by
  refine ⟨State.leavePen_mem .., fun d c => ?_, fun e h => ?_⟩
  · unfold State.leavePen
    dsimp only
    split
    · unfold State.putPen
      rw [State.updCore_core]
      split
      · exact ⟨_, rfl⟩
      · exact ⟨_, rfl⟩
    · exact ⟨_, rfl⟩
  · unfold State.leavePen
    dsimp only
    split
    · exact h
    · exact h

theorem State.cutGroup_onlyPosts (s : State) (h : Hop) (k : GKey) (team ctx : Nat) : s.onlyPosts (s.cutGroup h k team ctx) := by
  have hviol : ∀ m, s.onlyPosts (s.violate h.link h.cls m ctx) := fun m =>
    State.onlyPosts_of_eq (State.violate_mem ..) rfl fun _ h => h
  unfold State.cutGroup
  split
  · exact State.onlyPosts_of_eq (State.stray_mem ..) rfl fun _ h => h
  · dsimp only
    split
    · exact State.onlyPosts_trans (hviol _) (State.leavePen_onlyPosts ..)
    · exact State.onlyPosts_trans (hviol _) (State.leavePen_onlyPosts ..)

theorem State.readHop_onlyPosts (s : State) (r : ReadFor) (team ctx : Nat) (hs : List Hop) : s.onlyPosts (s.readHop r team ctx hs) := by
  unfold State.readHop
  split
  · split
    · exact s.onlyPosts_refl
    · exact s.post_onlyPosts _ _
  · split
    · exact State.onlyPosts_trans (State.onlyPosts_of_eq rfl rfl fun _ h => h) (State.cutGroup_onlyPosts ..)
    · exact s.sendFlit_onlyPosts _ _ _

theorem State.sendReads_onlyPosts (s : State) (die : Nat) (r : ReadFor) (team ctx : Nat) (rs : List Run) :
    s.onlyPosts (s.sendReads die r team ctx rs) := by
  unfold State.sendReads
  refine State.onlyPosts_foldl (fun t x => ?_) rs s
  split
  · exact t.onlyPosts_refl
  · exact State.onlyPosts_foldl (fun u _ => u.readHop_onlyPosts r team ctx _) _ t

/-! ### One slot of one core -/

theorem State.putTile_tile (s : State) (d c n : Nat) (x : Tile) (c' m : Nat) (h : m ≠ n) : (s.putTile d c n x).tile d c' m = s.tile d c' m := by
  unfold State.putTile State.tile
  rw [State.updCore_core]
  split
  · exact Tbl.get_put_ne _ _ _ h
  · rfl

@[simp] theorem State.putTile_tile_self (s : State) (d c n : Nat) (x : Tile) : (s.putTile d c n x).tile d c n = x := by
  unfold State.putTile State.tile
  rw [State.updCore_core_self]
  exact Tbl.get_put_self _ _ _ _

section
variable {s : State} {k : GKey} {g : Group} {c : Clause}

theorem State.matGo_of_acts (later : Option Trap) (go : State) (hg : g.acts) : s.matGo k g c none later go = go := by
  obtain ⟨he, hs⟩ := hg
  simp [State.matGo, he, hs]

theorem State.matIssue_of_acts {t : Touch} (later : Option Trap) (go : State) (hp : g.pending t = false) (hg : g.acts) :
    s.matIssue k g c t false none none later go = go := by
  simp only [State.matIssue, hp, Bool.false_eq_true, if_false]
  exact State.matGo_of_acts later go hg

theorem State.slotCores_of_single {n : Nat} (h : s.follower k.die k.core g.team = none) : s.slotCores k g.team n = [k.core] := by
  simp [State.slotCores, h]

theorem State.slotActs_single (s : State) (d n core : Nat) (f : Tile → SlotAct) : s.slotActs d n f [core] =
    match f (s.tile d core n) with
    | .bad => .bad (s.tile d core n)
    | .wait => .wait
    | .ok x => .ok [(core, x)] := by
  simp only [State.slotActs]
  cases f (s.tile d core n) <;> rfl

/-- The group once TCLM has answered `v` in scalar `st`. -/
def State.tclmGroup (s : State) (g : Group) (st : Nat) (v : Word) : Group :=
  { g.setScalar st v with pend := { id := s.fresh, on := .scalar st, lanes := 1#32, due := s.clk + 8 } :: g.pend, irrev := true }

theorem State.tclmOp_of_acts {f : TFmt} {st : Nat} (hi : s.issues k g c) (hg : g.acts) (hn : f.slot.toNat < 96)
    (hf : s.follower k.die k.core g.team = none) (hst : f.s.toNat = 0x80 + st) (h64 : st < 64) (hu : f.u = 0#8) (hfl : f.fl = 0#1)
    (hp : g.pending (touchScalars [st]) = false) :
    s.tclmOp f = .next (
      let ok : Bool := (s.tile k.die k.core f.slot.toNat).state == .free
      let s1 := if ok then s.putTile k.die k.core f.slot.toNat { Tile.reset with state := .empty, owner := g.team } else s
      (s1.setFresh (s1.fresh + 1)).advance k (s1.tclmGroup g st (if ok then 1#32 else 0#32)) c 1 none) := by
  have hsub : f.s.toNat - 0x80 = st := by omega
  have hfield : (f.u != 0#8 || f.fl != 0#1 || decide (96 ≤ f.slot.toNat)) = false := by
    simp only [hu, hfl, bne_self_eq_false, Bool.or_self, Bool.false_or, decide_eq_false_iff_not]
    omega
  have hspec : badIf (!isScalar f.s) f.s = none := by simp [badIf, isScalar_of_toNat hst h64]
  rw [State.tclmOp, State.withIssuer_of _ hi]
  simp only [hfield, hspec, hsub, hf, State.matIssue_of_acts _ _ hp hg, Option.toList_none, List.all_cons, List.all_nil, Bool.and_true,
    List.map_cons,
    List.map_nil, State.putTiles, List.foldl_cons, List.foldl_nil]
  cases (s.tile k.die k.core f.slot.toNat).state == .free <;> rfl

theorem State.trelOp_of_acts {f : TFmt} (hi : s.issues k g c) (hg : g.acts) (hn : f.slot.toNat < 96)
    (hf : s.follower k.die k.core g.team = none) (hs : f.s = 0#8) (hu : f.u = 0#8) :
    s.trelOp f = .next (match (s.tile k.die k.core f.slot.toNat).trel g.team (f.fl == 1#1) with
      | .bad => s.raise k g (slotTrap f.slot.toNat (s.tile k.die k.core f.slot.toNat))
      | .wait => s.hold k g
      | .ok y => ((s.putTile k.die k.core f.slot.toNat y).advance k { g with irrev := true } c 1 none).feederPoke k.die) := by
  have hfield : (f.s != 0#8 || f.u != 0#8 || decide (96 ≤ f.slot.toNat)) = false := by
    simp only [hs, hu, bne_self_eq_false, Bool.or_self, Bool.false_or, decide_eq_false_iff_not]
    omega
  have hp : g.pending (touchScalars []) = false := by
    rw [Group.pending, List.any_eq_false]
    intro p _
    cases p.on <;> simp [touchScalars]
  rw [State.trelOp, State.withIssuer_of _ hi]
  simp only [hfield, State.slotCores_of_single hf, State.slotActs_single]
  cases h : (s.tile k.die k.core f.slot.toNat).trel g.team (f.fl == 1#1) with
  | bad => simp only [SlotActs.trap, State.matIssue, State.matGo, hp, Bool.false_eq_true, if_false]
  | wait => simp only [SlotActs.trap, State.matIssue_of_acts _ _ hp hg]
  | ok y => simp only [SlotActs.trap, State.matIssue_of_acts _ _ hp hg, State.putTiles, List.foldl_cons, List.foldl_nil]
end

theorem Tile.trel_of_full {x : Tile} {team : Nat} (h : x.state = .full) (ho : x.owner = team) (hr : x.readers = 0) :
    (x.ring = false → x.trel team true = .ok Tile.reset) ∧ x.trel team false = .ok x.emptied := by
  have hown : x.ownedBy team = true := by simp [Tile.ownedBy, h, ho]
  simp [Tile.trel, hown, h, hr]

theorem State.tclm_group (u u' : State) (k : GKey) (g : Group) (c : Clause) (st : Nat) (v : Word) :
    ∃ h, (u.advance k (u'.tclmGroup g st v) c 1 none).group? k = some h ∧ h.regs = g.regs ∧ h.seg = g.seg ∧ h.pr = g.pr ∧ h.scalar st = v
      ∧ ∀ m, m ≠ st → h.scalar m = g.scalar m := by
  refine ⟨_, State.advance_group? .., ?_⟩
  rw [Group.stepped_eq]
  exact ⟨rfl, rfl, rfl, Tbl.get_put_self _ _ _ _, fun m hm => Tbl.get_put_ne _ _ _ hm⟩

/-- The tile that TLD leaves: the image's bytes, and the scales that a load without scales leaves. -/
def Tile.withImage (x : Tile) (sc : Bool) (bs : List Byte) : Tile :=
  { x with state := .filling, bytes := tblOfBytes 0 bs ++ (if sc then [] else x.bytes.filter fun e => scaleBase ≤ e.1) }

theorem find_append {α : Type} (a b : Tbl α) (j : Nat) : Tbl.find (a ++ b) j = (a.find j).orElse fun _ => b.find j := by
  induction a with
  | nil => cases h : Tbl.find b j <;> simp [Tbl.find, h]
  | cons x r ih =>
    simp only [List.cons_append, Tbl.find]
    split
    · rfl
    · exact ih

theorem find_eq_none_of_ne {α : Type} {t : Tbl α} {j : Nat} (h : ∀ e ∈ t, e.1 ≠ j) : t.find j = none := by
  induction t with
  | nil => rfl
  | cons x r ih =>
    simp only [Tbl.find, if_neg (h x (by simp))]
    exact ih fun e he => h e (by simp [he])

/-- Bytes as a table from key `o` on, a zero byte unlisted. -/
def bytesFrom (o : Nat) (bs : List Byte) : Tbl Byte :=
  (bs.zip (List.range' o bs.length)).filterMap fun e => if e.1 = 0#8 then none else some (0 + e.2, e.1)

theorem bytesFrom_cons (o : Nat) (b : Byte) (r : List Byte) : bytesFrom o (b :: r) = if b = 0#8 then bytesFrom (o + 1) r else (o, b) :: bytesFrom
    (o + 1) r := by
  simp only [bytesFrom, List.length_cons, List.range'_succ, List.zip_cons_cons, List.filterMap_cons]
  split <;> simp_all

theorem le_of_mem_bytesFrom {o : Nat} {bs : List Byte} {e : Nat × Byte} (h : e ∈ bytesFrom o bs) : o ≤ e.1 := by
  obtain ⟨x, hx, he⟩ := List.mem_filterMap.1 h
  have hr := List.mem_range'_1.1 (List.of_mem_zip (show (x.1, x.2) ∈ _ from hx)).2
  grind

theorem bytesFrom_get (o : Nat) (bs : List Byte) (j : Nat) : (bytesFrom o bs).get 0#8 (o + j) = bs.getD j 0#8 := by
  induction bs generalizing o j with
  | nil => rfl
  | cons b r ih =>
    have hlow : (bytesFrom (o + 1) r).find o = none := find_eq_none_of_ne fun e he => by
      have := le_of_mem_bytesFrom he
      omega
    rw [bytesFrom_cons]
    cases j with
    | zero =>
      by_cases hb : b = 0#8
      · simp [hb, Tbl.get, hlow]
      · simp [hb, Tbl.get, Tbl.find]
    | succ j =>
      have hne : o ≠ o + (j + 1) := by omega
      have := ih (o + 1) j
      rw [show o + 1 + j = o + (j + 1) by omega] at this
      by_cases hb : b = 0#8
      · rw [if_pos hb, this]
        rfl
      · rw [if_neg hb, List.getD_cons_succ, ← this]
        simp only [Tbl.get, Tbl.find, if_neg hne]

theorem tblOfBytes_zero (bs : List Byte) : tblOfBytes 0 bs = bytesFrom 0 bs := by
  rw [tblOfBytes, bytesFrom, List.range_eq_range']

theorem tblOfBytes_get (bs : List Byte) (j : Nat) : (tblOfBytes 0 bs).get 0#8 j = bs.getD j 0#8 := by
  have := bytesFrom_get 0 bs j
  rwa [Nat.zero_add, ← tblOfBytes_zero] at this

theorem Tile.withImage_get (x : Tile) (sc : Bool) (bs : List Byte) {j : Nat} (hsc : sc = false → j < scaleBase) :
    (x.withImage sc bs).bytes.get 0#8 j = bs.getD j 0#8 := by
  have hrest : Tbl.find (if sc then [] else x.bytes.filter fun e => scaleBase ≤ e.1) j = none := by
    refine find_eq_none_of_ne fun e he => ?_
    cases sc with
    | true => simp at he
    | false =>
      have := hsc rfl
      have hge := (List.mem_filter.1 he).2
      simp only [decide_eq_true_eq] at hge
      omega
  rw [← tblOfBytes_get]
  simp only [Tile.withImage, Tbl.get, find_append, hrest]
  cases (tblOfBytes 0 bs).find j <;> rfl

/-- The state that TLD leaves: the slot FILLING with the image, its arrival due, and the reads on their way. -/
def State.tldNext (u : State) (k : GKey) (g : Group) (c : Clause) (w : Who) (n len : Nat) (sc : Bool) (rs : List Run) : State :=
  (((u.putTile k.die k.core n ((u.tile k.die k.core n).withImage sc (u.readRuns rs))).advance k { g with irrev := true } c 1 none).after
    (imageClk w rs len) (.tileLoadLand ⟨k.die, k.core⟩ n)).sendReads k.die (.tile k ⟨k.die, k.core⟩ n) g.team w.ctx rs

theorem Tile.tld_of_empty {x : Tile} {team : Nat} (ho : x.ownedBy team = true) (h : x.state = .empty) (hr : x.ring = false) :
    x.tld team = .ok { x with state := .filling } := by
  simp [Tile.tld, ho, h, hr]

section
variable {s u : State} {k : GKey} {g : Group} {c : Clause} {f : TFmt} {rs : List Run} {o len : Nat}

theorem State.tldOp_of_acts (hi : s.issues k g c) (hg : g.acts) (hn : f.slot.toNat < 96) (hf : s.follower k.die k.core g.team = none)
    (hu : f.u.toNat % 16 = 0) (hs : isScalarOrImm f.s = true) (hp : g.pending (touchScalars (useScalars [useOf f.s true 1])) = false)
    (ha : s.acquiring k g = false) (ho : o = (g.uniform f.s).toNat) (h64 : o % 64 = 0) (hlen : len = if f.fl = 1#1 then 20488 else 16384)
    (hseg : s.segCheck (s.whoOf k g) (g.segReg (f.u.toNat / 16)) .read true len 1 [(0, (o : Int))] = none)
    (hreach : s.reachSeg (s.whoOf k g) (s.team? g.team) (g.segReg (f.u.toNat / 16)) .image o len = (.runs rs, u))
    (hr : u.refreshEnd rs = none) (hsp : u.spoiled rs = false) (htile : u.tile k.die k.core f.slot.toNat = s.tile k.die k.core f.slot.toNat)
    (hown : (s.tile k.die k.core f.slot.toNat).ownedBy g.team = true) (hst : (s.tile k.die k.core f.slot.toNat).state = .empty)
    (hring : (s.tile k.die k.core f.slot.toNat).ring = false) (hb : (u.readRuns rs).length = len) :
    s.tldOp f = .next (u.tldNext k g c (s.whoOf k g) f.slot.toNat len (f.fl == 1#1) rs) := by
  have hlow : (f.u.extractLsb' 0 4 != 0#4) = false := (extractLsb'_bne_zero f.u).trans (by rw [decide_eq_false_iff_not]; omega)
  have hhigh : (f.u.extractLsb' 4 4).toNat = f.u.toNat / 16 := by
    have := f.u.isLt
    rw [toNat_extractLsb'_eq_div_mod]
    omega
  have hfield : (f.u.extractLsb' 0 4 != 0#4 || decide (96 ≤ f.slot.toNat)) = false := by
    rw [hlow, Bool.false_or, decide_eq_false_iff_not]
    omega
  have hspec : badIf (!isScalarOrImm f.s) f.s = none := by simp [badIf, hs]
  have htld := Tile.tld_of_empty hown hst hring
  have htake : ∀ step : Nat, ((u.readRuns rs).drop (step * 0)).take len = u.readRuns rs := fun step => by
    rw [Nat.mul_zero, List.drop_zero, List.take_of_length_le (by omega)]
  unfold State.tldOp
  rw [State.withIssuer_of _ hi]
  simp only [hfield, hspec, hhigh, State.slotCores_of_single hf, State.slotActs_single, htld, SlotActs.trap, ← ho, h64, ne_eq, not_true_eq_false,
    if_false]
  simp only [List.length_singleton, OfNat.one_ne_ofNat, if_false, decide_eq_true_eq, ← hlen, hseg, State.matIssue_of_acts _ _ hp hg, ha, hreach, hr,
    hsp, htile, htld, Option.isSome_none, Bool.false_eq_true]
  simp only [List.range_one, List.zip_cons_cons, List.zip_nil_right, List.map_cons, List.map_nil, List.foldl_cons, List.foldl_nil, State.putTiles,
    htake, State.tldNext, Tile.withImage, htile, beq_iff_eq]

theorem State.tldNext_spec (u : State) (k : GKey) (g : Group) (c : Clause) (w : Who) (n len : Nat) (sc : Bool) (rs : List Run) :
    (u.tldNext k g c w n len sc rs).mem = u.mem
    ∧ (u.tldNext k g c w n len sc rs).tile k.die k.core n = (u.tile k.die k.core n).withImage sc (u.readRuns rs)
    ∧ (∀ m, m ≠ n → ∀ y, (u.tldNext k g c w n len sc rs).tile k.die y m = u.tile k.die y m)
    ∧ ∃ due, (due, Event.tileLoadLand ⟨k.die, k.core⟩ n) ∈ (u.tldNext k g c w n len sc rs).agenda := by
  have hsend := State.sendReads_onlyPosts (((u.putTile k.die k.core n ((u.tile k.die k.core n).withImage sc (u.readRuns rs))).advance k
    { g with irrev := true } c 1 none).after (imageClk w rs len) (.tileLoadLand ⟨k.die, k.core⟩ n)) k.die (.tile k ⟨k.die,
      k.core⟩ n) g.team w.ctx rs
  have hafter := State.after_onlyPosts ((u.putTile k.die k.core n ((u.tile k.die k.core n).withImage sc (u.readRuns rs))).advance k
    { g with irrev := true } c 1 none) (imageClk w rs len) (.tileLoadLand ⟨k.die, k.core⟩ n)
  have hall := State.onlyPosts_trans hafter hsend
  obtain ⟨due, -, hdue⟩ := State.mem_after_agenda ((u.putTile k.die k.core n ((u.tile k.die k.core n).withImage sc (u.readRuns rs))).advance k
    { g with irrev := true } c 1 none) (imageClk w rs len) (.tileLoadLand ⟨k.die, k.core⟩ n)
  refine ⟨hall.1, ?_, fun m hm y => ?_, due, hsend.2.2 _ hdue⟩
  · exact (State.onlyPosts_tile hall _ _ _).trans ((State.advance_tile ..).trans (State.putTile_tile_self ..))
  · exact (State.onlyPosts_tile hall _ _ _).trans ((State.advance_tile ..).trans (State.putTile_tile _ _ _ _ _ _ _ hm))
end

/-- Settles O35: each instruction's outcome past its checks is a step of one slot of one core. -/
theorem tileSlotResults : Obligations.TileSlotResults := by
  intro f s k g c hi hg hn hf n x frame
  refine ⟨fun st hst h64 hu hfl hp => ?_, fun hs hu => ⟨fun y hy => ?_, fun hy => ?_, fun hy => ?_, fun h ho hr _ => (Tile.trel_of_full h ho hr).1,
    fun h ho hr => ⟨_, (Tile.trel_of_full h ho hr).2, rfl, rfl⟩⟩,
    fun rs u o len hu hs hp ha ho h64 hlen hseg hreach hr hsp htile hown hst hring hb hmem htiles => ?_⟩
  · have he := (exec_tclm f s).trans (State.tclmOp_of_acts hi hg hn hf hst h64 hu hfl hp)
    by_cases hx : x.state = .free
    · have hok : ((s.tile k.die k.core f.slot.toNat).state == SlotState.free) = true := by simpa using hx
      simp only [hok, if_true] at he
      obtain ⟨h, hgr, hregs, hseg, hpr, hv, hrest⟩ := State.tclm_group
        ((s.putTile k.die k.core n { Tile.reset with state := .empty, owner := g.team }).setFresh (s.fresh + 1))
        (s.putTile k.die k.core n { Tile.reset with state := .empty, owner := g.team }) k g c st 1#32
      refine ⟨_, h, he, hgr, ⟨rfl, fun m hm y => ?_⟩, hregs, hseg, hpr, fun _ => ⟨hv, ?_⟩, fun hne => absurd hx hne, hrest⟩
      · exact (State.advance_tile ..).trans (State.putTile_tile _ _ _ _ _ _ _ hm)
      · exact (State.advance_tile ..).trans (State.putTile_tile_self ..)
    · have hok : ((s.tile k.die k.core f.slot.toNat).state == SlotState.free) = false := by simpa using hx
      simp only [hok, Bool.false_eq_true, if_false] at he
      obtain ⟨h, hgr, hregs, hseg, hpr, hv, hrest⟩ := State.tclm_group (s.setFresh (s.fresh + 1)) s k g c st 0#32
      refine ⟨_, h, he, hgr, ⟨rfl, fun m _ y => ?_⟩, hregs, hseg, hpr, fun hfree => absurd hfree hx, fun _ => ⟨hv, ?_⟩, hrest⟩
      · exact State.advance_tile ..
      · exact State.advance_tile ..
  · rw [exec_trel, State.trelOp_of_acts hi hg hn hf hs hu, show (s.tile k.die k.core f.slot.toNat).trel g.team (f.fl == 1#1) = _ from hy]
  · rw [exec_trel, State.trelOp_of_acts hi hg hn hf hs hu, show (s.tile k.die k.core f.slot.toNat).trel g.team (f.fl == 1#1) = _ from hy]
  · rw [exec_trel, State.trelOp_of_acts hi hg hn hf hs hu, show (s.tile k.die k.core f.slot.toNat).trel g.team (f.fl == 1#1) = _ from hy]
    rfl
  · have he := (exec_tld f s).trans (State.tldOp_of_acts hi hg hn hf hu hs hp ha ho h64 hlen hseg hreach hr hsp htile hown hst hring hb)
    obtain ⟨hm, hself, hother, hdue⟩ := u.tldNext_spec k g c (s.whoOf k g) n len (f.fl == 1#1) rs
    refine ⟨_, he, ⟨hm.trans hmem, fun m hne y => (hother m hne y).trans (htiles y m)⟩, ?_, fun j hj => ?_, hdue⟩
    · rw [hself]
      rfl
    · rw [hself, Tile.withImage_get]
      intro hfl
      have : f.fl ≠ 1#1 := by simpa using hfl
      rw [if_neg this] at hlen
      rw [scaleBase]
      omega

end Sys2Proof.Machine
end

section
namespace Sys2Proof.Machine

/-! ## Queues (O41) -/

theorem exec_qpop (f : QFmt) (s : State) : exec (.qpop f) s = s.qpopOp f := rfl
theorem exec_qpush (f : QFmt) (s : State) : exec (.qpush f) s = s.qpushOp f := rfl
theorem exec_qcnt (f : QFmt) (s : State) : exec (.qcnt f) s = s.qcntOp f := rfl

@[simp] theorem State.updDie_die_self (s : State) (d : Nat) (f : Die → Die) : (s.updDie d f).die d = f (s.die d) :=
  Tbl.get_put_self _ _ _ _

theorem State.updDie_die_ne (s : State) {d e : Nat} (f : Die → Die) (h : e ≠ d) : (s.updDie d f).die e = s.die e :=
  Tbl.get_put_ne _ _ _ h

theorem State.leavePen_dies (s : State) (k : GKey) (g : Group) (r : RunState) : (s.leavePen k g r).dies = s.dies := by
  unfold State.leavePen
  dsimp only
  split <;> rfl

theorem State.leavePen_agenda (s : State) (k : GKey) (g : Group) (r : RunState) : (s.leavePen k g r).agenda = s.agenda := by
  unfold State.leavePen
  dsimp only
  split <;> rfl

@[simp] theorem State.desched_die (s : State) (k : GKey) (g : Group) (w : Wait) (d : Nat) : (s.desched k g w).die d = s.die d :=
  congrArg (fun t : Tbl Die => t.get Die.reset d) (State.leavePen_dies s k g _)

@[simp] theorem State.desched_agenda (s : State) (k : GKey) (g : Group) (w : Wait) : (s.desched k g w).agenda = s.agenda :=
  State.leavePen_agenda s k g _

@[simp] theorem State.putWq_wq_self (s : State) (d cq : Nat) (x : WorkQueue) : (s.putWq d cq x).wq d cq = x := by
  simp only [State.putWq, State.wq, State.updDie_die_self, Tbl.get_put_self]

/-- On an enabled and resident queue an instruction goes on with a new number. -/
theorem State.withQueue_of_there {s : State} {k : GKey} {cq : Nat} (g : Group) (go : Nat → State → State)
    (h : s.wqCap k.die cq ≠ 0 ∧ (s.wq k.die cq).resident = true) : s.withQueue k g cq go = go s.fresh s.newId.2 := by
  unfold State.withQueue
  rw [if_neg h.1]
  simp only [h.2, Bool.not_true, Bool.false_eq_true, if_false]
  rfl

/-- Every other queue stops the instruction (R60, R61): a disabled one raises, one being read back is waited for, and one that lies in its
backing starts to be read back. -/
theorem State.withQueue_stops (s : State) (k : GKey) (g : Group) (cq : Nat) (go : Nat → State → State) :
    (s.wqCap k.die cq = 0 → s.withQueue k g cq go = s.raise k g (trapOf .illOperand (auxSpec g 0#8)))
    ∧ (s.wqCap k.die cq ≠ 0 → (s.wq k.die cq).resident = false → (s.wq k.die cq).loading = true →
        s.withQueue k g cq go = s.desched k { g with half := .sent } (.queue cq))
    ∧ (s.wqCap k.die cq ≠ 0 → (s.wq k.die cq).resident = false → (s.wq k.die cq).loading = false →
        ∃ h, (s.withQueue k g cq go).group? k = some h ∧ h.run = .waiting (.queue cq) ∧ (s.withQueue k g cq go).mem = s.mem
          ∧ (s.withQueue k g cq go).wq k.die cq = { s.wq k.die cq with loading := true }
          ∧ (s.clk + 256 + wqBlocks (s.wq k.die cq).items.length, Event.queueSwapInDone k.die (cq / 8) (cq % 8))
              ∈ (s.withQueue k g cq go).agenda) := by
  unfold State.withQueue
  refine ⟨fun h => by rw [if_pos h], fun h hr hl => ?_, fun h hr hl => ?_⟩
  · rw [if_neg h]
    simp only [hr, hl, Bool.not_false, if_true]
  · rw [if_neg h]
    simp only [hr, hl, Bool.not_false, Bool.false_eq_true, if_true, if_false]
    refine ⟨_, State.desched_group? .., rfl, State.desched_mem .., ?_, ?_⟩
    · unfold State.wq
      rw [State.desched_die]
      exact State.putWq_wq_self s k.die cq _
    · rw [State.desched_agenda]
      exact mem_insertDue _ _ _

section
variable {s : State} {k : GKey} {g : Group} {c : Clause} {f : QFmt}

/-- The group of a pop: the registers and the predicate the pop is to write are pending. -/
def Group.popped (g : Group) (f : QFmt) (id : Nat) : Group :=
  let ps : List Pend := (((lanesOf g.exec).map fun l => (g.dstRegs f.d).getD l 0).dedup).map
    fun r => { id := id, on := .reg r, lanes := 0xffffffff#32 }
  { g with pend := ps ++ predPend id f.f.toNat ++ g.pend, irrev := true }

/-- QPOP, once past its checks, sends its pop. -/
def State.popGo (k : GKey) (g : Group) (c : Clause) (f : QFmt) (cq id : Nat) (s1 : State) : State :=
  (s1.advance k (g.popped f id) c (g.occupancy [useOf f.d false 1] 0) none).after 40
    (.queueActArrive k (.pop id cq (g.dstRegs f.d) f.f.toNat g.exec))

theorem State.qpopOp_of_acts (hi : s.issues k g c) (hz1 : f.z1 = 0#5) (hz2 : f.z2 = 0#5)
    (ht : ∀ r l p, g.pending { regs := r, scalars := l, preds := p } = false)
    (hd : isLaneReg f.d = true) (hc : g.check128 [useOf f.d false 1] = none) (hg : g.acts)
    (hsp : ∀ i ∈ (s.wq k.die (8 * s.ctxOf g.team + f.qn.toNat)).spoilt, (lanesOf g.exec).length ≤ i) :
    exec (.qpop f) s = .next (s.withQueue k g (8 * s.ctxOf g.team + f.qn.toNat) (State.popGo k g c f (8 * s.ctxOf g.team + f.qn.toNat))) := by
  have hnone : (s.wq k.die (8 * s.ctxOf g.team + f.qn.toNat)).spoilt.find? (fun i => i < (lanesOf g.exec).length) = none :=
    List.find?_eq_none.2 fun i hi => by simpa using hsp i hi
  rw [exec_qpop, State.qpopOp, State.withIssuer_of _ hi]
  simp only [ht, hz1, hz2, hd, hc, hg.1, hg.2, hnone, bne_self_eq_false, Bool.not_true, Bool.or_self, Bool.false_eq_true, if_false]
  rfl

theorem State.qpushOp_eq (hi : s.issues k g c) (hz1 : f.z1 = 0#5) (hz2 : f.z2 = 0#5)
    (ht : ∀ r l p, g.pending { regs := r, scalars := l, preds := p } = false)
    (hd : isSource f.d = true) (hc : g.check128 [Src.use { spec := f.d, pat := 0, par := 0, dead := false, kind := .int }] = none)
    (hg : g.acts) :
    exec (.qpush f) s = .next (if g.released = false then s.hold k g else
      s.withQueue k g (8 * s.ctxOf g.team + f.qn.toNat) fun id s1 =>
        (s1.advance k { g with pend := predPend id f.f.toNat ++ g.pend, irrev := true } c
          (g.occupancy [Src.use { spec := f.d, pat := 0, par := 0, dead := false, kind := .int }] 0) none).after 40
          (.queueActArrive k (.push id (8 * s.ctxOf g.team + f.qn.toNat) f.f.toNat g.exec
            (Lanes.ofFn fun l => s.deliver k g { spec := f.d, pat := 0, par := 0, dead := false, kind := .int } l)))) := by
  rw [exec_qpush, State.qpushOp, State.withIssuer_of _ hi]
  simp only [ht, hz1, hz2, hd, hc, hg.1, hg.2, bne_self_eq_false, Bool.not_true, Bool.or_self, Bool.false_eq_true, if_false,
    Bool.not_eq_true']

theorem State.qcntOp_eq {n : Nat} (hi : s.issues k g c) (hz1 : f.z1 = 0#5) (hz2 : f.z2 = 0#5)
    (ht : ∀ r l p, g.pending { regs := r, scalars := l, preds := p } = false) (hf : f.f = 0#3) (hd : f.d.toNat = 0x80 + n) (hn : n < 64) :
    exec (.qcnt f) s = .next (s.withQueue k g (8 * s.ctxOf g.team + f.qn.toNat) fun id s1 =>
      (s1.advance k (g.awaitScalar n id) c 1 none).after 40 (.queueActArrive k (.count id (8 * s.ctxOf g.team + f.qn.toNat) n))) := by
  have hsub : f.d.toNat - 0x80 = n := by omega
  rw [exec_qcnt, State.qcntOp, State.withIssuer_of _ hi]
  simp only [touchScalars, ht, hz1, hz2, hf, hsub, isScalar_of_toNat hd hn, bne_self_eq_false, Bool.not_true, Bool.or_self,
    Bool.false_eq_true, if_false]
end

theorem predPend_pending (id f : Nat) (hf : f ≠ 0) : ∃ p ∈ predPend id f, p.on = .pred f := by
  simp [predPend, hf]

/-- What QPOP leaves in its group: every register it is to write, and its predicate, pending. -/
theorem Group.popped_spec (g : Group) (f : QFmt) (id : Nat) :
    (∀ l ∈ lanesOf g.exec, (g.popped f id).pending { regs := [(g.dstRegs f.d).getD l 0], scalars := [], preds := [] } = true)
      ∧ (f.f ≠ 0#3 → (g.popped f id).pending { regs := [], scalars := [], preds := [f.f.toNat] } = true) := by
  refine ⟨fun l hl => ?_, fun hf => ?_⟩
  · refine List.any_eq_true.2 ⟨{ id := id, on := .reg ((g.dstRegs f.d).getD l 0), lanes := 0xffffffff#32 }, ?_, by simp⟩
    refine List.mem_append_left _ (List.mem_append_left _ (List.mem_map.2 ⟨_, ?_, rfl⟩))
    exact List.mem_dedup.2 (List.mem_map.2 ⟨l, hl, rfl⟩)
  · obtain ⟨p, hp, hon⟩ := predPend_pending id f.f.toNat (by simpa [BitVec.toNat_eq] using hf)
    exact List.any_eq_true.2 ⟨p, List.mem_append_left _ (List.mem_append_right _ hp), by simp [hon]⟩

/-- Settles O41: past its checks each instruction is its act on the queue, and the queue decides between going on and the three stops. -/
theorem queueInstructionResults : Obligations.QueueInstructionResults := by
  intro f s k g c hi hz1 hz2 ht cq q src there id s1 stops
  have hstops : ∀ i go, exec i s = .next (s.withQueue k g cq go) → stops i := fun i go he => by
    obtain ⟨h1, h2, h3⟩ := State.withQueue_stops s k g cq go
    refine ⟨fun h => by rw [he, h1 h], fun h hr hl => by rw [he, h2 h hr hl], fun h hr hl => ?_⟩
    obtain ⟨h', hg', hrest⟩ := h3 h hr hl
    exact ⟨_, h', he, hg', hrest⟩
  refine ⟨fun hd hc hg hsp => ?_, fun hd hc hg hrel => ?_, fun hd hc hg hrel => ?_, fun n hf hd hn => ?_⟩
  · have he := State.qpopOp_of_acts hi hz1 hz2 ht hd hc hg hsp
    refine ⟨fun hth => ?_, hstops _ _ he⟩
    rw [he, State.withQueue_of_there _ _ hth]
    exact ⟨g.popped f s.fresh, rfl, rfl, rfl, rfl, rfl, rfl, rfl, Group.popped_spec g f s.fresh⟩
  · have he := State.qpushOp_eq hi hz1 hz2 ht hd hc hg
    rw [if_neg (by simp [hrel])] at he
    exact ⟨fun hth => by rw [he, State.withQueue_of_there _ _ hth], hstops _ _ he⟩
  · rw [State.qpushOp_eq hi hz1 hz2 ht hd hc hg, if_pos hrel]
  · have he := State.qcntOp_eq hi hz1 hz2 ht hf hd hn
    exact ⟨fun hth => by rw [he, State.withQueue_of_there _ _ hth], hstops _ _ he⟩

/-! ## Events (O42) -/

theorem exec_evsig (f : BFmt) (s : State) : exec (.evsig f) s = s.evsigOp f := rfl
theorem exec_evwait (f : BFmt) (s : State) : exec (.evwait f) s = s.evwaitOp f := rfl
theorem exec_evtest (f : BFmt) (s : State) : exec (.evtest f) s = s.evtestOp f := rfl

/-- Settles O42: each clause is one branch of its instruction. -/
theorem eventInstructionResults : Obligations.EventInstructionResults := by
  intro f s k g c hi ht ctx name
  refine ⟨fun hs hsp hrel hp => ?_, fun hs hsp => ?_, fun n hs hn hp => ?_⟩
  · rw [exec_evsig, State.evsigOp, State.withIssuer_of _ hi]
    simp only [hs, hsp, hrel, bne_self_eq_false, Bool.not_true, Bool.false_eq_true, if_false]
    rw [show s.evProbe k (s.ctxOf g.team) f.n.toNat (.signal (some (k, g.team))) = none from hp]
  · have he : exec (.evwait f) s = .next (match g.half with
        | .done => s.advance k (g.acquire s.clk 5) c 1 none
        | .sent => s.hold k g
        | .fresh => (s.hold k { g with half := .sent, irrev := true }).eventAct k.die ctx name (.wait k g.team (g.uniform f.s))) := by
      rw [exec_evwait, State.evwaitOp, State.withIssuer_of _ hi]
      simp only [touchScalars, ht, hs, hsp, Bool.not_true, Bool.false_eq_true, if_false] <;> rfl
    rw [he]
    exact ⟨fun h => by rw [h], fun h => by rw [h], fun h => by rw [h]⟩
  · have hsub : f.s.toNat - 0x80 = n := by omega
    rw [exec_evtest, State.evtestOp, State.withIssuer_of _ hi]
    simp only [touchScalars, ht, hsub, isScalar_of_toNat hs hn, Bool.not_true, Bool.false_eq_true, if_false]
    rw [show s.evProbe k (s.ctxOf g.team) f.n.toNat (.test k s.fresh n) = none from hp]
    rfl

end Sys2Proof.Machine
end

section
namespace Sys2Proof.Machine

/-! ## Matrix operations (O37) -/

theorem exec_mma (f : XFmt) (x : XLong) (s : State) : exec (.mma f x) s = s.mmaOp false f x := rfl
theorem exec_mmas (f : XFmt) (x : XLong) (s : State) : exec (.mmas f x) s = s.mmaOp true f x := rfl
theorem exec_mpair (s : State) : exec .mpair s = s.mpairOp := rfl
theorem exec_munpair (s : State) : exec .munpair s = s.munpairOp := rfl

theorem isSource_of_scalar {b : BitVec 8} {n : Nat} (h : specKind b = .scalar n) : isSource b = true := by
  simp [isSource, h]

/-- A source that is a scalar brings it to every lane. -/
theorem State.deliver_scalar {s : State} {k : GKey} {g : Group} {x : Src} {n : Nat} (h : specKind x.spec = .scalar n) (l : Nat) :
    s.deliver k g x l = g.scalar n := by
  simp only [State.deliver, State.deliverAt, h]

/-- No register check stops an instruction whose operands are scalars. -/
theorem Group.check128_of_scalars (g : Group) {us : List RegUse} (h : ∀ u ∈ us, ∃ n, specKind u.spec = .scalar n) :
    g.check128 us = none := by
  have hnone : ∀ {β : Type} (f : RegUse → Option β), (∀ u n, specKind u.spec = .scalar n → f u = none) → us.findSome? f = none := by
    intro β f hf
    rw [List.findSome?_eq_none_iff]
    intro u hu
    obtain ⟨n, hn⟩ := h u hu
    exact hf u n hn
  have hlanes : ∀ {β : Type} (f : RegUse → Nat → Option β), (∀ u l n, specKind u.spec = .scalar n → f u l = none) →
      ((lanesOf g.exec).findSome? fun l => us.findSome? fun u => if u.usedBy l then (f u l).map fun r => (r, l) else none) = none := by
    intro β f hf
    rw [List.findSome?_eq_none_iff]
    intro l _
    refine hnone _ fun u n hn => ?_
    simp [hf u l n hn]
  unfold Group.check128
  dsimp only
  rw [hnone _ fun u n hn => by rw [hn]]
  dsimp only
  rw [hlanes _ fun u l n hn => by rw [hn]]
  dsimp only
  rw [hlanes _ fun u l n hn => by rw [hn]]
  dsimp only
  rw [hlanes _ fun u l n hn => ?_]
  simp only [Group.useReg, hn, Option.bind_none]
  split
  · rfl
  · cases u.lane l <;> simp

theorem isScalarOrImm_of_scalar {b : BitVec 8} {n : Nat} (h : specKind b = .scalar n) : isScalarOrImm b = true := by
  have hs : isScalar b = true := by
    simp only [specKind] at h
    simp only [isScalar, Bool.and_eq_true, decide_eq_true_eq]
    grind
  simp [isScalarOrImm, hs]

theorem State.countOf_scalar {s : State} {k : GKey} {g : Group} {b : BitVec 8} {n : Nat} (h : specKind b = .scalar n) :
    s.countOf k g b = (g.scalar n).toNat := by
  unfold State.countOf
  dsimp only
  cases hl : lowest g.exec with
  | some l => exact congrArg BitVec.toNat (State.deliver_scalar h l)
  | none =>
    simp only [isScalarOrImm_of_scalar h, if_true]
    exact congrArg BitVec.toNat (State.deliver_scalar h 0)

@[simp] theorem State.putArr_arr_self (s : State) (d c : Nat) (x : Arr) : (s.putArr d c x).arr d c = x := by
  simp [State.putArr, State.arr]

@[simp] theorem State.updArr_arr_self (s : State) (d c : Nat) (f : Arr → Arr) : (s.updArr d c f).arr d c = f (s.arr d c) := by
  simp [State.updArr]

@[simp] theorem State.putTile_arr (s : State) (d c n : Nat) (x : Tile) (d' c' : Nat) : (s.putTile d c n x).arr d' c' = s.arr d' c' :=
  State.updCore_field Core.arr s d c (f := fun y => { y with tiles := y.tiles.put n x }) (fun _ => rfl) d' c'

/-- Arming an array only posts its next start. -/
theorem State.armMatrix_eq (s : State) (d c : Nat) : ∃ a, s.armMatrix d c = s.setAgenda a := by
  unfold State.armMatrix
  split
  · exact ⟨s.agenda, rfl⟩
  · exact ⟨_, rfl⟩

@[simp] theorem State.armMatrix_arr (s : State) (d c d' c' : Nat) : (s.armMatrix d c).arr d' c' = s.arr d' c' := by
  obtain ⟨a, h⟩ := State.armMatrix_eq s d c
  rw [h]
  rfl

@[simp] theorem State.armMatrix_group? (s : State) (d c : Nat) (k : GKey) : (s.armMatrix d c).group? k = s.group? k := by
  obtain ⟨a, h⟩ := State.armMatrix_eq s d c
  rw [h]
  rfl

@[simp] theorem State.armMatrix_mem (s : State) (d c : Nat) : (s.armMatrix d c).mem = s.mem := by
  obtain ⟨a, h⟩ := State.armMatrix_eq s d c
  rw [h]
  rfl

theorem State.opCores_single (s : State) (d c : Nat) : s.opCores d c false = [c] := by
  unfold State.opCores
  split <;> rfl

/-- Marking the slots that an operation reads leaves arrays and memory. -/
theorem State.readers_arr (d d' c' : Nat) (l : List (Nat × Nat)) (s : State) :
    (l.foldl (fun t e => t.putTile d e.1 e.2 { t.tile d e.1 e.2 with readers := (t.tile d e.1 e.2).readers + 1 }) s).arr d' c' = s.arr d' c'
      ∧ (l.foldl (fun t e => t.putTile d e.1 e.2 { t.tile d e.1 e.2 with readers := (t.tile d e.1 e.2).readers + 1 }) s).mem = s.mem := by
  induction l generalizing s with
  | nil => exact ⟨rfl, rfl⟩
  | cons e l ih =>
    obtain ⟨ha, hm⟩ := ih (s.putTile d e.1 e.2 { s.tile d e.1 e.2 with readers := (s.tile d e.1 e.2).readers + 1 })
    exact ⟨ha.trans (State.putTile_arr ..), hm⟩

theorem State.owning_of_owns {s : State} {k : GKey} {g : Group} (go : State) (h : s.ownsArray k g) : s.owning k g go = go := by
  obtain ⟨ho, hz⟩ := h
  simp only [State.owning, ho, ne_eq, not_true_eq_false, if_false, Nat.not_lt.2 hz]

/-- An operation of one core joins the queue of its array, or waits for room. -/
theorem State.matLaunch_spec {s : State} {k : GKey} {g : Group} (c : Clause) {o : MatOp} (h : s.ownsArray k g) (hp : o.pair = false) :
    ((s.arr k.die k.core).queue.length < 4 → g.me < 255 → ∃ h, (s.matLaunch k g c o).group? k = some h
        ∧ h = Group.stepped { g with me := g.me + 1, irrev := true } c none ∧ (s.matLaunch k g c o).mem = s.mem
        ∧ (s.matLaunch k g c o).arr k.die k.core
            = { s.arr k.die k.core with queue := (s.arr k.die k.core).queue ++ [{ o with id := s.fresh }] })
    ∧ (4 ≤ (s.arr k.die k.core).queue.length → s.matLaunch k g c o = s.hold k g) := by
  unfold State.matLaunch
  have hc : s.opCores k.die k.core o.pair = [k.core] := by rw [hp, State.opCores_single]
  rw [State.owning_of_owns _ h, hc]
  simp only [List.any_cons, List.any_nil, Bool.or_false, Bool.or_eq_true, decide_eq_true_eq, List.foldl_cons, List.foldl_nil]
  refine ⟨fun hq hm => ?_, fun hq => by rw [if_pos (.inl hq)]⟩
  rw [if_neg (by omega)]
  obtain ⟨hra, hrm⟩ := State.readers_arr k.die k.die k.core o.reads
    (s.newId.2.updArr k.die k.core fun a => { a with queue := a.queue ++ [{ o with id := s.newId.1 }] })
  refine ⟨_, (State.armMatrix_group? ..).trans (State.advance_group? _ k _ c 1 none), rfl, (State.armMatrix_mem ..).trans hrm, ?_⟩
  exact (State.armMatrix_arr ..).trans (((State.advance_arr ..).trans hra).trans (State.updArr_arr_self ..))

/-- A tile that its team owns and that is FULL can be read. -/
theorem State.seenTile_readable {s : State} {d own core n team : Nat} (ho : (s.tile d core n).ownedBy team = true)
    (hf : (s.tile d core n).state = .full) : (s.seenTile d own core n team).unreadable team = false := by
  have ho' : (s.seenTile d own core n team).ownedBy team = true := ho
  have hs : (s.seenTile d own core n team).state = .full := hf
  simp [Tile.unreadable, ho', hs]

section
variable {s : State} {k : GKey} {g : Group} {c : Clause} {f : XFmt} {x : XLong} {m n kv : Nat}

/-- The operation that MMA and MMAS send to an array of one core. -/
def matOpOf (k : GKey) (g : Group) (scaled : Bool) (f : XFmt) (x : XLong) (m n kv : Nat) : MatOp :=
  { id := 0, g := k, team := g.team, scaled := scaled, pair := false, clr := x.clr = 1#1, rel := x.rel = 1#1, bar := none, hand := g.hand,
    m := m, n := n, k := kv, a := f.a.toNat, b0 := f.b0.toNat, b1 := f.b1.toNat,
    reads := if kv = 0 then [] else matReads k.core none f.a.toNat f.b0.toNat f.b1.toNat m n, start := none }

theorem State.mmaOp_of_ready {scaled : Bool} (hi : s.issues k g c) (hg : g.acts) (hh : handMatOk g.hand = true)
    (ht : ∀ r l p, g.pending { regs := r, scalars := l, preds := p } = false) (hr : x.rsvd = 0#2) (ha : f.a.toNat < 96) (hb0 : f.b0.toNat < 96)
    (hb1 : f.b1.toNat < 96) (hbar : x.bar = 0#4) (hpair : f.pair = 0#1) (hm : specKind x.m = .scalar m) (hn : specKind x.n = .scalar n)
    (hk : specKind x.k = .scalar kv) (hm256 : (g.scalar m).toNat ≤ 256) (hn512 : (g.scalar n).toNat ≤ 512)
    (hspan : (g.scalar kv).toNat ≤ kSpan (g.hand.toNat % 16)) (hf : s.follows k.die k.core g.team = false)
    (hread : ∀ e ∈ matReads k.core none f.a.toNat f.b0.toNat f.b1.toNat (g.scalar m).toNat (g.scalar n).toNat,
      (s.tile k.die e.1 e.2).ownedBy g.team = true ∧ (s.tile k.die e.1 e.2).state = .full) :
    s.mmaOp scaled f x = .next (s.matLaunch k g c
      (matOpOf k g scaled f x (g.scalar m).toNat (g.scalar n).toNat (g.scalar kv).toNat)) := by
  have hfield : (x.rsvd != 0#2 || decide (96 ≤ f.a.toNat) || decide (96 ≤ f.b0.toNat) || decide (96 ≤ f.b1.toNat)
      || (x.bar.toNat != 0 && decide (x.bar.toNat < 8))) = false := by
    simp [hr, hbar, ha, hb0, hb1]
  have hsrc : [x.m, x.n, x.k].find? (fun b => !isSource b) = none := by
    simp [isSource_of_scalar hm, isSource_of_scalar hn, isSource_of_scalar hk]
  have hcheck : g.check128 [Src.use { spec := x.m, pat := 0, par := 0, dead := false, kind := .int },
      Src.use { spec := x.n, pat := 0, par := 0, dead := false, kind := .int },
      Src.use { spec := x.k, pat := 0, par := 0, dead := false, kind := .int }] = none :=
    Group.check128_of_scalars g (by simp [Src.use, hm, hn, hk])
  have hcode : (bits g.hand 0 4).toNat = g.hand.toNat % 16 := by simp [bits]
  have hunread : (matReads k.core none f.a.toNat f.b0.toNat f.b1.toNat (g.scalar m).toNat (g.scalar n).toNat).find?
      (fun e => (s.seenTile k.die k.core e.1 e.2 g.team).unreadable g.team) = none :=
    List.find?_eq_none.2 fun e he => by simp [State.seenTile_readable (hread e he).1 (hread e he).2]
  have hfull : (matReads k.core none f.a.toNat f.b0.toNat f.b1.toNat (g.scalar m).toNat (g.scalar n).toNat).any
      (fun e => (s.tile k.die e.1 e.2).state != .full) = false :=
    List.any_eq_false.2 fun e he => by simp [(hread e he).2]
  have hp01 : ¬ f.pair = 1#1 := by simp [hpair]
  rw [State.mmaOp, State.withIssuer_of _ hi]
  simp only [ht, hfield, hsrc, hcheck, hh, hp01, hcode, State.countOf_scalar hm, State.countOf_scalar hn, State.countOf_scalar hk,
    Nat.not_lt.2 hm256, Nat.not_lt.2 hn512, Nat.not_lt.2 hspan, hf, hunread, hfull, decide_false, Bool.false_and, Bool.or_self, Bool.not_true,
    Bool.false_eq_true, if_false, Option.map_none, State.matGo_of_acts _ _ hg, matOpOf]
  rw [if_pos (by simp [hbar])]

theorem State.mpairOp_eq (hi : s.issues k g c) (hg : g.acts) (hp : g.pending (touchScalars []) = false) (hP : (g.fieldP c).toNat < 2) :
    s.mpairOp = .next (if g.half = .done then s.advance k { g with irrev := true } c 1 none
      else s.owning k g (match s.pairFor k.die k.core g.team (g.fieldP c == 1#24) with
        | none => s.raise k g (trapOf .pair 0#32)
        | some _ => (s.desched k { g with half := .sent } .pairBind).post (s.clk + 1) (.pairBind ⟨k.die, k.core⟩))) := by
  have hfield : ((g.fieldP c).extractLsb' 1 23 != 0#23) = false := by
    rw [show ((g.fieldP c).extractLsb' 1 23 != 0#23) = ((g.fieldP c).extractLsb' 1 23 != 0) from rfl, extractLsb'_bne_zero]
    simp only [decide_eq_false_iff_not]
    omega
  have hbit : (g.fieldP c).getLsbD 0 = (g.fieldP c == 1#24) := by
    rw [BitVec.getLsbD, Nat.testBit_zero, Bool.eq_iff_iff, decide_eq_true_eq, beq_iff_eq, BitVec.toNat_eq]
    simp only [BitVec.toNat_ofNat]
    omega
  rw [State.mpairOp, State.withIssuer_of _ hi]
  dsimp only
  rw [hfield, hbit, State.matIssue_of_acts _ _ hp hg] <;> rfl

theorem State.munpairOp_eq (hi : s.issues k g c) (hg : g.acts) (hp : g.pending (touchScalars []) = false) (hP : g.fieldP c = 0#24) :
    s.munpairOp = .next (if g.half = .done then s.advance k { g with irrev := true } c 1 none
      else if (s.follower k.die k.core g.team).isNone then s.raise k g (trapOf .pair 0#32)
      else (s.desched k { g with half := .sent } .pairEnd).post (s.clk + 1) (.pairEnd ⟨k.die, k.core⟩)) := by
  rw [State.munpairOp, State.withIssuer_of _ hi]
  simp only [hP, bne_self_eq_false, State.matIssue, hp, Bool.false_eq_true, if_false]
  by_cases hd : g.half = .done
  · simp only [hd, ne_eq, not_true_eq_false, decide_false, Bool.false_and, Bool.false_eq_true, if_false, if_true, State.matGo_of_acts _ _ hg]
  · cases hf : (s.follower k.die k.core g.team).isNone
    · simp only [hd, ne_eq, not_false_eq_true, decide_true, Bool.true_and, hf, Bool.false_eq_true, if_false, State.matGo_of_acts _ _ hg]
    · simp only [hd, ne_eq, not_false_eq_true, decide_true, Bool.true_and, hf, if_true, if_false, State.matGo]
end

/-- Settles O37: past its checks an operation joins its array's queue, and the pair instructions have two outcomes and one trap. -/
theorem matrixOperationsIssue : Obligations.MatrixOperationsIssue := by
  refine ⟨fun f x s k g c m n kv hi hg ho hh ht hr ha hb0 hb1 hbar hpair hm hn hk hm256 hn512 hspan hf hread i scaled hforms => ?_,
    fun s k g c hi hg hp => ?_⟩
  · have he : exec i s = .next (s.matLaunch k g c
        (matOpOf k g scaled f x (g.scalar m).toNat (g.scalar n).toNat (g.scalar kv).toNat)) := by
      rcases hforms with ⟨rfl, rfl⟩ | ⟨rfl, rfl⟩
      · rw [exec_mma, State.mmaOp_of_ready hi hg hh ht hr ha hb0 hb1 hbar hpair hm hn hk hm256 hn512 hspan hf hread]
      · rw [exec_mmas, State.mmaOp_of_ready hi hg hh ht hr ha hb0 hb1 hbar hpair hm hn hk hm256 hn512 hspan hf hread]
    obtain ⟨hgo, hfull⟩ := State.matLaunch_spec (s := s) (k := k) (g := g) c
      (o := matOpOf k g scaled f x (g.scalar m).toNat (g.scalar n).toNat (g.scalar kv).toNat) ho rfl
    rw [he]
    refine ⟨fun hq hme => ?_, fun hq => by rw [hfull hq]⟩
    obtain ⟨h, hgr, hst, hmem, harr⟩ := hgo hq hme
    refine ⟨_, h, { matOpOf k g scaled f x (g.scalar m).toNat (g.scalar n).toNat (g.scalar kv).toNat with id := s.fresh }, rfl, hgr, ?_, hmem,
      by rw [harr], by rw [harr], rfl, rfl, rfl, rfl, rfl, rfl, rfl, rfl, rfl, rfl,
      decide_eq_true_iff, rfl, decide_eq_true_iff, ?_⟩
    · rw [hst, Group.stepped_eq]
    · rw [hst, Group.stepped_eq]
      exact ⟨rfl, rfl, rfl, rfl⟩
  · rw [exec_mpair, exec_munpair]
    refine ⟨fun hd hP => ?_, fun hd hP => ?_, fun fl hd hP ho hpf => ?_, fun hd hP hf => ?_, fun fl hd hP hf => ?_⟩
    · rw [State.mpairOp_eq hi hg hp hP, if_pos hd]
    · rw [State.munpairOp_eq hi hg hp hP, if_pos hd]
    · rw [State.mpairOp_eq hi hg hp hP, if_neg (by simp [hd]), State.owning_of_owns _ ho, hpf]
    · rw [State.munpairOp_eq hi hg hp hP, if_neg (by simp [hd]), if_pos (by simp [hf])]
    · rw [State.munpairOp_eq hi hg hp hP, if_neg (by simp [hd]), if_neg (by simp [hf])]

end Sys2Proof.Machine
end

section
namespace Sys2Proof.Machine

/-! ## Accumulators (O38) -/

theorem exec_awin (f : TFmt) (s : State) : exec (.awin f) s = s.awinOp f := rfl
theorem exec_aclr (f : TFmt) (s : State) : exec (.aclr f) s = s.aclrOp f := rfl
theorem exec_adrn (f : XDFmt) (x : XDLong) (s : State) : exec (.adrn f x) s = s.adrnOp f x := rfl

theorem badIf_not_of {b : Bool} (h : b = true) (x : BitVec 8) : badIf (!b) x = none := by simp [badIf, h]

/-! ### AWIN and ACLR -/

section
variable {s : State} {k : GKey} {g : Group} {c : Clause} {f : TFmt}

theorem State.awinOp_of_ready {tm : Team} {slot : Nat} (hi : s.issues k g c) (hg : g.acts)
    (ht : ∀ r l p, g.pending { regs := r, scalars := l, preds := p } = false) (ho : s.ownsArray k g) (hn : g.num = 0) (hfl : f.fl = 0#1)
    (hslot : f.slot.toNat < 32) (hs : isScalarOrImm f.s = true) (hu : isScalarOrImm f.u = true) (htm : s.team? g.team = some tm)
    (hc : f.slot.toNat < tm.count) (hle : (g.uniform f.s).toNat ≤ (g.uniform f.u).toNat) (h256 : (g.uniform f.u).toNat ≤ 256)
    (hfind : (tm.groups.find? fun e => e.1 = f.slot.toNat) = some (f.slot.toNat, slot)) :
    s.awinOp f = .next ((s.advance k { g with irrev := true } c 1 none).updGroup ⟨k.die, k.core, slot⟩ fun h =>
      { h with awb := (g.uniform f.s).toNat, awl := (g.uniform f.u).toNat }) := by
  have hlow : (f.slot.extractLsb' 0 5).toNat = f.slot.toNat := by
    rw [toNat_extractLsb'_eq_div_mod]
    omega
  have hfield : (f.fl != 0#1 || f.slot.extractLsb' 5 2 != 0#2) = false := by
    rw [show (f.slot.extractLsb' 5 2 != 0#2) = (f.slot.extractLsb' 5 2 != 0) from rfl, extractLsb'_bne_zero]
    simp only [hfl, bne_self_eq_false, Bool.false_or, decide_eq_false_iff_not]
    omega
  have hbad : ¬ (tm.count ≤ f.slot.toNat ∨ (g.uniform f.u).toNat < (g.uniform f.s).toNat ∨ 256 < (g.uniform f.u).toNat) := by omega
  rw [State.awinOp, State.withIssuer_of _ hi]
  simp only [hlow, hfield, htm, Option.all_some, hbad, decide_false, Bool.false_eq_true, if_false, badIf_not_of hs, badIf_not_of hu,
    Option.orElse_none, hn, ne_eq, not_true_eq_false, State.matIssue_of_acts _ _ (ht _ _ _) hg, State.owning_of_owns _ ho, Option.bind_some, hfind]

/-- The command that ACLR leaves with the array's drains. -/
def State.clearCmd (s : State) (k : GKey) (g : Group) (first count : Nat) : Drain :=
  { id := s.fresh, g := k, team := g.team, ctx := s.ctxOf g.team, clear := true, add := false, hand := g.hand, row := first, rows := count,
    col := 0, cols := 512, ofs := 0, pitch := 0, seg := SegReg.null, values := [], readEnd := 0, leave := 0, faulted := false, told := [],
    frozen := false, sent := false, away := false }

/-- The state once ACLR has cleared its rows. -/
def State.rowsCleared (s : State) (k : GKey) (g : Group) (c : Clause) (first count : Nat) : State :=
  ((((s.newId.2.updArr k.die k.core fun a => a.clearRows first count).addDrain k (s.clearCmd k g first count)).advance k
    { g with me := g.me + 1, half := .sent, irrev := true } c 1 none).post (s.clk + 4 + (count + 7) / 8) (.drainComplete ⟨k.die, k.core⟩ s.fresh))

theorem State.meStart_of_free {row rows : Nat} (go : Group → State) (hh : g.half = .fresh) (hm : g.me < 255)
    (hb : 0 < rows → (s.arr k.die k.core).busyRow k.core row = false) :
    s.meStart k g row rows go = go { g with me := g.me + 1, half := .sent, irrev := true } := by
  unfold State.meStart
  rw [if_neg (by omega), if_pos hh, if_neg]
  rintro ⟨h0, hbusy⟩
  simp [hb h0] at hbusy

theorem State.aclrOp_of_ready (hi : s.issues k g c) (hg : g.acts)
    (ht : ∀ r l p, g.pending { regs := r, scalars := l, preds := p } = false) (hfl : f.fl = 0#1) (hslot : f.slot = 0#7)
    (hs : isScalarOrImm f.s = true) (hu : isScalarOrImm f.u = true) (hh : g.half = .fresh) (hm : g.me < 255) :
    (∀ r, g.outside (g.uniform f.s).toNat (g.uniform f.u).toNat = some r → s.aclrOp f = .next (s.raise k g (windowTrap r)))
    ∧ (g.outside (g.uniform f.s).toNat (g.uniform f.u).toNat = none →
        (0 < (g.uniform f.u).toNat → (s.arr k.die k.core).busyRow k.core (g.uniform f.s).toNat = false) →
        s.aclrOp f = .next (s.rowsCleared k g c (g.uniform f.s).toNat (g.uniform f.u).toNat)) := by
  rw [State.aclrOp, State.withIssuer_of _ hi]
  have hfield : (f.fl != 0#1 || f.slot != 0#7) = false := by simp [hfl, hslot]
  simp only [hfield, badIf_not_of hs, badIf_not_of hu, Option.orElse_none, hh, ne_eq, not_true_eq_false, if_false]
  refine ⟨fun r hr => ?_, fun hr hb => ?_⟩
  · simp only [hr, Option.map_some, State.matIssue, ht, touchScalars, Bool.false_eq_true, if_false, State.matGo]
  · simp only [hr, Option.map_none, State.matIssue_of_acts _ _ (ht _ _ _) hg]
    rw [State.meStart_of_free _ hh hm hb]
    rfl
end

theorem Arr.clearRows_elem (a : Arr) (first count i : Nat) {j : Nat} (hj : j < 512) :
    (a.clearRows first count).elem i j = if first ≤ i ∧ i < first + count then 0#32 else a.elem i j := by
  have hrow : accIndex i j / 512 = i := by
    unfold accIndex
    omega
  unfold Arr.elem Arr.clearRows Tbl.get
  rw [Tbl.find_filter_key a.acc (fun n => !(decide (first ≤ n / 512) && decide (n / 512 < first + count))), hrow]
  by_cases h : first ≤ i ∧ i < first + count
  · simp [h]
  · rw [if_neg h, if_pos (by simp [← Bool.decide_and, h])]

theorem State.rowsCleared_spec (s : State) (k : GKey) (g : Group) (c : Clause) (first count : Nat) :
    ∃ h, (s.rowsCleared k g c first count).group? k = some h ∧ h.me = g.me + 1 ∧ (s.rowsCleared k g c first count).mem = s.mem
      ∧ ∀ i j, j < 512 → ((s.rowsCleared k g c first count).arr k.die k.core).elem i j
          = if first ≤ i ∧ i < first + count then 0#32 else (s.arr k.die k.core).elem i j := by
  refine ⟨_, State.advance_group? _ k _ c 1 none, by rw [Group.stepped_eq], rfl, fun i j hj => ?_⟩
  have harr : ((s.rowsCleared k g c first count).arr k.die k.core).acc = ((s.arr k.die k.core).clearRows first count).acc := by
    have h1 : (s.rowsCleared k g c first count).arr k.die k.core
        = ((s.newId.2.updArr k.die k.core fun a => a.clearRows first count).addDrain k (s.clearCmd k g first count)).arr k.die k.core :=
      State.advance_arr ..
    rw [h1, State.addDrain, State.updArr_arr_self, State.updArr_arr_self]
    rfl
  rw [← Arr.clearRows_elem _ first count i hj]
  unfold Arr.elem
  rw [harr]

/-! ### ALD and AST -/

/-- The row and the column that a lane names. -/
def State.accRow (s : State) (k : GKey) (g : Group) (v : VArgs) (sh : VShape) (l : Nat) : Nat := (s.deliver k g (v.srcA sh) l).toNat
def State.accCol (s : State) (k : GKey) (g : Group) (v : VArgs) (sh : VShape) (l : Nat) : Nat := (s.deliver k g (v.srcB sh) l).toNat

/-- The group while its lanes act, `now` among those that have. -/
def Group.acting (g : Group) (now : List Nat) : Group :=
  { g with half := .sent, acted := now.foldl (fun m l => m ||| 1#32 <<< l) g.acted }

/-- Whether every lane has acted, once `now` have. -/
def Group.allActed (g : Group) (now : List Nat) : Bool := (lanesOf g.exec).all fun l => g.acted.getLsbD l || now.contains l

section
variable {s : State} {k : GKey} {g : Group} {c : Clause} {v : VArgs} {op : Nat} {sh : VShape}

theorem State.accOp_of_ready (go : GKey → Group → Clause → VShape → (Nat → Nat) → (Nat → Nat) → List Nat → Bool → State) (hi : s.issues k g c)
    (hg : g.acts) (ht : ∀ r l p, g.pending { regs := r, scalars := l, preds := p } = false) (hsh : vShape op = some sh)
    (hv : g.vTrap v op sh = none) :
    (∀ x, g.half = .fresh → g.accTrap v.b (s.accRow k g v sh) (s.accCol k g v sh) = some x → s.accOp op v go = .next (s.raise k g x))
    ∧ ((g.half = .fresh → g.accTrap v.b (s.accRow k g v sh) (s.accCol k g v sh) = none) →
        s.accOp op v go = .next (go k (g.acting (s.accLanes k g (s.accRow k g v sh))) c sh (s.accRow k g v sh) (s.accCol k g v sh)
          (s.accLanes k g (s.accRow k g v sh)) (g.allActed (s.accLanes k g (s.accRow k g v sh))))) := by
  have hp : g.pending (g.vTouch v sh) = false := ht _ _ _
  have he : s.accOp op v go = .next (s.matGo k g c
      (if g.half = .fresh then g.accTrap v.b (s.accRow k g v sh) (s.accCol k g v sh) else none) none
      (go k (g.acting (s.accLanes k g (s.accRow k g v sh))) c sh (s.accRow k g v sh) (s.accCol k g v sh)
          (s.accLanes k g (s.accRow k g v sh)) (g.allActed (s.accLanes k g (s.accRow k g v sh))))) := by
    rw [State.accOp, State.withIssuer_of _ hi]
    simp only [hsh, hp, hv, Bool.false_eq_true, if_false]
    rfl
  rw [he]
  refine ⟨fun x hh hx => ?_, fun hn => ?_⟩
  · rw [if_pos hh, hx]
    rfl
  · have : (if g.half = .fresh then g.accTrap v.b (s.accRow k g v sh) (s.accCol k g v sh) else none) = none := by
      split
      · exact hn ‹_›
      · rfl
    rw [this, State.matGo_of_acts _ _ hg]

theorem mem_accLanes {rows : Nat → Nat} {l : Nat} (h : l ∈ s.accLanes k g rows) :
    l < 32 ∧ g.exec.getLsbD l = true ∧ (s.arr k.die k.core).busyRow k.core (rows l) = false := by
  have hf := (List.takeWhile_sublist _).subset h
  obtain ⟨hex, -⟩ := List.mem_filter.1 hf
  obtain ⟨h32, hx⟩ := (mem_lanesOf _).1 hex
  exact ⟨h32, hx, by simpa using List.mem_takeWhile_imp h⟩

theorem getLsbD_acted (m : Word) (now : List Nat) {j : Nat} (hj : j < 32) :
    (now.foldl (fun m l => m ||| 1#32 <<< l) m).getLsbD j = (m.getLsbD j || now.contains j) := by
  induction now generalizing m with
  | nil => simp
  | cons l r ih =>
    rw [List.foldl_cons, ih, BitVec.getLsbD_or, getLsbD_one_shiftLeft hj, List.contains_cons, Bool.or_assoc]
    congr 2

end

/-- What the lanes of ALD and AST that act leave of a group: its registers, what it awaits and its mark of no return may change. -/
def Group.accKeeps (g h : Group) : Prop := ∃ r w d p i, h = { g with regs := r, well := w, dead := d, pend := p, irrev := i }

theorem Group.accKeeps_refl (g : Group) : g.accKeeps g := ⟨_, _, _, _, _, rfl⟩

theorem Group.accKeeps_trans {g h i : Group} (a : g.accKeeps h) (b : h.accKeeps i) : g.accKeeps i := by
  obtain ⟨r, w, d, p, m, rfl⟩ := a
  obtain ⟨r', w', d', p', m', rfl⟩ := b
  exact ⟨r', w', d', p', m', rfl⟩

theorem Group.accKeeps_of_moved {g h : Group} (a : g.regsMoved h) : g.accKeeps h := by
  obtain ⟨⟨r, w, d, rfl⟩, -⟩ := a
  exact ⟨r, w, d, _, _, rfl⟩

theorem Group.accKeeps_landWords (g : Group) (ws : List (Nat × Nat × Word)) : g.accKeeps (g.landWords ws) := by
  obtain ⟨r, w, d, h⟩ := g.landWords_eq ws
  rw [h]
  exact ⟨r, w, d, _, _, rfl⟩

/-- The words that ALD lands. -/
def accWords (a : Arr) (regs : List Nat) (rows cols : Nat → Nat) (now : List Nat) : List (Nat × Nat × Word) :=
  now.map fun l => (regs.getD l 0, l, a.elem (rows l) (cols l))

theorem leNat_leBytes_four (n : Nat) (h : n < 2 ^ 32) : leNat (leBytes 4 n) = n := by
  simp only [leBytes, leNat, BitVec.toNat_ofNat]
  omega

theorem Group.landReg_word (g : Group) (r l : Nat) (w : Word) : g.landReg r l (leBytes 4 w.toNat) = g.landWord r l w := by
  have hw : wordAt (leBytes 4 w.toNat) 0 = w := by
    rw [wordAt, Nat.mul_zero, List.drop_zero, take_leBytes_self, leNat_leBytes_four _ w.isLt, BitVec.ofNat_toNat, BitVec.setWidth_eq]
  rw [Group.landReg_eq, length_leBytes]
  simp [Group.landWords, hw]

theorem Group.landAcc_eq (g : Group) (a : Arr) (regs : List Nat) (rows cols : Nat → Nat) (now : List Nat) :
    now.foldl (fun (u : Group) l => u.landReg (regs.getD l 0) l (leBytes 4 (a.elem (rows l) (cols l)).toNat)) g
      = g.landWords (accWords a regs rows cols now) := by
  rw [accWords, Group.landWords, List.foldl_map]
  simp only [Group.landReg_word]

/-- Each lane of ALD finds its element in its register. -/
theorem Group.regLane_landAcc {g : Group} (hw : g.wellOk) (a : Arr) (regs : List Nat) (rows cols : Nat → Nat) {now : List Nat}
    (h32 : ∀ l ∈ now, l < 32) (hn : now.Nodup) {l : Nat} (hl : l ∈ now) :
    (g.landWords (accWords a regs rows cols now)).regLane (regs.getD l 0) l = a.elem (rows l) (cols l) := by
  have hmem : (regs.getD l 0, l, a.elem (rows l) (cols l)) ∈ accWords a regs rows cols now := List.mem_map.2 ⟨l, hl, rfl⟩
  refine (Group.landedIn_landWords hw (fun w hw => ?_) ?_ hmem).1
  · obtain ⟨j, hj, rfl⟩ := List.mem_map.1 hw
    exact h32 j hj
  · rw [accWords, List.pairwise_map]
    exact hn.imp fun hne h => hne h.2

theorem Group.applyDead_moves (g : Group) (v : VArgs) : g.regsMoved (g.applyDead v) := by
  have mark (h : Group) (d : Bool) (b : BitVec 8) : h.regsMoved (match specKind b with
      | .reg n => if d then h.markDead n else h
      | _ => h) := by
    split
    next n _ =>
      split
      · exact h.markDead_moves n
      · exact h.regsMoved_refl
    · exact h.regsMoved_refl
  unfold Group.applyDead
  dsimp only
  split
  · exact g.regsMoved_refl
  · exact Group.regsMoved_trans (Group.regsMoved_trans (mark g _ _) (mark _ _ _)) (mark _ _ _)

section
variable {s : State} {k : GKey} {g : Group} {c : Clause} {v : VArgs} {sh : VShape}

theorem accLanes_nodup (rows : Nat → Nat) : (s.accLanes k g rows).Nodup :=
  (((List.nodup_range (n := 32)).filter _).filter _).sublist (List.takeWhile_sublist _)

/-- The registers ALD writes, pending as their instruction issues. -/
def State.aldPend (s : State) (g : Group) (v : VArgs) : List Pend :=
  (((lanesOf g.exec).map fun l => (g.dstRegs v.d).getD l 0).dedup).map fun r => { id := s.fresh, on := .reg r, lanes := 0xffffffff#32 }

/-- The words that ALD's lanes land. -/
def State.aldWords (s : State) (k : GKey) (g : Group) (v : VArgs) (rows cols : Nat → Nat) (now : List Nat) : List (Nat × Nat × Word) :=
  accWords (s.arr k.die k.core) (g.dstRegs v.d) rows cols now

/-- The group after the last lanes of ALD. -/
def State.aldLast (s : State) (k : GKey) (g : Group) (v : VArgs) (rows cols : Nat → Nat) (now : List Nat) (due : Nat) : Group :=
  let h := ((g.applyDead v).evictAll (s.aldPend g v)).1.landWords (s.aldWords k g v rows cols now)
  { h with pend := (s.aldPend g v).map (fun p => { p with due := due }) ++ h.pend }

/-- The group while some lanes of ALD still wait. -/
def State.aldSome (s : State) (k : GKey) (g : Group) (v : VArgs) (rows cols : Nat → Nat) (now : List Nat) : Group :=
  if now.isEmpty then g else (g.evictAll (s.aldPend g v)).1.landWords (s.aldWords k g v rows cols now)

theorem State.aldOp_eq (s : State) (v : VArgs) : s.aldOp v = s.accOp 0xb8 v fun k g c sh rows cols now all =>
    let occ := g.occupancy (v.uses sh) 0
    let t := ((g.applyDead v).evictAll (s.aldPend g v)).2
    if all then s.newId.2.advance k (s.aldLast k g v rows cols now (s.clk + occ + t + 16)) c (occ + t) none
    else s.hold k (s.aldSome k g v rows cols now) := by
  unfold State.aldOp State.aldLast State.aldSome State.aldWords
  simp only [Group.landAcc_eq]
  rfl

theorem State.aldLast_keeps (g : Group) (rows cols : Nat → Nat) (now : List Nat) (due : Nat) : g.accKeeps (s.aldLast k g v rows cols now due) :=
  Group.accKeeps_trans (Group.accKeeps_trans (Group.accKeeps_of_moved (Group.regsMoved_trans (g.applyDead_moves v) (Group.evictAll_moves _ _)))
    (Group.accKeeps_landWords _ _)) ⟨_, _, _, _, _, rfl⟩

theorem State.aldSome_keeps (g : Group) (rows cols : Nat → Nat) (now : List Nat) : g.accKeeps (s.aldSome k g v rows cols now) := by
  unfold State.aldSome
  split
  · exact g.accKeeps_refl
  · exact Group.accKeeps_trans (Group.accKeeps_of_moved (Group.evictAll_moves _ _)) (Group.accKeeps_landWords _ _)

/-- Each lane of ALD that acts finds its element in its register. -/
theorem State.regLane_ald {rows cols : Nat → Nat} {now : List Nat} (hw : g.wellOk) (h32 : ∀ l ∈ now, l < 32) (hn : now.Nodup) {l : Nat}
    (hl : l ∈ now) (due : Nat) {h : Group} (hh : h = s.aldLast k g v rows cols now due ∨ h = s.aldSome k g v rows cols now) :
    h.regLane ((g.dstRegs v.d).getD l 0) l = (s.arr k.die k.core).elem (rows l) (cols l) := by
  rcases hh with rfl | rfl
  · have hw1 := ((Group.regsMoved_trans (g.applyDead_moves v) (Group.evictAll_moves _ (s.aldPend g v))).2 hw).1
    exact Group.regLane_landAcc hw1 _ _ rows cols h32 hn hl
  · rw [State.aldSome, if_neg (by simp [List.ne_nil_of_mem hl])]
    exact Group.regLane_landAcc ((g.evictAll_moves (s.aldPend g v)).2 hw).1 _ _ rows cols h32 hn hl

/-- The state once AST's lanes have stored. -/
def State.astStored (s : State) (k : GKey) (g : Group) (v : VArgs) (rows cols : Nat → Nat) (now : List Nat) : State :=
  s.updArr k.die k.core fun a => now.foldl (fun x l => x.putElem (rows l) (cols l) (s.deliver k g v.srcD l)) a

theorem State.astOp_eq (s : State) (v : VArgs) : s.astOp v = s.accOp 0xb9 v fun k g c sh rows cols now all =>
    if all then (s.astStored k g v rows cols now).advance k { g.applyDead v with irrev := true } c (g.occupancy (v.uses sh) 0) none
    else (s.astStored k g v rows cols now).hold k { g with irrev := g.irrev || !now.isEmpty } := rfl

@[simp] theorem State.putPen_arr (s : State) (p : PenKey) (x : Pen) (d m : Nat) : (s.putPen p x).arr d m = s.arr d m :=
  State.updCore_field Core.arr s p.die p.core (f := fun y => { y with pens := y.pens.put p.pen x }) (fun _ => rfl) d m

@[simp] theorem State.hold_arr (s : State) (k : GKey) (g : Group) (d m : Nat) : (s.hold k g).arr d m = s.arr d m :=
  State.putPen_arr ..

/-- How ALD and AST end: with every lane done the group goes on, and otherwise it holds. -/
def State.accEnds (t u : State) (k : GKey) (G H : Group) (c : Clause) (n : Nat) (all : Bool) : State :=
  if all then t.advance k G c n none else u.hold k H

theorem State.accEnds_mem {t u : State} (h : u.mem = t.mem) (k : GKey) (G H : Group) (c : Clause) (n : Nat) (all : Bool) :
    (t.accEnds u k G H c n all).mem = t.mem := by
  cases all
  · exact h
  · rfl

theorem State.accEnds_arr {t u : State} (k : GKey) (h : u.arr k.die k.core = t.arr k.die k.core) (G H : Group) (c : Clause) (n : Nat) (all : Bool) :
    (t.accEnds u k G H c n all).arr k.die k.core = t.arr k.die k.core := by
  cases all
  · exact (State.hold_arr ..).trans h
  · exact State.advance_arr ..

theorem State.accLanes_eq (rows : Nat → Nat)
    (h : ∀ l ∈ (lanesOf g.exec).filter (fun l => !g.acted.getLsbD l), (s.arr k.die k.core).busyRow k.core (rows l) = false) :
    s.accLanes k g rows = (lanesOf g.exec).filter fun l => !g.acted.getLsbD l :=
  List.takeWhile_eq_self_iff.2 fun l hl => by simp [h l hl]

theorem State.allActed_iff (rows : Nat → Nat) : g.allActed (s.accLanes k g rows) = true
    ↔ ∀ l ∈ (lanesOf g.exec).filter (fun l => !g.acted.getLsbD l), (s.arr k.die k.core).busyRow k.core (rows l) = false := by
  simp only [Group.allActed, List.all_eq_true, Bool.or_eq_true, List.contains_iff_mem]
  constructor
  · intro h l hl
    obtain ⟨hex, hna⟩ := List.mem_filter.1 hl
    rcases h l hex with ha | hin
    · simp [ha] at hna
    · exact (mem_accLanes hin).2.2
  · intro h l hl
    rw [State.accLanes_eq rows h, List.mem_filter]
    cases g.acted.getLsbD l
    · exact .inr ⟨hl, rfl⟩
    · exact .inl rfl

/-- What both ends of ALD and AST say of the group. -/
theorem State.accEnds_group (t u : State) {G H : Group} {now : List Nat} (hG : (g.acting now).accKeeps G)
    (hH : (g.acting now).accKeeps H) (n : Nat) (all : Bool) :
    ∃ h, (t.accEnds u k G H c n all).group? k = some h ∧ h.sc = g.sc ∧ h.pr = g.pr ∧ h.seg = g.seg ∧ h.exec = g.exec
      ∧ (∀ m l, h.regLane m l = G.regLane m l ∨ h.regLane m l = H.regLane m l)
      ∧ (all = true → (headerCnt c.hdr ≤ g.pos + 1 → h.clause = none ∧ h.pc = c.next)
          ∧ (g.pos + 1 < headerCnt c.hdr → h.clause = g.clause ∧ h.pos = g.pos + 1))
      ∧ (all = false → h.clause = g.clause ∧ h.pos = g.pos ∧ ∀ m < 32, h.acted.getLsbD m = (g.acted.getLsbD m || now.contains m)) := by
  obtain ⟨r, w, d, p, i, rfl⟩ := hG
  obtain ⟨r', w', d', p', i', rfl⟩ := hH
  cases all with
  | false => exact ⟨_, State.hold_group? .., rfl, rfl, rfl, rfl, fun _ _ => .inr rfl, fun h => (Bool.noConfusion h), fun _ =>
      ⟨rfl, rfl, fun m hm => getLsbD_acted g.acted now hm⟩⟩
  | true =>
    refine ⟨_, State.advance_group? t k _ c n none, ?_, ?_, ?_, ?_, fun m l => .inl (Group.stepped_regLane ..), fun _ => ⟨fun h => ?_, fun h => ?_⟩,
      fun h => (Bool.noConfusion h)⟩
    · rw [Group.stepped_eq]; rfl
    · rw [Group.stepped_eq]; rfl
    · rw [Group.stepped_eq]; rfl
    · rw [Group.stepped_exec]; rfl
    · rw [Group.stepped, if_pos (show headerCnt c.hdr ≤ (g.acting now).pos + 1 from h)]
      exact ⟨rfl, rfl⟩
    · rw [Group.stepped, if_neg (show ¬ headerCnt c.hdr ≤ (g.acting now).pos + 1 from Nat.not_le.2 h)]
      exact ⟨rfl, rfl⟩
end

/-- The forms of ALD and AST. -/
def accForm (i : Instr) (op : Nat) (v : VArgs) : Prop :=
  (∃ f, (i = .ald f ∧ op = 0xb8 ∨ i = .ast f ∧ op = 0xb9) ∧ v = vShort f)
    ∨ (∃ f x, (i = .aldLong f x ∧ op = 0xb8 ∨ i = .astLong f x ∧ op = 0xb9) ∧ v = vLong f x)

theorem exec_of_accForm {i : Instr} {op : Nat} {v : VArgs} (h : accForm i op v) (s : State) :
    op = 0xb8 ∧ exec i s = s.aldOp v ∨ op = 0xb9 ∧ exec i s = s.astOp v := by
  rcases h with ⟨f, ⟨rfl, rfl⟩ | ⟨rfl, rfl⟩, rfl⟩ | ⟨f, x, ⟨rfl, rfl⟩ | ⟨rfl, rfl⟩, rfl⟩
  · exact .inl ⟨rfl, rfl⟩
  · exact .inr ⟨rfl, rfl⟩
  · exact .inl ⟨rfl, rfl⟩
  · exact .inr ⟨rfl, rfl⟩

section
variable {s : State} {k : GKey} {g : Group} {c : Clause} {i : Instr} {op : Nat} {v : VArgs} {sh : VShape}

/-- ALD and AST with a lane outside the window, or past the last column, raise. -/
theorem State.exec_accForm_traps (hf : accForm i op v) (hi : s.issues k g c) (hg : g.acts)
    (ht : ∀ r l p, g.pending { regs := r, scalars := l, preds := p } = false) (hsh : vShape op = some sh) (hv : g.vTrap v op sh = none) {x : Trap}
    (hh : g.half = .fresh) (hx : g.accTrap v.b (s.accRow k g v sh) (s.accCol k g v sh) = some x) : exec i s = .next (s.raise k g x) := by
  rcases exec_of_accForm hf s with ⟨rfl, he⟩ | ⟨rfl, he⟩
  · rw [he, State.aldOp_eq]
    exact (State.accOp_of_ready _ hi hg ht hsh hv).1 x hh hx
  · rw [he, State.astOp_eq]
    exact (State.accOp_of_ready _ hi hg ht hsh hv).1 x hh hx

/-- What ALD and AST leave otherwise. -/
theorem State.exec_accForm_ends (hf : accForm i op v) (hi : s.issues k g c) (hg : g.acts)
    (ht : ∀ r l p, g.pending { regs := r, scalars := l, preds := p } = false) (hsh : vShape op = some sh) (hv : g.vTrap v op sh = none)
    (hn : g.half = .fresh → g.accTrap v.b (s.accRow k g v sh) (s.accCol k g v sh) = none) :
    let now := s.accLanes k g (s.accRow k g v sh)
    ∃ (t u : State) (G H : Group) (n : Nat), exec i s = .next (t.accEnds u k G H c n (g.allActed now)) ∧ (g.acting now).accKeeps G ∧
      (g.acting now).accKeeps H ∧ t.mem = s.mem ∧ u.mem = t.mem
      ∧ u.arr k.die k.core = t.arr k.die k.core
      ∧ (op = 0xb8 → t.arr k.die k.core = s.arr k.die k.core ∧ (g.wellOk → ∀ l ∈ now, ∀ h, h = G ∨ h = H →
          h.regLane ((g.dstRegs v.d).getD l 0) l = (s.arr k.die k.core).elem (s.accRow k g v sh l) (s.accCol k g v sh l)))
      ∧ (op = 0xb9 → t.arr k.die k.core = now.foldl (fun x l => x.putElem (s.accRow k g v sh l) (s.accCol k g v sh l) (s.deliver k g v.srcD l))
          (s.arr k.die k.core)) := by
  intro now
  rcases exec_of_accForm hf s with ⟨rfl, he⟩ | ⟨rfl, he⟩
  · let t := (((g.acting now).applyDead v).evictAll (s.aldPend (g.acting now) v)).2
    let occ := (g.acting now).occupancy (v.uses sh) 0
    refine ⟨s.newId.2, s, s.aldLast k (g.acting now) v (s.accRow k g v sh) (s.accCol k g v sh) now (s.clk + occ + t + 16),
      s.aldSome k (g.acting now) v (s.accRow k g v sh) (s.accCol k g v sh) now, occ + t, ?_, State.aldLast_keeps .., State.aldSome_keeps ..,
      rfl, rfl, rfl, fun _ => ⟨rfl, fun hw l hl h hh => ?_⟩, fun h => absurd h (by decide)⟩
    · rw [he, State.aldOp_eq, (State.accOp_of_ready _ hi hg ht hsh hv).2 hn]
      rfl
    · exact State.regLane_ald (g := g.acting now) hw (fun j hj => (mem_accLanes hj).1) (accLanes_nodup _) hl _ hh
  · refine ⟨s.astStored k g v (s.accRow k g v sh) (s.accCol k g v sh) now, s.astStored k g v (s.accRow k g v sh) (s.accCol k g v sh) now,
    { (g.acting now).applyDead v with irrev := true },
      { g.acting now with irrev := (g.acting now).irrev || !now.isEmpty }, (g.acting now).occupancy (v.uses sh) 0, ?_, ?_,
      ⟨_, _, _, _, _, rfl⟩, rfl, rfl, rfl, fun h => absurd h (by decide), fun _ => State.updArr_arr_self ..⟩
    · rw [he, State.astOp_eq, (State.accOp_of_ready _ hi hg ht hsh hv).2 hn]
      rfl
    · exact Group.accKeeps_trans (Group.accKeeps_of_moved (Group.applyDead_moves _ v)) ⟨_, _, _, _, _, rfl⟩
end

/-! ### ADRN -/

/-- A drain as ADRN hands it to the array. -/
def State.drainCmd (s : State) (k : GKey) (d : Drain) : Drain :=
  let a := s.arr k.die k.core
  let n := d.rows * d.cols
  { d with
    id := s.fresh
    values := (List.range d.rows).flatMap fun i => (List.range d.cols).map fun j => a.elem (d.row + i) (d.col + j)
    readEnd := s.clk + 8 + (n + 63) / 64
    leave := a.drains.foldl (fun m x => max m x.leave) (s.clk + 8)
      + max ((n + 63) / 64) ((n * drainSize d.hand + (if d.add then 32 else 64) - 1) / (if d.add then 32 else 64)) }

theorem State.drainIssue_of_free {s : State} {k : GKey} {g : Group} (c : Clause) {d : Drain} (w : Who) (place : Option Place) (hh : g.half = .fresh)
    (hm : g.me < 255) (hb : (s.arr k.die k.core).busyRow k.core d.row = false) :
    ∃ n, s.drainIssue k g c d w place = ((s.newId.2.addDrain k (s.drainCmd k d)).advance k
      { g with me := g.me + 1, half := .sent, irrev := true } c 1 none).after n (.drainComplete ⟨k.die, k.core⟩ s.fresh) := by
  unfold State.drainIssue
  rw [State.meStart_of_free _ hh hm fun _ => hb]
  exact ⟨_, rfl⟩

/-- What stands once a drain is issued. -/
theorem State.drainIssue_spec {s : State} {k : GKey} {g : Group} (c : Clause) {d : Drain} (w : Who) (place : Option Place) (hh : g.half = .fresh)
    (hm : g.me < 255) (hb : (s.arr k.die k.core).busyRow k.core d.row = false) :
    ∃ h, (s.drainIssue k g c d w place).group? k = some h ∧ h.me = g.me + 1 ∧ (s.drainIssue k g c d w place).mem = s.mem
      ∧ ((s.drainIssue k g c d w place).arr k.die k.core).drains = (s.arr k.die k.core).drains ++ [s.drainCmd k d]
      ∧ ((s.drainIssue k g c d w place).arr k.die k.core).acc = (s.arr k.die k.core).acc := by
  obtain ⟨n, he⟩ := State.drainIssue_of_free c w place hh hm hb
  rw [he]
  have harr : ((((s.newId.2.addDrain k (s.drainCmd k d)).advance k { g with me := g.me + 1, half := .sent, irrev := true } c 1 none).after n
      (.drainComplete ⟨k.die, k.core⟩ s.fresh)).arr k.die k.core) = (s.newId.2.addDrain k (s.drainCmd k d)).arr k.die k.core :=
    State.advance_arr ..
  refine ⟨_, State.advance_group? _ k _ c 1 none, by rw [Group.stepped_eq], rfl, ?_, ?_⟩
  · rw [harr, State.addDrain, State.updArr_arr_self]
    rfl
  · rw [harr, State.addDrain, State.updArr_arr_self]
    rfl

section
variable {s : State} {k : GKey} {g : Group} {c : Clause} {f : XDFmt} {x : XDLong} {o q : Nat}

/-- The drain that ADRN asks for. -/
def State.drainAsked (s : State) (k : GKey) (g : Group) (f : XDFmt) (o q : Nat) : Drain :=
  { id := 0, g := k, team := g.team, ctx := s.ctxOf g.team, clear := false, add := false, hand := g.hand, row := (g.scalar (4 * q)).toNat,
    rows := (g.scalar (4 * q + 1)).toNat, col := (g.scalar (4 * q + 2)).toNat, cols := (g.scalar (4 * q + 3)).toNat, ofs := g.scalar64 o,
    pitch := (g.uniform f.pt).toNat, seg := g.segReg f.g.toNat, values := [], readEnd := 0, leave := 0, faulted := false, told := [],
    frozen := false, sent := false, away := false }

/-- No check of ADRN's words stops it. -/
def drainFields (g : Group) (f : XDFmt) (x : XDLong) (o q : Nat) : Prop :=
  f.z = 0#4 ∧ x.z = 0#21 ∧ x.rsvd = 0#2 ∧ pairAt f.o o ∧ isScalarOrImm f.pt = true ∧ x.rq.toNat = 0x80 + 4 * q ∧ q < 16
    ∧ g.hand.toNat / 256 % 4 < 3 ∧ x.add = 0#1

theorem hand_accf {w : Word} (h : w.toNat / 256 % 4 < 3) : ¬ bits w 8 2 = 3#2 := by
  intro he
  have h3 := congrArg BitVec.toNat he
  rw [bits, toNat_extractLsb'_eq_div_mod] at h3
  simp only [BitVec.toNat_ofNat] at h3
  omega

theorem State.adrnOp_of_outside (hi : s.issues k g c) (ht : ∀ r l p, g.pending { regs := r, scalars := l, preds := p } = false)
    (hf : drainFields g f x o q) (hh : g.half = .fresh) {y : Nat}
    (hy : g.outside (g.scalar (4 * q)).toNat (g.scalar (4 * q + 1)).toNat = some y) : s.adrnOp f x = .next (s.raise k g (windowTrap y)) := by
  obtain ⟨hz, hxz, hr, ho, hpt, hq, hq16, hhand, hadd⟩ := hf
  have hsub : x.rq.toNat - 0x80 = 4 * q := by omega
  have hsc : isScalar x.rq = true := isScalar_of_toNat hq (by omega)
  have hmod : (4 * q % 4 != 0) = false := by simp
  rw [State.adrnOp, State.withIssuer_of _ hi]
  simp only [touchScalars, ht, hz, hxz, hr, (pairAt_spec ho).1, hpt, hsub, hsc, hmod, hand_accf hhand, hh, bne_self_eq_false, Bool.or_self,
    Bool.not_true, Bool.false_eq_true, if_false, ne_eq, not_true_eq_false, show g.outside (g.scalar (4 * q)).toNat _ = _ from hy, State.matGo]

theorem State.adrnOp_of_reached {rss : List (List Run)} {u : State} (hi : s.issues k g c) (hg : g.acts)
    (ht : ∀ r l p, g.pending { regs := r, scalars := l, preds := p } = false) (hf : drainFields g f x o q) (hh : g.half = .fresh)
    (ha : s.acquiring k g = false) (hout : g.outside (g.scalar (4 * q)).toNat (g.scalar (4 * q + 1)).toNat = none)
    (hcols : (g.scalar (4 * q + 2)).toNat + (g.scalar (4 * q + 3)).toNat ≤ 512) (h1 : 0 < (g.scalar (4 * q + 1)).toNat)
    (h3 : 0 < (g.scalar (4 * q + 3)).toNat)
    (hck : s.drainCheck (s.whoOf k g) (g.segReg f.g.toNat) false (g.scalar64 o) (g.uniform f.pt).toNat
      (((g.scalar (4 * q + 1)).toNat - 1) * (g.uniform f.pt).toNat + (g.scalar (4 * q + 3)).toNat * drainSize g.hand) (drainSize g.hand) = none)
    (hre : s.reachRows (s.whoOf k g) (s.team? g.team) (g.segReg f.g.toNat) .write (s.drainAsked k g f o q).pieces = (.ok rss, u)) :
    ∃ place, s.adrnOp f x = .next (u.drainIssue k g c (s.drainAsked k g f o q) (s.whoOf k g) place) := by
  obtain ⟨hz, hxz, hr, ho, hpt, hq, hq16, hhand, hadd⟩ := hf
  have hsub : x.rq.toNat - 0x80 = 4 * q := by omega
  have hsc : isScalar x.rq = true := isScalar_of_toNat hq (by omega)
  have hmod : (4 * q % 4 != 0) = false := by simp
  have hadd' : ¬ x.add = 1#1 := by simp [hadd]
  have hre' := hre
  unfold State.drainAsked at hre'
  refine ⟨(rss.headD []).head?.map (·.place), ?_⟩
  rw [State.adrnOp, State.withIssuer_of _ hi]
  simp only [touchScalars, ht, hz, hxz, hr, (pairAt_spec ho).1, (pairAt_spec ho).2, hpt, hsub, hsc, hmod, hand_accf hhand, hh, hadd',
    bne_self_eq_false,
    Bool.or_self, Bool.not_true, Bool.false_eq_true, if_false, ne_eq, not_true_eq_false, show g.outside (g.scalar (4 * q)).toNat _ = _ from hout,
    Nat.not_lt.2 hcols, h1, h3, decide_true, decide_false, Bool.and_self, if_true, hck, State.matGo_of_acts _ _ hg, ha,
    Bool.false_and]
  rw [show s.reachRows (s.whoOf k g) (s.team? g.team) (g.segReg f.g.toNat) .write _ = _ from hre']
  rfl
end

/-- Settles O38: AWIN, ACLR and ADRN are their one outcome past the checks; ALD and AST end in one of two ways, which `allActed` tells apart. -/
theorem accumulatorResults : Obligations.AccumulatorResults := by
  intro s k g c hi hg ht a
  refine ⟨?_, ?_, ?_, ?_⟩
  · intro f tm slot ho hn hfl hslot hs hu htm hc hle h256 hfind
    rw [exec_awin, State.awinOp_of_ready hi hg ht ho hn hfl hslot hs hu htm hc hle h256 hfind]
  · intro f hfl hslot hs hu hh hm first count
    obtain ⟨htrap, hgo⟩ := State.aclrOp_of_ready hi hg ht hfl hslot hs hu hh hm
    refine ⟨fun r hr => htrap r hr, fun hr hb => ?_⟩
    obtain ⟨h, hspec⟩ := s.rowsCleared_spec k g c first count
    exact ⟨_, h, hgo hr hb, hspec⟩
  · intro i op v sh hf hsh hv rows cols left now
    refine ⟨fun x hh hx => ?_, fun hn => ?_⟩
    · exact State.exec_accForm_traps hf hi hg ht hsh hv hh hx
    · obtain ⟨t, u, G, H, n, he, hG, hH, hmem, humem, huarr, hald, hast⟩ := State.exec_accForm_ends hf hi hg ht hsh hv hn
      obtain ⟨h, hgr, hsc, hpr, hseg, hex, hreg, hall, hsome⟩ := State.accEnds_group (c := c) (k := k) t u hG hH n
        (g.allActed (s.accLanes k g (s.accRow k g v sh)))
      refine ⟨_, h, he, hgr, (State.accEnds_mem humem ..).trans hmem, hsc, hpr, hseg, hex, fun hop => ?_, fun hop => ?_, fun hfree => ?_,
        fun l hl hbusy => ?_⟩
      · obtain ⟨harr, hlanes⟩ := hald hop
        refine ⟨(State.accEnds_arr k huarr ..).trans harr, fun hw l hl => ?_⟩
        rcases hreg ((g.dstRegs v.d).getD l 0) l with hr | hr
        · exact hr.trans (hlanes hw l hl G (.inl rfl))
        · exact hr.trans (hlanes hw l hl H (.inr rfl))
      · exact (State.accEnds_arr k huarr ..).trans (hast hop)
      · exact ⟨State.accLanes_eq (s.accRow k g v sh) hfree, hall ((State.allActed_iff (s.accRow k g v sh)).2 hfree)⟩
      · refine hsome (Bool.eq_false_iff.2 fun hacted => ?_)
        have hnot := (State.allActed_iff (s.accRow k g v sh)).1 hacted l hl
        exact Bool.false_ne_true (hnot.symm.trans hbusy)
  · intro f x o q rss u hz hxz hr ho hpt hq hq16 hhand hh hm ha hadd n e pitch
    have hfields : drainFields g f x o q := ⟨hz, hxz, hr, ho, hpt, hq, hq16, hhand, hadd⟩
    rw [exec_adrn]
    refine ⟨fun y hy => State.adrnOp_of_outside hi ht hfields hh hy, fun hout hcols h1 h3 hb hck hre harr => ?_⟩
    obtain ⟨place, he⟩ := State.adrnOp_of_reached hi hg ht hfields hh ha hout hcols h1 h3 hck hre
    obtain ⟨h, hgr, hme, hmem, hdr, hacc⟩ := State.drainIssue_spec (s := u) (d := s.drainAsked k g f o q) c (s.whoOf k g) place hh hm
      (by rw [harr]; exact hb)
    rw [harr] at hdr hacc
    refine ⟨_, h, u.drainCmd k (s.drainAsked k g f o q), he, hgr, hme, hmem, hdr, hacc, rfl, rfl, rfl, rfl, rfl, rfl, ?_⟩
    show (State.drainCmd u k (s.drainAsked k g f o q)).values = _
    rw [State.drainCmd, harr]
    rfl

end Sys2Proof.Machine
end

section
namespace Sys2Proof.Machine

/-! ## Task instructions (O39) -/

theorem exec_tspawn (f : MFmt) (s : State) : exec (.tspawn f) s = s.spawnOp (mShort 0xc0 f) false := rfl
theorem exec_tspawnLong (f : MFmt) (x : MLong) (s : State) : exec (.tspawnLong f x) s = s.spawnOp (mLong 0xc0 f x) true := rfl
theorem exec_tdone (s : State) : exec .tdone s = s.tdoneOp := rfl
theorem exec_tabort (s : State) : exec .tabort s = s.tabortOp := rfl
theorem exec_tserial (s : State) : exec .tserial s = s.tserialOp := rfl

/-! ### TSPAWN -/

/-- Marking a run of registers dead leaves every register outside it. -/
theorem Group.regLane_markDeadRun {g : Group} (h : g.wellOk) {m r n : Nat} (hm : m < r ∨ r + n ≤ m) (l : Nat) :
    ((List.range n).foldl (fun (x : Group) i => x.markDead (r + i)) g).regLane m l = g.regLane m l
      ∧ ((List.range n).foldl (fun (x : Group) i => x.markDead (r + i)) g).wellOk := by
  induction n with
  | zero => exact ⟨rfl, h⟩
  | succ n ih =>
    obtain ⟨hr, hw⟩ := ih (by omega)
    rw [List.range_succ, List.foldl_append, List.foldl_cons, List.foldl_nil]
    exact ⟨(Group.regLane_markDead hw (by omega) l).trans hr, Group.wellOk_markDead hw _⟩

/-- An operand with its DEAD bit marks its registers. -/
def Group.markSpec (h : Group) (d : Bool) (b : BitVec 8) (n : Nat) : Group :=
  match specKind b with
  | .reg r => if d then (List.range n).foldl (fun (x : Group) i => x.markDead (r + i)) h else h
  | _ => h

theorem Group.mDead_eq (g : Group) (a : MArgs) : g.mDead a = if g.exec = 0#32 then g else
    (g.markSpec a.deadO a.off (if a.o64 then 2 else 1)).markSpec a.deadD (if (mKind a.op).isStore then a.data else a.val) a.span := rfl

theorem Group.markSpec_false (h : Group) (b : BitVec 8) (n : Nat) : h.markSpec false b n = h := by
  unfold Group.markSpec
  split <;> rfl

theorem Group.regLane_markSpec {h : Group} (hw : h.wellOk) {d : Bool} {b : BitVec 8} {n m : Nat}
    (hm : d = true → ∀ r, specKind b = .reg r → m < r ∨ r + n ≤ m) (l : Nat) : (h.markSpec d b n).regLane m l = h.regLane m l := by
  unfold Group.markSpec
  split
  next r hr =>
    split
    · exact (Group.regLane_markDeadRun hw (hm ‹_› r hr) l).1
    · rfl
  · rfl

/-- Of a source that marks no data dead, only the offset's registers change. -/
theorem Group.regLane_mDead {g : Group} (h : g.wellOk) {a : MArgs} (hd : a.deadD = false) {m : Nat}
    (hm : a.deadO = true → ∀ r, specKind a.off = .reg r → m < r ∨ r + (if a.o64 then 2 else 1) ≤ m) (l : Nat) :
    (g.mDead a).regLane m l = g.regLane m l := by
  rw [Group.mDead_eq, hd, Group.markSpec_false]
  split
  · rfl
  · exact Group.regLane_markSpec h hm l

theorem MArgs.deadD_of_spawn {a : MArgs} {long : Bool} (h : a.badSpawn long = false) : a.deadD = false := by
  simp only [MArgs.badSpawn, Bool.or_eq_false_iff] at h
  exact h.1.1.1.2

section
variable {s : State} {k : GKey} {g : Group} {c : Clause} {a : MArgs} {long : Bool} {tk : Task}

/-- TSPAWN's words let it through. -/
theorem State.spawnOp_of_words (hi : s.issues k g c) (ht : g.pending (g.mTouch { a with wid := 2 }) = false) (hb : a.badSpawn long = false)
    (ho : a.offOk = true) (hd : isLaneReg a.data = true) (hc : g.check128 (MArgs.uses { a with wid := 2 }) = none) :
    s.spawnOp a long = .next (s.spawnIssue k g c { a with wid := 2 }) := by
  rw [State.spawnOp, State.withIssuer_of _ hi]
  simp only [ht, hb, ho, hd, hc, Bool.not_true, Bool.false_eq_true, if_false]

theorem State.spawnIssue_of_no_task (ht : g.task = none) : s.spawnIssue k g c a = s.raise k g (trapOf .illOperand (auxSpec g 0#8)) := by
  unfold State.spawnIssue
  rw [ht]

theorem State.spawnIssue_of_no_lane (ht : g.task = some tk) (he : g.exec = 0#32) :
    s.spawnIssue k g c a = s.advance k g c (g.occupancy a.uses 0) (some (g.nibOf a.data 0#32 zeroLanes)) := by
  unfold State.spawnIssue
  rw [ht]
  exact if_pos he

/-- The lanes of a TSPAWN that has reached its records, each with its runs. -/
def spawnRuns (R : LaneTry → List Run) (xs : List LaneTry) : List (LaneTry × List Run) := xs.map fun x => (x, R x)

/-- The group that TSPAWN leaves before it steps. -/
def Group.spawned (g1 : Group) (a : MArgs) (mask : Word) (out : Lanes) : Group :=
  { ((g1.mDead a).writeDst a.data a.keep mask out).1 with irrev := true }

/-- What TSPAWN brings to a lane's register. -/
def spawnStatus (sts : List (Nat × Word)) (l : Nat) : Word := ((sts.find? fun e => e.1 = l).map (·.2)).getD 0#32

theorem State.spawnIssue_of_reached {xs : List LaneTry} {s1 : State} {R : LaneTry → List Run} (ht : g.task = some tk) (he : g.exec ≠ 0#32)
    (ha : s.acquiring k g = false) (hlog : g.log = [])
    (hck : s.segCheck (s.whoOf k g) (g.segReg a.g) .read true 32 32 ((lanesOf g.exec).map fun l => (l, g.offAt a l)) = none)
    (htry : s.tryLanes (s.whoOf k g) (s.team? g.team) (g.segReg a.g) .read 32 ((lanesOf g.exec).map fun l => (l, g.offAt a l)) = (xs, s1))
    (hR : ∀ x ∈ xs, x.reach = .runs (R x) ∧ ((R x).any fun q => q.place.outside) = false ∧ s1.spoiled (R x) = false)
    (hst : s1.homeStalls k g ((spawnRuns R xs).flatMap (·.2)) true false = false)
    (hen : s1.entryWaits k g.team ((spawnRuns R xs).flatMap (·.2)) = false) (hre : s1.refreshEnd ((spawnRuns R xs).flatMap (·.2)) = none)
    (hrec : ∀ e ∈ (s1.readRecords k g ((spawnRuns R xs).map fun e => (e.1.lane, e.2))).1, e.2.valid = true ∧ BitVec.ult e.2.ts tk.key.ts = false) :
    let got := s1.readRecords k g ((spawnRuns R xs).map fun e => (e.1.lane, e.2))
    let kids := State.spawnLanes k g tk got.1 false got.2
    let out := Lanes.ofFn (spawnStatus kids.1)
    ∃ n, s.spawnIssue k g c a = (kids.2.advance k (((kids.2.group? k).getD g).spawned a g.exec out) c n (some (g.nibOf a.data g.exec out))).refront
      (s.partCtx k g).1 (s.partCtx k g).2 k.die := by
  intro got kids out
  have hhole : xs.find? (fun x => x.reach = .hole) = none := List.find?_eq_none.2 fun x hx => by simp [(hR x hx).1]
  have hfault : firstFault .load xs = none :=
    List.findSome?_eq_none_iff.2 fun n _ => List.findSome?_eq_none_iff.2 fun x hx => by
      have hf : x.fault .load = none := by simp [LaneTry.fault, (hR x hx).1, MKind.isAtomic, MKind.isReduce]
      rw [hf]
  have hout : ((spawnRuns R xs).any fun e => e.2.any fun q => q.place.outside) = false := by
    refine List.any_eq_false.2 fun e he => ?_
    obtain ⟨x, hx, rfl⟩ := List.mem_map.1 he
    simpa using (hR x hx).2.1
  have hspoil : (spawnRuns R xs).find? (fun e => s1.spoiled e.2) = none := by
    refine List.find?_eq_none.2 fun e he => ?_
    obtain ⟨x, hx, rfl⟩ := List.mem_map.1 he
    simp [(hR x hx).2.2]
  have hlogs : (xs.any fun x => g.logOverlaps (g.segReg a.g).sel.toNat x.lin 32) = false :=
    List.any_eq_false.2 fun x _ => by simp [Group.logOverlaps_of_empty hlog]
  have hbad : (got.1.any fun e => !e.2.valid || BitVec.ult e.2.ts tk.key.ts) = false :=
    List.any_eq_false.2 fun e he => by simp [hrec e he]
  refine ⟨g.occupancy a.uses 0 + (spawnRuns R xs).foldl (fun m e => max m (figureOf (s.whoOf k g) e.2)) 0
    + ((((kids.2.group? k).getD g).mDead a).writeDst a.data a.keep g.exec out).2, ?_⟩
  unfold State.spawnIssue
  simp only [ht, if_neg he, ha, hck, htry, hhole, Bool.false_eq_true, if_false]
  rw [List.filterMap_congr (g := fun x => some (x, R x)) fun x hx => by rw [(hR x hx).1], List.filterMap_eq_map']
  simp only [← spawnRuns.eq_1, hout, Bool.and_false, hfault, hspoil, hst, hen, hlogs, hre, Option.isSome_none, Bool.or_self, Bool.false_eq_true,
    if_false]
  rw [if_neg (by rw [show (got.1.any fun e => !e.2.valid || BitVec.ult e.2.ts tk.key.ts) = false from hbad]; exact Bool.false_ne_true)]
  rfl
end

/-- What TSPAWN leaves of a group: the lanes of its destination hold their statuses, and no other register or lane changes but those that the
offset marks dead. -/
theorem Group.spawned_spec (g1 : Group) {a : MArgs} (hd : a.deadD = false) (mask : Word) (st : Nat → Word) :
    (∃ r w d, g1.spawned a mask (Lanes.ofFn st) = { g1 with regs := r, well := w, dead := d, irrev := true })
    ∧ (g1.wellOk → ∀ l < 32, (∀ n, g1.useReg (useOf a.data false 1) l = some n → mask.getLsbD l = true →
          (g1.spawned a mask (Lanes.ofFn st)).regLane n l = st l)
        ∧ ∀ m, (a.deadO = true → ∀ r, specKind a.off = .reg r → m < r ∨ r + (if a.o64 then 2 else 1) ≤ m) →
            ((specKind a.data = .reg m → mask.getLsbD l = false) ∧ ∀ j i, specKind a.data = .index j → mask.getLsbD i = true → g1.ixReg j i ≠ m) →
            (g1.spawned a mask (Lanes.ofFn st)).regLane m l = g1.regLane m l) := by
  obtain ⟨⟨r, w, d, he⟩, hw⟩ := g1.mDead_moves a
  refine ⟨⟨_, _, _, by rw [Group.spawned, Group.writeDst_eq, he]⟩, fun hok l hl => ?_⟩
  have huse (u : RegUse) : (g1.mDead a).useReg u l = g1.useReg u l := by rw [he]; rfl
  have hread (m : Nat) : (g1.spawned a mask (Lanes.ofFn st)).regLane m l
      = if mask.getLsbD l = true ∧ g1.useReg (useOf a.data false 1) l = some m then st l else (g1.mDead a).regLane m l := by
    rw [← huse, ← Lanes.at_ofFn st hl]
    exact Group.regLane_writeDst (hw hok).1 _ _ _ _ _ hl
  refine ⟨fun n hn hm => (hread n).trans (if_pos ⟨hm, hn⟩), fun m hm hdst => ?_⟩
  rw [hread, if_neg, Group.regLane_mDead hok hd hm]
  rintro ⟨hml, hu⟩
  unfold Group.useReg useOf at hu
  dsimp only at hu
  split at hu
  next n hs =>
    obtain rfl := Option.some.inj hu
    simp [hdst.1 hs] at hml
  next j hs => exact hdst.2 j l hs hml (Option.some.inj hu)
  · cases hu

theorem spilled_any_iff (o : Option Domain) (die id : Nat) : (o.any fun e => (e.at die).spilled.any fun x => x.id = id) = true
    ↔ ∃ e, o = some e ∧ ∃ x ∈ (e.at die).spilled, x.id = id := by
  cases o <;> simp

section
variable {s : State} {k : GKey} {g : Group} {tk : Task} {w : RecWords} {full : Bool} {part ctx : Nat} {d : Domain}

/-- What one record of a TSPAWN answers. -/
theorem State.spawnOne_spec (hpc : (part, ctx) = s.partCtx k g) (hd : s.domain? part ctx = some d) :
    (full = true ∨ s.taskQuota k.die ctx ≤ (s.recordsOn part ctx k.die d).length → s.spawnOne k g tk w full = (2#32, s))
    ∧ ((s.spawnOne k g tk w full).1 = 0#32 ∨ (s.spawnOne k g tk w full).1 = 1#32 ∨ s.spawnOne k g tk w full = (2#32, s))
    ∧ ((s.spawnOne k g tk w full).1 ≠ 2#32 → ((s.spawnOne k g tk w full).1 = 1#32
        ↔ ∃ e, (s.spawnOne k g tk w full).2.domain? part ctx = some e ∧ ∃ x ∈ (e.at k.die).spilled, x.id = s.fresh)) := by
  unfold State.spawnOne
  rw [← hpc]
  dsimp only
  rw [hd]
  dsimp only
  split
  next hfull => exact ⟨fun _ => rfl, .inr (.inr rfl), fun h => absurd rfl h⟩
  next hroom =>
    simp only [Bool.or_eq_true, decide_eq_true_eq, not_or] at hroom
    refine ⟨fun h => ?_, ?_, fun _ => ?_⟩
    · rcases h with h | h
      · exact absurd h hroom.1.1
      · exact absurd h hroom.1.2
    · dsimp only
      split
      · exact .inr (.inl rfl)
      · exact .inl rfl
    · dsimp only
      rw [← spilled_any_iff]
      split
      · exact ⟨fun _ => ‹_›, fun _ => rfl⟩
      · exact ⟨fun h => absurd h (by decide), fun h => absurd h ‹_›⟩
end

/-! ### TDONE, TABORT and TSERIAL -/

section
variable {s : State} {k : GKey} {g : Group} {c : Clause} {tk : Task} {part ctx : Nat}

theorem State.tdoneOp_eq (hi : s.issues k g c) (hP : g.fieldP c = 0#24) (ht : g.task = some tk) (hpc : (part, ctx) = s.partCtx k g) :
    s.tdoneOp = .next (if g.lsq = [] ∧ g.log = [] ∧ g.ceq = [] ∧ g.me = 0 ∧ g.fd = 0 then
        (if tk.record.u then s.freeSlot part ctx k g else (s.freeSlot part ctx k g).updDomain part ctx fun d =>
          d.upd k.die fun x => { x with finished := x.finished ++ [{ task := tk, core := k.core }] }).post s.clk (.taskCommit part ctx k.die)
      else s.hold k g) := by
  have hfree : (!g.accessesDone || !g.ceq.isEmpty || g.me != 0 || g.fd != 0) = true
      ↔ ¬ (g.lsq = [] ∧ g.log = [] ∧ g.ceq = [] ∧ g.me = 0 ∧ g.fd = 0) := by
    simp [Group.accessesDone]
    tauto
  rw [State.tdoneOp, State.withIssuer_of _ hi]
  simp only [hP, bne_self_eq_false, Bool.false_eq_true, if_false, State.taskDone, ht, ← hpc, hfree, ite_not]

theorem Group.speculative_of_task (ht : g.task = some tk) : g.speculative = tk.spec := by simp [Group.speculative, ht]

theorem State.tabortOp_eq (hi : s.issues k g c) (hP : g.fieldP c = 0#24) (ht : g.task = some tk) (hpc : (part, ctx) = s.partCtx k g) :
    s.tabortOp = .next (if tk.spec then s.abort part ctx tk.record.id true else s.raise k g (trapOf .illOperand (auxSpec g 0#8))) := by
  rw [State.tabortOp, State.withIssuer_of _ hi]
  simp only [hP, bne_self_eq_false, Bool.false_eq_true, if_false, ht, ← hpc]

theorem State.tserialOp_eq (hi : s.issues k g c) (hP : g.fieldP c = 0#24) (ht : g.task = some tk) :
    s.tserialOp = .next (if tk.spec then s.desched k g .promotion else s.advance k { g with irrev := true } c 1 none) := by
  rw [State.tserialOp, State.withIssuer_of _ hi]
  simp only [hP, bne_self_eq_false, Bool.false_eq_true, if_false, Group.speculative_of_task ht]
end

/-- The runs that a lane's try has reached. -/
def LaneTry.runsOr (x : LaneTry) : List Run :=
  match x.reach with
  | .runs rs => rs
  | _ => []

/-- Settles O39: TSPAWN's outcome is one `spawnIssue`, its statuses come from `spawnOne` lane by lane, and the three others are one test each. -/
theorem taskInstructionResults : Obligations.TaskInstructionResults := by
  refine ⟨fun i a long f hf => ?_, fun s k g tk w full part ctx d hpc hd => State.spawnOne_spec hpc hd,
    fun s k g c tk part ctx hi hP ht hpc => ?_⟩
  · have he : ∀ s, exec i s = s.spawnOp a long := by
      rcases hf with ⟨rfl, rfl, rfl⟩ | ⟨x, rfl, rfl, rfl⟩
      · exact exec_tspawn f
      · exact exec_tspawnLong f x
    intro b s k g c tk xs s1 hi htouch hb ho hd hc
    rw [he, State.spawnOp_of_words hi htouch hb ho hd hc]
    refine ⟨fun ht => by rw [State.spawnIssue_of_no_task ht], fun ht hx => by rw [State.spawnIssue_of_no_lane ht hx],
      fun ht hx ha hlog => ?_⟩
    intro los hck htry hxs lanes hst hen hre got kids hrec status
    have hR : ∀ x ∈ xs, x.reach = .runs x.runsOr ∧ (x.runsOr.any fun q => q.place.outside) = false ∧ s1.spoiled x.runsOr = false := by
      intro x hx
      obtain ⟨rs, hr, hplace, hsp⟩ := hxs x hx
      have hrs : x.runsOr = rs := by rw [LaneTry.runsOr, hr]
      rw [hrs]
      exact ⟨hr, hplace, hsp⟩
    obtain ⟨n, hn⟩ := State.spawnIssue_of_reached (c := c) (a := b) ht hx ha hlog hck htry hR hst hen hre hrec
    refine ⟨((kids.2.group? k).getD g).spawned b g.exec (Lanes.ofFn status), n, congrArg Host.Outcome.next hn, rfl, fun g1 hg1 => ?_⟩
    rw [show (kids.2.group? k).getD g = g1 by rw [hg1]; rfl]
    obtain ⟨⟨r, w, d, hkeep⟩, hregs⟩ := g1.spawned_spec (a := b) (show b.deadD = false from MArgs.deadD_of_spawn (a := a) hb) g.exec status
    refine ⟨?_, ?_, ?_, ?_, ?_, hregs⟩ <;> rw [hkeep]
  · rw [exec_tdone, exec_tabort, exec_tserial, State.tdoneOp_eq hi hP ht hpc, State.tabortOp_eq hi hP ht hpc, State.tserialOp_eq hi hP ht]
    refine ⟨fun h1 h2 h3 h4 h5 => by rw [if_pos ⟨h1, h2, h3, h4, h5⟩], fun h => by rw [if_neg (by tauto)], fun hs => ?_, fun hs => ?_⟩
    · rw [hs]
      exact ⟨rfl, rfl⟩
    · rw [hs]
      exact ⟨rfl, rfl⟩

end Sys2Proof.Machine
end

section
namespace Sys2Proof.Machine

/-! ## Launches from a grid (O40) -/

theorem exec_launch (f : GFmt) (s : State) : exec (.launch f) s = s.launchOp f := rfl

/-- The row of the event that is the subject has that event's effect. -/
theorem exec_of_subject {s : State} {e : Event} (h : s.subject = e) : exec (rowOf e) s = .next (s.effect e) := by
  rw [← h]
  exact exec_rowOf_subject s

@[simp] theorem Group.stepped_acqUntil (g : Group) (c : Clause) (nib : Option Lanes) : (g.stepped c nib).acqUntil = g.acqUntil := by
  rw [Group.stepped_eq]

theorem Group.scalar_setScalar_self (g : Group) (n : Nat) (v : Word) : (g.setScalar n v).scalar n = v := Tbl.get_put_self ..

section
variable {s : State} {k : GKey} {g : Group} {c : Clause} {f : GFmt} {st tb : Nat}

/-- The words of LAUNCH that pass: a scalar for the answer, and one with the descriptor's offset. -/
def launchFields (f : GFmt) (st tb : Nat) : Prop := f.s.toNat = 0x80 + st ∧ st < 64 ∧ f.idx.toNat = 0x80 + tb ∧ tb < 64

theorem launch_idx (h : launchFields f st tb) :
    f.idx.extractLsb' 8 4 = 0#4 ∧ isScalar (f.idx.extractLsb' 0 8) = true ∧ g.uniform (f.idx.extractLsb' 0 8) = g.scalar tb := by
  obtain ⟨-, -, hi, ht⟩ := h
  have hlow : (f.idx.extractLsb' 0 8).toNat = 0x80 + tb := by
    rw [toNat_extractLsb'_eq_div_mod]
    omega
  have hkind : specKind (f.idx.extractLsb' 0 8) = .scalar tb := by
    unfold specKind
    simp only [hlow]
    rw [if_neg (by omega), if_pos (by omega), Nat.add_sub_cancel_left]
  refine ⟨BitVec.eq_of_toNat_eq ?_, isScalar_of_toNat hlow ht, by rw [Group.uniform, hkind]⟩
  rw [toNat_extractLsb'_eq_div_mod]
  simp only [BitVec.toNat_ofNat]
  omega

/-- LAUNCH past the checks of its words. -/
def State.launchReads (s : State) (k : GKey) (g : Group) (c : Clause) (f : GFmt) (st tb : Nat) : State :=
  match s.segRead k g (g.segReg f.g.toNat) (g.scalar tb).toNat 64 64 with
  | .trap t => s.raise k g t
  | .wait => s.hold k g
  | .fault x t s1 => s1.pageFault k g x t false g.pos .instr
  | .bytes bs rs s1 =>
    let x := launchDesc bs
    let lin := s1.rubricLin (s.whoOf k g) x.krub
    match s1.readLin (s.whoOf k g) lin 8 with
    | (.error e, s2) => s2.tableFault k g e lin
    | (.ok eb, s2) =>
      let e := entryOf eb
      if e.state ≠ 2 then s2.linkTrapOp k g x.krub e lin
      else match s2.loadSeg (s.whoOf k g) g (BitVec.ofNat 16 e.sel) with
        | (.error y, s3) => s3.tableFault k g y (s3.descLin (s.whoOf k g) e.sel)
        | (.ok (r, krec), s3) =>
          let kindTrap := trapOf .rubricKind (BitVec.ofNat 32 x.krub)
          if r.kind ≠ 1#3 ∨ r.bad then s3.raise k g kindTrap
          else if krec = 0 then s3.raise k g kindTrap
          else match s3.readLin (s.whoOf k g) krec 64 with
            | (.error y, s4) => s4.tableFault k g y krec
            | (.ok kb, s4) =>
              let (t, s5) := s4.tableClk
              s5.launchGo k g c st x (krecOf kb) r (1 + figureOf (s.whoOf k g) rs + 3 * t)

theorem State.launchOp_eq (hi : s.issues k g c) (hf : launchFields f st tb) (ht : ∀ l, g.pending (touchScalars l) = false) :
    s.launchOp f = .next (if g.half = .sent then s.hold k g
      else if g.half = .done then s.advance k (g.acquire s.clk 5) c 1 none
      else if g.speculative then s.desched k g .promotion
      else if !g.released then s.hold k g
      else if s.acquiring k g then s.waitAcquire k g
      else s.launchReads k g c f st tb) := by
  obtain ⟨hx, hsc, hu⟩ := launch_idx (g := g) hf
  have hst : isScalar f.s = true := isScalar_of_toNat hf.1 hf.2.1
  have hsub : f.s.toNat - 0x80 = st := by
    have := hf.1
    omega
  rw [State.launchOp, State.withIssuer_of _ hi]
  simp only [ht, hx, hst, hsc, hu, hsub, bne_self_eq_false, Bool.not_true, Bool.false_eq_true, if_false]
  rfl

/-- With the descriptor, the entry, the kernel and its record read, LAUNCH goes on to the arguments. -/
theorem State.launchReads_of_read {bs : List Byte} {rs : List Run} {s1 : State} {eb : List Byte} {s2 : State} {r : SegReg} {kr : Nat} {s3 : State}
    {kb : List Byte} {s4 : State} (h1 : s.segRead k g (g.segReg f.g.toNat) (g.scalar tb).toNat 64 64 = .bytes bs rs s1)
    (h2 : s1.readLin (s.whoOf k g) (s1.rubricLin (s.whoOf k g) (launchDesc bs).krub) 8 = (.ok eb, s2)) (hst : (entryOf eb).state = 2)
    (h3 : s2.loadSeg (s.whoOf k g) g (BitVec.ofNat 16 (entryOf eb).sel) = (.ok (r, kr), s3)) (hkind : r.kind = 1#3) (hbad : r.bad = false)
    (hkr : kr ≠ 0) (h4 : s3.readLin (s.whoOf k g) kr 64 = (.ok kb, s4)) :
    s.launchReads k g c f st tb
      = s4.tableClk.2.launchGo k g c st (launchDesc bs) (krecOf kb) r (1 + figureOf (s.whoOf k g) rs + 3 * s4.tableClk.1) := by
  unfold State.launchReads
  simp only [h1, h2, hst, h3, hkind, hbad, hkr, h4, ne_eq, not_true_eq_false, Bool.false_eq_true, or_self, if_false]

/-- A bad descriptor is answered 3, and nothing else of the machine's host side or memory changes. -/
theorem State.launchGo_of_bad (s : State) (k : GKey) (g : Group) (c : Clause) (st : Nat) {x : LaunchDesc} (kr : KRec) (code : SegReg) (occ : Nat)
    (hb : x.bad = true) :
    ∃ h, (s.launchGo k g c st x kr code occ).group? k = some h ∧ h.scalar st = 3#32 ∧ (s.launchGo k g c st x kr code occ).host = s.host
      ∧ (s.launchGo k g c st x kr code occ).mem = s.mem := by
  unfold State.launchGo
  simp only [hb, if_true]
  refine ⟨_, State.advance_group? _ k _ c _ none, ?_, rfl, rfl⟩
  rw [Group.stepped_scalar]
  exact Group.scalar_setScalar_self g st 3#32

/-- A good descriptor sets out for the scriptorium with its arguments. -/
theorem State.launchGo_of_good {s : State} {k : GKey} {g : Group} (c : Clause) (st : Nat) {x : LaunchDesc} (kr : KRec) (code : SegReg) (occ : Nat)
    (hb : x.bad = false) {r : SegReg} {z : Nat} {s1 : State} {bs : List Byte} {rs : List Run} {s2 : State}
    (h1 : s.loadSeg (s.whoOf k g) g x.asel = (.ok (r, z), s1)) (h2 : s1.segRead k g r x.aofs x.alen 64 = .bytes bs rs s2) :
    let t := occ + figureOf (s.whoOf k g) rs + 30 * hops k.die 0
    s.launchGo k g c st x kr code occ
      = ((s2.newId.2.setHost { s2.host with launches := s2.host.launches.put s2.fresh (s2.newId.2.childLaunch k g st x kr code bs) }).hold k
          { g with half := .sent, irrev := true }).within t (t + 8192) (.nodeStart s2.fresh 0) := by
  unfold State.launchGo
  simp only [hb, h1, h2, Bool.false_eq_true, if_false]
  rfl
end

/-! ### The launch at the scriptorium -/

/-- The group of a launch that is answered `v`. -/
def Group.answered (g : Group) (st : Nat) (v : Word) : Group := { g.setScalar st v with half := .done }

section
variable {s : State} {l : Nat} {x : Launch} {k : GKey} {team st : Nat} {g : Group}

/-- The answer of the scriptorium to the group that asked, where it still waits for it. -/
def State.answerLaunch (t : State) (k : GKey) (team st : Nat) (v : Word) : State :=
  match t.anyGroup k with
  | some g => if g.team = team ∧ g.half = .sent then t.putAny k (g.answered st v) else t
  | none => t

theorem State.launchArrives_eq (s : State) (l : Nat) (x : Launch) (k : GKey) (team st : Nat) : s.launchArrives l x k team st =
    if s.launchQuota k.die x.ctx ≤ s.deviceGrids x.part x.ctx then
      (s.setHost { s.host with launches := s.host.launches.del l }).answerLaunch k team st 2#32
    else ((s.newId.2.setHost { s.host with launches := (s.host.launches.del l).put s.fresh { x with asked := none, taken := s.clk } }).post s.clk
      (.nodeStart s.fresh 0)).answerLaunch k team st 0#32 := rfl

theorem State.answerLaunch_of_waiting (v : Word) (hg : s.group? k = some g) (ht : g.team = team) (hh : g.half = .sent) :
    s.answerLaunch k team st v = s.putGroup k (g.answered st v) := by
  unfold State.answerLaunch State.anyGroup State.putAny
  simp only [hg, ht, hh, and_self, if_true, Option.isSome_some]

/-- At the quota the launch is dropped and answered 2. -/
theorem State.launchArrives_of_full (hg : s.group? k = some g) (ht : g.team = team) (hh : g.half = .sent)
    (hq : s.launchQuota k.die x.ctx ≤ s.deviceGrids x.part x.ctx) :
    s.launchArrives l x k team st
      = (s.setHost { s.host with launches := s.host.launches.del l }).putGroup k (g.answered st 2#32) := by
  rw [State.launchArrives_eq, if_pos hq]
  exact State.answerLaunch_of_waiting _ hg ht hh

/-- Below the quota it becomes a grid, under a number of its own, and is answered 0. -/
theorem State.launchArrives_of_room (hg : s.group? k = some g) (ht : g.team = team) (hh : g.half = .sent)
    (hq : s.deviceGrids x.part x.ctx < s.launchQuota k.die x.ctx) :
    s.launchArrives l x k team st
      = ((s.newId.2.setHost { s.host with launches := (s.host.launches.del l).put s.fresh { x with asked := none, taken := s.clk } }).post s.clk
          (.nodeStart s.fresh 0)).putGroup k (g.answered st 0#32) := by
  rw [State.launchArrives_eq, if_neg (Nat.not_le.2 hq)]
  exact State.answerLaunch_of_waiting _ hg ht hh
end

/-- Settles O40: the instruction is one chain of reads, and the scriptorium's answer depends on the quota alone. -/
theorem launchResults : Obligations.LaunchResults := by
  refine ⟨fun f s k g c st tb hi hs hst hidx htb ht => ?_, ?_, fun s k g c st x kr code occ => ⟨fun hb => ?_, ?_⟩,
    fun s l n x k team st g hsub hx hask hsorted hg hteam hhalf => ?_⟩
  · rw [exec_launch, State.launchOp_eq hi ⟨hs, hst, hidx, htb⟩ ht]
    exact ⟨fun hh => by rw [if_pos hh], fun hh => by rw [if_neg (by simp [hh]), if_pos hh]⟩
  · intro f s k g c st tb bs rs s1 eb s2 r kr s3 kb s4 hi hh hsp hrel ha hs hst hidx htb ht h1 x h2 he h3 hkind hbad hkr h4
    rw [exec_launch, State.launchOp_eq hi ⟨hs, hst, hidx, htb⟩ ht, if_neg (by simp [hh]), if_neg (by simp [hh]), if_neg (by simp [hsp]),
      if_neg (by simp [hrel]), if_neg (by simp [ha]), State.launchReads_of_read h1 h2 he h3 hkind hbad hkr h4]
  · exact s.launchGo_of_bad k g c st kr code occ hb
  · intro r z s1 bs rs s2 hb h1 h2 t
    rw [show t = _ from State.launchGo_of_good c st kr code occ hb h1 h2]
    refine ⟨State.hold_group? .., rfl, s2.newId.2.childLaunch k g st x kr code bs, Tbl.find_put_self .., rfl, rfl, rfl, rfl, ?_⟩
    exact ⟨_, le_trans (Nat.le_add_right s2.clk _) (Nat.le_add_right _ _), mem_insertDue ..⟩
  · have he : exec .nodeStart s = .next (s.launchArrives l x k team st) := by
      have h := exec_of_subject hsub
      have heff : s.nodeStart l n = s.launchArrives l x k team st := by
        unfold State.nodeStart
        simp only [hx, hask]
      exact h.trans (congrArg Host.Outcome.next heff)
    refine ⟨fun hq => ⟨_, he, ?_⟩, fun hq hne => ⟨_, he, ?_⟩⟩
    · rw [State.launchArrives_of_full hg hteam hhalf hq]
      exact ⟨Tbl.find_del_self _ hsorted, rfl, State.putGroup_group?_self ..⟩
    · rw [State.launchArrives_of_room hg hteam hhalf hq]
      refine ⟨?_, rfl, Tbl.find_put_self .., mem_insertDue .., State.putGroup_group?_self ..⟩
      exact (Tbl.find_put_ne _ _ (Ne.symm hne)).trans (Tbl.find_del_self _ hsorted)

end Sys2Proof.Machine
end

section
namespace Sys2Proof.Machine

/-! ## Feeders (O36) -/

theorem exec_fsub (f : EFmt) (x : ELong) (s : State) : exec (.fsubFeeder f x) s = s.fsubOp f x := rfl
theorem exec_fend (s : State) : exec .fend s = s.fendOp := rfl

/-! ### Tiles that are written slot by slot -/

theorem State.tile_congr (s : State) {d c d' c' : Nat} (h : coreNum d' c' = coreNum d c) (n : Nat) : s.tile d' c' n = s.tile d c n := by
  unfold State.tile State.core
  rw [h]

/-- A slot that is written reads as what was written, and every other as before. -/
theorem State.putTile_tile_cases (s : State) (d c n : Nat) (x : Tile) (d' c' n' : Nat) :
    (s.putTile d c n x).tile d' c' n' = x ∧ s.tile d' c' n' = s.tile d c n ∨ (s.putTile d c n x).tile d' c' n' = s.tile d' c' n' := by
  by_cases hc : coreNum d' c' = coreNum d c
  · by_cases hn : n' = n
    · subst hn
      exact .inl ⟨(State.tile_congr _ hc _).trans (State.putTile_tile_self ..), State.tile_congr _ hc _⟩
    · right
      rw [State.tile_congr _ hc, State.tile_congr _ hc]
      exact State.putTile_tile s d c n x c n' hn
  · right
    unfold State.tile State.putTile
    rw [State.updCore_core, if_neg hc]

/-- Writing slots changes the cores alone. -/
def State.onlyCores (s t : State) : Prop := ∃ cs, t = s.setCores cs

theorem State.onlyCores_refl (s : State) : s.onlyCores s := ⟨s.cores, rfl⟩

theorem State.onlyCores_trans {s t u : State} (a : s.onlyCores t) (b : t.onlyCores u) : s.onlyCores u := by
  obtain ⟨x, rfl⟩ := a
  obtain ⟨y, rfl⟩ := b
  exact ⟨y, rfl⟩

theorem State.putTile_onlyCores (s : State) (d c n : Nat) (x : Tile) : s.onlyCores (s.putTile d c n x) := ⟨_, rfl⟩

theorem State.foldl_onlyCores {α : Type} {F : State → α → State} (hF : ∀ s x, State.onlyCores s (F s x)) (l : List α) (s : State) :
    s.onlyCores (l.foldl F s) := by
  induction l generalizing s with
  | nil => exact s.onlyCores_refl
  | cons x r ih => exact State.onlyCores_trans (hF s x) (ih _)

/-- A walk over the slots `ring` of each of `cores`. -/
def State.overRing (F : State → Nat → Nat → State) (cores ring : List Nat) (s : State) : State :=
  cores.foldl (fun t c => ring.foldl (fun u n => F u c n) t) s

section
variable {F : State → Nat → Nat → State} {d : Nat} {Q : Tile → Prop}

theorem State.overRing_onlyCores (hF : ∀ u c n, State.onlyCores u (F u c n)) (cores ring : List Nat) (s : State) :
    s.onlyCores (State.overRing F cores ring s) :=
  State.foldl_onlyCores (fun _ c => State.foldl_onlyCores (fun u n => hF u c n) _ _) _ _

/-- What no step of the walk takes from a slot holds after it. -/
theorem State.overRing_keeps {c' n' : Nat} (hkeep : ∀ u c n, Q (u.tile d c' n') → Q ((F u c n).tile d c' n')) (cores ring : List Nat) {s : State}
    (h : Q (s.tile d c' n')) : Q ((State.overRing F cores ring s).tile d c' n') := by
  unfold State.overRing
  refine List.foldlRecOn (motive := fun u : State => Q (u.tile d c' n')) _ _ h fun t ht c _ => ?_
  exact List.foldlRecOn (motive := fun u : State => Q (u.tile d c' n')) _ _ ht fun u hu n _ => hkeep u c n hu

/-- What each step brings to its own slot, and none takes away, holds in every slot walked over. -/
theorem State.overRing_reaches (hself : ∀ u c n, Q ((F u c n).tile d c n))
    (hkeep : ∀ u c n c' n', Q (u.tile d c' n') → Q ((F u c n).tile d c' n')) (cores ring : List Nat) (s : State) {m j : Nat} (hm : m ∈ cores)
    (hj : j ∈ ring) : Q ((State.overRing F cores ring s).tile d m j) := by
  obtain ⟨before, after, rfl⟩ := List.append_of_mem hm
  obtain ⟨rb, ra, rfl⟩ := List.append_of_mem hj
  have hsplit : State.overRing F (before ++ m :: after) (rb ++ j :: ra) s = State.overRing F after (rb ++ j :: ra)
      (State.overRing F [m] ra (F (State.overRing F [m] rb (State.overRing F before (rb ++ j :: ra) s)) m j)) := by
    simp [State.overRing, List.foldl_append]
  rw [hsplit]
  exact State.overRing_keeps (fun u c n => hkeep u c n m j) _ _ (State.overRing_keeps (fun u c n => hkeep u c n m j) _ _ (hself _ m j))
end

/-! ### FSUB -/

/-- FSUB flags one slot of its ring. -/
def State.flagSlot (d : Nat) (u : State) (c n : Nat) : State := u.putTile d c n { u.tile d c n with ring := true }

theorem State.flagSlot_ring (d : Nat) (cores ring : List Nat) (s : State) {m j : Nat} (hm : m ∈ cores) (hj : j ∈ ring) :
    ((State.overRing (State.flagSlot d) cores ring s).tile d m j).ring = true := by
  refine State.overRing_reaches (Q := fun y => y.ring = true) (fun u c n => ?_) (fun u c n c' n' h => ?_) cores ring s hm hj
  · rw [State.flagSlot, State.putTile_tile_self]
  · rcases State.putTile_tile_cases u d c n { u.tile d c n with ring := true } d c' n' with ⟨he, -⟩ | he
    · rw [State.flagSlot, he]
    · rw [State.flagSlot, he]
      exact h

/-- The feeder that FSUB binds. -/
def State.boundFeeder (s : State) (k : GKey) (g : Group) (base n : Nat) (bar : Option BarKey) (d : Walk) (fol : Option Nat) : Feeder :=
  { g := k, team := g.team, ctx := s.ctxOf g.team, base := base, len := n, dbase := d.dbase, pitch := d.pitch, tstep := d.tstep,
    sbase := d.sbase, spitch := d.spitch, bbase := d.bbase, nt := d.nt, roleB := d.roleB, pair := if d.pair then fol else none,
    sfmt := d.sfmt, next := 0, bar := bar, stopped := false, filling := false, faulted := false, lastLand := s.clk + 280 }

/-- The state of a walk that is bound to feeder `f`, before its first look. -/
def State.subscribed (s : State) (k : GKey) (g : Group) (c : Clause) (base n : Nat) (bar : Option BarKey) (d : Walk) (occ f : Nat) : State :=
  let fol := s.follower k.die k.core g.team
  ((State.overRing (State.flagSlot k.die) (k.core :: (if d.pair then fol.toList else [])) ((List.range n).map (base + ·)) s).advance k
    { g.acquire s.clk 5 with fd := g.fd + d.nt, irrev := true } c occ none).putFeeder k.die f (s.boundFeeder k g base n bar d fol)

section
variable {s : State} {k : GKey} {g : Group} {c : Clause} {f : EFmt} {x : ELong} {p : Nat}

/-- The words of FSUB pass. -/
def fsubFields (g : Group) (f : EFmt) (x : ELong) (p : Nat) : Prop :=
  pairAt f.p p ∧ f.gs = 0#4 ∧ x.y = 0#8 ∧ x.z1 = 0#2 ∧ x.z2 = 0#6 ∧ x.rsvd = 0#2 ∧ f.q.toNat < 96 ∧ bselOrNone x.bsel = true
    ∧ isScalarOrImm x.x = true ∧ 1 ≤ (g.uniform x.x).toNat ∧ (g.uniform x.x).toNat ≤ 16

/-- With its descriptor read, FSUB subscribes. -/
theorem State.fsubOp_of_read {rs : List Run} {u : State} (hi : s.issues k g c) (hsp : g.speculative = false) (ha : s.acquiring k g = false)
    (hf : fsubFields g f x p) (ht : g.pending (touchScalars (useScalars [useOf f.p true 2, useOf x.x true 1])) = false)
    (hck : s.segCheck (s.whoOf k g) (g.segReg f.gd.toNat) .read true 64 64 [(0, (g.scalar64 p : Int))] = none)
    (hre : s.reachSeg (s.whoOf k g) (s.team? g.team) (g.segReg f.gd.toNat) .read (g.scalar64 p) 64 = (.runs rs, u))
    (hlog : g.logOverlaps (g.segReg f.gd.toNat).sel.toNat ((g.segReg f.gd.toNat).base.toNat + g.scalar64 p) 64 = false)
    (hh : u.readHolds k g rs = false) (hpo : u.spoiled rs = false) :
    s.fsubOp f x = .next ((u.loadRuns rs).2.tableClk.2.subscribe k g c f.q.toNat (g.uniform x.x).toNat
      ((s.team? g.team).bind fun tm => tm.barrier g.team x.bsel) (walkOf (u.loadRuns rs).1) (1 + (u.loadRuns rs).2.tableClk.1)) := by
  obtain ⟨hp, hgs, hy, hz1, hz2, hr, hq, hb, hx, hn1, hn16⟩ := hf
  have hn : ¬ ((g.uniform x.x).toNat < 1 ∨ 16 < (g.uniform x.x).toNat) := by omega
  rw [State.fsubOp, State.withIssuer_of _ hi]
  simp only [ht, hgs, hy, hz1, hz2, hr, Nat.not_le.2 hq, hb, (pairAt_spec hp).1, (pairAt_spec hp).2, hx, hn, hsp, ha, hck, hre, hlog, hh, hpo,
    bne_self_eq_false, decide_false, Bool.not_true, Bool.or_self, Bool.false_eq_true, if_false]
end

section
variable {s : State} {k : GKey} {g : Group} {c : Clause} {base n occ : Nat} {bar : Option BarKey} {d : Walk}

/-- The cores and the slots of a subscription. -/
def State.walkCores (s : State) (k : GKey) (g : Group) (d : Walk) : List Nat :=
  k.core :: (if d.pair = true then (s.follower k.die k.core g.team).toList else [])

/-- FSUB's outcomes once its descriptor is read, with every ring slot clear. -/
theorem State.subscribe_of_clear (hc : ∀ m ∈ s.walkCores k g d, s.ringBad k.die m g.team ((List.range n).map (base + ·)) = none) :
    s.subscribe k g c base n bar d occ =
      if d.bad = true ∨ 255 < g.fd + d.nt then s.raise k g (trapOf .illOperand (auxSpec g 0#8))
      else if d.pair = true ∧ s.follower k.die k.core g.team = none then s.raise k g (trapOf .pair 0#32)
      else match s.freeFeeder k.die with
        | none => s.desched k g .feeder
        | some f => (s.subscribed k g c base n bar d occ f).feederTry k.die f false := by
  have hnone : (s.walkCores k g d).findSome? (fun m => s.ringBad k.die m g.team ((List.range n).map (base + ·))) = none :=
    List.findSome?_eq_none_iff.2 hc
  unfold State.walkCores at hnone
  unfold State.subscribe
  simp only [hnone, Bool.or_eq_true, decide_eq_true_eq, Bool.and_eq_true, Option.isNone_iff_eq_none]
  rfl

theorem State.subscribe_of_ringBad {m : Nat} (hm : m ∈ s.walkCores k g d) {e : Nat × Tile}
    (he : s.ringBad k.die m g.team ((List.range n).map (base + ·)) = some e) :
    ∃ y : Nat × Tile, s.subscribe k g c base n bar d occ = s.raise k g (slotTrap (y.1 % 128) y.2) := by
  obtain ⟨y, hy⟩ : ∃ y, (s.walkCores k g d).findSome? (fun m => s.ringBad k.die m g.team ((List.range n).map (base + ·))) = some y := by
    rw [← Option.isSome_iff_exists, List.findSome?_isSome_iff]
    exact ⟨m, hm, by rw [he]; rfl⟩
  refine ⟨y, ?_⟩
  unfold State.walkCores at hy
  unfold State.subscribe
  simp only [hy]

theorem State.subscribed_spec (s : State) (k : GKey) (g : Group) (c : Clause) (base n : Nat) (bar : Option BarKey) (d : Walk) (occ f : Nat) :
    ∃ h, (s.subscribed k g c base n bar d occ f).group? k = some h ∧ h.fd = g.fd + d.nt ∧ h.sc = g.sc ∧ h.regs = g.regs ∧ h.well = g.well
      ∧ h.pr = g.pr ∧ h.seg = g.seg ∧ (s.subscribed k g c base n bar d occ f).mem = s.mem
      ∧ ((s.subscribed k g c base n bar d occ f).die k.die).feeders.find f
          = some (s.boundFeeder k g base n bar d (s.follower k.die k.core g.team))
      ∧ ∀ m ∈ s.walkCores k g d, ∀ j ∈ (List.range n).map (base + ·),
          ((s.subscribed k g c base n bar d occ f).tile k.die m j).ring = true := by
  obtain ⟨cs, hcs⟩ := State.overRing_onlyCores (F := State.flagSlot k.die) (fun u c n => State.putTile_onlyCores u k.die c n _)
    (s.walkCores k g d) ((List.range n).map (base + ·)) s
  refine ⟨_, State.advance_group? _ k _ c occ none, ?_, ?_, ?_, ?_, ?_, ?_, ?_, ?_, fun m hm j hj => ?_⟩
  · rw [Group.stepped_eq]
  · rw [Group.stepped_eq]; rfl
  · rw [Group.stepped_eq]; rfl
  · rw [Group.stepped_eq]; rfl
  · rw [Group.stepped_eq]; rfl
  · rw [Group.stepped_eq]; rfl
  · show (State.overRing (State.flagSlot k.die) (s.walkCores k g d) ((List.range n).map (base + ·)) s).mem = s.mem
    rw [hcs]
    rfl
  · rw [State.subscribed, State.putFeeder, State.updDie_die_self]
    exact Tbl.find_put_self ..
  · refine Eq.trans ?_ (State.flagSlot_ring k.die (s.walkCores k g d) ((List.range n).map (base + ·)) s hm hj)
    exact congrArg Tile.ring (State.advance_tile ..)
end

/-! ### FEND -/

/-- FEND clears one slot of its ring, where the slot is its team's. -/
def State.clearSlot (d team : Nat) (u : State) (c n : Nat) : State :=
  if (u.tile d c n).owner = team then u.putTile d c n { u.tile d c n with ring := false, ringEnd := false } else u

theorem State.clearSlot_onlyCores (d team : Nat) (u : State) (c n : Nat) : u.onlyCores (u.clearSlot d team c n) := by
  unfold State.clearSlot
  split
  · exact State.putTile_onlyCores ..
  · exact u.onlyCores_refl

theorem State.clearSlot_cases (d team : Nat) (u : State) (c n c' n' : Nat) :
    ((u.clearSlot d team c n).tile d c' n').ring = false ∧ ((u.clearSlot d team c n).tile d c' n').owner = (u.tile d c' n').owner
      ∨ (u.clearSlot d team c n).tile d c' n' = u.tile d c' n' := by
  unfold State.clearSlot
  split
  · rcases State.putTile_tile_cases u d c n { u.tile d c n with ring := false, ringEnd := false } d c' n' with ⟨h, h'⟩ | h
    · left
      rw [h, h']
      exact ⟨rfl, rfl⟩
    · exact .inr h
  · exact .inr rfl

/-- FEND's walk leaves no slot of its team in the ring. -/
theorem State.clearSlot_ring (d team : Nat) (cores ring : List Nat) (s : State) {m j : Nat} (hm : m ∈ cores) (hj : j ∈ ring)
    (ho : (s.tile d m j).owner = team) : ((State.overRing (fun u => u.clearSlot d team) cores ring s).tile d m j).ring = false := by
  have howner : ((State.overRing (fun u => u.clearSlot d team) cores ring s).tile d m j).owner = team :=
    State.overRing_keeps (Q := fun y => y.owner = team) (fun u c n h => by
      rcases State.clearSlot_cases d team u c n m j with ⟨-, he⟩ | he
      · rw [he]
        exact h
      · rw [he]
        exact h) cores ring ho
  refine State.overRing_reaches (Q := fun y => y.owner = team → y.ring = false) (fun u c n h => ?_) (fun u c n c' n' hk h => ?_) cores ring s hm hj
    howner
  · unfold State.clearSlot at h ⊢
    split at h
    next ht => rw [if_pos ht, State.putTile_tile_self]
    next ht => exact absurd h ht
  · rcases State.clearSlot_cases d team u c n c' n' with ⟨hr, -⟩ | he
    · exact hr
    · rw [he] at h ⊢
      exact hk h

section
variable {s : State} {k : GKey} {g : Group} {c : Clause}

/-- The feeder of the group's team at its core whose ring base is the field P. -/
def Group.ownFeeder (g : Group) (k : GKey) (c : Clause) (e : Nat × Feeder) : Bool :=
  e.2.team == g.team && e.2.g.core == k.core && e.2.base == (g.fieldP c).toNat && feederLive e.1 e.2

theorem State.fendOp_eq (hi : s.issues k g c) (hsp : g.speculative = false) (ha : s.acquiring k g = false) (hP : (g.fieldP c).toNat < 96) :
    s.fendOp = .next (let s1 := match (s.die k.die).feeders.find? (g.ownFeeder k c) with
        | some (f, x) => s.feederEnd k.die f x
        | none => s
      s1.advance k ((s1.group? k).getD g) c 1 none) := by
  have hlow : ((g.fieldP c).extractLsb' 0 7).toNat = (g.fieldP c).toNat := by
    rw [toNat_extractLsb'_eq_div_mod]
    omega
  have hhigh : ((g.fieldP c).extractLsb' 7 17 != 0#17) = false := by
    rw [show ((g.fieldP c).extractLsb' 7 17 != 0#17) = ((g.fieldP c).extractLsb' 7 17 != 0) from rfl, extractLsb'_bne_zero]
    simp only [decide_eq_false_iff_not]
    omega
  rw [State.fendOp, State.withIssuer_of _ hi]
  simp only [hlow, hhigh, Nat.not_le.2 hP, hsp, ha, decide_false, Bool.or_self, Bool.false_eq_true, if_false]
  rfl

/-- A feeder's end lowers the FD counter of its group, and changes nothing else of any group or state. -/
theorem State.fdFall_spec (hg : s.group? k = some g) {z : Feeder} (hz : z.team = g.team) (n : Nat) :
    (∃ gs, s.fdFall z n = s.setGroups gs)
    ∧ ∃ m, (s.fdFall z n).group? k = some { g with fd := m } ∧ (z.g = k → m = g.fd - n) := by
  unfold State.fdFall State.updGroup
  by_cases hk : keyNum k = keyNum z.g
  · have hg' : s.group? z.g = some g := by
      unfold State.group? at hg ⊢
      rw [← hk]
      exact hg
    rw [hg', hz]
    dsimp only
    rw [if_pos rfl]
    refine ⟨⟨_, rfl⟩, g.fd - n, ?_, fun _ => rfl⟩
    unfold State.group? State.putGroup
    rw [hk]
    exact Tbl.find_put_self ..
  · have hne : z.g ≠ k := fun h => hk (by rw [h])
    split
    · exact ⟨⟨_, rfl⟩, g.fd, (State.putGroup_group?_ne _ _ hk).trans hg, fun h => absurd h hne⟩
    · exact ⟨⟨s.groups, rfl⟩, g.fd, hg, fun h => absurd h hne⟩

/-- What the end of a feeder leaves: the FD counter of its group falls, its ring's flags clear, and it is free or stopped. -/
theorem State.feederEnd_spec (hg : s.group? k = some g) {d fd : Nat} {z : Feeder} (hz : z.team = g.team) :
    (∃ n, (s.feederEnd d fd z).group? k = some { g with fd := n }
        ∧ (z.g = k → n = g.fd - (z.nt - z.next - (if z.filling = true then 1 else 0))))
      ∧ (s.feederEnd d fd z).mem = s.mem
      ∧ (z.filling = false → ((s.feederEnd d fd z).die d).feeders = (s.die d).feeders.del fd)
      ∧ (z.filling = true → ((s.feederEnd d fd z).die d).feeders = (s.die d).feeders.put fd { z with stopped := true })
      ∧ ∀ m ∈ z.cores, ∀ j ∈ z.ring, (s.tile d m j).owner = g.team → ((s.feederEnd d fd z).tile d m j).ring = false := by
  obtain ⟨s1, hs1⟩ : ∃ s1, s1 = s.fdFall z (z.nt - z.next - bitOf z.filling) := ⟨_, rfl⟩
  obtain ⟨s2, hs2⟩ : ∃ s2, s2 = State.overRing (fun u => u.clearSlot d z.team) z.cores z.ring s1 := ⟨_, rfl⟩
  have hend : s.feederEnd d fd z = if z.filling then (s2.unpost (.faultRetry (.feeder d fd))).putFeeder d fd { z with stopped := true }
      else (s2.unpost (.faultRetry (.feeder d fd))).dropFeeder d fd := by
    rw [hs2, hs1]
    rfl
  obtain ⟨cs, hcs⟩ : s1.onlyCores s2 := by
    rw [hs2]
    exact State.overRing_onlyCores (fun u c n => State.clearSlot_onlyCores d z.team u c n) _ _ _
  obtain ⟨⟨gs, hgs⟩, n, hgr, hn⟩ := State.fdFall_spec hg hz (z.nt - z.next - bitOf z.filling)
  rw [← hs1] at hgs hgr
  have hdie : s2.die d = s.die d := by rw [hcs, hgs]; rfl
  have hgroup : s2.group? k = some { g with fd := n } := by rw [hcs]; exact hgr
  have hmem : s2.mem = s.mem := by rw [hcs, hgs]; rfl
  have hring : ∀ m ∈ z.cores, ∀ j ∈ z.ring, (s.tile d m j).owner = g.team → (s2.tile d m j).ring = false := fun m hm j hj ho => by
    rw [hs2]
    refine State.clearSlot_ring d z.team _ _ s1 hm hj ?_
    rw [hgs, hz]
    exact ho
  refine ⟨⟨n, ?_, hn⟩, ?_, fun hf => ?_, fun hf => ?_, fun m hm j hj ho => ?_⟩
  · rw [hend]
    split <;> exact hgroup
  · rw [hend]
    split <;> exact hmem
  · rw [hend, hf, if_neg Bool.false_ne_true, State.dropFeeder, State.updDie_die_self, ← hdie]
    rfl
  · rw [hend, hf, if_pos rfl, State.putFeeder, State.updDie_die_self, ← hdie]
    rfl
  · rw [hend]
    split <;> exact hring m hm j hj ho
end

/-- Settles O36: FSUB is `subscribe` once its descriptor is read, and FEND the end of the one feeder it names. -/
theorem feederInstructionResults : Obligations.FeederInstructionResults := by
  refine ⟨?_, ?_⟩
  · intro f x s k g c p rs u hi hsp ha hp ht hgs hy hz1 hz2 hr hq hb hx hn1 hn16 hck hre hlog hh hpo v d n ring fol cores clear
    have he : exec (.fsubFeeder f x) s = .next (v.subscribe k g c f.q.toNat n ((s.team? g.team).bind fun tm => tm.barrier g.team x.bsel) d
        (1 + (u.loadRuns rs).2.tableClk.1)) :=
      State.fsubOp_of_read hi hsp ha ⟨hp, hgs, hy, hz1, hz2, hr, hq, hb, hx, hn1, hn16⟩ ht hck hre hlog hh hpo
    have hclear (h : clear) := State.subscribe_of_clear (c := c) (bar := (s.team? g.team).bind fun tm => tm.barrier g.team x.bsel)
      (occ := 1 + (u.loadRuns rs).2.tableClk.1) (show ∀ m ∈ v.walkCores k g d, v.ringBad k.die m g.team ring = none from h)
    rw [he]
    refine ⟨fun hcl hbad hfd hpair fd hfree => ?_, fun hcl hbad hfd hpair hfree => ?_, fun m hm e hbad => ?_, fun hcl hbad => ?_,
      fun hcl hbad hfd hpair hfol => ?_⟩
    · obtain ⟨h, hgr, hfdn, hsc, hregs, hwell, hpr, hseg, hmem, hfeed, hring⟩ := v.subscribed_spec k g c f.q.toNat n
        ((s.team? g.team).bind fun tm => tm.barrier g.team x.bsel) d (1 + (u.loadRuns rs).2.tableClk.1) fd
      refine ⟨_, h, _, ?_, hgr, hfdn, hsc, hregs, hwell, hpr, hseg, hmem, hfeed, rfl, rfl, rfl, rfl, rfl, rfl, rfl, rfl, rfl, rfl, rfl, rfl, rfl,
        rfl, rfl, rfl, hring⟩
      rw [hclear hcl, if_neg (by simp [hbad]; omega), if_neg fun hp => hpair hp.1 hp.2, hfree]
    · rw [hclear hcl, if_neg (by simp [hbad]; omega), if_neg fun hp => hpair hp.1 hp.2, hfree]
    · obtain ⟨y, hy⟩ := State.subscribe_of_ringBad (c := c) (bar := (s.team? g.team).bind fun tm => tm.barrier g.team x.bsel)
        (occ := 1 + (u.loadRuns rs).2.tableClk.1) (show m ∈ v.walkCores k g d from hm) hbad
      exact ⟨y, by rw [hy]⟩
    · rw [hclear hcl, if_pos hbad]
    · rw [hclear hcl, if_neg (by simp [hbad]; omega), if_pos ⟨hpair, hfol⟩]
  · intro s k g c hi hsp ha hP mine
    rw [exec_fend, State.fendOp_eq hi hsp ha hP]
    refine ⟨fun hnone => ?_, fun fd z hz hsorted => ?_⟩
    · rw [show (s.die k.die).feeders.find? (g.ownFeeder k c) = none from hnone]
      simp only [hi.2.1, Option.getD_some]
    · rw [show (s.die k.die).feeders.find? (g.ownFeeder k c) = some (fd, z) from hz]
      have hmine : g.ownFeeder k c (fd, z) = true := List.find?_some (show (s.die k.die).feeders.find? (g.ownFeeder k c) = some (fd, z) from hz)
      have hteam : z.team = g.team := by
        simp only [Group.ownFeeder, Bool.and_eq_true, beq_iff_eq] at hmine
        exact hmine.1.1.1
      obtain ⟨⟨n, hgr, hn⟩, hmem, hdel, hput, hring⟩ := State.feederEnd_spec hi.2.1 (d := k.die) (fd := fd) hteam
      simp only [hgr, Option.getD_some]
      refine ⟨_, _, rfl, State.advance_group? _ k _ c 1 none, hmem, ?_, ?_, ?_, ?_, fun hk => ?_, fun hf => ?_, fun hf => ?_,
        fun m hm j hj ho => ?_⟩
      · rw [Group.stepped_eq]
      · rw [Group.stepped_eq]
      · rw [Group.stepped_eq]
      · rw [Group.stepped_eq]
      · rw [Group.stepped_eq]
        exact hn hk
      · exact (congrArg (fun t : Tbl Feeder => t.find fd) (hdel hf)).trans (Tbl.find_del_self _ hsorted)
      · exact (congrArg (fun t : Tbl Feeder => t.find fd) (hput hf)).trans (Tbl.find_put_self ..)
      · exact (congrArg Tile.ring (State.advance_tile ..)).trans (hring m hm j hj ho)

end Sys2Proof.Machine
end

section
namespace Sys2Proof.Machine

/-! ## The mailbox (O44) -/

/-- A table that a walk over keys has filled reads as what the walk brought there. -/
theorem get_foldl_put {α : Type} (f : Nat → α) (dflt : α) (l : List Nat) (t : Tbl α) {d : Nat} (hd : d ∈ l) :
    (l.foldl (fun (t : Tbl α) d => t.put d (f d)) t).get dflt d = f d := by
  induction l using List.reverseRecOn with
  | nil => cases hd
  | append_singleton l x ih =>
    rw [List.foldl_append, List.foldl_cons, List.foldl_nil]
    by_cases hx : d = x
    · rw [hx]
      exact Tbl.get_put_self ..
    · rw [Tbl.get_put_ne _ _ _ hx]
      exact ih (by simpa [hx] using hd)

section
variable {s : State} {n : Nat}

theorem State.mailRead_of_refused (h : Config.hostRefuses s.freeCtr = true) : s.mailRead n = (none, s.setFreeCtr (s.freeCtr + 1)) := by
  rw [State.mailRead, h]
  rfl

theorem State.mailRead_of_answered (h : Config.hostRefuses s.freeCtr = false) :
    s.mailRead n = (some (s.hostBytes noPasid s.mailAddr n), s.setFreeCtr (s.freeCtr + 1)) := by
  rw [State.mailRead, h]
  rfl

/-- How a command ends. -/
theorem State.mailDone_spec (s : State) (e : Byte) : (s.mailDone e).boot.mbBusy = false ∧ (s.mailDone e).boot.mbDone = true
    ∧ (s.mailDone e).boot.merr = e ∧ (s.mailDone e).mem = s.mem ∧ (s.mailDone e).groups = s.groups := ⟨rfl, rfl, rfl, rfl, rfl⟩

theorem State.mailDone_mbRes (s : State) (e : Byte) : (s.mailDone e).boot.mbRes = s.boot.mbRes := rfl

/-- The state with the MARGIN words of the dies in `l` in the result registers. -/
def State.marginsGiven (s : State) (l : List Nat) : State :=
  s.setBoot { s.boot with mbRes := l.foldl (fun (t : Tbl Word) d => t.put d (s.marginWord d)) s.boot.mbRes }

theorem State.mailMargin_eq (s : State) : s.mailMargin = (s.marginsGiven (List.range Config.dies)).mailDone 0#8 := rfl

theorem State.mailDone_marginsGiven_spec (s : State) (l : List Nat) :
    ((s.marginsGiven l).mailDone 0#8).boot.mbBusy = false ∧ ((s.marginsGiven l).mailDone 0#8).boot.mbDone = true
      ∧ ((s.marginsGiven l).mailDone 0#8).boot.merr = 0#8 ∧ ((s.marginsGiven l).mailDone 0#8).mem = s.mem
      ∧ ((s.marginsGiven l).mailDone 0#8).groups = s.groups
      ∧ ∀ d ∈ l, ((s.marginsGiven l).mailDone 0#8).boot.mbRes.get 0#32 d = s.marginWord d :=
  ⟨rfl, rfl, rfl, rfl, rfl, fun _ hd => get_foldl_put s.marginWord 0#32 l s.boot.mbRes hd⟩

/-! ### STAGEBITS -/

/-- The boot registers once STAGEBITS has written `img`. -/
def Boot.imageStored (b : Boot) (img : List Byte) : Boot :=
  { b with copyA := if b.loaded == some false then b.copyA else img, copyB := if b.loaded == some false then img else b.copyB,
           mbRes := b.mbRes.put 0 (if b.loaded == some false then 1#32 else 0#32) }

theorem State.mailStagebits_of_refused (hn : (s.boot.mbArg.get 0#32 2).toNat ≠ 0) (h : Config.hostRefuses s.freeCtr = true) :
    s.mailStagebits = (s.setFreeCtr (s.freeCtr + 1)).mailDone 3#8 := by
  unfold State.mailStagebits
  simp only [if_neg hn, State.mailRead_of_refused h]

theorem State.mailStagebits_of_answered (hn : (s.boot.mbArg.get 0#32 2).toNat ≠ 0) (h : Config.hostRefuses s.freeCtr = false) :
    s.mailStagebits = let img := s.hostBytes noPasid s.mailAddr (s.boot.mbArg.get 0#32 2).toNat
      if s.imageOk img = false then (s.setFreeCtr (s.freeCtr + 1)).mailDone 4#8
      else if Config.flashFails (s.freeCtr + 1) = true then (s.setFreeCtr (s.freeCtr + 1 + 1)).mailDone 7#8
      else ((s.setFreeCtr (s.freeCtr + 1 + 1)).setBoot (s.boot.imageStored img)).mailDone 0#8 := by
  unfold State.mailStagebits
  simp only [if_neg hn, State.mailRead_of_answered h, Bool.not_eq_true']
  rfl

/-! ### ENROL and REVOKE -/

/-- What ENROL and REVOKE write in the slot of an accepted request. -/
def Boot.newSlot (b : Boot) (bs : List Byte) (enrol : Bool) : KeySlot :=
  match enrol, b.keys.find (fieldOf bs 0x20 1) with
  | false, some (.inUse k) => .revoked k
  | _, _ => .inUse (BitVec.ofNat 256 (fieldOf bs 0 32))

/-- The boot registers once a key request is carried out. -/
def Boot.keyWritten (b : Boot) (bs : List Byte) (enrol : Bool) : Boot :=
  { b with keys := b.keys.put (fieldOf bs 0x20 1) (b.newSlot bs enrol), ctr := BitVec.ofNat 64 (fieldOf bs 0x28 8) }

theorem State.mailKey_of_refused (enrol : Bool) (h : Config.hostRefuses s.freeCtr = true) :
    s.mailKey enrol = (s.setFreeCtr (s.freeCtr + 1)).mailDone 3#8 := by
  unfold State.mailKey
  rw [State.mailRead_of_refused h]

theorem State.mailKey_of_answered (enrol : Bool) (h : Config.hostRefuses s.freeCtr = false) :
    s.mailKey enrol = let bs := s.hostBytes noPasid s.mailAddr 128
      if s.requestErr bs enrol ≠ 0#8 then (s.setFreeCtr (s.freeCtr + 1 + 1)).mailDone (s.requestErr bs enrol)
      else if Config.flashFails (s.freeCtr + 1) = true then (s.setFreeCtr (s.freeCtr + 1 + 1)).mailDone 7#8
      else ((s.setFreeCtr (s.freeCtr + 1 + 1)).setBoot (s.boot.keyWritten bs enrol)).mailDone 0#8 := by
  unfold State.mailKey
  rw [State.mailRead_of_answered h]
  rfl

/-- An accepted request names a slot that suits it. -/
theorem State.slotSuits_of_accepted {bs : List Byte} {enrol : Bool} (h : s.requestErr bs enrol = 0#8) :
    s.slotSuits (fieldOf bs 0x20 1) enrol = true := by
  unfold State.requestErr at h
  grind

theorem State.slot_of_revoke {m : Nat} (h : s.slotSuits m false = true) : ∃ key, s.boot.keys.find m = some (.inUse key) := by
  unfold State.slotSuits at h
  split at h
  · cases h
  · cases h
  next key _ => exact ⟨key, ‹_›⟩
  · cases h
end

/-- What an accepted key request leaves: its own slot as it asks, every other slot as it was. -/
theorem State.keyWritten_spec {s : State} {bs : List Byte} {enrol : Bool} (h : s.requestErr bs enrol = 0#8) :
    (enrol = true → (s.boot.keyWritten bs enrol).keys.find (fieldOf bs 0x20 1) = some (.inUse (BitVec.ofNat 256 (fieldOf bs 0 32))))
    ∧ (enrol = false → ∃ key, s.boot.keys.find (fieldOf bs 0x20 1) = some (.inUse key)
        ∧ (s.boot.keyWritten bs enrol).keys.find (fieldOf bs 0x20 1) = some (.revoked key))
    ∧ ∀ m, m ≠ fieldOf bs 0x20 1 → (s.boot.keyWritten bs enrol).keys.find m = s.boot.keys.find m := by
  have hself : (s.boot.keyWritten bs enrol).keys.find (fieldOf bs 0x20 1) = some (s.boot.newSlot bs enrol) := Tbl.find_put_self ..
  refine ⟨fun he => ?_, fun he => ?_, fun m hm => Tbl.find_put_ne _ _ hm⟩
  · rw [hself, he]
    rfl
  · subst he
    obtain ⟨key, hk⟩ := State.slot_of_revoke (State.slotSuits_of_accepted h)
    refine ⟨key, hk, ?_⟩
    rw [hself]
    unfold Boot.newSlot
    simp only [hk]

/-- Settles O44: each command is one chain of tests, whose last step writes the boot registers. -/
theorem mailboxResults : Obligations.MailboxResults := by
  intro s done
  refine ⟨fun hs => ?_, fun hs => ?_, fun b hs => ?_, ?_, ?_⟩
  · have he : exec .stage s = .next s.mailStage := exec_of_subject hs
    exact ⟨_, he, State.mailDone_spec .., Tbl.get_put_self ..⟩
  · have he : exec .margin s = .next s.mailMargin := exec_of_subject hs
    rw [State.mailMargin_eq] at he
    obtain ⟨hbusy, hdone, herr, hmem, hgroups, hwords⟩ := s.mailDone_marginsGiven_spec (List.range Config.dies)
    generalize (s.marginsGiven (List.range Config.dies)).mailDone 0#8 = t at *
    exact ⟨t, he, ⟨hbusy, hdone, herr, hmem, hgroups⟩, fun d hd => hwords d (List.mem_range.2 hd)⟩
  · have he : exec .unknownMailboxCommand s = .next (s.mailDone 1#8) := exec_of_subject hs
    exact ⟨_, he, State.mailDone_spec ..⟩
  · intro hs n img
    have he : exec .stagebits s = .next s.mailStagebits := exec_of_subject hs
    refine ⟨fun hn => ⟨_, he, ?_⟩, fun hn hr => ⟨_, he, ?_⟩, fun hn hr hi => ⟨_, he, ?_⟩, fun hn hr hi hf => ⟨_, he, ?_⟩,
      fun hn hr hi hf => ⟨_, he, ?_⟩⟩
    · unfold State.mailStagebits
      rw [if_pos hn]
      exact State.mailDone_spec ..
    · rw [State.mailStagebits_of_refused (Nat.ne_of_gt hn) hr]
      exact State.mailDone_spec ..
    · rw [State.mailStagebits_of_answered (Nat.ne_of_gt hn) hr]
      dsimp only
      rw [if_pos (show s.imageOk img = false from hi)]
      exact State.mailDone_spec ..
    · rw [State.mailStagebits_of_answered (Nat.ne_of_gt hn) hr]
      dsimp only
      rw [if_neg (show ¬ s.imageOk img = false by simp [hi]), if_pos hf]
      exact ⟨State.mailDone_spec .., rfl, rfl⟩
    · rw [State.mailStagebits_of_answered (Nat.ne_of_gt hn) hr]
      dsimp only
      rw [if_neg (show ¬ s.imageOk img = false by simp [hi]), if_neg (by simp [hf])]
      refine ⟨State.mailDone_spec .., fun hl => ?_, fun hl => ?_⟩
      · exact ⟨if_pos (by simp [hl]), if_pos (by simp [hl])⟩
      · exact ⟨if_neg (by simpa using hl), if_neg (by simpa using hl)⟩
  · intro i enrol hforms bs e
    have he : exec i s = .next (s.mailKey enrol) := by
      rcases hforms with ⟨rfl, rfl, hs⟩ | ⟨rfl, rfl, hs⟩
      · exact exec_of_subject hs
      · exact exec_of_subject hs
    refine ⟨fun hr => ⟨_, he, ?_⟩, fun hr hne => ⟨_, he, ?_⟩, fun hr hz hf => ⟨_, he, ?_⟩, fun hr hz hf => ⟨_, he, ?_⟩⟩
    · rw [State.mailKey_of_refused enrol hr]
      exact ⟨State.mailDone_spec .., rfl⟩
    · rw [State.mailKey_of_answered enrol hr]
      dsimp only
      rw [if_pos hne]
      exact ⟨State.mailDone_spec .., rfl, rfl⟩
    · rw [State.mailKey_of_answered enrol hr]
      dsimp only
      rw [if_neg (not_not.2 hz), if_pos hf]
      exact ⟨State.mailDone_spec .., rfl, rfl⟩
    · obtain ⟨henrol, hrevoke, hother⟩ := State.keyWritten_spec (bs := bs) (enrol := enrol) hz
      rw [State.mailKey_of_answered enrol hr]
      dsimp only
      rw [if_neg (not_not.2 hz), if_neg (by simp [hf])]
      exact ⟨State.mailDone_spec .., henrol, hrevoke, hother, rfl⟩

end Sys2Proof.Machine
end

section
namespace Sys2Proof.Machine

/-! ## Partitions and links (O45) -/

/-! ### APPLY and RETIRE -/

/-- The slots in force once APPLY has taken those of the dies in `l`. -/
def State.slotsTaken (s : State) (l : List Nat) : Tbl (BitVec 5) :=
  l.foldl (fun (t : Tbl (BitVec 5)) d => t.put d (BitVec.ofNat 5 (s.stagedSlot d))) []

theorem State.slotsTaken_get (s : State) {l : List Nat} {d : Nat} (hd : d ∈ l) : ((s.slotsTaken l).get 1#5 d).toNat = s.stagedSlot d := by
  have h : (s.slotsTaken l).get 1#5 d = BitVec.ofNat 5 (s.stagedSlot d) := get_foldl_put (fun d => BitVec.ofNat 5 (s.stagedSlot d)) 1#5 l [] hd
  rw [h, BitVec.toNat_ofNat]
  exact Nat.mod_eq_of_lt (s.fabric.pslot.get 1#5 d).isLt

theorem State.apply_of_err {s : State} {e : Byte × Nat} (h : s.applyErr = some e) : s.apply = s.pcmdDone e := by
  unfold State.apply
  rw [h]

theorem State.apply_of_good {s : State} (h : s.applyErr = none) :
    s.apply = (s.setFabric { s.fabric with cslot := s.slotsTaken (List.range Config.dies), unjoined := false }).pcmdDone (0#8, 0) := by
  unfold State.apply
  rw [h]
  rfl

/-- A walk that writes `w` where `p` holds. -/
theorem get_foldl_put_if {α : Type} (p : Nat → Prop) [DecidablePred p] (w dflt : α) (ls : List Nat) (t : Tbl α) (l : Nat) :
    (ls.foldl (fun (u : Tbl α) l => if p l then u.put l w else u) t).get dflt l = if l ∈ ls ∧ p l then w else t.get dflt l := by
  induction ls using List.reverseRecOn with
  | nil => simp
  | append_singleton ls x ih =>
    rw [List.foldl_append, List.foldl_cons, List.foldl_nil]
    by_cases hx : l = x
    · subst hx
      by_cases hp : p l
      · rw [if_pos hp, if_pos ⟨by simp, hp⟩]
        exact Tbl.get_put_self ..
      · rw [if_neg hp, ih, if_neg fun h => hp h.2, if_neg fun h => hp h.2]
    · have hmem : l ∈ ls ++ [x] ↔ l ∈ ls := by simp [hx]
      simp only [hmem]
      rw [← ih]
      split
      · exact Tbl.get_put_ne _ _ _ hx
      · rfl

/-- The link `l` ends at die `d`. -/
def endsAt (d l : Nat) : Prop := (linkEnds l).1 = d ∨ (linkEnds l).2 = d

/-- A firewall whose link ends at a retired die. -/
def Firewall.shut : Firewall := { Firewall.reset with closed := true, transit := false }

/-- The firewalls of a module whose retired dies are `ds`. -/
def retiredWalls (ds : List Nat) : Tbl Firewall :=
  ds.foldl (fun (t : Tbl Firewall) d => (List.range 31).foldl (fun (u : Tbl Firewall) l =>
    if (linkEnds l).1 = d ∨ (linkEnds l).2 = d then u.put l Firewall.shut else u) t) []

theorem retiredWalls_get {ds : List Nat} {d l : Nat} (hd : d ∈ ds) (hl : l < 31) (h : endsAt d l) :
    (retiredWalls ds).get Firewall.reset l = Firewall.shut := by
  unfold retiredWalls
  induction ds using List.reverseRecOn with
  | nil => cases hd
  | append_singleton ds x ih =>
    rw [List.foldl_append, List.foldl_cons, List.foldl_nil, get_foldl_put_if (fun l => (linkEnds l).1 = x ∨ (linkEnds l).2 = x)]
    split
    · rfl
    next hx =>
      refine ih ?_
      rcases List.mem_append.1 hd with hd | hd
      · exact hd
      · obtain rfl := List.mem_singleton.1 hd
        exact absurd ⟨List.mem_range.2 hl, h⟩ hx

/-- What a reset leaves of partitions and firewalls. -/
theorem State.cleared_fabric (s : State) : s.cleared.fabric.walls = retiredWalls s.boot.retired
    ∧ s.cleared.fabric.cslot = s.boot.retired.foldl (fun (t : Tbl (BitVec 5)) d => t.put d 0#5) [] := ⟨rfl, rfl⟩

theorem State.setWall_wall_self (s : State) (l : Nat) (c t : Bool) : (s.setWall l c t).wall l = { s.wall l with
    closed := c, transit := t, before := (s.fabric.flits.get [] (2 * l)).length + (s.fabric.flits.get [] (2 * l + 1)).length } := by
  refine (Tbl.get_put_self _ _ _ _).trans ?_
  simp only [List.length_map]
  rfl

theorem State.setWall_wall_ne (s : State) {l m : Nat} (c t : Bool) (h : m ≠ l) : (s.setWall l c t).wall m = s.wall m := Tbl.get_put_ne _ _ _ h

/-- The second state is the first but for the fabric. -/
def State.onlyFabric (s t : State) : Prop := ∃ f, t = s.setFabric f

theorem State.onlyFabric_trans {s t u : State} (a : s.onlyFabric t) (b : t.onlyFabric u) : s.onlyFabric u := by
  obtain ⟨x, rfl⟩ := a
  obtain ⟨y, rfl⟩ := b
  exact ⟨y, rfl⟩

theorem State.onlyFabric_foldl {α : Type} {F : State → α → State} (hF : ∀ s x, State.onlyFabric s (F s x)) (l : List α) (s : State) :
    s.onlyFabric (l.foldl F s) := by
  induction l generalizing s with
  | nil => exact ⟨s.fabric, rfl⟩
  | cons x r ih => exact State.onlyFabric_trans (hF s x) (ih _)

/-- RETIRE shuts the links of its die. -/
def State.shutLinks (s : State) (d : Nat) : State :=
  (List.range 31).foldl (fun t l => if (linkEnds l).1 = d ∨ (linkEnds l).2 = d then t.setWall l true false else t) s

theorem State.shutLinks_onlyFabric (s : State) (d : Nat) : s.onlyFabric (s.shutLinks d) :=
  State.onlyFabric_foldl (fun t l => by
    split
    · exact ⟨_, rfl⟩
    · exact ⟨t.fabric, rfl⟩) _ _

theorem State.shutLinks_wall (s : State) {d l : Nat} (hl : l < 31) (h : endsAt d l) :
    ((s.shutLinks d).wall l).closed = true ∧ ((s.shutLinks d).wall l).transit = false := by
  have key : ∀ ls : List Nat, l ∈ ls →
    ((ls.foldl (fun t l => if (linkEnds l).1 = d ∨ (linkEnds l).2 = d then t.setWall l true false else t) s).wall l).closed
      = true ∧
        ((ls.foldl (fun t l => if (linkEnds l).1 = d ∨ (linkEnds l).2 = d then t.setWall l true false else t) s).wall l).transit = false := by
    intro ls hin
    induction ls using List.reverseRecOn with
    | nil => cases hin
    | append_singleton ls x ih =>
      rw [List.foldl_append, List.foldl_cons, List.foldl_nil]
      by_cases hx : l = x
      · subst hx
        rw [if_pos (show (linkEnds l).1 = d ∨ (linkEnds l).2 = d from h), State.setWall_wall_self]
        exact ⟨rfl, rfl⟩
      · have hls := ih (by simpa [hx] using hin)
        split
        · rw [State.setWall_wall_ne _ _ _ hx]
          exact hls
        · exact hls
  exact key _ (List.mem_range.2 hl)

/-- RETIRE shuts the ports of its die. -/
def State.shutPorts (s : State) (d : Nat) : State :=
  (List.range 24).foldl (fun t p => if portDie p = d then t.putPort p { t.port p with oen := false, ien := false } else t) s

theorem State.shutPorts_spec (s : State) (d : Nat) : s.onlyFabric (s.shutPorts d) ∧ (s.shutPorts d).fabric.walls = s.fabric.walls := by
  unfold State.shutPorts
  generalize List.range 24 = ls
  induction ls using List.reverseRecOn with
  | nil => exact ⟨⟨s.fabric, rfl⟩, rfl⟩
  | append_singleton ls x ih =>
    rw [List.foldl_append, List.foldl_cons, List.foldl_nil]
    split
    · exact ⟨State.onlyFabric_trans ih.1 ⟨_, rfl⟩, ih.2⟩
    · exact ih

/-- A die that retires, but for what follows where it is die 0. -/
def State.retired (s : State) (d : Nat) : State :=
  let s1 := s.setBoot { s.boot with retired := if s.boot.retired.contains d then s.boot.retired else s.boot.retired ++ [d] }
  let s3 := (s1.shutLinks d).shutPorts d
  s3.setFabric { s3.fabric with pslot := s3.fabric.pslot.put d 0#5, cslot := s3.fabric.cslot.put d 0#5 }

theorem State.retireDie_eq (s : State) (d : Nat) : s.retireDie d = if d = 0 then (s.retired d).cleared else s.retired d := rfl

theorem State.retired_spec (s : State) (d : Nat) : d ∈ (s.retired d).boot.retired ∧ (s.retired d).slotOf d = 0
    ∧ (∀ l < 31, endsAt d l → ((s.retired d).wall l).closed = true ∧ ((s.retired d).wall l).transit = false)
    ∧ (s.retired d).mem = s.mem ∧ (s.retired d).groups = s.groups ∧ (s.retired d).agenda = s.agenda := by
  obtain ⟨s1, hs1⟩ : ∃ s1, s1 = s.setBoot
    { s.boot with retired := if s.boot.retired.contains d then s.boot.retired else s.boot.retired ++ [d] } := ⟨_, rfl⟩
  obtain ⟨x, hx⟩ := State.onlyFabric_trans (s1.shutLinks_onlyFabric d) (State.shutPorts_spec (s1.shutLinks d) d).1
  have hret : s.retired d = ((s1.shutLinks d).shutPorts d).setFabric { ((s1.shutLinks d).shutPorts d).fabric with
      pslot := ((s1.shutLinks d).shutPorts d).fabric.pslot.put d 0#5
      cslot := ((s1.shutLinks d).shutPorts d).fabric.cslot.put d 0#5 } := by
    rw [hs1]
    rfl
  have hboot : ((s1.shutLinks d).shutPorts d).boot = s1.boot := by rw [hx]; rfl
  refine ⟨?_, ?_, fun l hl he => ?_, ?_, ?_, ?_⟩
  · rw [hret, State.setFabric_boot, hboot, hs1]
    show d ∈ if s.boot.retired.contains d then s.boot.retired else s.boot.retired ++ [d]
    split
    · simpa using ‹s.boot.retired.contains d = true›
    · simp
  · rw [hret]
    exact congrArg BitVec.toNat (Tbl.get_put_self ..)
  · have hw : (s.retired d).wall l = (s1.shutLinks d).wall l := by
      rw [hret]
      exact congrArg (fun t : Tbl Firewall => t.get Firewall.reset l) (State.shutPorts_spec (s1.shutLinks d) d).2
    rw [hw]
    exact s1.shutLinks_wall hl he
  · rw [hret, hx, hs1]; rfl
  · rw [hret, hx, hs1]; rfl
  · rw [hret, hx, hs1]; rfl

/-- RETIRE of a die of the module without an enabled context. -/
theorem State.retireDie_spec (s : State) (d : Nat) : d ∈ (s.retireDie d).boot.retired ∧ (s.retireDie d).slotOf d = 0
    ∧ (∀ l < 31, endsAt d l → ((s.retireDie d).wall l).closed = true ∧ ((s.retireDie d).wall l).transit = false)
    ∧ (d ≠ 0 → (s.retireDie d).mem = s.mem ∧ (s.retireDie d).groups = s.groups ∧ (s.retireDie d).agenda = s.agenda)
    ∧ (d = 0 → (s.retireDie d).boot.stage = 0 ∧ (s.retireDie d).groups = [] ∧ (s.retireDie d).agenda = []) := by
  obtain ⟨hret, hslot, hwall, hrest⟩ := s.retired_spec d
  rw [State.retireDie_eq]
  by_cases hd : d = 0
  · rw [if_pos hd]
    obtain ⟨hwalls, hcslot⟩ := (s.retired d).cleared_fabric
    refine ⟨hret, ?_, fun l hl he => ?_, fun h => absurd hd h, fun _ => ⟨rfl, rfl, rfl⟩⟩
    · unfold State.slotOf
      rw [hcslot]
      exact congrArg BitVec.toNat (get_foldl_put (fun _ => 0#5) 1#5 _ [] hret)
    · unfold State.wall
      rw [hwalls, retiredWalls_get hret hl he]
      exact ⟨rfl, rfl⟩
  · rw [if_neg hd]
    exact ⟨hret, hslot, hwall, fun _ => hrest, fun h => absurd h hd⟩

/-! ### Flits -/

/-- A look at a buffer may raise or drop a stop signal. -/
theorem State.stopLook_eq (s : State) (l : Nat) (up : Bool) (c : FlitClass) :
    ∃ r a n, s.stopLook l up c = ((s.setFabric { s.fabric with raised := r }).setAgenda a).setFreeCtr n := by
  unfold State.stopLook
  dsimp only
  split
  · exact ⟨_, _, _, rfl⟩
  · split
    · exact ⟨_, _, _, rfl⟩
    · exact ⟨s.fabric.raised, s.agenda, s.freeCtr, rfl⟩

section
variable {s : State} {l : Nat} {up : Bool} {c : FlitClass} {f : Flit} {rest : List Flit}

/-- A flit whose end has room stands in its buffer. -/
theorem State.linkFlitArrive_of_room (ht : takeFlit c (s.fabric.flits.get [] (2 * l + bitOf up)) = some (f, rest))
    (hr : 64 ≤ s.fabric.free (2 * l + bitOf up) c) :
    ∃ due, (s.linkFlitArrive l up c false).fabric.flits.get [] (2 * l + bitOf up) = rest
      ∧ (s.linkFlitArrive l up c false).fabric.bufs.get [] (2 * l + bitOf up) = s.fabric.bufs.get [] (2 * l + bitOf up) ++ [f]
      ∧ (s.linkFlitArrive l up c false).mem = s.mem ∧ (s.linkFlitArrive l up c false).groups = s.groups
      ∧ (s.linkFlitArrive l up c false).access = s.access ∧ (due, Event.linkFlitArrive l up c true) ∈ (s.linkFlitArrive l up c false).agenda := by
  obtain ⟨s2, hs2, hfl, hbf, hmem, hgr, hac⟩ : ∃ s2 : State, s.linkFlitArrive l up c false
        = (s2.stopLook l up c).after 0 (.linkFlitArrive l up c true)
      ∧ s2.fabric.flits = s.fabric.flits.put (2 * l + bitOf up) rest
      ∧ s2.fabric.bufs = s.fabric.bufs.put (2 * l + bitOf up) (s.fabric.bufs.get [] (2 * l + bitOf up) ++ [f]) ∧ s2.mem = s.mem
      ∧ s2.groups = s.groups ∧ s2.access = s.access := by
    unfold State.linkFlitArrive
    simp only [Bool.false_eq_true, if_false, ht, Nat.not_lt.2 hr]
    refine ⟨_, rfl, ?_⟩
    split
    · exact ⟨rfl, rfl, rfl, rfl, rfl⟩
    · exact ⟨rfl, rfl, rfl, rfl, rfl⟩
  obtain ⟨r, a, n, hlook⟩ := s2.stopLook_eq l up c
  rw [hs2, hlook]
  refine ⟨_, ?_, ?_, hmem, hgr, hac, mem_insertDue ..⟩
  · exact (congrArg (fun t : Tbl (List Flit) => t.get [] (2 * l + bitOf up)) hfl).trans (Tbl.get_put_self ..)
  · exact (congrArg (fun t : Tbl (List Flit) => t.get [] (2 * l + bitOf up)) hbf).trans (Tbl.get_put_self ..)

/-- A flit leaves its buffer once its next link takes it. -/
theorem State.linkFlitArrive_leaves (ht : takeFlit c (s.fabric.bufs.get [] (2 * l + bitOf up)) = some (f, rest)) :
    (s.mayHop f.cargo = false → s.linkFlitArrive l up c true = s.post (s.clk + 1) (.linkFlitArrive l up c true))
    ∧ (s.mayHop f.cargo = true → ∃ r a n, s.linkFlitArrive l up c true
        =
          (((s.setFabric { s.fabric with bufs := s.fabric.bufs.put (2 * l + bitOf up) rest, raised := r }).setAgenda a).setFreeCtr n).cargoMoves f.cargo) := by
  unfold State.linkFlitArrive
  simp only [if_true, ht]
  refine ⟨fun h => by rw [h]; rfl, fun h => ?_⟩
  obtain ⟨r, a, n, hlook⟩ := (s.setFabric { s.fabric with bufs := s.fabric.bufs.put (2 * l + bitOf up) rest }).stopLook_eq l up c
  refine ⟨r, a, n, ?_⟩
  rw [h, Bool.not_true, if_neg Bool.false_ne_true, hlook]
  rfl
end

/-! ### A lane crosses a link -/

/-- The access whose lane has crossed a link. -/
def Access.crossed (a : Access) (lane : Nat) : Access :=
  { a with lanes := a.lanes.map fun x => if x.lane = lane then { x with path := x.path.drop 1 } else x }

theorem Access.crossed_lane {a : Access} {lane : Nat} {x : LaneAcc} (h : (a.lanes.find? fun y => y.lane = lane) = some x) :
    ((a.crossed lane).lanes.find? fun y => y.lane = lane) = some { x with path := x.path.drop 1 } := by
  have hx : x.lane = lane := by simpa using List.find?_some h
  have hp : ((fun y : LaneAcc => decide (y.lane = lane)) ∘ fun x : LaneAcc => if x.lane = lane then { x with path := x.path.drop 1 } else x)
      = fun y => decide (y.lane = lane) := by
    funext y
    by_cases hy : y.lane = lane <;> simp [hy]
  rw [Access.crossed, List.find?_map, hp, h, Option.map_some, if_pos hx]

section
variable {s : State} {id lane : Nat} {a : Access} {x : LaneAcc}

/-- What a lane does once it has crossed: with no link left it is home, and otherwise it comes to the next. -/
theorem State.laneCrossed_eq (ha : s.access.find id = some a) (hx : (a.lanes.find? fun y => y.lane = lane) = some x) :
    (x.path.drop 1 = [] → ∃ ag n, s.laneCrossed id lane = ((s.setAccess (s.access.put id (a.crossed lane))).setAgenda ag).setFreeCtr n)
    ∧ ∀ h r, x.path.drop 1 = h :: r → s.laneCrossed id lane
        = (s.setAccess (s.access.put id (a.crossed lane))).laneHop id (a.crossed lane) { x with path := x.path.drop 1 } h 0 := by
  have he : s.laneCrossed id lane = if x.done then
      (s.setAccess (s.access.put id (a.crossed lane))).sendBack id (dieWho a.g.die a.ctx) (a.crossed lane) { x with path := x.path.drop 1 }
    else (s.setAccess (s.access.put id (a.crossed lane))).sendLane id (dieWho a.g.die a.ctx) (a.crossed lane)
      { x with path := x.path.drop 1 } 0 := by
    have hl := Access.crossed_lane hx
    unfold Access.crossed at hl
    unfold State.laneCrossed
    simp only [ha, hl]
    rfl
  rw [he]
  refine ⟨fun hp => ?_, fun h r hp => ?_⟩
  · unfold State.sendBack State.sendLane
    simp only [hp]
    split
    · split
      · exact ⟨_, _, rfl⟩
      · exact ⟨_, _, rfl⟩
      · exact ⟨s.agenda, s.freeCtr, rfl⟩
    · split
      · exact ⟨_, _, rfl⟩
      · exact ⟨_, _, rfl⟩
      · exact ⟨s.agenda, s.freeCtr, rfl⟩
  · unfold State.sendBack State.sendLane
    simp only [hp]
    split <;> rfl
end

/-- A flit that its link takes at once is on it. -/
theorem State.sendFlit_of_free {s : State} {h : Hop} (hh : s.linkHolds h = false) (c : Cargo) (b : Nat) :
    ∃ f a n, s.sendFlit h c b = ((s.setFabric f).setAgenda a).setFreeCtr n ∧ f.bufs = s.fabric.bufs
      ∧ f.flits = s.fabric.flits.put h.input (s.fabric.flits.get [] h.input ++ [{ cls := h.cls, cargo := c, old := false }]) := by
  unfold State.sendFlit
  simp only [hh, Bool.false_eq_true, if_false]
  exact ⟨{ s.fabric with flits := s.fabric.flits.put h.input (s.fabric.flits.get [] h.input ++ [{ cls := h.cls, cargo := c, old := false }])
                         sent := assocPut s.fabric.sent (h.input, h.cls) (s.clk, s.sentNow h + 1) }, _, _, rfl, rfl, rfl⟩

/-- At a closed link the lane's group freezes. -/
theorem State.laneCut_of_group {s : State} {a : Access} {g : Group} (h : Hop) (id : Nat) (hg : s.group? a.g = some g) (ht : g.team = a.team)
    (hs : g.speculative = false) :
    s.laneCut h id a = (s.violate h.link h.cls (groupMaster a.g) a.ctx).leavePen a.g g (.parked .frozen) := by
  have hof : s.groupOf? a.g a.team = some g := by simp [State.groupOf?, hg, ht]
  have hcut : s.cutGroup h a.g a.team a.ctx = (s.violate h.link h.cls (groupMaster a.g) a.ctx).leavePen a.g g (.parked .frozen) := by
    unfold State.cutGroup
    simp only [hof, hs, Bool.false_eq_true, if_false]
  unfold State.laneCut
  simp only [hcut, hof, Option.isSome_some, if_true]

/-- What stands once the group is frozen. -/
theorem State.violate_leavePen_spec (s : State) (set : Nat) (cls : FlitClass) (m : Master) (ctx : Nat) (k : GKey) (g : Group) (r : RunState) :
    ((s.violate set cls m ctx).leavePen k g r).wall set = (s.violate set cls m ctx).wall set
      ∧ ((s.violate set cls m ctx).wall set).frozen = true ∧ ((s.violate set cls m ctx).wall set).vclass = vclassOf cls
      ∧ ((s.violate set cls m ctx).leavePen k g r).mem = s.mem ∧ ((s.violate set cls m ctx).leavePen k g r).fabric.flits = s.fabric.flits := by
  have hfab : ((s.violate set cls m ctx).leavePen k g r).fabric = (s.violate set cls m ctx).fabric := by
    unfold State.leavePen
    dsimp only
    split <;> rfl
  have hwall : (s.violate set cls m ctx).wall set = _ := Tbl.get_put_self _ _ _ _
  refine ⟨?_, by rw [hwall], by rw [hwall], State.leavePen_mem .., ?_⟩
  · unfold State.wall
    rw [hfab]
  · rw [hfab]
    rfl

/-- The machine with a flit out of its buffer. -/
def State.unbuffered (s : State) (i : Nat) (rest : List Flit) (r : List (Nat × FlitClass)) (a : List (Nat × Event)) (n : Nat) : State :=
  ((s.setFabric { s.fabric with bufs := s.fabric.bufs.put i rest, raised := r }).setAgenda a).setFreeCtr n

section
variable {s : State} {l : Nat} {up : Bool} {c : FlitClass} {f : Flit} {rest : List Flit} {id lane : Nat} {a : Access} {x : LaneAcc}

/-- A lane's flit leaves its buffer. -/
theorem State.linkFlitArrive_request (ht : takeFlit c (s.fabric.bufs.get [] (2 * l + bitOf up)) = some (f, rest)) (hm : s.mayHop f.cargo = true)
    (hc : f.cargo = .request id lane) :
    ∃ r ag n, let u := s.unbuffered (2 * l + bitOf up) rest r ag n
      s.linkFlitArrive l up c true = u.laneCrossed id lane := by
  obtain ⟨r, ag, n, he⟩ := (State.linkFlitArrive_leaves ht).2 hm
  refine ⟨r, ag, n, ?_⟩
  rw [he, hc]
  rfl

theorem State.unbuffered_crossed (i : Nat) (r : List (Nat × FlitClass)) (ag : List (Nat × Event)) (n : Nat)
    (hx : (a.lanes.find? fun y => y.lane = lane) = some x) {t : State}
      (ht : t.access = (s.unbuffered i rest r ag n).access.put id (a.crossed lane)) :
    ∃ b, t.access.find id = some b ∧ (b.lanes.find? fun y => y.lane = lane) = some { x with path := x.path.drop 1 } :=
  ⟨a.crossed lane, by rw [ht]; exact Tbl.find_put_self .., Access.crossed_lane hx⟩

/-- The last link crossed, the lane is at its die. -/
theorem State.linkFlitArrive_home (ht : takeFlit c (s.fabric.bufs.get [] (2 * l + bitOf up)) = some (f, rest)) (hm : s.mayHop f.cargo = true)
    (hc : f.cargo = .request id lane) (ha : s.access.find id = some a) (hx : (a.lanes.find? fun y => y.lane = lane) = some x) {h : Hop}
    (hp : x.path = [h]) :
    (s.linkFlitArrive l up c true).fabric.bufs.get [] (2 * l + bitOf up) = rest
      ∧ (∃ b, (s.linkFlitArrive l up c true).access.find id = some b ∧ (b.lanes.find? fun y => y.lane = lane) = some { x with path := [] })
      ∧ (s.linkFlitArrive l up c true).mem = s.mem ∧ (s.linkFlitArrive l up c true).groups = s.groups := by
  obtain ⟨r, ag, n, he⟩ := State.linkFlitArrive_request ht hm hc
  obtain ⟨ag', n', hcross⟩ := (State.laneCrossed_eq (s := s.unbuffered (2 * l + bitOf up) rest r ag n) ha hx).1 (by rw [hp]; rfl)
  rw [he, hcross]
  refine ⟨Tbl.get_put_self .., ?_, rfl, rfl⟩
  have hb := State.unbuffered_crossed (s := s) (rest := rest) (id := id) (2 * l + bitOf up) r ag n hx
    (t := (((s.unbuffered (2 * l + bitOf up) rest r
    ag n).setAccess
    ((s.unbuffered (2 * l + bitOf up) rest r ag n).access.put id (a.crossed lane))).setAgenda ag').setFreeCtr n') rfl
  rwa [hp] at hb

/-- The next link takes the lane's flit at once. -/
theorem State.linkFlitArrive_onward (ht : takeFlit c (s.fabric.bufs.get [] (2 * l + bitOf up)) = some (f, rest)) (hm : s.mayHop f.cargo = true)
    (hc : f.cargo = .request id lane) (ha : s.access.find id = some a) (hx : (a.lanes.find? fun y => y.lane = lane) = some x) {h h2 : Hop}
    {q : List Hop} (hp : x.path = h :: h2 :: q) (hw : (s.wall h2.link).closed = false) (hh : s.linkHolds h2 = false) :
    (s.linkFlitArrive l up c true).fabric.bufs.get [] (2 * l + bitOf up) = rest
      ∧ (∃ b, (s.linkFlitArrive l up c true).access.find id = some b ∧ (b.lanes.find? fun y => y.lane = lane) = some { x with path := h2 :: q })
      ∧ (s.linkFlitArrive l up c true).mem = s.mem ∧ (s.linkFlitArrive l up c true).groups = s.groups
      ∧ ∃ y, (s.linkFlitArrive l up c true).fabric.flits.get [] h2.input = s.fabric.flits.get [] h2.input ++ [y] ∧ y.cls = h2.cls := by
  obtain ⟨r, ag, n, he⟩ := State.linkFlitArrive_request ht hm hc
  obtain ⟨u, hu⟩ : ∃ u, u = (s.unbuffered (2 * l + bitOf up) rest r ag n).setAccess
    ((s.unbuffered (2 * l + bitOf up) rest r ag n).access.put id (a.crossed lane)) := ⟨_, rfl⟩
  have hcross := (State.laneCrossed_eq (s := s.unbuffered (2 * l + bitOf up) rest r ag n) ha hx).2 h2 q (by rw [hp]; rfl)
  rw [← hu] at hcross
  have hwu : (u.wall h2.link).closed = false := by rw [hu]; exact hw
  have hhu : u.linkHolds h2 = false := by rw [hu]; exact hh
  obtain ⟨F, a2, n2, hsend, hbufs, hflits⟩ := State.sendFlit_of_free hhu (if x.done then Cargo.answer id x.lane else .request id x.lane) 0
  have hfin : s.linkFlitArrive l up c true = ((u.setFabric F).setAgenda a2).setFreeCtr n2 := by
    rw [he, hcross, State.laneHop, hwu, if_neg Bool.false_ne_true]
    exact hsend
  rw [hfin]
  refine ⟨?_, ?_, by rw [hu]; rfl, by rw [hu]; rfl, ?_⟩
  · refine (congrArg (fun t : Tbl (List Flit) => t.get [] (2 * l + bitOf up)) hbufs).trans ?_
    rw [hu]
    exact Tbl.get_put_self ..
  · have hb := State.unbuffered_crossed (s := s) (rest := rest) (id := id) (2 * l + bitOf up) r ag n hx
      (t := ((u.setFabric F).setAgenda a2).setFreeCtr n2) (by rw [hu]; rfl)
    rwa [hp] at hb
  · refine ⟨{ cls := h2.cls, cargo := if x.done then .answer id x.lane else .request id x.lane, old := false },
      (congrArg (fun t : Tbl (List Flit) => t.get [] h2.input) hflits).trans ?_, rfl⟩
    rw [Tbl.get_put_self, hu]
    rfl

/-- The next link is closed: the lane's group freezes there. -/
theorem State.linkFlitArrive_cut (ht : takeFlit c (s.fabric.bufs.get [] (2 * l + bitOf up)) = some (f, rest)) (hm : s.mayHop f.cargo = true)
    (hc : f.cargo = .request id lane) (ha : s.access.find id = some a) (hx : (a.lanes.find? fun y => y.lane = lane) = some x) {h h2 : Hop}
    {q : List Hop} {g : Group} (hp : x.path = h :: h2 :: q) (hw : (s.wall h2.link).closed = true) (hg : s.group? a.g = some g)
      (hteam : g.team = a.team)
    (hs : g.speculative = false) :
    ∃ g', (s.linkFlitArrive l up c true).group? a.g = some g' ∧ g'.run = .parked .frozen ∧
      ((s.linkFlitArrive l up c true).wall h2.link).frozen = true
      ∧ ((s.linkFlitArrive l up c true).wall h2.link).vclass = vclassOf h2.cls ∧ (s.linkFlitArrive l up c true).mem = s.mem
      ∧ (s.linkFlitArrive l up c true).fabric.flits = s.fabric.flits := by
  obtain ⟨r, ag, n, he⟩ := State.linkFlitArrive_request ht hm hc
  obtain ⟨u, hu⟩ : ∃ u, u = (s.unbuffered (2 * l + bitOf up) rest r ag n).setAccess
    ((s.unbuffered (2 * l + bitOf up) rest r ag n).access.put id (a.crossed lane)) := ⟨_, rfl⟩
  have hcross := (State.laneCrossed_eq (s := s.unbuffered (2 * l + bitOf up) rest r ag n) ha hx).2 h2 q (by rw [hp]; rfl)
  rw [← hu] at hcross
  have hwu : (u.wall h2.link).closed = true := by rw [hu]; exact hw
  have hfin : s.linkFlitArrive l up c true = (u.violate h2.link h2.cls (groupMaster a.g) a.ctx).leavePen a.g g (.parked .frozen) := by
    rw [he, hcross, State.laneHop, hwu, if_pos rfl]
    exact State.laneCut_of_group (s := u) (a := a.crossed lane) h2 id (by rw [hu]; exact hg) hteam hs
  obtain ⟨hwall, hfrozen, hclass, hmem, hflits⟩ := u.violate_leavePen_spec h2.link h2.cls (groupMaster a.g) a.ctx a.g g (.parked .frozen)
  rw [hfin, hwall]
  exact ⟨_, State.leavePen_group? .., rfl, hfrozen, hclass, by rw [hmem, hu]; rfl, by rw [hflits, hu]; rfl⟩
end

/-- Settles O45: APPLY and RETIRE by their walks over dies and links, and a flit by where it stands: on its link, in its buffer, or at the next
link. -/
theorem partitionAndLinkEvents : Obligations.PartitionAndLinkEvents := by
  refine ⟨fun s hs => ?_, fun s d hs => ?_, ?_, fun s l up c i hs hi => ?_, fun s l up c i f rest hs hi ht => ?_, fun s l up c i hs hi => ?_,
    fun s m g hk hg hr => ?_⟩
  · have he : exec .apply s = .next s.apply := exec_of_subject hs
    refine ⟨fun e h => ⟨by rw [he, State.apply_of_err h], rfl⟩, fun h => ⟨_, he, ?_⟩⟩
    have hslots : ∀ d < Config.dies, ((s.slotsTaken (List.range Config.dies)).get 1#5 d).toNat = s.stagedSlot d :=
      fun d hd => s.slotsTaken_get (List.mem_range.2 hd)
    rw [State.apply_of_good h]
    generalize s.slotsTaken (List.range Config.dies) = slots at hslots ⊢
    exact ⟨hslots, rfl, rfl, rfl⟩
  · have he : exec .retire s = .next (s.retire d) := exec_of_subject hs
    refine ⟨fun hd => ?_, fun hd hen => ?_, fun hd hen => ⟨_, he, ?_⟩⟩
    · rw [he, State.retire, if_pos (show Config.dies ≤ d from hd)]
    · rw [he, State.retire, if_neg (show ¬ Config.dies ≤ d from Nat.not_le.2 hd), if_pos hen]
    · obtain ⟨hret, hslot, hwall, hother, hzero⟩ := s.retireDie_spec d
      rw [State.retire, if_neg (show ¬ Config.dies ≤ d from Nat.not_le.2 hd), if_neg (by simp [hen])]
      exact ⟨hret, hslot, rfl, hwall, hother, hzero⟩
  · intro s l v hs opens
    have he : exec .fwctlWrite s = .next (s.fwctlWrite l v) := exec_of_subject hs
    have hopens : ((s.wall l).closed && !v.getLsbD 0) = true ↔ opens := by simp [opens]
    rw [he, State.fwctlWrite]
    refine ⟨fun ho hen => ?_, fun ho => ⟨_, rfl, ?_⟩⟩
    · dsimp only
      rw [if_pos]
      rw [Bool.and_eq_true, Bool.or_eq_true]
      exact ⟨hopens.2 ho, hen⟩
    · dsimp only
      rw [if_neg]
      · exact ⟨rfl, rfl, fun m hm => State.setWall_wall_ne _ _ _ hm, State.setWall_wall_self ..⟩
      · rw [Bool.and_eq_true, Bool.or_eq_true]
        rintro ⟨h1, h2⟩
        rcases ho with ho | ⟨h3, h4⟩
        · exact ho (hopens.1 h1)
        · rw [h3, h4] at h2
          simp at h2
  · subst hi
    have he : exec .linkFlitArrive s = .next (s.linkFlitArrive l up c false) := exec_of_subject hs
    refine ⟨fun ht => ?_, fun f rest ht => ⟨fun hr => ?_, fun hr => ?_⟩⟩
    · rw [he, State.linkFlitArrive, if_neg Bool.false_ne_true, ht]
    · rw [he, State.linkFlitArrive, if_neg Bool.false_ne_true, ht]
      simp only [if_pos hr]
    · obtain ⟨due, hspec⟩ := State.linkFlitArrive_of_room (up := up) ht hr
      exact ⟨_, due, he, hspec⟩
  · subst hi
    have he : exec .linkFlitArrive s = .next (s.linkFlitArrive l up c true) := exec_of_subject hs
    refine ⟨fun hm => by rw [he, (State.linkFlitArrive_leaves ht).1 hm], ?_⟩
    intro id lane a x hm hc ha hx crossed
    refine ⟨fun h hp => ⟨_, he, State.linkFlitArrive_home ht hm hc ha hx hp⟩,
      fun h h2 q hp hw hh => ⟨_, he, State.linkFlitArrive_onward ht hm hc ha hx hp hw hh⟩, fun h h2 q g hp hw hg hteam hsp => ?_⟩
    obtain ⟨g', hspec⟩ := State.linkFlitArrive_cut ht hm hc ha hx hp hw hg hteam hsp
    exact ⟨_, g', he, hspec⟩
  · subst hi
    have he : exec .linkStopSignal s = .next (s.linkStopSignal l up c) := exec_of_subject hs
    refine ⟨fun hr => ⟨_, he, ?_⟩, fun hr hh => ⟨_, he, ?_⟩⟩
    · unfold State.linkStopSignal
      simp only [hr, if_true]
      refine ⟨rfl, rfl, ?_⟩
      show (if s.fabric.stops.contains (2 * l + bitOf up, c) then s.fabric.stops else _).contains (2 * l + bitOf up, c) = true
      split
      · assumption
      · simp
    · have hgo : (s.fabric.held.get [] (2 * l + bitOf up)).filter (fun f => f.cls = c) = [] := List.filter_eq_nil_iff.2 fun f hf => by simp
      [hh f hf]
      unfold State.linkStopSignal
      simp only [hr, Bool.false_eq_true, if_false, hgo, List.take_nil, List.foldl_nil, List.length_nil, Nat.zero_le, if_true]
      exact ⟨rfl, rfl, by simp⟩
  · refine ⟨fun hs hlog => ?_, fun hs hacc => ?_⟩
    · have he : exec .unfreezeResume s = .next (s.unfreezeResume m) := exec_of_subject hs
      rw [he]
      unfold State.unfreezeResume
      simp only [hk, hg, hr, hlog, ne_eq, not_true_eq_false, if_false, List.isEmpty_nil, if_true]
    · have he : exec .unfreezeKill s = .next (s.unfreezeKill m) := exec_of_subject hs
      have hset : s.setAccess [] = s := by rw [← hacc]; rfl
      rw [he]
      unfold State.unfreezeKill
      simp only [hk, hg, hr, hacc, if_true, List.filter_nil, hset]

end Sys2Proof.Machine
end

section
namespace Sys2Proof.Machine

/-! ## Registers over the host's buses (O47) -/

section
variable {s : State} {fn bar off width : Nat} {v : BitVec 64}

theorem State.barsOpen_iff (s : State) (fn bar : Nat) :
    s.barsOpen fn bar = true ↔ s.fnLive fn = true ∧ (bar = 4 ∧ 1 ≤ s.boot.stage ∨ s.boot.stage = 4) := by
  simp [State.barsOpen]

theorem State.barsOpen_eq_false_iff (s : State) (fn bar : Nat) :
    s.barsOpen fn bar = false ↔ ¬(s.fnLive fn = true ∧ (bar = 4 ∧ 1 ≤ s.boot.stage ∨ s.boot.stage = 4)) := by
  rw [← s.barsOpen_iff, Bool.not_eq_true]

theorem State.fnLive_iff (s : State) (fn : Nat) : s.fnLive fn = true ↔ fn / 32 = 0 ∨ s.boot.retired.contains 19 = false := by
  simp [State.fnLive]

/-- No access reaches a register of a closed BAR. -/
theorem State.registerWrite_of_closed (h : s.barsOpen fn bar = false) : s.registerWrite fn bar off width v = s := by
  simp [State.registerWrite, State.regWrite, h]

theorem State.registerWrite_kick (h : s.barsOpen fn bar = true) (hk : bar = 2 ∧ off % 4096 < 8 ∧ off / 4096 < 4096) :
    s.registerWrite fn bar off width v = s.post s.clk (.kick fn (off / 4096) (off % 4096) width v) := by
  simp only [State.registerWrite, State.regWrite, h, Bool.not_true, Bool.false_eq_true, if_false, if_pos hk]

theorem State.registerWrite_of_reg {r : Reg} {n : Nat} (h : s.barsOpen fn bar = true)
    (hk : ¬(bar = 2 ∧ off % 4096 < 8 ∧ off / 4096 < 4096)) (hr : regAt fn bar off = some (r, n)) :
    s.registerWrite fn bar off width v = if n = width then s.regPut fn none r v else s := by
  simp only [State.registerWrite, State.regWrite, h, Bool.not_true, Bool.false_eq_true, if_false, if_neg hk, hr]

theorem State.registerWrite_of_no_reg (h : s.barsOpen fn bar = true)
    (hk : ¬(bar = 2 ∧ off % 4096 < 8 ∧ off / 4096 < 4096)) (hr : regAt fn bar off = none) :
    s.registerWrite fn bar off width v = s := by
  simp only [State.registerWrite, State.regWrite, h, Bool.not_true, Bool.false_eq_true, if_false, if_neg hk, hr]

theorem State.regReadClear_of_closed (h : s.barsOpen fn bar = false) : s.regReadClear fn bar off width = s := by
  simp [State.regReadClear, h]

theorem State.regReadClear_of_reg {r : Reg} (h : s.barsOpen fn bar = true) (hr : regAt fn bar off = some (r, width)) :
    s.regReadClear fn bar off width = s.regClear fn r := by
  simp [State.regReadClear, h, hr]

/-- Clearing what a read clears opens and closes no BAR. -/
theorem State.regClear_barsOpen (s : State) (f : Nat) (r : Reg) (fn bar : Nat) :
    (s.regClear f r).barsOpen fn bar = s.barsOpen fn bar := by
  unfold State.regClear
  split <;> rfl

/-- A register write of an AtomicOp, after its own clearing read. -/
theorem State.registerWrite_regClear {r : Reg} (h : s.barsOpen fn bar = true)
    (hk : ¬(bar = 2 ∧ off % 4096 < 8 ∧ off / 4096 < 4096)) (hr : regAt fn bar off = some (r, width)) (w : BitVec 64) :
    (s.regClear fn r).registerWrite fn bar off width w = (s.regClear fn r).regPut fn none r w := by
  rw [State.registerWrite_of_reg ((s.regClear_barsOpen fn r fn bar).trans h) hk hr, if_pos rfl]

theorem State.registerAtomic_swap {r : Reg} (h : s.barsOpen fn bar = true)
    (hk : ¬(bar = 2 ∧ off % 4096 < 8 ∧ off / 4096 < 4096)) (hr : regAt fn bar off = some (r, width)) :
    s.registerAtomic fn bar off width .swap v
      = ((s.regClear fn r).regPut fn none r v).send (.atomicOld fn bar off (BitVec.ofNat 64 (s.regRead fn bar off width))) := by
  simp only [State.registerAtomic, State.regReadClear_of_reg h hr, State.registerWrite_regClear h hk hr]

theorem State.registerAtomic_fetchAdd {r : Reg} (h : s.barsOpen fn bar = true)
    (hk : ¬(bar = 2 ∧ off % 4096 < 8 ∧ off / 4096 < 4096)) (hr : regAt fn bar off = some (r, width)) :
    s.registerAtomic fn bar off width .fetchAdd v
      = ((s.regClear fn r).regPut fn none r (BitVec.ofNat 64 (s.regRead fn bar off width) + v)).send
          (.atomicOld fn bar off (BitVec.ofNat 64 (s.regRead fn bar off width))) := by
  simp only [State.registerAtomic, State.regReadClear_of_reg h hr, State.registerWrite_regClear h hk hr]

theorem State.registerAtomic_cas {r : Reg} (h : s.barsOpen fn bar = true)
    (hk : ¬(bar = 2 ∧ off % 4096 < 8 ∧ off / 4096 < 4096)) (hr : regAt fn bar off = some (r, width)) (c : BitVec 64) :
    s.registerAtomic fn bar off width (.cas c) v
      = (if (BitVec.ofNat 64 (s.regRead fn bar off width)).toNat = c.toNat % 2 ^ (8 * width) then (s.regClear fn r).regPut fn none r v
          else s.regClear fn r).send (.atomicOld fn bar off (BitVec.ofNat 64 (s.regRead fn bar off width))) := by
  simp only [State.registerAtomic, State.regReadClear_of_reg h hr, State.registerWrite_regClear h hk hr]
end

theorem State.updCtx_ctx_self (s : State) (d c : Nat) (f : Ctx → Ctx) : (s.updCtx d c f).ctx d c = f (s.ctx d c) := Tbl.get_put_self ..

/-- SDTB and PTB of an enabled context keep what they hold. -/
theorem State.regPut_tables_of_enabled {s : State} {d c : Nat} (fn : Nat) (v : BitVec 64) (h : (s.ctx d c).en = true) :
    s.regPut fn none (.ctx d c 0x08) v = s ∧ s.regPut fn none (.ctx d c 0x18) v = s := by
  constructor
  · exact if_pos h
  · exact if_pos h

/-- What a read clears. -/
theorem State.regClear_cleared (s : State) (fn : Nat) :
    (∀ l, ((s.regClear fn (.fwstat l)).wall l).vcount = 0#16) ∧ (s.regClear fn .pstat).fabric.pdone = false
      ∧ (s.regClear fn .mbstat).boot.mbDone = false ∧ (∀ p, ((s.regClear fn (.fpstat p)).port p).refused = 0#16)
      ∧ ∀ d c, ((s.regClear fn (.ctx d c 0x50)).ctx d c).resDone = false := by
  refine ⟨fun l => ?_, rfl, rfl, fun p => ?_, fun d c => ?_⟩
  · have h : (s.regClear fn (.fwstat l)).wall l = { s.wall l with vcount := 0#16 } := Tbl.get_put_self ..
    rw [h]
  · have h : (s.regClear fn (.fpstat p)).port p = { s.port p with refused := 0#16 } := Tbl.get_put_self ..
    rw [h]
  · have h : (s.regClear fn (.ctx d c 0x50)).ctx d c = { s.ctx d c with resDone := false } := State.updCtx_ctx_self ..
    rw [h]

/-- Settles O47: a BAR is open by the stage, and one address names one register with its width. -/
theorem registerAccessEvents : Obligations.RegisterAccessEvents := by
  refine ⟨fun s fn bar => ?_, fun s fn bar off width v hs => ?_, fun s fn bar off width op v r hs ho hr hk => ?_,
    fun s fn bar off width hs => ?_, fun s fn => ?_⟩
  · simp only [State.barsOpen_iff, State.barsOpen_eq_false_iff]
    refine ⟨fun hl h => by simp [hl] at h, fun hl => ⟨fun h4 => ⟨hl, .inr h4⟩, fun hb h1 => ⟨hl, .inl ⟨hb, h1⟩⟩, fun h4 hb => ?_, fun h0 => ?_⟩,
      s.fnLive_iff fn⟩
    · rintro ⟨-, ⟨hb', -⟩ | h4'⟩
      · exact hb hb'
      · exact h4 h4'
    · rintro ⟨-, ⟨-, h1⟩ | h4⟩
      · omega
      · omega
  · have he : exec .registerWrite s = .next (s.registerWrite fn bar off width v) := exec_of_subject hs
    refine ⟨fun hc => ?_, fun ho => ⟨fun q o hb hoff h8 hq => ?_, fun hk => ⟨fun r n hr => ?_, fun hr => ?_⟩⟩⟩
    · rw [he, State.registerWrite_of_closed hc]
    · have hmod : off % 4096 = o := by omega
      have hdiv : off / 4096 = q := by omega
      rw [he, State.registerWrite_kick ho ⟨hb, hmod ▸ h8, hdiv ▸ hq⟩, hmod, hdiv]
    · rw [he, State.registerWrite_of_reg ho hk hr]
    · rw [he, State.registerWrite_of_no_reg ho hk hr]
  · intro old
    have he : exec .registerWrite s = .next (s.registerAtomic fn bar off width op v) := exec_of_subject hs
    refine ⟨fun hop => ?_, fun hop => ?_, fun c hop => ?_⟩
    · rw [he, hop, State.registerAtomic_swap ho hk hr]
    · rw [he, hop, State.registerAtomic_fetchAdd ho hk hr]
    · rw [he, hop, State.registerAtomic_cas ho hk hr]
  · have he : exec .registerReadClear s = .next (s.regReadClear fn bar off width) := exec_of_subject hs
    refine ⟨fun hc => ?_, fun r ho hr => ?_⟩
    · rw [he, State.regReadClear_of_closed hc]
    · rw [he, State.regReadClear_of_reg ho hr]
  · obtain ⟨hwall, hpart, hmail, hport, hctx⟩ := s.regClear_cleared fn
    exact ⟨hwall, hpart, hmail, hport, hctx, fun d c v hen => State.regPut_tables_of_enabled fn v hen⟩

end Sys2Proof.Machine
end

section
namespace Sys2Proof.Machine

/-! ## Queues, kicks and launches (O48) -/

/-! ### Events posted, and nothing else -/

/-- `t` is `s` with further events in the agenda, for which choices may have been drawn. -/
def State.onlyDue (s t : State) : Prop := ∃ a n, t = (s.setAgenda a).setFreeCtr n ∧ ∀ e ∈ s.agenda, e ∈ a

theorem State.onlyDue_refl (s : State) : s.onlyDue s := ⟨_, _, rfl, fun _ h => h⟩

theorem State.onlyDue_trans {s t u : State} (a : s.onlyDue t) (b : t.onlyDue u) : s.onlyDue u := by
  obtain ⟨_, _, rfl, ha⟩ := a
  obtain ⟨_, _, rfl, hb⟩ := b
  exact ⟨_, _, rfl, fun e h => hb e (ha e h)⟩

theorem State.onlyDue_foldl {α : Type} {f : State → α → State} (hf : ∀ s x, State.onlyDue s (f s x)) (l : List α) (s : State) :
    s.onlyDue (l.foldl f s) := by
  induction l generalizing s with
  | nil => exact s.onlyDue_refl
  | cons x r ih => exact State.onlyDue_trans (hf s x) (ih _)

theorem State.post_onlyDue (s : State) (n : Nat) (e : Event) : s.onlyDue (s.post n e) :=
  ⟨_, s.freeCtr, rfl, fun _ h => mem_insertDue_of_mem n e h⟩

theorem State.after_onlyDue (s : State) (n : Nat) (e : Event) : s.onlyDue (s.after n e) :=
  ⟨_, _, rfl, fun _ h => mem_insertDue_of_mem _ e h⟩

/-- Events posted leave the module's tables, the die tables and memory. -/
theorem State.onlyDue_spec {s t : State} (h : s.onlyDue t) :
    t.host = s.host ∧ t.mem = s.mem ∧ t.groups = s.groups ∧ ∀ e ∈ s.agenda, e ∈ t.agenda := by
  obtain ⟨_, _, rfl, ha⟩ := h
  exact ⟨rfl, rfl, rfl, ha⟩

/-! ### Status words -/

section
variable {s : State} {q : Nat}

theorem State.putQueue_queue_self (s : State) (q : Nat) (x : Queue) : (s.putQueue q x).queue q = x := Tbl.get_put_self ..

theorem State.statusSoon_of_due (h : (s.queue q).statusDue = true) : s.statusSoon q = s := by
  unfold State.statusSoon
  rw [if_pos h]

theorem State.statusSoon_of_not_due (h : (s.queue q).statusDue = false) :
    s.statusSoon q = ((s.putQueue q { s.queue q with statusDue := true }).setFreeCtr (s.freeCtr + 1)).post
      (s.clk + 1 + Config.delay s.freeCtr % 64) (.statusWrite q) := by
  unfold State.statusSoon
  rw [if_neg (by simp [h])]

/-- A status write that is to come: the queue is as before with its words due, and nothing else of the machine changes. -/
theorem State.statusSoon_spec (s : State) (q : Nat) :
    (s.statusSoon q).queue q = { s.queue q with statusDue := true } ∧ (s.statusSoon q).host.launches = s.host.launches
      ∧ (s.statusSoon q).host.graphs = s.host.graphs ∧ (s.statusSoon q).fresh = s.fresh ∧ (s.statusSoon q).mem = s.mem
      ∧ (s.statusSoon q).groups = s.groups ∧ (s.statusSoon q).clk = s.clk := by
  cases h : (s.queue q).statusDue with
  | true =>
    rw [State.statusSoon_of_due h]
    exact ⟨by rw [← h], rfl, rfl, rfl, rfl, rfl, rfl⟩
  | false =>
    rw [State.statusSoon_of_not_due h]
    exact ⟨State.putQueue_queue_self .., rfl, rfl, rfl, rfl, rfl, rfl⟩

theorem foldl_send (m : Message) (n : Nat) (s : State) :
    (List.range n).foldl (fun t _ => t.send m) s = s.setOutbox (s.outbox ++ List.replicate n m) := by
  induction n with
  | zero => rw [List.range_zero, List.foldl_nil, List.replicate_zero, List.append_nil]; rfl
  | succ n ih =>
    rw [List.range_succ, List.foldl_append, ih, List.replicate_succ', ← List.append_assoc]
    rfl

/-- STATUS_WRITE writes both words, counts nothing as owed, and sends the vector of each launch newly counted. -/
theorem State.statusWrite_spec (s : State) (q : Nat) :
    (s.statusWrite q).mem = (s.writeBytes (.host (s.queue q).desc.pasid (s.queue q).desc.stat)
        (leBytes 8 (s.queue q).word0 ++ leBytes 8 (s.queue q).errseq.toNat)).mem
      ∧ ((s.statusWrite q).queue q).statusDue = false ∧ ((s.statusWrite q).queue q).irqs = 0
      ∧ (s.statusWrite q).outbox = s.outbox ++ List.replicate (s.queue q).irqs (.msix (s.queue q).fn (s.queue q).desc.vec) := by
  unfold State.statusWrite
  dsimp only
  rw [foldl_send]
  obtain ⟨m, hm⟩ := s.writeBytes_eq (.host (s.queue q).desc.pasid (s.queue q).desc.stat)
    (leBytes 8 (s.queue q).word0 ++ leBytes 8 (s.queue q).errseq.toNat)
  rw [hm]
  have hq : ∀ (u : State) (o : List Message) (x : Queue), ((u.putQueue q x).setOutbox o).queue q = x := fun u o x => State.putQueue_queue_self u q x
  rw [hq]
  exact ⟨rfl, rfl, rfl, rfl⟩

/-! ### Enabling and draining -/

/-- What a queue holds that a good descriptor enables. -/
def Queue.enabled (x : Queue) (fn part : Nat) (d : QDesc) : Queue :=
  { x with en := true, draining := false, pslot := BitVec.ofNat 5 part, fn := fn, desc := d, done := 0#32,
           taken := 0#16, err := 0#8, ovf := false, errseq := 0#32, seq := 0#32, held := [], retired := [] }

/-- A queue that its function enables: its descriptor passes, and words that are not 0 are to be written. -/
theorem State.queueEnable_of_good {fn : Nat} (he : (s.queue q).en = false) (hp : s.slotHolds (pslotOf fn (s.queue q).pslot) = true)
    (hr : Config.hostRefuses s.freeCtr = false)
    (hc : (s.setFreeCtr (s.freeCtr + 1)).descCheck fn (pslotOf fn (s.queue q).pslot) (s.hostBytes noPasid (s.queue q).qda.toNat 256) = none) :
    s.queueEnable fn q =
      let u := (s.setFreeCtr (s.freeCtr + 1)).putQueue q
        ((s.queue q).enabled fn (pslotOf fn (s.queue q).pslot) (qdescOf (s.hostBytes noPasid (s.queue q).qda.toNat 256)))
      if (s.queue q).word0 = 0 ∧ (s.queue q).errseq = 0#32 then u else u.statusSoon q := by
  have hb : (s.setFreeCtr (s.freeCtr + 1)).hostBytes noPasid (s.queue q).qda.toNat 256 = s.hostBytes noPasid (s.queue q).qda.toNat 256 :=
    State.readBytes_congr rfl _ _
  unfold State.queueEnable
  simp only [he, Bool.false_and, Bool.false_eq_true, if_false, hp, Bool.not_true, hr, hb, hc]
  rfl

theorem State.queueEnable_spec {fn : Nat} (he : (s.queue q).en = false) (hp : s.slotHolds (pslotOf fn (s.queue q).pslot) = true)
    (hr : Config.hostRefuses s.freeCtr = false)
    (hc : (s.setFreeCtr (s.freeCtr + 1)).descCheck fn (pslotOf fn (s.queue q).pslot) (s.hostBytes noPasid (s.queue q).qda.toNat 256) = none) :
    (((s.queue q).word0 ≠ 0 ∨ (s.queue q).errseq ≠ 0#32) → ((s.queueEnable fn q).queue q).statusDue = true)
      ∧ (∃ b, (s.queueEnable fn q).queue q = { (s.queue q).enabled fn (pslotOf fn (s.queue q).pslot)
          (qdescOf (s.hostBytes noPasid (s.queue q).qda.toNat 256)) with statusDue := b })
      ∧ (s.queueEnable fn q).mem = s.mem ∧ (s.queueEnable fn q).groups = s.groups := by
  rw [State.queueEnable_of_good he hp hr hc]
  dsimp only
  split
  next h =>
    refine ⟨fun hn => ?_, ⟨(s.queue q).statusDue, State.putQueue_queue_self ..⟩, rfl, rfl⟩
    rcases hn with hw | hw
    · exact absurd h.1 hw
    · exact absurd h.2 hw
  · obtain ⟨hq, _, _, _, hm, hg, _⟩ := ((s.setFreeCtr (s.freeCtr + 1)).putQueue q
        ((s.queue q).enabled fn (pslotOf fn (s.queue q).pslot) (qdescOf (s.hostBytes noPasid (s.queue q).qda.toNat 256)))).statusSoon_spec q
    rw [State.putQueue_queue_self] at hq
    exact ⟨fun _ => by rw [hq], ⟨true, hq⟩, hm, hg⟩

/-- A queue that drains refuses kicks and stays enabled until it is idle. -/
theorem State.drain_spec {fn : Nat} (he : (s.queue q).en = true) :
    (s.drain fn q).queue q = { s.queue q with draining := true } ∧ (s.drain fn q).mem = s.mem := by
  unfold State.drain
  simp only [he, Bool.not_true, Bool.false_eq_true, if_false]
  split
  · exact ⟨State.putQueue_queue_self .., rfl⟩
  · exact ⟨State.putQueue_queue_self .., rfl⟩

theorem State.queueDrainDone_of_idle (hd : (s.queue q).draining = true) (hi : s.queueIdle q = true) :
    s.queueDrainDone q = s.putQueue q { s.queue q with en := false, draining := false } := by
  unfold State.queueDrainDone
  simp only [hd, hi, Bool.and_self, if_true]

/-! ### Kicks -/

theorem State.mem_insertHeld (s : State) (l : Nat) (first : Bool) (held : List Nat) : l ∈ s.insertHeld l first held := by
  unfold State.insertHeld
  split
  · simp
  · simp

/-- Without an EVWAIT node, no count is looked at. -/
theorem State.peekEvents_of_no_wait (s : State) (part ctx l : Nat) {nodes : List Node} (h : ∀ nd ∈ nodes, nd.kind ≠ .evwait) :
    s.peekEvents part ctx l nodes = s := by
  have hz : ∀ e ∈ nodes.zip (List.range nodes.length), e.1.kind ≠ .evwait := fun e he => h e.1 (List.of_mem_zip (a := e.1) (b := e.2) he).1
  unfold State.peekEvents
  generalize nodes.zip (List.range nodes.length) = l at hz
  induction l with
  | nil => rfl
  | cons e r ih =>
    rw [List.foldl_cons, if_neg (hz e List.mem_cons_self)]
    exact ih fun x hx => hz x (List.mem_cons_of_mem _ hx)

theorem State.kick_of_refused {fn o w : Nat} {v : BitVec 64}
    (h : (s.queue q).en = false ∨ (s.queue q).fn ≠ fn ∨ (s.queue q).draining = true ∨ s.fnLive fn = false) : s.kick fn q o w v = s := by
  unfold State.kick
  simp only
  rw [if_pos]
  rcases h with h | h | h | h
  · simp [h]
  · simp [h]
  · simp [h]
  · simp [h]

/-- The launch that a good kick makes. -/
def State.kicked (s : State) (q : Nat) (v : BitVec 64) (g : Graph) : Launch :=
  let x := s.queue q
  { queue := some (q, x.seq.toNat), parent := none, part := x.pslot.toNat, ctx := x.desc.ctx, prio := x.desc.prio, serial := v.getLsbD 57,
    irq := v.getLsbD 56, first := v.getLsbD 58, started := false, nodes := g.nodes, runs := g.nodes.map fun _ => .waiting,
    seen := g.nodes.map fun _ => 0#32,
    args := s.hostBytes x.desc.pasid (x.desc.argBase + pteBits v 32 24 * x.desc.slotSz) x.desc.slotSz,
    recs := [], gen := 0, err := 0#8, evn := none, taken := s.clk, asked := none }

/-- The state in which a good kick has taken its number. -/
def State.numbered (s : State) (q : Nat) : State :=
  ((s.putQueue q { s.queue q with seq := (s.queue q).seq + 1#32, taken := (s.queue q).taken + 1#16 }).statusSoon q)

theorem State.numbered_spec (s : State) (q : Nat) :
    (s.numbered q).queue q = { s.queue q with seq := (s.queue q).seq + 1#32, taken := (s.queue q).taken + 1#16, statusDue := true }
      ∧ (s.numbered q).host.launches = s.host.launches ∧ (s.numbered q).host.graphs = s.host.graphs ∧ (s.numbered q).fresh = s.fresh
      ∧ (s.numbered q).mem = s.mem ∧ (s.numbered q).clk = s.clk := by
  obtain ⟨hq, hl, hg, hf, hm, _, hc⟩ :=
    (s.putQueue q { s.queue q with seq := (s.queue q).seq + 1#32, taken := (s.queue q).taken + 1#16 }).statusSoon_spec q
  rw [State.putQueue_queue_self] at hq
  exact ⟨hq, hl, hg, hf, hm, hc⟩

/-- The state in which a kick's launch stands in its queue. -/
def State.launchHeld (t : State) (q l : Nat) (y : Launch) : State :=
  let u := t.newId.2.setHost { t.host with launches := t.host.launches.put l y }
  u.putQueue q { u.queue q with held := u.insertHeld l y.first (u.queue q).held }

theorem State.kick_of_good {fn : Nat} {v : BitVec 64} {g : Graph} (he : (s.queue q).en = true) (hfn : (s.queue q).fn = fn)
    (hl : s.fnLive fn = true) (hd : (s.queue q).draining = false) (hh : (s.queue q).held.length < 64) (hz : pteBits v 59 5 = 0)
    (hg : s.graph? (s.queue q).pslot.toNat (s.queue q).desc.ctx (v.setWidth 32) = some g) (hs : pteBits v 32 24 < (s.queue q).desc.slots)
    (hn : ∀ nd ∈ g.nodes, nd.kind ≠ .evwait) :
    s.kick fn q 0 8 v = ((s.numbered q).launchHeld q s.fresh (s.kicked q v g)).after 0 (.launchStart s.fresh) := by
  obtain ⟨hq, _, hgr, hf, hm, hc⟩ := s.numbered_spec q
  have hg' : (s.numbered q).graph? (s.queue q).pslot.toNat (s.queue q).desc.ctx (low32 v) = some g := by
    rw [← hg]
    unfold State.graph?
    rw [hgr]
    rfl
  have hb : ∀ a n, (s.numbered q).newId.2.hostBytes (s.queue q).desc.pasid a n = s.hostBytes (s.queue q).desc.pasid a n :=
    fun a n => State.readBytes_congr hm _ n
  subst hfn
  unfold State.kick
  dsimp only
  rw [if_neg (by simp [he, hl, hd]), if_neg (Nat.not_le.2 hh), if_neg (by simp), if_neg (not_not.2 hz)]
  simp only
    [show (s.putQueue q { s.queue q with seq := (s.queue q).seq + 1#32, taken := (s.queue q).taken + 1#16 }).statusSoon q = s.numbered q from rfl,
    hg', if_neg (Nat.not_le.2 hs), hb]
  rw [State.peekEvents_of_no_wait _ _ _ _ hn]
  have hid : (s.numbered q).newId.1 = s.fresh := hf
  rw [hid]
  rfl

theorem State.kick_spec {fn : Nat} {v : BitVec 64} {g : Graph} (he : (s.queue q).en = true) (hfn : (s.queue q).fn = fn)
    (hl : s.fnLive fn = true) (hd : (s.queue q).draining = false) (hh : (s.queue q).held.length < 64) (hz : pteBits v 59 5 = 0)
    (hg : s.graph? (s.queue q).pslot.toNat (s.queue q).desc.ctx (v.setWidth 32) = some g) (hs : pteBits v 32 24 < (s.queue q).desc.slots)
    (hn : ∀ nd ∈ g.nodes, nd.kind ≠ .evwait) :
    ((s.kick fn q 0 8 v).queue q).seq = (s.queue q).seq + 1#32 ∧ ((s.kick fn q 0 8 v).queue q).taken = (s.queue q).taken + 1#16
      ∧ s.fresh ∈ ((s.kick fn q 0 8 v).queue q).held ∧ (s.kick fn q 0 8 v).host.launches.find s.fresh = some (s.kicked q v g) := by
  rw [State.kick_of_good he hfn hl hd hh hz hg hs hn]
  obtain ⟨hq, _⟩ := s.numbered_spec q
  let t := s.numbered q
  let u := t.newId.2.setHost { t.host with launches := t.host.launches.put s.fresh (s.kicked q v g) }
  have hu : u.queue q = t.queue q := rfl
  have hx : ((t.launchHeld q s.fresh (s.kicked q v g)).after 0 (.launchStart s.fresh)).queue q
      = { t.queue q with held := u.insertHeld s.fresh (s.kicked q v g).first (t.queue q).held } := State.putQueue_queue_self ..
  rw [hx]
  refine ⟨by rw [hq], by rw [hq], State.mem_insertHeld .., Tbl.find_put_self ..⟩

/-! ### Launches -/

theorem State.startHeld_onlyDue (s : State) (q : Nat) : s.onlyDue (s.startHeld q) :=
  State.onlyDue_foldl (fun s _ => s.post_onlyDue _ _) _ _

theorem State.startNodes_onlyDue (s : State) (l : Nat) (x : Launch) : s.onlyDue (s.startNodes l x) := by
  refine State.onlyDue_foldl (fun s e => ?_) _ _
  split
  · exact s.after_onlyDue _ _
  · exact s.onlyDue_refl

/-- The state in which a launch has left its queue with the generation in force. -/
def State.launched (s : State) (q l : Nat) (y : Launch) : State :=
  let u := s.setHost { s.host with launches := s.host.launches.put l { y with started := true, gen := (s.part y.part).gen } }
  u.putQueue q { u.queue q with held := (u.queue q).held.filter (· ≠ l) }

theorem State.launchStart_of_may {l seq : Nat} {y : Launch} (hl : s.host.launches.find l = some y) (hq : y.queue = some (q, seq))
    (hs : y.started = false) (hm : s.mayStart q l y = true) :
    s.launchStart l = ((s.launched q l y).startNodes l { y with started := true, gen := (s.part y.part).gen }).startHeld q := by
  unfold State.launchStart
  cases y
  dsimp only at hq hs
  subst hq hs
  simp only [hl, hm, Bool.not_true, Bool.or_self, Bool.false_eq_true, if_false]
  rfl

theorem State.launchStart_spec {l seq : Nat} {y : Launch} (hl : s.host.launches.find l = some y) (hq : y.queue = some (q, seq))
    (hs : y.started = false) (hm : s.mayStart q l y = true) :
    (s.launchStart l).host.launches.find l = some { y with started := true, gen := (s.part y.part).gen }
      ∧ l ∉ ((s.launchStart l).queue q).held := by
  rw [State.launchStart_of_may hl hq hs hm]
  have hd : (s.launched q l y).onlyDue (((s.launched q l y).startNodes l { y with started := true, gen := (s.part y.part).gen }).startHeld q) :=
    State.onlyDue_trans (State.startNodes_onlyDue ..) (State.startHeld_onlyDue ..)
  obtain ⟨hh, _⟩ := State.onlyDue_spec hd
  have hx : (s.launched q l y).queue q = { s.queue q with held := (s.queue q).held.filter (· ≠ l) } := State.putQueue_queue_self ..
  rw [State.queue, hh]
  refine ⟨Tbl.find_put_self .., ?_⟩
  rw [show (s.launched q l y).host.queues.get Queue.reset q = (s.launched q l y).queue q from rfl, hx]
  simp

/-- The number in order, with nothing retired before it, is counted at once. -/
theorem Queue.advance_of_next {x : Queue} {b : Bool} (h : x.retired = []) :
    (Queue.advance 2 { x with retired := x.retired ++ [(x.done, b)] }).done = x.done + 1#32 := by
  have hx : ∀ n (y : Queue), y.retired = [] → (Queue.advance n y).done = y.done := by
    intro n y hy
    cases n with
    | zero => rfl
    | succ n => simp [Queue.advance, hy]
  rw [h, Queue.advance]
  simp only [List.nil_append, List.find?_cons, decide_true]
  exact hx 1 _ (by simp)

theorem State.queueRetire_spec (s : State) (q : Nat) (seq : Word) (irq : Bool) :
    (s.queueRetire q seq irq).host.launches = s.host.launches ∧ (s.queueRetire q seq irq).mem = s.mem
      ∧ ((s.queue q).done = seq → (s.queue q).retired = [] → ((s.queueRetire q seq irq).queue q).done = (s.queue q).done + 1#32) := by
  unfold State.queueRetire
  dsimp only
  obtain ⟨hq, hl, _, _, hm, _⟩ := (s.putQueue q (({ s.queue q with retired := (s.queue q).retired ++ [(seq, irq)] } : Queue).advance
    (((s.queue q).retired ++ [(seq, irq)]).length + 1))).statusSoon_spec q
  refine ⟨hl, hm, fun hd hr => ?_⟩
  rw [hq, State.putQueue_queue_self, ← hd]
  rw [show ((s.queue q).retired ++ [((s.queue q).done, irq)]).length + 1 = 2 by simp [hr]]
  exact Queue.advance_of_next hr

theorem State.launchRetire_of_over {l seq : Nat} {y : Launch} (hl : s.host.launches.find l = some y) (hq : y.queue = some (q, seq))
    (ho : y.runs.all NodeRun.over = true) :
    ((s.setHost { s.host with launches := s.host.launches.del l }).queueRetire q (BitVec.ofNat 32 seq) y.irq).onlyDue (s.launchRetire l) := by
  unfold State.launchRetire
  simp only [hl, hq, ho, Bool.not_true, Bool.false_eq_true, if_false]
  split
  · exact State.onlyDue_trans (State.startHeld_onlyDue ..) (State.post_onlyDue ..)
  · exact State.startHeld_onlyDue ..

theorem State.launchRetire_spec {l seq : Nat} {y : Launch} (hl : s.host.launches.find l = some y) (hq : y.queue = some (q, seq))
    (ho : y.runs.all NodeRun.over = true) (hs : Tbl.sorted s.host.launches = true) :
    (s.launchRetire l).host.launches.find l = none ∧ (s.launchRetire l).mem = s.mem
      ∧ ((s.queue q).done = BitVec.ofNat 32 seq → (s.queue q).retired = [] → ((s.launchRetire l).queue q).done = (s.queue q).done + 1#32) := by
  obtain ⟨hh, hm, _⟩ := State.onlyDue_spec (State.launchRetire_of_over hl hq ho)
  obtain ⟨hl', hm', hd'⟩ := (s.setHost { s.host with launches := s.host.launches.del l }).queueRetire_spec q (BitVec.ofNat 32 seq) y.irq
  have hq' : (s.launchRetire l).queue q = ((s.setHost { s.host with launches := s.host.launches.del l }).queueRetire q
      (BitVec.ofNat 32 seq) y.irq).queue q := by
    unfold State.queue
    rw [hh]
  rw [hq', hh, hm, hm', hl']
  exact ⟨Tbl.find_del_self l hs, rfl, hd'⟩
end

/-- Settles O48: each event changes the queue and the launch it names; what it starts is only posted. -/
theorem queueAndLaunchEvents : Obligations.QueueAndLaunchEvents := by
  intro s fn q x
  refine ⟨fun hs he hp hr hc => ?_, fun i hi he => ?_, fun hs hd hi => ?_, fun v g hs he hfn hl hd hh hz hg hsl hn => ?_,
    fun o w v hs h => ?_, fun l y seq hs hl hq hst hm => ?_, fun l y seq hs hl hq ho hso => ?_, fun hs => ?_⟩
  · have hx : exec .queueEnable s = .next (s.queueEnable fn q) := exec_of_subject hs
    obtain ⟨hdue, ⟨b, hq⟩, hm, hg⟩ := State.queueEnable_spec he hp hr hc
    refine ⟨_, hx, hdue, ?_⟩
    rw [hq]
    exact ⟨rfl, rfl, rfl, rfl, rfl, rfl, hm, hg⟩
  · have hx : exec i s = .next (s.drain fn q) := by
      rcases hi with ⟨rfl, hs⟩ | ⟨rfl, hs⟩
      · exact exec_of_subject hs
      · exact exec_of_subject hs
    obtain ⟨hq, hm⟩ := State.drain_spec (fn := fn) he
    refine ⟨_, hx, ?_⟩
    rw [hq]
    exact ⟨rfl, he, hm⟩
  · have hx : exec .queueDrainDone s = .next (s.queueDrainDone q) := exec_of_subject hs
    rw [hx, State.queueDrainDone_of_idle hd hi]
  · have hx : exec .kick s = .next (s.kick fn q 0 8 v) := exec_of_subject hs
    obtain ⟨hseq, htaken, hheld, hfind⟩ := State.kick_spec he hfn hl hd hh hz hg hsl hn
    exact ⟨_, s.kicked q v g, hx, hseq, htaken, hheld, hfind, rfl, rfl, rfl, rfl⟩
  · have hx : exec .kick s = .next (s.kick fn q o w v) := exec_of_subject hs
    rw [hx, State.kick_of_refused h]
  · have hx : exec .launchStart s = .next (s.launchStart l) := exec_of_subject hs
    obtain ⟨hfind, hheld⟩ := State.launchStart_spec hl hq hst hm
    exact ⟨_, _, hx, hfind, rfl, rfl, hheld⟩
  · have hx : exec .launchRetire s = .next (s.launchRetire l) := exec_of_subject hs
    obtain ⟨hfind, hm, hdone⟩ := State.launchRetire_spec hl hq ho hso
    exact ⟨_, hx, hfind, hm, hdone⟩
  · have hx : exec .statusWrite s = .next (s.statusWrite q) := exec_of_subject hs
    obtain ⟨hm, hdue, hirq, hout⟩ := s.statusWrite_spec q
    exact ⟨_, hx, hm, hdue, hirq, hout⟩

end Sys2Proof.Machine
end

section
namespace Sys2Proof.Machine

/-! ## Graphs, nodes and weight loads (O49) -/

/-! ### Handles -/

/-- A handle that a new graph of `part` may not have. -/
def State.handleTaken (s : State) (part : Nat) (h : Word) : Prop := h = 0#32 ∨ ∃ g ∈ s.host.graphs, g.part = part ∧ g.handle = h

section
variable {s : State} {part : Nat}

theorem State.freeHandle_succ (n : Nat) (h : Word) :
    (s.handleTaken part h → s.freeHandle part (n + 1) h = s.freeHandle part n (h + 1#32))
      ∧ (¬ s.handleTaken part h → s.freeHandle part (n + 1) h = h) := by
  have hiff : (h = 0#32 ∨ (s.host.graphs.any fun g => g.part = part ∧ g.handle = h) = true) ↔ s.handleTaken part h := by
    simp [State.handleTaken]
  exact ⟨fun ht => if_pos (hiff.2 ht), fun ht => if_neg (mt hiff.1 ht)⟩

/-- The search answers a handle that is not taken, or has met `n` taken ones in a row. -/
theorem State.freeHandle_free_or (n : Nat) (h : Word) :
    ¬ s.handleTaken part (s.freeHandle part n h) ∨ ∀ i < n, s.handleTaken part (h + BitVec.ofNat 32 i) := by
  induction n generalizing h with
  | zero => exact .inr fun i hi => absurd hi (Nat.not_lt_zero i)
  | succ n ih =>
    obtain ⟨hnext, hhere⟩ := State.freeHandle_succ (s := s) (part := part) n h
    by_cases ht : s.handleTaken part h
    · rw [hnext ht]
      refine (ih (h + 1#32)).imp id fun hall i hi => ?_
      cases i with
      | zero => simpa using ht
      | succ i =>
        have hi' := hall i (by omega)
        rwa [BitVec.add_assoc, show 1#32 + BitVec.ofNat 32 i = BitVec.ofNat 32 (i + 1) by rw [Nat.add_comm i 1, BitVec.ofNat_add]] at hi'
    · rw [hhere ht]
      exact .inl ht

/-- More handles in a row than there are graphs are not all taken. -/
theorem State.not_all_handles_taken {n : Nat} (h : Word) (hn : s.host.graphs.length + 1 < n) (hw : n ≤ 2 ^ 32) :
    ¬ ∀ i < n, s.handleTaken part (h + BitVec.ofNat 32 i) := by
  intro hall
  let taken : Finset Word := insert 0#32 (s.host.graphs.map (·.handle)).toFinset
  have hcard : taken.card < (Finset.range n).card := by
    have h1 := Finset.card_insert_le 0#32 (s.host.graphs.map (·.handle)).toFinset
    have h2 := List.toFinset_card_le (s.host.graphs.map (·.handle))
    rw [List.length_map] at h2
    rw [Finset.card_range]
    change (insert 0#32 (s.host.graphs.map (·.handle)).toFinset).card < n
    omega
  obtain ⟨i, hi, j, hj, hne, heq⟩ := Finset.exists_ne_map_eq_of_card_lt_of_maps_to hcard
    (f := fun i => h + BitVec.ofNat 32 i) fun i hi => by
      rcases hall i (by simpa using hi) with h0 | ⟨g, hg, -, hgh⟩
      · exact Finset.mem_coe.2 (Finset.mem_insert.2 (.inl h0))
      · exact Finset.mem_coe.2 (Finset.mem_insert_of_mem (List.mem_toFinset.2 (List.mem_map.2 ⟨g, hg, hgh⟩)))
  have hi' := Finset.mem_range.1 hi
  have hj' := Finset.mem_range.1 hj
  have h1 : BitVec.ofNat 32 i = BitVec.ofNat 32 j := BitVec.add_right_inj h |>.1 heq
  have h2 := congrArg BitVec.toNat h1
  rw [BitVec.toNat_ofNat, BitVec.toNat_ofNat, Nat.mod_eq_of_lt (by omega), Nat.mod_eq_of_lt (by omega)] at h2
  exact hne h2

theorem State.freeHandle_free (h : Word) (hl : s.host.graphs.length < 2 ^ 31) :
    ¬ s.handleTaken part (s.freeHandle part (s.host.graphs.length + 2) h) :=
  (State.freeHandle_free_or _ h).resolve_right (State.not_all_handles_taken h (Nat.lt_succ_self _) (by omega))
end

section
variable {s : State} {fn : Nat} {v : BitVec 64}

theorem State.putGreg_greg_self (s : State) (fn : Nat) (x : GReg) : (s.putGreg fn x).greg fn = x := Tbl.get_put_self ..

theorem State.putPart_part_self (s : State) (p : Nat) (x : Part) : (s.putPart p x).part p = x := Tbl.get_put_self ..

theorem State.gcmd_of_error {e : Byte} {i : Nat}
    (h : s.parseGraph (pslotOf fn (s.greg fn).pslot) (pteBits v 4 4) (pteBits v 8 56 * 256) = .error (e, i)) :
    s.gcmd fn v = s.putGreg fn { s.greg fn with done := true, errg := e, node := BitVec.ofNat 16 i, handle := 0#32 } := by
  unfold State.gcmd
  simp only [h]

/-- The state in which the graph of `nodes` is registered under `h`. -/
def State.registeredGraph (s : State) (fn part ctx : Nat) (h : Word) (nodes : List Node) : State :=
  let u := s.putPart part { s.part part with next := h + 1#32 }
  let w := u.setHost { u.host with graphs := u.host.graphs ++ [{ part := part, ctx := ctx, handle := h, nodes := nodes }] }
  w.putGreg fn { w.greg fn with done := true, errg := 0#8, node := 0#16, handle := h }

theorem State.gcmd_of_ok {nodes : List Node}
    (h : s.parseGraph (pslotOf fn (s.greg fn).pslot) (pteBits v 4 4) (pteBits v 8 56 * 256) = .ok nodes) :
    s.gcmd fn v = s.registeredGraph fn (pslotOf fn (s.greg fn).pslot) (pteBits v 4 4)
      (s.freeHandle (pslotOf fn (s.greg fn).pslot) (s.host.graphs.length + 2) (s.part (pslotOf fn (s.greg fn).pslot)).next) nodes := by
  unfold State.gcmd
  simp only [h]
  rfl

theorem State.registeredGraph_spec (s : State) (fn part ctx : Nat) (h : Word) (nodes : List Node) :
    let t := s.registeredGraph fn part ctx h nodes
    (t.greg fn).done = true ∧ (t.greg fn).errg = 0#8 ∧ (t.greg fn).handle = h ∧ (t.part part).next = h + 1#32 ∧ t.mem = s.mem
      ∧ t.host.graphs = s.host.graphs ++ [{ part := part, ctx := ctx, handle := h, nodes := nodes }] := by
  intro t
  have hg : t.greg fn
      = { (s.putPart part { s.part part with next := h + 1#32 }).greg fn with done := true, errg := 0#8, node := 0#16, handle := h } :=
    Tbl.get_put_self ..
  have hp : t.part part = { s.part part with next := h + 1#32 } := Tbl.get_put_self ..
  rw [hg, hp]
  exact ⟨rfl, rfl, rfl, rfl, rfl, rfl⟩

theorem State.mem_gunreg_graphs (s : State) (fn : Nat) (h : Word) (g : Graph) :
    g ∈ (s.gunreg fn h).host.graphs ↔ g ∈ s.host.graphs ∧ ¬(g.part = pslotOf fn (s.greg fn).pslot ∧ g.handle = h) := by
  have hx : (s.gunreg fn h).host.graphs = s.host.graphs.filter fun g => !(g.part == pslotOf fn (s.greg fn).pslot && g.handle == h) := rfl
  rw [hx, List.mem_filter]
  simp only [Bool.not_eq_true', Bool.and_eq_false_iff, beq_eq_false_iff_ne, not_and_or, ne_eq]
end

/-! ### Nodes -/

section
variable {s : State} {l n : Nat} {x : Launch} {nd : Node}

/-- A node that waits, with its predecessors finished, starts as its kind says. -/
theorem State.nodeStart_of_open (hx : s.host.launches.find l = some x) (hn : x.nodes[n]? = some nd) (hr : x.runs[n]? = some .waiting)
    (hs : x.started = true) (ha : x.asked = none) (hp : ∀ p ∈ nd.preds, x.runs[p]? = some .finished) :
    s.nodeStart l n = match nd.kind with
      | .grid => s.gridStart l n x nd .waiting
      | .ordered => s.gridStart l n x nd .waiting
      | .copy => s.copyNode l n x nd
      | .evsig => ((s.setNodeRun l n (.running 1 false)).after (60 * hops 0 (s.homeDie x.part))
          (.eventActArrive x.part x.ctx nd.name (.signal none))).post s.clk (.nodeFinish l n)
      | .evwait => (s.setNodeRun l n (.running 1 false)).after (60 * hops 0 (s.homeDie x.part)) (.eventActArrive x.part x.ctx nd.name (.node l n))
      | .loadw =>
        let u := s.setNodeRun l n (.running 1 false)
        (u.putPart x.part { u.part x.part with loads := (u.part x.part).loads ++ [(l, n)] }).loadNext x.part := by
  have hall : (nd.preds.all fun p => x.runs[p]? == some .finished) = true := by
    simpa using hp
  unfold State.nodeStart
  simp only [hx, ha, hn, hr, hs, hall, Bool.and_false, Bool.and_self, Bool.false_eq_true, if_false, Bool.not_true]
    <;> rfl

theorem State.wakeOrdered_onlyDue (s : State) (part ctx : Nat) : s.onlyDue (s.wakeOrdered part ctx) := by
  refine State.onlyDue_foldl (fun t e => ?_) _ _
  split
  · refine State.onlyDue_foldl (fun u y => ?_) _ _
    split
    · exact u.post_onlyDue _ _
    · exact u.onlyDue_refl
  · exact t.onlyDue_refl

/-- The launch `x` once its node `n` has finished. -/
def Launch.finishedAt (x : Launch) (n : Nat) : Launch := { x with runs := skipFrom x.nodes (x.runs.set n .finished) 0 [] }

/-- The state in which the launch stands so, and its retirement has been looked for. -/
def State.nodeOver (s : State) (l n : Nat) (x : Launch) : State :=
  let u := s.setHost { s.host with launches := s.host.launches.put l (x.finishedAt n) }
  (u.startNodes l (x.finishedAt n)).post u.clk (.launchRetire l)

theorem State.nodeFinish_onlyDue (hx : s.host.launches.find l = some x) (hr : x.runs[n]? = some (.running 0 false)) (hn : x.nodes[n]? = some nd) :
    (s.nodeOver l n x).onlyDue (s.nodeFinish l n) := by
  unfold State.nodeFinish
  simp only [hx, hr, hn, ne_eq, not_true_eq_false, and_false, if_false, Bool.false_eq_true]
  split
  · exact State.wakeOrdered_onlyDue ..
  · exact State.onlyDue_refl _

theorem State.nodeFinish_spec (hx : s.host.launches.find l = some x) (hr : x.runs[n]? = some (.running 0 false)) (hn : x.nodes[n]? = some nd) :
    (s.nodeFinish l n).host.launches.find l = some (x.finishedAt n) ∧ (s.nodeFinish l n).mem = s.mem
      ∧ ∃ due, (due, Event.launchRetire l) ∈ (s.nodeFinish l n).agenda := by
  obtain ⟨hh, hm, -, ha⟩ := State.onlyDue_spec (State.nodeFinish_onlyDue hx hr hn)
  let s1 := s.setHost { s.host with launches := s.host.launches.put l (x.finishedAt n) }
  obtain ⟨hh', hm', -⟩ := State.onlyDue_spec (s1.startNodes_onlyDue l (x.finishedAt n))
  have hmem : (s.nodeOver l n x).mem = s.mem := hm'
  have hhost : (s.nodeOver l n x).host = s1.host := hh'
  rw [hh, hm, hmem, hhost]
  exact ⟨Tbl.find_put_self .., rfl, _, ha _ (mem_insertDue _ _ _)⟩
end

/-! ### Shards and the generation -/

section
variable {s : State} {part i : Nat} {ld : Load} {x : Shard} {bs : List Byte}

theorem State.shardHop_moves (s : State) (part i d : Nat) {hs : List Hop} (ho : ∀ l, (s.wall l).closed = false) :
    s.flitsMoved (s.shardHop part i d hs) ∧ s.onlyPosts (s.shardHop part i d hs) := by
  cases hs with
  | nil => exact ⟨State.flitsMoved_refl s, State.onlyPosts_refl s⟩
  | cons h r =>
    have hx : s.shardHop part i d (h :: r) = s.sendFlit h (.shard part i d r) 0 := if_neg (by simp [ho])
    rw [hx]
    exact ⟨State.sendFlit_moves .., State.sendFlit_onlyPosts ..⟩

/-- A walk whose every step only moves flits, while every firewall is open. -/
theorem State.foldl_movesFlits {α : Type} {f : State → α → State}
    (hf : ∀ s x, (∀ l, (State.wall s l).closed = false) → s.flitsMoved (f s x) ∧ s.onlyPosts (f s x)) (l : List α) (s : State)
    (ho : ∀ l, (s.wall l).closed = false) : s.flitsMoved (l.foldl f s) ∧ s.onlyPosts (l.foldl f s) := by
  induction l generalizing s with
  | nil => exact ⟨State.flitsMoved_refl s, State.onlyPosts_refl s⟩
  | cons x r ih =>
    obtain ⟨hm, hp⟩ := hf s x ho
    obtain ⟨hm', hp'⟩ := ih (f s x) fun l => by rw [State.flitsMoved_wall hm, ho]
    exact ⟨State.flitsMoved_trans hm hm', State.onlyPosts_trans hp hp'⟩

theorem State.sendShard_moves (s : State) (part i len : Nat) (ds : List Nat) (ho : ∀ l, (s.wall l).closed = false) :
    s.flitsMoved (s.sendShard part i len ds) ∧ s.onlyPosts (s.sendShard part i len ds) :=
  State.foldl_movesFlits (fun t d ht => State.foldl_movesFlits (fun u _ hu => u.shardHop_moves part i d hu) _ t ht) ds s ho

/-- The state in which a shard that has come is to be broadcast. -/
def State.shardCast (s : State) (part i : Nat) (ld : Load) (bs : List Byte) : State :=
  (s.putPart part { s.part part with load := some { ld with cast := true } }).post s.clk (.shardReceive part i (.bytes bs))

theorem State.shardReceive_cast (hl : (s.part part).load = some ld) (hx : ld.shards[i]? = some x) (hg : ld.got = i)
    (hf : s.shardFlies part i = false) (hc : ld.cast = false) :
    ∃ ds, s.shardReceive part i (.bytes bs) = (s.shardCast part i ld bs).sendShard part i x.len ds := by
  subst hg
  unfold State.shardReceive
  simp only [hl, hx, ne_eq, not_true_eq_false, if_false, hf, Bool.false_eq_true, hc, Bool.not_false, if_true]
  exact ⟨_, rfl⟩

theorem State.shardReceive_cast_spec (hl : (s.part part).load = some ld) (hx : ld.shards[i]? = some x) (hg : ld.got = i)
    (hf : s.shardFlies part i = false) (hc : ld.cast = false) (ho : ∀ l, (s.wall l).closed = false) :
    let t := s.shardReceive part i (.bytes bs)
    t.mem = s.mem ∧ t.groups = s.groups ∧ (t.part part).load = some { ld with cast := true }
      ∧ (s.clk, Event.shardReceive part i (.bytes bs)) ∈ t.agenda := by
  intro t
  obtain ⟨ds, ht⟩ := State.shardReceive_cast (bs := bs) hl hx hg hf hc
  obtain ⟨hmoves, -, -, ha⟩ := (s.shardCast part i ld bs).sendShard_moves part i x.len ds ho
  rw [← ht] at hmoves ha
  have hdue := ha _ (mem_insertDue s.clk (.shardReceive part i (.bytes bs)) _)
  obtain ⟨f, a, n, heq, -⟩ := hmoves
  have hp : t.part part = { s.part part with load := some { ld with cast := true } } := by
    rw [show t = _ from heq]
    exact Tbl.get_put_self ..
  rw [hp]
  refine ⟨?_, ?_, rfl, hdue⟩
  · rw [show t = _ from heq]; rfl
  · rw [show t = _ from heq]; rfl

theorem State.shardReceive_last (hl : (s.part part).load = some ld) (hx : ld.shards[i]? = some x) (hg : ld.got = i)
    (hf : s.shardFlies part i = false) (hc : ld.cast = true) (hd : Config.sha512 bs = x.digest) (hn : ld.shards[i + 1]? = none) :
    s.shardReceive part i (.bytes bs) =
      let u := s.storeShard part (s.loadCtx ld.launch).1 ld x bs
      let w := u.putPart part { u.part part with load := some { ld with got := i + 1 } }
      w.post w.clk (.generationPublish part) := by
  subst hg
  unfold State.shardReceive
  simp only [hl, hx, ne_eq, not_true_eq_false, if_false, hf, Bool.false_eq_true, hc, Bool.not_true, hd, hn]

/-- A load that ends well: its node finishes, and the next load of the slot starts. -/
theorem State.loadEnd_onlyDue (s : State) (part : Nat) (ld : Load) (i : Nat) :
    (s.putPart part { s.part part with load := none, ldDone := true, ldStatus := 0#3, ldShard := BitVec.ofNat 16 i }).onlyDue
      (s.loadEnd part ld 0 i) := by
  unfold State.loadEnd
  simp only [if_true]
  split
  · exact State.onlyDue_trans (State.post_onlyDue ..) (State.post_onlyDue ..)
  · exact State.post_onlyDue ..

theorem State.updDie_foldl_spec {α : Type} (D : α → Nat) (F : State → α → Die → Die) (l : List α) (s : State) :
    (l.foldl (fun t e => t.updDie (D e) (F t e)) s).host = s.host ∧ (l.foldl (fun t e => t.updDie (D e) (F t e)) s).mem = s.mem := by
  induction l generalizing s with
  | nil => exact ⟨rfl, rfl⟩
  | cons e r ih => exact ih (s.updDie (D e) (F s e))

theorem State.generationPublish_of_old (hl : (s.part part).load = some ld) (hb : s.bindsOlder part (s.part part).gen = true) :
    s.generationPublish part = s.post (s.clk + 1) (.generationPublish part) := by
  unfold State.generationPublish
  simp only [hl, hb, if_true]

theorem State.generationPublish_of_free (hl : (s.part part).load = some ld) (hb : s.bindsOlder part (s.part part).gen = false) :
    ∃ u : State, u.host = s.host ∧ u.mem = s.mem
      ∧ s.generationPublish part = (u.putPart part { u.part part with gen := (s.part part).gen + 1 }).loadEnd part ld 0 0 := by
  unfold State.generationPublish
  simp only [hl, hb, Bool.false_eq_true, if_false]
  obtain ⟨hh, hm⟩ := State.updDie_foldl_spec id (fun _ d y =>
    let table := (ld.spare.filter fun e => e.1.1 = d).foldl (fun (u : Tbl (BitVec 16)) e => u.put e.1.2 (BitVec.ofNat 16 (32768 + e.2)))
      (y.regions (s.part part).gen)
    if (s.part part).gen % 2 = 0 then { y with regionB := table } else { y with regionA := table }) (s.diesOf part) s
  exact ⟨_, hh, hm, rfl⟩

theorem State.generationPublish_spec (hl : (s.part part).load = some ld) (hb : s.bindsOlder part (s.part part).gen = false) :
    let t := s.generationPublish part
    (t.part part).gen = (s.part part).gen + 1 ∧ (t.part part).load = none ∧ (t.part part).ldDone = true ∧ (t.part part).ldStatus = 0#3
      ∧ t.mem = s.mem := by
  intro t
  obtain ⟨u, hh, hm, heq⟩ := State.generationPublish_of_free hl hb
  let w := u.putPart part { u.part part with gen := (s.part part).gen + 1 }
  obtain ⟨hh', hm', -⟩ := State.onlyDue_spec (w.loadEnd_onlyDue part ld 0)
  rw [← heq] at hh' hm'
  have hw : w.part part = { u.part part with gen := (s.part part).gen + 1 } := State.putPart_part_self ..
  have hp : t.part part = { w.part part with load := none, ldDone := true, ldStatus := 0#3, ldShard := BitVec.ofNat 16 0 } := by
    rw [State.part, hh']
    exact State.putPart_part_self ..
  rw [hp, hw, show t.mem = s.mem from hm'.trans hm]
  exact ⟨rfl, rfl, rfl, rfl, rfl⟩
end

/-- Settles O49. A free handle is found since fewer handles are taken than are tried. -/
theorem graphAndNodeEvents : Obligations.GraphAndNodeEvents := by
  refine ⟨fun s fn v hs => ?_, fun s fn h hs => ?_, fun s l n x nd hs hx hn hr hst ha hp => ?_, fun s l n x nd hs hx hr hn _ => ?_,
    fun s part i ld x bs hs hl hx hg hf hc hd hn => ?_, fun s part i ld x bs hs hl hx hg hf hc ho => ?_, fun s part ld hs hl => ?_⟩
  · intro part
    have he : exec .gcmd s = .next (s.gcmd fn v) := exec_of_subject hs
    refine ⟨fun e i hp => ?_, ?_⟩
    · rw [State.gcmd_of_error hp] at he
      refine ⟨_, he, ?_⟩
      rw [State.putGreg_greg_self]
      exact ⟨rfl, rfl, rfl, rfl, rfl⟩
    intro nodes hp h
    refine ⟨?_, fun hl => ?_, fun h0 hfree => ?_⟩
    · rw [State.gcmd_of_ok hp] at he
      exact ⟨_, he, State.registeredGraph_spec ..⟩
    · have hfree := State.freeHandle_free (part := part) (s.part part).next hl
      exact ⟨fun h0 => hfree (.inl h0), fun g hg hgp hgh => hfree (.inr ⟨g, hg, hgp, hgh⟩)⟩
    · refine (State.freeHandle_succ (s.host.graphs.length + 1) (s.part part).next).2 ?_
      rintro (h | ⟨g, hg, hgp, hgh⟩)
      · exact h0 h
      · exact hfree g hg hgp hgh
  · have he : exec .gunreg s = .next (s.gunreg fn h) := exec_of_subject hs
    exact ⟨_, he, rfl, s.mem_gunreg_graphs fn h⟩
  · intro far
    have he : exec .nodeStart s = .next (s.nodeStart l n) := exec_of_subject hs
    rw [State.nodeStart_of_open hx hn hr hst ha hp] at he
    refine ⟨fun hk => ?_, fun hk => ?_, fun hk => ?_, fun hk => ?_, fun hk => ?_⟩
    · rw [he, hk]
    · rw [he, hk]
    · rw [he, hk]
    · rcases hk with hk | hk
      · rw [he, hk]
      · rw [he, hk]
    · rw [he, hk]
  · have he : exec .nodeFinish s = .next (s.nodeFinish l n) := exec_of_subject hs
    obtain ⟨hfind, hm, hdue⟩ := State.nodeFinish_spec hx hr hn
    exact ⟨_, _, he, hfind, rfl, hm, hdue⟩
  · have he : exec .shardReceive s = .next (s.shardReceive part i (.bytes bs)) := exec_of_subject hs
    rw [State.shardReceive_last hl hx hg hf hc hd hn] at he
    exact ⟨_, _, he, rfl, rfl, _, mem_insertDue _ _ _⟩
  · have he : exec .shardReceive s = .next (s.shardReceive part i (.bytes bs)) := exec_of_subject hs
    exact ⟨_, he, State.shardReceive_cast_spec hl hx hg hf hc ho⟩
  · have he : exec .generationPublish s = .next (s.generationPublish part) := exec_of_subject hs
    refine ⟨fun hb => ?_, fun hb => ⟨_, he, State.generationPublish_spec hl hb⟩⟩
    rw [he, State.generationPublish_of_old hl hb]

end Sys2Proof.Machine
end

section
namespace Sys2Proof.Machine

/-! ## Contexts and translations (O50) -/

/-! ### How long the dies of a partition take to learn of something -/

theorem length_routeFrom_le (n a b : Nat) : (routeFrom a b n).length ≤ n := by
  induction n generalizing a with
  | zero => exact Nat.le_refl 0
  | succ n ih =>
    unfold routeFrom
    split
    · exact Nat.succ_le_succ (ih _)
    · split
      · exact Nat.succ_le_succ (ih _)
      · split
        · exact Nat.succ_le_succ (ih _)
        · split
          · exact Nat.succ_le_succ (ih _)
          · exact Nat.zero_le _

theorem hops_le (a b : Nat) : hops a b ≤ 8 := length_routeFrom_le 8 a b

theorem State.farHop_le (s : State) (d : Nat) : s.farHop d ≤ 8 := by
  have h : ∀ (l : List Nat) (m : Nat), m ≤ 8 → l.foldl (fun m x => max m (hops d x)) m ≤ 8 := by
    intro l
    induction l with
    | nil => exact fun m hm => hm
    | cons x r ih => exact fun m hm => ih _ (max_le hm (hops_le d x))
  exact h _ 0 (Nat.zero_le 8)

/-- An event between two moments is due there. -/
theorem State.mem_within_agenda (s : State) {base limit : Nat} (e : Event) (h : base < limit) :
    ∃ due, s.clk + base ≤ due ∧ due < s.clk + limit ∧ (due, e) ∈ (s.within base limit e).agenda := by
  refine ⟨s.clk + base + Config.delay s.freeCtr % (limit - base), Nat.le_add_right .., ?_, mem_insertDue _ e _⟩
  have := Nat.mod_lt (Config.delay s.freeCtr) (Nat.sub_pos_of_lt h)
  omega

theorem State.within_onlyDue (s : State) (base limit : Nat) (e : Event) : s.onlyDue (s.within base limit e) :=
  ⟨_, _, rfl, fun _ h => mem_insertDue_of_mem _ e h⟩

/-- Events posted leave every table of the machine. -/
theorem State.onlyDue_tables {s t : State} (h : s.onlyDue t) :
    t.ctxs = s.ctxs ∧ t.tlb = s.tlb ∧ t.cores = s.cores ∧ t.dies = s.dies ∧ t.clk = s.clk ∧ t.teams = s.teams := by
  obtain ⟨_, _, rfl, _⟩ := h
  exact ⟨rfl, rfl, rfl, rfl, rfl, rfl⟩

/-! ### Enabling -/

section
variable {s : State} {d c : Nat}

theorem State.putCtx_ctx_self (s : State) (d c : Nat) (x : Ctx) : (s.putCtx d c x).ctx d c = x := Tbl.get_put_self ..

theorem State.contextEnable_of_disabled (he : (s.ctx d c).en = false) :
    s.contextEnable d c =
      if (s.ctx d c).sdtb = 0#64 ∨ (s.ctx d c).rbtb = 0#64 ∨ (s.ctx d c).ptb = 0#64 then s.putCtx d c { s.ctx d c with errc := 1#8 }
      else if (s.ctx d c).evtb = 0#64 ∨ (s.ctx d c).saveb = 0#64 then s.putCtx d c { s.ctx d c with errc := 2#8 }
      else if pteBits (s.ctx d c).fqb 12 52 = 0 then s.putCtx d c { s.ctx d c with errc := 3#8 }
      else if s.slotOf d = 0 ∨ s.fabric.unjoined = true then s.putCtx d c { s.ctx d c with errc := 5#8 }
      else (State.freePages d c 16 (s.putCtx d c { s.ctx d c with en := true, killing := false })).gainWork d c :=
  if_neg (by simp [he])

/-! ### Disabling -/

theorem State.foldl_ctxs {α : Type} {f : State → α → State} (hf : ∀ s x, (f s x).ctxs = s.ctxs) (l : List α) (s : State) :
    (l.foldl f s).ctxs = s.ctxs := by
  induction l generalizing s with
  | nil => rfl
  | cons x r ih => exact (ih _).trans (hf s x)

theorem State.statusSoon_ctxs (s : State) (q : Nat) : (s.statusSoon q).ctxs = s.ctxs := by
  unfold State.statusSoon
  split <;> rfl

theorem State.recordErrFrom_ctxs (code : Byte) (n l : Nat) (s : State) : (State.recordErrFrom code n l s).ctxs = s.ctxs := by
  induction n generalizing code l s with
  | zero => rfl
  | succ n ih =>
    unfold State.recordErrFrom
    split
    · rfl
    · split
      · rfl
      · dsimp only
        split
        · exact State.statusSoon_ctxs ..
        · exact ih ..
        · rfl

theorem State.setNodeRun_ctxs (s : State) (l n : Nat) (r : NodeRun) : (s.setNodeRun l n r).ctxs = s.ctxs := by
  unfold State.setNodeRun
  split <;> rfl

theorem State.dropRange_ctxs (s : State) (r : Range) : (s.dropRange r).ctxs = s.ctxs := by
  have hrec : (s.recordErr r.launch 0x10#8).ctxs = s.ctxs := State.recordErrFrom_ctxs ..
  unfold State.dropRange
  dsimp only
  split
  · exact hrec
  · split
    · split
      · exact hrec
      · split
        · exact (State.setNodeRun_ctxs ..).trans hrec
        · exact (State.setNodeRun_ctxs ..).trans hrec
    · exact hrec

theorem State.makeReady_ctxs (s : State) (k : GKey) (n : Nat) : (s.makeReady k n).ctxs = s.ctxs := by
  unfold State.makeReady State.updGroup
  split <;> rfl

theorem State.tryPhase_ctxs (s : State) (b : BarKey) : (s.tryPhase b).ctxs = s.ctxs := by
  unfold State.tryPhase
  split
  · refine State.foldl_ctxs (fun t k => ?_) _ _
    split
    · split
      · exact State.makeReady_ctxs ..
      · rfl
    · rfl
  · rfl

theorem State.gridPhases_ctxs (s : State) (l n : Nat) : (s.gridPhases l n).ctxs = s.ctxs := by
  refine State.foldl_ctxs (fun t b => ?_) _ _
  split
  · split
    · exact State.tryPhase_ctxs ..
    · rfl
  · rfl

theorem State.killRanges_ctxs (s : State) (c d : Nat) : (s.killRanges c d).ctxs = s.ctxs := by
  unfold State.killRanges
  dsimp only
  split
  · rfl
  · exact State.foldl_ctxs (fun t r => (State.gridPhases_ctxs ..).trans (State.dropRange_ctxs ..)) _ _

theorem State.forgetObjects_ctxs (s : State) (part c : Nat) : (s.forgetObjects part c).ctxs = s.ctxs := by
  unfold State.forgetObjects
  split <;> rfl

/-- Counting a context's run keeps every EN. -/
theorem State.setRun_en (s : State) (d : Nat) (r : Option Nat) (c : Nat) : ((s.setRun d r).ctx d c).en = (s.ctx d c).en := by
  unfold State.setRun
  dsimp only
  split
  next x _ =>
    have h : ∀ (u : State) (f : Die → Die), (u.updDie d f).ctx d c = u.ctx d c := fun _ _ => rfl
    rw [h]
    by_cases hx : d * 16 + c = d * 16 + x
    · obtain rfl : c = x := Nat.add_left_cancel hx
      rw [State.updCtx_ctx_self]
    · have hne : (s.updCtx d x fun y => { y with ran := s.ranClk d x }).ctx d c = s.ctx d c := Tbl.get_put_ne _ _ _ hx
      rw [hne]
  · rfl

/-- A context that goes off is no longer enabled. -/
theorem State.contextOff_en (s : State) (d c : Nat) : ((s.contextOff d c).ctx d c).en = false := by
  have hoff : ∀ (l : List Nat), ((l.foldl (fun t x => t.killRanges c x)
      ((s.putCtx d c { s.ctx d c with en := false, killing := false }).forgetObjects (s.slotOf d) c)).ctx d c).en = false := by
    intro l
    have h := (State.foldl_ctxs (fun t x => t.killRanges_ctxs c x) l
      ((s.putCtx d c { s.ctx d c with en := false, killing := false }).forgetObjects (s.slotOf d) c)).trans (State.forgetObjects_ctxs ..)
    rw [State.ctx, h]
    exact congrArg Ctx.en (State.putCtx_ctx_self s d c { s.ctx d c with en := false, killing := false })
  unfold State.contextOff
  dsimp only
  split
  · rw [show ∀ (u : State) (f : Die → Die) (n : Nat) (e : Event), ((u.updDie d f).post n e).ctx d c = u.ctx d c from fun _ _ _ _ => rfl,
    State.setRun_en]
    exact hoff _
  · exact hoff _

theorem State.contextDisable_of_idle (he : (s.ctx d c).en = true) (hi : s.ctxIdle d c = true) : s.contextDisable d c = s.contextOff d c := by
  unfold State.contextDisable
  simp only [he, hi, Bool.not_true, Bool.false_eq_true, if_false, if_true]

theorem State.contextDisable_of_busy (he : (s.ctx d c).en = true) (hi : s.ctxIdle d c = false) :
    s.contextDisable d c = s.putCtx d c { s.ctx d c with errc := 4#8 } := by
  unfold State.contextDisable
  rw [if_neg (by simp [he]), if_neg (by simp [hi])]
  rfl

theorem State.contextIdle_of_idle (hk : (s.ctx d c).killing = true) (hi : s.ctxIdle d c = true) : s.contextIdle d c = s.contextOff d c := by
  unfold State.contextIdle
  simp only [hk, hi, Bool.not_true, Bool.false_eq_true, if_false, if_true]

theorem State.contextIdle_of_busy (hk : (s.ctx d c).killing = true) (hi : s.ctxIdle d c = false) :
    s.contextIdle d c = s.post (s.clk + 1) (.contextIdle d c) := by
  unfold State.contextIdle
  simp only [hk, hi, Bool.not_true, Bool.false_eq_true, if_false]

/-- A kill ends with the die's tables rid of the context, and with the wait of an EN = 0 that is held. -/
theorem State.contextKill_ends (s : State) (d c : Nat) (hold : Bool) : ∃ u : State,
    s.contextKill d c hold = if hold && ((u.killTables c d).ctx d c).en then
        ((u.killTables c d).updCtx d c fun x => { x with killing := true }).post (u.killTables c d).clk (.contextIdle d c)
      else u.killTables c d := ⟨_, rfl⟩

theorem State.killTables_die (s : State) (c d : Nat) : (s.killTables c d).die d = { s.die d with
    events := (s.die d).events.filter fun e => e.1.1 ≠ c
    held := (s.die d).held.filter fun h => h.ctx ≠ c
    queues := (s.die d).queues.filter fun e => e.1 / 8 ≠ c } := Tbl.get_put_self ..

theorem State.contextKill_spec (s : State) (d c : Nat) (hold : Bool) :
    let t := s.contextKill d c hold
    (∀ e ∈ (t.die d).events, e.1.1 ≠ c) ∧ (∀ h ∈ (t.die d).held, h.ctx ≠ c) ∧ (∀ q ∈ (t.die d).queues, q.1 / 8 ≠ c)
      ∧ (hold = true → (t.ctx d c).en = true → (t.ctx d c).killing = true ∧ (t.clk, Event.contextIdle d c) ∈ t.agenda) := by
  intro t
  obtain ⟨u, hu⟩ := s.contextKill_ends d c hold
  have hdie : t.die d = (u.killTables c d).die d := by
    rw [show t = _ from hu]
    split <;> rfl
  rw [hdie, State.killTables_die]
  refine ⟨fun e he => ?_, fun h hh => ?_, fun q hq => ?_, fun hhold hen => ?_⟩
  · simpa using (List.mem_filter.1 he).2
  · simpa using (List.mem_filter.1 hh).2
  · simpa using (List.mem_filter.1 hq).2
  · rw [show t = _ from hu] at hen ⊢
    split at hen
    next hc =>
      rw [if_pos hc]
      have hx : ∀ (w : State) (n : Nat) (e : Event), ((w.updCtx d c fun x => { x with killing := true }).post n e).ctx d c
          = { w.ctx d c with killing := true } := fun w n e =>
        State.updCtx_ctx_self w d c fun x => { x with killing := true }
      rw [hx]
      exact ⟨rfl, mem_insertDue _ _ _⟩
    next hc => exact absurd (by simp [hhold, hen]) hc

/-! ### The fault ring and TLBINV -/

theorem State.fqciWrite_of_outside {v : Word} (h : ringSize (s.ctx d c).fqb < ((s.ctx d c).fqpi - v).toNat) : s.fqciWrite d c v = s := if_pos h

theorem State.fqciWrite_of_inside {v : Word} (h : ((s.ctx d c).fqpi - v).toNat ≤ ringSize (s.ctx d c).fqb) :
    s.fqciWrite d c v = (s.putCtx d c { s.ctx d c with fqci := v }).drainFaults d c (s.ctx d c).faults := if_neg (Nat.not_lt.2 h)

theorem State.tlbinv_spec (s : State) (d c : Nat) (v : BitVec 64) :
    let t := s.tlbinv d c v
    (t.ctx d c).tlbBusy = (s.ctx d c).tlbBusy ++ [v] ∧ t.tlb = s.tlb ∧ t.mem = s.mem
      ∧ ((s.ctx d c).tlbBusy = [] → ∃ due, 256 + s.clk ≤ due ∧ due < 2048 + s.clk ∧ (due, Event.tlbinvDone d c) ∈ t.agenda) := by
  intro t
  let u := s.updCtx d c fun x => { x with tlbBusy := x.tlbBusy ++ [v] }
  have hu : u.ctx d c = { s.ctx d c with tlbBusy := (s.ctx d c).tlbBusy ++ [v] } := State.updCtx_ctx_self ..
  by_cases hi : (s.ctx d c).tlbBusy = []
  · have ht : t = u.tlbinvPost d c := if_pos (by simp [hi])
    have hx : t.ctx d c = u.ctx d c := by rw [ht]; rfl
    rw [hx, hu]
    refine ⟨rfl, by rw [ht]; rfl, by rw [ht]; rfl, fun _ => ?_⟩
    have hfar := u.farHop_le d
    obtain ⟨due, hlo, hhi, hmem⟩ := u.mem_within_agenda (base := 256 + 60 * u.farHop d) (limit := 2048) (.tlbinvDone d c) (by omega)
    have hclk : u.clk = s.clk := rfl
    exact ⟨due, by omega, by omega, by rw [ht]; exact hmem⟩
  · have ht : t = u := if_neg (by simp [hi])
    rw [ht, hu]
    exact ⟨rfl, rfl, rfl, fun h => absurd h hi⟩

theorem State.retryNow_spec (s : State) (d : Nat) : ∃ a, s.retryNow d = s.setAgenda a := by
  have h : ∀ (l : List (Nat × Event)) (u : State), ∃ a, l.foldl (fun t e => t.post t.clk e.2) u = u.setAgenda a := by
    intro l
    induction l with
    | nil => exact fun u => ⟨u.agenda, rfl⟩
    | cons e r ih =>
      intro u
      obtain ⟨a, ha⟩ := ih (u.post u.clk e.2)
      exact ⟨a, ha⟩
  obtain ⟨a, ha⟩ := h _ _
  exact ⟨a, ha⟩

theorem State.foldl_retryNow_spec (l : List Nat) (s : State) : ∃ a, l.foldl State.retryNow s = s.setAgenda a := by
  induction l generalizing s with
  | nil => exact ⟨s.agenda, rfl⟩
  | cons d r ih =>
    obtain ⟨a, ha⟩ := s.retryNow_spec d
    obtain ⟨b, hb⟩ := ih (s.retryNow d)
    refine ⟨b, ?_⟩
    rw [List.foldl_cons, hb, ha]
    rfl

/-- The cores once TLBINV has been through the dies `ds`. -/
def linesDropped (ds : List Nat) (c : Nat) (v : BitVec 64) (cs : Tbl Core) : Tbl Core :=
  cs.map fun e => if ds.contains (e.1 / 16) then
    (e.1, { e.2 with lines := e.2.lines.filter fun l => !(l.ctx == c && tlbinvHits v l.lin 64) }) else e

theorem linesDropped_spec {ds : List Nat} {c : Nat} {v : BitVec 64} {cs : Tbl Core} {e : Nat × Core} (he : e ∈ linesDropped ds c v cs)
    (hd : ds.contains (e.1 / 16) = true) : ∀ l ∈ e.2.lines, ¬(l.ctx = c ∧ tlbinvHits v l.lin 64 = true) := by
  obtain ⟨y, -, hy⟩ := List.mem_map.1 he
  split at hy
  next =>
    intro l hl
    rw [← hy] at hl
    have := (List.mem_filter.1 hl).2
    rintro ⟨h1, h2⟩
    simp [h1, h2] at this
  next hn =>
    rw [hy] at hn
    exact absurd hd hn

/-- The translations that TLBINV leaves. -/
def State.tlbLeft (s : State) (ds : List Nat) (c : Nat) (v : BitVec 64) : List TlbEntry :=
  s.tlb.filter fun e => !(ds.contains e.die && e.ctx == c && tlbinvHits v (e.page * e.size) e.size)

theorem State.mem_tlbLeft (s : State) (ds : List Nat) (c : Nat) (v : BitVec 64) (e : TlbEntry) :
    e ∈ s.tlbLeft ds c v ↔ e ∈ s.tlb ∧ ¬(ds.contains e.die = true ∧ e.ctx = c ∧ tlbinvHits v (e.page * e.size) e.size = true) := by
  rw [State.tlbLeft, List.mem_filter]
  simp only [Bool.not_eq_true', ← Bool.not_eq_true, Bool.and_eq_true, beq_iff_eq, and_assoc]

theorem State.tlbinvDone_spec {v : BitVec 64} {rest : List (BitVec 64)} (hb : (s.ctx d c).tlbBusy = v :: rest) :
    let t := s.tlbinvDone d c
    t.ctx d c = { s.ctx d c with tlbBusy := rest } ∧ t.mem = s.mem ∧ t.tlb = s.tlbLeft (s.diesOf (s.slotOf d)) c v
      ∧ t.cores = linesDropped (s.diesOf (s.slotOf d)) c v s.cores := by
  intro t
  let ds := s.diesOf (s.slotOf d)
  obtain ⟨ys, hys⟩ : ∃ ys, ds.foldl (fun t x => t.updDie x fun y => { y with ntlb := y.ntlb.filter fun e => e.ctx != c })
      (s.setTlb (s.tlbLeft ds c v)) = (s.setTlb (s.tlbLeft ds c v)).setDies ys := by
    generalize s.setTlb (s.tlbLeft ds c v) = u
    generalize ds = l
    induction l generalizing u with
    | nil => exact ⟨u.dies, rfl⟩
    | cons x r ih =>
      obtain ⟨ys, hys⟩ := ih (u.updDie x fun y => { y with ntlb := y.ntlb.filter fun e => e.ctx != c })
      exact ⟨ys, hys⟩
  let w := (((s.setTlb (s.tlbLeft ds c v)).setDies ys).setCores (linesDropped ds c v s.cores)).updCtx d c fun x => { x with tlbBusy := rest }
  have hw : w.ctx d c = { s.ctx d c with tlbBusy := rest } := State.updCtx_ctx_self ..
  have ht : ∃ u, w.onlyDue u ∧ t = ds.foldl State.retryNow u := by
    refine ⟨if rest.isEmpty then w else w.tlbinvPost d c, ?_, ?_⟩
    · split
      · exact State.onlyDue_refl w
      · exact State.within_onlyDue ..
    · unfold t State.tlbinvDone
      rw [hb]
      dsimp only
      rw [show s.setTlb (s.tlb.filter fun e => !((s.diesOf (s.slotOf d)).contains e.die && e.ctx == c && tlbinvHits v (e.page * e.size) e.size))
        = s.setTlb (s.tlbLeft ds c v) from rfl, show s.diesOf (s.slotOf d) = ds from rfl, hys]
      rfl
  obtain ⟨u, hu, ht⟩ := ht
  obtain ⟨a, ha⟩ := State.foldl_retryNow_spec ds u
  obtain ⟨hctxs, htlb, hcores, -⟩ := State.onlyDue_tables hu
  have hmem := (State.onlyDue_spec hu).2.1
  rw [ht, ha]
  refine ⟨?_, hmem, htlb, hcores⟩
  rw [← hw]
  show Tbl.get u.ctxs _ _ = _
  rw [hctxs]
  rfl
end

/-- Settles O50: each event reads its own conditions off the context, and its effect is one write of the context or of the die's tables. -/
theorem contextEvents : Obligations.ContextEvents := by
  intro s d c x
  refine ⟨?_, fun hs he => ?_, fun hs hk => ?_, fun hold hs => ?_, fun v hs => ?_, fun v hs => ?_, fun v rest hs hb => ?_⟩
  · intro hs he bad
    have hx : exec .contextEnable s = .next (s.contextEnable d c) := exec_of_subject hs
    rw [State.contextEnable_of_disabled he] at hx
    refine ⟨fun h1 => ?_, fun ha hb hc h2 => ?_, fun ha hb hc hd he => ?_⟩
    · exact hx.trans (by rw [if_pos h1])
    · have h1 : ¬(x.sdtb = 0#64 ∨ x.rbtb = 0#64 ∨ x.ptb = 0#64) := by simp [ha, hb, hc]
      exact hx.trans (by rw [if_neg h1, if_pos h2])
    · have h1 : ¬(x.sdtb = 0#64 ∨ x.rbtb = 0#64 ∨ x.ptb = 0#64) := by simp [ha, hb, hc]
      have h2 : ¬(x.evtb = 0#64 ∨ x.saveb = 0#64) := by simp [hd, he]
      rw [if_neg h1, if_neg h2] at hx
      refine ⟨fun h3 => ?_, fun h3 h4 => ?_, fun h3 h4 h5 => ?_⟩
      · exact hx.trans (by rw [if_pos h3])
      · exact hx.trans (by rw [if_neg h3, if_pos h4])
      · rw [hx, if_neg h3, if_neg (by simp [h4, h5])]
  · have hx : exec .contextDisable s = .next (s.contextDisable d c) := exec_of_subject hs
    refine ⟨fun hi => ⟨?_, s.contextOff_en d c⟩, fun hi => ?_⟩
    · rw [hx, State.contextDisable_of_idle he hi]
    · rw [hx, State.contextDisable_of_busy he hi]
  · have hx : exec .contextIdle s = .next (s.contextIdle d c) := exec_of_subject hs
    refine ⟨fun hi => ?_, fun hi => ?_⟩
    · rw [hx, State.contextIdle_of_idle hk hi]
    · rw [hx, State.contextIdle_of_busy hk hi]
  · have hx : exec .contextKill s = .next (s.contextKill d c hold) := exec_of_subject hs
    exact ⟨_, hx, s.contextKill_spec d c hold⟩
  · have hx : exec .fqciWrite s = .next (s.fqciWrite d c v) := exec_of_subject hs
    refine ⟨fun h => ?_, fun h => ?_⟩
    · rw [hx, State.fqciWrite_of_outside h]
    · rw [hx, State.fqciWrite_of_inside h]
  · have hx : exec .tlbinv s = .next (s.tlbinv d c v) := exec_of_subject hs
    obtain ⟨hbusy, htlb, hm, hdue⟩ := s.tlbinv_spec d c v
    exact ⟨_, hx, hbusy, htlb, hm, fun h _ => hdue h⟩
  · have hx : exec .tlbinvDone s = .next (s.tlbinvDone d c) := exec_of_subject hs
    obtain ⟨hctx, hm, htlb, hcores⟩ := State.tlbinvDone_spec hb
    refine ⟨_, hx, ?_⟩
    rw [hctx, htlb, hcores]
    exact ⟨rfl, hm, s.mem_tlbLeft _ c v, fun e he hd => linesDropped_spec he hd⟩

end Sys2Proof.Machine
end

section
namespace Sys2Proof.Machine

/-! ## Descriptors, rubric commands and the host's answers (O51) -/

/-! ### Translations leave all but what is kept of them -/

/-- `t` differs from `s` in the translations kept, the dies' nested ones included, and in the choices drawn. -/
def State.onlyTlb (s t : State) : Prop :=
  ∃ x y n, t = ((s.setTlb x).setDies y).setFreeCtr n ∧ ∀ d, ∃ z, y.get Die.reset d = { s.die d with ntlb := z }

theorem State.onlyTlb_refl (s : State) : s.onlyTlb s := ⟨s.tlb, s.dies, s.freeCtr, rfl, fun d => ⟨(s.die d).ntlb, rfl⟩⟩

theorem State.onlyTlb_trans {s t u : State} (a : s.onlyTlb t) (b : t.onlyTlb u) : s.onlyTlb u := by
  obtain ⟨_, y, _, rfl, ha⟩ := a
  obtain ⟨x', y', n', rfl, hb⟩ := b
  refine ⟨x', y', n', rfl, fun d => ?_⟩
  obtain ⟨z, hz⟩ := ha d
  obtain ⟨z', hz'⟩ := hb d
  refine ⟨z', hz'.trans ?_⟩
  rw [show (((s.setTlb _).setDies y).setFreeCtr _).die d = y.get Die.reset d from rfl, hz]

theorem State.onlyTlb_foldl {α : Type} {f : State → α → State} (hf : ∀ s x, State.onlyTlb s (f s x)) (l : List α) (s : State) :
    s.onlyTlb (l.foldl f s) := by
  induction l generalizing s with
  | nil => exact s.onlyTlb_refl
  | cons x r ih => exact State.onlyTlb_trans (hf s x) (ih _)

theorem State.setFreeCtr_onlyTlb (s : State) (n : Nat) : s.onlyTlb (s.setFreeCtr n) :=
  ⟨s.tlb, s.dies, n, rfl, fun d => ⟨(s.die d).ntlb, rfl⟩⟩

/-- What translating leaves as it was. -/
theorem State.onlyTlb_tables {s t : State} (h : s.onlyTlb t) :
    t.mem = s.mem ∧ t.ctxs = s.ctxs ∧ t.groups = s.groups ∧ t.teams = s.teams ∧ t.cores = s.cores ∧ t.fabric = s.fabric ∧ t.clk = s.clk
      ∧ t.agenda = s.agenda := by
  obtain ⟨_, _, _, rfl, -⟩ := h
  exact ⟨rfl, rfl, rfl, rfl, rfl, rfl, rfl, rfl⟩

theorem State.onlyTlb_die {s t : State} (h : s.onlyTlb t) (d : Nat) : ∃ z, t.die d = { s.die d with ntlb := z } := by
  obtain ⟨_, _, _, rfl, hy⟩ := h
  exact hy d

theorem State.updDie_ntlb_onlyTlb (s : State) (die : Nat) (z : Die → List NestedEntry) :
    s.onlyTlb (s.updDie die fun d => { d with ntlb := z d }) := by
  refine ⟨s.tlb, s.dies.put die { s.die die with ntlb := z (s.die die) }, s.freeCtr, rfl, fun d => ?_⟩
  by_cases hd : d = die
  · subst hd
    exact ⟨_, Tbl.get_put_self ..⟩
  · exact ⟨(s.die d).ntlb, Tbl.get_put_ne _ _ _ hd⟩

theorem State.keepNested_onlyTlb (s : State) (die ctx : Nat) (fresh : Bool) (gpa : Nat) : s.onlyTlb (s.keepNested die ctx fresh gpa) := by
  unfold State.keepNested
  split
  · exact s.onlyTlb_refl
  · exact State.updDie_ntlb_onlyTlb ..

theorem State.fillNested_onlyTlb (s : State) (w : Who) (walked fresh : Bool) (lin : Nat) (l : Leaf) :
    s.onlyTlb (s.fillNested w walked fresh lin l) := by
  unfold State.fillNested
  dsimp only
  split
  · exact State.onlyTlb_trans (State.onlyTlb_foldl (fun t a => t.keepNested_onlyTlb _ _ _ a) _ _) (State.setFreeCtr_onlyTlb ..)
  · exact s.onlyTlb_refl

theorem State.fillTlb_onlyTlb (s : State) (w : Who) (lin : Nat) (l : Leaf) : s.onlyTlb (s.fillTlb w lin l) :=
  ⟨(s.fillTlb w lin l).tlb, s.dies, s.freeCtr, rfl, fun d => ⟨(s.die d).ntlb, rfl⟩⟩

theorem State.walkFor_onlyTlb (s : State) (w : Who) (lin : Nat) (need : Need) : s.onlyTlb (s.walkFor w lin need).2 := by
  have hkept : ∀ fresh l, s.onlyTlb ((s.fillNested w true fresh lin l).fillTlb w lin l) := fun fresh l =>
    State.onlyTlb_trans (State.fillNested_onlyTlb ..) (State.fillTlb_onlyTlb ..)
  have hfresh : s.onlyTlb (match s.freshWalk w lin need with
      | .ok (p, l) => ((.ok p, (s.fillNested w true true lin l).fillTlb w lin l) : Except XFault Place × State)
      | .error f => (.error f, s)).2 := by
    split
    · exact hkept true _
    · exact s.onlyTlb_refl
  unfold State.walkFor
  dsimp only
  split
  · split
    · exact hkept false _
    · exact hfresh
  · exact hfresh

theorem State.translate_onlyTlb (s : State) (w : Who) (lin : Nat) (need : Need) : s.onlyTlb (s.translate w lin need).2 := by
  unfold State.translate
  split
  · exact s.onlyTlb_refl
  · split
    · exact State.walkFor_onlyTlb ..
    next e _ =>
      have hs := s.setFreeCtr_onlyTlb (s.freeCtr + 1)
      have hw := State.onlyTlb_trans hs ((s.setFreeCtr (s.freeCtr + 1)).walkFor_onlyTlb w lin need)
      dsimp only
      split
      · split
        · split
          · exact State.onlyTlb_trans hs (State.fillNested_onlyTlb ..)
          · exact hw
        · exact hw
      · exact hw

theorem State.translateRange_onlyTlb (s : State) (w : Who) (need : Need) (n lin len : Nat) :
    s.onlyTlb (s.translateRange w need n lin len).2 := by
  induction n generalizing s lin len with
  | zero => exact s.onlyTlb_refl
  | succ n ih =>
    have hnext := State.onlyTlb_trans (s.translate_onlyTlb w lin need)
      (ih (s.translate w lin need).2 (lin + min len (65536 - lin % 65536)) (len - min len (65536 - lin % 65536)))
    rw [State.translateRange]
    split
    · exact s.onlyTlb_refl
    · dsimp only
      split
      · exact hnext
      · exact hnext
      · exact hnext
      · exact hnext

theorem State.readLin_onlyTlb (s : State) (w : Who) (lin n : Nat) : s.onlyTlb (s.readLin w lin n).2 := by
  have h := s.translateRange_onlyTlb w .read 3 lin n
  unfold State.readLin
  split
  next heq => rwa [heq] at h
  next heq => rwa [heq] at h

/-! ### Descriptors on every die -/

section
variable {s : State} {d c : Nat}

/-- What a die keeps of a descriptor's generation that it has read. -/
def Die.genRead (ctx sel : Nat) (r : Except XFault (List Byte)) (x : Die) : Die :=
  match r with
  | .ok bs => { x with gens := x.gens.put (genKey ctx sel) (some (BitVec.ofNat 16 (leNat bs))) }
  | .error _ => if (x.gens.find (genKey ctx sel)).isSome then { x with gens := x.gens.put (genKey ctx sel) none } else x

/-- One die reads a descriptor's generation again. -/
def State.syncOn (t : State) (ctx sel d : Nat) : State :=
  let r := t.readLin (dieWho d ctx) (t.descLin (dieWho d ctx) sel + 14) 2
  r.2.updDie d (Die.genRead ctx sel r.1)

theorem State.syncOn_ctxs (t : State) (ctx sel d : Nat) : (t.syncOn ctx sel d).ctxs = t.ctxs := by
  unfold State.syncOn
  dsimp only
  rw [State.updDie_ctxs]
  exact (State.onlyTlb_tables (t.readLin_onlyTlb (dieWho d ctx) (t.descLin (dieWho d ctx) sel + 14) 2)).2.1

theorem State.syncOn_eq (t : State) (ctx sel d : Nat) : t.syncOn ctx sel d = match t.readLin (dieWho d ctx)
    (t.descLin (dieWho d ctx) sel + 14) 2 with
    | (.ok bs, t1) => t1.updDie d fun x => { x with gens := x.gens.put (genKey ctx sel) (some (BitVec.ofNat 16 (leNat bs))) }
    | (.error _, t1) => t1.updDie d fun x => if (x.gens.find (genKey ctx sel)).isSome then
      { x with gens := x.gens.put (genKey ctx sel) none } else x := by
  unfold State.syncOn
  generalize t.readLin (dieWho d ctx) (t.descLin (dieWho d ctx) sel + 14) 2 = r
  obtain ⟨r | r, u⟩ := r
  · rfl
  · rfl

theorem State.syncSel_eq (s : State) (part ctx sel : Nat) :
    s.syncSel part ctx sel = if 0xfffd ≤ sel then s else (s.diesOf part).foldl (fun t d => t.syncOn ctx sel d) s := by
  unfold State.syncSel
  simp only [State.syncOn_eq] <;> rfl

theorem State.syncSel_ctxs (s : State) (part ctx sel : Nat) : (s.syncSel part ctx sel).ctxs = s.ctxs := by
  rw [State.syncSel_eq]
  by_cases h : 0xfffd ≤ sel
  · rw [if_pos h]
  · rw [if_neg h]
    exact State.foldl_ctxs (fun t d => t.syncOn_ctxs ctx sel d) _ _

/-- What every die has read of the descriptors that an act has changed. -/
def State.synced (s : State) (part ctx : Nat) (sel : Option Nat) : State :=
  match sel with
  | none => s
  | some n => if n = everySel then (s.heldSels part ctx).foldl (fun t x => t.syncSel part ctx x) s else s.syncSel part ctx n

theorem State.synced_ctxs (s : State) (part ctx : Nat) (sel : Option Nat) : (s.synced part ctx sel).ctxs = s.ctxs := by
  cases sel with
  | none => rfl
  | some n =>
    unfold State.synced
    dsimp only
    split
    · exact State.foldl_ctxs (fun t x => t.syncSel_ctxs part ctx x) _ _
    · exact State.syncSel_ctxs ..

theorem State.descriptorSyncDone_rbres (s : State) (part ctx : Nat) (sel : Option Nat) (d c n : Nat) :
    s.descriptorSyncDone part ctx sel (.rbres d c n)
      = (s.synced part ctx sel).updCtx d c fun x => if x.resAct = n then { x with resDone := true } else x := rfl

theorem State.descriptorSyncDone_rbres_spec (s : State) (part ctx : Nat) (sel : Option Nat) (d c n : Nat) :
    ((s.descriptorSyncDone part ctx sel (.rbres d c n)).ctx d c).resDone = (decide ((s.ctx d c).resAct = n) || (s.ctx d c).resDone) := by
  have hc : (s.synced part ctx sel).ctx d c = s.ctx d c := by rw [State.ctx, State.synced_ctxs]; rfl
  rw [State.descriptorSyncDone_rbres, State.updCtx_ctx_self, hc]
  by_cases h : (s.ctx d c).resAct = n
  · simp [h]
  · simp [h]

theorem State.descriptorSyncDone_scalar (s : State) (part ctx : Nat) (k : GKey) (n : Nat) {g : Group} (hg : s.group? k = some g) :
    (s.descriptorSyncDone part ctx none (.scalar k g.team n)).group? k
      = some { g with pend := g.pend.filter fun p => !(p.id == 0 && p.on == .scalar n) } := by
  have h : s.descriptorSyncDone part ctx none (.scalar k g.team n) = s.putGroup k
    { g with pend := g.pend.filter fun p => !(p.id == 0 && p.on == .scalar n) } := by
    unfold State.descriptorSyncDone State.updGroup
    simp only [hg, if_true]
  rw [h]
  exact State.putGroup_group?_self ..

/-! ### Rubric commands -/

/-- The state in which a rubric command has taken its place: RBRES waits for it. -/
def State.rbBegun (s : State) (d c : Nat) : State := s.newId.2.putCtx d c { s.ctx d c with resDone := false, resAct := s.fresh }

theorem State.rbBegun_ctx (s : State) (d c : Nat) : (s.rbBegun d c).ctx d c = { s.ctx d c with resDone := false, resAct := s.fresh } :=
  State.putCtx_ctx_self ..

/-- How a command ends: its result, and the moment every die knows. -/
def State.rbEnded (t : State) (s : State) (d c : Nat) (res : BitVec 2) (clk : Nat) (x : Option Nat) : State :=
  (t.updCtx d c fun y => if y.resAct = s.fresh then { y with res := res } else y).within clk 2048
    (.descriptorSyncDone (s.slotOf d) c x (.rbres d c s.fresh))

theorem State.rbEnded_spec {t s : State} (res : BitVec 2) (clk : Nat) (x : Option Nat) (h : (t.ctx d c).resAct = s.fresh) :
    ((t.rbEnded s d c res clk x).ctx d c).res = res ∧ (t.rbEnded s d c res clk x).mem = t.mem
      ∧ ∃ due, (due, Event.descriptorSyncDone (s.slotOf d) c x (.rbres d c s.fresh)) ∈ (t.rbEnded s d c res clk x).agenda := by
  have hctx : (t.rbEnded s d c res clk x).ctx d c = if (t.ctx d c).resAct = s.fresh then { t.ctx d c with res := res } else t.ctx d c :=
    State.updCtx_ctx_self ..
  rw [hctx, if_pos h]
  exact ⟨rfl, rfl, _, mem_insertDue _ _ _⟩

theorem State.rbcmd_of_refused {idx op sel : Nat} {a : BindAct} {t : State}
    (h : (s.rbBegun d c).applyBind (dieWho d c) idx a = (.refused, t)) : s.rbcmd d c idx op sel a = t.rbEnded s d c 1#2 80 none := by
  have h' : (s.newId.2.updCtx d c fun x => { x with resDone := false, resAct := s.fresh }).applyBind (dieWho d c) idx a = (.refused, t) := h
  unfold State.rbcmd State.rbcmdAct
  simp only [if_true, show s.newId.1 = s.fresh from rfl, h']
  rfl

theorem State.rbcmd_of_applied {idx op sel : Nat} {a : BindAct} {t : State} {e : Entry} {sig : Bool}
    (h : (s.rbBegun d c).applyBind (dieWho d c) idx a = (.applied e sig, t)) : ∃ u clk, t.onlyDue u
      ∧ s.rbcmd d c idx op sel a = u.rbEnded s d c 0#2 clk (if a = .revoke ∧ e.sel ≠ 0 then some e.sel else none) := by
  have h' : (s.newId.2.updCtx d c fun x => { x with resDone := false, resAct := s.fresh }).applyBind (dieWho d c) idx a = (.applied e sig, t) := h
  let u := if sig then t.signalBy d c e.evn else t
  refine ⟨u, 80 + 60 * u.farHop d + (if sig then signalClk else 0), ?_, ?_⟩
  · unfold u
    split
    · exact State.within_onlyDue ..
    · exact State.onlyDue_refl t
  · unfold State.rbcmd State.rbcmdAct
    simp only [if_true, show s.newId.1 = s.fresh from rfl, h']
    rfl

/-- An act that is refused has only read its entry. -/
theorem State.applyBind_refused_ctxs {u t : State} {w : Who} {idx : Nat} {a : BindAct} (h : u.applyBind w idx a = (.refused, t))
    : t.ctxs = u.ctxs := by
  have hread := (State.onlyTlb_tables (u.readLin_onlyTlb w (u.rubricLin w idx) 8)).2.1
  unfold State.applyBind at h
  dsimp only at h
  split at h
  · cases h
  next heq =>
    split at h
    · injection h with _ h
      rw [heq] at hread
      rwa [h] at hread
    · split at h
      · cases h
      · split at h
        · cases h
        · split at h
          · cases h
          · cases h
end

/-! ### The host's pages -/

theorem Tbl.put_put {α : Type} (t : Tbl α) (k : Nat) (v w : α) : (t.put k v).put k w = t.put k w := by
  induction t with
  | nil => simp [Tbl.put]
  | cons e r ih =>
    obtain ⟨j, x⟩ := e
    by_cases h1 : k < j
    · simp [Tbl.put, h1]
    · by_cases h2 : k = j
      · simp [Tbl.put, h2]
      · simp [Tbl.put, h1, h2, ih]

theorem keyOfNum_keyNum {k : GKey} (hc : k.core < 16) (hs : k.slot < 512) : keyOfNum (keyNum k) = k := by
  obtain ⟨d, c, n⟩ := k
  simp only [keyNum, keyOfNum, GKey.mk.injEq]
  simp only at hc hs
  omega

section
variable {s : State} {d c page : Nat}

theorem State.priSend_eq (fn n : Nat) (s : State) : ∃ h o, State.priSend fn n s = (s.setHost h).setOutbox o := by
  induction n generalizing s with
  | zero => exact ⟨s.host, s.outbox, rfl⟩
  | succ n ih =>
    unfold State.priSend
    split
    · exact ⟨s.host, s.outbox, rfl⟩
    · split
      · exact ⟨s.host, s.outbox, rfl⟩
      next x _ =>
        obtain ⟨h, o, heq⟩ := ih ((s.setHost { s.host with pris := s.host.pris.map fun y => if y = x then { y with sent := true } else y }).send
          (.pri x.die x.ctx x.page x.write))
        exact ⟨h, o, heq⟩

/-- An answered request of a page leaves all but the list of requests and what is sent of them. -/
theorem State.priAnswered_eq (s : State) (d c page : Nat) : ∃ h o, s.priAnswered d c page = (s.setHost h).setOutbox o := by
  have hfold : ∀ (l : List PageReq) (u : State), ∃ h o, l.foldl (fun t x => State.priSend x.fn 1 t) u = (u.setHost h).setOutbox o := by
    intro l
    induction l with
    | nil => exact fun u => ⟨u.host, u.outbox, rfl⟩
    | cons x r ih =>
      intro u
      obtain ⟨h, o, heq⟩ := State.priSend_eq x.fn 1 u
      obtain ⟨h', o', heq'⟩ := ih (State.priSend x.fn 1 u)
      refine ⟨h', o', ?_⟩
      rw [List.foldl_cons, heq', heq]
      rfl
  unfold State.priAnswered
  dsimp only
  obtain ⟨h, o, heq⟩ := hfold (s.host.pris.partition fun x => x.sent && x.die == d && x.ctx == c && x.page == page).1
    (s.setHost { s.host with pris := (s.host.pris.partition fun x => x.sent && x.die == d && x.ctx == c && x.page == page).2 })
  exact ⟨h, o, heq⟩

/-- A parked group that goes on, with no budget to raise and no access to send again. -/
theorem State.resumeParked_of_free {k : GKey} {g : Group} (hb : g.budgetDue = false) (ha : s.access = []) :
    s.resumeParked k g = s.putGroup k { g with run := .ready, readyAt := s.clk } := by
  have hg :
    (if g.budgetDue && (s.team? g.team).any (·.grace) then { g with budgetDue := false, raiseDue := some (trapOf .budget 0#32, if g.clause.any (·.begun) then g.pos else 15,
      if g.clause.any (·.begun) then .instr else .boundary, .plain) } else g) = g := if_neg (by simp [hb])
  have hready : (s.putGroup k g).makeReady k s.clk = (s.putGroup k g).putGroup k { g with run := .ready, readyAt := s.clk } := by
    unfold State.makeReady State.updGroup
    simp only [State.putGroup_group?_self]
  have hput : (s.putGroup k g).putGroup k { g with run := .ready, readyAt := s.clk } = s.putGroup k { g with run := .ready, readyAt := s.clk } := by
    unfold State.putGroup
    rw [show (s.setGroups (s.groups.put (keyNum k) g)).groups = s.groups.put (keyNum k) g from rfl, Tbl.put_put]
    rfl
  unfold State.resumeParked
  rw [hg]
  dsimp only
  rw [hready, hput]
  unfold State.resend
  rw [show (s.putGroup k { g with run := .ready, readyAt := s.clk }).access = [] from ha]
  rfl

/-- The one group of the machine waits for the page. -/
theorem State.hostWaiters_of_one {k : GKey} {g : Group} {tr : Trap} (hg : s.groups = [(keyNum k, g)]) (hc : k.core < 16) (hs : k.slot < 512)
    (hr : g.run = .parked (.host page tr)) : s.hostWaiters k.die (s.ctxOf g.team) page = [(k, g)] := by
  unfold State.hostWaiters State.groupsOn
  rw [hg]
  simp [keyOfNum_keyNum hc hs, hr]

/-- The state in which the translation of a page of the host is kept. -/
def State.pageKept (s : State) (d c page : Nat) : State :=
  if s.atsHeld (s.ctx d c).pasid.toNat page then s
  else s.setTlb ({ die := 20, core := none, ctx := (s.ctx d c).pasid.toNat, page := page, pte := 0#64, size := 65536 } :: s.tlb)

theorem State.pageKept_spec (s : State) (d c page : Nat) :
    (∃ x, s.pageKept d c page = s.setTlb x)
      ∧ ∃ e ∈ (s.pageKept d c page).tlb, e.die = 20 ∧ e.ctx = (s.ctx d c).pasid.toNat ∧ e.page = page := by
  unfold State.pageKept
  split
  next h =>
    obtain ⟨e, he, hp⟩ := List.any_eq_true.1 h
    exact ⟨⟨s.tlb, rfl⟩, e, he, by simpa using hp⟩
  · exact ⟨⟨_, rfl⟩, _, List.mem_cons_self, rfl, rfl, rfl⟩

/-- The host holds a page that the one group waits for. -/
theorem State.hostPageIn_of_one {k : GKey} {g : Group} {tr : Trap} (hg : s.groups = [(keyNum k, g)]) (hc : k.core < 16) (hs : k.slot < 512)
    (hr : g.run = .parked (.host page tr)) (hb : g.budgetDue = false) (ha : s.access = []) :
    let t := s.hostPageIn k.die (s.ctxOf g.team) page
    t.group? k = some { g with run := .ready, readyAt := s.clk } ∧ t.mem = s.mem
      ∧ ∃ e ∈ t.tlb, e.die = 20 ∧ e.ctx = (s.ctx k.die (s.ctxOf g.team)).pasid.toNat ∧ e.page = page := by
  intro t
  obtain ⟨⟨x, hx⟩, hkept⟩ := s.pageKept_spec k.die (s.ctxOf g.team) page
  have ht : t =
    (((s.pageKept k.die (s.ctxOf g.team) page).putGroup k { g with run := .ready, readyAt := s.clk }).wakeSaved k.die (s.ctxOf g.team) page).retryNow k.die := by
    have hw : (s.pageKept k.die (s.ctxOf g.team) page).hostWaiters k.die (s.ctxOf g.team) page = [(k, g)] := by
      rw [hx]
      exact State.hostWaiters_of_one (s := s.setTlb x) hg hc hs hr
    have hp : (s.pageKept k.die (s.ctxOf g.team) page).resumeParked k g
        = (s.pageKept k.die (s.ctxOf g.team) page).putGroup k { g with run := .ready, readyAt := s.clk } := by
      rw [hx]
      exact State.resumeParked_of_free (s := s.setTlb x) hb ha
    unfold t State.hostPageIn
    dsimp only
    rw [show (if s.atsHeld (s.ctx k.die (s.ctxOf g.team)).pasid.toNat page then s
      else s.setTlb
        ({ die := 20, core := none, ctx := (s.ctx k.die (s.ctxOf g.team)).pasid.toNat, page := page, pte := 0#64, size := 65536 } :: s.tlb))
        = s.pageKept k.die (s.ctxOf g.team) page from rfl, hw, List.foldl_cons, List.foldl_nil, hp]
  obtain ⟨a, hretry⟩ := (((s.pageKept k.die (s.ctxOf g.team) page).putGroup k { g with run := .ready, readyAt := s.clk }).wakeSaved k.die
    (s.ctxOf g.team) page).retryNow_spec k.die
  rw [ht, hretry]
  refine ⟨State.putGroup_group?_self .., ?_, hkept⟩
  rw [hx]
  rfl

/-! ### Refusals and PKCTL -/

theorem Tbl.mem_of_find {α : Type} {t : Tbl α} {k : Nat} {v : α} (h : t.find k = some v) : (k, v) ∈ t := by
  induction t with
  | nil => cases h
  | cons e r ih =>
    unfold Tbl.find at h
    split at h
    next he =>
      obtain rfl := Option.some.inj h
      rw [← he]
      exact List.mem_cons_self
    · exact List.mem_cons_of_mem _ (ih h)

theorem copies_of_no_copy {u : State} (h : ∀ e ∈ u.cores, e.2.copy = []) (ck : CoreKey) : u.copies ck = [] := by
  unfold State.copies State.core Tbl.get
  cases hf : u.cores.find (coreNum ck.die ck.core) with
  | none => rfl
  | some x => exact h _ (Tbl.mem_of_find hf)

theorem State.refuseCopies_of_none {u : State} (h : ∀ e ∈ u.cores, e.2.copy = []) (d c page : Nat) : u.refuseCopies d c page = u := by
  unfold State.refuseCopies
  generalize List.range Config.cores = l
  induction l with
  | nil => rfl
  | cons x r ih =>
    rw [List.foldl_cons]
    dsimp only
    rw [copies_of_no_copy h]
    exact ih

theorem State.refuseTeamLogs_of_none {u : State} (h : ∀ e ∈ u.teams, e.2.logs = []) (d c page : Nat) : u.refuseTeamLogs d c page = u := by
  have hfold : ∀ l : Tbl Team, (∀ e ∈ l, e.2.logs = []) → ∀ v : State, l.foldl (fun t e =>
      if e.2.die ≠ d ∨ e.2.ctx ≠ c then t
      else match e.2.logs.filter fun x => u.logFor (dieWho d c) page x.2 with
        | [] => t
        | x :: _ =>
          let f : Trap := { cause := .pageLoad, aux := 1#32, ofs := x.2.ofs, sel := x.2.sel, lin := x.2.lin }
          (t.updTeam e.1 fun tm => { tm with failed := true, logs := tm.logs.filter fun y => !u.logFor (dieWho d c) page y.2 }).report
            d c (hostFail x.1 f)) v = v := by
    intro l
    induction l with
    | nil => exact fun _ _ => rfl
    | cons e r ih =>
      intro hl v
      rw [List.foldl_cons, hl e List.mem_cons_self]
      have hsame : (if e.2.die ≠ d ∨ e.2.ctx ≠ c then v else v) = v := ite_self _
      simp only [List.filter_nil, hsame]
      exact ih (fun x hx => hl x (List.mem_cons_of_mem _ hx)) v
  exact hfold u.teams h u

theorem State.refuseLogs_of_none {u : State} (h : u.groupsOn d c = []) (page : Nat) : u.refuseLogs d c page = u := by
  unfold State.refuseLogs
  rw [h]
  rfl

/-- A refused page with nothing else of the context on the die: those that waited are refused. -/
theorem State.priResponse_refused (s : State) {u : State}
    (hu : u = ((s.priAnswered d c page).hostWaiters d c page).foldl (fun t e => t.refuseGroup e.1 e.2) (s.priAnswered d c page))
    (hg : u.groupsOn d c = []) (ht : ∀ e ∈ u.teams, e.2.logs = []) (hc : ∀ e ∈ u.cores, e.2.copy = []) (hs : (u.die d).saved = []) :
    s.priResponse d c page false = u.retryNow d := by
  unfold State.priResponse
  simp only [Bool.false_eq_true, if_false]
  rw [← hu, hs, List.filter_nil, List.foldl_nil, State.refuseLogs_of_none hg, State.refuseTeamLogs_of_none ht, State.refuseCopies_of_none hc]

theorem State.pkReaches_iff (s : State) (g : Group) (by_ : Option Nat) : s.pkReaches g by_ = true ↔ by_ = none ∨ by_ = some (s.ctxOf g.team) := by
  cases by_ with
  | none => simp [State.pkReaches]
  | some x =>
    simp only [State.pkReaches, beq_iff_eq, reduceCtorEq, false_or, Option.some.injEq]
    exact eq_comm

theorem State.not_pkReaches {g : Group} {by_ : Option Nat} (h : ∃ x, by_ = some x ∧ x ≠ s.ctxOf g.team) : s.pkReaches g by_ = false := by
  obtain ⟨x, rfl, hx⟩ := h
  simp [State.pkReaches, Ne.symm hx]

/-- A page wait, of the machine's own memory or of the host's. -/
def RunState.awaitsPage (r : RunState) : Prop := (∃ cause, r = .parked (.page cause)) ∨ ∃ p t, r = .parked (.host p t)

theorem State.pkctlResume_of_page {n : Nat} {g : Group} {by_ : Option Nat} (hg : s.group? ⟨d, c, n⟩ = some g) (hr : g.run.awaitsPage)
    (hp : s.pkReaches g by_ = true) : s.pkctlResume d c n by_ = s.resumeParked ⟨d, c, n⟩ g := by
  unfold State.pkctlResume
  rcases hr with ⟨cause, hr⟩ | ⟨p, t, hr⟩
  · simp only [hg, hp, Bool.not_true, Bool.false_eq_true, if_false, hr]
  · simp only [hg, hp, Bool.not_true, Bool.false_eq_true, if_false, hr]

theorem State.pkctlResume_of_act {n : Nat} {g : Group} {cs : Cause} {lin home name : Nat} {a : EventAct} (hg : s.group? ⟨d, c, n⟩ = some g)
    (hr : g.run = .parked (.act cs lin home name a)) (hs : g.speculative = false) :
    s.pkctlResume d c n none = (s.resumeParked ⟨d, c, n⟩ g).eventAct d (s.ctxOf g.team) name (actFrom ⟨d, c, n⟩ a) := by
  unfold State.pkctlResume
  simp only [hg, State.pkReaches, Bool.not_true, Bool.false_eq_true, if_false, hr, hs]

theorem State.pkctl_of_stranger {n : Nat} {g : Group} {by_ : Option Nat} (hg : s.group? ⟨d, c, n⟩ = some g) (hp : s.pkReaches g by_ = false) :
    s.pkctlResume d c n by_ = s ∧ s.pkctlKill d c n by_ = s := by
  constructor
  · unfold State.pkctlResume
    simp only [hg, hp, Bool.not_false, if_true]
  · unfold State.pkctlKill
    simp only [hg, hp, Bool.not_false, if_true]

theorem State.pkctlKill_of_page {n : Nat} {g : Group} {by_ : Option Nat} (hg : s.group? ⟨d, c, n⟩ = some g) (hr : g.run.awaitsPage)
    (hp : s.pkReaches g by_ = true) : s.pkctlKill d c n by_ = s.killAny ⟨d, c, n⟩ g := by
  unfold State.pkctlKill
  rcases hr with ⟨cause, hr⟩ | ⟨p, t, hr⟩
  · simp only [hg, hp, Bool.not_true, Bool.false_eq_true, if_false, hr]
  · simp only [hg, hp, Bool.not_true, Bool.false_eq_true, if_false, hr]

/-! ### A group that is killed -/

theorem State.dieClears_onlyDue (s : State) (d : Nat) : s.onlyDue (s.dieClears d) := by
  unfold State.dieClears
  dsimp only
  split
  · split
    · exact State.post_onlyDue ..
    · exact s.onlyDue_refl
  · exact s.onlyDue_refl

theorem State.forgetWait_onlyDue (s : State) (t : Team) (g : Group) : s.onlyDue (s.forgetWait t g) := by
  unfold State.forgetWait
  split
  · exact State.post_onlyDue ..
  · exact s.onlyDue_refl

theorem State.leaveBarriers_of_none {s : State} (k : GKey) (g : Group) (h : s.barriers = []) : s.leaveBarriers k g = s := by
  unfold State.leaveBarriers
  rw [h]
  simp only [List.map_nil, List.foldl_nil]
  rw [← h]
  rfl

/-- The team once the group in slot `n` has left it with `log`. -/
def Team.without (t : Team) (k : GKey) (log : List LogEntry) : Team :=
  { t with groups := t.groups.filter fun e => e.2 ≠ k.slot, logs := t.logs ++ log.map fun e => (k, e) }

/-- The state in which a group that ends has left its pen, its team and its slot. -/
def State.groupGone (s : State) (k : GKey) (g : Group) : State :=
  let p := s.pen (penOf k)
  ((s.putPen (penOf k) { p with holder := (if p.holder = some k.slot then none else p.holder),
                                stalled := p.stalled && p.holder != some k.slot, claims := p.claims.filter fun e => e.1 ≠ k.slot }).updTeam g.team
    fun t => t.without k g.log).dropGroup k

theorem State.updTeam_eq (s : State) (i : Nat) (f : Team → Team) : ∃ x, s.updTeam i f = s.setTeams x := by
  unfold State.updTeam
  split
  · exact ⟨_, rfl⟩
  · exact ⟨s.teams, rfl⟩

theorem State.updTeam_team?_self {s : State} {i : Nat} {x : Team} (f : Team → Team) (h : s.team? i = some x) :
    (s.updTeam i f).team? i = some (f x) := by
  unfold State.updTeam
  rw [h]
  exact Tbl.find_put_self ..

/-- Without a barrier, a group that ends leaves its places, and what follows is only posted. -/
theorem State.exitGroup_onlyDue {s : State} (k : GKey) (g : Group) (hb : s.barriers = []) : (s.groupGone k g).onlyDue (s.exitGroup k g) := by
  have hb' : ((s.groupGone k g).dieClears k.die).barriers = [] := by
    obtain ⟨_, _, heq, -⟩ := (s.groupGone k g).dieClears_onlyDue k.die
    rw [heq]
    unfold State.groupGone
    dsimp only
    obtain ⟨x, hx⟩ := (s.putPen (penOf k) { s.pen (penOf k) with
      holder := (if (s.pen (penOf k)).holder = some k.slot then none else (s.pen (penOf k)).holder),
      stalled := (s.pen (penOf k)).stalled && (s.pen (penOf k)).holder != some k.slot,
      claims := (s.pen (penOf k)).claims.filter fun e => e.1 ≠ k.slot }).updTeam_eq g.team fun t => t.without k g.log
    rw [hx]
    exact hb
  have hclears := (s.groupGone k g).dieClears_onlyDue k.die
  have hpost := State.onlyDue_trans hclears
    (((s.groupGone k g).dieClears k.die).post_onlyDue ((s.groupGone k g).dieClears k.die).clk (.claimGrant (penOf k)))
  unfold State.exitGroup
  dsimp only
  rw [show ((s.putPen (penOf k) { s.pen (penOf k) with
      holder := (if (s.pen (penOf k)).holder = some k.slot then none else (s.pen (penOf k)).holder),
      stalled := (s.pen (penOf k)).stalled && (s.pen (penOf k)).holder != some k.slot,
      claims := (s.pen (penOf k)).claims.filter fun e => e.1 ≠ k.slot }).updTeam g.team
        fun t => { t with groups := t.groups.filter fun e => e.2 ≠ k.slot, logs := t.logs ++ g.log.map fun e => (k, e) }).dropGroup k
    = s.groupGone k g from rfl, State.leaveBarriers_of_none k g hb']
  generalize ((s.groupGone k g).dieClears k.die).post ((s.groupGone k g).dieClears k.die).clk (.claimGrant (penOf k)) = w at hpost ⊢
  split
  next t _ =>
    have hwait : ∀ n e, (s.groupGone k g).onlyDue ((w.forgetWait t g).post n e) := fun n e =>
      State.onlyDue_trans hpost (State.onlyDue_trans (w.forgetWait_onlyDue t g) (State.post_onlyDue ..))
    split
    · exact State.onlyDue_trans (hwait _ _) (State.post_onlyDue ..)
    · exact hwait _ _
  · exact hpost

/-- A group that is killed leaves its slot and its team, which has failed. -/
theorem State.killGroup_spec {k : GKey} {g : Group} (ht : g.task = none) (hb : s.barriers = []) (hs : Tbl.sorted s.groups = true) :
    (s.killGroup k g).group? k = none ∧ (s.killGroup k g).mem = s.mem
      ∧ ∀ tm, s.team? g.team = some tm → ∃ u,
        (s.killGroup k g).team? g.team = some u ∧ u.failed = true ∧ u.groups = tm.groups.filter fun e => e.2 ≠ k.slot := by
  let u := s.updTeam g.team fun t => { t with failed := true }
  obtain ⟨x, hx⟩ := s.updTeam_eq g.team fun t => { t with failed := true }
  have hkill : s.killGroup k g = u.exitGroup k { g with log := [] } := by
    unfold State.killGroup
    simp only [ht]
    rfl
  have hdue := State.exitGroup_onlyDue (s := u) k { g with log := [] } (by rw [show u = _ from hx]; exact hb)
  rw [← hkill] at hdue
  obtain ⟨hhost, hmem, hgroups, -⟩ := State.onlyDue_spec hdue
  have hteams := (State.onlyDue_tables hdue).2.2.2.2.2
  let p := u.pen (penOf k)
  let v := u.putPen (penOf k) { p with holder := (if p.holder = some k.slot then none else p.holder),
                                       stalled := p.stalled && p.holder != some k.slot, claims := p.claims.filter fun e => e.1 ≠ k.slot }
  obtain ⟨y, hy⟩ := v.updTeam_eq g.team fun t => t.without k []
  have hgone : u.groupGone k { g with log := [] } = (v.setTeams y).dropGroup k := congrArg (fun w => State.dropGroup w k) hy
  refine ⟨?_, ?_, fun tm htm => ?_⟩
  · rw [State.group?, hgroups, hgone]
    refine Tbl.find_del_self (keyNum k) ?_
    rw [show (v.setTeams y).groups = u.groups from rfl, show u = _ from hx]
    exact hs
  · rw [hmem, hgone, show ((v.setTeams y).dropGroup k).mem = u.mem from rfl, show u = _ from hx]
    rfl
  · have hu : u.team? g.team = some { tm with failed := true } := State.updTeam_team?_self (fun t => { t with failed := true }) htm
    have hv : (v.updTeam g.team fun t => t.without k []).team? g.team = some (Team.without { tm with failed := true } k []) :=
      State.updTeam_team?_self (fun t => t.without k []) hu
    refine ⟨Team.without { tm with failed := true } k [], ?_, rfl, rfl⟩
    rw [State.team?, hteams, hgone, show ((v.setTeams y).dropGroup k).teams = (v.setTeams y).teams from rfl, ← hy]
    exact hv

theorem State.killAny_of_no_task {k : GKey} {g : Group} (ht : g.task = none) : s.killAny k g = s.killGroup k g := by
  unfold State.killAny
  rw [ht]
end

/-- Settles O51: each command and answer is followed to the one write of the context, the group or the agenda that it makes. -/
theorem descriptorAndHostEvents : Obligations.DescriptorAndHostEvents := by
  refine ⟨fun s d c v hs => ?_, fun s part ctx => ⟨fun sel d c n hs => ?_, fun k team n g hs hg ht => ?_⟩, fun s d c idx sel i a hforms => ?_,
    fun s d c page i hforms => ?_, fun s d c page hs => ?_, fun s d c page hs => ?_, fun s pasid lo hi hs => ?_,
    fun s d c n g cs lin home name a hg hr hsp hs => ?_, fun s d c n by_ g cause hg hr => ?_⟩
  · have he : exec .segsync s = .next (s.segsync d c v) := exec_of_subject hs
    let u := s.newId.2.updCtx d c fun x => { x with resDone := false, resAct := s.fresh, res := 0#2 }
    have hu : u.ctx d c = { s.ctx d c with resDone := false, resAct := s.fresh, res := 0#2 } := State.updCtx_ctx_self ..
    have hfar := s.farHop_le d
    obtain ⟨due, hlo, hhi, hmem⟩ := u.mem_within_agenda (base := 80 + 60 * s.farHop d) (limit := 2048)
      (.descriptorSyncDone (s.slotOf d) c (some (if v.getLsbD 31 then everySel else v.toNat % 65536)) (.rbres d c s.fresh)) (by omega)
    have hclk : u.clk = s.clk := rfl
    have hctx : (s.segsync d c v).ctx d c = u.ctx d c := rfl
    refine ⟨_, due, he, ?_⟩
    rw [hctx, hu]
    exact ⟨rfl, rfl, rfl, fun _ => ⟨by omega, by omega⟩, hmem⟩
  · have he : exec .descriptorSyncDone s = .next (s.descriptorSyncDone part ctx sel (.rbres d c n)) := exec_of_subject hs
    refine ⟨_, he, s.descriptorSyncDone_rbres_spec part ctx sel d c n, fun hsel hact => ?_⟩
    rw [hsel, State.descriptorSyncDone_rbres]
    exact congrArg (s.putCtx d c) (if_pos hact)
  · have he : exec .descriptorSyncDone s = .next (s.descriptorSyncDone part ctx none (.scalar k team n)) := exec_of_subject hs
    subst ht
    refine ⟨_, _, he, s.descriptorSyncDone_scalar part ctx k n hg, rfl, fun p hp => ?_⟩
    have := (List.mem_filter.1 hp).2
    rintro ⟨h0, hon⟩
    simp [h0, hon] at this
  · intro u
    obtain ⟨op, sel', he⟩ : ∃ op sel', exec i s = .next (s.rbcmd d c idx op sel' a) := by
      rcases hforms with ⟨rfl, hs, rfl⟩ | ⟨rfl, hs, rfl⟩ | ⟨rfl, hs, rfl⟩ | ⟨rfl, hs, rfl⟩
      · exact ⟨1, sel, exec_of_subject hs⟩
      · exact ⟨2, 0, exec_of_subject hs⟩
      · exact ⟨3, 0, exec_of_subject hs⟩
      · exact ⟨4, 0, exec_of_subject hs⟩
    refine ⟨⟨_, he⟩, fun t ht => ?_, fun e sig t ht hact => ?_⟩
    · have hctxs := State.applyBind_refused_ctxs ht
      have hact : (t.ctx d c).resAct = s.fresh := by
        rw [State.ctx, hctxs]
        exact congrArg Ctx.resAct (s.rbBegun_ctx d c)
      obtain ⟨hres, hm, due, hdue⟩ := State.rbEnded_spec 1#2 80 none hact
      rw [State.rbcmd_of_refused ht] at he
      exact ⟨_, due, he, hres, hm, hdue⟩
    · obtain ⟨w, clk, hw, heq⟩ := State.rbcmd_of_applied (op := op) (sel := sel') ht
      have hact' : (w.ctx d c).resAct = s.fresh := by
        rw [State.ctx, (State.onlyDue_tables hw).1]
        exact hact
      obtain ⟨hres, hm, due, hdue⟩ := State.rbEnded_spec 0#2 clk (if a = .revoke ∧ e.sel ≠ 0 then some e.sel else none) hact'
      rw [heq] at he
      exact ⟨_, due, he, hres, hm.trans (State.onlyDue_spec hw).2.1, hdue⟩
  · rcases hforms with ⟨rfl, hs⟩ | ⟨rfl, hs⟩
    · have he : exec .priResponse s = .next (s.priResponse d c page true) := exec_of_subject hs
      refine ⟨⟨_, he⟩, fun k g tr hg hkc hks hkd hctx hr hb ha => ?_⟩
      obtain ⟨h, o, heq⟩ := s.priAnswered_eq d c page
      subst hkd hctx
      have hx : s.priResponse k.die (s.ctxOf g.team) page true = ((s.setHost h).setOutbox o).hostPageIn k.die (s.ctxOf g.team) page := by
        unfold State.priResponse
        rw [heq]
        rfl
      rw [hx] at he
      obtain ⟨hgroup, hm, htlb⟩ := State.hostPageIn_of_one (s := (s.setHost h).setOutbox o) hg hkc hks hr hb ha
      exact ⟨_, _, he, hgroup, rfl, hm, htlb⟩
    · have he : exec .atsTranslationCompletion s = .next (s.atsDone d c page true) := exec_of_subject hs
      refine ⟨⟨_, he⟩, fun k g tr hg hkc hks hkd hctx hr hb ha => ?_⟩
      subst hkd hctx
      obtain ⟨hgroup, hm, htlb⟩ := State.hostPageIn_of_one hg hkc hks hr hb ha
      exact ⟨_, _, he, hgroup, rfl, hm, htlb⟩
  · have he : exec .priResponse s = .next (s.priResponse d c page false) := exec_of_subject hs
    intro s1
    refine ⟨fun hg ht hc hsv => ?_, ?_⟩
    · obtain ⟨h, o, heq⟩ := s.priAnswered_eq d c page
      have hs1 : s1 = (s.setHost h).setOutbox o := heq
      have hgroups : s1.groups = [] := by rw [hs1]; exact hg
      have hon : s1.groupsOn d c = [] := by
        unfold State.groupsOn
        rw [hgroups]
        rfl
      have hwait : s1.hostWaiters d c page = [] := by
        unfold State.hostWaiters
        rw [hon]
        rfl
      rw [he, State.priResponse_refused s (u := s1) (by rw [show (s.priAnswered d c page).hostWaiters d c page = [] from hwait]; rfl) hon]
      · rw [show s1.teams = [] by rw [hs1]; exact ht]
        exact fun e he => absurd he List.not_mem_nil
      · rw [show s1.cores = [] by rw [hs1]; exact hc]
        exact fun e he => absurd he List.not_mem_nil
      · rw [show s1.die d = s.die d by rw [hs1]; rfl]
        exact hsv
    · intro k g hw u hg ht hc hsv
      rw [he,
        State.priResponse_refused s (u := u) (by rw [show (s.priAnswered d c page).hostWaiters d c page = [(k, g)] from hw]; rfl) hg ht hc hsv]
  · exact exec_of_subject hs
  · have he : exec .atsInvalidate s = .next (s.atsInvalidate pasid lo hi) := exec_of_subject hs
    refine ⟨_, he, rfl, rfl, fun e => ?_⟩
    rw [show (s.atsInvalidate pasid lo hi).tlb = s.tlb.filter fun e => !(e.die == 20 && e.ctx == pasid && decide (lo ≤ e.page) && decide (e.page ≤ hi)) from rfl,
      List.mem_filter]
    simp only [Bool.not_eq_true', ← Bool.not_eq_true, Bool.and_eq_true, beq_iff_eq, decide_eq_true_eq, and_assoc]
  · have he : exec .pkctlResume s = .next (s.pkctlResume d c n none) := exec_of_subject hs
    rw [he, State.pkctlResume_of_act hg hr hsp]
  · have hr' : g.run.awaitsPage := hr.imp (fun h => ⟨cause, h⟩) id
    refine ⟨fun hs hb => ?_, fun hs hb => ?_, fun hs hb => ?_, fun hs hb => ?_⟩
    · have he : exec .pkctlResume s = .next (s.pkctlResume d c n by_) := exec_of_subject hs
      rw [State.pkctlResume_of_page hg hr' ((s.pkReaches_iff g by_).2 hb)] at he
      refine ⟨he, fun ha hbud => ?_⟩
      rw [State.resumeParked_of_free hbud ha] at he
      exact ⟨_, he, State.putGroup_group?_self .., rfl⟩
    · have he : exec .pkctlResume s = .next (s.pkctlResume d c n by_) := exec_of_subject hs
      rw [he, (State.pkctl_of_stranger hg (State.not_pkReaches hb)).1]
    · have he : exec .pkctlKill s = .next (s.pkctlKill d c n by_) := exec_of_subject hs
      rw [State.pkctlKill_of_page hg hr' ((s.pkReaches_iff g by_).2 hb)] at he
      refine ⟨he, fun htask hbar hsort => ?_⟩
      rw [State.killAny_of_no_task htask] at he
      exact ⟨_, he, State.killGroup_spec htask hbar hsort⟩
    · have he : exec .pkctlKill s = .next (s.pkctlKill d c n by_) := exec_of_subject hs
      rw [he, (State.pkctl_of_stranger hg (State.not_pkReaches hb)).2]

end Sys2Proof.Machine
end

section
namespace Sys2Proof.Machine

/-! ## Arrivals at barriers, events and queues (O53) -/

section
variable {s : State} {k : GKey} {g : Group}

/-! ### Barriers -/

theorem State.barrierArrive_arrive (b : BarKey) (hg : s.group? k = some g) :
    s.barrierArrive b (.arrive k g.team)
      = ((s.putGroup k { g with arrivals := assocPut g.arrivals b (s.barrier b).phase }).putBarrier b
          { s.barrier b with arrived := (s.barrier b).arrived ++ [k] }).tryPhase b := by
  unfold State.barrierArrive
  simp only [hg, if_true]
  rfl

theorem State.barrierArrive_again (b : BarKey) (hg : s.group? k = some g) (ha : (s.barrier b).arrived.contains k = true) :
    s.barrierArrive b (.arriveMma k g.team) = s.putGroup k { g with barrierDue := g.barrierDue ++ [BitVec.ofNat 32 (barBsel b + 64)] } := by
  unfold State.barrierArrive
  simp only [hg, ne_eq, not_true_eq_false, if_false, ha, if_true]

/-! ### Events -/

section
variable {d c n : Nat} {e : EvEntry}

theorem State.evTake_of_onChip (hf : s.evFind d c n = some e) (ho : e.onChip = true) : s.evTake d c n = .ok ({ e with used := s.clk }, s) := by
  unfold State.evTake
  simp only [hf, ho, if_true]

/-- An entry that nobody waits at stays as it is. -/
theorem State.evWakeAll_of_nobody (hw : e.waiters = []) (hn : e.nodes = []) (hh : e.head = 0) : s.evWakeAll d c n e = .ok (e, s) := by
  cases e
  dsimp only at hw hn hh
  subst hw hn hh
  rfl

theorem State.evPut_of_onChip (ho : e.onChip = true) : s.evPut d c n e = .ok (s.evSet d c n e) := by
  unfold State.evPut
  rw [if_pos ho]

theorem State.evSet_find (s : State) (d c n : Nat) (e : EvEntry) : (s.evSet d c n e).evFind d c n = some e := by
  have h : (s.evSet d c n e).die d = { s.die d with events := assocPut (s.die d).events (c, n) e } := Tbl.get_put_self ..
  rw [State.evFind, h]
  exact assocGet_assocPut_self ..

theorem State.firstAct_of_idle (part : Nat) (a : EventAct) (h : s.agenda = []) : s.firstAct part c n a = (a, s) := by
  unfold State.firstAct
  rw [h]
  exact if_pos rfl

/-- A signal adds 1 to a count that is on its die. -/
theorem State.eventActArrive_signal {part : Nat} (ha : s.agenda = []) (hf : s.evFind (s.homeDie part) c n = some e) (ho : e.onChip = true)
    (hw : e.waiters = []) (hn : e.nodes = []) (hh : e.head = 0) (hd : e.dies = []) (hheld : s.evHeld (s.homeDie part) c n = false) :
    s.eventActArrive part c n (.signal none) = s.evSet (s.homeDie part) c n { e with used := s.clk, c := e.c + 1#32 } := by
  have hwake : s.evWakeAll (s.homeDie part) c n { e with used := s.clk, c := e.c + 1#32 } = .ok ({ e with used := s.clk, c := e.c + 1#32 }, s) :=
    State.evWakeAll_of_nobody hw hn hh
  have hput : s.evPut (s.homeDie part) c n { e with used := s.clk, c := e.c + 1#32 }
      = .ok (s.evSet (s.homeDie part) c n { e with used := s.clk, c := e.c + 1#32 }) := State.evPut_of_onChip ho
  have hsend : ∀ t : State, t.evSend (s.homeDie part) c n { e with used := s.clk, c := e.c + 1#32 } = t := fun t => by
    unfold State.evSend
    rw [show ({ e with used := s.clk, c := e.c + 1#32 } : EvEntry).dies = [] from hd]
    rfl
  have hact : s.evAct (s.homeDie part) c n (.signal none) = .ok (s.evSet (s.homeDie part) c n { e with used := s.clk, c := e.c + 1#32 }) := by
    unfold State.evAct
    rw [State.evTake_of_onChip hf ho]
    dsimp only
    rw [hwake]
    dsimp only
    rw [hput]
    exact congrArg Except.ok (hsend _)
  unfold State.eventActArrive
  rw [State.firstAct_of_idle part _ ha]
  dsimp only
  rw [hact]
  dsimp only
  rw [hheld]
  rfl

/-- A count from the home die takes effect. -/
theorem State.eventCountUpdate_of_onChip {v : Word} (hf : s.evFind d c n = some e) (ho : e.onChip = true) (hw : e.waiters = []) (hn : e.nodes = [])
    (hh : e.head = 0) : s.eventCountUpdate d c n v = s.evSet d c n { e with used := s.clk, c := v } := by
  have hwake : s.evWakeAll d c n { e with used := s.clk, c := v } = .ok ({ e with used := s.clk, c := v }, s) := State.evWakeAll_of_nobody hw hn hh
  have hput : s.evPut d c n { e with used := s.clk, c := v } = .ok (s.evSet d c n { e with used := s.clk, c := v }) := State.evPut_of_onChip ho
  have hcount : s.evCount d c n v = .ok (s.evSet d c n { e with used := s.clk, c := v }) := by
    unfold State.evCount
    rw [State.evTake_of_onChip hf ho]
    dsimp only
    rw [hwake]
    exact hput
  unfold State.eventCountUpdate
  rw [hcount]
end

theorem State.eventWake_of_done {n : Nat} {v : Word} (hg : s.group? k = some g) (hr : g.run = .waiting (.event n v)) (hh : g.half = .done) :
    s.eventWake k g.team = s.putGroup k { g with run := .ready, readyAt := s.clk } := by
  unfold State.eventWake State.anyGroup
  simp only [hg, hr, hh, and_self, if_true, State.putAny, Option.isSome_some]

/-! ### Queues -/

theorem State.firstQueueAct_of_idle (k : GKey) (a : QueueAct) (h : s.agenda = []) : s.firstQueueAct k a = ((k, a), s) := by
  unfold State.firstQueueAct
  rw [h]
  exact if_pos rfl

/-- A queue that has its blocks fitted holds the same records. -/
theorem State.fitWq_spec (s : State) (d q : Nat) (x : WorkQueue) :
    (∃ bs, (s.fitWq d q x).wq d q = { x with blocks := bs }) ∧ (s.fitWq d q x).mem = s.mem ∧ (s.fitWq d q x).groups = s.groups
      ∧ (s.fitWq d q x).clk = s.clk :=
  ⟨⟨_, State.putWq_wq_self ..⟩, rfl, rfl, rfl⟩

theorem State.updGroup_wq (s : State) (k : GKey) (f : Group → Group) (d q : Nat) : (s.updGroup k f).wq d q = s.wq d q := by
  unfold State.updGroup
  split <;> rfl

theorem popLanes_eq (ls : List Nat) (items : List Word) :
    popLanes ls items = (ls.zipIdx.map fun x => (x.1, items[x.2]?), items.drop ls.length) := by
  induction ls generalizing items with
  | nil => rfl
  | cons l r ih =>
    rw [popLanes, ih]
    dsimp only
    refine Prod.ext ?_ ?_
    · rw [List.zipIdx_cons, List.map_cons]
      refine congrArg₂ List.cons ?_ ?_
      · rw [List.head?_eq_getElem?]
      · rw [Nat.zero_add, List.zipIdx_succ, List.map_map]
        refine List.map_congr_left fun x _ => ?_
        simp [List.getElem?_tail]
    · rw [List.length_cons, ← List.drop_one, List.drop_drop, Nat.add_comm]

/-- The act of a group for which the queue's answer is still on its way. -/
theorem State.landed {t : State} {id : Nat} (F : Group → Group) (hg : t.group? k = some g) (hp : g.pend.any (fun p => p.id = id) = true) :
    t.updGroup k (fun g => if g.pend.any (fun p => p.id = id) then F g else g) = t.putGroup k (F g) := by
  unfold State.updGroup
  simp only [hg, hp, if_true]

section
variable {id q : Nat}

theorem State.queueActArrive_count (n : Nat) (ha : s.agenda = []) (hg : s.group? k = some g) (hp : g.pend.any (fun p => p.id = id) = true) :
    s.queueActArrive k (.count id q n) = (s.putWq k.die q { s.wq k.die q with used := s.clk }).putGroup k
      ((g.setScalar n (BitVec.ofNat 32 (s.wq k.die q).items.length)).arrived id 0xffffffff#32) := by
  unfold State.queueActArrive
  rw [State.firstQueueAct_of_idle k _ ha]
  exact State.landed (t := s.putWq k.die q { s.wq k.die q with used := s.clk })
    (fun g => (g.setScalar n (BitVec.ofNat 32 (s.wq k.die q).items.length)).arrived id 0xffffffff#32) hg hp

/-- The queue once `left` of its records are left. -/
def WorkQueue.popped (x : WorkQueue) (left : List Word) (clk : Nat) : WorkQueue :=
  { x with items := left, spoilt := x.spoilt.map (· - (x.items.length - left.length)), used := clk }

theorem State.queueActArrive_pop {regs : List Nat} {f : Nat} {mask : Word} (ha : s.agenda = []) (hg : s.group? k = some g)
    (hp : g.pend.any (fun p => p.id = id) = true) (hsp : (s.wq k.die q).spoilt = []) :
    s.queueActArrive k (.pop id q regs f mask)
      = (s.fitWq k.die q ((s.wq k.die q).popped ((s.wq k.die q).items.drop (lanesOf mask).length) s.clk)).putGroup k
        (g.landPop id regs f ((lanesOf mask).zipIdx.map fun x => (x.1, (s.wq k.die q).items[x.2]?)) s.clk) := by
  unfold State.queueActArrive
  rw [State.firstQueueAct_of_idle k _ ha]
  dsimp only
  rw [popLanes_eq]
  dsimp only
  rw [hsp, List.any_nil, if_neg Bool.false_ne_true, ← hsp]
  exact State.landed (t := s.fitWq k.die q ((s.wq k.die q).popped ((s.wq k.die q).items.drop (lanesOf mask).length) s.clk))
    (fun g => g.landPop id regs f ((lanesOf mask).zipIdx.map fun x => (x.1, (s.wq k.die q).items[x.2]?)) s.clk) hg hp

theorem State.queueActArrive_spoilt {regs : List Nat} {f i : Nat} {mask : Word} (ha : s.agenda = []) (hg : s.group? k = some g)
    (hp : g.pend.any (fun p => p.id = id) = true) (hi : i ∈ (s.wq k.die q).spoilt) (hl : i < (lanesOf mask).length)
    (hn : i < (s.wq k.die q).items.length) : s.queueActArrive k (.pop id q regs f mask) = s.putGroup k (g.popSpoilt id) := by
  unfold State.queueActArrive
  rw [State.firstQueueAct_of_idle k _ ha]
  dsimp only
  rw [popLanes_eq]
  dsimp only
  rw [if_pos]
  · exact State.landed (fun g => g.popSpoilt id) hg hp
  · refine List.any_eq_true.2 ⟨i, hi, decide_eq_true ?_⟩
    rw [List.length_drop]
    omega

theorem State.evictQueues_of_room {d need : Nat} (m : Nat) (h : s.usedBlocks d + need ≤ storeBlocks) : State.evictQueues d q need m s = s := by
  cases m with
  | zero => rfl
  | succ m => exact if_pos h

/-- What a push that the queue has room for leaves. -/
theorem State.queueActArrive_push {f : Nat} {mask : Word} {vals : Lanes} (ha : s.agenda = []) (hg : s.group? k = some g)
    (hp : g.pend.any (fun p => p.id = id) = true) (hc : (s.wq k.die q).items.length + (lanesOf mask).length ≤ s.wqCap k.die q)
    (hr : s.usedBlocks k.die + wqBlocks ((s.wq k.die q).items.length + (lanesOf mask).length) ≤ storeBlocks + wqBlocks (s.wq k.die q).items.length) :
    ∃ h, s.queueActArrive k (.push id q f mask vals) = (s.fitWq k.die q
      { s.wq k.die q with items := (s.wq k.die q).items ++ (lanesOf mask).map vals.at, used := s.clk }).putGroup k h := by
  have hroom : min (lanesOf mask).length (s.wqCap k.die q - (s.wq k.die q).items.length) = (lanesOf mask).length := by omega
  have hmono : wqBlocks (s.wq k.die q).items.length ≤ wqBlocks ((s.wq k.die q).items.length + (lanesOf mask).length) :=
    Nat.div_le_div_right (by omega)
  have hfits : (lanesOf mask).length
      ≤ 16 * (wqBlocks (s.wq k.die q).items.length + storeBlocks - s.usedBlocks k.die) - (s.wq k.die q).items.length := by
    have hb : (s.wq k.die q).items.length + (lanesOf mask).length
        ≤ 16 * wqBlocks ((s.wq k.die q).items.length + (lanesOf mask).length) := by
      unfold wqBlocks
      omega
    omega
  unfold State.queueActArrive
  rw [State.firstQueueAct_of_idle k _ ha]
  dsimp only
  rw [hroom, State.evictQueues_of_room 128 (by omega), Nat.min_eq_left hfits, List.take_length]
  exact ⟨_, State.landed (t := s.fitWq k.die q { s.wq k.die q with items := (s.wq k.die q).items ++ (lanesOf mask).map vals.at, used := s.clk })
    (fun g => (g.setPred f (maskedBits mask (g.pred f) fun l => (lanesOf mask).contains l)).arrived id 0xffffffff#32) hg hp⟩
end

theorem State.makeReady_wq (s : State) (k : GKey) (n d q : Nat) : (s.makeReady k n).wq d q = s.wq d q := State.updGroup_wq ..

/-- A queue that has been read back is resident with the records of its backing. -/
theorem State.queueSwapInDone_spec {d c q : Nat} {rs : List Run} {u : State}
    (hr : s.usedBlocks d + wqBlocks (s.wq d (8 * c + q)).items.length ≤ storeBlocks)
    (ht : s.translateRange (dieWho d c) .read ((s.wq d (8 * c + q)).items.length / 16384 + 2) (s.qsaveLin d (8 * c + q))
      (4 * (s.wq d (8 * c + q)).items.length) = (.ok rs, u)) :
    ((s.queueSwapInDone d c q).wq d (8 * c + q)).resident = true ∧ ((s.queueSwapInDone d c q).wq d (8 * c + q)).loading = false
      ∧ ((s.queueSwapInDone d c q).wq d (8 * c + q)).items = wordsOf (s.wq d (8 * c + q)).items.length (u.readRuns rs) := by
  have hfold : ∀ (l : Tbl Group) (p : Nat × Group → Prop) [DecidablePred p] (w : State),
      (l.foldl (fun t e => if p e then t.makeReady (keyOfNum e.1) t.clk else t) w).wq d (8 * c + q) = w.wq d (8 * c + q) := by
    intro l p _
    induction l with
    | nil => exact fun _ => rfl
    | cons e r ih =>
      intro w
      rw [List.foldl_cons, ih]
      split
      · exact State.makeReady_wq ..
      · rfl
  have hx : ∃ bs, (s.queueSwapInDone d c q).wq d (8 * c + q) = { s.wq d (8 * c + q) with
      items := wordsOf (s.wq d (8 * c + q)).items.length (u.readRuns rs), resident := true, loading := false, used := s.clk, blocks := bs } := by
    unfold State.queueSwapInDone
    dsimp only
    rw [State.evictQueues_of_room 128 hr, if_neg (Nat.not_lt.2 hr), ht]
    dsimp only
    obtain ⟨⟨bs, hbs⟩, -⟩ := u.fitWq_spec d (8 * c + q) { s.wq d (8 * c + q) with
      items := wordsOf (s.wq d (8 * c + q)).items.length (u.readRuns rs), resident := true, loading := false, used := s.clk }
    exact ⟨bs, (hfold _ _ _).trans hbs⟩
  obtain ⟨bs, hx⟩ := hx
  rw [hx]
  exact ⟨rfl, rfl, rfl⟩
end

/-- Settles O53: with nothing else due, an act is the first of its event or queue, and takes effect on its own entry. -/
theorem arrivalEvents : Obligations.ArrivalEvents := by
  refine ⟨fun s b k g hs hg => ?_, fun s b k g hs hg ha => ?_, fun s b n hs => ?_, fun s b n hs => ?_,
    fun s part c n e ha hs hf ho hw hn hh hd hheld => ?_, fun s d c n v e hs hf ho hw hn hh => ?_, fun s k g n v hs hg hr hh => ?_,
    fun s k g id q ha hg hp hsp => ⟨fun n hs => ?_, fun regs f mask hs => ?_, fun f mask vals hs hc hr => ?_⟩,
    fun s k g id q regs f mask i ha hs hg hp hi hl hn => ?_, fun s d c q rs u hs hr ht => ?_⟩
  · have he : exec .barrierArrive s = .next (s.barrierArrive b (.arrive k g.team)) := exec_of_subject hs
    rw [he, State.barrierArrive_arrive b hg]
  · have he : exec .barrierArrive s = .next (s.barrierArrive b (.arriveMma k g.team)) := exec_of_subject hs
    rw [he, State.barrierArrive_again b hg ha]
  · exact exec_of_subject hs
  · exact exec_of_subject hs
  · have he : exec .eventActArrive s = .next (s.eventActArrive part c n (.signal none)) := exec_of_subject hs
    rw [State.eventActArrive_signal ha hf ho hw hn hh hd hheld] at he
    exact ⟨_, _, he, State.evSet_find .., rfl, rfl⟩
  · have he : exec .eventCountUpdate s = .next (s.eventCountUpdate d c n v) := exec_of_subject hs
    rw [State.eventCountUpdate_of_onChip hf ho hw hn hh] at he
    exact ⟨_, _, he, State.evSet_find .., rfl, rfl⟩
  · have he : exec .eventWake s = .next (s.eventWake k g.team) := exec_of_subject hs
    rw [State.eventWake_of_done hg hr hh] at he
    exact ⟨_, he, State.putGroup_group?_self .., rfl⟩
  · have he : exec .queueActArrive s = .next (s.queueActArrive k (.count id q n)) := exec_of_subject hs
    rw [State.queueActArrive_count n ha hg hp] at he
    refine ⟨_, _, he, State.putGroup_group?_self .., Group.scalar_setScalar_self g n _, ?_, rfl⟩
    have hq := State.putWq_wq_self s k.die q { s.wq k.die q with used := s.clk }
    exact (congrArg WorkQueue.items hq :)
  · have he : exec .queueActArrive s = .next (s.queueActArrive k (.pop id q regs f mask)) := exec_of_subject hs
    rw [State.queueActArrive_pop ha hg hp hsp] at he
    obtain ⟨⟨bs, hbs⟩, hm, -⟩ := s.fitWq_spec k.die q ((s.wq k.die q).popped ((s.wq k.die q).items.drop (lanesOf mask).length) s.clk)
    exact ⟨_, he, congrArg WorkQueue.items hbs, hm, State.putGroup_group?_self ..⟩
  · have he : exec .queueActArrive s = .next (s.queueActArrive k (.push id q f mask vals)) := exec_of_subject hs
    obtain ⟨h, heq⟩ := State.queueActArrive_push (vals := vals) (f := f) ha hg hp hc hr
    rw [heq] at he
    obtain ⟨⟨bs, hbs⟩, hm, -⟩ := s.fitWq_spec k.die q
      { s.wq k.die q with items := (s.wq k.die q).items ++ (lanesOf mask).map vals.at, used := s.clk }
    exact ⟨_, he, congrArg WorkQueue.items hbs, hm⟩
  · have he : exec .queueActArrive s = .next (s.queueActArrive k (.pop id q regs f mask)) := exec_of_subject hs
    rw [he, State.queueActArrive_spoilt ha hg hp hi hl hn]
  · have he : exec .queueSwapInDone s = .next (s.queueSwapInDone d c q) := exec_of_subject hs
    exact ⟨_, he, State.queueSwapInDone_spec hr ht⟩

end Sys2Proof.Machine
end

section
namespace Sys2Proof.Machine

/-! ## Ordered tasks (O54) -/

/-! ### A task starts -/

theorem foldl_maskedBits_getLsbD (mask old : Word) (b : Nat → Bool) (n : Nat) {j : Nat} (hj : j < 32) :
    ((List.range n).foldl (fun (w : Word) l =>
      if mask.getLsbD l then (if b l then w ||| (1#32 <<< l) else w &&& ~~~(1#32 <<< l)) else w) old).getLsbD j
      = if j < n ∧ mask.getLsbD j = true then b j else old.getLsbD j := by
  induction n with
  | zero => simp
  | succ n ih =>
    rw [List.range_succ, List.foldl_append, List.foldl_cons, List.foldl_nil]
    by_cases hjn : j = n
    · subst hjn
      split
      next hm =>
        split
        next hb => simp [one_shift _ _ hj, hm, hb]
        next hb => simp [one_shift _ _ hj, hj, hm, hb]
      next hm =>
        rw [ih]
        simp [hm]
    · have hrest : ∀ w : Word,
      (if mask.getLsbD n then (if b n then w ||| (1#32 <<< n) else w &&& ~~~(1#32 <<< n)) else w).getLsbD j = w.getLsbD j := by
        intro w
        split
        · split
          · simp [one_shift _ _ hj, hjn]
          · rw [BitVec.getLsbD_and, BitVec.getLsbD_not, one_shift _ _ hj]
            simp [hj, hjn]
        · rfl
      rw [hrest, ih]
      exact if_congr (and_congr_left' ⟨fun h => Nat.lt_succ_of_lt h, fun h => by omega⟩) rfl rfl

/-- A predicate written bit by bit in the lanes of a mask. -/
theorem maskedBits_getLsbD (mask old : Word) (b : Nat → Bool) {j : Nat} (hj : j < 32) :
    (maskedBits mask old b).getLsbD j = if mask.getLsbD j = true then b j else old.getLsbD j := by
  rw [maskedBits, foldl_maskedBits_getLsbD _ _ _ _ hj]
  simp [hj]

theorem zeroLanes_at (l : Nat) : zeroLanes.at l = 0#32 := by
  unfold zeroLanes Lanes.at Lanes.ofFn
  rw [List.getD_eq_getElem?_getD, List.getElem?_map]
  cases (List.range 32)[l]? with
  | none => rfl
  | some x => rfl

section
variable (g : Group) (trap : Word) (segs : Tbl SegReg) (r : Rec) (key : TaskKey) (clk ran : Nat)

theorem Group.startTask_regLane (n l : Nat) : (g.startTask trap segs r key clk ran).regLane n l = 0#32 := zeroLanes_at l

theorem Group.startTask_exec (l : Nat) :
    (g.startTask trap segs r key clk ran).exec.getLsbD l = (decide (l < r.nl) && g.population.getLsbD l) := by
  have h : (g.startTask trap segs r key clk ran).exec = (maskedBits 0xffffffff#32 0#32 fun l => decide (l < r.nl)) &&& g.population := rfl
  rw [h, BitVec.getLsbD_and]
  by_cases hl : l < 32
  · rw [maskedBits_getLsbD _ _ _ hl, if_pos]
    rw [show (0xffffffff#32 : Word) = BitVec.allOnes 32 from rfl, BitVec.getLsbD_allOnes]
    exact decide_eq_true hl
  · rw [BitVec.getLsbD_of_ge _ _ (Nat.not_lt.1 hl), BitVec.getLsbD_of_ge _ _ (Nat.not_lt.1 hl), Bool.and_false, Bool.and_false]

theorem Group.startTask_scalars (hr : r.args.length = 4) :
    (∀ i < 4, (g.startTask trap segs r key clk ran).scalar i = r.args.getD i 0#32)
      ∧ ∀ i, 4 ≤ i → (g.startTask trap segs r key clk ran).scalar i = 0#32 := by
  obtain ⟨a, b, c, d, hargs⟩ : ∃ a b c d, r.args = [a, b, c, d] := by
    match h : r.args, hr with
    | [a, b, c, d], _ => exact ⟨a, b, c, d, rfl⟩
  have hsc : (g.startTask trap segs r key clk ran).sc = [(0, a), (1, b), (2, c), (3, d)] := by
    have h : (g.startTask trap segs r key clk ran).sc = (r.args.zip (List.range 4)).foldl (fun (t : Tbl Word) e => t.put e.2 e.1) [] := rfl
    rw [h, hargs]
    rfl
  refine ⟨fun i hi => ?_, fun i hi => ?_⟩
  · rw [Group.scalar, hsc, hargs]
    match i, hi with
    | 0, _ => rfl
    | 1, _ => rfl
    | 2, _ => rfl
    | 3, _ => rfl
  · rw [Group.scalar, hsc]
    match i, hi with
    | i + 4, _ => rfl

theorem Group.startTask_pc (hk : r.ek = false) : (g.startTask trap segs r key clk ran).pc = r.entry.setWidth 48 := by
  have h : (g.startTask trap segs r key clk ran).pc = if r.ek then 0#48 else r.entry.setWidth 48 := rfl
  rw [h, hk]
  rfl
end

/-! ### A domain's records, and what leaves them -/

/-- `e` is `d` but for its tracks and for fields of its dies other than the records and what the others have said. -/
def Domain.keeps (d e : Domain) : Prop :=
  e.failed = d.failed ∧ e.launch = d.launch ∧ e.node = d.node ∧ ∀ x, (e.at x).queued = (d.at x).queued ∧ (e.at x).others = (d.at x).others

theorem Domain.keeps_refl (d : Domain) : d.keeps d := ⟨rfl, rfl, rfl, fun _ => ⟨rfl, rfl⟩⟩

theorem Domain.keeps_trans {d e f : Domain} (a : d.keeps e) (b : e.keeps f) : d.keeps f := by
  obtain ⟨ha, hal, han, hax⟩ := a
  obtain ⟨hb, hbl, hbn, hbx⟩ := b
  exact ⟨hb.trans ha, hbl.trans hal, hbn.trans han, fun x => ⟨(hbx x).1.trans (hax x).1, (hbx x).2.trans (hax x).2⟩⟩

theorem Domain.at_upd_self (d : Domain) (i : Nat) (f : DomDie → DomDie) : (d.upd i f).at i = f (d.at i) := Tbl.get_put_self ..

theorem Domain.at_upd_ne (d : Domain) {i x : Nat} (f : DomDie → DomDie) (h : x ≠ i) : (d.upd i f).at x = d.at x := Tbl.get_put_ne _ _ _ h

theorem Domain.keeps_upd (d : Domain) (i : Nat) {f : DomDie → DomDie} (hf : ∀ z, (f z).queued = z.queued ∧ (f z).others = z.others) :
    d.keeps (d.upd i f) := by
  refine ⟨rfl, rfl, rfl, fun x => ?_⟩
  by_cases hx : x = i
  · subst hx
    rw [Domain.at_upd_self]
    exact hf _
  · rw [Domain.at_upd_ne _ _ hx]
    exact ⟨rfl, rfl⟩

theorem Domain.keeps_of_tracks {d e : Domain} (h : ∃ l, e = { d with tracks := l }) : d.keeps e := by
  obtain ⟨l, rfl⟩ := h
  exact ⟨rfl, rfl, rfl, fun _ => ⟨rfl, rfl⟩⟩

theorem Domain.keeps_untrack (d : Domain) (i : Nat) : d.keeps (d.untrack i) := Domain.keeps_of_tracks ⟨_, rfl⟩

theorem Domain.keeps_foldl {α : Type} {f : Domain → α → Domain} (hf : ∀ d x, Domain.keeps d (f d x)) (l : List α) (d : Domain) :
    d.keeps (l.foldl f d) := by
  induction l generalizing d with
  | nil => exact d.keeps_refl
  | cons x r ih => exact Domain.keeps_trans (hf d x) (ih _)

theorem Domain.keeps_record (d : Domain) (id : Nat) (reader promoted : Bool) (ps : List Place) : d.keeps (d.record id reader promoted ps) :=
  Domain.keeps_foldl (fun _ _ => Domain.keeps_of_tracks ⟨_, rfl⟩) ps d

section
variable {s : State} {part c d : Nat} {dom : Domain}

theorem State.updDomain_of {f : Domain → Domain} (hd : s.domain? part c = some dom) : s.updDomain part c f = s.putDomain part c (f dom) := by
  unfold State.updDomain
  rw [hd]

theorem State.putDomain_domain? (s : State) (part c : Nat) (e : Domain) : (s.putDomain part c e).domain? part c = some e :=
  assocGet_assocPut_self ..

theorem State.updDomain_domain? {f : Domain → Domain} (hd : s.domain? part c = some dom) : (s.updDomain part c f).domain? part c = some
    (f dom) := by
  rw [State.updDomain_of hd, State.putDomain_domain?]

theorem State.updDomain_eq (s : State) (part c : Nat) (f : Domain → Domain) : ∃ x, s.updDomain part c f = s.setDomains x := by
  unfold State.updDomain
  split
  · exact ⟨_, rfl⟩
  · exact ⟨s.domains, rfl⟩

theorem State.domain?_of_one {dom : Domain} (h : s.domains = [((part, c), dom)]) : s.domain? part c = some dom := by
  rw [State.domain?, h]
  exact if_pos rfl

theorem State.updDomain_of_one {f : Domain → Domain} (h : s.domains = [((part, c), dom)]) :
    s.updDomain part c f = s.setDomains [((part, c), f dom)] := by
  rw [State.updDomain_of (State.domain?_of_one h), State.putDomain, h]
  exact congrArg s.setDomains (if_pos rfl)

/-! ### The frontier -/

/-- Promoting the task of a group that is neither waiting nor parked. -/
theorem State.promote_of_ready {k : GKey} {g : Group} {t : Task} (hr : g.run = .ready) : ∃ a l, s.promote part c k g t
    = ((s.setAgenda a).updDomain part c fun d => (d.untrack t.record.id).record t.record.id false true l).putGroup k
      { g with task := some { t with spec := false, budgetOut := false, drainAt := s.clk + 4 }, budgetDue := g.budgetDue || t.budgetOut } := by
  unfold State.promote
  simp only [hr]
  split
  · exact ⟨s.agenda, _, rfl⟩
  · exact ⟨insertDue (s.clk + 4) (.taskCommit part c k.die) s.agenda, _, rfl⟩

theorem State.mem_taskGroups {k : GKey} {g : Group} {t : Task} (h : (k, g, t) ∈ s.taskGroups part c) :
    ∃ n, (n, g) ∈ s.groups ∧ k = keyOfNum n ∧ g.task = some t := by
  obtain ⟨⟨n, x⟩, he, hmatch⟩ := List.mem_filterMap.1 h
  dsimp only at hmatch
  split at hmatch
  next t' ht =>
    split at hmatch
    · obtain ⟨rfl, rfl, rfl⟩ := Option.some.inj hmatch
      exact ⟨n, he, rfl, ht⟩
    · cases hmatch
  · cases hmatch

/-- The state in which a die's frontier stands. -/
def State.fronted (s : State) (part c d : Nat) (dom : Domain) : State :=
  s.updDomain part c fun e => e.upd d fun x => { x with frontier := s.frontierOf part c d dom }

theorem State.fronted_domain? (hd : s.domain? part c = some dom) :
    ∃ e, (s.fronted part c d dom).domain? part c = some e ∧ dom.keeps e :=
  ⟨_, State.updDomain_domain? hd, dom.keeps_upd d fun _ => ⟨rfl, rfl⟩⟩

theorem State.fronted_eq (s : State) (part c d : Nat) (dom : Domain) : ∃ y, s.fronted part c d dom = s.setDomains y := s.updDomain_eq ..

/-- What finding the frontier comes to: nothing further, a task promoted, or a commit begun. -/
theorem State.refront_cases (hd : s.domain? part c = some dom) :
    s.refront part c d = s.fronted part c d dom
      ∨ (∃ k g t, (k, g, t) ∈ (s.fronted part c d dom).taskGroups part c ∧ s.refront part c d = (s.fronted part c d dom).promote part c k g t)
      ∨ ∃ id due, s.refront part c d =
        ((s.fronted part c d dom).updDomain part c fun e => e.upd d fun y => { y with committing := some (id, due) }).post due
          (.taskCommit part c d) := by
  unfold State.refront
  rw [hd]
  dsimp only
  split
  · exact .inl rfl
  · split
    next k g t hfind => exact .inr (.inl ⟨k, g, t, List.mem_of_find?_eq_some hfind, rfl⟩)
    · split
      · split
        · exact .inl rfl
        · exact .inr (.inr ⟨_, _, rfl⟩)
      · exact .inl rfl

/-- Where every task's group is ready, finding the frontier keeps the domain's records and memory. -/
theorem State.refront_spec (hd : s.domain? part c = some dom) (hr : ∀ e ∈ s.groups, e.2.task ≠ none → e.2.run = .ready) :
    (∃ e, (s.refront part c d).domain? part c = some e ∧ dom.keeps e) ∧ (s.refront part c d).mem = s.mem := by
  obtain ⟨y, hy⟩ := s.fronted_eq part c d dom
  obtain ⟨e, hu, hkeep⟩ := State.fronted_domain? (d := d) hd
  have hmem : (s.fronted part c d dom).mem = s.mem := by rw [hy]; rfl
  have hgroups : (s.fronted part c d dom).groups = s.groups := by rw [hy]; rfl
  rcases State.refront_cases (d := d) hd with h | ⟨k, g, t, hin, h⟩ | ⟨id, due, h⟩
  · rw [h]
    exact ⟨⟨e, hu, hkeep⟩, hmem⟩
  · obtain ⟨n, hn, -, ht⟩ := State.mem_taskGroups hin
    rw [hgroups] at hn
    have hready : g.run = .ready := hr (n, g) hn (by rw [ht]; exact fun h => nomatch h)
    obtain ⟨a, l, hp⟩ := State.promote_of_ready (s := s.fronted part c d dom) (part := part) (c := c) (k := k) (t := t) hready
    have hua : ((s.fronted part c d dom).setAgenda a).domain? part c = some e := hu
    rw [h, hp, State.updDomain_of hua]
    exact ⟨⟨_, State.putDomain_domain? .., Domain.keeps_trans hkeep (Domain.keeps_trans (Domain.keeps_untrack ..) (Domain.keeps_record ..))⟩, hmem⟩
  · rw [h, State.updDomain_of hu]
    refine ⟨⟨_, State.putDomain_domain? .., Domain.keeps_trans hkeep (Domain.keeps_upd _ d fun _ => ⟨rfl, rfl⟩)⟩, hmem⟩

theorem State.group?_of_one {k : GKey} {g : Group} (hg : s.groups = [(keyNum k, g)]) : s.group? k = some g := by
  rw [State.group?, hg]
  exact if_pos rfl

/-- With one group on the machine, which is ready, only its task can be promoted. -/
theorem State.refront_group {k : GKey} {g : Group} {y : Task} (hd : s.domain? part c = some dom) (hg : s.groups = [(keyNum k, g)])
    (hc : k.core < 16) (hs : k.slot < 512) (hr : g.run = .ready) (ht : g.task = some y) (hb : g.budgetDue = false) (hy : y.budgetOut = false) :
    ∃ z, (s.refront part c d).group? k = some { g with task := some z } ∧ z.record = y.record ∧ z.key = y.key ∧ z.draft = y.draft := by
  obtain ⟨w, hw⟩ := s.fronted_eq part c d dom
  have hgroups : (s.fronted part c d dom).groups = [(keyNum k, g)] := by rw [hw]; exact hg
  have hsame : ({ g with task := some y } : Group) = g := by rw [← ht]
  have hug : (s.fronted part c d dom).group? k = some { g with task := some y } := by rw [hsame]; exact State.group?_of_one hgroups
  rcases State.refront_cases (d := d) hd with h | ⟨j, g', t, hin, h⟩ | ⟨id, due, h⟩
  · rw [h]
    exact ⟨y, hug, rfl, rfl, rfl⟩
  · obtain ⟨n, hn, rfl, ht'⟩ := State.mem_taskGroups hin
    rw [hgroups] at hn
    obtain ⟨rfl, rfl⟩ := Prod.mk.inj (List.mem_singleton.1 hn)
    obtain rfl : y = t := Option.some.inj (ht.symm.trans ht')
    obtain ⟨a, l, hp⟩ := State.promote_of_ready (s := s.fronted part c d dom) (part := part) (c := c) (k := k) (t := y) hr
    rw [h, keyOfNum_keyNum hc hs, hp, State.putGroup_group?_self]
    refine ⟨{ y with spec := false, budgetOut := false, drainAt := (s.fronted part c d dom).clk + 4 }, ?_, rfl, rfl, rfl⟩
    rw [hb, hy]
    cases g'
    dsimp only at hb
    rw [hb]
    rfl
  · rw [h]
    obtain ⟨w', hw'⟩ := (s.fronted part c d dom).updDomain_eq part c fun e => e.upd d fun y => { y with committing := some (id, due) }
    rw [hw']
    exact ⟨y, hug, rfl, rfl, rfl⟩

/-! ### Dispatch -/

theorem State.storeUsed_le_of_one (hd : s.domains = [((part, c), dom)]) : s.storeUsed d ≤ (dom.at d).queued.length := by
  unfold State.storeUsed
  rw [hd, List.foldl_cons, List.foldl_nil]
  split
  · rw [Nat.zero_add]
  · exact Nat.zero_le _

theorem State.spillAll_of_room (h : s.storeUsed d ≤ Config.taskStore) : s.spillAll d = s := by
  unfold State.spillAll
  rw [Nat.sub_eq_zero_of_le h]
  rfl

theorem State.refillLook_of_none (hd : s.domain? part c = some dom) (hs : (dom.at d).spilled = []) : s.refillLook d part c = s := by
  unfold State.refillLook
  simp [hd, hs]

theorem State.refillAll_of_none (hd : s.domains = [((part, c), dom)]) (hs : (dom.at d).spilled = []) : s.refillAll d = s := by
  unfold State.refillAll
  rw [hd, List.foldl_cons, List.foldl_nil, State.refillLook_of_none (State.domain?_of_one hd) hs]
  exact ite_self s

/-- A team of the domain's node is on the die. -/
theorem State.domainLost_of_team {i : Nat} {tm : Team} (hd : s.domain? part c = some dom) (ht : s.team? i = some tm) (htd : tm.die = d)
    (hl : tm.launch = dom.launch) (hn : tm.node = dom.node) : s.domainLost part c d = s := by
  have hany : (s.teams.any fun e => e.2.die == d && e.2.launch == dom.launch && e.2.node == dom.node) = true :=
    List.any_eq_true.2 ⟨(i, tm), Tbl.mem_of_find ht, by simp [htd, hl, hn]⟩
  unfold State.domainLost
  simp only [hd, hany, Bool.true_or, if_true]

theorem State.taskDispatch_of_no_domain (h : s.domains = []) : s.taskDispatch d part c = s := by
  have hdom : s.domain? part c = none := by
    rw [State.domain?, h]
    rfl
  have hlost : s.domainLost part c d = s := by
    unfold State.domainLost
    rw [hdom]
  have hspill : s.spillAll d = s := State.spillAll_of_room (by
    unfold State.storeUsed
    rw [h]
    exact Nat.zero_le _)
  have hrefill : s.refillAll d = s := by
    unfold State.refillAll
    rw [h]
    rfl
  -- as variables, so that unfolding the one does not unfold the other
  obtain ⟨dispatch, hf⟩ : ∃ f, f = State.taskDispatch := ⟨_, rfl⟩
  obtain ⟨refill, hr⟩ : ∃ f, f = State.refillAll := ⟨_, rfl⟩
  rw [← hf]
  delta State.taskDispatch at hf
  rw [← hr] at hf hrefill
  subst hf
  dsimp only
  rw [hlost, hspill, hrefill, hdom]

/-- A die that has room, and nothing spilled, for the domain whose team is on it. -/
def State.dispatches (s : State) (d part c : Nat) (dom : Domain) (k : GKey) (g : Group) (tm : Team) : Prop :=
  s.domains = [((part, c), dom)] ∧ (dom.at d).spilled = [] ∧ (dom.at d).queued.length ≤ Config.taskStore ∧ s.groups = [(keyNum k, g)] ∧ k.core < 16
    ∧ k.slot < 512 ∧ k.die = d ∧ s.team? g.team = some tm ∧ tm.die = d ∧ tm.ctx = c ∧ tm.launch = dom.launch ∧ tm.node = dom.node ∧ tm.noTask = false
    ∧ g.task = none ∧ g.run = .stopped

section
variable {k : GKey} {g : Group} {tm : Team}

/-- The domain once the die's first record has gone. -/
def Domain.dispatched (dom : Domain) (d : Nat) (r : Rec) (rest : List Rec) : Domain :=
  dom.upd d fun x => { x with
    queued := rest
    counts := if r.tb.isSome then x.counts else assocPut x.counts r.ts ((assocGet (dom.at d).counts r.ts).getD 0 + 1) }

/-- The key a record starts with. -/
def Domain.tbFor (dom : Domain) (d : Nat) (r : Rec) : BitVec 16 := r.tb.getD (tbOf d ((assocGet (dom.at d).counts r.ts).getD 0))

/-- The group once the record has started in it. -/
def State.taskIn (s : State) (d part c : Nat) (dom : Domain) (g : Group) (tm : Team) (r : Rec) : Group :=
  g.startTask (s.trapvOf part c tm.krec tm.code.sel)
    (tm.segs (((s.clusters.find tm.cluster).map fun c => (c.w, c.h)).getD (1, 1)).1 (((s.clusters.find tm.cluster).map fun c => (c.w, c.h)).getD (1, 1)).2)
    { r with tb := some (dom.tbFor d r) } { ts := r.ts, tb := dom.tbFor d r } s.clk (s.ranClk d c)

/-- The state in which the record has started. -/
def State.taskPlaced (s : State) (d part c : Nat) (dom : Domain) (k : GKey) (g : Group) (tm : Team) (r : Rec) (rest : List Rec) : State :=
  let u := (s.setDomains [((part, c), dom.dispatched d r rest)]).putGroup k (s.taskIn d part c dom g tm r)
  (if r.budget = 0#32 then u else u.post (s.clk + 64) (.budgetTick (.task part c r.id))).updDie d fun x => { x with nextDispatch := s.clk + 1 }

theorem State.taskPlaced_eq (s : State) (d part c : Nat) (dom : Domain) (k : GKey) (g : Group) (tm : Team) (r : Rec) (rest : List Rec) :
    ∃ a, s.taskPlaced d part c dom k g tm r rest =
      ((((s.setDomains [((part, c), dom.dispatched d r rest)]).putGroup k (s.taskIn d part c dom g tm r)).setAgenda a).updDie d
      fun x => { x with nextDispatch := s.clk + 1 }) := by
  unfold State.taskPlaced
  dsimp only
  split
  · exact ⟨s.agenda, rfl⟩
  · exact ⟨insertDue (s.clk + 64) (.budgetTick (.task part c r.id)) s.agenda, rfl⟩

theorem State.freeSlots_of_one (h : s.dispatches d part c dom k g tm) : s.freeSlots c d dom = [(k, g, tm)] := by
  obtain ⟨-, -, -, hg, hkc, hks, hkd, ht, -, htc, hl, hn, hno, htask, hrun⟩ := h
  unfold State.freeSlots
  rw [hg]
  simp only [List.filterMap_cons, List.filterMap_nil, ht, keyOfNum_keyNum hkc hks, hkd, htc, hl, hn, hno, htask, hrun, Bool.not_false, and_self,
    if_true]

theorem State.taskDispatch_eq (h : s.dispatches d part c dom k g tm) : s.taskDispatch d part c =
    if (s.die d).run ≠ some c ∨ (s.die d).switching then s.refront part c d
    else if s.clk < (s.die d).nextDispatch then (s.refront part c d).postDispatch (s.die d).nextDispatch d part c
    else match (dom.at d).queued with
      | r :: rest => (((s.taskPlaced d part c dom k g tm r rest).refillAll d).refront part c d).postDispatch (s.clk + 1) d part c
      | [] => s.refront part c d := by
  have hfree := State.freeSlots_of_one h
  obtain ⟨hd, hsp, hq, hg, hkc, hks, hkd, ht, htd, htc, hl, hn, hno, htask, hrun⟩ := h
  have hdom := State.domain?_of_one hd
  have hrefill := State.refillAll_of_none hd hsp
  -- as variables, so that unfolding the one does not unfold the other
  obtain ⟨dispatch, hf⟩ : ∃ f, f = State.taskDispatch := ⟨_, rfl⟩
  obtain ⟨refill, hr⟩ : ∃ f, f = State.refillAll := ⟨_, rfl⟩
  rw [← hf]
  delta State.taskDispatch at hf
  rw [← hr] at hf hrefill ⊢
  subst hf
  dsimp only
  rw [State.domainLost_of_team hdom ht htd hl hn, State.spillAll_of_room (Nat.le_trans (State.storeUsed_le_of_one hd) hq),
    hrefill, hdom]
  dsimp only
  rw [hfree]
  split
  · rfl
  · split
    · rfl
    · split
      next r rest k' g' tm' tl hq' heq =>
        obtain ⟨rfl, rfl, rfl⟩ := heq
        rw [hsp, List.any_nil, if_neg Bool.false_ne_true, State.updDomain_of_one hd, hq']
        rfl
      next hno =>
        cases hq' : (dom.at d).queued with
        | nil => rfl
        | cons r rest => exact absurd rfl (hno r rest k g tm [] hq')

theorem State.taskPlaced_spec (h : s.dispatches d part c dom k g tm) (r : Rec) (rest : List Rec) :
    let u := s.taskPlaced d part c dom k g tm r rest
    u.domains = [((part, c), dom.dispatched d r rest)] ∧ u.groups = [(keyNum k, s.taskIn d part c dom g tm r)] ∧ u.mem = s.mem := by
  intro u
  obtain ⟨a, hu⟩ := s.taskPlaced_eq d part c dom k g tm r rest
  obtain ⟨-, -, -, hg, -⟩ := h
  rw [show u = _ from hu]
  refine ⟨rfl, ?_, rfl⟩
  show Tbl.put s.groups (keyNum k) _ = _
  rw [hg]
  simp [Tbl.put]

/-- The first record goes to the one free slot, and its task starts. -/
theorem State.taskDispatch_spec (h : s.dispatches d part c dom k g tm) {r : Rec} {rest : List Rec} (hrun : (s.die d).run = some c)
    (hsw : (s.die d).switching = false) (hclk : (s.die d).nextDispatch ≤ s.clk) (hq : (dom.at d).queued = r :: rest) :
    let t := s.taskDispatch d part c
    ∃ e y, t.domain? part c = some e ∧ (e.at d).queued = rest ∧ t.group? k = some { s.taskIn d part c dom g tm r with task := some y }
      ∧ y.record = { r with tb := some (dom.tbFor d r) } ∧ y.key = { ts := r.ts, tb := dom.tbFor d r } ∧ y.draft = [] ∧ t.mem = s.mem := by
  intro t
  have ht : t = (((s.taskPlaced d part c dom k g tm r rest).refillAll d).refront part c d).postDispatch (s.clk + 1) d part c := by
    unfold t
    rw [State.taskDispatch_eq h, if_neg (by simp [hrun, hsw]), if_neg (Nat.not_lt.2 hclk), hq]
  obtain ⟨hdoms, hgroups, hmem⟩ := State.taskPlaced_spec h r rest
  obtain ⟨hd, hsp, -, -, hkc, hks, -⟩ := h
  have hat : (dom.dispatched d r rest).at d = { dom.at d with
      queued := rest
      counts := if r.tb.isSome then (dom.at d).counts else assocPut (dom.at d).counts r.ts ((assocGet (dom.at d).counts r.ts).getD 0 + 1) } :=
    Domain.at_upd_self ..
  rw [State.refillAll_of_none hdoms (by rw [hat]; exact hsp)] at ht
  have hdom := State.domain?_of_one hdoms
  obtain ⟨⟨e, he, hkeep⟩, hm⟩ := State.refront_spec (d := d) hdom fun x hx _ => by
    rw [hgroups] at hx
    rw [List.mem_singleton.1 hx]
    rfl
  obtain ⟨z, hz, hrec, hkey, hdraft⟩ := State.refront_group (d := d) hdom hgroups hkc hks rfl rfl rfl rfl
  obtain ⟨-, -, -, hx⟩ := hkeep
  rw [ht]
  refine ⟨e, z, he, ?_, hz, hrec, hkey, hdraft, hm.trans hmem⟩
  rw [(hx d).1, hat]
end

/-! ### What the dies tell one another -/

theorem Domain.foldl_sample (F : Nat → TaskKey) (l : List Nat) (d : Domain) :
    ∀ a ∈ l, ((l.foldl (fun y i => y.upd i fun z => { z with sample := F i }) d).at a).sample = F a := by
  induction l using List.reverseRecOn with
  | nil => exact fun a ha => absurd ha List.not_mem_nil
  | append_singleton l x ih =>
    intro a ha
    rw [List.foldl_append, List.foldl_cons, List.foldl_nil]
    by_cases hax : a = x
    · subst hax
      rw [Domain.at_upd_self]
    · rw [Domain.at_upd_ne _ _ hax]
      exact ih a ((List.mem_append.1 ha).resolve_right fun h => hax (List.mem_singleton.1 h))

theorem State.foldl_due {α : Type} {f : State → α → State} (hf : ∀ s x, State.onlyDue s (f s x)) {l : List α} {x : α} (hx : x ∈ l)
    {e : State → Nat × Event} (he : ∀ s, e s ∈ (f s x).agenda) (hc : ∀ s t, State.onlyDue s t → e t = e s) (s : State) : e s ∈
      (l.foldl f s).agenda := by
  induction l generalizing s with
  | nil => cases hx
  | cons y r ih =>
    rw [List.foldl_cons]
    rcases List.mem_cons.1 hx with rfl | hr
    · exact (State.onlyDue_spec (State.onlyDue_foldl hf r (f s x))).2.2.2 _ (he s)
    · rw [← hc s (f s y) (hf s y)]
      exact ih hr _

theorem State.frontierSample_of_other {i : Nat} (hd : s.domain? part c = some dom) (hi : dom.dom ≠ i) : s.frontierSample part c i = s := by
  unfold State.frontierSample
  simp only [hd, ne_eq, hi, not_false_eq_true, if_true]

/-- The domain once every die has its sample. -/
def State.sampled (s : State) (part c : Nat) (dom : Domain) : Domain :=
  dom.dies.foldl (fun y die => y.upd die fun z => { z with sample := s.leastKey part c die dom }) dom

theorem State.frontierSample_of_own (hd : s.domain? part c = some dom) :
    s.frontierSample part c dom.dom = (dom.dies.foldl (fun t a => (dom.dies.filter (· ≠ a)).foldl
      (fun u b => u.post (s.clk + 32) (.frontierUpdate part c dom.dom a b)) t) (s.putDomain part c (s.sampled part c dom))).post (s.clk + 32)
        (.frontierSample part c dom.dom) := by
  unfold State.frontierSample
  simp only [hd, ne_eq, not_true_eq_false, if_false, State.updDomain_of hd]
  rfl

theorem State.frontierSample_spec (hd : s.domain? part c = some dom) :
    let t := s.frontierSample part c dom.dom
    t.mem = s.mem ∧ t.groups = s.groups ∧ t.domain? part c = some (s.sampled part c dom)
      ∧ (∀ a ∈ dom.dies, ((s.sampled part c dom).at a).sample = s.leastKey part c a dom)
      ∧ (s.clk + 32, Event.frontierSample part c dom.dom) ∈ t.agenda
      ∧ ∀ a ∈ dom.dies, ∀ b ∈ dom.dies, b ≠ a → (s.clk + 32, Event.frontierUpdate part c dom.dom a b) ∈ t.agenda := by
  intro t
  let F : Nat → State → Nat → State := fun a u b => u.post (s.clk + 32) (.frontierUpdate part c dom.dom a b)
  let G : State → Nat → State := fun t a => (dom.dies.filter (· ≠ a)).foldl (F a) t
  have hF : ∀ a u b, State.onlyDue u (F a u b) := fun a u b => u.post_onlyDue _ _
  have hG : ∀ u a, State.onlyDue u (G u a) := fun u a => State.onlyDue_foldl (hF a) _ u
  have ht : t = (dom.dies.foldl G (s.putDomain part c (s.sampled part c dom))).post (s.clk + 32) (.frontierSample part c dom.dom) :=
    State.frontierSample_of_own hd
  have hdue := State.onlyDue_trans (State.onlyDue_foldl hG dom.dies (s.putDomain part c (s.sampled part c dom)))
    (State.post_onlyDue _ (s.clk + 32) (.frontierSample part c dom.dom))
  rw [← ht] at hdue
  refine ⟨(State.onlyDue_spec hdue).2.1, (State.onlyDue_spec hdue).2.2.1, ?_, Domain.foldl_sample _ _ _, ?_, fun a ha b hb hba => ?_⟩
  · obtain ⟨_, _, heq, -⟩ := hdue
    rw [heq]
    exact State.putDomain_domain? ..
  · rw [ht]
    exact mem_insertDue _ _ _
  · rw [ht]
    refine mem_insertDue_of_mem _ _ ?_
    exact State.foldl_due hG ha (e := fun _ => (s.clk + 32, Event.frontierUpdate part c dom.dom a b))
      (fun u => State.foldl_due (hF a) (List.mem_filter.2 ⟨hb, by simpa using hba⟩)
        (e := fun _ => (s.clk + 32, Event.frontierUpdate part c dom.dom a b)) (fun u => mem_insertDue _ _ _) (fun _ _ _ => rfl) u)
      (fun _ _ _ => rfl) _

theorem State.frontierUpdate_of_other {i o : Nat} (hd : s.domain? part c = some dom) (hi : dom.dom ≠ i) : s.frontierUpdate part c i d o = s := by
  unfold State.frontierUpdate
  rw [if_neg]
  simp [hd, hi]

theorem State.frontierUpdate_of_own {o : Nat} (hd : s.domain? part c = some dom) : s.frontierUpdate part c dom.dom d o
    = (s.updDomain part c fun e => e.upd d fun x => { x with others := x.others.put o (dom.at o).sample }).refront part c d := by
  unfold State.frontierUpdate
  rw [if_pos (by simp [hd]), State.updDomain_of hd, State.updDomain_of hd]

/-! ### Commits -/

/-- Domains and the clock stand. -/
def State.sameDomains (s t : State) : Prop := t.domains = s.domains ∧ t.clk = s.clk

theorem State.sameDomains_trans {s t u : State} (a : s.sameDomains t) (b : t.sameDomains u) : s.sameDomains u :=
  ⟨b.1.trans a.1, b.2.trans a.2⟩

theorem State.sameDomains_foldl {α : Type} {f : State → α → State} (hf : ∀ s x, State.sameDomains s (f s x)) (l : List α) (s : State) :
    s.sameDomains (l.foldl f s) := by
  induction l generalizing s with
  | nil => exact ⟨rfl, rfl⟩
  | cons x r ih => exact State.sameDomains_trans (hf s x) (ih _)

theorem State.sameDomains_of_onlyDue {s t : State} (h : s.onlyDue t) : s.sameDomains t := by
  obtain ⟨_, _, rfl, -⟩ := h
  exact ⟨rfl, rfl⟩

theorem State.updTeam_sameDomains (s : State) (i : Nat) (f : Team → Team) : s.sameDomains (s.updTeam i f) := by
  obtain ⟨x, hx⟩ := s.updTeam_eq i f
  rw [hx]
  exact ⟨rfl, rfl⟩

theorem State.updGroup_sameDomains (s : State) (k : GKey) (f : Group → Group) : s.sameDomains (s.updGroup k f) := by
  unfold State.updGroup
  split
  · exact ⟨rfl, rfl⟩
  · exact ⟨rfl, rfl⟩

theorem State.tryPhase_sameDomains (s : State) (b : BarKey) : s.sameDomains (s.tryPhase b) := by
  unfold State.tryPhase
  split
  · refine State.sameDomains_trans (t := s.putBarrier b _) ⟨rfl, rfl⟩ (State.sameDomains_foldl (fun t k => ?_) _ _)
    split
    · split
      · exact State.updGroup_sameDomains ..
      · exact ⟨rfl, rfl⟩
    · exact ⟨rfl, rfl⟩
  · exact ⟨rfl, rfl⟩

theorem State.leaveBarriers_sameDomains (s : State) (k : GKey) (g : Group) : s.sameDomains (s.leaveBarriers k g) := by
  unfold State.leaveBarriers
  refine State.sameDomains_trans (t := s.setBarriers _) ⟨rfl, rfl⟩ (State.sameDomains_foldl (fun t b => ?_) _ _)
  split
  · exact State.tryPhase_sameDomains ..
  · exact ⟨rfl, rfl⟩

theorem State.groupGone_sameDomains (s : State) (k : GKey) (g : Group) : s.sameDomains (s.groupGone k g) :=
  State.sameDomains_trans (t := s.putPen (penOf k) _) ⟨rfl, rfl⟩ (State.sameDomains_trans (State.updTeam_sameDomains ..) ⟨rfl, rfl⟩)

theorem State.exitGroup_sameDomains (s : State) (k : GKey) (g : Group) : s.sameDomains (s.exitGroup k g) := by
  have hleft : s.sameDomains (((s.groupGone k g).dieClears k.die).leaveBarriers k g) :=
    State.sameDomains_trans (s.groupGone_sameDomains k g)
      (State.sameDomains_trans (State.sameDomains_of_onlyDue (State.dieClears_onlyDue ..)) (State.leaveBarriers_sameDomains ..))
  have hpost : ∀ n e, s.sameDomains ((((s.groupGone k g).dieClears k.die).leaveBarriers k g).post n e) := fun n e => hleft
  unfold State.exitGroup
  dsimp only
  split
  · split
    · exact State.sameDomains_trans (hpost _ _) (State.sameDomains_of_onlyDue (State.onlyDue_trans (State.forgetWait_onlyDue ..)
        (State.onlyDue_trans (State.post_onlyDue ..) (State.post_onlyDue ..))))
    · exact State.sameDomains_trans (hpost _ _) (State.sameDomains_of_onlyDue (State.onlyDue_trans (State.forgetWait_onlyDue ..)
        (State.post_onlyDue ..)))
  · exact hpost _ _

theorem State.dropSlots_sameDomains (s : State) (i : Nat) (tm : Team) : s.sameDomains (s.dropSlots i tm) := by
  have h := State.sameDomains_foldl (f := fun (u : State) k => match u.group? k with
    | some g => u.exitGroup k g
    | none => u) (fun u k => by
      split
      · exact State.exitGroup_sameDomains ..
      · exact ⟨rfl, rfl⟩) tm.keys s
  exact h

theorem State.setNodeRun_sameDomains (s : State) (l n : Nat) (r : NodeRun) : s.sameDomains (s.setNodeRun l n r) := by
  unfold State.setNodeRun
  split
  · exact ⟨rfl, rfl⟩
  · exact ⟨rfl, rfl⟩

/-- The domain's die tables are rid of it, and what they wait for is looked at. -/
def State.diesRid (s : State) (part c : Nat) (d : Domain) : State :=
  (s.diesOf part).foldl (fun t die => ((t.updDie die fun x =>
    { x with ranges := x.ranges.filter fun r => !(r.launch == d.launch && r.node == d.node) }).unpost (.spillRefill die part c)).post t.clk
      (.clusterPlace die d.launch d.node)) s

theorem State.diesRid_spec (s : State) (part c : Nat) (d : Domain) :
    s.sameDomains (s.diesRid part c d) ∧ (s.diesRid part c d).mem = s.mem ∧ (s.diesRid part c d).teams = s.teams := by
  unfold State.diesRid
  generalize s.diesOf part = l
  induction l generalizing s with
  | nil => exact ⟨⟨rfl, rfl⟩, rfl, rfl⟩
  | cons x r ih =>
    rw [List.foldl_cons]
    obtain ⟨ha, hm, ht⟩ := ih (((s.updDie x fun y =>
      { y with ranges := y.ranges.filter fun r => !(r.launch == d.launch && r.node == d.node) }).unpost (.spillRefill x part c)).post s.clk
        (.clusterPlace x d.launch d.node))
    exact ⟨State.sameDomains_trans ⟨rfl, rfl⟩ ha, hm, ht⟩

/-- A domain that has not failed ends with its node's run. -/
theorem State.endDomain_of_good (hf : dom.failed = false) : s.endDomain part c dom =
    let u := (s.setDomains (assocDel s.domains (part, c))).diesRid part c dom
    let w := (u.teams.filter fun e => e.2.launch = dom.launch ∧ e.2.node = dom.node).foldl (fun t e => t.dropSlots e.1 e.2) u
    (w.setNodeRun dom.launch dom.node (.running 0 false)).post w.clk (.nodeFinish dom.launch dom.node) := by
  unfold State.endDomain
  simp only [hf, Bool.false_eq_true, if_false]
  rfl

theorem assocGet_assocDel_self {κ α : Type} [DecidableEq κ] (l : List (κ × α)) (k : κ) : assocGet (assocDel l k) k = none := by
  induction l with
  | nil => rfl
  | cons e r ih =>
    unfold assocDel at ih ⊢
    rw [List.filter_cons]
    split
    next h =>
      unfold assocGet
      rw [if_neg (by simpa using h)]
      exact ih
    · exact ih

theorem State.endDomain_spec (hf : dom.failed = false) : (s.endDomain part c dom).domain? part c = none
    ∧ (s.clk, Event.nodeFinish dom.launch dom.node) ∈ (s.endDomain part c dom).agenda := by
  let u := (s.setDomains (assocDel s.domains (part, c))).diesRid part c dom
  let w := (u.teams.filter fun e => e.2.launch = dom.launch ∧ e.2.node = dom.node).foldl (fun t e => t.dropSlots e.1 e.2) u
  have hsame : (s.setDomains (assocDel s.domains (part, c))).sameDomains w :=
    State.sameDomains_trans (State.diesRid_spec ..).1 (State.sameDomains_foldl (fun t (e : Nat × Team) => t.dropSlots_sameDomains e.1 e.2) _ _)
  have hend := State.sameDomains_trans hsame (State.setNodeRun_sameDomains w dom.launch dom.node (.running 0 false))
  rw [State.endDomain_of_good hf]
  constructor
  · have h : (w.setNodeRun dom.launch dom.node (.running 0 false)).domains = assocDel s.domains (part, c) := hend.1
    show assocGet (w.setNodeRun dom.launch dom.node (.running 0 false)).domains (part, c) = none
    rw [h]
    exact assocGet_assocDel_self ..
  · rw [show s.clk = w.clk from hsame.2.symm]
    exact mem_insertDue _ _ _

theorem State.endDomain_mem_of_no_team (hf : dom.failed = false) (ht : s.teams = []) : (s.endDomain part c dom).mem = s.mem := by
  obtain ⟨-, hm, hteams⟩ := (s.setDomains (assocDel s.domains (part, c))).diesRid_spec part c dom
  rw [State.endDomain_of_good hf]
  dsimp only
  rw [show ((s.setDomains (assocDel s.domains (part, c))).diesRid part c dom).teams = [] from hteams.trans ht]
  exact (State.setNodeRun_mem ..).trans hm

theorem State.drainRemains_of_none (hd : s.domain? part c = none ∨ ∃ dom, s.domain? part c = some dom ∧ (dom.at d).remains = []) :
    s.drainRemains part c d = s := by
  unfold State.drainRemains
  rcases hd with hd | ⟨dom, hd, hr⟩
  · rw [hd]
  · simp only [hd, hr, List.isEmpty_nil, if_true]

theorem State.drainPromoted_of_none (ht : s.taskGroups part c = []) (hs : (s.die d).saved = []) : s.drainPromoted part c d = s := by
  unfold State.drainPromoted
  dsimp only
  rw [ht, hs]
  rfl

theorem State.taskGroups_of_none (h : ∀ e ∈ s.groups, e.2.task = none) : s.taskGroups part c = [] := by
  refine List.filterMap_eq_nil_iff.2 fun e he => ?_
  rw [h e he]

theorem State.taskCommit_of_no_domain (ht : s.taskGroups part c = []) (hs : (s.die d).saved = []) (hd : s.domain? part c = none) :
    s.taskCommit part c d = s := by
  unfold State.taskCommit
  rw [State.drainRemains_of_none (.inl hd), State.drainPromoted_of_none ht hs]
  dsimp only
  rw [hd]

theorem Domain.foldl_untrack (ids : List Nat) (d : Domain) : ∃ l, ids.foldl Domain.untrack d = { d with tracks := l } := by
  induction ids generalizing d with
  | nil => exact ⟨d.tracks, rfl⟩
  | cons i r ih =>
    obtain ⟨l, hl⟩ := ih (d.untrack i)
    exact ⟨l, hl⟩

theorem State.sweepTracks_of (hd : s.domain? part c = some dom) :
    ∃ l, s.sweepTracks part c = s.putDomain part c { dom with tracks := l } := by
  unfold State.sweepTracks
  simp only [hd, State.updDomain_of hd]
  obtain ⟨l, hl⟩ := Domain.foldl_untrack
    ((dom.tracks.flatMap fun t => t.readers ++ t.allWriters).dedup.filter fun i => (s.taskKey? part c i).isNone) dom
  exact ⟨l, congrArg (s.putDomain part c) hl⟩

/-- How a commit ends: the domain with it, where nothing of it is left, or else its frontier found. -/
def State.commitEnd (u : State) (part c d : Nat) : State :=
  match (u.sweepTracks part c).domain? part c with
  | none => u.sweepTracks part c
  | some e => if (u.sweepTracks part c).domainEmpty part c e then (u.sweepTracks part c).endDomain part c e else
    (u.sweepTracks part c).refront part c d

theorem State.commitEnd_of {u : State} {e : Domain} (hu : u.domain? part c = some e) : ∃ l, u.commitEnd part c d
    = if (u.putDomain part c { e with tracks := l }).domainEmpty part c { e with tracks := l }
      then (u.putDomain part c { e with tracks := l }).endDomain part c { e with tracks := l }
      else (u.putDomain part c { e with tracks := l }).refront part c d := by
  obtain ⟨l, hl⟩ := State.sweepTracks_of hu
  refine ⟨l, ?_⟩
  unfold State.commitEnd
  rw [hl, State.putDomain_domain?]

/-- What a commit has written by its time, with nothing left over and nothing promoted. -/
theorem State.taskCommit_eq (ht : s.taskGroups part c = []) (hs : (s.die d).saved = []) (hd : s.domain? part c = some dom)
    (hr : (dom.at d).remains = []) : s.taskCommit part c d = State.commitEnd (match (dom.at d).committing with
      | some (id, due) =>
        if due ≤ s.clk then
          (((dom.at d).finished.filter fun (f : Finished) => f.task.record.id = id).flatMap fun (f : Finished) => s.sortGrains f.task.draft).foldl
              (State.drainGrain part c) s |>.updDomain part c fun e => (e.untrack id).upd d fun y =>
            { y with committing := none, finished := y.finished.filter fun f => f.task.record.id ≠ id }
        else s
      | none => s) part c d := by
  unfold State.taskCommit
  rw [State.drainRemains_of_none (.inr ⟨dom, hd, hr⟩), State.drainPromoted_of_none ht hs]
  dsimp only
  rw [hd]
  rfl

/-- With nothing to commit, only the domain's end is looked for. -/
theorem State.taskCommit_of_none (ht : s.taskGroups part c = []) (hs : (s.die d).saved = []) (hd : s.domain? part c = some dom)
    (hr : (dom.at d).remains = []) (hc : (dom.at d).committing = none) (he : s.domainEmpty part c dom = true) : ∃ l,
    s.taskCommit part c d = (s.putDomain part c { dom with tracks := l }).endDomain part c { dom with tracks := l } := by
  obtain ⟨l, hl⟩ := State.commitEnd_of (d := d) hd
  have hempty : (s.putDomain part c { dom with tracks := l }).domainEmpty part c { dom with tracks := l } = true := he
  rw [hempty, if_pos rfl] at hl
  refine ⟨l, ?_⟩
  rw [State.taskCommit_eq ht hs hd hr, hc]
  exact hl

/-- The bytes of a grain that a commit writes. -/
def State.grainWritten (s : State) (x : Grain) (n : Nat) : State :=
  (List.range n).foldl (fun t i => if x.mask.getLsbD i then t.writeByte (s.grainByte x.place i) (x.bytes.getD i 0#8) else t) s

theorem State.grainWritten_succ (s : State) (x : Grain) (n : Nat) : s.grainWritten x (n + 1)
    = if x.mask.getLsbD n then (s.grainWritten x n).writeByte (s.grainByte x.place n) (x.bytes.getD n 0#8) else s.grainWritten x n := by
  unfold State.grainWritten
  rw [List.range_succ, List.foldl_append, List.foldl_cons, List.foldl_nil]

theorem State.grainWritten_eq (s : State) (x : Grain) (n : Nat) : ∃ m, s.grainWritten x n = s.setMem m := by
  induction n with
  | zero => exact ⟨s.mem, rfl⟩
  | succ n ih =>
    obtain ⟨m, hm⟩ := ih
    rw [State.grainWritten_succ, hm]
    split
    · exact ⟨_, rfl⟩
    · exact ⟨m, rfl⟩

theorem State.wf_grainWritten (x : Grain) (n : Nat) (hw : Memory.wf s.mem = true) : Memory.wf (s.grainWritten x n).mem = true := by
  induction n with
  | zero => exact hw
  | succ n ih =>
    rw [State.grainWritten_succ]
    split
    · exact State.wf_writeByte _ _ ih
    · exact ih

theorem State.readByte_grainWritten {x : Grain} {hd o : Nat} (hx : x.place = .hbm hd o) (hw : Memory.wf s.mem = true) (n : Nat) :
    (∀ i < n, x.mask.getLsbD i = true → (s.grainWritten x n).readByte (.hbm hd (o + i)) = x.bytes.getD i 0#8)
      ∧ ∀ q : Place, (∀ i < n, x.mask.getLsbD i = true → (Place.hbm hd (o + i)).key ≠ q.key) → (s.grainWritten x n).readByte q = s.readByte q := by
  have hplace : ∀ i, s.grainByte x.place i = .hbm hd (o + i) := fun i => by rw [hx]; rfl
  induction n with
  | zero => exact ⟨fun i hi => absurd hi (Nat.not_lt_zero i), fun q _ => rfl⟩
  | succ n ih =>
    obtain ⟨hin, hout⟩ := ih
    rw [State.grainWritten_succ, hplace]
    split
    next hm =>
      refine ⟨fun i hi hmi => ?_, fun q hq => ?_⟩
      · by_cases hin' : i = n
        · subst hin'
          exact memGet_memPut_self _ _ (State.wf_grainWritten x i hw)
        · refine (memGet_memPut_ne _ _ (Place.key_hbm_ne (by omega))).trans (hin i (by omega) hmi)
      · refine (memGet_memPut_ne _ _ (hq n (Nat.lt_succ_self n) hm).symm).trans (hout q fun i hi hmi => hq i (by omega) hmi)
    next hm =>
      refine ⟨fun i hi hmi => hin i ?_ hmi, fun q hq => hout q fun i hi hmi => hq i (by omega) hmi⟩
      by_contra hge
      obtain rfl : i = n := by omega
      exact hm hmi

/-- A commit's grain in the one domain of the machine: its bytes, and what is known of the memory's errors. -/
theorem State.drainGrain_of_one (hd : s.domains = [((part, c), dom)]) (x : Grain) :
    ∃ p, State.drainGrain part c s x = (s.grainWritten x 64).setPoison p := by
  obtain ⟨m, hm⟩ := s.grainWritten_eq x 64
  have hdoms : (s.grainWritten x 64).domains = [((part, c), dom)] := by rw [hm]; exact hd
  unfold State.drainGrain
  dsimp only
  rw [show (List.range 64).foldl (fun t i => if x.mask.getLsbD i then t.writeByte (s.grainByte x.place i) (x.bytes.getD i 0#8) else t) s
    = s.grainWritten x 64 from rfl]
  split
  · rw [State.setPoison_domains, hdoms, List.foldl_cons, List.foldl_nil, if_pos rfl]
    exact ⟨_, rfl⟩
  · rw [hdoms, List.foldl_cons, List.foldl_nil, if_pos rfl]
    exact ⟨(s.grainWritten x 64).poison, rfl⟩

/-- A commit whose time has come writes the one grain of the one task that has finished. -/
theorem State.taskCommit_mem {id due : Nat} {f : Finished} {x : Grain} (hg : s.groups = []) (ht : s.teams = []) (hs : (s.die d).saved = [])
    (hd : s.domains = [((part, c), dom)]) (hfail : dom.failed = false) (hr : (dom.at d).remains = []) (hc : (dom.at d).committing = some (id, due))
    (hdue : due ≤ s.clk) (hfin : (dom.at d).finished = [f]) (hid : f.task.record.id = id) (hdraft : f.task.draft = [x]) :
    (s.taskCommit part c d).mem = (s.grainWritten x 64).mem := by
  have hdom := State.domain?_of_one hd
  have htask : s.taskGroups part c = [] := State.taskGroups_of_none (by rw [hg]; exact fun e he => absurd he List.not_mem_nil)
  obtain ⟨p, hp⟩ := State.drainGrain_of_one hd x
  obtain ⟨m, hm⟩ := s.grainWritten_eq x 64
  obtain ⟨w, hw⟩ : ∃ w, w = (s.grainWritten x 64).setPoison p := ⟨_, rfl⟩
  have hwm : w = (s.setMem m).setPoison p := by rw [hw, hm]
  have hwg : w.groups = [] := by rw [hwm]; exact hg
  have hwt : w.teams = [] := by rw [hwm]; exact ht
  have hwmem : w.mem = (s.grainWritten x 64).mem := by rw [hw]; exact State.setPoison_mem ..
  have hwdom : w.domain? part c = some dom := by rw [hwm]; exact hdom
  let e := (dom.untrack id).upd d fun y =>
    { y with committing := none, finished := y.finished.filter fun f => f.task.record.id ≠ id }
  have he : e.failed = false := hfail
  have hcommit : s.taskCommit part c d = (w.putDomain part c e).commitEnd part c d := by
    have hgrains : ([f].filter fun (f : Finished) => f.task.record.id = id).flatMap (fun (f : Finished) => s.sortGrains f.task.draft) = [x] := by
      simp [hid, hdraft, State.sortGrains, State.insertGrain]
    rw [State.taskCommit_eq htask hs hdom hr, hc]
    dsimp only
    rw [if_pos hdue, hfin, hgrains, List.foldl_cons, List.foldl_nil, hp, ← hw, State.updDomain_of hwdom]
  obtain ⟨l, hl⟩ := State.commitEnd_of (d := d) (State.putDomain_domain? w part c e)
  obtain ⟨v, hv⟩ : ∃ v, v = (w.putDomain part c e).putDomain part c { e with tracks := l } := ⟨_, rfl⟩
  have hvdom : v.domain? part c = some { e with tracks := l } := by rw [hv]; exact State.putDomain_domain? ..
  have hvg : v.groups = [] := by rw [hv]; exact hwg
  have hvt : v.teams = [] := by rw [hv]; exact hwt
  have hvm : v.mem = (s.grainWritten x 64).mem := by rw [hv]; exact hwmem
  rw [hcommit, hl, ← hv]
  split
  · exact (State.endDomain_mem_of_no_team he hvt).trans hvm
  · refine (State.refront_spec hvdom ?_).2.trans hvm
    rw [hvg]
    exact fun e he => absurd he List.not_mem_nil

/-! ### Records come back from the spill area -/

theorem length_insertRec (r : Rec) (q : List Rec) : (insertRec r q).length = q.length + 1 := by
  induction q with
  | nil => rfl
  | cons x rest ih =>
    unfold insertRec
    split
    · rfl
    · rw [List.length_cons, ih, List.length_cons]

theorem length_foldl_insertRec (F : Rec → Rec) (l : List Rec) (q : List Rec) :
    (l.foldl (fun q r => insertRec (F r) q) q).length = q.length + l.length := by
  induction l generalizing q with
  | nil => rfl
  | cons r rest ih =>
    rw [List.foldl_cons, ih, length_insertRec, List.length_cons]
    omega

/-- A die's records of a domain once a run of spilled ones has come back. -/
def State.refilled (s : State) (d c : Nat) (x : DomDie) : DomDie :=
  { x with
    refilling := false
    spilled := []
    places := x.places.filter fun e => !(x.spilled.any fun r => r.id == e.1)
    queued := x.spilled.foldl (fun q r => insertRec (s.spillRead d c x r) q) x.queued }

theorem State.spillRefill_spec (hd : s.domains = [((part, c), dom)]) (hr : (dom.at d).refilling = true) (hl : (dom.at d).spilled.length ≤ 64)
    (hq : (dom.at d).queued.length + (dom.at d).spilled.length ≤ Config.taskStore) :
    s.spillRefill d part c = (s.setDomains [((part, c), dom.upd d fun x => s.refilled d c x)]).post s.clk (.taskDispatch d part c) := by
  have hupd : s.updDomain part c (fun e => e.upd d fun x =>
      if !x.refilling then x
      else
        let back := x.spilled.take 64
        { x with refilling := false, spilled := x.spilled.drop 64, places := x.places.filter fun e => !(back.any fun r => r.id == e.1),
                 queued := back.foldl (fun q r => insertRec (s.spillRead d c x r) q) x.queued })
      = s.setDomains [((part, c), dom.upd d fun x => s.refilled d c x)] := by
    rw [State.updDomain_of_one hd]
    refine congrArg (fun y => s.setDomains [((part, c), y)]) ?_
    refine congrArg (fun y => { dom with onDie := dom.onDie.put d y }) ?_
    dsimp only
    rw [if_neg (by simp [hr]), List.take_of_length_le hl, List.drop_eq_nil_of_le hl]
    rfl
  have hat : (dom.upd d fun x => s.refilled d c x).at d = s.refilled d c (dom.at d) := Domain.at_upd_self ..
  have hdoms : (s.setDomains [((part, c), dom.upd d fun x => s.refilled d c x)]).domains = [((part, c), dom.upd d fun x => s.refilled d c x)] := rfl
  have hroom : (s.setDomains [((part, c), dom.upd d fun x => s.refilled d c x)]).storeUsed d ≤ Config.taskStore := by
    refine Nat.le_trans (State.storeUsed_le_of_one hdoms) ?_
    rw [hat]
    refine Nat.le_trans (Nat.le_of_eq (length_foldl_insertRec (s.spillRead d c (dom.at d)) (dom.at d).spilled (dom.at d).queued)) hq
  unfold State.spillRefill
  dsimp only
  rw [hupd, State.spillAll_of_room hroom, State.refillLook_of_none (State.domain?_of_one hdoms) (by rw [hat]; rfl)]
end

/-- Settles O54. The dispatch, the frontier and the commit are each followed for the one group and the one domain they speak of. -/
theorem taskEvents : Obligations.TaskEvents := by
  refine ⟨fun g trap segs r key clk ran hargs _ => ?_, fun s d part c hs hd => ?_,
    fun s d part c dom k g tm hs hd _ hsp hq hg hkc hks hkd ht htd htc hl hn hno htask hrun => ?_,
    fun s part c i dom hs hd => ⟨fun hi => ?_, fun hi => ?_⟩, fun s part c i d o dom hs hd => ⟨fun hi => ?_, fun hi => ?_, fun hi hg hf => ?_⟩,
    fun s part c d hs ht hsv => ⟨fun hd => ?_, fun dom hd hr hc htr he hf => ?_⟩,
    fun s part c d dom id due f x hd o hs hg ht hsv hdm hfail hr hc hdue hfin hid hdraft hx hw => ?_, fun s d part c dom hs hd _ hr hl hq => ?_⟩
  · intro h
    obtain ⟨hlow, hhigh⟩ := g.startTask_scalars trap segs r key clk ran hargs
    exact ⟨rfl, hlow, hhigh, g.startTask_regLane trap segs r key clk ran, g.startTask_exec trap segs r key clk ran,
      g.startTask_pc trap segs r key clk ran, rfl, rfl, rfl, rfl, rfl, _, rfl, rfl, rfl, rfl, rfl⟩
  · have he : exec .taskDispatch s = .next (s.taskDispatch d part c) := exec_of_subject hs
    rw [he, State.taskDispatch_of_no_domain hd]
  · have he : exec .taskDispatch s = .next (s.taskDispatch d part c) := exec_of_subject hs
    have hdis : s.dispatches d part c dom k g tm := ⟨hd, hsp, hq, hg, hkc, hks, hkd, ht, htd, htc, hl, hn, hno, htask, hrun⟩
    refine ⟨fun hoff => ?_, fun hon hsw hclk => ?_, ?_⟩
    · rw [he, State.taskDispatch_eq hdis, if_pos hoff]
    · rw [he, State.taskDispatch_eq hdis, if_neg (by simp [hon, hsw]), if_pos hclk]
    · intro r rest hon hsw hclk hqueue n tb
      obtain ⟨e, y, hdom, hrest, hgroup, hrec, hkey, hdraft, hm⟩ := State.taskDispatch_spec hdis hon hsw hclk hqueue
      exact ⟨_, e, y, _, he, hdom, hrest, hgroup, hrec, hkey, hdraft, hm⟩
  · have he : exec .frontierSample s = .next (s.frontierSample part c i) := exec_of_subject hs
    rw [he, State.frontierSample_of_other hd hi]
  · have he : exec .frontierSample s = .next (s.frontierSample part c i) := exec_of_subject hs
    subst hi
    obtain ⟨hm, hg, hdom, hsample, hnext, htell⟩ := State.frontierSample_spec hd
    exact ⟨_, _, he, hm, hg, hdom, hsample, hnext, htell⟩
  · have he : exec .frontierUpdate s = .next (s.frontierUpdate part c i d o) := exec_of_subject hs
    rw [he, State.frontierUpdate_of_other hd hi]
  · have he : exec .frontierUpdate s = .next (s.frontierUpdate part c i d o) := exec_of_subject hs
    subst hi
    rw [he, State.frontierUpdate_of_own hd]
  · have he : exec .frontierUpdate s = .next (s.frontierUpdate part c i d o) := exec_of_subject hs
    subst hi
    rw [State.frontierUpdate_of_own hd, State.updDomain_of hd] at he
    let told := dom.upd d fun x => { x with others := x.others.put o (dom.at o).sample }
    have hat : told.at d = { dom.at d with others := (dom.at d).others.put o (dom.at o).sample } := Domain.at_upd_self ..
    obtain ⟨⟨e, hdom, hkeep⟩, hm⟩ := State.refront_spec (d := d) (State.putDomain_domain? s part c told) fun x hx => by
      rw [show (s.putDomain part c told).groups = [] from hg] at hx
      exact absurd hx List.not_mem_nil
    obtain ⟨-, -, -, hothers⟩ := hkeep
    refine ⟨_, e, he, hdom, ?_, hm⟩
    rw [(hothers d).2, hat]
    exact Tbl.find_put_self ..
  · have he : exec .taskCommit s = .next (s.taskCommit part c d) := exec_of_subject hs
    rw [he, State.taskCommit_of_no_domain (State.taskGroups_of_none ht) hsv hd]
  · have he' : exec .taskCommit s = .next (s.taskCommit part c d) := exec_of_subject hs
    obtain ⟨l, hend⟩ := State.taskCommit_of_none (State.taskGroups_of_none ht) hsv hd hr hc he
    rw [hend] at he'
    exact ⟨_, he', State.endDomain_spec hf⟩
  · have he : exec .taskCommit s = .next (s.taskCommit part c d) := exec_of_subject hs
    have hm := State.taskCommit_mem hg ht hsv hdm hfail hr hc hdue hfin hid hdraft
    obtain ⟨hin, hout⟩ := State.readByte_grainWritten hx hw 64
    refine ⟨_, he, fun i hi hmask => ?_, fun q hq => ?_⟩
    · rw [State.readByte_congr hm]
      exact hin i hi hmask
    · rw [State.readByte_congr hm]
      exact hout q hq
  · have he : exec .spillRefill s = .next (s.spillRefill d part c) := exec_of_subject hs
    rw [State.spillRefill_spec hd hr hl hq] at he
    have hat : (dom.upd d fun x => s.refilled d c x).at d = s.refilled d c (dom.at d) := Domain.at_upd_self ..
    refine ⟨_, dom.upd d fun x => s.refilled d c x, he, rfl, rfl, State.domain?_of_one rfl, ?_⟩
    rw [hat]
    exact ⟨rfl, rfl, rfl⟩

end Sys2Proof.Machine
end

section
namespace Sys2Proof.Machine

/-! ## Copies, tiles, matrix operations, drains and pairs (O55) -/

theorem foldl_of_unmoved {α β : Type} {f : α → β → α} {l : List β} {s : α} (h : ∀ x ∈ l, f s x = s) : l.foldl f s = s := by
  induction l with
  | nil => rfl
  | cons x r ih =>
    rw [List.foldl_cons, h x List.mem_cons_self]
    exact ih fun y hy => h y (List.mem_cons_of_mem _ hy)

section
variable {s : State} {ck : CoreKey}

/-! ### Which copies move -/

theorem State.updCopy_copies (s : State) (ck : CoreKey) (id : Nat) (f : CopyCmd → CopyCmd) :
    (s.updCopy ck id f).copies ck = (s.copies ck).map fun x => if x.id = id then f x else x := State.putCopies_copies ..

theorem State.copyStart_of_full (h : 4 ≤ ((s.copies ck).filter (·.running)).length) : s.copyStart ck = s := if_pos h

theorem State.copyStart_of_room {x : CopyCmd} (h : ((s.copies ck).filter (·.running)).length < 4)
    (hx : ((s.copies ck).find? fun y => !y.running) = some x) :
    s.copyStart ck = ((s.updCopy ck x.id fun y => { y with running := true }).post (max (s.clk + 1) (x.issued + 64)) (.copyBeat ck x.id)).post
      s.clk (.copyStart ck) := by
  unfold State.copyStart
  simp only [if_neg (Nat.not_le.2 h), hx]
  rfl

theorem State.copyStart_spec {x : CopyCmd} (h : ((s.copies ck).filter (·.running)).length < 4)
    (hx : ((s.copies ck).find? fun y => !y.running) = some x) :
    (max (s.clk + 1) (x.issued + 64), Event.copyBeat ck x.id) ∈ (s.copyStart ck).agenda ∧ (s.copyStart ck).mem = s.mem
      ∧ ∀ y ∈ (s.copyStart ck).copies ck, y.id = x.id → y.running = true := by
  rw [State.copyStart_of_room h hx]
  refine ⟨mem_insertDue_of_mem _ _ (mem_insertDue _ _ _), rfl, fun y hy hid => ?_⟩
  have hc : y ∈ (s.updCopy ck x.id fun y => { y with running := true }).copies ck := hy
  rw [State.updCopy_copies] at hc
  obtain ⟨z, -, hz⟩ := List.mem_map.1 hc
  split at hz
  · rw [← hz]
  next hne =>
    rw [← hz] at hid
    exact absurd hid hne

/-! ### A beat -/

/-- A copy that is alone in its engine and not frozen. -/
def State.copyAlone (s : State) (ck : CoreKey) (x : CopyCmd) : Prop := s.copies ck = [x] ∧ x.running = true ∧ x.frozen = false

/-- Alone, a copy may use each of the four beats of a clk that are left. -/
theorem State.copyBeat_of_alone {x : CopyCmd} (h : s.copyAlone ck x) : s.copyBeat ck x.id
    = if 4 - s.beatsMade ck = 0 ∧ x.rows ≠ 0 then s.post (s.clk + 1) (.copyBeat ck x.id) else State.moveBeats ck (4 - s.beatsMade ck) x none s := by
  obtain ⟨hc, hr, hf⟩ := h
  have hready : (s.copies ck).filter (fun y => y.id == x.id || s.copyReady ck y) = [x] := by simp [hc]
  have hbeats : min (beatsOf s.clk 1 0) (4 - s.beatsMade ck) = 4 - s.beatsMade ck := by
    have h4 : beatsOf s.clk 1 0 = 4 := by simp [beatsOf]
    omega
  unfold State.copyBeat
  dsimp only
  rw [hready, hc]
  simp only [List.find?_cons, decide_true, hr, Bool.not_true, List.any_cons, hf, List.any_nil, Bool.or_self, Bool.false_eq_true, if_false,
    List.length_cons,
    List.length_nil, Nat.zero_add, List.findIdx?_cons, beq_self_eq_true, if_true, Option.getD_some, hbeats]
  refine if_congr ?_ rfl rfl
  simp

/-- A copy with nothing left to move ends. -/
theorem State.moveBeats_of_done {x : CopyCmd} (n : Nat) (p : Option Place) (hf : s.copyFrozen ck = false) (hr : x.rows = 0)
    (hx : x.frozen = false) :
    (∃ due, (due, Event.copyComplete ck x.id) ∈ (State.moveBeats ck n x p s).agenda) ∧ (State.moveBeats ck n x p s).mem = s.mem := by
  have hends : ∀ t : State, (∃ due, (due, Event.copyComplete ck x.id) ∈ (t.copyEnds ck x p).agenda) ∧ (t.copyEnds ck x p).mem = t.mem :=
    fun t => ⟨⟨_, mem_insertDue _ _ _⟩, rfl⟩
  cases n with
  | zero =>
    have hf1 : (s.updCopy ck x.id fun y => { x with frozen := y.frozen }).copyFrozen ck = false := by
      unfold State.copyFrozen at hf ⊢
      rw [State.updCopy_copies, List.any_map, ← hf]
      refine congrArg (fun g => (s.copies ck).any g) (funext fun y => ?_)
      dsimp only [Function.comp]
      split
      · rfl
      · rfl
    unfold State.moveBeats
    dsimp only
    rw [if_neg (by simp [hf1]), if_pos hr]
    exact hends _
  | succ n =>
    unfold State.moveBeats
    rw [if_neg (by simp [hf]), if_pos hr]
    exact hends _

theorem State.copyBeat_of_no_rows {x : CopyCmd} (h : s.copyAlone ck x) (hr : x.rows = 0) :
    (∃ due, (due, Event.copyComplete ck x.id) ∈ (s.copyBeat ck x.id).agenda) ∧ (s.copyBeat ck x.id).mem = s.mem := by
  rw [State.copyBeat_of_alone h, if_neg (by simp [hr])]
  obtain ⟨hc, -, hf⟩ := h
  exact State.moveBeats_of_done _ none (by simp [State.copyFrozen, hc, hf]) hr hf

/-! #### What a master's write leaves of the cores -/

/-- The cores and the domains stand. -/
def State.aside (s t : State) : Prop := t.cores = s.cores ∧ t.domains = s.domains

theorem State.aside_refl (s : State) : s.aside s := ⟨rfl, rfl⟩

theorem State.aside_trans {s t u : State} (a : s.aside t) (b : t.aside u) : s.aside u := ⟨b.1.trans a.1, b.2.trans a.2⟩

theorem State.aside_foldl {α : Type} {f : State → α → State} (hf : ∀ s x, State.aside s (f s x)) (l : List α) (s : State) : s.aside
    (l.foldl f s) := by
  induction l generalizing s with
  | nil => exact s.aside_refl
  | cons x r ih => exact State.aside_trans (hf s x) (ih _)

theorem State.writeBytes_aside (s : State) (p : Place) (bs : List Byte) : s.aside (s.writeBytes p bs) := by
  obtain ⟨m, hm⟩ := s.writeBytes_eq p bs
  rw [hm]
  exact ⟨rfl, rfl⟩

theorem State.post_aside (s : State) (n : Nat) (e : Event) : s.aside (s.post n e) := ⟨rfl, rfl⟩

theorem State.after_aside (s : State) (n : Nat) (e : Event) : s.aside (s.after n e) := ⟨rfl, rfl⟩

theorem State.setAgenda_aside (s : State) (a : List (Nat × Event)) : s.aside (s.setAgenda a) := ⟨rfl, rfl⟩

theorem State.updDie_aside (s : State) (d : Nat) (f : Die → Die) : s.aside (s.updDie d f) := ⟨rfl, rfl⟩

theorem State.updGroup_aside (s : State) (k : GKey) (f : Group → Group) : s.aside (s.updGroup k f) := by
  unfold State.updGroup
  split
  · exact ⟨rfl, rfl⟩
  · exact s.aside_refl

theorem State.send_aside (s : State) (o : Message) : s.aside (s.send o) := ⟨rfl, rfl⟩

theorem State.writeHyper_aside {s t : State} {d c : Nat} {r : FaultRec} (h : s.writeHyper d c r = some t) : s.aside t := by
  unfold State.writeHyper at h
  dsimp only at h
  split at h
  · cases h
  · rw [← Option.some.inj h]
    exact State.aside_trans (State.aside_trans (State.writeBytes_aside ..) (State.updDie_aside ..)) (State.send_aside ..)

theorem State.drainHyper_aside (s : State) (d : Nat) (l : List (Nat × FaultRec)) : s.aside (s.drainHyper d l) := by
  induction l generalizing s with
  | nil => exact s.updDie_aside d _
  | cons r rest ih =>
    unfold State.drainHyper
    split
    next s1 hs => exact State.aside_trans (State.writeHyper_aside hs) (ih s1)
    · exact s.updDie_aside d _

theorem State.regate_aside (s : State) (d : Nat) : s.aside (s.regate d) := by
  unfold State.regate
  dsimp only
  split
  · exact s.setAgenda_aside _
  · refine State.aside_trans (s.setAgenda_aside _) (State.aside_foldl (fun t c => State.aside_foldl (fun u e => ?_) _ t) _ _)
    split
    · exact u.aside_refl
    · exact u.post_aside _ _

theorem State.postAll_aside (s : State) (es : List Event) : s.aside (s.postAll es) :=
  State.aside_foldl (f := fun t e => t.post t.clk e) (fun t e => t.post_aside t.clk e) es s

theorem State.updCtx_aside (s : State) (d c : Nat) (f : Ctx → Ctx) : s.aside (s.updCtx d c f) := ⟨rfl, rfl⟩

theorem ctxRegWrite_aside (s : State) (d c off : Nat) (v : BitVec 64) : s.aside (ctxRegWrite s d c off v) := by
  have hset : ∀ f : Ctx → Ctx, s.aside (s.updCtx d c f) := s.updCtx_aside d c
  have hopen : ∀ f : Ctx → Ctx, s.aside (if (s.ctx d c).en then s else s.updCtx d c f) := fun f => by
    split
    · exact s.aside_refl
    · exact hset f
  unfold ctxRegWrite
  dsimp only
  split
  case h_1 => exact s.postAll_aside _
  case h_2 => exact hset _
  case h_7 => exact hset _
  case h_9 => exact s.post_aside _ _
  case h_10 => exact hset _
  case h_11 => exact s.post_aside _ _
  case h_12 =>
    split
    · exact s.post_aside _ _
    · exact s.aside_refl
  case h_13 => exact s.post_aside _ _
  case h_14 => exact hset _
  case h_15 => exact hset _
  case h_19 => exact hset _
  case h_22 =>
    split
    · exact hopen _
    · exact s.aside_refl
  all_goals exact hopen _

theorem State.postOpt_aside (s : State) (e : Option Event) : s.aside (s.postOpt e) := by
  cases e with
  | none => exact s.aside_refl
  | some e => exact s.post_aside _ _

theorem State.putWall_aside (s : State) (l : Nat) (w : Firewall) : s.aside (s.putWall l w) := ⟨rfl, rfl⟩

theorem State.setFabric_aside (s : State) (f : Fabric) : s.aside (s.setFabric f) := ⟨rfl, rfl⟩

theorem State.putPort_aside (s : State) (p : Nat) (x : Port) : s.aside (s.putPort p x) := ⟨rfl, rfl⟩

theorem State.putQueue_aside (s : State) (q : Nat) (x : Queue) : s.aside (s.putQueue q x) := ⟨rfl, rfl⟩

theorem State.putGreg_aside (s : State) (q : Nat) (x : GReg) : s.aside (s.putGreg q x) := ⟨rfl, rfl⟩

theorem State.setBoot_aside (s : State) (b : Boot) : s.aside (s.setBoot b) := ⟨rfl, rfl⟩

theorem State.aside_ite {s t u : State} {p : Prop} [Decidable p] (a : s.aside t) (b : s.aside u) : s.aside (if p then t else u) := by
  split
  · exact a
  · exact b

theorem State.regPut_aside (s : State) (fn : Nat) (by_ : Option Nat) (r : Reg) (v : BitVec 64) : s.aside (s.regPut fn by_ r v) := by
  unfold State.regPut
  cases r with
  | fwctl l => exact s.post_aside _ _
  | fwstat l => exact s.putWall_aside _ _
  | unfrz d => exact s.postOpt_aside _
  | pkctl d => exact s.postOpt_aside _
  | hfqb d => exact s.updDie_aside _ _
  | hfqci d => exact State.aside_ite s.aside_refl (State.aside_trans (s.updDie_aside _ _) (State.drainHyper_aside ..))
  | ctx d c off => exact ctxRegWrite_aside ..
  | mgate d => exact State.aside_trans (s.updDie_aside _ _) (State.regate_aside ..)
  | pdie d => exact s.setFabric_aside _
  | pcmd =>
    dsimp only
    split
    · exact s.post_aside _ _
    · exact s.post_aside _ _
    · exact s.aside_refl
  | fpctl p => exact s.post_aside _ _
  | fpwin p => exact State.aside_ite s.aside_refl (s.putPort_aside _ _)
  | fplim p => exact State.aside_ite s.aside_refl (s.putPort_aside _ _)
  | qda q => exact s.putQueue_aside _ _
  | qctl q => exact State.aside_ite (s.post_aside _ _) (State.aside_ite (s.post_aside _ _) (s.post_aside _ _))
  | qpart q => exact State.aside_ite s.aside_refl (s.putQueue_aside _ _)
  | gcmd => exact s.post_aside _ _
  | gunreg => exact s.post_aside _ _
  | gpart => exact State.aside_ite s.aside_refl (s.putGreg_aside _ _)
  | mbcmd => exact State.aside_ite s.aside_refl (State.aside_trans (s.setBoot_aside _) (State.after_aside ..))
  | mbarg i => exact s.setBoot_aside _
  | _ => exact s.aside_refl

theorem State.regWrite_aside (s : State) (fn bar off width : Nat) (v : BitVec 64) (by_ : Option Nat) :
    s.aside (s.regWrite fn bar off width v by_) := by
  refine State.aside_ite s.aside_refl (State.aside_ite (s.post_aside _ _) ?_)
  split
  · exact State.aside_ite (s.regPut_aside ..) s.aside_refl
  · exact s.aside_refl

theorem State.writeByte_aside (s : State) (p : Place) (b : Byte) : s.aside (s.writeByte p b) := ⟨rfl, rfl⟩

theorem State.setQueueByte_aside (s : State) (d o : Nat) (b : Byte) : s.aside (s.setQueueByte d o b) := by
  unfold State.setQueueByte
  split
  · exact s.updDie_aside _ _
  · exact s.writeByte_aside _ _

theorem State.storeRun_aside (s : State) (ctx : Nat) (r : Run) (bs : List Byte) : s.aside (s.storeRun ctx r bs) := by
  unfold State.storeRun
  split
  · exact s.regWrite_aside ..
  · exact s.aside_refl
  · exact State.aside_foldl (fun t e => t.setQueueByte_aside _ _ _) _ _
  · exact s.writeBytes_aside _ _

theorem State.storeRuns_aside (s : State) (ctx : Nat) (rs : List Run) (bs : List Byte) : s.aside (s.storeRuns ctx rs bs) := by
  induction rs generalizing s bs with
  | nil => exact s.aside_refl
  | cons r rest ih => exact State.aside_trans (s.storeRun_aside _ _ _) (ih _ _)

theorem State.unpoison_aside (s : State) (rs : List Run) : s.aside (s.unpoison rs) := State.aside_ite s.aside_refl ⟨rfl, rfl⟩

theorem State.storePast_aside (s : State) (ctx : Nat) (t : Task) (rs : List Run) (bs : List Byte) : s.aside (State.storePast ctx t rs bs s) := by
  induction rs generalizing s bs with
  | nil => exact s.aside_refl
  | cons r rest ih =>
    refine State.aside_trans (State.aside_ite ?_ ?_) (ih _ _)
    · exact State.aside_foldl (f := fun u (e : Place × Byte) => u.writeByte e.1 e.2) (fun u e => u.writeByte_aside _ _) _ _
    · exact State.aside_trans (s.storeRun_aside _ _ _) (State.unpoison_aside _ _)

theorem State.hitReaders_of_no_domains {s : State} (h : s.domains = []) (part ctx : Nat) (me : Option Task) (ps : List Place) :
    s.hitReaders part ctx me ps = s := by
  unfold State.hitReaders State.domain?
  rw [h]
  rfl

theorem State.updDomain_of_no_domains {s : State} (h : s.domains = []) (part ctx : Nat) (f : Domain → Domain) : s.updDomain part ctx f = s := by
  unfold State.updDomain State.domain?
  rw [h]
  rfl

theorem State.outsideHit_aside {s : State} (h : s.domains = []) (rs : List Run) : s.aside (s.outsideHit rs) := by
  refine State.aside_ite s.aside_refl ?_
  rw [h]
  exact s.aside_refl

theorem State.engineWrite_aside {s : State} (h : s.domains = []) (ctx : Nat) (rs : List Run) (bs : List Byte) : s.aside
    (s.engineWrite ctx rs bs) := by
  have h1 : s.aside ((s.storeRuns ctx rs bs).unpoison rs) := State.aside_trans (s.storeRuns_aside _ _ _) (State.unpoison_aside _ _)
  exact State.aside_trans h1 (State.outsideHit_aside (h1.2.trans h) _)

theorem State.groupWrite_aside {s : State} (h : s.domains = []) (k : GKey) (g : Group) (rs : List Run) (bs : List Byte) : s.aside
    (s.groupWrite k g rs bs) := by
  unfold State.groupWrite
  obtain ⟨part, ctx⟩ := s.partCtx k g
  dsimp only
  split
  · exact State.engineWrite_aside h ..
  next t _ =>
    refine State.aside_ite (State.engineWrite_aside h ..) (State.aside_ite ?_ ?_)
    · have h1 := s.updGroup_aside k fun g => { g with task := g.task.map fun x => s.draftRuns x rs bs }
      have hd := h1.2.trans h
      rw [State.updDomain_of_no_domains hd, State.hitReaders_of_no_domains hd]
      exact h1
    · have h1 : s.aside (if t.draft.isEmpty then (s.storeRuns ctx rs bs).unpoison rs
          else (State.storePast ctx t rs bs s).updGroup k fun h => { h with task := h.task.map fun x => s.joinDraft x rs bs }) :=
        State.aside_ite (State.aside_trans (s.storeRuns_aside _ _ _) (State.unpoison_aside _ _))
          (State.aside_trans (s.storePast_aside _ _ _ _) (State.updGroup_aside ..))
      generalize (if t.draft.isEmpty then (s.storeRuns ctx rs bs).unpoison rs
          else (State.storePast ctx t rs bs s).updGroup k fun h => { h with task := h.task.map fun x => s.joinDraft x rs bs }) = u at h1 ⊢
      have hd := h1.2.trans h
      rw [State.updDomain_of_no_domains hd, State.hitReaders_of_no_domains hd, hd]
      exact h1

theorem State.masterWrite_aside {s : State} (h : s.domains = []) (k : GKey) (team ctx : Nat) (rs : List Run) (bs : List Byte) :
    s.aside (s.masterWrite k team ctx rs bs) := by
  unfold State.masterWrite
  split
  · exact State.aside_ite (State.groupWrite_aside h ..) (State.engineWrite_aside h ..)
  · exact State.engineWrite_aside h ..

/-! #### The one beat -/

theorem State.hopsTo_self (s : State) (d : Nat) (c : FlitClass) : s.hopsTo d d c = [] := by
  have h : route d d = [] := by simp [route, routeFrom]
  simp [State.hopsTo, State.linksTo, h, hopsFrom]

theorem State.outHops_of_here {s : State} {d : Nat} {p : Place} (c : FlitClass) (h : p.onDie d = d) (hf : p.isFar = false) : s.outHops d p c =
    [] := by
  unfold State.outHops
  rw [h, State.hopsTo_self]
  cases p with
  | far q o => cases hf
  | _ => rfl

theorem State.inHops_of_here {s : State} {d : Nat} {p : Place} (c : FlitClass) (h : p.onDie d = d) (hf : p.isFar = false) : s.inHops p d c =
    [] := by
  unfold State.inHops
  rw [h, State.hopsTo_self]
  cases p with
  | far q o => cases hf
  | _ => rfl

theorem State.reachSeg_onlyTlb (s : State) (w : Who) (t : Option Team) (r : SegReg) (need : Need) (o len : Nat) :
    s.onlyTlb (s.reachSeg w t r need o len).2 := by
  unfold State.reachSeg
  split
  · split
    · split
      · exact s.onlyTlb_refl
      · exact s.onlyTlb_refl
    · exact s.onlyTlb_refl
  · have h := s.translateRange_onlyTlb w need (len / 65536 + 2) (r.base.toNat + o) len
    split
    next hr => rwa [hr] at h
    next hr => rwa [hr] at h

theorem State.copyReach_onlyTlb (s : State) (ck : CoreKey) (x : CopyCmd) (w : Bool) (o n : Nat) : s.onlyTlb (s.copyReach ck x w o n).2 := by
  unfold State.copyReach
  have h := s.reachSeg_onlyTlb (s.copyWho ck x) (s.team? x.team) (if w then x.dst else x.src) (if w then .write else .read) o n
  dsimp only
  split
  next hr => rwa [hr] at h
  next hr => rwa [hr] at h
  next hr => rwa [hr] at h

/-- All of one beat's pieces are written at once where no link lies between. -/
theorem State.sendPieces_of_here {x : CopyCmd} {src : Option Place} {r : Run} (bs : List Byte)
    (hsrc : ∀ p ∈ src, p.onDie ck.die = ck.die ∧ p.isFar = false) (hr : r.place.onDie ck.die = ck.die) (hf : r.place.isFar = false) :
    s.sendPieces ck x src [r] bs = s.masterWrite x.g x.team x.ctx [r] (bs.take r.len) := by
  have hhere := State.outHops_of_here (s := s) .req hr hf
  have hhop : ∀ hs : List Hop, hs = [] → s.writeHop x.id x.g x.team x.ctx ck [r] (bs.take r.len) (hs ++ s.outHops ck.die r.place .req)
      = s.masterWrite x.g x.team x.ctx [r] (bs.take r.len) := fun hs h => by
    rw [h, hhere]
    rfl
  unfold State.sendPieces
  cases src with
  | none => exact hhop [] rfl
  | some p =>
    obtain ⟨hp, hq⟩ := hsrc p rfl
    have hto : s.outHops ck.die p .req ++ s.inHops p ck.die .rsp = [] := by
      rw [State.outHops_of_here .req hp hq, State.inHops_of_here .rsp hp hq, List.append_nil]
    exact hhop _ hto

/-- A copy's last beat: what it reads is what it writes. -/
theorem State.moveBeat_of_last {x : CopyCmd} {rs : List Run} {r : Run} {u v : State} (hr : x.rows = 1) (ha : x.ahead = [])
    (hb : x.bytes = x.moved + 64)
    (hf : s.copyFlies x.id = false) (hrd : s.copyReach ck x false (x.from_ + x.moved) 64 = (.ok rs, u))
      (hp : (rs.all fun r => r.place.plain) = true)
    (he : u.refreshEnd rs = none) (hw : u.copyReach ck x true (x.into + x.moved) 64 = (.ok [r], v))
    (hsrc : ∀ q ∈ rs.head?, q.place.onDie ck.die = ck.die ∧ q.place.isFar = false) (hd : r.place.onDie ck.die = ck.die)
      (hfar : r.place.isFar = false)
    (hl : r.len = 64) : ∃ y : CopyCmd, y.id = x.id ∧ y.rows = 0 ∧ y.frozen = x.frozen
      ∧ s.moveBeat ck x = .more y (some r.place) (v.masterWrite x.g x.team x.ctx [r] ((v.readRuns rs).take 64)) := by
  have hn : x.bytes - x.moved = 64 := by omega
  have hsrc' : ∀ p ∈ rs.head?.map (·.place), p.onDie ck.die = ck.die ∧ p.isFar = false := by
    intro p hp
    obtain ⟨q, hq, rfl⟩ := Option.map_eq_some_iff.1 hp
    exact hsrc q hq
  have hsend := State.sendPieces_of_here (s := v) (x := x) (v.readRuns rs) hsrc' hd hfar
  rw [hl] at hsend
  refine ⟨{ x with
    stalled := none
    from_ := x.from_ + x.fromPitch
    into := x.into + x.intoPitch
    moved := 0
    rows := x.rows - 1
    ahead := [] }, rfl, by simp [hr], rfl, ?_⟩
  unfold State.moveBeat
  simp only [hr, hn, hf, ha, hrd, hw, he, hsend, State.copyAhead, State.loadRuns_of_plain v hp, Nat.one_ne_zero, if_false, Bool.false_eq_true,
    and_false,
    Nat.min_self, List.isEmpty_nil, if_true, Nat.sub_self, List.head?_cons, Option.map_some]

theorem State.copyBeat_of_last {x : CopyCmd} {rs : List Run} {r : Run} {u v : State} (h : s.copyAlone ck x) (hr : x.rows = 1) (ha : x.ahead = [])
    (hb : x.bytes = x.moved + 64) (hm : s.beatsMade ck < 4) (hdom : s.domains = [])
    (hf : s.copyFlies x.id = false) (hrd : s.copyReach ck x false (x.from_ + x.moved) 64 = (.ok rs, u))
      (hp : (rs.all fun r => r.place.plain) = true)
    (he : u.refreshEnd rs = none) (hw : u.copyReach ck x true (x.into + x.moved) 64 = (.ok [r], v))
    (hsrc : ∀ q ∈ rs.head?, q.place.onDie ck.die = ck.die ∧ q.place.isFar = false) (hd : r.place.onDie ck.die = ck.die)
      (hfar : r.place.isFar = false)
    (hl : r.len = 64) : (s.copyBeat ck x.id).mem = (v.masterWrite x.g x.team x.ctx [r] ((v.readRuns rs).take 64)).mem
      ∧ ∃ due, (due, Event.copyComplete ck x.id) ∈ (s.copyBeat ck x.id).agenda := by
  obtain ⟨y, hid, hy, hfr, hmove⟩ := State.moveBeat_of_last hr ha hb hf hrd hp he hw hsrc hd hfar hl
  obtain ⟨n, hn⟩ : ∃ n, 4 - s.beatsMade ck = n + 1 := ⟨3 - s.beatsMade ck, by omega⟩
  rw [State.copyBeat_of_alone h, hn, if_neg (by simp)]
  obtain ⟨hc, -, hxf⟩ := h
  have hv : s.onlyTlb v := by
    have h1 := s.copyReach_onlyTlb ck x false (x.from_ + x.moved) 64
    have h2 := u.copyReach_onlyTlb ck x true (x.into + x.moved) 64
    rw [hrd] at h1
    rw [hw] at h2
    exact State.onlyTlb_trans h1 h2
  have hvd : v.domains = [] ∧ v.cores = s.cores := by
    obtain ⟨_, _, _, rfl, -⟩ := hv
    exact ⟨hdom, rfl⟩
  have hw := State.masterWrite_aside hvd.1 x.g x.team x.ctx [r] ((v.readRuns rs).take 64)
  unfold State.moveBeats
  rw [if_neg (by simp [State.copyFrozen, hc, hxf]), if_neg (by simp [hr]), hmove]
  generalize v.masterWrite x.g x.team x.ctx [r] ((v.readRuns rs).take 64) = w at hw ⊢
  have hcopies : (w.countBeat ck).copies ck = [x] := by
    refine Eq.trans (congrArg Core.copy (State.updCore_core_self w ck.die ck.core _)) ?_
    exact Eq.trans (show _ = s.copies ck by simp only [State.copies, State.core, hw.1, hvd.2]) hc
  have hdone := State.moveBeats_of_done (s := w.countBeat ck) (ck := ck) (x := { y with movedAt := s.clk }) n (some r.place)
    (by simp [State.copyFrozen, hcopies, hxf]) hy (hfr.trans hxf)
  obtain ⟨⟨due, hdue⟩, hmem⟩ := hdone
  rw [← hid]
  exact ⟨hmem, due, hdue⟩

/-! ### A copy that is complete -/

theorem State.copyComplete_of_flying {x : CopyCmd} (hc : s.copies ck = [x]) (hf : s.copyFlies x.id = true) :
    s.copyComplete ck x.id = s.post (s.clk + 1) (.copyComplete ck x.id) := by
  unfold State.copyComplete
  simp [hc, hf]

theorem State.ceFall_aside (s : State) (x : CopyCmd) : s.aside (s.ceFall x) := s.updGroup_aside _ _

theorem State.fdFall_aside (s : State) (x : Feeder) (n : Nat) : s.aside (s.fdFall x n) := s.updGroup_aside _ _

theorem State.ceFall_group? {x : CopyCmd} {g : Group} (hg : s.group? x.g = some g) (ht : g.team = x.team) :
    (s.ceFall x).group? x.g = some { g with ceq := popDone (g.ceq.map fun e => if e.1 = x.id then (e.1, true) else e) } := by
  unfold State.ceFall
  rw [State.updGroup_group?_self _ hg, if_pos ht]

theorem State.copyComplete_spec {x : CopyCmd} {g : Group} (hc : s.copies ck = [x]) (hf : s.copyFlies x.id = false) (hn : x.node = none)
    (hb : x.bar = none)
    (hg : s.group? x.g = some g) (ht : g.team = x.team) :
    (s.copyComplete ck x.id).copies ck = [] ∧ (s.copyComplete ck x.id).mem = s.mem
      ∧ (s.copyComplete ck x.id).group? x.g = some { g with ceq := popDone (g.ceq.map fun e => if e.1 = x.id then (e.1, true) else e) } := by
  have he : s.copyComplete ck x.id = s.copyGone ck x := by
    unfold State.copyComplete
    simp [hc, hf, hn, hb]
  obtain ⟨u, hu⟩ : ∃ u : State, u = ((s.putCopies ck ((s.copies ck).filter fun y => y.id ≠ x.id)).unpost (.copyBeat ck x.id)).unpost
      (.faultRetry (.copy ck x.id)) := ⟨_, rfl⟩
  have hgone : s.copyGone ck x = (u.ceFall x).post s.clk (.copyStart ck) := by rw [hu]; rfl
  have hcopies : u.copies ck = [] := by
    have h1 : u.copies ck = (s.putCopies ck ((s.copies ck).filter fun y => y.id ≠ x.id)).copies ck := by rw [hu]; rfl
    rw [h1, State.putCopies_copies, hc]
    simp
  have hkept : (u.ceFall x).copies ck = u.copies ck := by
    unfold State.copies State.core
    rw [(u.ceFall_aside x).1]
  rw [he, hgone]
  refine ⟨hkept.trans hcopies, (State.ceFall_mem u x).trans (by rw [hu]; rfl), State.ceFall_group? (by rw [hu]; exact hg) ht⟩

/-! ### Tiles that land -/

/-- A slot's state and bytes. -/
def State.slotData (d c n : Nat) (s : State) : SlotState × Tbl Byte := ((s.tile d c n).state, (s.tile d c n).bytes)

/-- At the end of a ring its slots keep what state and bytes they have. -/
theorem State.ringEnds_tile (s : State) (d : Nat) (x : Feeder) (c n : Nat) :
    ((s.ringEnds d x).tile d c n).state = (s.tile d c n).state ∧ ((s.ringEnds d x).tile d c n).bytes = (s.tile d c n).bytes := by
  have hput : ∀ (u : State) (c' m : Nat) (y : Tile), y.state = (u.tile d c' m).state → y.bytes = (u.tile d c' m).bytes → State.slotData d c n
    (u.putTile d c' m y) = State.slotData d c n u := by
    intro u c' m y hs hb
    obtain ⟨h1, h2⟩ | h1 := State.putTile_tile_cases u d c' m y d c n
    · simp only [State.slotData, h1, h2, hs, hb]
    · simp only [State.slotData, h1]
  refine Prod.mk.inj (foldl_keeps (State.slotData d c n) (fun t c' => foldl_keeps (State.slotData d c n) (fun u m => ?_) _ _) _ _)
  dsimp only
  split
  · rfl
  · split
    · exact hput u c' m _ rfl rfl
    · exact hput u c' m _ rfl rfl

theorem State.ringEnds_onlyCores (s : State) (d : Nat) (x : Feeder) : s.onlyCores (s.ringEnds d x) := by
  refine State.foldl_onlyCores (fun t c => State.foldl_onlyCores (fun u n => ?_) _ _) _ _
  dsimp only
  split
  · exact u.onlyCores_refl
  · split
    · exact u.putTile_onlyCores _ _ _ _
    · exact u.putTile_onlyCores _ _ _ _

theorem State.fdFall_group? {x : Feeder} {g : Group} (n : Nat) (hg : s.group? x.g = some g) (ht : g.team = x.team) :
    (s.fdFall x n).group? x.g = some { g with fd := g.fd - n } := by
  unfold State.fdFall
  rw [State.updGroup_group?_self _ hg, if_pos ht]

theorem State.fdFall_tile (s : State) (x : Feeder) (n d c m : Nat) : (s.fdFall x n).tile d c m = s.tile d c m := by
  unfold State.tile State.core
  rw [(s.fdFall_aside x n).1]

/-- The last tile of a walk, on one core. -/
theorem State.feederTileLand_of_last {d f : Nat} {x : Feeder} (hx : (s.die d).feeders.find f = some x) (hfill : x.filling = true)
    (hst : x.stopped = false)
    (hn : x.nt = x.next + 1) (hc : x.cores = [x.g.core]) (hb : x.bar = none) (hfr : (s.tile d x.g.core x.slot).freeing = false) :
    s.feederTileLand d f = ((((s.putTile d x.g.core x.slot { s.tile d x.g.core x.slot with state := .full }).fdFall x 1).ringEnds d
      { x with next := x.next + 1, filling := false, lastLand := s.clk }).dropFeeder d f) := by
  unfold State.feederTileLand
  simp only [hx, hfill, hst, hc, hb, hfr, Bool.not_true, Bool.false_eq_true, if_false, List.foldl_cons, List.foldl_nil]
  rw [if_pos (Nat.le_of_eq hn)]

theorem State.feederTileLand_spec {d f : Nat} {x : Feeder} (hx : (s.die d).feeders.find f = some x) (hfill : x.filling = true)
    (hst : x.stopped = false)
    (hn : x.nt = x.next + 1) (hc : x.cores = [x.g.core]) (hb : x.bar = none) (hfr : (s.tile d x.g.core x.slot).freeing = false) :
    ((s.feederTileLand d f).tile d x.g.core x.slot).state = .full
      ∧ ((s.feederTileLand d f).tile d x.g.core x.slot).bytes = (s.tile d x.g.core x.slot).bytes ∧ (s.feederTileLand d f).mem = s.mem
      ∧ ∀ g, s.group? x.g = some g → g.team = x.team → (s.feederTileLand d f).group? x.g = some { g with fd := g.fd - 1 } := by
  rw [State.feederTileLand_of_last hx hfill hst hn hc hb hfr]
  obtain ⟨u, hu⟩ : ∃ u : State, u = s.putTile d x.g.core x.slot { s.tile d x.g.core x.slot with state := .full } := ⟨_, rfl⟩
  obtain ⟨z, hz⟩ : ∃ z : Feeder, z = { x with next := x.next + 1, filling := false, lastLand := s.clk } := ⟨_, rfl⟩
  rw [← hu, ← hz]
  have htile : (u.fdFall x 1).tile d x.g.core x.slot = { s.tile d x.g.core x.slot with state := .full } := by
    rw [State.fdFall_tile, hu, State.putTile_tile_self]
  obtain ⟨hstate, hbytes⟩ := State.ringEnds_tile (u.fdFall x 1) d z x.g.core x.slot
  obtain ⟨cs, hcs⟩ := State.ringEnds_onlyCores (u.fdFall x 1) d z
  rw [htile] at hstate hbytes
  refine ⟨hstate, hbytes, ?_, fun g hg ht => ?_⟩
  · rw [hcs]
    exact (State.updGroup_mem u x.g _).trans (by rw [hu]; rfl)
  · rw [hcs]
    exact State.fdFall_group? 1 (by rw [hu]; exact hg) ht

theorem State.tileLoadLand_of_filling {c : CoreKey} {n : Nat} (hs : (s.tile c.die c.core n).state = .filling)
    (hf : (s.tile c.die c.core n).freeing = false) :
    (s.tileFlies c n = false → s.tileLoadLand c n = s.putTile c.die c.core n { s.tile c.die c.core n with state := .full })
      ∧ (s.tileFlies c n = true → s.tileLoadLand c n = s) := by
  constructor
  · intro hfl
    unfold State.tileLoadLand
    simp [hs, hf, hfl]
  · intro hfl
    unfold State.tileLoadLand
    simp [hfl]

/-! ### Matrix operations -/

theorem State.matrixLook_onlyDue (s : State) (d : Nat) : s.onlyDue (s.matrixLook d) := by
  refine State.onlyDue_trans (State.onlyDue_foldl (fun t e => ?_) s.groups s) (State.onlyDue_foldl (fun t e => ?_) _ _)
  · dsimp only
    split
    · exact t.onlyDue_refl
    · split
      · exact t.post_onlyDue _ _
      · exact t.post_onlyDue _ _
      · exact t.onlyDue_refl
  · split
    · exact t.post_onlyDue _ _
    · exact t.onlyDue_refl

theorem State.onlyDue_arr {s t : State} (h : s.onlyDue t) (d c : Nat) : t.arr d c = s.arr d c := by
  obtain ⟨_, _, rfl, -⟩ := h
  rfl

theorem State.onlyDue_group? {s t : State} (h : s.onlyDue t) (k : GKey) : t.group? k = s.group? k := by
  obtain ⟨_, _, rfl, -⟩ := h
  rfl

theorem State.aside_arr {s t : State} (h : s.aside t) (d c : Nat) : t.arr d c = s.arr d c := by
  unfold State.arr State.core
  rw [h.1]

theorem State.meFall_aside (s : State) (k : GKey) (team : Nat) : s.aside (s.meFall k team) := s.updGroup_aside _ _

theorem State.meFall_dies (s : State) (k : GKey) (team : Nat) : (s.meFall k team).dies = s.dies := by
  unfold State.meFall State.updGroup
  split
  · rfl
  · rfl

theorem State.meFall_group? {k : GKey} {g : Group} (hg : s.group? k = some g) :
    (s.meFall k g.team).group? k = some { g with me := g.me - 1 } := by
  unfold State.meFall
  rw [State.updGroup_group?_self _ hg, if_pos rfl]

/-- What is left to do when an operation or a drain is over: ME falls, and what waits for the array looks again. -/
theorem State.meFall_matrixLook {k : GKey} {g : Group} {team d : Nat} (hg : s.group? k = some g) (ht : g.team = team) :
    ((s.meFall k team).matrixLook d).group? k = some { g with me := g.me - 1 } ∧ ((s.meFall k team).matrixLook d).mem = s.mem
      ∧ ∀ d' c, ((s.meFall k team).matrixLook d).arr d' c = s.arr d' c := by
  subst ht
  have hl := (s.meFall k g.team).matrixLook_onlyDue d
  exact ⟨(State.onlyDue_group? hl k).trans (State.meFall_group? hg), (State.onlyDue_spec hl).2.1.trans (State.meFall_mem ..),
    fun d' c => (State.onlyDue_arr hl d' c).trans (State.aside_arr (s.meFall_aside k g.team) d' c)⟩

/-- Work on an array's books that leaves its sums. -/
def State.keepsSums (d c : Nat) (s t : State) : Prop := t.mem = s.mem ∧ (t.arr d c).acc = (s.arr d c).acc

theorem State.keepsSums_trans {d c : Nat} {s t u : State} (a : State.keepsSums d c s t) (b : State.keepsSums d c t u) : State.keepsSums d c s u :=
  ⟨b.1.trans a.1, b.2.trans a.2⟩

theorem State.updArr_keepsSums (s : State) (d c : Nat) {f : Arr → Arr} (hf : ∀ a, (f a).acc = a.acc) : State.keepsSums d c s (s.updArr d c f) :=
  ⟨State.updArr_mem .., by rw [State.updArr_arr_self, hf]⟩

theorem State.onlyDue_keepsSums {s t : State} (d c : Nat) (h : s.onlyDue t) : State.keepsSums d c s t :=
  ⟨(State.onlyDue_spec h).2.1, congrArg Arr.acc (State.onlyDue_arr h d c)⟩

theorem State.opCores_of_single {d c : Nat} (hp : (s.arr d c).pair = none) (p : Bool) : s.opCores d c p = [c] := by
  unfold State.opCores
  rw [hp]

/-- The array's books with an operation that begins at `ready`: its sub-arrays are in use until 64 clk later. -/
def State.opBooked (s : State) (ck : CoreKey) (o : MatOp) (ready : Nat) : State :=
  let s1 := s.updOp ck.die [ck.core] o.id fun p => { p with start := some ready }
  let u := s1.updArr ck.die ck.core fun x => { x with
    busyUntil := ready + 64
    lastUse := (List.range subArrays).map fun q => (q, ready + 64)
    gated := (List.range subArrays).map fun q => (q, false) }
  if 64 * (s.die ck.die).mgate.toNat = 0 then u
  else (List.range subArrays).foldl (fun v q =>
    if (s1.arr ck.die ck.core).gated.get true q then v.post (ready + 64 + 64 * (s.die ck.die).mgate.toNat)
      (.subarrayGate ⟨ck.die, ck.core⟩ q) else v) u

theorem State.matrixOpStart_eq {o : MatOp} (hq : ((s.arr ck.die ck.core).queue.find? fun p => p.start.isNone) = some o)
    (hf : (s.arr ck.die ck.core).frozen = false) (hp : (s.arr ck.die ck.core).pair = none) :
    ∃ ready, s.clk + 12 ≤ ready
      ∧ s.matrixOpStart ck o.id = ((s.opBooked ck o ready).post (ready + 64 + 4) (.matrixOpRetire ck o.id)).armMatrix ck.die ck.core := by
  unfold State.matrixOpStart
  simp only [hq, hf, State.opCores_of_single hp, ne_eq, not_true_eq_false, decide_false, Bool.or_self, Bool.false_eq_true, if_false,
    List.foldl_cons, List.foldl_nil]
  exact ⟨_, Nat.le_trans (Nat.add_le_add_right (Nat.le_add_right ..) 12) (Nat.le_max_left ..), rfl⟩

theorem State.opBooked_keepsSums (s : State) (ck : CoreKey) (o : MatOp) (ready : Nat) :
    State.keepsSums ck.die ck.core s (s.opBooked ck o ready) := by
  have h1 : State.keepsSums ck.die ck.core s (s.updOp ck.die [ck.core] o.id fun p => { p with start := some ready }) :=
    State.updArr_keepsSums s ck.die ck.core
      (f := fun a => { a with queue := a.queue.map fun p => if p.id = o.id then { p with start := some ready } else p }) fun _ => rfl
  unfold State.opBooked
  dsimp only
  refine State.keepsSums_trans h1 ?_
  generalize (s.updOp ck.die [ck.core] o.id fun p => { p with start := some ready }) = t
  split
  · exact State.updArr_keepsSums _ _ _ fun _ => rfl
  · refine State.keepsSums_trans ?_ (State.onlyDue_keepsSums _ _ (State.onlyDue_foldl (fun v q => ?_) _ _))
    · exact State.updArr_keepsSums _ _ _ fun _ => rfl
    split
    · exact v.post_onlyDue _ _
    · exact v.onlyDue_refl

theorem State.mem_armMatrix (s : State) (d c : Nat) {due : Nat} {e : Event} (h : (due, e) ∈ s.agenda) (hne : ∀ k id, e ≠ .matrixOpStart k id) :
    (due, e) ∈ (s.armMatrix d c).agenda := by
  unfold State.armMatrix
  split
  · exact h
  · exact mem_insertDue_of_mem _ _ (List.mem_filter.2 ⟨h, decide_eq_true (hne _ _)⟩)

theorem State.matrixOpStart_spec {o : MatOp} (hq : ((s.arr ck.die ck.core).queue.find? fun p => p.start.isNone) = some o)
    (hf : (s.arr ck.die ck.core).frozen = false) (hp : (s.arr ck.die ck.core).pair = none) :
    ∃ due, (due, Event.matrixOpRetire ck o.id) ∈ (s.matrixOpStart ck o.id).agenda ∧ s.clk + 80 ≤ due
      ∧ State.keepsSums ck.die ck.core s (s.matrixOpStart ck o.id) := by
  obtain ⟨ready, hready, he⟩ := State.matrixOpStart_eq hq hf hp
  rw [he]
  refine ⟨ready + 64 + 4, State.mem_armMatrix _ _ _ (mem_insertDue _ _ _) (fun _ _ h => Event.noConfusion h), by omega, ?_⟩
  refine State.keepsSums_trans (s.opBooked_keepsSums ck o ready)
    (State.keepsSums_trans (State.onlyDue_keepsSums _ _ (State.post_onlyDue _ (ready + 64 + 4) (.matrixOpRetire ck o.id))) ?_)
  exact ⟨State.armMatrix_mem .., congrArg Arr.acc (State.armMatrix_arr ..)⟩

/-- An operation's effect is on the sums alone. -/
theorem State.matEffect_leaves (s : State) (d c rows : Nat) (o : MatOp) :
    ((s.matEffect d c rows o).arr d c).queue = (s.arr d c).queue ∧ (s.matEffect d c rows o).groups = s.groups ∧
      (s.matEffect d c rows o).dies = s.dies := by
  unfold State.matEffect
  split
  · exact ⟨rfl, rfl, rfl⟩
  · refine ⟨?_, rfl, rfl⟩
    dsimp only
    rw [State.updArr_arr_self]

theorem State.matrixOpRetire_spec {o : MatOp} {g : Group} (hq : (s.arr ck.die ck.core).queue = [o]) (hp : (s.arr ck.die ck.core).pair = none)
    (hr : o.reads = []) (hb : o.bar = none) (hg : s.group? o.g = some g) (ht : g.team = o.team) (hf : (s.die ck.die).feeders = []) :
    ((s.matrixOpRetire ck o.id).arr ck.die ck.core).queue = [] ∧ (s.matrixOpRetire ck o.id).mem = s.mem
      ∧ (s.matrixOpRetire ck o.id).group? o.g = some { g with me := g.me - 1 }
      ∧ ((s.matrixOpRetire ck o.id).arr ck.die ck.core).acc = ((s.matEffect ck.die ck.core (o.rowsOn false) o).arr ck.die ck.core).acc := by
  obtain ⟨hqueue, hgroups, hdies⟩ := State.matEffect_leaves s ck.die ck.core (o.rowsOn false) o
  have hmem := State.matEffect_mem s ck.die ck.core (o.rowsOn false) o
  obtain ⟨u, hu⟩ : ∃ u : State, u = (s.matEffect ck.die ck.core (o.rowsOn false) o).updArr ck.die ck.core fun a =>
      { a with queue := a.queue.filter fun p => p.id ≠ o.id } := ⟨_, rfl⟩
  have harr : (u.arr ck.die ck.core).queue = [] ∧ (u.arr ck.die ck.core).acc =
    ((s.matEffect ck.die ck.core (o.rowsOn false) o).arr ck.die ck.core).acc := by
    rw [hu, State.updArr_arr_self]
    refine ⟨?_, rfl⟩
    rw [hqueue, hq]
    simp
  have hug : u.group? o.g = some g := by
    rw [hu]
    unfold State.group? at hg ⊢
    exact (congrArg (fun l => Tbl.find l (keyNum o.g)) hgroups).trans hg
  have hpoke : (u.meFall o.g o.team).feederPoke ck.die = u.meFall o.g o.team := by
    have hdu : u.dies = s.dies := by
      rw [hu]
      exact hdies
    have hd : ((u.meFall o.g o.team).die ck.die).feeders = [] := by
      unfold State.die at hf ⊢
      rw [State.meFall_dies, hdu, hf]
    unfold State.feederPoke
    rw [hd]
    rfl
  have he : s.matrixOpRetire ck o.id = (u.meFall o.g o.team).matrixLook ck.die := by
    rw [← hpoke, hu]
    unfold State.matrixOpRetire
    simp only [hq, State.opCores_of_single hp, hr, hb, List.find?_cons, decide_true, ne_eq, not_true_eq_false, decide_false, List.foldl_cons,
      List.foldl_nil]
  obtain ⟨h1, h2, h3⟩ := State.meFall_matrixLook (d := ck.die) hug ht
  rw [he, h3]
  refine ⟨harr.1, h2.trans ?_, h1, harr.2⟩
  rw [hu]
  exact hmem

theorem State.subarrayGate_spec (s : State) (ck : CoreKey) (q : Nat) :
    let a := s.arr ck.die ck.core
    let due := a.lastUse.get 0 q + 64 * (s.die ck.die).mgate.toNat
    (((s.die ck.die).mgate = 0#16 ∨ a.gated.get true q = true) → s.subarrayGate ck q = s)
    ∧ ((s.die ck.die).mgate ≠ 0#16 → a.gated.get true q = false → s.clk < due → s.subarrayGate ck q = s.post due (.subarrayGate ck q))
    ∧ ((s.die ck.die).mgate ≠ 0#16 → a.gated.get true q = false → due ≤ s.clk →
      ((s.subarrayGate ck q).arr ck.die ck.core).gated.get false q = true ∧ (s.subarrayGate ck q).mem = s.mem) := by
  intro a due
  have hidle : (s.die ck.die).mgate ≠ 0#16 → a.gated.get true q = false →
      (64 * (s.die ck.die).mgate.toNat = 0 || a.gated.get true q) = false := fun hm hg => by
    have h0 : (s.die ck.die).mgate.toNat ≠ 0 := fun h => hm (BitVec.eq_of_toNat_eq h)
    simp [hg, h0]
  refine ⟨fun h => ?_, fun hm hg hd => ?_, fun hm hg hd => ?_⟩
  · refine if_pos ?_
    obtain h | h := h
    · simp [h]
    · exact Bool.or_eq_true_iff.2 (.inr h)
  · unfold State.subarrayGate
    dsimp only
    rw [if_neg (by rw [hidle hm hg]; exact Bool.false_ne_true), if_neg (Nat.not_le.2 hd)]
  · unfold State.subarrayGate
    dsimp only
    rw [if_neg (by rw [hidle hm hg]; exact Bool.false_ne_true), if_pos hd]
    exact ⟨by rw [State.updArr_arr_self]; exact Tbl.get_put_self .., State.updArr_mem ..⟩

/-! ### Drains -/

theorem State.drainDone_spec {d : Drain} (hd : (s.arr ck.die ck.core).drains = [d]) {g : Group} (hg : s.group? d.g = some g)
    (ht : g.team = d.team) :
    ((s.drainDone ck d).arr ck.die ck.core).drains = [] ∧ (s.drainDone ck d).group? d.g = some { g with me := g.me - 1 } ∧
      (s.drainDone ck d).mem = s.mem := by
  obtain ⟨u, hu⟩ : ∃ u : State, u = s.updArr ck.die ck.core fun a => { a with drains := a.drains.filter fun x => x.id ≠ d.id } := ⟨_, rfl⟩
  have hul : (u.arr ck.die ck.core).drains = [] := by
    rw [hu, State.updArr_arr_self, hd]
    simp
  have hug : u.group? d.g = some g := by rw [hu]; exact hg
  obtain ⟨h1, h2, h3⟩ := State.meFall_matrixLook (d := ck.die) hug ht
  unfold State.drainDone
  rw [← hu]
  exact ⟨(congrArg Arr.drains (h3 _ _)).trans hul, h1, h2.trans (by rw [hu]; rfl)⟩

theorem State.drainDone_mem (s : State) (ck : CoreKey) (d : Drain) : (s.drainDone ck d).mem = s.mem := by
  unfold State.drainDone
  exact (State.onlyDue_spec (State.matrixLook_onlyDue ..)).2.1.trans ((State.meFall_mem ..).trans (State.updArr_mem ..))

theorem State.drainHops_of_here {d : Nat} {rs : List Run} (hd : ∀ r ∈ rs, r.place.onDie d = d) (hf : ∀ r ∈ rs, r.place.isFar = false) :
    ((s.drainHops d rs).filter fun h => !h.isEmpty) = [] := by
  unfold State.drainHops
  rw [List.filter_eq_nil_iff]
  intro h hh
  obtain ⟨r, hr, hin⟩ := List.mem_flatMap.1 hh
  rw [State.outHops_of_here .req (hd r hr) (hf r hr)] at hin
  rw [List.eq_of_mem_replicate hin]
  simp

theorem State.drainComplete_of_held {d : Drain} (hd : (s.arr ck.die ck.core).drains = [d])
    (h : (s.arr ck.die ck.core).frozen = true ∨ s.drainFlies ck d.id = true) : s.drainComplete ck d.id = s := by
  unfold State.drainComplete
  simp only [hd, List.find?_cons, decide_true]
  exact if_pos (by simpa using h)

/-- A drain that writes: its rows, once the pieces are home. -/
theorem State.drainComplete_of_home {d : Drain} {rss : List (List Run)} {u : State} (hd : (s.arr ck.die ck.core).drains = [d])
    (hf : (s.arr ck.die ck.core).frozen = false) (hfl : s.drainFlies ck d.id = false) (hc : d.clear = false) (ha : d.away = false)
    (hr : s.reachRows { die := ck.die, core := ck.core, ctx := d.ctx, copy := false, gen := s.teamGen d.team } (s.team? d.team) d.seg
      (if d.add then .atomic else .write) d.pieces = (.ok rss, u))
    (hadd : d.add = true → ∀ rs ∈ rss, ∀ r ∈ rs, r.place.addable = true) (hfar : ∀ rs ∈ rss, ∀ r ∈ rs, r.place.isFar = false)
    (hhome : d.sent = true ∨ ∀ rs ∈ rss, ∀ r ∈ rs, r.place.onDie ck.die = ck.die) :
    s.drainComplete ck d.id = (u.drainRows d ((s.ctx ck.die d.ctx).clev.toNat % 4) rss d.values).drainDone ck d := by
  have hnoadd : (d.add && rss.any fun rs => rs.any fun y => !y.place.addable) = false := by
    cases h : d.add with
    | false => rfl
    | true => simpa using hadd h
  have hnear : (rss.flatten.any fun r => r.place.isFar) = false := by simpa using hfar
  have hstay : (!d.sent && !((u.drainHops ck.die rss.flatten).filter fun h => !h.isEmpty).isEmpty) = false := by
    obtain h | h := hhome
    · simp [h]
    · have hnone := State.drainHops_of_here (s := u) (d := ck.die) (rs := rss.flatten) (by simpa using fun r rs hm hr => h rs hm r hr)
        (by simpa using fun r rs hm hr => hfar rs hm r hr)
      simp [hnone]
  unfold State.drainComplete
  simp only [hd, List.find?_cons, decide_true, hf, hfl, hc, ha, hr, hnoadd, hnear, hstay, Bool.or_self, Bool.false_eq_true, if_false]

theorem State.drainComplete_of_over {d : Drain} (hd : (s.arr ck.die ck.core).drains = [d])
    (hf : (s.arr ck.die ck.core).frozen = false) (hfl : s.drainFlies ck d.id = false) (h : d.clear = true ∨ d.away = true) :
    s.drainComplete ck d.id = s.drainDone ck d := by
  unfold State.drainComplete
  simp only [hd, List.find?_cons, decide_true, hf, hfl, Bool.or_self, Bool.false_eq_true, if_false]
  exact if_pos (by simpa using h)

/-! ### Pairs -/

theorem State.updArr_arr_ne (s : State) {d c c' : Nat} (f : Arr → Arr) (h : c' ≠ c) : (s.updArr d c f).arr d c' = s.arr d c' := by
  unfold State.arr State.updArr State.putArr
  rw [State.updCore_core, if_neg (by unfold coreNum; omega)]

/-- A pair's two cores: both arrays are changed alike, and nothing else. -/
theorem State.updArr_pair {d a b : Nat} (h : a ≠ b) (f : Arr → Arr) :
    ((s.updArr d a f).updArr d b f).arr d a = f (s.arr d a) ∧ ((s.updArr d a f).updArr d b f).arr d b = f (s.arr d b) :=
  ⟨(State.updArr_arr_ne _ f h).trans (State.updArr_arr_self ..), (State.updArr_arr_self ..).trans (congrArg f (State.updArr_arr_ne s f h.symm))⟩

theorem State.putReady_spec (s : State) (k : GKey) (g : Group) (n : Nat) :
    ((s.putGroup k g).makeReady k n).group? k = some { g with run := .ready, readyAt := n } ∧ ((s.putGroup k g).makeReady k n).mem = s.mem
      ∧ ∀ d c, ((s.putGroup k g).makeReady k n).arr d c = s.arr d c := by
  unfold State.makeReady
  refine ⟨State.updGroup_group?_self _ (State.putGroup_group?_self ..), (State.updGroup_mem ..).trans rfl, fun d c => ?_⟩
  exact (State.aside_arr ((s.putGroup k g).updGroup_aside k _) d c).trans rfl

theorem State.pairBind_of_none (h : ∀ e ∈ s.groups, e.2.run ≠ .waiting .pairBind) : s.pairBind ck = s :=
  foldl_of_unmoved fun e he => if_pos (.inr (.inr (h e he)))

theorem State.pairBind_of_one {k : GKey} {g : Group} {c : Clause} {f : Nat} (hs : s.groups = [(keyNum k, g)]) (hc : k.core < 16) (hk : k.slot < 512)
    (hr : g.run = .waiting .pairBind) (hcl : g.clause = some c) (hp : s.pairFor k.die k.core g.team ((g.fieldP c).getLsbD 0) = some f)
    (hi : (s.arr k.die k.core).idle = true) (hj : (s.arr k.die f).idle = true) :
    s.pairBind ⟨k.die, k.core⟩ =
      ((((s.updArr k.die k.core fun a => { a with pair := some (k.core, f) }).updArr k.die f fun a => { a with pair := some (k.core, f) }).putGroup k
      { g with half := .done, irrev := true }).makeReady k s.clk) := by
  unfold State.pairBind
  rw [hs]
  simp only [List.foldl_cons, List.foldl_nil, keyOfNum_keyNum hc hk, hr, hcl, hp, hi, hj, ne_eq, not_true_eq_false, or_self, if_false,
    Bool.and_self, if_true]

theorem State.pairEnd_of_one {k : GKey} {g : Group} {l f : Nat} (hs : s.groups = [(keyNum k, g)]) (hc : k.core < 16) (hk : k.slot < 512)
    (hr : g.run = .waiting .pairEnd) (hb : s.pairBusy k.die k.core = false) (hp : (s.arr k.die k.core).pair = some (l, f)) :
    s.pairEnd ⟨k.die, k.core⟩ = ((((s.updArr k.die l fun a => { a with pair := none }).updArr k.die f fun a => { a with pair := none }).putGroup k
      { g with half := .done, irrev := true }).makeReady k s.clk) := by
  unfold State.pairEnd
  rw [hs]
  simp only [List.foldl_cons, List.foldl_nil, keyOfNum_keyNum hc hk, hr, hb, State.unpair, hp, ne_eq, not_true_eq_false, or_self, if_false,
    Bool.false_eq_true]

end

/-- Settles O55, event by event. -/
theorem engineEvents : Obligations.EngineEvents := by
  unfold Obligations.EngineEvents
  refine ⟨?_, ?_, ?_, ?_, ?_, ?_, ?_, ?_, ?_, ?_, ?_, ?_, ?_, ?_, ?_, ?_⟩
  · intro s ck hs hfull
    have he : exec .copyStart s = .next (s.copyStart ck) := exec_of_subject hs
    rw [he, State.copyStart_of_full hfull]
  · intro s ck x hs hroom hx
    have he : exec .copyStart s = .next (s.copyStart ck) := exec_of_subject hs
    exact ⟨_, he, State.copyStart_spec hroom hx⟩
  · intro s ck x hs hc hr hf hrows
    have he : exec .copyBeat s = .next (s.copyBeat ck x.id) := exec_of_subject hs
    obtain ⟨hdue, hmem⟩ := State.copyBeat_of_no_rows ⟨hc, hr, hf⟩ hrows
    exact ⟨_, he, hmem, hdue⟩
  · intro s ck x rs r u v hs hc hrun hf hr ha hb _ hfl hm hdom hrd hp hend hw hsrc hd hfar hl
    have he : exec .copyBeat s = .next (s.copyBeat ck x.id) := exec_of_subject hs
    exact ⟨_, he, State.copyBeat_of_last ⟨hc, hrun, hf⟩ hr ha hb hm hdom hfl hrd hp hend hw hsrc hd hfar hl⟩
  · intro s ck x hs hc hfl
    have he : exec .copyComplete s = .next (s.copyComplete ck x.id) := exec_of_subject hs
    rw [he, State.copyComplete_of_flying hc hfl]
  · intro s ck x g hs hc hfl hn hb hg ht
    have he : exec .copyComplete s = .next (s.copyComplete ck x.id) := exec_of_subject hs
    exact ⟨_, he, State.copyComplete_spec hc hfl hn hb hg ht⟩
  · intro s d f x hs hx hfill hst hn hc hb hfr
    have he : exec .feederTileLand s = .next (s.feederTileLand d f) := exec_of_subject hs
    exact ⟨_, he, State.feederTileLand_spec hx hfill hst hn hc hb hfr⟩
  · intro s c n hs hstate hfr
    have he : exec .tileLoadLand s = .next (s.tileLoadLand c n) := exec_of_subject hs
    obtain ⟨hlands, hflies⟩ := State.tileLoadLand_of_filling hstate hfr
    exact ⟨fun h => by rw [he, hlands h], fun h => by rw [he, hflies h]⟩
  · intro s ck o hs hq hf hp
    have he : exec .matrixOpStart s = .next (s.matrixOpStart ck o.id) := exec_of_subject hs
    obtain ⟨due, hdue, hle, hmem, hacc⟩ := State.matrixOpStart_spec hq hf hp
    exact ⟨_, due, he, hdue, hle, hmem, hacc⟩
  · intro s ck o g hs hq hp _ hr hb hg ht hf
    have he : exec .matrixOpRetire s = .next (s.matrixOpRetire ck o.id) := exec_of_subject hs
    exact ⟨_, he, State.matrixOpRetire_spec hq hp hr hb hg ht hf⟩
  · intro s ck q hs a due
    have he : exec .subarrayGate s = .next (s.subarrayGate ck q) := exec_of_subject hs
    obtain ⟨hstays, hlater, hgates⟩ := s.subarrayGate_spec ck q
    exact ⟨fun h => by rw [he, hstays h], fun hm hg hd => by rw [he, hlater hm hg hd], fun hm hg hd => ⟨_, he, hgates hm hg hd⟩⟩
  · intro s ck d hs hd
    have he : exec .drainComplete s = .next (s.drainComplete ck d.id) := exec_of_subject hs
    refine ⟨fun h => by rw [he, State.drainComplete_of_held hd h], fun hf hfl => ⟨fun g h hg ht => ?_, fun rss u hc ha hr hadd hfar hhome => ?_⟩⟩
    · rw [he, State.drainComplete_of_over hd hf hfl h]
      exact ⟨_, rfl, State.drainDone_spec hd hg ht⟩
    · rw [he, State.drainComplete_of_home hd hf hfl hc ha hr hadd hfar hhome]
      exact ⟨_, rfl, State.drainDone_mem ..⟩
  · intro s ck hs h
    have he : exec .pairBind s = .next (s.pairBind ck) := exec_of_subject hs
    rw [he, State.pairBind_of_none h]
  · intro s k g c f hs hgs hc hk hr hcl hp hne _ hi hj
    have he : exec .pairBind s = .next (s.pairBind ⟨k.die, k.core⟩) := exec_of_subject hs
    rw [he, State.pairBind_of_one hgs hc hk hr hcl hp hi hj]
    obtain ⟨hl, hf⟩ := State.updArr_pair (s := s) (d := k.die) hne.symm fun a => { a with pair := some (k.core, f) }
    obtain ⟨hgroup, hmem, harr⟩ := State.putReady_spec ((s.updArr k.die k.core fun a => { a with pair := some (k.core, f) }).updArr k.die f fun a =>
      { a with pair := some (k.core, f) }) k { g with half := .done, irrev := true } s.clk
    exact ⟨_, rfl, congrArg Arr.pair ((harr _ _).trans hl), congrArg Arr.pair ((harr _ _).trans hf), hgroup, hmem⟩
  · intro s ck hs hb
    have he : exec .pairEnd s = .next (s.pairEnd ck) := exec_of_subject hs
    have hend : s.pairEnd ck = s := if_pos hb
    rw [he, hend]
  · intro s k g l f hs hgs hc hk hr hb hp hne _ _
    have he : exec .pairEnd s = .next (s.pairEnd ⟨k.die, k.core⟩) := exec_of_subject hs
    rw [he, State.pairEnd_of_one hgs hc hk hr hb hp]
    obtain ⟨hl, hf⟩ := State.updArr_pair (s := s) (d := k.die) hne fun a => { a with pair := none }
    obtain ⟨hgroup, hmem, harr⟩ := State.putReady_spec ((s.updArr k.die l fun a => { a with pair := none }).updArr k.die f fun a =>
      { a with pair := none }) k { g with half := .done, irrev := true } s.clk
    have hl' := (harr k.die l).trans hl
    have hf' := (harr k.die f).trans hf
    exact ⟨_, rfl, congrArg Arr.pair hl', congrArg Arr.pair hf', (congrArg Arr.acc hl').trans rfl, (congrArg Arr.acc hf').trans rfl, hmem, hgroup⟩

end Sys2Proof.Machine
end

section
namespace Sys2Proof.Machine

/-! ## Slices, saves, placement, pens, budgets, claims and deadlock (O52) -/

section
variable {s : State} {d : Nat}

/-! ### Which context a die runs -/

theorem State.contextStart_of_idle (c : Nat) (h : (s.die d).run = none) :
    (∀ x, s.firstWork d (List.range 16) = some x → s.contextStart d c = s.takeDie d x)
      ∧ (s.firstWork d (List.range 16) = none → s.contextStart d c = s) := by
  unfold State.contextStart
  dsimp only
  rw [h]
  constructor
  · intro x hx
    simp only [hx]
  · intro hx
    simp only [hx]

theorem State.contextStart_of_run {c old x : Nat} (h : (s.die d).run = some old) :
    ((s.die d).switching = false → s.contextStart d c = s)
      ∧ ((s.die d).switching = true → (s.die d).coming = some c → (s.ctx d c).en = true → s.contextStart d c = s.takeDie d c)
      ∧ ((s.die d).switching = true → ((s.die d).coming ≠ some c ∨ (s.ctx d c).en = false) → s.firstWork d (ctxsAfter old) = some x →
        s.contextStart d c = s.takeDie d x) := by
  unfold State.contextStart
  dsimp only
  rw [h]
  refine ⟨fun hs => by simp [hs], fun hs hc he => by simp [hs, hc, he], fun hs hc hx => ?_⟩
  have hno : ¬((s.die d).coming = some c ∧ (s.ctx d c).en = true) := by
    rintro ⟨h1, h2⟩
    obtain hc | hc := hc
    · exact hc h1
    · simp [hc] at h2
  simp only [hs, hx, Bool.not_true, Bool.false_eq_true, if_false]
  exact if_neg hno

theorem State.sliceEnd_of_run {n c : Nat} (hr : (s.die d).run = some c) (hn : (s.die d).slice = n) (hs : (s.die d).switching = false) :
    s.sliceEnd d n = match s.firstWork d (ctxsAfter c) with
      | none => s.beginSlice d c
      | some next =>
        if s.holdsMatrix d c then s.post (s.clk + 1) (.sliceEnd d n)
        else
          let part := s.slotOf d
          let s1 := s.updDie d fun x => { x with switching := true, coming := some next }
          let s2 := (s1.specTasks part c d).foldl (fun t i => t.abort part c i true) s1
          let s3 := (s2.groupsOn d c).foldl (fun t e => t.flashGroup e.1 e.2) s2
          if (s3.groupsOn d c).isEmpty then s3.post (s.clk + 1) (.contextStart d next) else s3 := by
  unfold State.sliceEnd
  simp only [hr, hn, hs, ne_eq, not_true_eq_false, Bool.false_eq_true, or_self, if_false]
    <;> rfl

theorem State.groupsOn_of_none (h : s.groups = []) (c : Nat) : s.groupsOn d c = [] := by
  unfold State.groupsOn
  rw [h]
  rfl

theorem State.specTasks_of_none (hg : s.groups = []) (hd : s.domains = []) (part c : Nat) : s.specTasks part c d = [] := by
  unfold State.specTasks State.taskGroups State.domain?
  rw [hg, hd]
  rfl

/-- A slice that ends with another context's work and nothing on the die. -/
theorem State.sliceEnd_of_empty {n c x : Nat} (hr : (s.die d).run = some c) (hn : (s.die d).slice = n) (hs : (s.die d).switching = false)
    (hx : s.firstWork d (ctxsAfter c) = some x) (hm : s.holdsMatrix d c = false) (hg : s.groups = []) (hd : s.domains = []) :
    s.sliceEnd d n = (s.updDie d fun y => { y with switching := true, coming := some x }).post (s.clk + 1) (.contextStart d x) := by
  rw [State.sliceEnd_of_run hr hn hs, hx]
  obtain ⟨t, ht⟩ : ∃ t : State, t = s.updDie d fun y => { y with switching := true, coming := some x } := ⟨_, rfl⟩
  have htg : t.groups = [] := by rw [ht]; exact hg
  have htd : t.domains = [] := by rw [ht]; exact hd
  simp only [hm, Bool.false_eq_true, if_false, ← ht, State.specTasks_of_none htg htd, State.groupsOn_of_none htg, List.foldl_nil, List.isEmpty_nil,
    if_true]

/-! ### Saving -/

theorem State.flashbackTimeout_of_forward {k : GKey} {g : Group} (hg : s.group? k = some g) (hf : g.flash = .forward) :
    s.flashbackTimeout k g.team = s.stopToSave k g true := by
  unfold State.flashbackTimeout
  simp [hg, hf]

theorem State.groupSave_of_stopped {k : GKey} {g : Group} {tm : Team} {full : Bool} (hg : s.group? k = some g) (ht : s.team? g.team = some tm)
    (hf : g.flash = .saving full 0) (hi : s.idleSlot g = false) :
    (g.quiet = true → s.groupSave k g.team = s.beginSave k g full tm)
      ∧ (g.quiet = false → s.groupSave k g.team = s.post (s.clk + 1) (.groupSave k g.team)) := by
  unfold State.groupSave
  constructor
  · intro hq
    simp [hg, ht, hf, hi, hq]
  · intro hq
    simp [hg, ht, hf, hi, hq]

theorem State.groupSave_of_written {k : GKey} {g : Group} {tm : Team} {full : Bool} {due : Nat} (hg : s.group? k = some g)
    (ht : s.team? g.team = some tm)
    (hf : g.flash = .saving full (due + 1)) (hd : due + 1 ≤ s.clk) : s.groupSave k g.team = s.endSave k g full tm := by
  unfold State.groupSave
  simp [hg, ht, hf, hd]

/-! ### Restoring -/

theorem Tbl.find_map {α β : Type} (f : α → β) (t : Tbl α) (k : Nat) : Tbl.find (t.map fun e => (e.1, f e.2)) k = (t.find k).map f := by
  induction t with
  | nil => rfl
  | cons e r ih =>
    obtain ⟨j, v⟩ := e
    simp only [List.map_cons, Tbl.find]
    split
    · rfl
    · exact ih

/-- A field that a change of every entry leaves. -/
theorem Tbl.get_map_field {α β : Type} (p : α → β) {f : α → α} (hf : ∀ x, p (f x) = p x) (t : Tbl α) (z : α) (k : Nat) :
    p (Tbl.get (t.map fun e => (e.1, f e.2)) z k) = p (t.get z k) := by
  unfold Tbl.get
  rw [Tbl.find_map]
  cases t.find k with
  | none => rfl
  | some x => exact hf x

theorem State.moveWaits_saved (s : State) (old new : GKey) (team d : Nat) : ((s.moveWaits old new team).die d).saved = (s.die d).saved := by
  unfold State.moveWaits
  exact Tbl.get_map_field Die.saved (f := fun x => { x with
    held := x.held.map _
    events := x.events.map _ }) (fun _ => rfl) s.dies Die.reset d

theorem State.restoreWork_leaves (s : State) (k : GKey) (g : Group) (c : Nat) :
    (s.restoreWork k g c).mem = s.mem ∧ (s.restoreWork k g c).groups = s.groups ∧ (s.restoreWork k g c).dies = s.dies := by
  unfold State.restoreWork
  dsimp only
  repeat' split
  all_goals exact ⟨rfl, rfl, rfl⟩

/-- The state in which the group `z.1`, read back in the state `z.2`, stands at `k` again. -/
def State.restored (s : State) (d n : Nat) (x : Saved) (k : GKey) (z : Group × State) : State :=
  let away : GKey := ⟨d, x.core, savedSlot n⟩
  let s2 := z.2.updDie d fun y => { y with saved := y.saved.filter fun y => y.id ≠ n }
  let s3 := s2.updTeam z.1.team fun t => { t with groups := t.groups.map fun e => if e.2 = away.slot then (e.1, k.slot) else e }
  let s4 := (s3.setBarriers (s3.barriers.map fun e => (e.1, { e.2 with arrived := e.2.arrived.map fun y => if y = away then k else y }))).moveWaits
    away k z.1.team
  let g2 : Group := { z.1 with
    window := window8 z.1.window
    readyAt := s.clk
    tenure := 0
    task := z.1.task.map fun (t : Task) => { t with ranAt := s.ranClk d x.ctx - t.ranAt } }
  let s6 := ((s4.putGroup k g2).restoreWork k g2 x.ctx).post (s.clk + 64) (.deadlockCheck (penOf k))
  let s7 := s6.post s.clk (.clusterPlace d 0 0)
  if s.idleSlot z.1 then s7.postDispatch d (s.slotOf d) x.ctx s.clk else s7

theorem State.updTeam_leaves (s : State) (t : Nat) (f : Team → Team) : (s.updTeam t f).mem = s.mem ∧ (s.updTeam t f).dies = s.dies := by
  unfold State.updTeam
  split
  · exact ⟨rfl, rfl⟩
  · exact ⟨rfl, rfl⟩

theorem State.moveWaits_mem (s : State) (old new : GKey) (team : Nat) : (s.moveWaits old new team).mem = s.mem := rfl

theorem State.restored_spec {n : Nat} {x : Saved} {k : GKey} {z : Group × State} (hm : z.2.mem = s.mem) :
    (s.restored d n x k z).mem = s.mem ∧ (∀ y ∈ ((s.restored d n x k z).die d).saved, y.id ≠ n)
      ∧ (s.restored d n x k z).group? k = some { z.1 with
          window := window8 z.1.window
          readyAt := s.clk
          tenure := 0
          task := z.1.task.map fun (y : Task) => { y with ranAt := s.ranClk d x.ctx - y.ranAt } } := by
  obtain ⟨s2, h2⟩ : ∃ t : State, t = z.2.updDie d fun y => { y with saved := y.saved.filter fun y => y.id ≠ n } := ⟨_, rfl⟩
  obtain ⟨s3, h3⟩ : ∃ t : State, t = s2.updTeam z.1.team fun t =>
      { t with groups := t.groups.map fun e => if e.2 = savedSlot n then (e.1, k.slot) else e } := ⟨_, rfl⟩
  obtain ⟨s4, h4⟩ : ∃ t : State, t = (s3.setBarriers (s3.barriers.map fun e =>
      (e.1, { e.2 with arrived := e.2.arrived.map fun y => if y = ⟨d, x.core, savedSlot n⟩ then k else y }))).moveWaits ⟨d, x.core,
        savedSlot n⟩ k z.1.team := ⟨_, rfl⟩
  obtain ⟨g2, hg2⟩ : ∃ g : Group, g = { z.1 with
    window := window8 z.1.window
    readyAt := s.clk
    tenure := 0
    task := z.1.task.map fun (t : Task) => { t with ranAt := s.ranClk d x.ctx - t.ranAt } } := ⟨_, rfl⟩
  have hs2 : (s2.die d).saved = (z.2.die d).saved.filter fun y => y.id ≠ n := by
    rw [h2, updDie_die_self]
  have hs4 : (s4.die d).saved = (s2.die d).saved := by
    rw [h4, State.moveWaits_saved]
    unfold State.die
    exact congrArg (fun l => (Tbl.get l Die.reset d).saved) (by rw [h3]; exact (State.updTeam_leaves ..).2)
  have hm4 : s4.mem = s.mem := by
    rw [h4, State.moveWaits_mem]
    refine Eq.trans (b := s3.mem) rfl ?_
    rw [h3, (State.updTeam_leaves ..).1, h2]
    exact hm
  obtain ⟨hwm, hwg, hwd⟩ := (s4.putGroup k g2).restoreWork_leaves k g2 x.ctx
  obtain ⟨a, ha⟩ : ∃ a, s.restored d n x k z = ((s4.putGroup k g2).restoreWork k g2 x.ctx).setAgenda a := by
    unfold State.restored
    rw [h4, h3, h2, hg2]
    dsimp only
    split
    · exact ⟨_, rfl⟩
    · exact ⟨_, rfl⟩
  rw [ha, ← hg2]
  refine ⟨hwm.trans hm4, fun y hy => ?_, ?_⟩
  · have hsaved : (((s4.putGroup k g2).restoreWork k g2 x.ctx).die d).saved = (s4.die d).saved := by
      unfold State.die
      rw [hwd]
      rfl
    have hy' : y ∈ (((s4.putGroup k g2).restoreWork k g2 x.ctx).die d).saved := hy
    rw [hsaved, hs4, hs2] at hy'
    simpa using (List.mem_filter.1 hy').2
  · refine Eq.trans (congrArg (fun l => Tbl.find l (keyNum k)) hwg) ?_
    exact State.putGroup_group?_self s4 k g2

/-- A group comes back from its save area to a place of its pen. -/
theorem State.groupRestore_spec {n : Nat} {x : Saved} {k : GKey} (hx : ((s.die d).saved.find? fun y => y.id = n) = some x)
    (hr : (s.die d).run = some x.ctx) (hs : (s.die d).switching = false) (hp : s.penFor d x.core (window8 x.group.window) = some k) :
    let h := if x.lost || s.idleSlot x.group then x.group
      else (s.readSave (dieWho d x.ctx) (pteBits (s.ctx d x.ctx).saveb 16 48 * 65536 + 36864 * x.slot) x.group x.full).1
    (s.groupRestore d n).mem = s.mem ∧ (∀ y ∈ ((s.groupRestore d n).die d).saved, y.id ≠ n)
      ∧ (s.groupRestore d n).group? k = some { h with
          window := window8 h.window
          readyAt := s.clk
          tenure := 0
          task := h.task.map fun (y : Task) => { y with ranAt := s.ranClk d x.ctx - y.ranAt } } := by
  intro h
  obtain ⟨z, hz⟩ : ∃ z : Group × State, z = if x.lost || s.idleSlot x.group then (x.group, s)
      else s.readSave (dieWho d x.ctx) (pteBits (s.ctx d x.ctx).saveb 16 48 * 65536 + 36864 * x.slot) x.group x.full := ⟨_, rfl⟩
  have hh : h = z.1 := by
    rw [hz]
    split
    next hc => exact if_pos hc
    next hc => exact if_neg hc
  have hm : z.2.mem = s.mem := by
    rw [hz]
    split
    · rfl
    · exact State.readSave_mem ..
  rw [hh]
  have he : s.groupRestore d n = s.restored d n x k z := by
    unfold State.groupRestore
    simp only [hx, hr, hs, hp, ne_eq, not_true_eq_false, Bool.false_eq_true, or_self, if_false, ← hz]
    rfl
  rw [he]
  exact State.restored_spec hm

theorem State.groupRestore_of_full {n : Nat} {x : Saved} (hx : ((s.die d).saved.find? fun y => y.id = n) = some x) (hr : (s.die d).run = some x.ctx)
    (hs : (s.die d).switching = false) (hp : s.penFor d x.core (window8 x.group.window) = none) :
    s.groupRestore d n = s.post (s.clk + 1) (.groupRestore d n) := by
  unfold State.groupRestore
  simp [hx, hr, hs, hp]

/-! ### Placing and loading -/

theorem State.clusterPlace_of_saved (h : s.savedWaits d = true) (l n : Nat) : s.clusterPlace d l n = s := if_pos (by simp [h])

theorem State.clusterPlace_of_free (l n : Nat) (hs : (s.die d).switching = false) (h : s.savedWaits d = false) :
    (∀ t, s.tryRanges d none (s.rangesFor d) = some t → s.clusterPlace d l n = t.post s.clk (.clusterPlace d l n))
      ∧ (s.tryRanges d none (s.rangesFor d) = none → s.clusterPlace d l n = s.headsWait d) := by
  unfold State.clusterPlace
  rw [if_neg (by simp [hs, h])]
  constructor
  · intro t ht
    rw [ht]
  · intro ht
    rw [ht]

theorem State.headBlocking_of_due {l n cn since : Nat} {r : Range}
    (hr : ((s.die d).ranges.find? fun r => r.launch = l ∧ r.node = n ∧ r.next = cn) = some r)
    (hs : r.since = some since) (h : 4096 ≤ r.waited + (s.clk - since)) : s.headBlocking d l n cn = s.putRange d { r with blocking := true } := by
  unfold State.headBlocking
  simp only [hr, hs]
  exact if_pos h

/-! ### Pens and clauses -/

theorem State.clauseStart_of_ready {p : PenKey} {k : GKey} {g : Group} (hp : (s.pen p).holder = none) (ho : s.oldestOn p none = some (k, g)) :
    (s.clauseStart p).group? k = some { g with run := .active, tenure := 0 } ∧ ((s.clauseStart p).pen p).holder = some k.slot
      ∧ (s.clauseStart p).mem = s.mem := by
  have he : s.clauseStart p = (s.putGroup k { g with run := .active, tenure := 0 }).putPen p
      { s.pen p with holder := some k.slot, askedAt := max s.clk (s.pen p).freeAt, stalled := false } := by
    unfold State.clauseStart State.takePen
    rw [hp]
    simp only [ho]
  rw [he]
  exact ⟨State.putGroup_group?_self .., by rw [State.putPen_pen_self], rfl⟩

theorem State.clauseFetchArrive_of_clause {k : GKey} {g : Group} {c : Clause} {u : State} (hg : s.group? k = some g) (hr : g.run = .waiting .fetch)
    (hf : s.readFlies (.clause k) = false) (hc : s.fetchClause k g .memory = (.clause c, u)) :
    (u.fetchRefresh k g (4 + 4 * c.words.length) = none → s.clauseFetchArrive k
        = (u.keepLines k g (4 + 4 * c.words.length)).putGroup k { g with
          clause := some c
          run := .ready
          readyAt := (u.keepLines k g (4 + 4 * c.words.length)).clk })
      ∧ ∀ e, u.fetchRefresh k g (4 + 4 * c.words.length) = some e → s.clauseFetchArrive k = u.post e (.clauseFetchArrive k) := by
  unfold State.clauseFetchArrive
  simp only [hg, hr, hf, hc, Bool.not_true, Bool.or_self, Bool.false_eq_true, if_false]
  constructor
  · intro h
    simp only [h]
  · intro e h
    simp only [h]

/-! ### Budgets -/

theorem State.budgetTick_of_counting {x n : Nat} {tm : Team} (ht : s.team? x = some tm) (hb : tm.budget = some (n + 1)) :
    (s.ranClk tm.die tm.ctx - tm.ranAt < 64 → s.budgetTick (.team x) = s.post (s.clk + (64 - (s.ranClk tm.die tm.ctx - tm.ranAt))) (.budgetTick (.team x)))
      ∧ (64 ≤ s.ranClk tm.die tm.ctx - tm.ranAt → n ≠ 0 → s.budgetTick (.team x) = (s.putTeam x { tm with budget := some n, ranAt := tm.ranAt + 64 }).post
        (s.clk + max 1 (128 - (s.ranClk tm.die tm.ctx - tm.ranAt))) (.budgetTick (.team x)))
      ∧ (64 ≤ s.ranClk tm.die tm.ctx - tm.ranAt → n = 0 → s.budgetTick (.team x) = s.teamBudgetOut x tm) := by
  unfold State.budgetTick
  simp only [ht, hb]
  exact ⟨fun h => if_pos h, fun h hn => by rw [if_neg (Nat.not_lt.2 h), if_neg hn], fun h hn => by rw [if_neg (Nat.not_lt.2 h), if_pos hn]⟩

theorem State.teamBudgetOut_of_one {x : Nat} {tm : Team} {k : GKey} {g : Group} (hk : tm.keys = [k]) (hg : s.group? k = some g)
    (hn : g.task = none) :
    (s.teamBudgetOut x tm).team? x = some { tm with budget := some 0, grace := true, noTask := true }
      ∧ (s.teamBudgetOut x tm).group? k = some { g with budgetDue := true } ∧ (s.teamBudgetOut x tm).mem = s.mem
      ∧ (s.clk + 4096, Event.budgetGraceExpire x) ∈ (s.teamBudgetOut x tm).agenda := by
  obtain ⟨u, hu⟩ : ∃ u : State, u = s.putTeam x { tm with budget := some 0, grace := true, noTask := true } := ⟨_, rfl⟩
  have hug : u.group? k = some g := by rw [hu]; exact hg
  unfold State.teamBudgetOut
  simp only [hk, ← hu, List.foldl_cons, List.foldl_nil, hug, hn]
  refine ⟨?_, State.putGroup_group?_self .., ?_, ?_⟩
  · refine Eq.trans (b := u.team? x) rfl ?_
    rw [hu]
    exact Tbl.find_put_self ..
  · rw [hu]
    rfl
  · have hc : s.clk = u.clk := by rw [hu]; rfl
    rw [hc]
    exact mem_insertDue _ _ _

theorem State.budgetGraceExpire_of_one {x : Nat} {tm : Team} {k : GKey} {g : Group} (ht : s.team? x = some tm) (hk : tm.keys = [k])
    (hg : s.group? k = some g) (hs : ((s.killGroup k g).die tm.die).saved = []) : s.budgetGraceExpire x = s.killGroup k g := by
  unfold State.budgetGraceExpire
  simp only [ht, hk, List.foldl_cons, List.foldl_nil, hg, hs, List.filter_nil]

/-! ### Teams that are over -/

theorem State.teamRetire_of_busy {x : Nat} {tm : Team} (ht : s.team? x = some tm) (hg : tm.groups = []) (hb : s.teamBusy x tm = true) :
    s.teamRetire x = (s.unpost (.teamRetire x)).post (s.clk + 1) (.teamRetire x) := by
  unfold State.teamRetire
  simp [ht, hg, hb]

theorem State.teamRetire_of_over {x : Nat} {tm : Team} (ht : s.team? x = some tm) (hg : tm.groups = []) (hb : s.teamBusy x tm = false)
    (hr : tm.redo = false) :
    s.teamRetire x = (((s.releaseTeam x tm).reportTeam tm).matrixLook tm.die).post s.clk (.clusterPlace tm.die tm.launch tm.node) := by
  unfold State.teamRetire
  simp [ht, hg, hb, hr]

/-! ### Claims -/

theorem Group.grant_regLane {g : Group} (n : Nat) (hw : g.well = []) {r : Nat} (hr : g.window ≤ r) (l : Nat) : (g.grant n).regLane r l = 0#32 := by
  have hnone : (g.grant n).regs.find r = none := by
    refine Eq.trans (Tbl.find_filter_key g.regs (fun m => decide (m < g.window)) r) ?_
    rw [if_neg (by simpa using hr)]
  have hwell : (g.grant n).well = [] := hw
  unfold Group.regLane Tbl.get
  rw [hwell, hnone]
  exact zeroLanes_at l

theorem State.aside_pen {t u : State} (h : t.aside u) (p : PenKey) : u.pen p = t.pen p := by
  unfold State.pen State.core
  rw [h.1]

/-- A group that is made ready as its pen's claims change. -/
theorem State.putReadyPen_spec (s : State) (k : GKey) (h : Group) (p : PenKey) (x : Pen) (n : Nat) :
    (((s.putGroup k h).putPen p x).makeReady k n).group? k = some { h with run := .ready, readyAt := n }
      ∧ (((s.putGroup k h).putPen p x).makeReady k n).pen p = x := by
  refine ⟨State.updGroup_group?_self _ (State.putGroup_group?_self s k h), ?_⟩
  exact (State.aside_pen (State.updGroup_aside _ k _) p).trans (State.putPen_pen_self ..)

theorem State.claimGrant_of_one {k : GKey} {g : Group} {n : Nat} (hc : (s.pen (penOf k)).claims = [(k.slot, n)]) (hg : s.group? k = some g)
    (hr : g.run = .waiting (.claim n)) (hn : n ≤ s.freeRegs (penOf k)) :
    (s.claimGrant (penOf k)).group? k = some { g.grant n with half := .done, irrev := true, run := .ready, readyAt := s.clk }
      ∧ ((s.claimGrant (penOf k)).pen (penOf k)).claims = [] := by
  obtain ⟨h, hh⟩ : ∃ h : Group, h = { g.grant n with half := .done, irrev := true } := ⟨_, rfl⟩
  obtain ⟨x, hx⟩ : ∃ x : Pen, x = { s.pen (penOf k) with claims := (s.pen (penOf k)).claims.filter fun e => e.1 ≠ k.slot } := ⟨_, rfl⟩
  have hnone : x.claims = [] := by
    rw [hx]
    simp [hc]
  have hgrant : State.grantClaims (penOf k) (s.pen (penOf k)).claims s = ((s.putGroup k h).putPen (penOf k) x).makeReady k s.clk := by
    have hkey : (⟨(penOf k).die, (penOf k).core, k.slot⟩ : GKey) = k := rfl
    have hcond : g.run = .waiting (.claim n) ∧ n ≤ s.freeRegs (penOf k) := ⟨hr, hn⟩
    rw [hc, hx, hh]
    unfold State.grantClaims
    simp only [hkey, hg]
    rw [if_pos hcond]
    rfl
  obtain ⟨hgroup, hpen⟩ := s.putReadyPen_spec k h (penOf k) x s.clk
  have hclaims := (congrArg Pen.claims hpen).trans hnone
  have he : s.claimGrant (penOf k) = ((s.putGroup k h).putPen (penOf k) x).makeReady k s.clk := by
    unfold State.claimGrant
    simp only [hgrant, hclaims, List.isEmpty_nil, if_true]
  rw [he]
  refine ⟨?_, hclaims⟩
  rw [hgroup, hh]

/-! ### Deadlock -/

/-- One place of a pen that is looked at: the group there has REG_DEADLOCK to raise, where no claim of its team can be granted. -/
def State.deadlockOne (s : State) (p : PenKey) (t : State) (k : GKey) : State :=
  match s.group? k with
  | some g =>
    match g.run with
    | .waiting (.claim n) =>
      if (s.pen p).claims.contains (k.slot, n) && s.deadlocked p g.team then
        let x := t.pen p
        ((t.putPen p { x with claims := x.claims.filter fun e => e.1 ≠ k.slot }).updGroup k fun h =>
          { h with raiseDue := some (trapOf .regDeadlock (BitVec.ofNat 32 n), h.pos, .instr, .plain) }).makeReady k t.clk
      else t
    | _ => t
  | none => t

theorem State.deadlockCheck_eq (s : State) (p : PenKey) : s.deadlockCheck p = (penSlots p).foldl (s.deadlockOne p) s := rfl

theorem State.deadlockOne_of_free {p : PenKey} {t : State} {k : GKey} (h : ∀ g, s.group? k = some g → s.deadlocked p g.team = false) :
    s.deadlockOne p t k = t := by
  unfold State.deadlockOne
  split
  next g hg =>
    split
    · rw [if_neg (by simp [h g hg])]
    · rfl
  · rfl

theorem State.deadlockCheck_of_free {p : PenKey} (h : ∀ k ∈ penSlots p, ∀ g, s.group? k = some g → s.deadlocked p g.team = false) :
    s.deadlockCheck p = s := by
  rw [State.deadlockCheck_eq]
  exact foldl_of_unmoved fun k hk => State.deadlockOne_of_free (h k hk)

/-- What REG_DEADLOCK leaves to a group. -/
def Group.deadlockDue (g : Group) (n clk : Nat) : Group :=
  { g with
    raiseDue := some (trapOf .regDeadlock (BitVec.ofNat 32 n), g.pos, .instr, .plain)
    run := .ready
    readyAt := clk }

/-- The group's own place. -/
theorem State.deadlockOne_self {p : PenKey} {t : State} {k : GKey} {g h : Group} {n : Nat} (hg : s.group? k = some g)
    (hr : g.run = .waiting (.claim n))
    (hc : (k.slot, n) ∈ (s.pen p).claims) (hd : s.deadlocked p g.team = true) (ht : t.group? k = some h) :
    (s.deadlockOne p t k).group? k = some (h.deadlockDue n t.clk) := by
  unfold State.deadlockOne
  simp only [hg, hr]
  rw [if_pos (by simp [hc, hd])]
  refine State.updGroup_group?_self _ (State.updGroup_group?_self (g := h) _ ?_)
  exact ht

theorem State.updGroup_group?_ne (s : State) {k j : GKey} (f : Group → Group) (h : keyNum k ≠ keyNum j) :
    (s.updGroup j f).group? k = s.group? k := by
  unfold State.updGroup
  split
  · exact State.putGroup_group?_ne s _ h
  · rfl

/-- The other places of the pen. -/
theorem State.deadlockOne_other {p : PenKey} {t : State} {j k : GKey} (hne : keyNum k ≠ keyNum j) :
    (s.deadlockOne p t j).group? k = t.group? k := by
  unfold State.deadlockOne
  split
  · split
    · split
      · dsimp only
        unfold State.makeReady
        exact (State.updGroup_group?_ne _ _ hne).trans (State.updGroup_group?_ne _ _ hne)
      · rfl
    · rfl
  · rfl

theorem State.deadlock_foldl {p : PenKey} {k : GKey} {g : Group} {n : Nat} (hg : s.group? k = some g) (hr : g.run = .waiting (.claim n))
    (hc : (k.slot, n) ∈ (s.pen p).claims) (hd : s.deadlocked p g.team = true) :
    ∀ (l : List GKey) (t : State) (h : Group), (∀ j ∈ l, j = k ∨ keyNum k ≠ keyNum j) → t.group? k = some h →
      (∃ m, h = g.deadlockDue n m) ∨ h = g ∧ k ∈ l → ∃ m, (l.foldl (s.deadlockOne p) t).group? k = some (g.deadlockDue n m) := by
  intro l
  induction l with
  | nil =>
    intro t h _ ht hh
    obtain ⟨m, rfl⟩ | ⟨-, hk⟩ := hh
    · exact ⟨m, ht⟩
    · cases hk
  | cons j r ih =>
    intro t h hl ht hh
    have hrest : ∀ i ∈ r, i = k ∨ keyNum k ≠ keyNum i := fun i hi => hl i (List.mem_cons_of_mem _ hi)
    by_cases hj : j = k
    · subst hj
      have hself := State.deadlockOne_self hg hr hc hd ht
      have hdue : h.deadlockDue n t.clk = g.deadlockDue n t.clk := by
        obtain ⟨m, rfl⟩ | ⟨rfl, -⟩ := hh
        · rfl
        · rfl
      rw [hdue] at hself
      exact ih _ _ hrest hself (.inl ⟨t.clk, rfl⟩)
    · have hne := (hl j List.mem_cons_self).resolve_left hj
      refine ih _ h hrest ((State.deadlockOne_other hne).trans ht) (hh.imp_right fun ⟨he, hk⟩ => ⟨he, ?_⟩)
      exact (List.mem_cons.1 hk).resolve_left fun e => hj e.symm

theorem penSlots_keyNum {p : PenKey} {j k : GKey} (hj : j ∈ penSlots p) (hk : k ∈ penSlots p) : j = k ∨ keyNum k ≠ keyNum j := by
  obtain ⟨a, -, rfl⟩ := List.mem_map.1 hj
  obtain ⟨b, -, rfl⟩ := List.mem_map.1 hk
  by_cases h : a = b
  · exact .inl (by rw [h])
  · right
    unfold keyNum
    dsimp only
    omega

theorem State.deadlockCheck_of_deadlock {p : PenKey} {k : GKey} {g : Group} {n : Nat} (hk : k ∈ penSlots p) (hg : s.group? k = some g)
    (hr : g.run = .waiting (.claim n)) (hc : (k.slot, n) ∈ (s.pen p).claims) (hd : s.deadlocked p g.team = true) :
    ∃ m, (s.deadlockCheck p).group? k = some (g.deadlockDue n m) :=
  State.deadlock_foldl hg hr hc hd (penSlots p) s g (fun _ hj => penSlots_keyNum hj hk) hg (.inr ⟨rfl, hk⟩)

/-! ### Objects that the loader brings (R394) -/

theorem State.objectLoad_of_refused {o : EmuObject} {n : Nat} (h : s.loadStatus o = n) (hn : n ≠ 0) : s.objectLoad o = s.send
    (.loaded o.part o.ctx n) := by
  unfold State.objectLoad
  simp only [h]
  rw [if_neg hn]

/-- Some die of the object's slot runs its context at a level below the object's. -/
def State.levelLow (s : State) (o : EmuObject) : Prop := ∃ d ∈ s.diesOf o.part, (s.ctx d o.ctx).clev.toNat < o.minLevel

theorem State.levelLow_iff {o : EmuObject} :
    ((s.diesOf o.part).any fun d => decide ((s.ctx d o.ctx).clev.toNat < o.minLevel)) = true ↔ s.levelLow o := by
  simp [State.levelLow]

theorem State.loadStatus_cases (s : State) (o : EmuObject) :
    (3 < o.minLevel → s.loadStatus o = 2)
      ∧ (o.minLevel ≤ 3 → s.levelLow o → s.loadStatus o = 3)
      ∧ (o.minLevel ≤ 3 → ¬s.levelLow o → o.builtLevel < o.minLevel → s.loadStatus o = 4)
      ∧ (o.minLevel ≤ 3 → ¬s.levelLow o → 3 < o.builtLevel → (∃ e ∈ o.note, e.refuse = true) → s.loadStatus o = 5)
      ∧ (o.minLevel ≤ 3 → ¬s.levelLow o → o.minLevel ≤ o.builtLevel → (o.builtLevel ≤ 3 ∨ ∀ e ∈ o.note, e.refuse = false) → s.loadStatus o = 0) := by
  unfold State.loadStatus
  refine ⟨fun h => if_pos h, fun h hl => ?_, fun h hl hb => ?_, fun h hl hb hn => ?_, fun h hl hb hn => ?_⟩
  · rw [if_neg (Nat.not_lt.2 h), if_pos (State.levelLow_iff.2 hl)]
  · rw [if_neg (Nat.not_lt.2 h), if_neg (mt State.levelLow_iff.1 hl), if_pos hb]
  · rw [if_neg (Nat.not_lt.2 h), if_neg (mt State.levelLow_iff.1 hl), if_neg (by omega), if_pos ⟨hb, by simpa using hn⟩]
  · have hno : ¬(3 < o.builtLevel ∧ o.note.any (·.refuse) = true) := by
      rintro ⟨h3, hany⟩
      obtain hn | hn := hn
      · omega
      · obtain ⟨e, he, hr⟩ := List.any_eq_true.1 hany
        simp [hn e he] at hr
    rw [if_neg (Nat.not_lt.2 h), if_neg (mt State.levelLow_iff.1 hl), if_neg (Nat.not_lt.2 hb), if_neg hno]

/-- The loaded objects as they stand without the selectors of a new one. -/
def objectsWithout (o : EmuObject) (l : List EmuObject) : List EmuObject :=
  l.map fun x => if x.part = o.part ∧ x.ctx = o.ctx then { x with sels := x.sels.filter fun y => !o.sels.contains y } else x

theorem State.objectAccept_objects (s : State) (o : EmuObject) :
    (s.objectAccept o).host.objects = if 3 < o.builtLevel then o :: objectsWithout o s.host.objects else objectsWithout o s.host.objects := by
  unfold State.objectAccept
  dsimp only
  split
  · rfl
  · rfl

theorem find?_objectsWithout {o : EmuObject} {sel : BitVec 16} (hs : sel ∈ o.sels) (l : List EmuObject) :
    (objectsWithout o l).find? (fun x => x.part == o.part && x.ctx == o.ctx && x.sels.contains sel) = none := by
  rw [List.find?_eq_none]
  intro y hy hc
  obtain ⟨x, -, rfl⟩ := List.mem_map.1 hy
  split at hc
  · simp [hs] at hc
  next hne =>
    apply hne
    simp only [Bool.and_eq_true, beq_iff_eq] at hc
    exact hc.1

theorem State.objectAccept_trapvOf {o : EmuObject} {sel : BitVec 16} (hs : sel ∈ o.sels) (kr : KRec) :
    (s.objectAccept o).trapvOf o.part o.ctx kr sel = if 3 < o.builtLevel then BitVec.ofNat 32 ((o.size + 63) / 64 * 64) else kr.trap := by
  unfold State.trapvOf State.emuObject
  rw [State.objectAccept_objects]
  by_cases hb : 3 < o.builtLevel
  · rw [if_pos hb, if_pos hb, List.find?_cons_of_pos (by simp [hs])]
    rfl
  · rw [if_neg hb, if_neg hb, find?_objectsWithout hs]

theorem State.objectLoad_of_accepted {o : EmuObject} (h : s.loadStatus o = 0) :
    Message.loaded o.part o.ctx 0 ∈ (s.objectLoad o).outbox ∧ ∀ kr sel, sel ∈ o.sels → (s.objectLoad o).trapvOf o.part o.ctx kr sel
      = if 3 < o.builtLevel then BitVec.ofNat 32 ((o.size + 63) / 64 * 64) else kr.trap := by
  have he : s.objectLoad o = (s.objectAccept o).send (.loaded o.part o.ctx 0) := by
    unfold State.objectLoad
    simp only [h]
    rfl
  rw [he]
  exact ⟨List.mem_append_right _ List.mem_cons_self, fun kr sel hs => State.objectAccept_trapvOf hs kr⟩

end

/-- Settles O52, event by event. -/
theorem schedulingEvents : Obligations.SchedulingEvents := by
  unfold Obligations.SchedulingEvents
  refine ⟨?_, ?_, ?_, ?_, ?_, ?_, ?_, ?_, ?_, ?_, ?_, ?_, ?_, ?_, ?_, ?_, ?_, ?_, ?_, ?_, ?_, ?_⟩
  · intro s d c hs hr
    have he : exec .contextStart s = .next (s.contextStart d c) := exec_of_subject hs
    rw [he]
    obtain ⟨hsome, hnone⟩ := State.contextStart_of_idle c hr
    exact ⟨fun x hx => by rw [hsome x hx], fun hx => by rw [hnone hx]⟩
  · intro s d c old x hs hr
    have he : exec .contextStart s = .next (s.contextStart d c) := exec_of_subject hs
    rw [he]
    obtain ⟨hstays, hcomes, hfirst⟩ := State.contextStart_of_run (c := c) (x := x) hr
    exact ⟨fun h => by rw [hstays h], fun h hc hen => by rw [hcomes h hc hen], fun h hc hx => by rw [hfirst h hc hx]⟩
  · intro s d n c hs hr hn hsw
    have he : exec .sliceEnd s = .next (s.sliceEnd d n) := exec_of_subject hs
    rw [he]
    refine ⟨fun hx => ?_, fun x hx => ⟨fun hm => ?_, fun hm hg hd => ?_⟩⟩
    · rw [State.sliceEnd_of_run hr hn hsw, hx]
    · rw [State.sliceEnd_of_run hr hn hsw, hx]
      simp only [hm, if_true]
    · rw [State.sliceEnd_of_empty hr hn hsw hx hm hg hd]
  · intro s k g hg hf hs
    have he : exec .flashbackTimeout s = .next (s.flashbackTimeout k g.team) := exec_of_subject hs
    rw [he, State.flashbackTimeout_of_forward hg hf]
  · intro s k g tm full hs hg ht hf hi
    have he : exec .groupSave s = .next (s.groupSave k g.team) := exec_of_subject hs
    rw [he]
    obtain ⟨hq, hn⟩ := State.groupSave_of_stopped hg ht hf hi
    exact ⟨fun h => by rw [hq h], fun h => by rw [hn h]⟩
  · intro s k g tm full due hs hg ht hf hd
    have he : exec .groupSave s = .next (s.groupSave k g.team) := exec_of_subject hs
    rw [he, State.groupSave_of_written hg ht hf hd]
  · intro s d n x hs hx hr hsw
    have he : exec .groupRestore s = .next (s.groupRestore d n) := exec_of_subject hs
    rw [he]
    exact ⟨fun hp => by rw [State.groupRestore_of_full hx hr hsw hp], fun k hp => ⟨_, rfl, State.groupRestore_spec hx hr hsw hp⟩⟩
  · intro s d l n hs hw
    have he : exec .clusterPlace s = .next (s.clusterPlace d l n) := exec_of_subject hs
    rw [he, State.clusterPlace_of_saved hw]
  · intro s d l n hs hsw hw
    have he : exec .clusterPlace s = .next (s.clusterPlace d l n) := exec_of_subject hs
    rw [he]
    obtain ⟨hplaced, hnone⟩ := State.clusterPlace_of_free l n hsw hw
    exact ⟨fun t ht => by rw [hplaced t ht], fun ht => by rw [hnone ht]⟩
  · intro s o hs low
    have he : exec .clusterPlace s = .next (s.objectLoad o) := exec_of_subject hs
    rw [he]
    obtain ⟨h2, h3, h4, h5, h0⟩ := s.loadStatus_cases o
    refine ⟨fun h => ?_, fun h hl => ?_, fun h hl hb => ?_, fun h hl hb hn => ?_, fun h hl hb hn => ?_⟩
    · rw [State.objectLoad_of_refused (h2 h) (by decide)]
    · rw [State.objectLoad_of_refused (h3 h hl) (by decide)]
    · rw [State.objectLoad_of_refused (h4 h hl hb) (by decide)]
    · rw [State.objectLoad_of_refused (h5 h hl hb hn) (by decide)]
    · exact ⟨_, rfl, State.objectLoad_of_accepted (h0 h hl hb hn)⟩
  · intro s d l n cn r since hs hr hsince h
    have he : exec .headBlocking s = .next (s.headBlocking d l n cn) := exec_of_subject hs
    rw [he, State.headBlocking_of_due hr hsince h]
  · intro s p k g hs hp ho
    have he : exec .clauseStart s = .next (s.clauseStart p) := exec_of_subject hs
    exact ⟨_, he, State.clauseStart_of_ready hp ho⟩
  · intro s k g c u hs hg hr hf hc
    have he : exec .clauseFetchArrive s = .next (s.clauseFetchArrive k) := exec_of_subject hs
    rw [he]
    obtain ⟨hkept, hlater⟩ := State.clauseFetchArrive_of_clause hg hr hf hc
    refine ⟨fun h => ⟨_, rfl, ?_⟩, fun e h => by rw [hlater e h]⟩
    rw [hkept h]
    exact State.putGroup_group?_self ..
  · intro s x tm n hs ht hb el
    have he : exec .budgetTick s = .next (s.budgetTick (.team x)) := exec_of_subject hs
    rw [he]
    obtain ⟨hearly, hcounts, hout⟩ := State.budgetTick_of_counting ht hb
    refine ⟨fun h => by rw [hearly h], fun h hn => by rw [hcounts h hn], fun k g h hn hk hg hnone => ⟨_, rfl, ?_⟩⟩
    rw [hout h hn]
    exact State.teamBudgetOut_of_one hk hg hnone
  · intro s x hs ht
    have he : exec .budgetGraceExpire s = .next (s.budgetGraceExpire x) := exec_of_subject hs
    rw [he]
    unfold State.budgetGraceExpire
    rw [ht]
  · intro s x tm k g hs ht hk hg hsaved
    have he : exec .budgetGraceExpire s = .next (s.budgetGraceExpire x) := exec_of_subject hs
    rw [he, State.budgetGraceExpire_of_one ht hk hg hsaved]
  · intro s x tm hs ht hg
    have he : exec .teamRetire s = .next (s.teamRetire x) := exec_of_subject hs
    rw [he]
    unfold State.teamRetire
    simp only [ht]
    rw [if_pos (by simpa using hg)]
  · intro s x tm hs ht hg hb
    have he : exec .teamRetire s = .next (s.teamRetire x) := exec_of_subject hs
    rw [he, State.teamRetire_of_busy ht hg hb]
  · intro s x tm hs ht hg hb hr
    have he : exec .teamRetire s = .next (s.teamRetire x) := exec_of_subject hs
    rw [he, State.teamRetire_of_over ht hg hb hr]
  · intro s p k g n hs hc hp hg hr hn
    have he : exec .claimGrant s = .next (s.claimGrant p) := exec_of_subject hs
    subst hp
    obtain ⟨hgroup, hclaims⟩ := State.claimGrant_of_one hc hg hr hn
    exact ⟨_, _, he, hgroup, rfl, rfl, rfl, rfl, hclaims, fun r l hw hwell => Group.grant_regLane n hwell hw l⟩
  · intro s p hs h
    have he : exec .deadlockCheck s = .next (s.deadlockCheck p) := exec_of_subject hs
    rw [he, State.deadlockCheck_of_free h]
  · intro s p k g n hs hk hg hr hc hd
    have he : exec .deadlockCheck s = .next (s.deadlockCheck p) := exec_of_subject hs
    obtain ⟨m, hm⟩ := State.deadlockCheck_of_deadlock hk hg hr hc hd
    exact ⟨_, _, he, hm, rfl, rfl, rfl⟩

end Sys2Proof.Machine
end

section
namespace Sys2Proof.Machine

/-! ## Fabric ports, errors and retries (O46) -/

/-! ### A walk does not look at the agenda -/

section
variable (s : State) (a : List (Nat × Event))

theorem walkFrom_setAgenda (at_ : Nat → Except XFault Place) (lin : Nat) (l : List (Nat × Nat × Nat × Nat)) (table : Nat) :
    walkFrom (s.setAgenda a) at_ lin l table = walkFrom s at_ lin l table := by
  induction l generalizing table with
  | nil => rfl
  | cons e r ih =>
    have hread : ∀ p, (s.setAgenda a).read64 p = s.read64 p := fun _ => rfl
    obtain ⟨lvl, sh, nb, size⟩ := e
    simp only [walkFrom, hread, ih]

theorem State.walk2_setAgenda (die : Nat) (c : Ctx) (gpa : Nat) : (s.setAgenda a).walk2 die c gpa = s.walk2 die c gpa := by
  simp only [State.walk2, walkFrom_setAgenda]

theorem State.stage2_setAgenda (die ctx : Nat) (fresh : Bool) (gpa : Nat) :
    (s.setAgenda a).stage2 die ctx fresh gpa = s.stage2 die ctx fresh gpa := by
  have hdie : (s.setAgenda a).die die = s.die die := rfl
  have hctx : (s.setAgenda a).ctx die ctx = s.ctx die ctx := rfl
  have hfree : (s.setAgenda a).freeCtr = s.freeCtr := rfl
  simp only [State.stage2, State.walk2_setAgenda, hdie, hctx, hfree]

theorem State.closedOn_setAgenda (x y : Nat) : (s.setAgenda a).closedOn x y = s.closedOn x y := by
  have hf : (s.setAgenda a).fabric = s.fabric := rfl
  have hwall : ∀ l, (s.setAgenda a).wall l = s.wall l := fun _ => rfl
  have hslot : ∀ d, (s.setAgenda a).slotOf d = s.slotOf d := fun _ => rfl
  simp only [State.closedOn, State.linksTo_congr hf, State.inSlot_congr hf, hwall, hslot]

theorem State.tableAt_setAgenda (die ctx : Nat) (fresh : Bool) : (s.setAgenda a).tableAt die ctx fresh = s.tableAt die ctx fresh := by
  funext n
  simp only [State.tableAt, State.stage2_setAgenda, State.closedOn_setAgenda]

theorem State.walk_setAgenda (die ctx : Nat) (fresh : Bool) (lin : Nat) : (s.setAgenda a).walk die ctx fresh lin = s.walk die ctx fresh lin := by
  unfold State.walk
  simp only [walkFrom_setAgenda, State.tableAt_setAgenda]
    <;> rfl

theorem State.nested_setAgenda (w : Who) (fresh : Bool) (l : Leaf) (lin : Nat) (need : Need) :
    (s.setAgenda a).nested w fresh l lin need = s.nested w fresh l lin need := by
  unfold State.nested
  simp only [State.stage2_setAgenda]
    <;> rfl

theorem State.landing_setAgenda (w : Who) (l : Leaf) (lin : Nat) (need : Need) : (s.setAgenda a).landing w l lin need = s.landing w l lin need := by
  have hctx : ∀ d c, (s.setAgenda a).ctx d c = s.ctx d c := fun _ _ => rfl
  have hheld : ∀ x y, (s.setAgenda a).atsHeld x y = s.atsHeld x y := fun _ _ => rfl
  have hfolio : ∀ x y z, (s.setAgenda a).folioOf x y z = s.folioOf x y z := fun _ _ _ => rfl
  have hmmio : ∀ x y z, (s.setAgenda a).mmioOpen x y z = s.mmioOpen x y z := fun _ _ _ => rfl
  have hslot : ∀ x, (s.setAgenda a).slotOf x = s.slotOf x := fun _ => rfl
  have hport : ∀ x, (s.setAgenda a).port x = s.port x := fun _ => rfl
  simp only [State.landing, State.closedOn_setAgenda, hctx, hheld, hfolio, hmmio, hslot, hport]

theorem State.freshWalk_setAgenda (w : Who) (lin : Nat) (need : Need) : (s.setAgenda a).freshWalk w lin need = s.freshWalk w lin need := by
  unfold State.freshWalk State.walkTo
  simp only [State.walk_setAgenda, State.nested_setAgenda, State.landing_setAgenda]

end

section
variable {s : State}

/-! ### Requests at a port -/

/-- One flit of a request: it stands in the buffer of its port. -/
def State.flitIn (s : State) (i l : Nat) (f : Flit) : State :=
  ((s.setFabric { s.fabric with bufs := s.fabric.bufs.put i (s.fabric.bufs.get [] i ++ [f]) }).stopLook l false .req).after 0
    (.linkFlitArrive l false .req true)

/-- Flits come into the buffer `i`, and nothing else of the memories or the groups changes. -/
def State.gainsFlits (i : Nat) (fs : List Flit) (s t : State) : Prop :=
  t.mem = s.mem ∧ t.groups = s.groups ∧ t.outbox = s.outbox ∧ t.clk = s.clk ∧ t.fabric.bufs.get [] i = s.fabric.bufs.get [] i ++ fs
    ∧ ∀ e ∈ s.agenda, e ∈ t.agenda

theorem State.stopLook_agenda (s : State) (l : Nat) (up : Bool) (c : FlitClass) : ∀ e ∈ s.agenda, e ∈ (s.stopLook l up c).agenda := by
  intro e he
  unfold State.stopLook
  dsimp only
  split
  · exact mem_insertDue_of_mem _ _ he
  · split
    · exact mem_insertDue_of_mem _ _ he
    · exact he

theorem State.flitIn_gainsFlits (s : State) (i l : Nat) (f : Flit) : State.gainsFlits i [f] s (s.flitIn i l f) := by
  obtain ⟨u, hu⟩ : ∃ u : State, u = s.setFabric { s.fabric with bufs := s.fabric.bufs.put i (s.fabric.bufs.get [] i ++ [f]) } := ⟨_, rfl⟩
  have hag := u.stopLook_agenda l false .req
  obtain ⟨r, a, n, hlook⟩ := u.stopLook_eq l false .req
  have he : s.flitIn i l f = (u.stopLook l false .req).after 0 (.linkFlitArrive l false .req true) := by rw [hu]; rfl
  rw [he, hlook]
  rw [hlook] at hag
  subst hu
  exact ⟨rfl, rfl, rfl, rfl, Tbl.get_put_self .., fun e hin => mem_insertDue_of_mem _ _ (hag e hin)⟩

theorem State.gainsFlits_trans {i : Nat} {fs gs : List Flit} {s t u : State} (a : State.gainsFlits i fs s t) (b : State.gainsFlits i gs t u) :
    State.gainsFlits i (fs ++ gs) s u := by
  obtain ⟨hm, hg, ho, hc, hb, ha⟩ := a
  obtain ⟨hm', hg', ho', hc', hb', ha'⟩ := b
  exact ⟨hm'.trans hm, hg'.trans hg, ho'.trans ho, hc'.trans hc, by rw [hb', hb, List.append_assoc], fun e he => ha' e (ha e he)⟩

theorem State.foldl_flitIn (i l : Nat) (F : Nat → Flit) (js : List Nat) (s : State) :
    State.gainsFlits i (js.map F) s (js.foldl (fun t j => t.flitIn i l (F j)) s) := by
  induction js generalizing s with
  | nil => exact ⟨rfl, rfl, rfl, rfl, (List.append_nil _).symm, fun _ h => h⟩
  | cons j r ih => exact State.gainsFlits_trans (s.flitIn_gainsFlits i l (F j)) (ih _)

/-- The flit `j` of a request. -/
def requestFlit (p : Nat) (wr : Bool) (off width : Nat) (data : List Byte) (j : Nat) : Flit :=
  { cls := .req
    cargo := .inbound p wr (off + 64 * j) (min 64 (width - 64 * j)) ((data.drop (64 * j)).take (min 64 (width - 64 * j)))
    old := false }

theorem State.fabricRequest_eq (s : State) (p : Nat) (wr : Bool) (off width : Nat) (data : List Byte) :
    s.fabricRequest p wr off width data = (List.range (max 1 ((width + 63) / 64))).foldl
      (fun t j => t.flitIn (2 * portLink p) (portLink p) (requestFlit p wr off width data j)) s := rfl

theorem State.fabricRequest_spec (s : State) (p : Nat) (wr : Bool) (off width : Nat) (data : List Byte) :
    State.gainsFlits (2 * portLink p) ((List.range (max 1 ((width + 63) / 64))).map (requestFlit p wr off width data)) s
        (s.fabricRequest p wr off width data)
      ∧ ∃ due, s.clk ≤ due ∧ (due, Event.linkFlitArrive (portLink p) false .req true) ∈ (s.fabricRequest p wr off width data).agenda := by
  rw [State.fabricRequest_eq]
  refine ⟨State.foldl_flitIn .., ?_⟩
  obtain ⟨n, hn⟩ : ∃ n, max 1 ((width + 63) / 64) = n + 1 := ⟨max 1 ((width + 63) / 64) - 1, by omega⟩
  rw [hn, List.range_succ, List.foldl_append, List.foldl_cons, List.foldl_nil]
  obtain ⟨-, -, -, hclk, -, -⟩ := State.foldl_flitIn (2 * portLink p) (portLink p) (requestFlit p wr off width data) (List.range n) s
  generalize (List.range n).foldl (fun t j => t.flitIn (2 * portLink p) (portLink p) (requestFlit p wr off width data j)) s = t at hclk ⊢
  obtain ⟨u, hu⟩ : ∃ u : State, u = t.setFabric { t.fabric with
    bufs := t.fabric.bufs.put (2 * portLink p) (t.fabric.bufs.get [] (2 * portLink p) ++ [requestFlit p wr off width data n]) } := ⟨_, rfl⟩
  have he : t.flitIn (2 * portLink p) (portLink p) (requestFlit p wr off width data n)
      = (u.stopLook (portLink p) false .req).after 0 (.linkFlitArrive (portLink p) false .req true) := by rw [hu]; rfl
  obtain ⟨r, a, m, hlook⟩ := u.stopLook_eq (portLink p) false .req
  rw [he, hlook]
  refine ⟨_, ?_, mem_insertDue _ _ _⟩
  have huc : u.clk = s.clk := by rw [hu]; exact hclk
  exact huc ▸ Nat.le_trans (Nat.le_add_right _ 0) (Nat.le_add_right _ _)

/-! ### A request looks at its window -/

theorem State.sendFlit_tables (s : State) (h : Hop) (c : Cargo) (b : Nat) :
    (s.sendFlit h c b).access = s.access ∧ (s.sendFlit h c b).groups = s.groups ∧ (s.sendFlit h c b).mem = s.mem := by
  unfold State.sendFlit
  dsimp only
  split
  · split
    · exact ⟨rfl, rfl, rfl⟩
    · exact ⟨rfl, rfl, rfl⟩
  · exact ⟨rfl, rfl, rfl⟩

theorem State.sendFlit_ports (s : State) (h : Hop) (c : Cargo) (b : Nat) : (s.sendFlit h c b).fabric.ports = s.fabric.ports := by
  unfold State.sendFlit
  dsimp only
  split
  · split
    · rfl
    · rfl
  · rfl

/-- An answer `d` leaves through port `p`; the flits left in the port's buffer are `rest`, and the groups are those of `s`. -/
def State.portAnswers (p : Nat) (rest : List Flit) (d : Option (List Byte)) (s t : State) : Prop :=
  t.fabric.bufs.get [] (2 * portLink p) = rest ∧ t.groups = s.groups
    ∧ ∃ y, t.fabric.flits.get [] (portOut p).input = s.fabric.flits.get [] (portOut p).input ++ [y] ∧ y.cls = .rsp ∧ y.cargo = .outbound p d []

theorem State.outboundHop_answers {u : State} {p : Nat} {rest : List Flit} (d : Option (List Byte))
    (hb : u.fabric.bufs.get [] (2 * portLink p) = rest) (hf : u.fabric.flits = s.fabric.flits) (hg : u.groups = s.groups)
    (hw : (u.wall (portLink p)).closed = false) (hh : u.linkHolds (portOut p) = false) :
    State.portAnswers p rest d s (u.outboundHop p d [portOut p]) ∧ (u.outboundHop p d [portOut p]).mem = u.mem
      ∧ (u.outboundHop p d [portOut p]).fabric.ports = u.fabric.ports := by
  have hopen : ¬(u.wall (portOut p).link).closed = true := fun h => Bool.false_ne_true (hw.symm.trans h)
  have he : u.outboundHop p d [portOut p] = u.sendFlit (portOut p) (.outbound p d []) 0 := if_neg hopen
  obtain ⟨F, a, n, hsend, hbufs, hflits⟩ := State.sendFlit_of_free hh (.outbound p d []) 0
  have hports := u.sendFlit_ports (portOut p) (.outbound p d []) 0
  rw [he]
  refine ⟨?_, ?_, hports⟩
  · rw [hsend]
    refine ⟨(congrArg (fun t : Tbl (List Flit) => t.get [] (2 * portLink p)) hbufs).trans hb, hg,
      { cls := .rsp, cargo := .outbound p d [], old := false },
      (congrArg (fun t : Tbl (List Flit) => t.get [] (portOut p).input) hflits).trans ?_, rfl, rfl⟩
    rw [Tbl.get_put_self, hf]
    rfl
  · rw [hsend]
    rfl

theorem State.engineWrite_of_plain {ctx : Nat} {rs : List Run} (bs : List Byte) (hd : s.domains = []) (h : ∀ r ∈ rs, r.place.plain = true) :
    ∃ p, s.engineWrite ctx rs bs = (s.writeRuns rs bs).setPoison p := by
  obtain ⟨m, hm⟩ := s.writeRuns_eq rs bs
  obtain ⟨p, hp⟩ : ∃ p, (s.writeRuns rs bs).unpoison rs = (s.writeRuns rs bs).setPoison p := by
    unfold State.unpoison
    split
    · exact ⟨(s.writeRuns rs bs).poison, rfl⟩
    · exact ⟨_, rfl⟩
  refine ⟨p, ?_⟩
  have hnone : ((s.writeRuns rs bs).setPoison p).domains = [] := by
    rw [hm]
    exact hd
  unfold State.engineWrite
  rw [s.storeRuns_of_plain ctx bs h, hp, State.outsideHit_of_no_domains _ _ hnone]

theorem State.readByte_writeBytes_hbm_ne (s : State) {d o : Nat} {bs : List Byte} {q : Place}
    (h : ∀ i < bs.length, (Place.hbm d (o + i)).key ≠ q.key) :
    (s.writeBytes (.hbm d o) bs).readByte q = s.readByte q :=
  s.readByte_writeBytes_shift (.hbm d o) q 0 bs fun i hi => by
    rw [Nat.zero_add]
    exact h i hi

theorem State.writeBytes_mem_congr {s t : State} (h : t.mem = s.mem) (p : Place) (bs : List Byte) : (t.writeBytes p bs).mem =
    (s.writeBytes p bs).mem := by
  induction bs generalizing s t p with
  | nil => exact h
  | cons b r ih => exact ih (congrArg (fun m => memPut m p.key b) h) _

theorem State.inboundRun_eq {p off width : Nat} :
    s.inboundRun p off width = if (s.port p).ien = false ∨ pteBits (s.port p).lim 16 32 * 65536 < off + width
        ∨ hbmSize < pteBits (s.port p).win 16 43 * 65536 + off + width then none
      else some { place := .hbm (pteBits (s.port p).win 59 5) (pteBits (s.port p).win 16 43 * 65536 + off), len := width } := by
  unfold State.inboundRun
  refine if_congr ?_ rfl rfl
  simp [or_assoc]

section
variable {p off width : Nat} {wr : Bool} {data : List Byte} {f : Flit} {rest : List Flit}
  (ht : takeFlit .req (s.fabric.bufs.get [] (2 * portLink p)) = some (f, rest)) (hc : f.cargo = .inbound p wr off width data)
  (hm : s.mayHop f.cargo = true)
include ht hc hm

theorem State.linkFlitArrive_inbound : ∃ r a n, s.linkFlitArrive (portLink p) false .req true
    = (s.unbuffered (2 * portLink p) rest r a n).inboundLook p wr off width data := by
  obtain ⟨r, a, n, he⟩ := (State.linkFlitArrive_leaves (l := portLink p) (up := false) ht).2 hm
  refine ⟨r, a, n, ?_⟩
  rw [he, hc]
  rfl

variable (hw : (s.wall (portLink p)).closed = false) (hh : s.linkHolds (portOut p) = false)
include hw hh

/-- A request outside the window is refused and counted. -/
theorem State.linkFlitArrive_refused (hout : s.inboundRun p off width = none) :
    (s.linkFlitArrive (portLink p) false .req true).mem = s.mem
      ∧ State.portAnswers p rest none s (s.linkFlitArrive (portLink p) false .req true)
      ∧ ((s.linkFlitArrive (portLink p) false .req true).port p).refused =
        (if (s.port p).refused = 0xffff#16 then 0xffff#16 else (s.port p).refused + 1#16) := by
  obtain ⟨r, a, n, he⟩ := State.linkFlitArrive_inbound ht hc hm
  obtain ⟨u, hu⟩ : ∃ u : State, u = (s.unbuffered (2 * portLink p) rest r a n).putPort p { s.port p with
    refused := if (s.port p).refused = 0xffff#16 then (s.port p).refused else (s.port p).refused + 1#16 } := ⟨_, rfl⟩
  have hlook : (s.unbuffered (2 * portLink p) rest r a n).inboundLook p wr off width data = u.outboundHop p none [portOut p] := by
    have hrun : (s.unbuffered (2 * portLink p) rest r a n).inboundRun p off width = none := hout
    unfold State.inboundLook
    rw [hrun, hu]
    rfl
  obtain ⟨hans, hmem, hports⟩ := State.outboundHop_answers (s := s) (u := u) (p := p) (rest := rest) none
    (by rw [hu]; exact Tbl.get_put_self ..) (by rw [hu]; rfl) (by rw [hu]; rfl) (by rw [hu]; exact hw) (by rw [hu]; exact hh)
  rw [he, hlook]
  refine ⟨hmem.trans (by rw [hu]; rfl), hans, ?_⟩
  have hport : (u.outboundHop p none [portOut p]).port p = u.port p := congrArg (fun t : Tbl Port => t.get Port.reset p) hports
  have hup : u.port p = { s.port p with
    refused := if (s.port p).refused = 0xffff#16 then (s.port p).refused else (s.port p).refused + 1#16 } := by
    rw [hu]
    exact Tbl.get_put_self ..
  rw [hport, hup]
  dsimp only
  split
  next h => exact h
  · rfl

/-- A request within the window of its port's own die is done and answered. -/
theorem State.linkFlitArrive_served {o : Nat} (hin : s.inboundRun p off width = some { place := .hbm (portDie p) o, len := width }) :
    (wr = false → (s.linkFlitArrive (portLink p) false .req true).mem = s.mem
      ∧ State.portAnswers p rest (some (s.readBytes (.hbm (portDie p) o) width)) s (s.linkFlitArrive (portLink p) false .req true))
    ∧ (wr = true → s.domains = [] → data.length = width → State.portAnswers p rest (some []) s (s.linkFlitArrive (portLink p) false .req true)
      ∧ (s.linkFlitArrive (portLink p) false .req true).mem = (s.writeBytes (.hbm (portDie p) o) data).mem) := by
  obtain ⟨r, a, n, he⟩ := State.linkFlitArrive_inbound ht hc hm
  obtain ⟨u, hu⟩ : ∃ u : State, u = s.unbuffered (2 * portLink p) rest r a n := ⟨_, rfl⟩
  obtain ⟨run, hrun⟩ : ∃ run : Run, run = { place := .hbm (portDie p) o, len := width } := ⟨_, rfl⟩
  have hhere : run.place.onDie (portDie p) = portDie p ∧ run.place.isFar = false := by
    rw [hrun]
    exact ⟨rfl, rfl⟩
  have hlook : u.inboundLook p wr off width data = u.insideHop p wr run data [] := by
    have hrun' : u.inboundRun p off width = some run := by
      rw [hu, hrun]
      exact hin
    have hnone : u.insideHops p run = [] := State.outHops_of_here .req hhere.1 hhere.2
    unfold State.inboundLook
    rw [hrun']
    dsimp only
    rw [hnone]
  have hout : u.outboundHops p run = [portOut p] := by
    unfold State.outboundHops
    rw [State.inHops_of_here .rsp hhere.1 hhere.2]
    rfl
  have hub : u.fabric.bufs.get [] (2 * portLink p) = rest := by
    rw [hu]
    exact Tbl.get_put_self ..
  rw [he, ← hu, hlook]
  constructor
  · rintro rfl
    have hread : u.insideHop p false run data [] = u.outboundHop p (some (s.readBytes (.hbm (portDie p) o) width)) [portOut p] := by
      have hbytes : u.readRuns [run] = s.readBytes (.hbm (portDie p) o) width := by
        rw [hu, hrun]
        exact List.append_nil _
      unfold State.insideHop
      rw [hout, hbytes]
      rfl
    obtain ⟨hans, hmem, -⟩ := State.outboundHop_answers (s := s) (u := u) (p := p) (rest := rest) (some (s.readBytes (.hbm (portDie p) o) width))
      hub (by rw [hu]; rfl) (by rw [hu]; rfl) (by rw [hu]; exact hw) (by rw [hu]; exact hh)
    rw [hread]
    exact ⟨hmem.trans (by rw [hu]; rfl), hans⟩
  · rintro rfl hd hlen
    obtain ⟨q, hq⟩ := State.engineWrite_of_plain (s := u) (ctx := 0) (rs := [run]) data (by rw [hu]; exact hd) (by rw [hrun]; simp [Place.plain])
    obtain ⟨m, hm⟩ := u.writeRuns_eq [run] data
    have hwrite : u.insideHop p true run data [] = ((u.writeRuns [run] data).setPoison q).outboundHop p (some []) [portOut p] := by
      unfold State.insideHop
      rw [hout, hq]
      rfl
    have hbytes : u.writeRuns [run] data = u.writeBytes (.hbm (portDie p) o) data := by
      rw [hrun]
      unfold State.writeRuns
      rw [← hlen, List.take_length]
      rfl
    have hmem : (u.writeBytes (.hbm (portDie p) o) data).mem = (s.writeBytes (.hbm (portDie p) o) data).mem :=
      State.writeBytes_mem_congr (by rw [hu]; rfl) _ _
    rw [hwrite]
    have hans := State.outboundHop_answers (s := s) (u := (u.writeRuns [run] data).setPoison q) (p := p) (rest := rest) (some [])
      (by rw [hm]; exact hub) (by rw [hm, hu]; rfl) (by rw [hm, hu]; rfl) (by rw [hm, hu]; exact hw) (by rw [hm, hu]; exact hh)
    exact ⟨hans.1, hans.2.1.trans ((congrArg State.mem hbytes).trans hmem)⟩

end

theorem State.linkFlitArrive_outbound {p : Nat} {data : Option (List Byte)} {f : Flit} {rest : List Flit}
    (ht : takeFlit .rsp (s.fabric.bufs.get [] (2 * portLink p + 1)) = some (f, rest)) (hc : f.cargo = .outbound p data []) :
    (s.linkFlitArrive (portLink p) true .rsp true).mem = s.mem ∧ (s.linkFlitArrive (portLink p) true .rsp true).groups = s.groups
      ∧ (s.linkFlitArrive (portLink p) true .rsp true).outbox = s.outbox ++ [.fabric p data] := by
  have hm : s.mayHop f.cargo = true := by
    rw [hc]
    rfl
  obtain ⟨r, a, n, he⟩ := (State.linkFlitArrive_leaves (l := portLink p) (up := true) ht).2 hm
  rw [he, hc]
  exact ⟨rfl, rfl, rfl⟩

/-! ### Port registers -/

theorem State.fpctlWrite_port (s : State) (p : Nat) (v : Word) : (s.fpctlWrite p v).port p = { s.port p with
    oen := !s.boot.retired.contains (portDie p) && v.getLsbD 0
    ien := !s.boot.retired.contains (portDie p) && v.getLsbD 1 && ((s.port p).ien
      || decide (pteBits (s.port p).win 59 5 < Config.dies) && s.slotOf (portDie p) != 0
        && s.slotOf (pteBits (s.port p).win 59 5) == s.slotOf (portDie p)) } := by
  unfold State.fpctlWrite
  exact Tbl.get_put_self ..

theorem State.fpctlWrite_port_ne (s : State) {p q : Nat} (h : q ≠ p) (v : Word) : (s.fpctlWrite p v).port q = s.port q := by
  unfold State.fpctlWrite
  exact Tbl.get_put_ne _ _ _ h

/-! ### Refusals -/

theorem find?_map_lane {f : LaneAcc → LaneAcc} (hf : ∀ y, (f y).lane = y.lane) (l : Nat) (ls : List LaneAcc) :
    (ls.map f).find? (fun y => y.lane = l) = (ls.find? fun y => y.lane = l).map f := by
  rw [List.find?_map]
  refine congrArg (fun g => (ls.find? g).map f) (funext fun y => ?_)
  simp [hf]

section
variable {id l : Nat} {a : Access} {x : LaneAcc} {g : Group}

theorem State.fabricRefused_load (ha : s.access.find id = some a) (hx : (a.lanes.find? fun y => y.lane = l) = some x) (hk : a.kind.isLoad = true)
    (hd : x.done = false ∨ x.got ≠ none) : s.fabricRefused id l = s.refusedLoad id a x := by
  unfold State.fabricRefused
  simp only [ha, hx, hk, if_true]
  refine if_neg ?_
  obtain hd | hd := hd
  · simp [hd]
  · simp [Option.isNone_iff_eq_none, hd]

theorem State.groupOf?_of_team {k : GKey} {team : Nat} (hg : s.group? k = some g) (ht : g.team = team) : s.groupOf? k team = some g := by
  unfold State.groupOf?
  rw [hg]
  simp [ht]

theorem State.refusedLoad_spec (ha : s.access.find id = some a) (hx : (a.lanes.find? fun y => y.lane = l) = some x) (hg : s.group? a.g = some g)
    (ht : g.team = a.team) : ∃ (u : State) (h : Group) (b : Access),
      s.refusedLoad id a x = u.report a.g.die a.ctx (groupFault a.g { cause := .perm, aux := 0#32, ofs := x.ofs, sel := a.sel, lin := x.lin })
        ∧ u.group? a.g = some h ∧ h.run = .parked (.page .perm) ∧ h.pc = g.pc ∧ h.clause = g.clause ∧ h.pos = g.pos ∧ u.mem = s.mem
        ∧ u.access.find id = some b ∧ (b.lanes.find? fun y => y.lane = l) = some { x with done := false, got := none } := by
  have hxl : x.lane = l := by simpa using List.find?_some hx
  obtain ⟨b, hb⟩ : ∃ b : Access, b = { a with
    lanes := a.lanes.map fun y => if y.lane = x.lane then { y with done := false, got := none } else y } := ⟨_, rfl⟩
  obtain ⟨t, htt⟩ : ∃ t : State, t = (s.unpost (.loadReturn id x.lane)).setAccess (s.access.put id b) := ⟨_, rfl⟩
  have htg : t.group? a.g = some g := by rw [htt]; exact hg
  have he : s.refusedLoad id a x = (t.leavePen a.g g (.parked (.page .perm))).report a.g.die a.ctx
      (groupFault a.g { cause := .perm, aux := 0#32, ofs := x.ofs, sel := a.sel, lin := x.lin }) := by
    have hs1 : t = (s.unpost (.loadReturn id x.lane)).setAccess ((s.unpost (.loadReturn id x.lane)).access.put id b) := htt
    unfold State.refusedLoad
    rw [hb] at hs1
    dsimp only
    rw [← hs1, htg]
    exact if_neg fun h => h ht
  refine ⟨t.leavePen a.g g (.parked (.page .perm)), _, b, he, State.leavePen_group? .., rfl, rfl, rfl, rfl,
    (State.leavePen_mem ..).trans (by rw [htt]; rfl), ?_, ?_⟩
  · have hacc : (t.leavePen a.g g (.parked (.page .perm))).access = t.access := by
      unfold State.leavePen
      dsimp only
      split
      · rfl
      · rfl
    rw [hacc, htt]
    exact Tbl.find_put_self ..
  · rw [hb]
    refine (find?_map_lane (fun y => ?_) l a.lanes).trans ?_
    · split
      · rfl
      · rfl
    · rw [hx, Option.map_some, if_pos rfl]

/-- No entry of the log is out as this access: it is the access's own lane that is refused. -/
theorem State.refusedEntry_of_none (hg : s.groupOf? a.g a.team = some g) (h : ∀ e ∈ g.log, e.away ≠ some id) : s.refusedEntry id a = none := by
  unfold State.refusedEntry
  simp only [hg]
  refine if_neg ?_
  simpa using h

theorem State.fabricRefused_store (ha : s.access.find id = some a) (hx : (a.lanes.find? fun y => y.lane = l) = some x)
    (hk : a.kind.isLoad = false) :
    s.fabricRefused id l = (s.refusedEntry id a).getD (s.refusedStore id a x) := by
  unfold State.fabricRefused
  simp only [ha, hx, hk, Bool.false_eq_true, if_false]

/-- The entry of the side log that a refused lane becomes. -/
def Access.refusedEntry (a : Access) (x : LaneAcc) : LogEntry :=
  { kind := a.kind, lane := x.lane, lin := x.lin, ofs := x.ofs, sel := a.sel, width := a.width, data := x.data, host := false, away := none }

theorem State.refusedStore_of_room (x : LaneAcc) (hg : s.groupOf? a.g a.team = some g) (hlen : g.log.length < 16) : ∃ u : State,
    (x.lin / 65536 ∉ a.told → s.refusedStore id a x = (u.report a.g.die a.ctx
      (groupFault a.g { cause := .perm, aux := 1#32, ofs := x.ofs, sel := a.sel, lin := x.lin })).after 256 (.faultRetry (.sideLog a.g)))
    ∧ (x.lin / 65536 ∈ a.told → s.refusedStore id a x = u.after 256 (.faultRetry (.sideLog a.g)))
    ∧ u.group? a.g = some { g with log := g.log ++ [a.refusedEntry x] } ∧ u.mem = s.mem := by
  have hroom : ¬16 ≤ s.logLength a := by
    unfold State.logLength
    rw [hg]
    exact Nat.not_le.2 hlen
  obtain ⟨t, ht⟩ : ∃ t : State, t = s.setAccess (s.access.put id { a with
    lanes := a.lanes.filter fun y => y.lane ≠ x.lane
    told := if a.told.contains (x.lin / 65536) then a.told else a.told ++ [x.lin / 65536] }) := ⟨_, rfl⟩
  have htg : t.groupOf? a.g a.team = some g := by rw [ht]; exact hg
  have he : s.refusedStore id a x = (if a.told.contains (x.lin / 65536) then t.putGroup a.g { g with log := g.log ++ [a.refusedEntry x] }
      else (t.putGroup a.g { g with log := g.log ++ [a.refusedEntry x] }).report a.g.die a.ctx
        (groupFault a.g { cause := .perm, aux := 1#32, ofs := x.ofs, sel := a.sel, lin := x.lin })).after 256 (.faultRetry (.sideLog a.g)) := by
    unfold State.refusedStore
    rw [if_neg hroom]
    dsimp only
    rw [← ht, htg]
    rfl
  refine ⟨t.putGroup a.g { g with log := g.log ++ [a.refusedEntry x] }, fun h => ?_, fun h => ?_, State.putGroup_group?_self .., by rw [ht]; rfl⟩
  · rw [he, if_neg (by simpa using h)]
  · rw [he, if_pos (by simpa using h)]

theorem State.refusedStore_of_full (hx : (a.lanes.find? fun y => y.lane = l) = some x) (hk : a.kind = .store) (hg : s.groupOf? a.g a.team = some g)
    (hlen : 16 ≤ g.log.length) (hw : ∀ h ∈ (s.pathOf a.g.die x.runs).head?, (s.wall h.link).closed = false) :
    ∃ b : Access, (s.refusedStore id a x).access.find id = some b
      ∧ (b.lanes.find? fun y => y.lane = l) = some { x with path := s.pathOf a.g.die x.runs, done := false, got := none }
      ∧ (s.refusedStore id a x).groups = s.groups ∧ (s.refusedStore id a x).mem = s.mem := by
  have hxl : x.lane = l := by simpa using List.find?_some hx
  have hfull : 16 ≤ s.logLength a := by
    unfold State.logLength
    rw [hg]
    exact hlen
  obtain ⟨y, hy⟩ : ∃ y : LaneAcc, y = { x with path := s.pathOf a.g.die x.runs, done := false, got := none } := ⟨_, rfl⟩
  obtain ⟨b, hb⟩ : ∃ b : Access, b = { a with lanes := a.lanes.map fun z => if z.lane = x.lane then y else z } := ⟨_, rfl⟩
  obtain ⟨t, ht⟩ : ∃ t : State, t = s.setAccess (s.access.put id b) := ⟨_, rfl⟩
  have he : s.refusedStore id a x = t.sendLane id (dieWho a.g.die a.ctx) b y 256 := by
    unfold State.refusedStore
    rw [if_pos hfull, ht, hb, hy]
  have hsent : (t.sendLane id (dieWho a.g.die a.ctx) b y 256).access = t.access ∧ (t.sendLane id (dieWho a.g.die a.ctx) b y 256).groups = t.groups
      ∧ (t.sendLane id (dieWho a.g.die a.ctx) b y 256).mem = t.mem := by
    have hbk : b.kind = .store := by rw [hb]; exact hk
    unfold State.sendLane
    split
    next h r hp =>
      have hopen : (t.wall h.link).closed = false := by
        rw [ht]
        refine hw h ?_
        have hyp : s.pathOf a.g.die x.runs = h :: r := by rw [← hp, hy]
        rw [hyp]
        rfl
      unfold State.laneHop
      rw [if_neg (by rw [hopen]; exact Bool.false_ne_true)]
      exact State.sendFlit_tables ..
    · simp only [hbk, and_self]
  obtain ⟨hacc, hgroups, hmem⟩ := hsent
  rw [he]
  refine ⟨b, ?_, ?_, hgroups.trans (by rw [ht]; rfl), hmem.trans (by rw [ht]; rfl)⟩
  · rw [hacc, ht]
    exact Tbl.find_put_self ..
  · rw [hb]
    refine (find?_map_lane (fun z => ?_) l a.lanes).trans ?_
    · split
      next hz => rw [hz, hy]
      · rfl
    · rw [hx, Option.map_some, if_pos rfl, hy]

/-- The first entry of the log was out as this access: it is back in the log. -/
theorem State.refusedEntry_of_first {e : LogEntry} {rest : List LogEntry} (hg : s.groupOf? a.g a.team = some g) (hl : g.log = e :: rest)
    (he : e.away = some id) (hr : ∀ y ∈ rest, y.away ≠ some id) : s.refusedEntry id a
      = some
        ((((s.setAccess (s.access.del id)).unpost (.accessComplete id)).putGroup a.g { g with log := { e with away := none } :: rest }).after 256
        (.faultRetry (.sideLog a.g))) := by
  have hrest : rest.map (fun e : LogEntry => if e.away == some id then { e with away := none } else e) = rest := by
    refine (List.map_congr_left fun y hy => ?_).trans (List.map_id rest)
    exact if_neg (by simpa using hr y hy)
  have hback : (if e.away == some id then { e with away := none } else e : LogEntry) = { e with away := none } := if_pos (by simp [he])
  unfold State.refusedEntry
  simp only [hg, hl, List.map_cons, hrest, hback]
  exact if_pos (by simp [he])

theorem State.fabricRefused_copy {ck : CoreKey} {y : CopyCmd} (ha : s.access.find id = none) (hc : s.findCopy id = some (ck, y)) :
    ∃ wr lin, s.fabricRefused id l = s.copyCancel ck y wr lin := by
  unfold State.fabricRefused
  simp only [ha, hc]
  exact ⟨_, _, rfl⟩

theorem State.fabricRefused_drain {ck : CoreKey} {d : Drain} (ha : s.access.find id = none) (hc : s.findCopy id = none)
    (hd : s.findDrain id = some (ck, d))
    (haway : d.away = true) : ∃ lin, s.fabricRefused id l = (s.unpost (.drainComplete ck id)).drainFault ck d .perm lin := by
  unfold State.fabricRefused
  simp only [ha, hc, hd, haway, if_true]
  exact ⟨_, rfl⟩

end

/-! ### Uncorrectable errors -/

theorem State.uncorrectable_hbm (s : State) (d o : Nat) : Place.hbm d (o / 64 * 64) ∈ (s.uncorrectable (.hbm d o)).poison
    ∧ (s.uncorrectable (.hbm d o)).mem = s.mem ∧ (s.uncorrectable (.hbm d o)).groups = s.groups := by
  unfold State.uncorrectable
  dsimp only
  split
  next h => exact ⟨by simpa using h, rfl, rfl⟩
  · exact ⟨List.mem_append_right _ List.mem_cons_self, rfl, rfl⟩

theorem State.uncorrectable_folio (s : State) (d r : Nat) : r ∈ ((s.uncorrectable (.folio d r)).die d).folioBad
    ∧ (s.uncorrectable (.folio d r)).mem = s.mem ∧ (s.uncorrectable (.folio d r)).groups = s.groups := by
  refine ⟨?_, rfl, rfl⟩
  unfold State.uncorrectable
  dsimp only
  rw [updDie_die_self]
  dsimp only
  split
  next h => simpa using h
  · exact List.mem_append_right _ List.mem_cons_self

theorem State.uncorrectable_queue (s : State) (d c q i : Nat) : i ∈ ((s.uncorrectable (.queue d c q i)).wq d (8 * c + q)).spoilt
    ∧ ((s.uncorrectable (.queue d c q i)).wq d (8 * c + q)).items = (s.wq d (8 * c + q)).items
    ∧ (s.uncorrectable (.queue d c q i)).mem = s.mem ∧ (s.uncorrectable (.queue d c q i)).groups = s.groups := by
  have he : (s.uncorrectable (.queue d c q i)).wq d (8 * c + q) = { s.wq d (8 * c + q) with
      spoilt := if (s.wq d (8 * c + q)).spoilt.contains i then (s.wq d (8 * c + q)).spoilt else (s.wq d (8 * c + q)).spoilt ++ [i] } :=
    State.putWq_wq_self ..
  rw [he]
  refine ⟨?_, rfl, rfl, rfl⟩
  dsimp only
  split
  next h => simpa using h
  · exact List.mem_append_right _ List.mem_cons_self

/-- A draft without the grain that an error hit. -/
def Task.spared (id : Nat) (p : Place) (u : Task) : Task :=
  if u.record.id = id then { u with draft := u.draft.filter fun y => y.place ≠ p } else u

theorem Task.spared_draft {id : Nat} {p : Place} {u : Task} (h : (u.spared id p).record.id = id) : ∀ y ∈ (u.spared id p).draft, y.place ≠ p := by
  intro y hy
  unfold Task.spared at h hy
  split at hy
  · simpa using (List.mem_filter.1 hy).2
  next hne =>
    rw [if_neg hne] at h
    exact absurd h hne

/-- The group whose task's draft is so. -/
def Group.spared (id : Nat) (p : Place) (g : Group) : Group := { g with task := g.task.map (Task.spared id p) }

theorem State.updDomain_leaves (s : State) (part c : Nat) (f : Domain → Domain) :
    (s.updDomain part c f).mem = s.mem ∧ (s.updDomain part c f).teams = s.teams ∧ (s.updDomain part c f).groups = s.groups := by
  unfold State.updDomain
  split
  · exact ⟨rfl, rfl, rfl⟩
  · exact ⟨rfl, rfl, rfl⟩

/-- Memory, teams and groups. -/
def State.work (s : State) : List Host.Cell × Tbl Team × Tbl Group := (s.mem, s.teams, s.groups)

theorem State.draftError_of_promoted {part ctx id n team : Nat} {tk : Task} {gr : Grain} (ht : s.taskOf part ctx id = some (tk, team))
    (hs : tk.spec = false)
    (hg : tk.draft[n]? = some gr) : ∃ t : State, s.draftError part ctx id n = t.grainLost s.freeCtr gr
      ∧ t.work = (s.mem, s.teams, s.groups.map fun e => (e.1, Group.spared id gr.place e.2)) := by
  unfold State.draftError
  simp only [ht, hs, hg, Bool.false_eq_true, if_false]
  refine ⟨_, rfl, ?_⟩
  refine (foldl_keeps State.work (fun v d => ?_) _ _).trans (foldl_keeps State.work (fun v d => ?_) _ _)
  case refine_2 => rfl
  obtain ⟨h1, h2, h3⟩ := v.updDomain_leaves part ctx fun o => o.upd d fun y => { y with
    finished := y.finished.map fun f => { f with task := Task.spared id gr.place f.task } }
  exact Prod.ext h1 (Prod.ext h2 h3)

theorem State.grainLost_of_hbm {gr : Grain} {k hd o : Nat} (h : gr.place = .hbm hd o) :
    gr.place ∈ (s.grainLost k gr).poison ∧ (s.grainLost k gr).work = s.work := by
  unfold State.grainLost
  rw [h]
  dsimp only
  split
  next hin => exact ⟨by simpa using hin, rfl⟩
  · exact ⟨List.mem_append_right _ List.mem_cons_self, rfl⟩

theorem State.draftError_spec {part ctx id n team hd o : Nat} {tk : Task} {gr : Grain} (ht : s.taskOf part ctx id = some (tk, team))
    (hs : tk.spec = false)
    (hg : tk.draft[n]? = some gr) (hp : gr.place = .hbm hd o) : gr.place ∈ (s.draftError part ctx id n).poison
      ∧ (s.draftError part ctx id n).mem = s.mem ∧ (s.draftError part ctx id n).teams = s.teams
      ∧ ∀ k h u, (s.draftError part ctx id n).group? k = some h → h.task = some u → u.record.id = id → ∀ y ∈ u.draft, y.place ≠ gr.place := by
  obtain ⟨t, he, hw⟩ := State.draftError_of_promoted ht hs hg
  obtain ⟨hpoison, hwork⟩ := t.grainLost_of_hbm (k := s.freeCtr) hp
  rw [he]
  obtain ⟨hmem, hrest⟩ := Prod.mk.inj (hwork.trans hw)
  obtain ⟨hteams, hgroups⟩ := Prod.mk.inj hrest
  refine ⟨hpoison, hmem, hteams, fun k h u hh hu hid => ?_⟩
  unfold State.group? at hh
  rw [hgroups, Tbl.find_map (Group.spared id gr.place)] at hh
  obtain ⟨g, -, rfl⟩ := Option.map_eq_some_iff.1 hh
  obtain ⟨v, -, rfl⟩ := Option.map_eq_some_iff.1 hu
  exact Task.spared_draft hid

theorem State.uncorrectable_draft {part ctx id n team : Nat} {tk : Task} (ht : s.taskOf part ctx id = some (tk, team)) (hs : tk.spec = true)
    (hn : n < tk.draft.length) : s.draftError part ctx id n = s.abort part ctx id true := by
  unfold State.draftError
  simp only [ht, hs, if_true]
  exact if_neg (Nat.not_le.2 hn)

/-! ### A side log's entry is tried again -/

theorem State.retryLog_of_empty {k : GKey} {g : Group} (n : Nat) (hg : s.group? k = some g) (hl : g.log = []) : State.retryLog k n s = s := by
  cases n with
  | zero => rfl
  | succ n =>
    unfold State.retryLog
    rw [hg]
    dsimp only
    rw [hl]

theorem State.updGroup_teams (s : State) (k : GKey) (f : Group → Group) : (s.updGroup k f).teams = s.teams := by
  unfold State.updGroup
  split
  · rfl
  · rfl

/-- An entry whose page is there and that nothing holds up is performed. -/
theorem State.retryEntry_of_here {k : GKey} {g : Group} {e : LogEntry} {o : Nat} {leaf : Leaf} {w : Who} (hd : w.die = k.die) (ha : e.away = none)
    (hk : e.kind = .store) (hlen : e.data.length = e.width) (hw : s.freshWalk w e.lin .write = .ok (.hbm k.die o, leaf)) (hacc : s.access = [])
    (hdom : s.domains = []) (hp : s.poison = []) (ht : g.task = none) :
    s.retryEntry w k g g.team e = .performed (s.writeBytes (.hbm k.die o) e.data) := by
  obtain ⟨r, hr⟩ : ∃ r : Run, r = { place := .hbm k.die o, len := e.width } := ⟨_, rfl⟩
  have hneed : e.kind.need = .write := by rw [hk]; rfl
  have hruns : s.entryRuns w e = .ok [r] := by
    unfold State.entryRuns
    rw [hneed, hw, hr]
  have hfree : s.entryWaits k g.team [r] = false := by
    unfold State.entryWaits
    rw [hacc]
    rfl
  have hpath : s.pathOf w.die [r] = [] := State.outHops_of_here .req (by rw [hr, hd]; rfl) (by rw [hr]; rfl)
  have hlane : (s.performLane k g (e.access k g.team w.ctx [r]).1 (e.access k g.team w.ctx [r]).2).2 = s.writeBytes (.hbm k.die o) e.data := by
    rw [State.performLane_store hk hdom hp ht (by
      intro q hq
      rw [List.mem_singleton.1 (show q ∈ [r] from hq), hr]
      rfl)]
    have hwr : s.writeRuns [r] e.data = s.writeBytes (.hbm k.die o) e.data := by
      rw [hr]
      unfold State.writeRuns
      rw [← hlen, List.take_length]
      rfl
    exact hwr
  have hclean : (s.writeBytes (.hbm k.die o) e.data).unpoison (if e.kind = .store then [r] else []) = s.writeBytes (.hbm k.die o) e.data := by
    obtain ⟨m, hm⟩ := s.writeBytes_eq (.hbm k.die o) e.data
    exact State.unpoison_of_empty _ _ (by rw [hm]; exact hp)
  unfold State.retryEntry
  rw [if_neg (by simp [ha]), hruns]
  dsimp only
  rw [if_neg (by simp [hfree]), if_neg (by simp [hpath]), hlane, hclean]

theorem State.sideLogRetry_of_one {k : GKey} {g : Group} {e : LogEntry} {o : Nat} {leaf : Leaf} (hg : s.group? k = some g) (ht : g.task = none)
    (hl : g.log = [e]) (ha : e.away = none) (hk : e.kind = .store) (hlen : e.data.length = e.width) (hr : g.run ≠ .parked .frozen)
    (hw : s.freshWalk (s.whoOf k g) e.lin .write = .ok (.hbm k.die o, leaf)) (hacc : s.access = []) (hdom : s.domains = []) (hp : s.poison = [])
    (hlogs : ∀ m ∈ s.teams, m.2.logs = []) :
    (s.sideLogRetry k).group? k = some { g with log := [] } ∧ (s.sideLogRetry k).mem = (s.writeBytes (.hbm k.die o) e.data).mem := by
  obtain ⟨ag, hag⟩ : ∃ ag, ag = s.agenda.filter fun x => x.2 ≠ .faultRetry (.sideLog k) := ⟨_, rfl⟩
  obtain ⟨u, hu⟩ : ∃ u : State, u = s.setAgenda ag := ⟨_, rfl⟩
  obtain ⟨m, hm⟩ := u.writeBytes_eq (.hbm k.die o) e.data
  obtain ⟨v, hv⟩ : ∃ v : State, v = (u.writeBytes (.hbm k.die o) e.data).updGroup k fun h => { h with log := [] } := ⟨_, rfl⟩
  have hug : u.group? k = some g := by rw [hu]; exact hg
  have hentry : u.retryEntry (u.whoOf k g) k g g.team e = .performed (u.writeBytes (.hbm k.die o) e.data) := by
    have hwho : u.whoOf k g = s.whoOf k g := by rw [hu]; rfl
    refine State.retryEntry_of_here (leaf := leaf) rfl ha hk hlen ?_ (by rw [hu]; exact hacc) (by rw [hu]; exact hdom) (by rw [hu]; exact hp) ht
    rw [hwho, hu, State.freshWalk_setAgenda]
    exact hw
  have hvg : v.group? k = some { g with log := [] } := by
    rw [hv]
    exact State.updGroup_group?_self _ (by rw [hm]; exact hug)
  have hvt : v.teams = s.teams := by
    rw [hv, State.updGroup_teams, hm, hu]
    rfl
  have hlog : State.retryLog k 17 u = v := by
    unfold State.retryLog
    rw [hug]
    dsimp only
    rw [hl]
    dsimp only
    rw [if_neg hr, hentry]
    dsimp only
    rw [← hv]
    exact State.retryLog_of_empty 16 hvg rfl
  have he : s.sideLogRetry k = v := by
    unfold State.sideLogRetry
    dsimp only
    rw [← hag, ← hu, hlog, hvt]
    exact foldl_of_unmoved fun x hx => if_neg (by simp [hlogs x hx])
  rw [he]
  refine ⟨hvg, ?_⟩
  rw [hv, State.updGroup_mem]
  exact State.writeBytes_mem_congr (by rw [hu]; rfl) _ _

end

/-- Settles O46, event by event. -/
theorem portAndErrorEvents : Obligations.PortAndErrorEvents := by
  unfold Obligations.PortAndErrorEvents
  refine ⟨?_, ?_, ?_, ?_, ?_, ?_, ?_, ?_, ?_⟩
  · intro s p wr off width data hs
    have he : exec .fabricRequestArrive s = .next (s.fabricRequest p wr off width data) := exec_of_subject hs
    obtain ⟨⟨hmem, hgroups, hout, -, hbufs, -⟩, due, hdue, hin⟩ := s.fabricRequest_spec p wr off width data
    exact ⟨_, due, he, hmem, hgroups, hout, hbufs, hdue, hin⟩
  · intro s p wr off width data f rest hs ht hc hm hw hh x at_ die answers
    have he : exec .linkFlitArrive s = .next (s.linkFlitArrive (portLink p) false .req true) := exec_of_subject hs
    rw [he]
    refine ⟨fun hout => ?_, fun hi hl hz hd => ?_⟩
    · have hrun : s.inboundRun p off width = none := State.inboundRun_eq.trans (if_pos hout)
      obtain ⟨hmem, hans, hcount⟩ := State.linkFlitArrive_refused ht hc hm hw hh hrun
      exact ⟨_, rfl, hmem, hans, hcount⟩
    · have hrun : s.inboundRun p off width = some { place := .hbm (portDie p) at_, len := width } := by
        refine State.inboundRun_eq.trans ((if_neg ?_).trans (by rw [← hd]))
        rintro (h | h | h)
        · exact Bool.false_ne_true (h.symm.trans hi)
        · exact Nat.not_lt.2 hl h
        · exact Nat.not_lt.2 hz h
      obtain ⟨hread, hwrite⟩ := State.linkFlitArrive_served ht hc hm hw hh hrun
      rw [hd]
      refine ⟨fun h => ?_, fun h hdom hlen hwf => ?_⟩
      · obtain ⟨hmem, hans⟩ := hread h
        exact ⟨_, rfl, hmem, hans⟩
      · obtain ⟨hans, hmem⟩ := hwrite h hdom hlen
        refine ⟨_, rfl, hans, ?_, fun q hq => ?_⟩
        · rw [State.readBytes_congr hmem, ← hlen]
          exact State.readBytes_writeBytes_hbm hwf ..
        · rw [State.readByte_congr hmem]
          exact s.readByte_writeBytes_hbm_ne (by rw [hlen]; exact hq)
  · intro s p data f rest hs ht hc
    have he : exec .linkFlitArrive s = .next (s.linkFlitArrive (portLink p) true .rsp true) := exec_of_subject hs
    exact ⟨_, he, State.linkFlitArrive_outbound ht hc⟩
  · intro s p v hs x die idie inside
    have he : exec .fpctlWrite s = .next (s.fpctlWrite p v) := exec_of_subject hs
    have hport := s.fpctlWrite_port p v
    have hin : inside ↔ (decide (idie < Config.dies) && s.slotOf die != 0 && s.slotOf idie == s.slotOf die) = true := by
      rw [Bool.and_eq_true, Bool.and_eq_true, decide_eq_true_iff, bne_iff_ne, beq_iff_eq, and_assoc]
      exact Iff.rfl
    refine ⟨_, he, rfl, rfl, fun q hq => s.fpctlWrite_port_ne hq v, fun hr => ?_, fun hr hv => ?_, fun hr hv hi => ?_, fun hr hv hi hn => ?_⟩
    · rw [hport, hr]
      rfl
    · rw [hport, hr, hv]
      rfl
    · have hopen : ((s.port p).ien || decide (idie < Config.dies) && s.slotOf die != 0 && s.slotOf idie == s.slotOf die) = true := by
        rw [Bool.or_eq_true, ← hin]
        exact hi
      rw [hport, hr, hv, hopen]
      rfl
    · have hshut : ((s.port p).ien || decide (idie < Config.dies) && s.slotOf die != 0 && s.slotOf idie == s.slotOf die) = false := by
        rw [Bool.or_eq_false_iff]
        exact ⟨hi, Bool.eq_false_iff.2 (mt hin.2 hn)⟩
      rw [hport, hr, hv, hshut]
      rfl
  · intro s p up hs
    exact exec_of_subject hs
  · intro s id l hs
    have he : exec .fabricRefusalReceive s = .next (s.fabricRefused id l) := exec_of_subject hs
    rw [he]
    refine ⟨fun a x g ha hx hg ht => ⟨fun hk hd => ?_, fun hk hnone => ?_, fun e rest hk hl haway hrest => ?_⟩, fun ck y ha hc => ?_,
      fun ck d ha hc hd haway => ?_⟩
    · obtain ⟨u, h, b, hload, hrest⟩ := State.refusedLoad_spec ha hx hg ht
      refine ⟨u, h, b, ?_, hrest⟩
      rw [State.fabricRefused_load ha hx hk hd, hload]
    · have hof := State.groupOf?_of_team hg ht
      have hstore : s.fabricRefused id l = s.refusedStore id a x := by
        rw [State.fabricRefused_store ha hx (by rw [hk]; rfl), State.refusedEntry_of_none hof hnone]
        rfl
      rw [hstore]
      refine ⟨fun hlen => ?_, fun hlen hw => ?_⟩
      · obtain ⟨u, hnew, htold, hgroup, hmem⟩ := State.refusedStore_of_room (id := id) x hof hlen
        exact ⟨u, a.refusedEntry x, fun h => by rw [hnew h], fun h => by rw [htold h], hgroup, hk, rfl, rfl, rfl, rfl, rfl, hmem⟩
      · obtain ⟨b, hb, hlane, hgroups, hmem⟩ := State.refusedStore_of_full (id := id) hx hk hof hlen hw
        exact ⟨_, b, rfl, hb, hlane, hgroups, hmem⟩
    · have hentry := State.refusedEntry_of_first (State.groupOf?_of_team hg ht) hl haway hrest
      rw [State.fabricRefused_store ha hx (by rw [hk]; rfl), hentry]
      exact ⟨_, _, rfl, State.putGroup_group?_self .., rfl, Nat.le_add_right _ _, mem_insertDue _ _ _⟩
    · obtain ⟨wr, lin, hcopy⟩ := State.fabricRefused_copy (l := l) ha hc
      exact ⟨wr, lin, by rw [hcopy]⟩
    · obtain ⟨lin, hdrain⟩ := State.fabricRefused_drain (l := l) ha hc hd haway
      exact ⟨lin, by rw [hdrain]⟩
  · intro s e hs
    have he : exec .uncorrectableError s = .next (s.uncorrectable e) := exec_of_subject hs
    rw [he]
    refine ⟨?_, ?_, ?_, ?_, ?_, ?_, ?_, ?_, ?_, ?_⟩
    · rintro d o rfl
      exact ⟨_, rfl, s.uncorrectable_hbm d o⟩
    · rintro d r rfl
      exact ⟨_, rfl, s.uncorrectable_folio d r⟩
    · rintro d c q i rfl
      exact ⟨_, rfl, s.uncorrectable_queue d c q i⟩
    · rintro d rfl
      rfl
    · rintro d rfl
      rfl
    · rintro k g rfl hg
      unfold State.uncorrectable
      simp only [hg]
    · rintro ck b tm rfl hb
      unfold State.uncorrectable
      simp only [hb]
    · rintro ck n rfl
      rfl
    · rintro ck tm rfl ho
      unfold State.uncorrectable
      simp only [ho]
    · rintro part ctx id n tk team rfl ht hn
      refine ⟨fun hspec => ?_, fun gr hd o hspec hg hp => ?_⟩
      · exact congrArg Host.Outcome.next (State.uncorrectable_draft ht hspec hn)
      · exact ⟨_, rfl, State.draftError_spec ht hspec hg hp⟩
  · intro s d hs
    exact exec_of_subject hs
  · intro s w hs
    have he : exec .faultRetry s = .next (s.faultRetry w) := exec_of_subject hs
    rw [he]
    refine ⟨?_, ?_, ?_, ?_, ?_, ?_, ?_⟩
    · rintro d f rfl
      rfl
    · rintro ck id rfl
      rfl
    · rintro ck id rfl
      rfl
    · rintro l n rfl
      rfl
    · rintro p c n rfl
      rfl
    · rintro k rfl
      rfl
    · rintro k g e d o leaf rfl hg ht hl ha hk hlen hr rfl hw hacc hdom hp hlogs hwf
      obtain ⟨hgroup, hmem⟩ := State.sideLogRetry_of_one hg ht hl ha hk hlen hr hw hacc hdom hp hlogs
      refine ⟨_, _, rfl, hgroup, rfl, ?_, fun q hq => ?_⟩
      · exact (State.readBytes_congr hmem _ _).trans (hlen ▸ State.readBytes_writeBytes_hbm hwf ..)
      · exact (State.readByte_congr hmem _).trans (s.readByte_writeBytes_hbm_ne (by rw [hlen]; exact hq))

end Sys2Proof.Machine
end

section
namespace Sys2Proof.Machine

/-! ## What O43 comes down to

All of O43 but its last clause holds outright. The last clause, that MARGIN_CHECK leaves memory and groups, holds exactly if no reading of the
monitors is negative: a negative one of die 0 retires that die, which clears the machine (R19, log 76), and `Config.marginReading` is a free
value (log 5). -/

section
variable (s : State)

/-! ### Start and stages -/

theorem State.stagePost_eq : ∃ out due n, s.stagePost = (s.setFreeCtr n).post due (.stageAdvance out) := ⟨_, _, _, rfl⟩

theorem State.stagePost_boot : s.stagePost.boot = s.boot := rfl

theorem State.cleared_mem (e : Host.Cell) : e ∈ s.cleared.mem ↔ e ∈ s.mem ∧ e.1 % 8 = 5 := by
  refine List.mem_filter.trans ?_
  rw [decide_eq_true_iff]

/-- What a start leaves, whether the module is in service or not. -/
theorem State.startUp_spec : ∃ out due, s.startUp.boot.stage = 0 ∧ s.startUp.groups = [] ∧ s.startUp.teams = [] ∧ s.startUp.ctxs = []
    ∧ s.startUp.host = HostIf.reset ∧ s.startUp.boot.copyA = s.boot.copyA ∧ s.startUp.boot.copyB = s.boot.copyB
    ∧ s.startUp.boot.keys = s.boot.keys ∧ s.startUp.boot.ctr = s.boot.ctr ∧ s.startUp.boot.minVersion = s.boot.minVersion
    ∧ s.startUp.boot.retired = s.boot.retired
    ∧ s.startUp.agenda = (if s.boot.retired.contains 0 = true then [] else [(due, .stageAdvance out)])
    ∧ ∀ e, e ∈ s.startUp.mem ↔ e ∈ s.mem ∧ e.1 % 8 = 5 := by
  unfold State.startUp
  split
  · exact ⟨.ok, 0, rfl, rfl, rfl, rfl, rfl, rfl, rfl, rfl, rfl, rfl, rfl, rfl, s.cleared_mem⟩
  · obtain ⟨out, due, n, he⟩ := s.cleared.stagePost_eq
    rw [he]
    exact ⟨out, due, rfl, rfl, rfl, rfl, rfl, rfl, rfl, rfl, rfl, rfl, rfl, rfl, s.cleared_mem⟩

end

section
variable {s : State}

/-- A stage whose work has gone well, on a module that has not tripped. -/
def State.stageDone (s : State) : State :=
  match s.boot.stage with
  | 0 => (s.setBoot { s.boot with stage := 1 }).stagePost
  | 1 => match s.loadCopy with
    | some s1 => (s1.setBoot { s1.boot with stage := 2 }).stagePost
    | none => s.setBoot { s.boot with failCode := 1#8 }
  | 2 =>
    if s.boot.columns < 4 then (s.setBoot { s.boot with columns := s.boot.columns + 1 }).stagePost
    else ((s.setBoot { s.boot with stage := 3, columns := 5 }).post s.clk .marginCheck).stagePost
  | 3 => s.setBoot { s.boot with stage := 4 }
  | _ => s

theorem State.stageAdvance_of_ok (h : s.boot.tripped = false) :
    (s.boot.stage = 0 → (s.stageAdvance .ok).boot.stage = 1)
    ∧ (s.boot.stage = 1 → s.imageOk s.boot.copyA = true → (s.stageAdvance .ok).boot.stage = 2 ∧ (s.stageAdvance .ok).boot.loaded = some false
        ∧ (s.stageAdvance .ok).boot.minVersion = max s.boot.minVersion (Config.imageVersion s.boot.copyA))
    ∧ (s.boot.stage = 1 → s.imageOk s.boot.copyA = false → s.imageOk s.boot.copyB = true →
        (s.stageAdvance .ok).boot.stage = 2 ∧ (s.stageAdvance .ok).boot.loaded = some true)
    ∧ (s.boot.stage = 1 → s.imageOk s.boot.copyA = false → s.imageOk s.boot.copyB = false →
        (s.stageAdvance .ok).boot.stage = 1 ∧ (s.stageAdvance .ok).boot.failCode = 1#8)
    ∧ (s.boot.stage = 2 → s.boot.columns < 4 → (s.stageAdvance .ok).boot.stage = 2 ∧ (s.stageAdvance .ok).boot.columns = s.boot.columns + 1)
    ∧ (s.boot.stage = 2 → 4 ≤ s.boot.columns → (s.stageAdvance .ok).boot.stage = 3 ∧ ∃ d, (d, Event.marginCheck) ∈ (s.stageAdvance .ok).agenda)
    ∧ (s.boot.stage = 3 → s.stageAdvance .ok = s.setBoot { s.boot with stage := 4 }) := by
  have he : s.stageAdvance .ok = s.stageDone := if_neg (by simp [h])
  rw [he]
  unfold State.stageDone State.loadCopy
  refine ⟨fun hs => ?_, fun hs ha => ?_, fun hs ha hb => ?_, fun hs ha hb => ?_, fun hs hc => ?_, fun hs hc => ?_, fun hs => ?_⟩
  · rw [hs]
    rfl
  · rw [hs, ha]
    exact ⟨rfl, rfl, rfl⟩
  · rw [hs, ha, hb]
    exact ⟨rfl, rfl⟩
  · rw [hs, ha, hb]
    refine ⟨?_, rfl⟩
    exact hs
  · rw [hs]
    dsimp only
    rw [if_pos hc]
    exact ⟨hs, rfl⟩
  · rw [hs]
    dsimp only
    rw [if_neg (Nat.not_lt.2 hc)]
    exact ⟨rfl, s.clk, mem_insertDue_of_mem _ _ (mem_insertDue _ _ _)⟩
  · rw [hs]
    rfl

theorem State.stageAdvance_of_bad (h : s.boot.tripped = false) (code : Byte) (d : Nat) :
    s.stageAdvance (.bad code d) = s.setBoot { s.boot with failCode := code, failDie := d % 32 } := if_neg (by simp [h])

/-! ### Margins -/

/-- No reading of the monitors is negative. -/
def readingsHold : Prop := ∀ n, BitVec.slt (Config.marginReading n) 0#16 = false

/-- The state once the monitors of die `d` are read: its margin is known and its voltage planned anew, and the host is told of a low margin. -/
def State.marginRead (s : State) (d : Nat) : State :=
  let m := Config.marginReading (s.freeCtr + d)
  let s1 := s.updDie d fun x => { x with margin := m, voltage := Config.voltagePlan (s.freeCtr + d) }
  if BitVec.slt m 10#16 then s1.send (.margin d) else s1

theorem State.dieMargin_eq (s : State) (d : Nat) : s.dieMargin d = if s.boot.retired.contains d then s
    else if BitVec.slt (Config.marginReading (s.freeCtr + d)) 0#16 ∧ !(s.marginRead d).dieEnabled d then (s.marginRead d).retireDie d
    else s.marginRead d := rfl

theorem State.marginRead_leaves (s : State) (d : Nat) :
    (s.marginRead d).mem = s.mem ∧ (s.marginRead d).groups = s.groups ∧ (s.marginRead d).ctxs = s.ctxs := by
  unfold State.marginRead
  dsimp only
  split
  · exact ⟨rfl, rfl, rfl⟩
  · exact ⟨rfl, rfl, rfl⟩

theorem State.dieMargin_of_hold (h : readingsHold) (s : State) (d : Nat) : (s.dieMargin d).mem = s.mem ∧ (s.dieMargin d).groups = s.groups := by
  obtain ⟨hmem, hgroups, -⟩ := s.marginRead_leaves d
  rw [State.dieMargin_eq]
  split
  · exact ⟨rfl, rfl⟩
  · rw [if_neg (by simp [h _])]
    exact ⟨hmem, hgroups⟩

/-- The check, once every die has been read: the state `t` is due to be checked again. -/
theorem State.marginCheck_eq (s : State) : ∃ t : State, t = (List.range Config.dies).foldl State.dieMargin s
    ∧ s.marginCheck = (t.setFreeCtr (s.freeCtr + Config.dies)).post (s.clk + 30 * 86400 * 940000000) .marginCheck := ⟨_, rfl, rfl⟩

theorem State.marginCheck_spec (s : State) : (s.clk + 30 * 86400 * 940000000, Event.marginCheck) ∈ s.marginCheck.agenda
    ∧ s.marginCheck.mem = ((List.range Config.dies).foldl State.dieMargin s).mem
    ∧ s.marginCheck.groups = ((List.range Config.dies).foldl State.dieMargin s).groups := by
  obtain ⟨t, ht, he⟩ := s.marginCheck_eq
  rw [← ht, he]
  exact ⟨mem_insertDue _ _ _, rfl, rfl⟩

theorem State.marginCheck_of_hold (h : readingsHold) (s : State) : s.marginCheck.mem = s.mem ∧ s.marginCheck.groups = s.groups := by
  obtain ⟨-, hmem, hgroups⟩ := s.marginCheck_spec
  exact ⟨hmem.trans (foldl_keeps State.mem (fun t d => (t.dieMargin_of_hold h d).1) _ s),
    hgroups.trans (foldl_keeps State.groups (fun t d => (t.dieMargin_of_hold h d).2) _ s)⟩

/-- A die's reading leaves no group where there was none. -/
theorem State.dieMargin_no_groups {s : State} (h : s.groups = []) (d : Nat) : (s.dieMargin d).groups = [] := by
  have hread := (s.marginRead_leaves d).2.1.trans h
  obtain ⟨-, -, -, hother, hzero⟩ := (s.marginRead d).retireDie_spec d
  rw [State.dieMargin_eq]
  split
  · exact h
  · split
    · by_cases hd : d = 0
      · exact (hzero hd).2.1
      · exact (hother hd).2.1.trans hread
    · exact hread

theorem foldl_dieMargin_no_groups (l : List Nat) {s : State} (h : s.groups = []) : (l.foldl State.dieMargin s).groups = [] := by
  induction l generalizing s with
  | nil => exact h
  | cons d r ih => exact ih (State.dieMargin_no_groups h d)

/-- A negative reading of die 0, with no enabled context there, clears the module. -/
theorem State.dieMargin_of_negative {s : State} (hr : s.boot.retired = []) (hc : s.ctxs = [])
    (hn : BitVec.slt (Config.marginReading s.freeCtr) 0#16 = true) :
    (s.dieMargin 0).groups = [] := by
  have hoff : (s.marginRead 0).dieEnabled 0 = false := by
    unfold State.dieEnabled State.ctx
    rw [(s.marginRead_leaves 0).2.2, hc]
    decide
  obtain ⟨-, -, -, -, hzero⟩ := (s.marginRead 0).retireDie_spec 0
  rw [State.dieMargin_eq, if_neg (by rw [hr]; exact Bool.false_ne_true), if_pos ⟨hn, by rw [hoff]; rfl⟩]
  exact (hzero rfl).2.1

theorem exec_marginCheck {s : State} (hs : s.subject = .marginCheck) : exec .marginCheck s = .next s.marginCheck := exec_of_subject hs

/-- A group on a module just reset, at the check that draws the reading `n` for die 0. -/
def marginWitness (n : Nat) : State := ((ts (tg 0)).setFreeCtr n).setSubject .marginCheck

theorem marginWitness_of_negative {n : Nat} (hn : BitVec.slt (Config.marginReading n) 0#16 = true) :
    (marginWitness n).marginCheck.groups = [] := by
  obtain ⟨-, -, hgroups⟩ := (marginWitness n).marginCheck_spec
  rw [hgroups, show Config.dies = 19 + 1 from rfl, List.range_succ_eq_map, List.foldl_cons]
  exact foldl_dieMargin_no_groups _ (State.dieMargin_of_negative rfl rfl hn)

end

/-- O43 holds exactly if no reading of the free value `Config.marginReading` is negative. -/
theorem startAndResetEvents_iff : Obligations.StartAndResetEvents ↔ readingsHold := by
  constructor
  · intro h n
    obtain ⟨-, -, -, -, -, hcheck⟩ := h
    by_contra hn
    obtain ⟨t, he, -, hgroups, -⟩ := hcheck (marginWitness n) rfl
    have ht : t = (marginWitness n).marginCheck := Host.Outcome.next.inj (he.symm.trans (exec_marginCheck rfl))
    rw [ht, marginWitness_of_negative (Bool.eq_true_of_not_eq_false hn)] at hgroups
    cases hgroups
  · intro h
    unfold Obligations.StartAndResetEvents
    refine ⟨?_, ?_, ?_, ?_, ?_, ?_⟩
    · rintro s i (⟨hs, rfl⟩ | ⟨hs, rfl⟩)
      · have he : exec .powerOn s = .next s.startUp := exec_of_subject hs
        obtain ⟨out, due, hspec⟩ := s.startUp_spec
        exact ⟨_, out, due, he, hspec⟩
      · have he : exec .moduleReset s = .next s.startUp := exec_of_subject hs
        obtain ⟨out, due, hspec⟩ := s.startUp_spec
        exact ⟨_, out, due, he, hspec⟩
    · intro s hs ht
      have he : exec .stageAdvance s = .next (s.stageAdvance .ok) := exec_of_subject hs
      rw [he]
      obtain ⟨h0, h1a, h1b, h1n, h2, h3, h4⟩ := State.stageAdvance_of_ok ht
      exact ⟨fun a => ⟨_, rfl, h0 a⟩, fun a b => ⟨_, rfl, h1a a b⟩, fun a b c => ⟨_, rfl, h1b a b c⟩, fun a b c => ⟨_, rfl, h1n a b c⟩,
        fun a b => ⟨_, rfl, h2 a b⟩, fun a b => ⟨_, rfl, h3 a b⟩, fun a => by rw [h4 a]⟩
    · intro s code d hs ht
      have he : exec .stageAdvance s = .next (s.stageAdvance (.bad code d)) := exec_of_subject hs
      rw [he, State.stageAdvance_of_bad ht]
    · intro s d hs
      exact exec_of_subject hs
    · intro s d hs
      have he : exec .thermalTrip s = .next (s.thermalTrip d) := exec_of_subject hs
      exact ⟨_, he, rfl, rfl, rfl, rfl, rfl, rfl, rfl⟩
    · intro s hs
      have he := exec_marginCheck hs
      obtain ⟨hmem, hgroups⟩ := State.marginCheck_of_hold h s
      exact ⟨_, he, hmem, hgroups, s.marginCheck_spec.1⟩

end Sys2Proof.Machine
end
